-- ==== Sys2Proof/Word.lean ====
section
/-! DEFINITION. The word types of the device: 64-bit registers and instruction words, 8-bit memory bytes. -/

namespace Sys2Proof

/-- A register, scalar register or instruction word (R43, R494): 64 bits. -/
abbrev Word := BitVec 64

/-- One byte of device memory. -/
abbrev Byte := BitVec 8

end Sys2Proof
end

