-- ==== Sys2Proof/Operand.lean ====
section
/-! DEFINITION. The types of the commands' operands: what an event, a packet, a message or a host request carries. -/

namespace Sys2Proof

/-- The engine queues of a core (R44, R45). -/
inductive EngineQ where
  | array | vector | mover0 | mover1 | transposer | comm
deriving DecidableEq, Repr

/-- Which waiting instruction of a core a timeout names: the sequencer's own, the head of a queue, or one in flight. -/
inductive WaitRef where
  | sequencer
  | queueHead (q : EngineQ)
  | inFlight (id : Nat)
deriving DecidableEq, Repr

/-- How a physical memory error met by an access is seen by its controller (R151, R154 to R156): in the memory of the address,
corrected or not; in a comb-store line that holds the address, corrected or not; on the link of the second tier, where a retry
helped or failed. -/
inductive EccKind where
  | corrected
  | uncorrectable
  | lineCorrected
  | lineUncorrectable
  | linkRetried
  | linkFailed
deriving DecidableEq, Repr

/-- A memory error met at an address; `rowBank` is the row and bank of an HBM error (detail 3 of R157). -/
structure EccEvent where
  addr : Nat
  kind : EccKind
  rowBank : Nat
deriving DecidableEq, Repr

/-- A stage item (R200): job step, attempt, micro-batch index, receiving virtual stage, and its bytes. -/
structure StageItem where
  step : Nat
  attempt : Nat
  index : Nat
  vstage : Nat
  data : List Byte
deriving DecidableEq, Repr

/-- The form of a gradient chunk (R233 byte 14). -/
inductive ChunkForm where
  | dense | sparse | sign
deriving DecidableEq, Repr

/-- The signature of a collective (R303): its two words. -/
structure Sig where
  w0 : Word
  w1 : Word
deriving DecidableEq, Repr

/-- The payload of a gradient chunk with the reduction fields of R233; `vals` are FP32 encodings (dense: elements; sparse:
values), `idxs` the sparse indices, `signs` the sign bits of a sign block. A dense chunk without values is a first chunk
without payload (R296). -/
structure GradWire where
  chunk : Nat
  form : ChunkForm
  round : Nat
  part : Nat
  parts : Nat
  mag : Nat
  srcRes : Nat
  rndRes : Nat
  nonfinite : Bool
  vals : List (BitVec 32)
  idxs : List Nat
  signs : List Bool
deriving DecidableEq, Repr

/-- A gradient chunk as it reaches this member (R233, R300): header fields, whether a backup sent it (R252), the outcomes of
its index check (R237) and of the adder's own check (R236: none where it holds, else the residue of the exact sums that its residue
path found), and the port it came by. -/
structure GradChunk where
  sig : Sig
  src : Nat
  first : Bool
  lateRank : Nat
  lateBeat : Nat
  earlyBeat : Nat
  backup : Bool
  icrcOk : Bool
  adderFault : Option Nat
  port : Nat
  wire : GradWire
deriving DecidableEq, Repr

/-- A message presented to a ring (R273): the device-set fields and the slots' bytes as sent. -/
structure RingMsg where
  srcRank : Nat
  srcCtx : Nat
  epoch : Nat
  kind : Nat
  seq : Nat
  reservedClear : Bool
  slots : Nat
  bytes : List Byte
deriving DecidableEq, Repr

/-- A bulk chunk (R300) as it reaches this member. `vals` are wire values of a combining stage, `data` the bytes of a
non-combining one, `crcOk` whether its payload check passed. -/
structure BulkChunk where
  sig : Sig
  src : Nat
  stage : Nat
  first : Bool
  elem : Nat
  lateRank : Nat
  lateBeat : Nat
  earlyBeat : Nat
  crcOk : Bool
  comparatorOk : Bool
  gather : Bool
  srcRes : Nat
  rndRes : Nat
  nonfinite : Bool
  vals : List (BitVec 64)
  data : List Byte
  port : Nat
deriving DecidableEq, Repr

/-- Why a collective aborts (R307, R309). -/
inductive AbortReason where
  | mismatch | check | timeout | memberLost
deriving DecidableEq, Repr

/-- A packet of the fabric (R360): header fields and payload. -/
structure Packet where
  dest : Nat
  ep : Nat
  esc : Bool
  src : Nat
  vc : Nat
  hops : Nat
  data : List Byte
deriving DecidableEq, Repr

/-- A link unit (R357 to R360): its body, of 256 bytes, of 64 for a Waggle cell and of none for an idle unit, and its trailer. What the
payload of an identity unit (R372) and of a credit packet (R364) looks like the spec does not say: `ident` is the FAB_UID and port that
the unit spells, `credit` the VC, class and flits. `laneFault` is the lane that an examination under R363 finds at fault, where this
unit makes one. -/
structure LinkUnit where
  body : List Byte
  trailer : BitVec 64
  ident : Option (Nat × Nat)
  credit : Option (Nat × Nat × Nat)
  laneFault : Option Nat
deriving DecidableEq, Repr

/-- What one receive position of a port found in training (R375): the remote (FAB_UID, port, lane), or dark. -/
structure LaneSeen where
  uid : Nat
  port : Nat
  lane : Nat
deriving DecidableEq, Repr

/-- What the training of a port ends with (R375, R376). -/
structure TrainResult where
  lanes : List (Option LaneSeen)
  remoteReportsUs : Bool
  remoteAddr : Nat
  remoteDepth : Nat
  ownLit : Bool
deriving DecidableEq, Repr

/-- One device of the census and the assignment (R372): its identity and address. -/
structure SwarmNode where
  uid : Nat
  addr : Nat
deriving DecidableEq, Repr

/-- A link of the fabric (R372): FAB_UID and port of its two ends. -/
structure SwarmLink where
  uidA : Nat
  portA : Nat
  uidB : Nat
  portB : Nat
deriving DecidableEq, Repr

/-- What a report of a Hum input fault says (R392, R394): a fault that is over at once, one that lasts from now on, or that the fault
which lasted has ended. -/
inductive FaultPhase where
  | momentary | begins | ends
deriving DecidableEq, Repr

/-- A Hum input fault as it is seen (R392): the FAB_UID of a second master (cause 8), and whether the fault lasts. -/
structure FaultSeen where
  uid : Nat
  phase : FaultPhase
deriving DecidableEq, Repr

/-- The time that a PTP message gives (R388): the PTP time in microseconds, and its offset from it. -/
structure PtpTime where
  us : Nat
  offsetNs : Int
deriving DecidableEq, Repr

/-- What a neighbour offers in ELECT (R372): the local port, the FAB_UID of its best root candidate, and its distance from it. -/
structure RootOffer where
  port : Nat
  root : Nat
  distance : Nat
deriving DecidableEq, Repr

/-- A route table entry (R368). -/
structure Route where
  mask : Nat
  escPort : Nat
  isLocal : Bool
  dist : Nat
deriving DecidableEq, Repr

/-- What had an item in a credited FIFO when it was reset (R285): an instruction started on a core, the instruction that the core's
sequencer holds, or a transfer that the device makes for a context. -/
inductive CdcVictim where
  | started (x l id : Nat)
  | held (x l : Nat)
  | transfer (x : Nat)
deriving DecidableEq, Repr

/-- What the reset of a FIFO meets (R285, R286): whether it is the one that carries records to the error log, and what had items in it. -/
structure CdcLoss where
  errPath : Bool
  victims : List CdcVictim
deriving DecidableEq, Repr

/-- The readings the throttle uses at a beat (R480): package estimate in W, its VCORE current in A, hottest sensor of
each die in degrees C. -/
structure BeatInputs where
  pkgW : Nat
  amps : Nat
  dieTemp : List Int
deriving DecidableEq, Repr

/-- One telemetry sample (R477 to R479): the readings, how many tries of the AVSBus transaction failed, with the cause, the
command word and the status word of the last, the fused temperature term, and the rails within tolerance. -/
structure TelemetrySample where
  vcoreMv : Nat
  vcoreA : Nat
  vcoreW : Nat
  pkgW : Nat
  sensors : List (Nat × Int)
  monitorMv : List Nat
  tempTermMv : Int
  avsFails : Nat
  avsCause : Nat
  avsWord : Nat
  regStatus : Nat
  railsIn : Nat
deriving DecidableEq, Repr

/-- A core's self-test result (R110, R111, R131): per array the faulty columns and K rows found, and whether the core
itself passed. -/
structure CoreTest where
  core : Nat
  passed : Bool
  arrays : List (Nat × Nat)
deriving DecidableEq, Repr

/-- A row of a window's batch list as another stage receives it (R401, R409). -/
structure BatchRow where
  entry : Nat
  model : Nat
  first : Nat
  prefill : Bool
  emits : Bool
  recompute : Bool
  tokens : Nat
  request : Nat
  pmap : Nat
  tokbuf : Nat
  seed : Nat
deriving DecidableEq, Repr

/-- An output record as it comes back to the head (R401, R411): the row of the window, the token, and END. -/
structure OutRecord where
  row : Nat
  token : Nat
  last : Bool
deriving DecidableEq, Repr

/-- A stage's report with a returned window item (R402): its free HBM and second-tier pages. -/
structure PageReport where
  hbm : Nat
  l2 : Nat
deriving DecidableEq, Repr

/-- What comes back to the head with a window (R402, R411): the reports of its stages and its output records. -/
structure WindowReturn where
  reports : List PageReport
  records : List OutRecord
deriving DecidableEq, Repr

/-- Which result a takeover reduction returns (R428). -/
inductive TakeoverStep where
  | lostRank | target | drone
deriving DecidableEq, Repr

/-- A REG_WR or configuration entry (R54, R451): address, mask, value. -/
structure RegEntry where
  addr : Nat
  mask : Word
  value : Word
deriving DecidableEq, Repr

/-- A handle the manifest declares (R126, section kind 2): number, size, tier pin, access weight, writable, code,
and whether it is marked as a gradient handle (R218). -/
structure ManHandle where
  h : Nat
  size : Nat
  pin : Option Nat
  weight : Nat
  writable : Bool
  code : Bool
  gradient : Bool
deriving DecidableEq, Repr

/-- A task class (R125): ids, core group, distribution and the handles it uses. -/
structure ManClass where
  first : Nat
  count : Nat
  group : Option (Nat × Nat)
  block : Bool
  uses : List Nat
deriving DecidableEq, Repr

/-- A flag map entry of the manifest (R257, section kind 5) with its barrier's E (R269). -/
structure ManFlag where
  name : Nat
  barrier : Bool
  index : Nat
  remoteOk : Bool
  stepScoped : Bool
  expect : Nat
  spanning : Option Nat
deriving DecidableEq, Repr

/-- A ring of the manifest (R271, section kind 6). -/
structure ManRing where
  ring : Nat
  log2Size : Nat
  handle : Nat
  handlers : Nat
  groupFirst : Nat
  groupLast : Nat
  hHandle : Nat
  hOffset : Nat
  combining : Bool
  combInt : Bool
  expect : Nat
  combTags : Nat
deriving DecidableEq, Repr

/-- A collective group of the manifest (R293, section kind 7): id, this device's rank, the members' job ranks. -/
structure ManGroup where
  gid : Nat
  rank : Nat
  members : List Nat
deriving DecidableEq, Repr

/-- One virtual stage's queue (R198): handle, slot bytes, slot count. -/
structure ManQueue where
  handle : Nat
  slotBytes : Nat
  slots : Nat
deriving DecidableEq, Repr

/-- One virtual stage (R197, R198, R202, R205, section kind 8): the four queues, the stash, and the entry tasks with
their task classes (forward, backward, accumulate). -/
structure ManVStage where
  inFwd : ManQueue
  inBwd : ManQueue
  outFwd : ManQueue
  outBwd : ManQueue
  stashHandle : Nat
  stashBytes : Nat
  fwdEntry : Word
  bwdEntry : Word
  accEntry : Word
  fwdClass : Option Nat
  bwdClass : Option Nat
  accClass : Option Nat
deriving DecidableEq, Repr

/-- Stage geometry (R197): position s, positions S, micro-batches per step m, and the virtual stages; the job rank at each position
of the replica, and the job ranks of backups by the position that they shadow (R252). -/
structure ManStage where
  pos : Nat
  positions : Nat
  mbPerStep : Nat
  vstages : List ManVStage
  ranks : List Nat
  backups : List (Nat × Nat)
deriving DecidableEq, Repr

/-- Reduction buffer and optimizer handler (R226, R243, section kind 9); `backups` gives, for each backup device, the rank it
shadows and its own job rank (R252). -/
structure ManReduce where
  gid : Nat
  bufHandle : Nat
  elems : Nat
  entry : Word
  groupFirst : Nat
  groupLast : Nat
  stateHandles : List Nat
  staging : Nat
  working : Nat
  residual : Option Nat
  backups : List (Nat × Nat)
  backupRole : Option Nat
deriving DecidableEq, Repr

/-- Checkpoint part (R422, R424, R427, section kind 10). -/
structure ManCkpt where
  buddyOf : List (Nat × Nat)
  handles : List Nat
  drones : List Nat
  droneIndex : Option Nat
deriving DecidableEq, Repr

/-- A serving model's tasks (R403, R410, section kind 11). -/
structure ManModel where
  model : Nat
  entry : Word
  cls : Option Nat
  head : Bool
  last : Bool
  devices : Nat
deriving DecidableEq, Repr

/-- The records of a manifest's sections, as the Keeper reads them (R453). -/
structure Manifest where
  budgets : List Nat
  scratch : Nat
  dequeEntries : Nat
  handles : List ManHandle
  classes : List ManClass
  launch : List (Word × Nat)
  flags : List ManFlag
  rings : List ManRing
  groups : List ManGroup
  ranks : Option (Nat × List Nat)
  stage : Option ManStage
  reduce : Option ManReduce
  ckpt : Option ManCkpt
  models : Option (List ManModel)
  batchHandle : Nat
  outHandle : Nat
  srSeed : Word
  ftz : Bool
deriving DecidableEq, Repr

/-- A join's request (R405). -/
structure JoinReq where
  part : Nat
  model : Nat
  cls : Nat
  priority : Nat
  request : Nat
  seed : Nat
  prompt : Nat
  newTokens : Nat
  tokHandle : Nat
  tokOffset : Nat
  tokBytes : Nat
  pmHandle : Nat
  pmOffset : Nat
  pmEntries : Nat
deriving DecidableEq, Repr

/-- A MODEL request (R403, R456). -/
inductive ModelReq where
  | register (id part backing bytes layers : Nat) (pinned : Bool)
  | unregister (id : Nat)
  | pin (id : Nat) (pinned : Bool)
deriving DecidableEq, Repr

/-- A host request of R450 as it is executed. -/
inductive HostReq where
  | discover
  | openSess (addr port : Nat) (secured : Bool)
  | closeSess
  | regRd (addrs : List Nat)
  | regWr (entries : List RegEntry)
  | memRd (addr len : Nat) (ecc : List EccEvent)
  | memWr (addr : Nat) (data : List Byte) (ecc : List EccEvent)
  | upload (kind index offset : Nat) (data : List Byte)
  | bootGo
  | cfgApply
  | ctxLoad (slot addr len : Nat) (badField : Option (Nat × Nat)) (man : Manifest)
  | ctxLaunch (slot : Nat) (args : List Word)
  | ctxStop (slot : Nat)
  | ctxResume (slot : Nat)
  | ctxUnload (slot : Nat)
  | ctxSave (slot addr len : Nat)
  | ctxRestore (slot addr len : Nat)
  | ctxHandles (slot first count : Nat)
  | doorbell (slot name : Nat)
  | ringSend (ring epoch : Nat) (bytes : List Byte)
  | events (on : Bool)
  | input (part cursor offset total : Nat) (data : List Byte)
  | join (j : JoinReq)
  | cancel (request : Nat)
  | model (m : ModelReq)
  | attest (nonce : List Byte) (ctx : Option Nat)
  | keyInstall (an : Nat) (tx : Bool) (hostKey wrapped : List Byte)
  | prpRevoke (lms : Bool) (slot ecdsaSlot lmsSlot : Nat) (sigE sigL : List Byte)
  | prpSvnCommit
  | prpDebugChallenge
  | prpDebugResponse (scope ecdsaSlot lmsSlot : Nat) (sigE sigL : List Byte)
deriving DecidableEq, Repr

/-- A Yalerern message from the host (R445): the fields of its header, bytes 24 to 27 and the CRC among them, its payload of LEN bytes,
the address and the port that it came from, and the request that its OP and its payload, with those of the parts before it, spell: none
for an OP that R450 does not list. -/
structure YlpMsg where
  ver : Nat
  flags : Nat
  op : Nat
  session : Nat
  status : Nat
  seq : Nat
  ack : Nat
  tag : Nat
  credit : Nat
  zero : Nat
  crc : Nat
  payload : List Byte
  addr : Nat
  port : Nat
  req : Option HostReq
deriving DecidableEq, Repr

/-- What an Ethernet frame carries once parsed (R441, R443). An IP address is a number of 128 bits, an IPv4 address the low 32 bits
of one whose next 16 bits are ones. -/
inductive EthBody where
  /-- A UDP datagram: destination address, destination port, the Yalerern message in it. -/
  | udp (dst port : Nat) (m : YlpMsg)
  /-- A PTP message: directly in the frame, or in a UDP datagram to an address and a port. -/
  | ptp (dst : Option (Nat × Nat))
  /-- An ARP request for an IPv4 address; an NDP solicitation and an NDP advertisement of an IPv6 address. -/
  | arp (target : Nat)
  | solicit (target : Nat)
  | advert (target : Nat)
  /-- An ICMP or ICMPv6 echo request to an address. -/
  | echo (dst : Nat)
  | other
deriving DecidableEq, Repr

/-- The SecTAG of a protected frame (IEEE 802.1AE): the octet of TCI and AN, SL, the packet number, the SCI where the octet announces
one; and the secured data and the check value (R444). -/
structure SecTag where
  octet : Nat
  sl : Nat
  pn : Nat
  sci : Nat
  data : List Byte
  icv : List Byte
deriving DecidableEq, Repr

/-- An Ethernet frame at the host port (R441, R444): its addresses, its length and its VLAN tag, whether its checksums hold, whether it
has a fragment, IPv4 options or an extension header, its protection and what it carries, decrypted. -/
structure EthFrame where
  dst : Nat
  src : Nat
  len : Nat
  vlan : Option Nat
  checksumOk : Bool
  fragment : Bool
  sec : Option SecTag
  body : EthBody
deriving DecidableEq, Repr

/-- Which items a receiver's report is of (R199, R252): the direction, and whether they are the copies that a backup was sent. -/
structure ItemFlow where
  forward : Bool
  copy : Bool
deriving DecidableEq, Repr

/-- A receiver's report of a capped item (R199): the outbound slot that it left from, and the credits returned. -/
structure CapReport where
  slot : Nat
  credits : Nat
deriving DecidableEq, Repr

/-- A copy's acknowledgement (R425): the generation, and the rank that acknowledges it. -/
structure CopyAck where
  gen : Nat
  rank : Nat
deriving DecidableEq, Repr

/-- What a drone reads with a slot (R429, R431): the manifests by context, the launch arguments by context, and whether the
load has failed. -/
structure DroneRead where
  mans : List (Nat × Manifest)
  args : List (Nat × List Word)
  failed : Bool
deriving DecidableEq, Repr

/-- What the host port's lanes report (R442): lanes that lost lock, by bit, and uncorrectable codewords in a millisecond. -/
structure LaneReport where
  lanes : Nat
  codewords : Nat
deriving DecidableEq, Repr

end Sys2Proof
end

