-- ==== Sys2Proof/Syntax.lean ====
section
/-! DEFINITION. The commands of the block: one constructor for each row of spec/opcode_table.json, in the table's order.
In the rows of the instruction families `x` is the context slot, `l` the logical core and `id` the number under which the
instruction is in flight on that core; `p` is a partition. -/

namespace Sys2Proof

/-- The commands and events of the device (spec/opcode_table.json, spec/95). -/
inductive Instr where
  -- the sequencer and its tasks (R45, R48, R114, R325 to R337, R520)
  | instructionFetch (x l : Nat) (ecc : List EccEvent)
  | engineQueueStart (x l : Nat) (q : EngineQ)
  | tokenPost (x l id : Nat)
  | kEnd (x l : Nat)
  | taskEndComplete (x l : Nat)
  | kSpawn (x l : Nat)
  | kBr (x l : Nat)
  | kAlu (x l : Nat)
  | kAlui (x l : Nat)
  | kMovi (x l : Nat)
  | kCmp (x l : Nat)
  | kLd (x l : Nat) (ecc : List EccEvent)
  | kSt (x l : Nat)
  | kId (x l : Nat)
  | kTd (x l : Nat)
  | kTcpy (x l : Nat)
  | kTrd (x l : Nat)
  | kCtxEvent (x l : Nat)
  | kCtxStop (x l : Nat)
  | kNop (x l : Nat)
  -- arrays (R170 to R179)
  | aLdw (x l id : Nat) (ecc : List EccEvent)
  | aSwp (x l id : Nat)
  | aMul (x l id : Nat) (ecc : List EccEvent)
  | aMult (x l id : Nat) (ecc : List EccEvent)
  | aDrn (x l id : Nat)
  -- vector engine (R181 to R189)
  | vAdd (x l id : Nat) (ecc : List EccEvent)
  | vSub (x l id : Nat) (ecc : List EccEvent)
  | vMul (x l id : Nat) (ecc : List EccEvent)
  | vDiv (x l id : Nat) (ecc : List EccEvent)
  | vFma (x l id : Nat) (ecc : List EccEvent)
  | vMax (x l id : Nat) (ecc : List EccEvent)
  | vMin (x l id : Nat) (ecc : List EccEvent)
  | vAdds (x l id : Nat) (ecc : List EccEvent)
  | vMuls (x l id : Nat) (ecc : List EccEvent)
  | vAxpy (x l id : Nat) (ecc : List EccEvent)
  | vSqrt (x l id : Nat) (ecc : List EccEvent)
  | vRsqrt (x l id : Nat) (ecc : List EccEvent)
  | vExp (x l id : Nat) (ecc : List EccEvent)
  | vLog (x l id : Nat) (ecc : List EccEvent)
  | vSilu (x l id : Nat) (ecc : List EccEvent)
  | vCvt (x l id : Nat) (ecc : List EccEvent)
  | vRed (x l id : Nat) (ecc : List EccEvent)
  -- movers and transposer (R190 to R195)
  | mCpy (x l id : Nat) (ecc : List EccEvent)
  | mGth (x l id : Nat) (ecc : List EccEvent)
  | mSct (x l id : Nat) (ecc : List EccEvent)
  | mTrn (x l id : Nat) (ecc : List EccEvent)
  | mFil (x l id : Nat)
  -- flags and barriers (R338 to R342)
  | sSet (x l id : Nat)
  | sClr (x l id : Nat)
  | sWait (x l id : Nat)
  | sBar (x l id : Nat)
  | sBwait (x l id : Nat)
  -- rings (R343 to R345)
  | qSend (x l id : Nat) (ecc : List EccEvent)
  | qAck (x l id : Nat)
  | qOpen (x l id : Nat)
  | qClose (x l id : Nat)
  | qReset (x l id : Nat)
  -- collectives (R346 to R350)
  | cBulk (x l id : Nat) (ecc : List EccEvent)
  | cWred (x l id : Nat)
  -- beats (R351, R352)
  | bRd (x l : Nat)
  | bAt (x l : Nat)
  -- slices and foragers (R27, R28, R120, R203)
  | sliceEnd (p : Nat)
  | sliceStart (p : Nat)
  | foragerSteal (x thief : Nat)
  | heldSpawnRelease (x l : Nat)
  -- memory (R146, R158, R159)
  | hbmRowRepair (e : Nat) (resource : Bool)
  | patrolScrubRead (ecc : EccEvent)
  | cmbFlush (mask : Nat)
  | cmbFlushDone (p : Nat)
  -- the stage (R198 to R222)
  | inboundItemCapped (p : Nat) (forward : Bool) (item : StageItem)
  | outboundCappedReport (p j : Nat) (flow : ItemFlow) (report : CapReport)
  | forwardAdmission (p j : Nat)
  | backwardAdmission (p j : Nat)
  | accumulateAdmission (p j : Nat)
  | cellHoldLimit (cell : Nat)
  | stepEndOrResult (p : Nat) (orResult : Bool)
  -- the exchange (R226 to R254)
  | gradientChunkArrival (p : Nat) (c : GradChunk)
  | handlerChunkDelivery (p c : Nat)
  | grdLate (p rank round : Nat)
  | commitVoteResult (p : Nat) (halt rpt nfx due busy : Bool)
  | parameterGatherComplete (p : Nat)
  -- checkpoints (R425, R426)
  | snapshotDone (p : Nat)
  | wardCopyArrival (p gen rank : Nat) (slot : List Byte) (crcOk : Bool)
  | checkpointAckArrival (p : Nat) (ack : CopyAck)
  | ckpFail (p cause : Nat)
  -- arrivals for flags, waits, Waggle barriers (R262, R266, R319)
  | remoteSetArrival (rank x name : Nat)
  | waitTimeout (x l : Nat) (w : WaitRef)
  | waggleBarrierEntry (tree port gen : Nat)
  | waggleBarrierRelease (tree gen : Nat)
  -- rings (R274 to R281, R284, R286)
  | ringMessageArrival (ring : Nat) (m : RingMsg) (intact : Bool)
  | combinedMessagePlace (ring tag : Nat)
  | handlerDispatch (ring : Nat)
  | sendAnswerArrival (x l id reason epoch : Nat)
  | ringResetComplete (ring : Nat)
  | cdcPtrMismatch (fifo cls items : Nat) (loss : CdcLoss)
  | cdcGap (fifo : Nat) (fresh errPath : Bool)
  -- collectives (R302 to R320)
  | bulkChunkArrival (slot : Nat) (c : BulkChunk)
  | abortNoticeArrival (slot gen seq : Nat) (waggle : Bool) (reason : AbortReason)
  | abortNaming (slot rankA : Nat) (sigA : Sig) (rankB : Nat) (sigB : Sig)
  | colTimeout (slot awaited stage : Nat)
  | collectiveComplete (slot : Nat)
  | waggleContributionArrival (tree port : Nat) (sig : Sig) (vals : List Int) (bad : List Bool)
  | waggleResultArrival (tree : Nat) (sig : Sig) (vals : List Int) (bad : List Bool)
  | waggleTimeout (p : Nat)
  -- fabric (R354 to R379)
  | linkUnitReceive (port : Nat) (u : LinkUnit)
  | escapeWaitExpiry (port : Nat) (pkt : Nat)
  | laneFailure (port lane cause codewords : Nat)
  | laserSourceFailure (engine source : Nat) (microwatts : Nat)
  | confirmRequestArrival (port : Nat)
  | confirmAnswerArrival (port lseq : Nat)
  | confirmTimeout (port : Nat)
  | receiveDarkTimeout (port : Nat)
  | lightDetected (port : Nat)
  | portTrainingDone (port : Nat) (t : TrainResult)
  | fabPctlRetrain (port : Nat)
  | fabCmdStart
  | swarmLinksEnd (elapsedMs : Nat)
  | swarmElectQuiet (ports roots distances : List Nat) (quietBeats : Nat)
  | swarmCensusDone (nodes : List (Nat × Option Nat)) (links : List SwarmLink)
  | swarmAssignDone (nodes : List SwarmNode) (links : List SwarmLink)
  | swarmRoutesDone
  | epochSwitch (vc : Nat)
  -- the Hum and the clocks (R384 to R397, R511)
  | beatTick (b : BeatInputs)
  | humSourceHealthy (src cleanBeats : Nat)
  | humInputFault (src cause : Nat) (ppb : Int) (seen : FaultSeen)
  | humPpsEdge (offsetNs : Int)
  | humCellArrival (masterUid port hops : Nat) (beat : Word) (offsetNs : Int)
  | humPathMeasure (port roundTripNs turnaroundNs : Nat)
  | ptpMessageArrival (domain : Nat) (time : PtpTime)
  | humSetWrite (v : Word)
  | pllLossOfLock (dom : Nat)
  | clkUnlock (dom : Nat)
  | clockStageLocked (stage : Nat) (khz : List (Nat × Nat))
  -- serving (R401 to R414)
  | windowOpen (p : Nat)
  | modelLoadComplete (m : Nat)
  | windowItemArrival (p w : Nat) (rows : List BatchRow)
  | windowClose (p : Nat) (back : WindowReturn)
  | srvDeadlineMiss (entry : Nat)
  -- the Keeper, loss and takeover (R420 to R431)
  | kprWatchdog (pc activity : Nat)
  | lossNoticeArrival (x : Nat) (ranks : List Nat) (takeover : Bool)
  | takeoverAgreementResult (x : Nat) (step : TakeoverStep) (result : Nat)
  | ckpDroneTakeover (x rank oldAddr newAddr : Nat) (slot : List Byte) (read : DroneRead)
  | rollbackRestore (p : Nat)
  -- error log and registers (R435, R495, R498, R505)
  | errorRecordArrival
  | errLogRdWrite (v : Nat)
  | selectorWrite (addr : Nat) (v : Word)
  | registerWrite (addr : Nat) (mask value : Word)
  | pwrCmdAvsRetry
  | pwrCmdSensorRetry
  | ckpCmdDeclare (p rank : Nat)
  | ckpCmdTakeover (p : Nat)
  | ethCmdRetrain
  | ethSecEnableWrite (on : Bool)
  -- the host port (R441 to R448, R458, R459)
  | ethLinkDown (cause : Nat) (report : LaneReport)
  | ethModeTimeout
  | ethFallback400g (group lanesFailed : Nat)
  | ethFrameReceive (f : EthFrame)
  | ylpMessageReceive (m : YlpMsg)
  | ylpRetransmitTimeout (sess seq : Nat)
  | ylpIdleTimeout (sess : Nat)
  | hello
  | discover (tag : Nat)
  -- host operations (R450 to R458)
  | openSess (addr port : Nat) (secured : Bool) (tag : Nat)
  | closeSess (sess tag : Nat)
  | regRd (sess tag : Nat) (addrs : List Nat)
  | regWr (sess tag : Nat) (entries : List RegEntry)
  | memRd (sess tag addr len : Nat) (ecc : List EccEvent)
  | memWr (sess tag addr : Nat) (data : List Byte) (ecc : List EccEvent)
  | upload (sess tag kind index offset : Nat) (data : List Byte)
  | bootGo (sess tag : Nat)
  | imageVerificationDone
  | selfTestDone (cores : List CoreTest)
  | memoryTrainingDone (trained : Nat)
  | cfgApply (sess tag : Nat)
  | ctxLoad (sess tag slot addr len : Nat) (badField : Option (Nat × Nat)) (man : Manifest)
  | ctxLaunch (sess tag slot : Nat) (args : List Word)
  | ctxStop (sess tag slot : Nat)
  | ctxResume (sess tag slot : Nat)
  | ctxUnload (sess tag slot : Nat)
  | ctxSave (sess tag slot addr len : Nat)
  | ctxRestore (sess tag slot addr len : Nat)
  | ctxHandles (sess tag slot first count : Nat)
  | doorbell (sess tag slot name : Nat)
  | ringSend (sess tag ring epoch : Nat) (bytes : List Byte)
  | events (sess tag : Nat) (on : Bool)
  | event
  | input (sess tag part cursor offset total : Nat) (data : List Byte)
  | join (sess tag : Nat) (j : JoinReq)
  | cancel (sess tag request : Nat)
  | model (sess tag : Nat) (m : ModelReq)
  | attest (sess tag : Nat) (nonce : List Byte) (ctx : Option Nat)
  | keyInstall (sess tag an : Nat) (tx : Bool) (hostKey wrapped : List Byte)
  | prpRevoke (sess tag : Nat) (lms : Bool) (slot ecdsaSlot lmsSlot : Nat) (sigE sigL : List Byte)
  | prpSvnCommit (sess tag : Nat)
  | prpDebugChallenge (sess tag : Nat)
  | prpDebugResponse (sess tag scope ecdsaSlot lmsSlot : Nat) (sigE sigL : List Byte)
  -- I3C, reset, power (R465, R475 to R491, R510)
  | i3cSetdasa (addr : Nat)
  | i3cEntdaa (addr : Nat)
  | i3cRecoveryData (data : List Byte)
  | i3cDiscardStaged
  | i3cBootGo
  | resetRelease (bootMode : Nat)
  | pwrOkFall (railLost : Bool)
  | telemetrySample (t : TelemetrySample)
  | railOutOfTolerance (rail mv since : Nat)
  | vcoreDroop (die mv : Nat)
  | droopPauseEnd (die : Nat)
  | thermtrip (die : Nat)
  | ethLinkUp
  | resetNFall
  | pllRelock (dom : Nat)
  | keeperRestartDone
  | jtagInstruction (ir : Nat) (dr : List Byte)
deriving DecidableEq, Repr

end Sys2Proof
end

