-- ==== Sys2Proof/CynalSyntax.lean ====
section
/-! DEFINITION. The Cynal instruction set as decoded (R43, R44 and the encoding tables of the chapters Cynal compute
instructions and Cynal control, synchronisation and communication instructions). -/

namespace Sys2Proof

/-- A scalar register number g0–g63 (R31). -/
abbrev GReg := Fin 64
/-- A descriptor register number t0–t15 (R31). -/
abbrev TReg := Fin 16
/-- A predicate number p0–p7 (R31). -/
abbrev PReg := Fin 8

/-- Rounding modes of the RND field (R70). -/
inductive Rnd where
  | rne | rtz | sr
deriving DecidableEq, Repr

/-- The functions of K.ALU and K.ALUI (R330). -/
inductive AluFn where
  | add | sub | mul | and | or | xor | shl | shr | sra | min | max | minu | maxu
deriving DecidableEq, Repr

/-- The conditions of K.CMP (R330). -/
inductive CmpCc where
  | eq | ne | lt | le | gt | ge | ltu | leu | gtu | geu
deriving DecidableEq, Repr

/-- Compute types of the vector family (R182). -/
inductive CType where
  | fp32 | fp64 | int32
deriving DecidableEq, Repr

/-- Operations of the vector family (R181). -/
inductive VOp where
  | add | sub | mul | div | fma | max | min | adds | muls | axpy | sqrt | rsqrt | exp | log | silu | cvt | red
deriving DecidableEq, Repr

/-- The reduction of V.RED (R182). -/
inductive RedFn where
  | sum | max | min
deriving DecidableEq, Repr

/-- Operands of A.LDW, A.SWP, A.MUL and A.MULT (R171). -/
structure AOps where
  td : TReg
  ta : TReg
  tw : TReg
  mask : Fin 16
  nsel : Fin 4
  ksel : Fin 3
  rnd : Rnd
  sat : Bool
  defer : Bool
  strm : Bool
  gc : GReg
  gt : GReg
deriving DecidableEq, Repr

/-- Operands of A.DRN (R178). -/
structure DrnOps where
  mask : Fin 16
  td0 : TReg
  td1 : TReg
  en1 : Bool
  rnd0 : Rnd
  rnd1 : Rnd
  sat0 : Bool
  sat1 : Bool
  gt : GReg
deriving DecidableEq, Repr

/-- Operands of the vector family (R182). -/
structure VOps where
  td : TReg
  ta : TReg
  tb : TReg
  tc : TReg
  rnd : Rnd
  sat : Bool
  ct : CType
  gselA : Bool
  gselB : Bool
  bcb : Bool
  rf : RedFn
  gs : GReg
  gt : GReg
deriving DecidableEq, Repr

/-- Operands of the move family (R191). -/
structure MOps where
  td : TReg
  ts : TReg
  ti : TReg
  q : Bool
  strm : Bool
  acc : Bool
  gf : GReg
deriving DecidableEq, Repr

/-- A decoded Cynal instruction, without its header. -/
inductive CInstr where
  | kEnd
  | kSpawn (ge ga gi : GReg) (bind : Bool)
  | kBr (ofs : Int)
  | kAlu (fn : AluFn) (gd ga gb : GReg)
  | kAlui (fn : AluFn) (gd ga : GReg) (imm : Word)
  | kMovi (gd : GReg) (hi : Bool) (imm : BitVec 32)
  | kCmp (pd : PReg) (cc : CmpCc) (ga gb : GReg)
  | kLd (gd : GReg) (ts : TReg) (gb : GReg)
  | kSt (ga : GReg) (td : TReg) (gb : GReg)
  | kId (gd : GReg) (sel : Nat)
  | kTd (td : TReg) (fld : Nat) (add : Bool) (ga : GReg)
  | kTcpy (td ts : TReg)
  | kTrd (gd : GReg) (ts : TReg) (fld : Nat)
  | kCtxEvent (ga : GReg)
  | kCtxStop (ga : GReg)
  | kNop
  | aLdw (o : AOps)
  | aSwp (o : AOps)
  | aMul (o : AOps)
  | aMult (o : AOps)
  | aDrn (o : DrnOps)
  | v (op : VOp) (o : VOps)
  | mCpy (o : MOps)
  | mGth (o : MOps)
  | mSct (o : MOps)
  | mTrn (o : MOps)
  | mFil (o : MOps)
  | sSet (name : Nat) (gx : GReg) (remote : Bool) (gr gs : GReg)
  | sClr (name : Nat) (gx : GReg)
  | sWait (name : Nat) (gx : GReg) (consume soft : Bool) (gt gs : GReg)
  | sBar (name : Nat) (gx : GReg) (split soft : Bool) (gt gs gi : GReg)
  | sBwait (name : Nat) (gx : GReg) (soft : Bool) (gt gs gi : GReg)
  | qSend (ts : TReg) (slots : Nat) (gr gs : GReg)
  | qAck
  | qOpen (gr gs : GReg)
  | qClose (gr gs : GReg)
  | qReset (gr gs : GReg)
  | cBulk (td ts : TReg) (gc gs : GReg)
  | cWred (ga gd : GReg) (cnt red type : Nat) (gg gt gs : GReg)
  | bRd (gd : GReg)
  | bAt (ga : GReg) (imm : Nat)
deriving DecidableEq, Repr

/-- An instruction with its header (R43). -/
structure CWord where
  wait : Nat
  post : Nat
  pneg : Bool
  pred : PReg
  instr : CInstr
deriving DecidableEq, Repr

end Sys2Proof
end

