-- ==== Sys2Proof/Machine/RegMap.lean ====
section
/-! DEFINITION. The register map (R494 to R508 and the register tables of the chapters): the address of every register of
the control window, the place of every field, and the table of access types and reset values. Addresses count from the
start of the control window (page × 0x1000 + offset, R494). -/

namespace Sys2Proof.Machine

/-- Access types (R495). -/
inductive Acc where
  | ro | rw | w1c | wo | rwl
deriving DecidableEq, Repr

/-- A field's place in its register: least significant bit and width. -/
structure Fld where
  lo : Nat
  w : Nat
deriving DecidableEq, Repr

/-- A row of a register table: place, access type, reset value, whether the field is reserved, and whether a
configuration set leaves it alone (a counter, a selector or the log pointer, R56). -/
structure FieldDef where
  lo : Nat
  w : Nat
  acc : Acc
  reset : Nat
  reserved : Bool
  kept : Bool
deriving DecidableEq, Repr

/-- A register, or an array of registers of one layout: `pages` consecutive pages from `page`, in each `count` registers
from `off` on, `stride` bytes apart. -/
structure RegDef where
  page : Nat
  pages : Nat
  off : Nat
  stride : Nat
  count : Nat
  fields : List FieldDef
deriving DecidableEq, Repr

/-- EXC_STICKY (R82). -/
def Reg.EXC_STICKY (p : Nat) : Nat := 0x20010 + 0x1000 * p
/-- BLOCK_LOSS (R83). -/
def Reg.BLOCK_LOSS (p : Nat) : Nat := 0x20028 + 0x1000 * p
/-- SAT_COUNT (R83). -/
def Reg.SAT_COUNT (p : Nat) : Nat := 0x20030 + 0x1000 * p
/-- NUM_THR (R83). -/
def Reg.NUM_THR (p : Nat) : Nat := 0x20038 + 0x1000 * p
/-- EXC_SITE (R85). -/
def Reg.EXC_SITE (p : Nat) : Nat := 0x20018 + 0x1000 * p
/-- EXC_SITE_PC (R85). -/
def Reg.EXC_SITE_PC (p : Nat) : Nat := 0x20020 + 0x1000 * p
/-- ARR_SPARE_MAP (R112). -/
def Reg.ARR_SPARE_MAP (p : Nat) : Nat := 0x20008 + 0x1000 * p
/-- PLC_CTL (R134). -/
def Reg.PLC_CTL : Nat := 0x14000
/-- PLC_SEED (R134). -/
def Reg.PLC_SEED : Nat := 0x14008
/-- PLC_STATUS (R134). -/
def Reg.PLC_STATUS : Nat := 0x14010
/-- PLC_CORE_MAP0–2 (R134). -/
def Reg.PLC_CORE_MAP (n : Nat) : Nat := 0x14018 + 8 * n
/-- PLC_OVERRIDES (R134). -/
def Reg.PLC_OVERRIDES : Nat := 0x14030
/-- PLC_PART0–7 (R134). -/
def Reg.PLC_PART (n : Nat) : Nat := 0x14040 + 8 * n
/-- PLC_STEALS0–7 (R134). -/
def Reg.PLC_STEALS (n : Nat) : Nat := 0x14080 + 8 * n
/-- PLC_DIGEST0–5 (R134). -/
def Reg.PLC_DIGEST (n : Nat) : Nat := 0x140C0 + 8 * n
/-- PLC_DIGEST_CTX (R134). -/
def Reg.PLC_DIGEST_CTX : Nat := 0x140F0
/-- PLC_SLICE0–63 (R134). -/
def Reg.PLC_SLICE (n : Nat) : Nat := 0x14100 + 8 * n
/-- MEM_HBM_SET0–7 (R163). -/
def Reg.MEM_HBM_SET (n : Nat) : Nat := 0x15000 + 8 * n
/-- MEM_L2OWN0–15 (R163). -/
def Reg.MEM_L2OWN (n : Nat) : Nat := 0x15040 + 8 * n
/-- MEM_L2_CTL (R163). -/
def Reg.MEM_L2_CTL : Nat := 0x150C0
/-- MEM_L2_STATUS (R163). -/
def Reg.MEM_L2_STATUS : Nat := 0x150C8
/-- MEM_SCRUB (R163). -/
def Reg.MEM_SCRUB : Nat := 0x150D0
/-- MEM_ECC_THR (R163). -/
def Reg.MEM_ECC_THR : Nat := 0x150D8
/-- MEM_ECC_CORR (R163). -/
def Reg.MEM_ECC_CORR : Nat := 0x150E0
/-- MEM_ECC_UNCORR (R163). -/
def Reg.MEM_ECC_UNCORR : Nat := 0x150E8
/-- MEM_PPR_CTL (R163). -/
def Reg.MEM_PPR_CTL : Nat := 0x150F0
/-- MEM_PPR_LIST0–63 (R163). -/
def Reg.MEM_PPR_LIST (n : Nat) : Nat := 0x15100 + 8 * n
/-- CMB_PART0–7 (R164). -/
def Reg.CMB_PART (n : Nat) : Nat := 0x16000 + 8 * n
/-- CMB_CTL (R164). -/
def Reg.CMB_CTL : Nat := 0x16040
/-- CMB_FLUSH (R164). -/
def Reg.CMB_FLUSH : Nat := 0x16048
/-- CMB_STATUS (R164). -/
def Reg.CMB_STATUS : Nat := 0x16050
/-- CMB_HIT0–7 (R164). -/
def Reg.CMB_HIT (n : Nat) : Nat := 0x16080 + 8 * n
/-- BRD_PART0–7 (R224). -/
def Reg.BRD_PART (n : Nat) : Nat := 0x10000 + 8 * n
/-- BRD_LS0–7 (R224). -/
def Reg.BRD_LS (n : Nat) : Nat := 0x10040 + 8 * n
/-- BRD_LSSTAT0–7 (R224). -/
def Reg.BRD_LSSTAT (n : Nat) : Nat := 0x10080 + 8 * n
/-- BRD_STEP0–7 (R224). -/
def Reg.BRD_STEP (n : Nat) : Nat := 0x100C0 + 8 * n
/-- BRD_CURSOR0–7 (R224). -/
def Reg.BRD_CURSOR (n : Nat) : Nat := 0x10100 + 8 * n
/-- BRD_USE0–7 (R224). -/
def Reg.BRD_USE (n : Nat) : Nat := 0x10140 + 8 * n
/-- BRD_ORPHAN0–7 (R224). -/
def Reg.BRD_ORPHAN (n : Nat) : Nat := 0x10180 + 8 * n
/-- BRD_CELL_SEL (R224). -/
def Reg.BRD_CELL_SEL : Nat := 0x10200
/-- BRD_CELL0–3 (R224). -/
def Reg.BRD_CELL (n : Nat) : Nat := 0x10208 + 8 * n
/-- GRD_PART0–7 (R255). -/
def Reg.GRD_PART (n : Nat) : Nat := 0xE000 + 8 * n
/-- GRD_DEADLINE0–7 (R255). -/
def Reg.GRD_DEADLINE (n : Nat) : Nat := 0xE040 + 8 * n
/-- GRD_ROLE0–7 (R255). -/
def Reg.GRD_ROLE (n : Nat) : Nat := 0xE080 + 8 * n
/-- GRD_CHUNKS0–7 (R255). -/
def Reg.GRD_CHUNKS (n : Nat) : Nat := 0xE0C0 + 8 * n
/-- GRD_FAULT0–7 (R255). -/
def Reg.GRD_FAULT (n : Nat) : Nat := 0xE100 + 8 * n
/-- GRD_CROSS0–7 (R255). -/
def Reg.GRD_CROSS (n : Nat) : Nat := 0xE140 + 8 * n
/-- OPT_PART0–7 (R256). -/
def Reg.OPT_PART (n : Nat) : Nat := 0xF000 + 8 * n
/-- OPT_COMMITS0–7 (R256). -/
def Reg.OPT_COMMITS (n : Nat) : Nat := 0xF040 + 8 * n
/-- OPT_CHUNKS0–7 (R256). -/
def Reg.OPT_CHUNKS (n : Nat) : Nat := 0xF080 + 8 * n
/-- OPT_LAST0–7 (R256). -/
def Reg.OPT_LAST (n : Nat) : Nat := 0xF0C0 + 8 * n
/-- SYN_PART0–7 (R291). -/
def Reg.SYN_PART (n : Nat) : Nat := 0x11000 + 8 * n
/-- SYN_TMO0–63 (R291). -/
def Reg.SYN_TMO (n : Nat) : Nat := 0x11040 + 8 * n
/-- SYN_STAT0–7 (R291). -/
def Reg.SYN_STAT (n : Nat) : Nat := 0x11240 + 8 * n
/-- SYN_FLAG_SEL (R291). -/
def Reg.SYN_FLAG_SEL : Nat := 0x11280
/-- SYN_FLAG (R291). -/
def Reg.SYN_FLAG : Nat := 0x11288
/-- SYN_BAR_SEL (R291). -/
def Reg.SYN_BAR_SEL : Nat := 0x11290
/-- SYN_BAR (R291). -/
def Reg.SYN_BAR : Nat := 0x11298
/-- MSG_RING_SEL (R292). -/
def Reg.MSG_RING_SEL : Nat := 0x12000
/-- MSG_RING0–4 (R292). -/
def Reg.MSG_RING (n : Nat) : Nat := 0x12008 + 8 * n
/-- MSG_POOL (R292). -/
def Reg.MSG_POOL : Nat := 0x12030
/-- MSG_STAT0–7 (R292). -/
def Reg.MSG_STAT (n : Nat) : Nat := 0x12040 + 8 * n
/-- MSG_LOST0–7 (R292). -/
def Reg.MSG_LOST (n : Nat) : Nat := 0x12080 + 8 * n
/-- COL_CTL (R322). -/
def Reg.COL_CTL : Nat := 0xD000
/-- COL_GSEL (R322). -/
def Reg.COL_GSEL : Nat := 0xD008
/-- COL_G0–3 (R322). -/
def Reg.COL_G (n : Nat) : Nat := 0xD010 + 8 * n
/-- COL_LAGGARD (R322). -/
def Reg.COL_LAGGARD : Nat := 0xD030
/-- COL_SELF (R322). -/
def Reg.COL_SELF : Nat := 0xD038
/-- COL_STAT0–7 (R322). -/
def Reg.COL_STAT (n : Nat) : Nat := 0xD040 + 8 * n
/-- COL_STALE0–7 (R322). -/
def Reg.COL_STALE (n : Nat) : Nat := 0xD080 + 8 * n
/-- WGL_STAT (R324). -/
def Reg.WGL_STAT : Nat := 0xC000
/-- WGL_RELAY (R324). -/
def Reg.WGL_RELAY : Nat := 0xC008
/-- WGL_TREE_SEL (R324). -/
def Reg.WGL_TREE_SEL : Nat := 0xC010
/-- WGL_TREE (R324). -/
def Reg.WGL_TREE : Nat := 0xC018
/-- WGL_FAULT (R324). -/
def Reg.WGL_FAULT : Nat := 0xC020
/-- FAB_PCTLk (R382). -/
def Reg.FAB_PCTLk (k : Nat) : Nat := 0x8000 + 0x1000 * (k / 4) + 0x300 * (k % 4)
/-- FAB_PSTATk (R382). -/
def Reg.FAB_PSTATk (k : Nat) : Nat := 0x8008 + 0x1000 * (k / 4) + 0x300 * (k % 4)
/-- FAB_PIDk (R382). -/
def Reg.FAB_PIDk (k : Nat) : Nat := 0x8010 + 0x1000 * (k / 4) + 0x300 * (k % 4)
/-- FAB_LMAPk (R382). -/
def Reg.FAB_LMAPk (k : Nat) : Nat := 0x8018 + 0x1000 * (k / 4) + 0x300 * (k % 4)
/-- FAB_PERRk (R382). -/
def Reg.FAB_PERRk (k : Nat) : Nat := 0x8020 + 0x1000 * (k / 4) + 0x300 * (k % 4)
/-- FAB_PTXk (R382). -/
def Reg.FAB_PTXk (k : Nat) : Nat := 0x8028 + 0x1000 * (k / 4) + 0x300 * (k % 4)
/-- FAB_PRXk (R382). -/
def Reg.FAB_PRXk (k : Nat) : Nat := 0x8030 + 0x1000 * (k / 4) + 0x300 * (k % 4)
/-- FAB_PDROPk (R382). -/
def Reg.FAB_PDROPk (k : Nat) : Nat := 0x8038 + 0x1000 * (k / 4) + 0x300 * (k % 4)
/-- FAB_CTL (R383). -/
def Reg.FAB_CTL : Nat := 0x8C00
/-- FAB_UID (R383). -/
def Reg.FAB_UID : Nat := 0x8C08
/-- FAB_ADDR (R383). -/
def Reg.FAB_ADDR : Nat := 0x8C10
/-- FAB_SWARM (R383). -/
def Reg.FAB_SWARM : Nat := 0x8C18
/-- FAB_SHARE0–7 (R383). -/
def Reg.FAB_SHARE (n : Nat) : Nat := 0x8C20 + 8 * n
/-- FAB_RT_SEL (R383). -/
def Reg.FAB_RT_SEL : Nat := 0x8C60
/-- FAB_RT (R383). -/
def Reg.FAB_RT : Nat := 0x8C68
/-- FAB_RANK_SEL (R383). -/
def Reg.FAB_RANK_SEL : Nat := 0x8C70
/-- FAB_RANK (R383). -/
def Reg.FAB_RANK : Nat := 0x8C78
/-- FAB_ENG0–3 (R383). -/
def Reg.FAB_ENG (n : Nat) : Nat := 0x8C80 + 8 * n
/-- FAB_CMD (R383). -/
def Reg.FAB_CMD : Nat := 0x8CA0
/-- HUM_CTL (R399). -/
def Reg.HUM_CTL : Nat := 0x3000
/-- HUM_STATUS (R399). -/
def Reg.HUM_STATUS : Nat := 0x3008
/-- HUM_BEAT (R399). -/
def Reg.HUM_BEAT : Nat := 0x3010
/-- HUM_OFFSET (R399). -/
def Reg.HUM_OFFSET : Nat := 0x3018
/-- HUM_SET (R399). -/
def Reg.HUM_SET : Nat := 0x3020
/-- HUM_PATH (R399). -/
def Reg.HUM_PATH : Nat := 0x3028
/-- HUM_FAULTS (R399). -/
def Reg.HUM_FAULTS : Nat := 0x3030
/-- SRV_PART0–7 (R417). -/
def Reg.SRV_PART (n : Nat) : Nat := 0x13000 + 8 * n
/-- SRV_PAGE0–7 (R417). -/
def Reg.SRV_PAGE (n : Nat) : Nat := 0x13040 + 8 * n
/-- SRV_MC0–7 (R417). -/
def Reg.SRV_MC (n : Nat) : Nat := 0x13080 + 8 * n
/-- SRV_POOL0–7 (R417). -/
def Reg.SRV_POOL (n : Nat) : Nat := 0x130C0 + 8 * n
/-- SRV_STAT0–7 (R417). -/
def Reg.SRV_STAT (n : Nat) : Nat := 0x13100 + 8 * n
/-- SRV_DL0–7 (R417). -/
def Reg.SRV_DL (n : Nat) : Nat := 0x13140 + 8 * n
/-- SRV_TIME0–7 (R417). -/
def Reg.SRV_TIME (n : Nat) : Nat := 0x13180 + 8 * n
/-- SRV_CLASS_SEL (R417). -/
def Reg.SRV_CLASS_SEL : Nat := 0x131C0
/-- SRV_CLASS (R417). -/
def Reg.SRV_CLASS : Nat := 0x131C8
/-- SRV_MODEL_SEL (R417). -/
def Reg.SRV_MODEL_SEL : Nat := 0x131D0
/-- SRV_MODEL0 (R417). -/
def Reg.SRV_MODEL0 : Nat := 0x131D8
/-- SRV_MODEL1 (R417). -/
def Reg.SRV_MODEL1 : Nat := 0x131E0
/-- SRV_ST_SEL (R417). -/
def Reg.SRV_ST_SEL : Nat := 0x131E8
/-- SRV_ST0–7 (R417). -/
def Reg.SRV_ST (n : Nat) : Nat := 0x131F0 + 8 * n
/-- CKP_PART0–7 (R440). -/
def Reg.CKP_PART (n : Nat) : Nat := 0x19000 + 8 * n
/-- CKP_AREA0–7 (R440). -/
def Reg.CKP_AREA (n : Nat) : Nat := 0x19040 + 8 * n
/-- CKP_STAT0–7 (R440). -/
def Reg.CKP_STAT (n : Nat) : Nat := 0x19080 + 8 * n
/-- CKP_LAST0–7 (R440). -/
def Reg.CKP_LAST (n : Nat) : Nat := 0x190C0 + 8 * n
/-- CKP_CURSOR0–7 (R440). -/
def Reg.CKP_CURSOR (n : Nat) : Nat := 0x19100 + 8 * n
/-- CKP_DRONE (R440). -/
def Reg.CKP_DRONE : Nat := 0x19140
/-- CKP_CMD (R440). -/
def Reg.CKP_CMD : Nat := 0x19148
/-- CKP_COUNT (R440). -/
def Reg.CKP_COUNT : Nat := 0x19150
/-- ETH_CTL (R471). -/
def Reg.ETH_CTL : Nat := 0x6000
/-- ETH_MAC (R471). -/
def Reg.ETH_MAC : Nat := 0x6008
/-- ETH_IPV4 (R471). -/
def Reg.ETH_IPV4 : Nat := 0x6010
/-- ETH_IPV6H (R471). -/
def Reg.ETH_IPV6H (n : Nat) : Nat := 0x6018 + 8 * n
/-- ETH_PFC (R471). -/
def Reg.ETH_PFC : Nat := 0x6028
/-- ETH_SEC (R471). -/
def Reg.ETH_SEC : Nat := 0x6030
/-- ETH_STATUS (R471). -/
def Reg.ETH_STATUS : Nat := 0x6038
/-- ETH_CMD (R471). -/
def Reg.ETH_CMD : Nat := 0x6040
/-- ETH_CNT (R471). -/
def Reg.ETH_CNT : Nat := 0x6048
/-- ETH_SECCNT (R471). -/
def Reg.ETH_SECCNT : Nat := 0x6050
/-- YLP_CTL (R472). -/
def Reg.YLP_CTL : Nat := 0x7000
/-- YLP_IDLE (R472). -/
def Reg.YLP_IDLE : Nat := 0x7008
/-- YLP_SESS_SEL (R472). -/
def Reg.YLP_SESS_SEL : Nat := 0x7010
/-- YLP_SESS (R472). -/
def Reg.YLP_SESS : Nat := 0x7018
/-- YLP_SESS_ADDRH (R472). -/
def Reg.YLP_SESS_ADDRH (n : Nat) : Nat := 0x7020 + 8 * n
/-- YLP_STAT (R472). -/
def Reg.YLP_STAT : Nat := 0x7030
/-- YLP_STAT2 (R472). -/
def Reg.YLP_STAT2 : Nat := 0x7038
/-- PRP_STATUS (R473). -/
def Reg.PRP_STATUS : Nat := 0x2000
/-- PRP_NONCE0–5 (R473). -/
def Reg.PRP_NONCE (n : Nat) : Nat := 0x2008 + 8 * n
/-- PWR_CTL (R493). -/
def Reg.PWR_CTL : Nat := 0x5000
/-- PWR_AVS (R493). -/
def Reg.PWR_AVS : Nat := 0x5008
/-- PWR_TEL (R493). -/
def Reg.PWR_TEL : Nat := 0x5010
/-- PWR_TEMP (R493). -/
def Reg.PWR_TEMP : Nat := 0x5018
/-- PWR_DUTY (R493). -/
def Reg.PWR_DUTY : Nat := 0x5020
/-- PWR_STAT (R493). -/
def Reg.PWR_STAT : Nat := 0x5028
/-- PWR_RAIL (R493). -/
def Reg.PWR_RAIL : Nat := 0x5030
/-- PWR_CMD (R493). -/
def Reg.PWR_CMD : Nat := 0x5038
/-- DEV_ID (R500). -/
def Reg.DEV_ID : Nat := 0x0
/-- STEPPING (R500). -/
def Reg.STEPPING : Nat := 0x8
/-- FEATURE_FUSES (R500). -/
def Reg.FEATURE_FUSES : Nat := 0x10
/-- HERITAGE_LEVEL (R500). -/
def Reg.HERITAGE_LEVEL : Nat := 0x18
/-- BOOT_STATUS (R501). -/
def Reg.BOOT_STATUS : Nat := 0x1000
/-- BOOT_CAUSE (R501). -/
def Reg.BOOT_CAUSE : Nat := 0x1008
/-- FW_DIGEST0–5 (R501). -/
def Reg.FW_DIGEST (n : Nat) : Nat := 0x1010 + 8 * n
/-- CFG_DIGEST0–5 (R501). -/
def Reg.CFG_DIGEST (n : Nat) : Nat := 0x1040 + 8 * n
/-- OVERLAY_LIST (R501). -/
def Reg.OVERLAY_LIST : Nat := 0x1070
/-- KPR_WDOG (R501). -/
def Reg.KPR_WDOG : Nat := 0x1078
/-- CLK_DOM0–24 (R503). -/
def Reg.CLK_DOM (n : Nat) : Nat := 0x4000 + 8 * n
/-- CLK_SUMMARY (R503). -/
def Reg.CLK_SUMMARY : Nat := 0x40C8
/-- ERR_STICKY (R504). -/
def Reg.ERR_STICKY : Nat := 0x17000
/-- ERR_ALERT_MASK (R504). -/
def Reg.ERR_ALERT_MASK : Nat := 0x17008
/-- ERR_HOST_MASK (R504). -/
def Reg.ERR_HOST_MASK : Nat := 0x17010
/-- ERR_LOG_WR (R504). -/
def Reg.ERR_LOG_WR : Nat := 0x17018
/-- ERR_LOG_RD (R504). -/
def Reg.ERR_LOG_RD : Nat := 0x17020
/-- ERR_LOST (R504). -/
def Reg.ERR_LOST : Nat := 0x17028
/-- ERR_SUPPRESSED (R504). -/
def Reg.ERR_SUPPRESSED : Nat := 0x17030
/-- ERR_RATE (R504). -/
def Reg.ERR_RATE : Nat := 0x17038
/-- ERR_REC_SEL (R504). -/
def Reg.ERR_REC_SEL : Nat := 0x17040
/-- ERR_REC0–7 (R504). -/
def Reg.ERR_REC (n : Nat) : Nat := 0x17048 + 8 * n
/-- ERR_SEV_CNT (R504). -/
def Reg.ERR_SEV_CNT : Nat := 0x17088
/-- CDC_STAT (R506). -/
def Reg.CDC_STAT : Nat := 0x18000
/-- CDC_FIFO_SEL (R506). -/
def Reg.CDC_FIFO_SEL : Nat := 0x18008
/-- CDC_FIFO (R506). -/
def Reg.CDC_FIFO : Nat := 0x18010
/-- CDC_FIFO_CNT (R506). -/
def Reg.CDC_FIFO_CNT : Nat := 0x18018
/-- CORE_STATUS (R508). -/
def Reg.CORE_STATUS (p : Nat) : Nat := 0x20000 + 0x1000 * p

/-- EXC_STICKY.INVALID (R82). -/
def Fld.EXC_STICKY_INVALID : Fld := ⟨0, 1⟩
/-- EXC_STICKY.OVERFLOW (R82). -/
def Fld.EXC_STICKY_OVERFLOW : Fld := ⟨1, 1⟩
/-- EXC_STICKY.UNDERFLOW (R82). -/
def Fld.EXC_STICKY_UNDERFLOW : Fld := ⟨2, 1⟩
/-- EXC_STICKY.DIVZERO (R82). -/
def Fld.EXC_STICKY_DIVZERO : Fld := ⟨3, 1⟩
/-- EXC_STICKY.BLOCK_LOSS (R82). -/
def Fld.EXC_STICKY_BLOCK_LOSS : Fld := ⟨4, 1⟩
/-- EXC_STICKY.SATURATE (R82). -/
def Fld.EXC_STICKY_SATURATE : Fld := ⟨5, 1⟩
/-- BLOCK_LOSS.COUNT (R83). -/
def Fld.BLOCK_LOSS_COUNT : Fld := ⟨0, 48⟩
/-- SAT_COUNT.COUNT (R83). -/
def Fld.SAT_COUNT_COUNT : Fld := ⟨0, 48⟩
/-- NUM_THR.BLOCK_LOSS_THR (R83). -/
def Fld.NUM_THR_BLOCK_LOSS_THR : Fld := ⟨0, 32⟩
/-- NUM_THR.SAT_THR (R83). -/
def Fld.NUM_THR_SAT_THR : Fld := ⟨32, 32⟩
/-- EXC_SITE.KIND (R85). -/
def Fld.EXC_SITE_KIND : Fld := ⟨0, 4⟩
/-- EXC_SITE.ARRAY (R85). -/
def Fld.EXC_SITE_ARRAY : Fld := ⟨4, 3⟩
/-- EXC_SITE.KIDX (R85). -/
def Fld.EXC_SITE_KIDX : Fld := ⟨7, 9⟩
/-- EXC_SITE.COLUMN (R85). -/
def Fld.EXC_SITE_COLUMN : Fld := ⟨16, 8⟩
/-- EXC_SITE.ROW (R85). -/
def Fld.EXC_SITE_ROW : Fld := ⟨24, 16⟩
/-- EXC_SITE.HANDLE (R85). -/
def Fld.EXC_SITE_HANDLE : Fld := ⟨40, 14⟩
/-- EXC_SITE.CONTEXT (R85). -/
def Fld.EXC_SITE_CONTEXT : Fld := ⟨54, 6⟩
/-- EXC_SITE.VALID (R85). -/
def Fld.EXC_SITE_VALID : Fld := ⟨63, 1⟩
/-- EXC_SITE_PC.PC (R85). -/
def Fld.EXC_SITE_PC_PC : Fld := ⟨0, 48⟩
/-- EXC_SITE_PC.W_HANDLE (R85). -/
def Fld.EXC_SITE_PC_W_HANDLE : Fld := ⟨48, 14⟩
/-- ARR_SPARE_MAP.COL_FUSE, the field of index k (R112). -/
def Fld.ARR_SPARE_MAP_COL_FUSE (k : Nat) : Fld := ⟨0 + 16 * k, 3⟩
/-- ARR_SPARE_MAP.ROW_FUSE, the field of index k (R112). -/
def Fld.ARR_SPARE_MAP_ROW_FUSE (k : Nat) : Fld := ⟨3 + 16 * k, 3⟩
/-- ARR_SPARE_MAP.COL_SOFT, the field of index k (R112). -/
def Fld.ARR_SPARE_MAP_COL_SOFT (k : Nat) : Fld := ⟨6 + 16 * k, 3⟩
/-- ARR_SPARE_MAP.ROW_SOFT, the field of index k (R112). -/
def Fld.ARR_SPARE_MAP_ROW_SOFT (k : Nat) : Fld := ⟨9 + 16 * k, 3⟩
/-- ARR_SPARE_MAP.RETIRED, the field of index k (R112). -/
def Fld.ARR_SPARE_MAP_RETIRED (k : Nat) : Fld := ⟨12 + 16 * k, 1⟩
/-- PLC_CTL.DETERMINISM (R134). -/
def Fld.PLC_CTL_DETERMINISM : Fld := ⟨0, 1⟩
/-- PLC_CTL.STEAL (R134). -/
def Fld.PLC_CTL_STEAL : Fld := ⟨1, 1⟩
/-- PLC_CTL.CROSS_DIE (R134). -/
def Fld.PLC_CTL_CROSS_DIE : Fld := ⟨2, 1⟩
/-- PLC_SEED.SEED (R134). -/
def Fld.PLC_SEED_SEED : Fld := ⟨0, 64⟩
/-- PLC_STATUS.ACTIVE_CORES (R134). -/
def Fld.PLC_STATUS_ACTIVE_CORES : Fld := ⟨0, 7⟩
/-- PLC_STATUS.SPARES_LEFT (R134). -/
def Fld.PLC_STATUS_SPARES_LEFT : Fld := ⟨7, 4⟩
/-- PLC_STATUS.RETIRED (R134). -/
def Fld.PLC_STATUS_RETIRED : Fld := ⟨11, 7⟩
/-- PLC_STATUS.LOCKED (R134). -/
def Fld.PLC_STATUS_LOCKED : Fld := ⟨18, 1⟩
/-- PLC_CORE_MAP.STATE, the field of index k (R134). -/
def Fld.PLC_CORE_MAP_STATE (k : Nat) : Fld := ⟨0 + 2 * k, 2⟩
/-- PLC_OVERRIDES.COUNT (R134). -/
def Fld.PLC_OVERRIDES_COUNT : Fld := ⟨0, 32⟩
/-- PLC_PART.CORES (R134). -/
def Fld.PLC_PART_CORES : Fld := ⟨0, 7⟩
/-- PLC_PART.KIND (R134). -/
def Fld.PLC_PART_KIND : Fld := ⟨7, 1⟩
/-- PLC_PART.SPREAD (R134). -/
def Fld.PLC_PART_SPREAD : Fld := ⟨8, 1⟩
/-- PLC_STEALS.SAME_DIE (R134). -/
def Fld.PLC_STEALS_SAME_DIE : Fld := ⟨0, 32⟩
/-- PLC_STEALS.CROSS_DIE (R134). -/
def Fld.PLC_STEALS_CROSS_DIE : Fld := ⟨32, 32⟩
/-- PLC_DIGEST.DIGEST (R134). -/
def Fld.PLC_DIGEST_DIGEST : Fld := ⟨0, 64⟩
/-- PLC_DIGEST_CTX.CONTEXT (R134). -/
def Fld.PLC_DIGEST_CTX_CONTEXT : Fld := ⟨0, 6⟩
/-- PLC_DIGEST_CTX.VALID (R134). -/
def Fld.PLC_DIGEST_CTX_VALID : Fld := ⟨63, 1⟩
/-- PLC_SLICE.BEATS (R134). -/
def Fld.PLC_SLICE_BEATS : Fld := ⟨0, 16⟩
/-- MEM_HBM_SET.BASE, the field of index k (R163). -/
def Fld.MEM_HBM_SET_BASE (k : Nat) : Fld := ⟨0 + 16 * k, 6⟩
/-- MEM_HBM_SET.LOG2, the field of index k (R163). -/
def Fld.MEM_HBM_SET_LOG2 (k : Nat) : Fld := ⟨6 + 16 * k, 3⟩
/-- MEM_HBM_SET.EN, the field of index k (R163). -/
def Fld.MEM_HBM_SET_EN (k : Nat) : Fld := ⟨9 + 16 * k, 1⟩
/-- MEM_L2OWN.PART, the field of index k (R163). -/
def Fld.MEM_L2OWN_PART (k : Nat) : Fld := ⟨0 + 4 * k, 3⟩
/-- MEM_L2OWN.ASSIGNED, the field of index k (R163). -/
def Fld.MEM_L2OWN_ASSIGNED (k : Nat) : Fld := ⟨3 + 4 * k, 1⟩
/-- MEM_L2_CTL.LINK_ECC (R163). -/
def Fld.MEM_L2_CTL_LINK_ECC : Fld := ⟨0, 1⟩
/-- MEM_L2_STATUS.TRAINED (R163). -/
def Fld.MEM_L2_STATUS_TRAINED : Fld := ⟨0, 16⟩
/-- MEM_L2_STATUS.FAILED (R163). -/
def Fld.MEM_L2_STATUS_FAILED : Fld := ⟨16, 16⟩
/-- MEM_SCRUB.HBM_EN (R163). -/
def Fld.MEM_SCRUB_HBM_EN : Fld := ⟨0, 1⟩
/-- MEM_SCRUB.L2_EN (R163). -/
def Fld.MEM_SCRUB_L2_EN : Fld := ⟨1, 1⟩
/-- MEM_SCRUB.PERIOD_H (R163). -/
def Fld.MEM_SCRUB_PERIOD_H : Fld := ⟨8, 16⟩
/-- MEM_ECC_THR.CORR_THR (R163). -/
def Fld.MEM_ECC_THR_CORR_THR : Fld := ⟨0, 32⟩
/-- MEM_ECC_THR.PPR_THR (R163). -/
def Fld.MEM_ECC_THR_PPR_THR : Fld := ⟨32, 16⟩
/-- MEM_ECC_CORR.COUNT (R163). -/
def Fld.MEM_ECC_CORR_COUNT : Fld := ⟨0, 48⟩
/-- MEM_ECC_UNCORR.COUNT (R163). -/
def Fld.MEM_ECC_UNCORR_COUNT : Fld := ⟨0, 48⟩
/-- MEM_PPR_CTL.AUTO (R163). -/
def Fld.MEM_PPR_CTL_AUTO : Fld := ⟨0, 1⟩
/-- MEM_PPR_LIST.PC (R163). -/
def Fld.MEM_PPR_LIST_PC : Fld := ⟨0, 8⟩
/-- MEM_PPR_LIST.BANK (R163). -/
def Fld.MEM_PPR_LIST_BANK : Fld := ⟨8, 4⟩
/-- MEM_PPR_LIST.ROW (R163). -/
def Fld.MEM_PPR_LIST_ROW : Fld := ⟨12, 20⟩
/-- MEM_PPR_LIST.UNCORR (R163). -/
def Fld.MEM_PPR_LIST_UNCORR : Fld := ⟨32, 1⟩
/-- MEM_PPR_LIST.DONE (R163). -/
def Fld.MEM_PPR_LIST_DONE : Fld := ⟨33, 1⟩
/-- MEM_PPR_LIST.FAILED (R163). -/
def Fld.MEM_PPR_LIST_FAILED : Fld := ⟨34, 1⟩
/-- MEM_PPR_LIST.VALID (R163). -/
def Fld.MEM_PPR_LIST_VALID : Fld := ⟨63, 1⟩
/-- CMB_PART.CACHE_WAYS (R164). -/
def Fld.CMB_PART_CACHE_WAYS : Fld := ⟨0, 16⟩
/-- CMB_PART.PLACED_WAYS (R164). -/
def Fld.CMB_PART_PLACED_WAYS : Fld := ⟨16, 16⟩
/-- CMB_PART.CACHE_HBM (R164). -/
def Fld.CMB_PART_CACHE_HBM : Fld := ⟨32, 1⟩
/-- CMB_PART.STREAM_WAYS (R164). -/
def Fld.CMB_PART_STREAM_WAYS : Fld := ⟨33, 4⟩
/-- CMB_CTL.ENABLE (R164). -/
def Fld.CMB_CTL_ENABLE : Fld := ⟨0, 1⟩
/-- CMB_FLUSH.FLUSH (R164). -/
def Fld.CMB_FLUSH_FLUSH : Fld := ⟨0, 8⟩
/-- CMB_STATUS.BUSY (R164). -/
def Fld.CMB_STATUS_BUSY : Fld := ⟨0, 8⟩
/-- CMB_HIT.HITS (R164). -/
def Fld.CMB_HIT_HITS : Fld := ⟨0, 32⟩
/-- CMB_HIT.MISSES (R164). -/
def Fld.CMB_HIT_MISSES : Fld := ⟨32, 32⟩
/-- BRD_PART.QUOTA (R224). -/
def Fld.BRD_PART_QUOTA : Fld := ⟨0, 9⟩
/-- BRD_PART.RESERVE (R224). -/
def Fld.BRD_PART_RESERVE : Fld := ⟨9, 9⟩
/-- BRD_PART.SCHEDULE (R224). -/
def Fld.BRD_PART_SCHEDULE : Fld := ⟨18, 1⟩
/-- BRD_PART.ORDER (R224). -/
def Fld.BRD_PART_ORDER : Fld := ⟨19, 1⟩
/-- BRD_PART.RECOMPUTE (R224). -/
def Fld.BRD_PART_RECOMPUTE : Fld := ⟨20, 1⟩
/-- BRD_PART.DEPTH_CAP (R224). -/
def Fld.BRD_PART_DEPTH_CAP : Fld := ⟨21, 9⟩
/-- BRD_LS.SCALE_EXP (R224). -/
def Fld.BRD_LS_SCALE_EXP : Fld := ⟨0, 8⟩
/-- BRD_LS.GROWTH_STEPS (R224). -/
def Fld.BRD_LS_GROWTH_STEPS : Fld := ⟨8, 24⟩
/-- BRD_LS.LS_EN (R224). -/
def Fld.BRD_LS_LS_EN : Fld := ⟨32, 1⟩
/-- BRD_LSSTAT.CLEAN (R224). -/
def Fld.BRD_LSSTAT_CLEAN : Fld := ⟨0, 24⟩
/-- BRD_LSSTAT.SKIPS (R224). -/
def Fld.BRD_LSSTAT_SKIPS : Fld := ⟨24, 32⟩
/-- BRD_STEP.STEP (R224). -/
def Fld.BRD_STEP_STEP : Fld := ⟨0, 48⟩
/-- BRD_STEP.ATTEMPT (R224). -/
def Fld.BRD_STEP_ATTEMPT : Fld := ⟨48, 8⟩
/-- BRD_STEP.NF_LAST (R224). -/
def Fld.BRD_STEP_NF_LAST : Fld := ⟨56, 1⟩
/-- BRD_CURSOR.CURSOR (R224). -/
def Fld.BRD_CURSOR_CURSOR : Fld := ⟨0, 64⟩
/-- BRD_USE.HELD (R224). -/
def Fld.BRD_USE_HELD : Fld := ⟨0, 9⟩
/-- BRD_USE.PEAK (R224). -/
def Fld.BRD_USE_PEAK : Fld := ⟨9, 9⟩
/-- BRD_USE.EPISODES (R224). -/
def Fld.BRD_USE_EPISODES : Fld := ⟨18, 24⟩
/-- BRD_USE.STALE (R224). -/
def Fld.BRD_USE_STALE : Fld := ⟨42, 22⟩
/-- BRD_ORPHAN.COUNT (R224). -/
def Fld.BRD_ORPHAN_COUNT : Fld := ⟨0, 32⟩
/-- BRD_ORPHAN.LIMIT (R224). -/
def Fld.BRD_ORPHAN_LIMIT : Fld := ⟨32, 32⟩
/-- BRD_CELL_SEL.CELL (R224). -/
def Fld.BRD_CELL_SEL_CELL : Fld := ⟨0, 8⟩
/-- BRD_CELL.WORD (R224). -/
def Fld.BRD_CELL_WORD : Fld := ⟨0, 64⟩
/-- GRD_PART.POLICY (R255). -/
def Fld.GRD_PART_POLICY : Fld := ⟨0, 1⟩
/-- GRD_PART.COMP (R255). -/
def Fld.GRD_PART_COMP : Fld := ⟨1, 2⟩
/-- GRD_PART.TOPK_K (R255). -/
def Fld.GRD_PART_TOPK_K : Fld := ⟨3, 9⟩
/-- GRD_PART.CROSSOVER (R255). -/
def Fld.GRD_PART_CROSSOVER : Fld := ⟨12, 8⟩
/-- GRD_PART.ACCUM_STEPS (R255). -/
def Fld.GRD_PART_ACCUM_STEPS : Fld := ⟨20, 16⟩
/-- GRD_PART.MAX_ATTEMPTS (R255). -/
def Fld.GRD_PART_MAX_ATTEMPTS : Fld := ⟨36, 4⟩
/-- GRD_PART.EAGER (R255). -/
def Fld.GRD_PART_EAGER : Fld := ⟨40, 1⟩
/-- GRD_DEADLINE.BEATS (R255). -/
def Fld.GRD_DEADLINE_BEATS : Fld := ⟨0, 32⟩
/-- GRD_ROLE.RANK (R255). -/
def Fld.GRD_ROLE_RANK : Fld := ⟨0, 12⟩
/-- GRD_ROLE.SIZE (R255). -/
def Fld.GRD_ROLE_SIZE : Fld := ⟨12, 13⟩
/-- GRD_ROLE.BACKUP_ROLE (R255). -/
def Fld.GRD_ROLE_BACKUP_ROLE : Fld := ⟨25, 1⟩
/-- GRD_ROLE.SHADOW (R255). -/
def Fld.GRD_ROLE_SHADOW : Fld := ⟨26, 12⟩
/-- GRD_ROLE.BACKUPS_LEFT (R255). -/
def Fld.GRD_ROLE_BACKUPS_LEFT : Fld := ⟨38, 3⟩
/-- GRD_CHUNKS.CHECKED (R255). -/
def Fld.GRD_CHUNKS_CHECKED : Fld := ⟨0, 48⟩
/-- GRD_FAULT.RESIDUE (R255). -/
def Fld.GRD_FAULT_RESIDUE : Fld := ⟨0, 16⟩
/-- GRD_FAULT.LATE (R255). -/
def Fld.GRD_FAULT_LATE : Fld := ⟨16, 16⟩
/-- GRD_FAULT.NONFINITE (R255). -/
def Fld.GRD_FAULT_NONFINITE : Fld := ⟨32, 16⟩
/-- GRD_FAULT.REPEATS (R255). -/
def Fld.GRD_FAULT_REPEATS : Fld := ⟨48, 16⟩
/-- GRD_CROSS.DENSIFIED (R255). -/
def Fld.GRD_CROSS_DENSIFIED : Fld := ⟨0, 32⟩
/-- OPT_PART.BANK (R256). -/
def Fld.OPT_PART_BANK : Fld := ⟨0, 1⟩
/-- OPT_PART.BUSY (R256). -/
def Fld.OPT_PART_BUSY : Fld := ⟨1, 1⟩
/-- OPT_PART.GROUP (R256). -/
def Fld.OPT_PART_GROUP : Fld := ⟨2, 7⟩
/-- OPT_COMMITS.COMMITS (R256). -/
def Fld.OPT_COMMITS_COMMITS : Fld := ⟨0, 48⟩
/-- OPT_CHUNKS.DISPATCHED (R256). -/
def Fld.OPT_CHUNKS_DISPATCHED : Fld := ⟨0, 48⟩
/-- OPT_LAST.STEP (R256). -/
def Fld.OPT_LAST_STEP : Fld := ⟨0, 48⟩
/-- OPT_LAST.ATTEMPT (R256). -/
def Fld.OPT_LAST_ATTEMPT : Fld := ⟨48, 8⟩
/-- SYN_PART.FLAGS (R291). -/
def Fld.SYN_PART_FLAGS : Fld := ⟨0, 14⟩
/-- SYN_PART.BARRIERS (R291). -/
def Fld.SYN_PART_BARRIERS : Fld := ⟨14, 9⟩
/-- SYN_PART.OVERSIGNAL_EN (R291). -/
def Fld.SYN_PART_OVERSIGNAL_EN : Fld := ⟨23, 1⟩
/-- SYN_TMO.BEATS (R291). -/
def Fld.SYN_TMO_BEATS : Fld := ⟨0, 32⟩
/-- SYN_STAT.TIMEOUTS (R291). -/
def Fld.SYN_STAT_TIMEOUTS : Fld := ⟨0, 32⟩
/-- SYN_STAT.OVERSIGNALS (R291). -/
def Fld.SYN_STAT_OVERSIGNALS : Fld := ⟨32, 32⟩
/-- SYN_FLAG_SEL.FLAG (R291). -/
def Fld.SYN_FLAG_SEL_FLAG : Fld := ⟨0, 13⟩
/-- SYN_FLAG.VALUE (R291). -/
def Fld.SYN_FLAG_VALUE : Fld := ⟨0, 1⟩
/-- SYN_FLAG.OVERSIGNAL (R291). -/
def Fld.SYN_FLAG_OVERSIGNAL : Fld := ⟨1, 8⟩
/-- SYN_FLAG.WAITERS (R291). -/
def Fld.SYN_FLAG_WAITERS : Fld := ⟨9, 7⟩
/-- SYN_BAR_SEL.BARRIER (R291). -/
def Fld.SYN_BAR_SEL_BARRIER : Fld := ⟨0, 8⟩
/-- SYN_BAR.RELEASED (R291). -/
def Fld.SYN_BAR_RELEASED : Fld := ⟨0, 32⟩
/-- SYN_BAR.ARRIVED (R291). -/
def Fld.SYN_BAR_ARRIVED : Fld := ⟨32, 16⟩
/-- SYN_BAR.EXPECTED (R291). -/
def Fld.SYN_BAR_EXPECTED : Fld := ⟨48, 16⟩
/-- MSG_RING_SEL.RING (R292). -/
def Fld.MSG_RING_SEL_RING : Fld := ⟨0, 15⟩
/-- MSG_RING.WORD (R292). -/
def Fld.MSG_RING_WORD : Fld := ⟨0, 64⟩
/-- MSG_POOL.COMB_FREE (R292). -/
def Fld.MSG_POOL_COMB_FREE : Fld := ⟨0, 11⟩
/-- MSG_POOL.RINGS_FREE (R292). -/
def Fld.MSG_POOL_RINGS_FREE : Fld := ⟨11, 16⟩
/-- MSG_STAT.ACCEPTED (R292). -/
def Fld.MSG_STAT_ACCEPTED : Fld := ⟨0, 32⟩
/-- MSG_STAT.NACKED (R292). -/
def Fld.MSG_STAT_NACKED : Fld := ⟨32, 32⟩
/-- MSG_LOST.LOST (R292). -/
def Fld.MSG_LOST_LOST : Fld := ⟨0, 32⟩
/-- COL_CTL.TMO (R322). -/
def Fld.COL_CTL_TMO : Fld := ⟨0, 32⟩
/-- COL_CTL.RETRIES (R322). -/
def Fld.COL_CTL_RETRIES : Fld := ⟨32, 4⟩
/-- COL_CTL.QUANTUM (R322). -/
def Fld.COL_CTL_QUANTUM : Fld := ⟨36, 4⟩
/-- COL_CTL.MIN_OTHER (R322). -/
def Fld.COL_CTL_MIN_OTHER : Fld := ⟨40, 6⟩
/-- COL_GSEL.SLOT (R322). -/
def Fld.COL_GSEL_SLOT : Fld := ⟨0, 6⟩
/-- COL_G.WORD (R322). -/
def Fld.COL_G_WORD : Fld := ⟨0, 64⟩
/-- COL_LAGGARD.RANK (R322). -/
def Fld.COL_LAGGARD_RANK : Fld := ⟨0, 12⟩
/-- COL_LAGGARD.GROUP (R322). -/
def Fld.COL_LAGGARD_GROUP : Fld := ⟨12, 16⟩
/-- COL_LAGGARD.LAG (R322). -/
def Fld.COL_LAGGARD_LAG : Fld := ⟨28, 32⟩
/-- COL_LAGGARD.VALID (R322). -/
def Fld.COL_LAGGARD_VALID : Fld := ⟨63, 1⟩
/-- COL_SELF.LAGGARD_COUNT (R322). -/
def Fld.COL_SELF_LAGGARD_COUNT : Fld := ⟨0, 32⟩
/-- COL_STAT.COMPLETED (R322). -/
def Fld.COL_STAT_COMPLETED : Fld := ⟨0, 32⟩
/-- COL_STAT.ABORTED (R322). -/
def Fld.COL_STAT_ABORTED : Fld := ⟨32, 16⟩
/-- COL_STAT.SIG_LOST (R322). -/
def Fld.COL_STAT_SIG_LOST : Fld := ⟨48, 16⟩
/-- COL_STALE.STALE (R322). -/
def Fld.COL_STALE_STALE : Fld := ⟨0, 32⟩
/-- COL_STALE.RETRIED (R322). -/
def Fld.COL_STALE_RETRIED : Fld := ⟨32, 32⟩
/-- WGL_STAT.REDUCTIONS (R324). -/
def Fld.WGL_STAT_REDUCTIONS : Fld := ⟨0, 32⟩
/-- WGL_STAT.BARRIERS (R324). -/
def Fld.WGL_STAT_BARRIERS : Fld := ⟨32, 32⟩
/-- WGL_RELAY.RELAYED (R324). -/
def Fld.WGL_RELAY_RELAYED : Fld := ⟨0, 32⟩
/-- WGL_RELAY.REBUILT (R324). -/
def Fld.WGL_RELAY_REBUILT : Fld := ⟨32, 32⟩
/-- WGL_TREE_SEL.TREE (R324). -/
def Fld.WGL_TREE_SEL_TREE : Fld := ⟨0, 10⟩
/-- WGL_TREE.VALID (R324). -/
def Fld.WGL_TREE_VALID : Fld := ⟨0, 1⟩
/-- WGL_TREE.ROOT (R324). -/
def Fld.WGL_TREE_ROOT : Fld := ⟨1, 1⟩
/-- WGL_TREE.UP_PORT (R324). -/
def Fld.WGL_TREE_UP_PORT : Fld := ⟨2, 4⟩
/-- WGL_TREE.DOWN_PORTS (R324). -/
def Fld.WGL_TREE_DOWN_PORTS : Fld := ⟨6, 16⟩
/-- WGL_TREE.DEPTH (R324). -/
def Fld.WGL_TREE_DEPTH : Fld := ⟨22, 4⟩
/-- WGL_TREE.RELAY (R324). -/
def Fld.WGL_TREE_RELAY : Fld := ⟨26, 1⟩
/-- WGL_TREE.LOCAL (R324). -/
def Fld.WGL_TREE_LOCAL : Fld := ⟨27, 9⟩
/-- WGL_TREE.GROUP (R324). -/
def Fld.WGL_TREE_GROUP : Fld := ⟨36, 16⟩
/-- WGL_FAULT.MISMATCH (R324). -/
def Fld.WGL_FAULT_MISMATCH : Fld := ⟨0, 32⟩
/-- WGL_FAULT.TIMEOUT (R324). -/
def Fld.WGL_FAULT_TIMEOUT : Fld := ⟨32, 32⟩
/-- FAB_PCTLk.EN (R382). -/
def Fld.FAB_PCTLk_EN : Fld := ⟨0, 1⟩
/-- FAB_PCTLk.SPARE_EN (R382). -/
def Fld.FAB_PCTLk_SPARE_EN : Fld := ⟨1, 1⟩
/-- FAB_PCTLk.RETRAIN (R382). -/
def Fld.FAB_PCTLk_RETRAIN : Fld := ⟨2, 1⟩
/-- FAB_PCTLk.SER_THR (R382). -/
def Fld.FAB_PCTLk_SER_THR : Fld := ⟨8, 8⟩
/-- FAB_PSTATk.STATE (R382). -/
def Fld.FAB_PSTATk_STATE : Fld := ⟨0, 2⟩
/-- FAB_PSTATk.CAUSE (R382). -/
def Fld.FAB_PSTATk_CAUSE : Fld := ⟨2, 3⟩
/-- FAB_PSTATk.SPARE_USED (R382). -/
def Fld.FAB_PSTATk_SPARE_USED : Fld := ⟨5, 1⟩
/-- FAB_PSTATk.UP_REMOTE (R382). -/
def Fld.FAB_PSTATk_UP_REMOTE : Fld := ⟨6, 1⟩
/-- FAB_PSTATk.TREE (R382). -/
def Fld.FAB_PSTATk_TREE : Fld := ⟨7, 1⟩
/-- FAB_PSTATk.REMOTE_PORT (R382). -/
def Fld.FAB_PSTATk_REMOTE_PORT : Fld := ⟨8, 4⟩
/-- FAB_PSTATk.REMOTE_ADDR (R382). -/
def Fld.FAB_PSTATk_REMOTE_ADDR : Fld := ⟨12, 14⟩
/-- FAB_PSTATk.REMOTE_VALID (R382). -/
def Fld.FAB_PSTATk_REMOTE_VALID : Fld := ⟨26, 1⟩
/-- FAB_PIDk.REMOTE_UID (R382). -/
def Fld.FAB_PIDk_REMOTE_UID : Fld := ⟨0, 64⟩
/-- FAB_LMAPk.LANE, the field of index k (R382). -/
def Fld.FAB_LMAPk_LANE (k : Nat) : Fld := ⟨0 + 4 * k, 4⟩
/-- FAB_LMAPk.REVERSED (R382). -/
def Fld.FAB_LMAPk_REVERSED : Fld := ⟨36, 1⟩
/-- FAB_PERRk.CRC_ERR (R382). -/
def Fld.FAB_PERRk_CRC_ERR : Fld := ⟨0, 32⟩
/-- FAB_PERRk.REPLAYS (R382). -/
def Fld.FAB_PERRk_REPLAYS : Fld := ⟨32, 32⟩
/-- FAB_PTXk.UNITS (R382). -/
def Fld.FAB_PTXk_UNITS : Fld := ⟨0, 48⟩
/-- FAB_PRXk.UNITS (R382). -/
def Fld.FAB_PRXk_UNITS : Fld := ⟨0, 48⟩
/-- FAB_PDROPk.EXPIRED (R382). -/
def Fld.FAB_PDROPk_EXPIRED : Fld := ⟨0, 16⟩
/-- FAB_PDROPk.UNREACH (R382). -/
def Fld.FAB_PDROPk_UNREACH : Fld := ⟨16, 16⟩
/-- FAB_PDROPk.LOST (R382). -/
def Fld.FAB_PDROPk_LOST : Fld := ⟨32, 16⟩
/-- FAB_CTL.MAX_HOPS (R383). -/
def Fld.FAB_CTL_MAX_HOPS : Fld := ⟨0, 6⟩
/-- FAB_CTL.ESC_WAIT (R383). -/
def Fld.FAB_CTL_ESC_WAIT : Fld := ⟨8, 10⟩
/-- FAB_CTL.ROOT_ELIGIBLE (R383). -/
def Fld.FAB_CTL_ROOT_ELIGIBLE : Fld := ⟨18, 1⟩
/-- FAB_CTL.RELAY_SHARE (R383). -/
def Fld.FAB_CTL_RELAY_SHARE : Fld := ⟨20, 6⟩
/-- FAB_CTL.CONFIRM_TMO (R383). -/
def Fld.FAB_CTL_CONFIRM_TMO : Fld := ⟨32, 32⟩
/-- FAB_UID.UID (R383). -/
def Fld.FAB_UID_UID : Fld := ⟨0, 64⟩
/-- FAB_ADDR.ADDR (R383). -/
def Fld.FAB_ADDR_ADDR : Fld := ⟨0, 14⟩
/-- FAB_ADDR.VALID (R383). -/
def Fld.FAB_ADDR_VALID : Fld := ⟨14, 1⟩
/-- FAB_ADDR.ROOT (R383). -/
def Fld.FAB_ADDR_ROOT : Fld := ⟨15, 1⟩
/-- FAB_ADDR.ROOT_ADDR (R383). -/
def Fld.FAB_ADDR_ROOT_ADDR : Fld := ⟨16, 14⟩
/-- FAB_ADDR.DEPTH (R383). -/
def Fld.FAB_ADDR_DEPTH : Fld := ⟨30, 8⟩
/-- FAB_SWARM.PHASE (R383). -/
def Fld.FAB_SWARM_PHASE : Fld := ⟨0, 3⟩
/-- FAB_SWARM.EPOCH (R383). -/
def Fld.FAB_SWARM_EPOCH : Fld := ⟨4, 16⟩
/-- FAB_SWARM.DEVICES (R383). -/
def Fld.FAB_SWARM_DEVICES : Fld := ⟨20, 15⟩
/-- FAB_SWARM.REBUILDS (R383). -/
def Fld.FAB_SWARM_REBUILDS : Fld := ⟨35, 29⟩
/-- FAB_SHARE.SHARE (R383). -/
def Fld.FAB_SHARE_SHARE : Fld := ⟨0, 6⟩
/-- FAB_RT_SEL.DEST (R383). -/
def Fld.FAB_RT_SEL_DEST : Fld := ⟨0, 14⟩
/-- FAB_RT.MASK (R383). -/
def Fld.FAB_RT_MASK : Fld := ⟨0, 16⟩
/-- FAB_RT.ESC_PORT (R383). -/
def Fld.FAB_RT_ESC_PORT : Fld := ⟨16, 4⟩
/-- FAB_RT.LOCAL (R383). -/
def Fld.FAB_RT_LOCAL : Fld := ⟨20, 1⟩
/-- FAB_RT.VALID (R383). -/
def Fld.FAB_RT_VALID : Fld := ⟨21, 1⟩
/-- FAB_RT.DIST (R383). -/
def Fld.FAB_RT_DIST : Fld := ⟨22, 8⟩
/-- FAB_RANK_SEL.RANK (R383). -/
def Fld.FAB_RANK_SEL_RANK : Fld := ⟨0, 14⟩
/-- FAB_RANK.ADDR (R383). -/
def Fld.FAB_RANK_ADDR : Fld := ⟨0, 14⟩
/-- FAB_RANK.VALID (R383). -/
def Fld.FAB_RANK_VALID : Fld := ⟨14, 1⟩
/-- FAB_ENG.LASER_EN (R383). -/
def Fld.FAB_ENG_LASER_EN : Fld := ⟨0, 1⟩
/-- FAB_ENG.SRC_A (R383). -/
def Fld.FAB_ENG_SRC_A : Fld := ⟨8, 2⟩
/-- FAB_ENG.SRC_B (R383). -/
def Fld.FAB_ENG_SRC_B : Fld := ⟨10, 2⟩
/-- FAB_ENG.SRC_C (R383). -/
def Fld.FAB_ENG_SRC_C : Fld := ⟨12, 2⟩
/-- FAB_ENG.C_FOR (R383). -/
def Fld.FAB_ENG_C_FOR : Fld := ⟨14, 2⟩
/-- FAB_CMD.START (R383). -/
def Fld.FAB_CMD_START : Fld := ⟨0, 1⟩
/-- HUM_CTL.IN_EN (R399). -/
def Fld.HUM_CTL_IN_EN : Fld := ⟨0, 1⟩
/-- HUM_CTL.FAB_EN (R399). -/
def Fld.HUM_CTL_FAB_EN : Fld := ⟨1, 1⟩
/-- HUM_CTL.PTP_EN (R399). -/
def Fld.HUM_CTL_PTP_EN : Fld := ⟨2, 1⟩
/-- HUM_CTL.MASTER (R399). -/
def Fld.HUM_CTL_MASTER : Fld := ⟨3, 1⟩
/-- HUM_CTL.OUT_MODE (R399). -/
def Fld.HUM_CTL_OUT_MODE : Fld := ⟨4, 2⟩
/-- HUM_CTL.AUTO_INVERT (R399). -/
def Fld.HUM_CTL_AUTO_INVERT : Fld := ⟨6, 1⟩
/-- HUM_CTL.PTP_DOMAIN (R399). -/
def Fld.HUM_CTL_PTP_DOMAIN : Fld := ⟨8, 8⟩
/-- HUM_CTL.SLEW_PPM (R399). -/
def Fld.HUM_CTL_SLEW_PPM : Fld := ⟨16, 10⟩
/-- HUM_CTL.JUMP_US (R399). -/
def Fld.HUM_CTL_JUMP_US : Fld := ⟨26, 16⟩
/-- HUM_STATUS.SOURCE (R399). -/
def Fld.HUM_STATUS_SOURCE : Fld := ⟨0, 3⟩
/-- HUM_STATUS.LOCKED (R399). -/
def Fld.HUM_STATUS_LOCKED : Fld := ⟨3, 1⟩
/-- HUM_STATUS.INVERTED (R399). -/
def Fld.HUM_STATUS_INVERTED : Fld := ⟨4, 1⟩
/-- HUM_STATUS.SLEWING (R399). -/
def Fld.HUM_STATUS_SLEWING : Fld := ⟨5, 1⟩
/-- HUM_STATUS.LAST_CAUSE (R399). -/
def Fld.HUM_STATUS_LAST_CAUSE : Fld := ⟨6, 4⟩
/-- HUM_STATUS.UP_PORT (R399). -/
def Fld.HUM_STATUS_UP_PORT : Fld := ⟨10, 4⟩
/-- HUM_STATUS.MASTER_HOPS (R399). -/
def Fld.HUM_STATUS_MASTER_HOPS : Fld := ⟨14, 6⟩
/-- HUM_STATUS.STEPS (R399). -/
def Fld.HUM_STATUS_STEPS : Fld := ⟨20, 16⟩
/-- HUM_BEAT.BEAT (R399). -/
def Fld.HUM_BEAT_BEAT : Fld := ⟨0, 64⟩
/-- HUM_OFFSET.OFFSET_NS (R399). -/
def Fld.HUM_OFFSET_OFFSET_NS : Fld := ⟨0, 32⟩
/-- HUM_OFFSET.FREQ_PPB (R399). -/
def Fld.HUM_OFFSET_FREQ_PPB : Fld := ⟨32, 32⟩
/-- HUM_SET.NEXT_PPS (R399). -/
def Fld.HUM_SET_NEXT_PPS : Fld := ⟨0, 64⟩
/-- HUM_PATH.DELAY_NS (R399). -/
def Fld.HUM_PATH_DELAY_NS : Fld := ⟨0, 32⟩
/-- HUM_FAULTS.IN_FAULTS (R399). -/
def Fld.HUM_FAULTS_IN_FAULTS : Fld := ⟨0, 16⟩
/-- HUM_FAULTS.HOLDOVERS (R399). -/
def Fld.HUM_FAULTS_HOLDOVERS : Fld := ⟨16, 16⟩
/-- HUM_FAULTS.SRC_CHANGES (R399). -/
def Fld.HUM_FAULTS_SRC_CHANGES : Fld := ⟨32, 16⟩
/-- SRV_PART.CHUNK (R417). -/
def Fld.SRV_PART_CHUNK : Fld := ⟨0, 11⟩
/-- SRV_PART.WIN_BEATS (R417). -/
def Fld.SRV_PART_WIN_BEATS : Fld := ⟨11, 16⟩
/-- SRV_PART.TOKENS_MAX (R417). -/
def Fld.SRV_PART_TOKENS_MAX : Fld := ⟨27, 16⟩
/-- SRV_PART.ENTRIES (R417). -/
def Fld.SRV_PART_ENTRIES : Fld := ⟨43, 17⟩
/-- SRV_PART.PREEMPT (R417). -/
def Fld.SRV_PART_PREEMPT : Fld := ⟨60, 1⟩
/-- SRV_PAGE.PAGE_BYTES (R417). -/
def Fld.SRV_PAGE_PAGE_BYTES : Fld := ⟨0, 24⟩
/-- SRV_PAGE.HBM_CAP (R417). -/
def Fld.SRV_PAGE_HBM_CAP : Fld := ⟨24, 24⟩
/-- SRV_MC.HOT_BYTES (R417). -/
def Fld.SRV_MC_HOT_BYTES : Fld := ⟨0, 40⟩
/-- SRV_MC.LOADS (R417). -/
def Fld.SRV_MC_LOADS : Fld := ⟨40, 24⟩
/-- SRV_POOL.HBM_FREE (R417). -/
def Fld.SRV_POOL_HBM_FREE : Fld := ⟨0, 24⟩
/-- SRV_POOL.L2_FREE (R417). -/
def Fld.SRV_POOL_L2_FREE : Fld := ⟨24, 24⟩
/-- SRV_POOL.DEFERRED (R417). -/
def Fld.SRV_POOL_DEFERRED : Fld := ⟨48, 16⟩
/-- SRV_STAT.WINDOWS (R417). -/
def Fld.SRV_STAT_WINDOWS : Fld := ⟨0, 32⟩
/-- SRV_STAT.OVERRUNS (R417). -/
def Fld.SRV_STAT_OVERRUNS : Fld := ⟨32, 16⟩
/-- SRV_STAT.PREEMPTS (R417). -/
def Fld.SRV_STAT_PREEMPTS : Fld := ⟨48, 16⟩
/-- SRV_DL.FALLBACKS (R417). -/
def Fld.SRV_DL_FALLBACKS : Fld := ⟨0, 32⟩
/-- SRV_DL.MISSES (R417). -/
def Fld.SRV_DL_MISSES : Fld := ⟨32, 32⟩
/-- SRV_TIME.WIN_PERIOD (R417). -/
def Fld.SRV_TIME_WIN_PERIOD : Fld := ⟨0, 32⟩
/-- SRV_TIME.ROUND_TRIP (R417). -/
def Fld.SRV_TIME_ROUND_TRIP : Fld := ⟨32, 32⟩
/-- SRV_CLASS_SEL.PART (R417). -/
def Fld.SRV_CLASS_SEL_PART : Fld := ⟨0, 3⟩
/-- SRV_CLASS_SEL.CLASS (R417). -/
def Fld.SRV_CLASS_SEL_CLASS : Fld := ⟨3, 3⟩
/-- SRV_CLASS.DEADLINE (R417). -/
def Fld.SRV_CLASS_DEADLINE : Fld := ⟨0, 32⟩
/-- SRV_CLASS.POLICY (R417). -/
def Fld.SRV_CLASS_POLICY : Fld := ⟨32, 2⟩
/-- SRV_CLASS.FALLBACK (R417). -/
def Fld.SRV_CLASS_FALLBACK : Fld := ⟨34, 8⟩
/-- SRV_CLASS.FB_VALID (R417). -/
def Fld.SRV_CLASS_FB_VALID : Fld := ⟨42, 1⟩
/-- SRV_MODEL_SEL.MODEL (R417). -/
def Fld.SRV_MODEL_SEL_MODEL : Fld := ⟨0, 8⟩
/-- SRV_MODEL0.VALID (R417). -/
def Fld.SRV_MODEL0_VALID : Fld := ⟨0, 1⟩
/-- SRV_MODEL0.STATE (R417). -/
def Fld.SRV_MODEL0_STATE : Fld := ⟨1, 2⟩
/-- SRV_MODEL0.PINNED (R417). -/
def Fld.SRV_MODEL0_PINNED : Fld := ⟨3, 1⟩
/-- SRV_MODEL0.PART (R417). -/
def Fld.SRV_MODEL0_PART : Fld := ⟨4, 3⟩
/-- SRV_MODEL0.LAYERS (R417). -/
def Fld.SRV_MODEL0_LAYERS : Fld := ⟨16, 8⟩
/-- SRV_MODEL0.BYTES (R417). -/
def Fld.SRV_MODEL0_BYTES : Fld := ⟨24, 40⟩
/-- SRV_MODEL1.LAST_USE (R417). -/
def Fld.SRV_MODEL1_LAST_USE : Fld := ⟨0, 64⟩
/-- SRV_ST_SEL.ENTRY (R417). -/
def Fld.SRV_ST_SEL_ENTRY : Fld := ⟨0, 16⟩
/-- SRV_ST.WORD (R417). -/
def Fld.SRV_ST_WORD : Fld := ⟨0, 64⟩
/-- CKP_PART.INTERVAL (R440). -/
def Fld.CKP_PART_INTERVAL : Fld := ⟨0, 24⟩
/-- CKP_PART.BEATS (R440). -/
def Fld.CKP_PART_BEATS : Fld := ⟨24, 32⟩
/-- CKP_PART.AUTO (R440). -/
def Fld.CKP_PART_AUTO : Fld := ⟨56, 1⟩
/-- CKP_AREA.AREA_FIRST (R440). -/
def Fld.CKP_AREA_AREA_FIRST : Fld := ⟨0, 8⟩
/-- CKP_AREA.AREA_COUNT (R440). -/
def Fld.CKP_AREA_AREA_COUNT : Fld := ⟨8, 8⟩
/-- CKP_AREA.WARD_FIRST (R440). -/
def Fld.CKP_AREA_WARD_FIRST : Fld := ⟨16, 8⟩
/-- CKP_AREA.WARD_COUNT (R440). -/
def Fld.CKP_AREA_WARD_COUNT : Fld := ⟨24, 8⟩
/-- CKP_AREA.BUDDY (R440). -/
def Fld.CKP_AREA_BUDDY : Fld := ⟨32, 14⟩
/-- CKP_AREA.WARD (R440). -/
def Fld.CKP_AREA_WARD : Fld := ⟨46, 14⟩
/-- CKP_STAT.DONE (R440). -/
def Fld.CKP_STAT_DONE : Fld := ⟨0, 32⟩
/-- CKP_STAT.WARD_DONE (R440). -/
def Fld.CKP_STAT_WARD_DONE : Fld := ⟨32, 32⟩
/-- CKP_LAST.STEP (R440). -/
def Fld.CKP_LAST_STEP : Fld := ⟨0, 48⟩
/-- CKP_LAST.PHASE (R440). -/
def Fld.CKP_LAST_PHASE : Fld := ⟨48, 3⟩
/-- CKP_LAST.BUSY (R440). -/
def Fld.CKP_LAST_BUSY : Fld := ⟨51, 1⟩
/-- CKP_CURSOR.CURSOR (R440). -/
def Fld.CKP_CURSOR_CURSOR : Fld := ⟨0, 64⟩
/-- CKP_DRONE.ROLE (R440). -/
def Fld.CKP_DRONE_ROLE : Fld := ⟨0, 1⟩
/-- CKP_DRONE.STATE (R440). -/
def Fld.CKP_DRONE_STATE : Fld := ⟨1, 2⟩
/-- CKP_DRONE.INDEX (R440). -/
def Fld.CKP_DRONE_INDEX : Fld := ⟨3, 6⟩
/-- CKP_DRONE.TOOK (R440). -/
def Fld.CKP_DRONE_TOOK : Fld := ⟨9, 14⟩
/-- CKP_CMD.DECLARE (R440). -/
def Fld.CKP_CMD_DECLARE : Fld := ⟨0, 1⟩
/-- CKP_CMD.TAKEOVER (R440). -/
def Fld.CKP_CMD_TAKEOVER : Fld := ⟨1, 1⟩
/-- CKP_CMD.PART (R440). -/
def Fld.CKP_CMD_PART : Fld := ⟨2, 3⟩
/-- CKP_CMD.RANK (R440). -/
def Fld.CKP_CMD_RANK : Fld := ⟨5, 14⟩
/-- CKP_COUNT.CHECKPOINTS (R440). -/
def Fld.CKP_COUNT_CHECKPOINTS : Fld := ⟨0, 32⟩
/-- CKP_COUNT.TAKEOVERS (R440). -/
def Fld.CKP_COUNT_TAKEOVERS : Fld := ⟨32, 16⟩
/-- CKP_COUNT.ROLLBACKS (R440). -/
def Fld.CKP_COUNT_ROLLBACKS : Fld := ⟨48, 16⟩
/-- ETH_CTL.VLAN_EN (R471). -/
def Fld.ETH_CTL_VLAN_EN : Fld := ⟨0, 1⟩
/-- ETH_CTL.VLAN_ID (R471). -/
def Fld.ETH_CTL_VLAN_ID : Fld := ⟨1, 12⟩
/-- ETH_CTL.PCP (R471). -/
def Fld.ETH_CTL_PCP : Fld := ⟨13, 3⟩
/-- ETH_CTL.MTU (R471). -/
def Fld.ETH_CTL_MTU : Fld := ⟨16, 14⟩
/-- ETH_CTL.IPV4_EN (R471). -/
def Fld.ETH_CTL_IPV4_EN : Fld := ⟨30, 1⟩
/-- ETH_MAC.MAC (R471). -/
def Fld.ETH_MAC_MAC : Fld := ⟨0, 48⟩
/-- ETH_IPV4.ADDR (R471). -/
def Fld.ETH_IPV4_ADDR : Fld := ⟨0, 32⟩
/-- ETH_IPV4.PREFIX (R471). -/
def Fld.ETH_IPV4_PREFIX : Fld := ⟨32, 6⟩
/-- ETH_IPV6H.ADDR (R471). -/
def Fld.ETH_IPV6H_ADDR : Fld := ⟨0, 64⟩
/-- ETH_PFC.RX_EN (R471). -/
def Fld.ETH_PFC_RX_EN : Fld := ⟨0, 8⟩
/-- ETH_PFC.TX_EN (R471). -/
def Fld.ETH_PFC_TX_EN : Fld := ⟨8, 8⟩
/-- ETH_SEC.EN (R471). -/
def Fld.ETH_SEC_EN : Fld := ⟨0, 1⟩
/-- ETH_SEC.TX_AN (R471). -/
def Fld.ETH_SEC_TX_AN : Fld := ⟨1, 1⟩
/-- ETH_SEC.REPLAY (R471). -/
def Fld.ETH_SEC_REPLAY : Fld := ⟨16, 32⟩
/-- ETH_STATUS.STATE (R471). -/
def Fld.ETH_STATUS_STATE : Fld := ⟨0, 2⟩
/-- ETH_STATUS.GROUP (R471). -/
def Fld.ETH_STATUS_GROUP : Fld := ⟨2, 1⟩
/-- ETH_STATUS.LANES_OK (R471). -/
def Fld.ETH_STATUS_LANES_OK : Fld := ⟨3, 8⟩
/-- ETH_STATUS.SEC_ACTIVE (R471). -/
def Fld.ETH_STATUS_SEC_ACTIVE : Fld := ⟨11, 1⟩
/-- ETH_CMD.RETRAIN (R471). -/
def Fld.ETH_CMD_RETRAIN : Fld := ⟨0, 1⟩
/-- ETH_CNT.DROPPED (R471). -/
def Fld.ETH_CNT_DROPPED : Fld := ⟨0, 32⟩
/-- ETH_CNT.LINK_DOWNS (R471). -/
def Fld.ETH_CNT_LINK_DOWNS : Fld := ⟨32, 16⟩
/-- ETH_CNT.FALLBACKS (R471). -/
def Fld.ETH_CNT_FALLBACKS : Fld := ⟨48, 16⟩
/-- ETH_SECCNT.DROPPED (R471). -/
def Fld.ETH_SECCNT_DROPPED : Fld := ⟨0, 32⟩
/-- ETH_SECCNT.BLOCKED (R471). -/
def Fld.ETH_SECCNT_BLOCKED : Fld := ⟨32, 32⟩
/-- YLP_CTL.PORT (R472). -/
def Fld.YLP_CTL_PORT : Fld := ⟨0, 16⟩
/-- YLP_CTL.RTO (R472). -/
def Fld.YLP_CTL_RTO : Fld := ⟨16, 16⟩
/-- YLP_CTL.RETRIES (R472). -/
def Fld.YLP_CTL_RETRIES : Fld := ⟨32, 4⟩
/-- YLP_CTL.REQUIRE_SEC (R472). -/
def Fld.YLP_CTL_REQUIRE_SEC : Fld := ⟨36, 1⟩
/-- YLP_IDLE.BEATS (R472). -/
def Fld.YLP_IDLE_BEATS : Fld := ⟨0, 32⟩
/-- YLP_SESS_SEL.SESSION (R472). -/
def Fld.YLP_SESS_SEL_SESSION : Fld := ⟨0, 8⟩
/-- YLP_SESS.OPEN (R472). -/
def Fld.YLP_SESS_OPEN : Fld := ⟨0, 1⟩
/-- YLP_SESS.EVENTS (R472). -/
def Fld.YLP_SESS_EVENTS : Fld := ⟨1, 1⟩
/-- YLP_SESS.REMOTE_PORT (R472). -/
def Fld.YLP_SESS_REMOTE_PORT : Fld := ⟨2, 16⟩
/-- YLP_SESS_ADDRH.ADDR (R472). -/
def Fld.YLP_SESS_ADDRH_ADDR : Fld := ⟨0, 64⟩
/-- YLP_STAT.OPENED (R472). -/
def Fld.YLP_STAT_OPENED : Fld := ⟨0, 32⟩
/-- YLP_STAT.LOST (R472). -/
def Fld.YLP_STAT_LOST : Fld := ⟨32, 16⟩
/-- YLP_STAT.EVQ_DEPTH (R472). -/
def Fld.YLP_STAT_EVQ_DEPTH : Fld := ⟨48, 13⟩
/-- YLP_STAT2.RETX (R472). -/
def Fld.YLP_STAT2_RETX : Fld := ⟨0, 32⟩
/-- YLP_STAT2.BAD (R472). -/
def Fld.YLP_STAT2_BAD : Fld := ⟨32, 32⟩
/-- PRP_STATUS.IMAGE_OK (R473). -/
def Fld.PRP_STATUS_IMAGE_OK : Fld := ⟨0, 1⟩
/-- PRP_STATUS.LOCKED (R473). -/
def Fld.PRP_STATUS_LOCKED : Fld := ⟨1, 1⟩
/-- PRP_STATUS.BOOT_MODE (R473). -/
def Fld.PRP_STATUS_BOOT_MODE : Fld := ⟨2, 2⟩
/-- PRP_STATUS.DEBUG (R473). -/
def Fld.PRP_STATUS_DEBUG : Fld := ⟨4, 8⟩
/-- PRP_STATUS.SVN_FUSED (R473). -/
def Fld.PRP_STATUS_SVN_FUSED : Fld := ⟨12, 7⟩
/-- PRP_STATUS.SVN_IMAGE (R473). -/
def Fld.PRP_STATUS_SVN_IMAGE : Fld := ⟨19, 7⟩
/-- PRP_STATUS.ECDSA_REVOKED (R473). -/
def Fld.PRP_STATUS_ECDSA_REVOKED : Fld := ⟨26, 8⟩
/-- PRP_STATUS.LMS_REVOKED (R473). -/
def Fld.PRP_STATUS_LMS_REVOKED : Fld := ⟨34, 8⟩
/-- PRP_STATUS.ECDSA_SLOT (R473). -/
def Fld.PRP_STATUS_ECDSA_SLOT : Fld := ⟨42, 3⟩
/-- PRP_STATUS.LMS_SLOT (R473). -/
def Fld.PRP_STATUS_LMS_SLOT : Fld := ⟨45, 3⟩
/-- PRP_STATUS.DEBUG_DENIED (R473). -/
def Fld.PRP_STATUS_DEBUG_DENIED : Fld := ⟨48, 1⟩
/-- PRP_NONCE.NONCE (R473). -/
def Fld.PRP_NONCE_NONCE : Fld := ⟨0, 64⟩
/-- PWR_CTL.POWER_LIMIT_W (R493). -/
def Fld.PWR_CTL_POWER_LIMIT_W : Fld := ⟨0, 12⟩
/-- PWR_CTL.THR_TEMP (R493). -/
def Fld.PWR_CTL_THR_TEMP : Fld := ⟨12, 8⟩
/-- PWR_CTL.HYST_W (R493). -/
def Fld.PWR_CTL_HYST_W : Fld := ⟨20, 8⟩
/-- PWR_CTL.FLOOR (R493). -/
def Fld.PWR_CTL_FLOOR : Fld := ⟨28, 7⟩
/-- PWR_CTL.TEL_BEATS (R493). -/
def Fld.PWR_CTL_TEL_BEATS : Fld := ⟨35, 16⟩
/-- PWR_AVS.TARGET_MV (R493). -/
def Fld.PWR_AVS_TARGET_MV : Fld := ⟨0, 10⟩
/-- PWR_AVS.OFFSET_MV (R493). -/
def Fld.PWR_AVS_OFFSET_MV : Fld := ⟨10, 8⟩
/-- PWR_AVS.SET_MV (R493). -/
def Fld.PWR_AVS_SET_MV : Fld := ⟨18, 10⟩
/-- PWR_AVS.RETRIES (R493). -/
def Fld.PWR_AVS_RETRIES : Fld := ⟨28, 8⟩
/-- PWR_AVS.HALTED (R493). -/
def Fld.PWR_AVS_HALTED : Fld := ⟨36, 1⟩
/-- PWR_TEL.VCORE_MV (R493). -/
def Fld.PWR_TEL_VCORE_MV : Fld := ⟨0, 10⟩
/-- PWR_TEL.VCORE_A (R493). -/
def Fld.PWR_TEL_VCORE_A : Fld := ⟨10, 12⟩
/-- PWR_TEL.VCORE_W (R493). -/
def Fld.PWR_TEL_VCORE_W : Fld := ⟨22, 12⟩
/-- PWR_TEL.PKG_W (R493). -/
def Fld.PWR_TEL_PKG_W : Fld := ⟨34, 12⟩
/-- PWR_TEMP.DIE, the field of index k (R493). -/
def Fld.PWR_TEMP_DIE (k : Nat) : Fld := ⟨0 + 8 * k, 8⟩
/-- PWR_TEMP.HUB (R493). -/
def Fld.PWR_TEMP_HUB : Fld := ⟨32, 8⟩
/-- PWR_TEMP.HBM (R493). -/
def Fld.PWR_TEMP_HBM : Fld := ⟨40, 8⟩
/-- PWR_TEMP.OPTICS (R493). -/
def Fld.PWR_TEMP_OPTICS : Fld := ⟨48, 8⟩
/-- PWR_DUTY.DUTY, the field of index k (R493). -/
def Fld.PWR_DUTY_DUTY (k : Nat) : Fld := ⟨0 + 8 * k, 7⟩
/-- PWR_DUTY.CAUSE (R493). -/
def Fld.PWR_DUTY_CAUSE : Fld := ⟨32, 5⟩
/-- PWR_STAT.DROOPS (R493). -/
def Fld.PWR_STAT_DROOPS : Fld := ⟨0, 32⟩
/-- PWR_STAT.THROTTLE_BEATS (R493). -/
def Fld.PWR_STAT_THROTTLE_BEATS : Fld := ⟨32, 32⟩
/-- PWR_RAIL.IN (R493). -/
def Fld.PWR_RAIL_IN : Fld := ⟨0, 8⟩
/-- PWR_RAIL.OUT (R493). -/
def Fld.PWR_RAIL_OUT : Fld := ⟨8, 8⟩
/-- PWR_RAIL.SENSORS_FAILED (R493). -/
def Fld.PWR_RAIL_SENSORS_FAILED : Fld := ⟨16, 8⟩
/-- PWR_CMD.AVS_RETRY (R493). -/
def Fld.PWR_CMD_AVS_RETRY : Fld := ⟨0, 1⟩
/-- PWR_CMD.SENSOR_RETRY (R493). -/
def Fld.PWR_CMD_SENSOR_RETRY : Fld := ⟨1, 1⟩
/-- DEV_ID.DEV_ID (R500). -/
def Fld.DEV_ID_DEV_ID : Fld := ⟨0, 64⟩
/-- STEPPING.MINOR (R500). -/
def Fld.STEPPING_MINOR : Fld := ⟨0, 8⟩
/-- STEPPING.MAJOR (R500). -/
def Fld.STEPPING_MAJOR : Fld := ⟨8, 8⟩
/-- FEATURE_FUSES.V_BIN_MV (R500). -/
def Fld.FEATURE_FUSES_V_BIN_MV : Fld := ⟨0, 10⟩
/-- FEATURE_FUSES.CORES (R500). -/
def Fld.FEATURE_FUSES_CORES : Fld := ⟨10, 7⟩
/-- FEATURE_FUSES.SPARES (R500). -/
def Fld.FEATURE_FUSES_SPARES : Fld := ⟨17, 4⟩
/-- FEATURE_FUSES.HBM_GIB (R500). -/
def Fld.FEATURE_FUSES_HBM_GIB : Fld := ⟨21, 8⟩
/-- FEATURE_FUSES.PRODUCTION (R500). -/
def Fld.FEATURE_FUSES_PRODUCTION : Fld := ⟨29, 1⟩
/-- HERITAGE_LEVEL.LEVEL (R500). -/
def Fld.HERITAGE_LEVEL_LEVEL : Fld := ⟨0, 16⟩
/-- BOOT_STATUS.PHASE (R501). -/
def Fld.BOOT_STATUS_PHASE : Fld := ⟨0, 8⟩
/-- BOOT_STATUS.FAULT (R501). -/
def Fld.BOOT_STATUS_FAULT : Fld := ⟨8, 8⟩
/-- BOOT_STATUS.OBJECT (R501). -/
def Fld.BOOT_STATUS_OBJECT : Fld := ⟨16, 4⟩
/-- BOOT_STATUS.ENTRY (R501). -/
def Fld.BOOT_STATUS_ENTRY : Fld := ⟨20, 16⟩
/-- BOOT_STATUS.CFG_REASON (R501). -/
def Fld.BOOT_STATUS_CFG_REASON : Fld := ⟨36, 4⟩
/-- BOOT_STATUS.CFG_VALID (R501). -/
def Fld.BOOT_STATUS_CFG_VALID : Fld := ⟨40, 1⟩
/-- BOOT_CAUSE.POWER_ON (R501). -/
def Fld.BOOT_CAUSE_POWER_ON : Fld := ⟨0, 1⟩
/-- BOOT_CAUSE.RESET_N (R501). -/
def Fld.BOOT_CAUSE_RESET_N : Fld := ⟨1, 1⟩
/-- BOOT_CAUSE.PWR_OK (R501). -/
def Fld.BOOT_CAUSE_PWR_OK : Fld := ⟨2, 1⟩
/-- BOOT_CAUSE.KEEPER_RESTART (R501). -/
def Fld.BOOT_CAUSE_KEEPER_RESTART : Fld := ⟨3, 1⟩
/-- FW_DIGEST.DIGEST (R501). -/
def Fld.FW_DIGEST_DIGEST : Fld := ⟨0, 64⟩
/-- CFG_DIGEST.DIGEST (R501). -/
def Fld.CFG_DIGEST_DIGEST : Fld := ⟨0, 64⟩
/-- OVERLAY_LIST.COUNT (R501). -/
def Fld.OVERLAY_LIST_COUNT : Fld := ⟨0, 4⟩
/-- OVERLAY_LIST.ORDER, the field of index k (R501). -/
def Fld.OVERLAY_LIST_ORDER (k : Nat) : Fld := ⟨8 + 4 * k, 4⟩
/-- KPR_WDOG.PERIOD_MS (R501). -/
def Fld.KPR_WDOG_PERIOD_MS : Fld := ⟨0, 16⟩
/-- KPR_WDOG.EXPIRIES (R501). -/
def Fld.KPR_WDOG_EXPIRIES : Fld := ⟨16, 16⟩
/-- CLK_DOM.STATE (R503). -/
def Fld.CLK_DOM_STATE : Fld := ⟨0, 2⟩
/-- CLK_DOM.ATTEMPTS (R503). -/
def Fld.CLK_DOM_ATTEMPTS : Fld := ⟨2, 8⟩
/-- CLK_DOM.FREQ_KHZ (R503). -/
def Fld.CLK_DOM_FREQ_KHZ : Fld := ⟨10, 32⟩
/-- CLK_DOM.REF (R503). -/
def Fld.CLK_DOM_REF : Fld := ⟨42, 3⟩
/-- CLK_SUMMARY.LOCKED (R503). -/
def Fld.CLK_SUMMARY_LOCKED : Fld := ⟨0, 25⟩
/-- CLK_SUMMARY.FAILED (R503). -/
def Fld.CLK_SUMMARY_FAILED : Fld := ⟨32, 25⟩
/-- ERR_STICKY.FATAL (R504). -/
def Fld.ERR_STICKY_FATAL : Fld := ⟨0, 1⟩
/-- ERR_STICKY.CLASS (R504). -/
def Fld.ERR_STICKY_CLASS : Fld := ⟨1, 21⟩
/-- ERR_ALERT_MASK.CLASS (R504). -/
def Fld.ERR_ALERT_MASK_CLASS : Fld := ⟨1, 21⟩
/-- ERR_HOST_MASK.CLASS (R504). -/
def Fld.ERR_HOST_MASK_CLASS : Fld := ⟨1, 21⟩
/-- ERR_LOG_WR.COUNT (R504). -/
def Fld.ERR_LOG_WR_COUNT : Fld := ⟨0, 32⟩
/-- ERR_LOG_RD.COUNT (R504). -/
def Fld.ERR_LOG_RD_COUNT : Fld := ⟨0, 32⟩
/-- ERR_LOST.COUNT (R504). -/
def Fld.ERR_LOST_COUNT : Fld := ⟨0, 32⟩
/-- ERR_SUPPRESSED.COUNT (R504). -/
def Fld.ERR_SUPPRESSED_COUNT : Fld := ⟨0, 32⟩
/-- ERR_RATE.LIMIT (R504). -/
def Fld.ERR_RATE_LIMIT : Fld := ⟨0, 16⟩
/-- ERR_REC_SEL.SLOT (R504). -/
def Fld.ERR_REC_SEL_SLOT : Fld := ⟨0, 12⟩
/-- ERR_REC.WORD (R504). -/
def Fld.ERR_REC_WORD : Fld := ⟨0, 64⟩
/-- ERR_SEV_CNT.INFO (R504). -/
def Fld.ERR_SEV_CNT_INFO : Fld := ⟨0, 16⟩
/-- ERR_SEV_CNT.CORRECTED (R504). -/
def Fld.ERR_SEV_CNT_CORRECTED : Fld := ⟨16, 16⟩
/-- ERR_SEV_CNT.ERROR (R504). -/
def Fld.ERR_SEV_CNT_ERROR : Fld := ⟨32, 16⟩
/-- ERR_SEV_CNT.FATAL (R504). -/
def Fld.ERR_SEV_CNT_FATAL : Fld := ⟨48, 16⟩
/-- CDC_STAT.MISMATCHES (R506). -/
def Fld.CDC_STAT_MISMATCHES : Fld := ⟨0, 32⟩
/-- CDC_STAT.GAPS (R506). -/
def Fld.CDC_STAT_GAPS : Fld := ⟨32, 32⟩
/-- CDC_FIFO_SEL.FIFO (R506). -/
def Fld.CDC_FIFO_SEL_FIFO : Fld := ⟨0, 16⟩
/-- CDC_FIFO.VALID (R506). -/
def Fld.CDC_FIFO_VALID : Fld := ⟨0, 1⟩
/-- CDC_FIFO.CLASS (R506). -/
def Fld.CDC_FIFO_CLASS : Fld := ⟨1, 2⟩
/-- CDC_FIFO.DEPTH (R506). -/
def Fld.CDC_FIFO_DEPTH : Fld := ⟨3, 12⟩
/-- CDC_FIFO.FILL (R506). -/
def Fld.CDC_FIFO_FILL : Fld := ⟨15, 12⟩
/-- CDC_FIFO_CNT.MISMATCH (R506). -/
def Fld.CDC_FIFO_CNT_MISMATCH : Fld := ⟨0, 32⟩
/-- CDC_FIFO_CNT.GAP (R506). -/
def Fld.CDC_FIFO_CNT_GAP : Fld := ⟨32, 32⟩
/-- CORE_STATUS.STATE (R508). -/
def Fld.CORE_STATUS_STATE : Fld := ⟨0, 2⟩
/-- CORE_STATUS.DIE (R508). -/
def Fld.CORE_STATUS_DIE : Fld := ⟨2, 2⟩
/-- CORE_STATUS.INDEX (R508). -/
def Fld.CORE_STATUS_INDEX : Fld := ⟨4, 5⟩
/-- CORE_STATUS.ORDINAL (R508). -/
def Fld.CORE_STATUS_ORDINAL : Fld := ⟨9, 6⟩
/-- CORE_STATUS.PART (R508). -/
def Fld.CORE_STATUS_PART : Fld := ⟨15, 3⟩
/-- CORE_STATUS.PART_VALID (R508). -/
def Fld.CORE_STATUS_PART_VALID : Fld := ⟨18, 1⟩
/-- CORE_STATUS.LOGICAL (R508). -/
def Fld.CORE_STATUS_LOGICAL : Fld := ⟨19, 6⟩
/-- CORE_STATUS.CONTEXT (R508). -/
def Fld.CORE_STATUS_CONTEXT : Fld := ⟨25, 6⟩
/-- CORE_STATUS.RUNNING (R508). -/
def Fld.CORE_STATUS_RUNNING : Fld := ⟨31, 1⟩
/-- CORE_STATUS.IDLE (R508). -/
def Fld.CORE_STATUS_IDLE : Fld := ⟨32, 1⟩
/-- CORE_STATUS.DEQUE (R508). -/
def Fld.CORE_STATUS_DEQUE : Fld := ⟨33, 7⟩

/-- The registers of page ID (R500). -/
def RegTable.Id : List RegDef :=
  [⟨0x0, 1, 0x0, 0x8, 1,
    [⟨0, 64, .ro, 1518232584, false, false⟩]⟩] ++
  [⟨0x0, 1, 0x8, 0x8, 1,
    [⟨0, 8, .ro, 0, false, false⟩, ⟨8, 8, .ro, 0, false, false⟩, ⟨16, 48, .ro, 0, true, false⟩]⟩] ++
  [⟨0x0, 1, 0x10, 0x8, 1,
    [⟨0, 10, .ro, 0, false, false⟩, ⟨10, 7, .ro, 0, false, false⟩, ⟨17, 4, .ro, 0, false, false⟩,
     ⟨21, 8, .ro, 0, false, false⟩, ⟨29, 1, .ro, 0, false, false⟩, ⟨30, 34, .ro, 0, true, false⟩]⟩] ++
  [⟨0x0, 1, 0x18, 0x8, 1,
    [⟨0, 16, .ro, 1, false, false⟩, ⟨16, 48, .ro, 0, true, false⟩]⟩]

/-- The registers of page KPR (R501). -/
def RegTable.Kpr : List RegDef :=
  [⟨0x1, 1, 0x0, 0x8, 1,
    [⟨0, 8, .ro, 1, false, false⟩, ⟨8, 8, .ro, 0, false, false⟩, ⟨16, 4, .ro, 0, false, false⟩,
     ⟨20, 16, .ro, 0, false, false⟩, ⟨36, 4, .ro, 0, false, false⟩, ⟨40, 1, .ro, 0, false, false⟩,
     ⟨41, 23, .ro, 0, true, false⟩]⟩] ++
  [⟨0x1, 1, 0x8, 0x8, 1,
    [⟨0, 1, .ro, 0, false, false⟩, ⟨1, 1, .ro, 0, false, false⟩, ⟨2, 1, .ro, 0, false, false⟩,
     ⟨3, 1, .w1c, 0, false, false⟩, ⟨4, 60, .ro, 0, true, false⟩]⟩] ++
  [⟨0x1, 1, 0x10, 0x8, 6,
    [⟨0, 64, .ro, 0, false, false⟩]⟩] ++
  [⟨0x1, 1, 0x40, 0x8, 6,
    [⟨0, 64, .ro, 0, false, false⟩]⟩] ++
  [⟨0x1, 1, 0x70, 0x8, 1,
    [⟨0, 4, .ro, 0, false, false⟩, ⟨4, 4, .ro, 0, true, false⟩, ⟨8, 4, .ro, 0, false, false⟩,
     ⟨12, 4, .ro, 0, false, false⟩, ⟨16, 4, .ro, 0, false, false⟩, ⟨20, 4, .ro, 0, false, false⟩,
     ⟨24, 4, .ro, 0, false, false⟩, ⟨28, 4, .ro, 0, false, false⟩, ⟨32, 4, .ro, 0, false, false⟩,
     ⟨36, 4, .ro, 0, false, false⟩, ⟨40, 24, .ro, 0, true, false⟩]⟩] ++
  [⟨0x1, 1, 0x78, 0x8, 1,
    [⟨0, 16, .rw, 100, false, false⟩, ⟨16, 16, .ro, 0, false, false⟩, ⟨32, 32, .ro, 0, true, false⟩]⟩]

/-- The registers of page PRP (R473). -/
def RegTable.Prp : List RegDef :=
  [⟨0x2, 1, 0x0, 0x8, 1,
    [⟨0, 1, .ro, 0, false, false⟩, ⟨1, 1, .ro, 0, false, false⟩, ⟨2, 2, .ro, 0, false, false⟩,
     ⟨4, 8, .ro, 0, false, false⟩, ⟨12, 7, .ro, 0, false, false⟩, ⟨19, 7, .ro, 0, false, false⟩,
     ⟨26, 8, .ro, 0, false, false⟩, ⟨34, 8, .ro, 0, false, false⟩, ⟨42, 3, .ro, 0, false, false⟩,
     ⟨45, 3, .ro, 0, false, false⟩, ⟨48, 1, .ro, 0, false, false⟩, ⟨49, 15, .ro, 0, true, false⟩]⟩] ++
  [⟨0x2, 1, 0x8, 0x8, 6,
    [⟨0, 64, .ro, 0, false, false⟩]⟩]

/-- The registers of page HUM (R399). -/
def RegTable.Hum : List RegDef :=
  [⟨0x3, 1, 0x0, 0x8, 1,
    [⟨0, 1, .rw, 0, false, false⟩, ⟨1, 1, .rw, 0, false, false⟩, ⟨2, 1, .rw, 0, false, false⟩,
     ⟨3, 1, .rw, 0, false, false⟩, ⟨4, 2, .rw, 0, false, false⟩, ⟨6, 1, .rw, 1, false, false⟩,
     ⟨7, 1, .ro, 0, true, false⟩, ⟨8, 8, .rw, 0, false, false⟩, ⟨16, 10, .rw, 1000, false, false⟩,
     ⟨26, 16, .rw, 10, false, false⟩, ⟨42, 22, .ro, 0, true, false⟩]⟩] ++
  [⟨0x3, 1, 0x8, 0x8, 1,
    [⟨0, 3, .ro, 0, false, false⟩, ⟨3, 1, .ro, 0, false, false⟩, ⟨4, 1, .ro, 0, false, false⟩,
     ⟨5, 1, .ro, 0, false, false⟩, ⟨6, 4, .ro, 0, false, false⟩, ⟨10, 4, .ro, 0, false, false⟩,
     ⟨14, 6, .ro, 0, false, false⟩, ⟨20, 16, .ro, 0, false, false⟩, ⟨36, 28, .ro, 0, true, false⟩]⟩] ++
  [⟨0x3, 1, 0x10, 0x8, 1,
    [⟨0, 64, .ro, 0, false, false⟩]⟩] ++
  [⟨0x3, 1, 0x18, 0x8, 1,
    [⟨0, 32, .ro, 0, false, false⟩, ⟨32, 32, .ro, 0, false, false⟩]⟩] ++
  [⟨0x3, 1, 0x20, 0x8, 1,
    [⟨0, 64, .wo, 0, false, false⟩]⟩] ++
  [⟨0x3, 1, 0x28, 0x8, 1,
    [⟨0, 32, .ro, 0, false, false⟩, ⟨32, 32, .ro, 0, true, false⟩]⟩] ++
  [⟨0x3, 1, 0x30, 0x8, 1,
    [⟨0, 16, .rw, 0, false, true⟩, ⟨16, 16, .rw, 0, false, true⟩, ⟨32, 16, .rw, 0, false, true⟩,
     ⟨48, 16, .ro, 0, true, false⟩]⟩]

/-- The registers of page CLK (R503). -/
def RegTable.Clk : List RegDef :=
  [⟨0x4, 1, 0x0, 0x8, 25,
    [⟨0, 2, .ro, 0, false, false⟩, ⟨2, 8, .ro, 0, false, false⟩, ⟨10, 32, .ro, 0, false, false⟩,
     ⟨42, 3, .ro, 0, false, false⟩, ⟨45, 19, .ro, 0, true, false⟩]⟩] ++
  [⟨0x4, 1, 0xC8, 0x8, 1,
    [⟨0, 25, .ro, 0, false, false⟩, ⟨25, 7, .ro, 0, true, false⟩, ⟨32, 25, .ro, 0, false, false⟩,
     ⟨57, 7, .ro, 0, true, false⟩]⟩]

/-- The registers of page PWR (R493). -/
def RegTable.Pwr : List RegDef :=
  [⟨0x5, 1, 0x0, 0x8, 1,
    [⟨0, 12, .rwl, 2600, false, false⟩, ⟨12, 8, .rwl, 100, false, false⟩, ⟨20, 8, .rw, 50, false, false⟩,
     ⟨28, 7, .rwl, 16, false, false⟩, ⟨35, 16, .rw, 100, false, false⟩, ⟨51, 13, .ro, 0, true, false⟩]⟩] ++
  [⟨0x5, 1, 0x8, 0x8, 1,
    [⟨0, 10, .ro, 0, false, false⟩, ⟨10, 8, .rw, 0, false, false⟩, ⟨18, 10, .ro, 750, false, false⟩,
     ⟨28, 8, .rw, 0, false, true⟩, ⟨36, 1, .ro, 0, false, false⟩, ⟨37, 27, .ro, 0, true, false⟩]⟩] ++
  [⟨0x5, 1, 0x10, 0x8, 1,
    [⟨0, 10, .ro, 0, false, false⟩, ⟨10, 12, .ro, 0, false, false⟩, ⟨22, 12, .ro, 0, false, false⟩,
     ⟨34, 12, .ro, 0, false, false⟩, ⟨46, 18, .ro, 0, true, false⟩]⟩] ++
  [⟨0x5, 1, 0x18, 0x8, 1,
    [⟨0, 8, .ro, 0, false, false⟩, ⟨8, 8, .ro, 0, false, false⟩, ⟨16, 8, .ro, 0, false, false⟩,
     ⟨24, 8, .ro, 0, false, false⟩, ⟨32, 8, .ro, 0, false, false⟩, ⟨40, 8, .ro, 0, false, false⟩,
     ⟨48, 8, .ro, 0, false, false⟩, ⟨56, 8, .ro, 0, true, false⟩]⟩] ++
  [⟨0x5, 1, 0x20, 0x8, 1,
    [⟨0, 7, .ro, 64, false, false⟩, ⟨7, 1, .ro, 0, true, false⟩, ⟨8, 7, .ro, 64, false, false⟩,
     ⟨15, 1, .ro, 0, true, false⟩, ⟨16, 7, .ro, 64, false, false⟩, ⟨23, 1, .ro, 0, true, false⟩,
     ⟨24, 7, .ro, 64, false, false⟩, ⟨31, 1, .ro, 0, true, false⟩, ⟨32, 5, .ro, 0, false, false⟩,
     ⟨37, 27, .ro, 0, true, false⟩]⟩] ++
  [⟨0x5, 1, 0x28, 0x8, 1,
    [⟨0, 32, .rw, 0, false, true⟩, ⟨32, 32, .rw, 0, false, true⟩]⟩] ++
  [⟨0x5, 1, 0x30, 0x8, 1,
    [⟨0, 8, .ro, 0, false, false⟩, ⟨8, 8, .w1c, 0, false, false⟩, ⟨16, 8, .ro, 0, false, false⟩,
     ⟨24, 40, .ro, 0, true, false⟩]⟩] ++
  [⟨0x5, 1, 0x38, 0x8, 1,
    [⟨0, 1, .wo, 0, false, false⟩, ⟨1, 1, .wo, 0, false, false⟩, ⟨2, 62, .wo, 0, true, false⟩]⟩]

/-- The registers of page ETH (R471). -/
def RegTable.Eth : List RegDef :=
  [⟨0x6, 1, 0x0, 0x8, 1,
    [⟨0, 1, .rwl, 0, false, false⟩, ⟨1, 12, .rwl, 0, false, false⟩, ⟨13, 3, .rwl, 0, false, false⟩,
     ⟨16, 14, .rwl, 1500, false, false⟩, ⟨30, 1, .rwl, 0, false, false⟩, ⟨31, 33, .ro, 0, true, false⟩]⟩] ++
  [⟨0x6, 1, 0x8, 0x8, 1,
    [⟨0, 48, .ro, 0, false, false⟩, ⟨48, 16, .ro, 0, true, false⟩]⟩] ++
  [⟨0x6, 1, 0x10, 0x8, 1,
    [⟨0, 32, .rwl, 0, false, false⟩, ⟨32, 6, .rwl, 0, false, false⟩, ⟨38, 26, .ro, 0, true, false⟩]⟩] ++
  [⟨0x6, 1, 0x18, 0x8, 2,
    [⟨0, 64, .rwl, 0, false, false⟩]⟩] ++
  [⟨0x6, 1, 0x28, 0x8, 1,
    [⟨0, 8, .rwl, 0, false, false⟩, ⟨8, 8, .rwl, 0, false, false⟩, ⟨16, 48, .ro, 0, true, false⟩]⟩] ++
  [⟨0x6, 1, 0x30, 0x8, 1,
    [⟨0, 1, .rw, 0, false, false⟩, ⟨1, 1, .rw, 0, false, false⟩, ⟨2, 14, .ro, 0, true, false⟩,
     ⟨16, 32, .rw, 0, false, false⟩, ⟨48, 16, .ro, 0, true, false⟩]⟩] ++
  [⟨0x6, 1, 0x38, 0x8, 1,
    [⟨0, 2, .ro, 0, false, false⟩, ⟨2, 1, .ro, 0, false, false⟩, ⟨3, 8, .ro, 0, false, false⟩,
     ⟨11, 1, .ro, 0, false, false⟩, ⟨12, 52, .ro, 0, true, false⟩]⟩] ++
  [⟨0x6, 1, 0x40, 0x8, 1,
    [⟨0, 1, .wo, 0, false, false⟩, ⟨1, 63, .wo, 0, true, false⟩]⟩] ++
  [⟨0x6, 1, 0x48, 0x8, 1,
    [⟨0, 32, .rw, 0, false, true⟩, ⟨32, 16, .rw, 0, false, true⟩, ⟨48, 16, .rw, 0, false, true⟩]⟩] ++
  [⟨0x6, 1, 0x50, 0x8, 1,
    [⟨0, 32, .rw, 0, false, true⟩, ⟨32, 32, .rw, 0, false, true⟩]⟩]

/-- The registers of page YLP (R472). -/
def RegTable.Ylp : List RegDef :=
  [⟨0x7, 1, 0x0, 0x8, 1,
    [⟨0, 16, .rwl, 47104, false, false⟩, ⟨16, 16, .rw, 200, false, false⟩, ⟨32, 4, .rw, 8, false, false⟩,
     ⟨36, 1, .rwl, 0, false, false⟩, ⟨37, 27, .ro, 0, true, false⟩]⟩] ++
  [⟨0x7, 1, 0x8, 0x8, 1,
    [⟨0, 32, .rw, 10000000, false, false⟩, ⟨32, 32, .ro, 0, true, false⟩]⟩] ++
  [⟨0x7, 1, 0x10, 0x8, 1,
    [⟨0, 8, .rw, 0, false, true⟩, ⟨8, 56, .ro, 0, true, false⟩]⟩] ++
  [⟨0x7, 1, 0x18, 0x8, 1,
    [⟨0, 1, .ro, 0, false, false⟩, ⟨1, 1, .ro, 0, false, false⟩, ⟨2, 16, .ro, 0, false, false⟩,
     ⟨18, 46, .ro, 0, true, false⟩]⟩] ++
  [⟨0x7, 1, 0x20, 0x8, 2,
    [⟨0, 64, .ro, 0, false, false⟩]⟩] ++
  [⟨0x7, 1, 0x30, 0x8, 1,
    [⟨0, 32, .rw, 0, false, true⟩, ⟨32, 16, .rw, 0, false, true⟩, ⟨48, 13, .ro, 0, false, false⟩,
     ⟨61, 3, .ro, 0, true, false⟩]⟩] ++
  [⟨0x7, 1, 0x38, 0x8, 1,
    [⟨0, 32, .rw, 0, false, true⟩, ⟨32, 32, .rw, 0, false, true⟩]⟩]

/-- The registers of page PORT (R382). -/
def RegTable.Port : List RegDef :=
  [⟨0x8, 4, 0x0, 0x300, 4,
    [⟨0, 1, .rwl, 0, false, false⟩, ⟨1, 1, .rwl, 1, false, false⟩, ⟨2, 1, .wo, 0, false, false⟩,
     ⟨3, 5, .ro, 0, true, false⟩, ⟨8, 8, .rw, 16, false, false⟩, ⟨16, 48, .ro, 0, true, false⟩]⟩] ++
  [⟨0x8, 4, 0x8, 0x300, 4,
    [⟨0, 2, .ro, 3, false, false⟩, ⟨2, 3, .ro, 0, false, false⟩, ⟨5, 1, .ro, 0, false, false⟩,
     ⟨6, 1, .ro, 0, false, false⟩, ⟨7, 1, .ro, 0, false, false⟩, ⟨8, 4, .ro, 0, false, false⟩,
     ⟨12, 14, .ro, 0, false, false⟩, ⟨26, 1, .ro, 0, false, false⟩, ⟨27, 37, .ro, 0, true, false⟩]⟩] ++
  [⟨0x8, 4, 0x10, 0x300, 4,
    [⟨0, 64, .ro, 0, false, false⟩]⟩] ++
  [⟨0x8, 4, 0x18, 0x300, 4,
    [⟨0, 4, .ro, 15, false, false⟩, ⟨4, 4, .ro, 15, false, false⟩, ⟨8, 4, .ro, 15, false, false⟩,
     ⟨12, 4, .ro, 15, false, false⟩, ⟨16, 4, .ro, 15, false, false⟩, ⟨20, 4, .ro, 15, false, false⟩,
     ⟨24, 4, .ro, 15, false, false⟩, ⟨28, 4, .ro, 15, false, false⟩, ⟨32, 4, .ro, 15, false, false⟩,
     ⟨36, 1, .ro, 0, false, false⟩, ⟨37, 27, .ro, 0, true, false⟩]⟩] ++
  [⟨0x8, 4, 0x20, 0x300, 4,
    [⟨0, 32, .rw, 0, false, true⟩, ⟨32, 32, .rw, 0, false, true⟩]⟩] ++
  [⟨0x8, 4, 0x28, 0x300, 4,
    [⟨0, 48, .rw, 0, false, true⟩, ⟨48, 16, .ro, 0, true, false⟩]⟩] ++
  [⟨0x8, 4, 0x30, 0x300, 4,
    [⟨0, 48, .rw, 0, false, true⟩, ⟨48, 16, .ro, 0, true, false⟩]⟩] ++
  [⟨0x8, 4, 0x38, 0x300, 4,
    [⟨0, 16, .rw, 0, false, true⟩, ⟨16, 16, .rw, 0, false, true⟩, ⟨32, 16, .rw, 0, false, true⟩,
     ⟨48, 16, .ro, 0, true, false⟩]⟩]

/-- The registers of page FAB (R383). -/
def RegTable.Fab : List RegDef :=
  [⟨0x8, 1, 0xC00, 0x8, 1,
    [⟨0, 6, .rwl, 32, false, false⟩, ⟨6, 2, .ro, 0, true, false⟩, ⟨8, 10, .rwl, 64, false, false⟩,
     ⟨18, 1, .rwl, 1, false, false⟩, ⟨19, 1, .ro, 0, true, false⟩, ⟨20, 6, .rwl, 32, false, false⟩,
     ⟨26, 6, .ro, 0, true, false⟩, ⟨32, 32, .rw, 1000, false, false⟩]⟩] ++
  [⟨0x8, 1, 0xC08, 0x8, 1,
    [⟨0, 64, .ro, 0, false, false⟩]⟩] ++
  [⟨0x8, 1, 0xC10, 0x8, 1,
    [⟨0, 14, .ro, 0, false, false⟩, ⟨14, 1, .ro, 0, false, false⟩, ⟨15, 1, .ro, 0, false, false⟩,
     ⟨16, 14, .ro, 0, false, false⟩, ⟨30, 8, .ro, 0, false, false⟩, ⟨38, 26, .ro, 0, true, false⟩]⟩] ++
  [⟨0x8, 1, 0xC18, 0x8, 1,
    [⟨0, 3, .ro, 0, false, false⟩, ⟨3, 1, .ro, 0, true, false⟩, ⟨4, 16, .ro, 0, false, false⟩,
     ⟨20, 15, .ro, 0, false, false⟩, ⟨35, 29, .ro, 0, false, false⟩]⟩] ++
  [⟨0x8, 1, 0xC20, 0x8, 8,
    [⟨0, 6, .rwl, 0, false, false⟩, ⟨6, 58, .ro, 0, true, false⟩]⟩] ++
  [⟨0x8, 1, 0xC60, 0x8, 1,
    [⟨0, 14, .rw, 0, false, true⟩, ⟨14, 50, .ro, 0, true, false⟩]⟩] ++
  [⟨0x8, 1, 0xC68, 0x8, 1,
    [⟨0, 16, .ro, 0, false, false⟩, ⟨16, 4, .ro, 0, false, false⟩, ⟨20, 1, .ro, 0, false, false⟩,
     ⟨21, 1, .ro, 0, false, false⟩, ⟨22, 8, .ro, 0, false, false⟩, ⟨30, 34, .ro, 0, true, false⟩]⟩] ++
  [⟨0x8, 1, 0xC70, 0x8, 1,
    [⟨0, 14, .rw, 0, false, true⟩, ⟨14, 50, .ro, 0, true, false⟩]⟩] ++
  [⟨0x8, 1, 0xC78, 0x8, 1,
    [⟨0, 14, .ro, 0, false, false⟩, ⟨14, 1, .ro, 0, false, false⟩, ⟨15, 49, .ro, 0, true, false⟩]⟩] ++
  [⟨0x8, 1, 0xC80, 0x8, 4,
    [⟨0, 1, .rwl, 0, false, false⟩, ⟨1, 7, .ro, 0, true, false⟩, ⟨8, 2, .ro, 0, false, false⟩,
     ⟨10, 2, .ro, 0, false, false⟩, ⟨12, 2, .ro, 0, false, false⟩, ⟨14, 2, .ro, 0, false, false⟩,
     ⟨16, 48, .ro, 0, true, false⟩]⟩] ++
  [⟨0x8, 1, 0xCA0, 0x8, 1,
    [⟨0, 1, .wo, 0, false, false⟩, ⟨1, 63, .wo, 0, true, false⟩]⟩]

/-- The registers of page WGL (R324). -/
def RegTable.Wgl : List RegDef :=
  [⟨0xC, 1, 0x0, 0x8, 1,
    [⟨0, 32, .rw, 0, false, true⟩, ⟨32, 32, .rw, 0, false, true⟩]⟩] ++
  [⟨0xC, 1, 0x8, 0x8, 1,
    [⟨0, 32, .rw, 0, false, true⟩, ⟨32, 32, .rw, 0, false, true⟩]⟩] ++
  [⟨0xC, 1, 0x10, 0x8, 1,
    [⟨0, 10, .rw, 0, false, true⟩, ⟨10, 54, .ro, 0, true, false⟩]⟩] ++
  [⟨0xC, 1, 0x18, 0x8, 1,
    [⟨0, 1, .ro, 0, false, false⟩, ⟨1, 1, .ro, 0, false, false⟩, ⟨2, 4, .ro, 0, false, false⟩,
     ⟨6, 16, .ro, 0, false, false⟩, ⟨22, 4, .ro, 0, false, false⟩, ⟨26, 1, .ro, 0, false, false⟩,
     ⟨27, 9, .ro, 0, false, false⟩, ⟨36, 16, .ro, 0, false, false⟩, ⟨52, 12, .ro, 0, true, false⟩]⟩] ++
  [⟨0xC, 1, 0x20, 0x8, 1,
    [⟨0, 32, .rw, 0, false, true⟩, ⟨32, 32, .rw, 0, false, true⟩]⟩]

/-- The registers of page COL (R322). -/
def RegTable.Col : List RegDef :=
  [⟨0xD, 1, 0x0, 0x8, 1,
    [⟨0, 32, .rw, 1000000, false, false⟩, ⟨32, 4, .rw, 3, false, false⟩, ⟨36, 4, .rwl, 1, false, false⟩,
     ⟨40, 6, .rwl, 4, false, false⟩, ⟨46, 18, .ro, 0, true, false⟩]⟩] ++
  [⟨0xD, 1, 0x8, 0x8, 1,
    [⟨0, 6, .rw, 0, false, true⟩, ⟨6, 58, .ro, 0, true, false⟩]⟩] ++
  [⟨0xD, 1, 0x10, 0x8, 4,
    [⟨0, 64, .ro, 0, false, false⟩]⟩] ++
  [⟨0xD, 1, 0x30, 0x8, 1,
    [⟨0, 12, .ro, 0, false, false⟩, ⟨12, 16, .ro, 0, false, false⟩, ⟨28, 32, .ro, 0, false, false⟩,
     ⟨60, 3, .ro, 0, true, false⟩, ⟨63, 1, .ro, 0, false, false⟩]⟩] ++
  [⟨0xD, 1, 0x38, 0x8, 1,
    [⟨0, 32, .rw, 0, false, true⟩, ⟨32, 32, .ro, 0, true, false⟩]⟩] ++
  [⟨0xD, 1, 0x40, 0x8, 8,
    [⟨0, 32, .rw, 0, false, true⟩, ⟨32, 16, .rw, 0, false, true⟩, ⟨48, 16, .rw, 0, false, true⟩]⟩] ++
  [⟨0xD, 1, 0x80, 0x8, 8,
    [⟨0, 32, .rw, 0, false, true⟩, ⟨32, 32, .rw, 0, false, true⟩]⟩]

/-- The registers of page GRD (R255). -/
def RegTable.Grd : List RegDef :=
  [⟨0xE, 1, 0x0, 0x8, 8,
    [⟨0, 1, .rwl, 0, false, false⟩, ⟨1, 2, .rwl, 0, false, false⟩, ⟨3, 9, .rwl, 1, false, false⟩,
     ⟨12, 8, .rwl, 64, false, false⟩, ⟨20, 16, .rwl, 1, false, false⟩, ⟨36, 4, .rwl, 3, false, false⟩,
     ⟨40, 1, .rwl, 0, false, false⟩, ⟨41, 23, .ro, 0, true, false⟩]⟩] ++
  [⟨0xE, 1, 0x40, 0x8, 8,
    [⟨0, 32, .rwl, 0, false, false⟩, ⟨32, 32, .ro, 0, true, false⟩]⟩] ++
  [⟨0xE, 1, 0x80, 0x8, 8,
    [⟨0, 12, .ro, 0, false, false⟩, ⟨12, 13, .ro, 0, false, false⟩, ⟨25, 1, .ro, 0, false, false⟩,
     ⟨26, 12, .ro, 0, false, false⟩, ⟨38, 3, .ro, 0, false, false⟩, ⟨41, 23, .ro, 0, true, false⟩]⟩] ++
  [⟨0xE, 1, 0xC0, 0x8, 8,
    [⟨0, 48, .rw, 0, false, true⟩, ⟨48, 16, .ro, 0, true, false⟩]⟩] ++
  [⟨0xE, 1, 0x100, 0x8, 8,
    [⟨0, 16, .rw, 0, false, true⟩, ⟨16, 16, .rw, 0, false, true⟩, ⟨32, 16, .rw, 0, false, true⟩,
     ⟨48, 16, .rw, 0, false, true⟩]⟩] ++
  [⟨0xE, 1, 0x140, 0x8, 8,
    [⟨0, 32, .rw, 0, false, true⟩, ⟨32, 32, .ro, 0, true, false⟩]⟩]

/-- The registers of page OPT (R256). -/
def RegTable.Opt : List RegDef :=
  [⟨0xF, 1, 0x0, 0x8, 8,
    [⟨0, 1, .ro, 0, false, false⟩, ⟨1, 1, .ro, 0, false, false⟩, ⟨2, 7, .ro, 0, false, false⟩,
     ⟨9, 55, .ro, 0, true, false⟩]⟩] ++
  [⟨0xF, 1, 0x40, 0x8, 8,
    [⟨0, 48, .ro, 0, false, false⟩, ⟨48, 16, .ro, 0, true, false⟩]⟩] ++
  [⟨0xF, 1, 0x80, 0x8, 8,
    [⟨0, 48, .rw, 0, false, true⟩, ⟨48, 16, .ro, 0, true, false⟩]⟩] ++
  [⟨0xF, 1, 0xC0, 0x8, 8,
    [⟨0, 48, .ro, 0, false, false⟩, ⟨48, 8, .ro, 0, false, false⟩, ⟨56, 8, .ro, 0, true, false⟩]⟩]

/-- The registers of page BRD (R224). -/
def RegTable.Brd : List RegDef :=
  [⟨0x10, 1, 0x0, 0x8, 8,
    [⟨0, 9, .rwl, 0, false, false⟩, ⟨9, 9, .rwl, 0, false, false⟩, ⟨18, 1, .rwl, 0, false, false⟩,
     ⟨19, 1, .rwl, 0, false, false⟩, ⟨20, 1, .rwl, 0, false, false⟩, ⟨21, 9, .rwl, 0, false, false⟩,
     ⟨30, 34, .ro, 0, true, false⟩]⟩] ++
  [⟨0x10, 1, 0x40, 0x8, 8,
    [⟨0, 8, .rwl, 0, false, false⟩, ⟨8, 24, .rwl, 2000, false, false⟩, ⟨32, 1, .rwl, 0, false, false⟩,
     ⟨33, 31, .ro, 0, true, false⟩]⟩] ++
  [⟨0x10, 1, 0x80, 0x8, 8,
    [⟨0, 24, .ro, 0, false, false⟩, ⟨24, 32, .rw, 0, false, true⟩, ⟨56, 8, .ro, 0, true, false⟩]⟩] ++
  [⟨0x10, 1, 0xC0, 0x8, 8,
    [⟨0, 48, .ro, 0, false, false⟩, ⟨48, 8, .ro, 0, false, false⟩, ⟨56, 1, .ro, 0, false, false⟩,
     ⟨57, 7, .ro, 0, true, false⟩]⟩] ++
  [⟨0x10, 1, 0x100, 0x8, 8,
    [⟨0, 64, .ro, 0, false, false⟩]⟩] ++
  [⟨0x10, 1, 0x140, 0x8, 8,
    [⟨0, 9, .ro, 0, false, false⟩, ⟨9, 9, .rw, 0, false, true⟩, ⟨18, 24, .rw, 0, false, true⟩,
     ⟨42, 22, .rw, 0, false, true⟩]⟩] ++
  [⟨0x10, 1, 0x180, 0x8, 8,
    [⟨0, 32, .rw, 0, false, true⟩, ⟨32, 32, .rw, 0, false, false⟩]⟩] ++
  [⟨0x10, 1, 0x200, 0x8, 1,
    [⟨0, 8, .rw, 0, false, true⟩, ⟨8, 56, .ro, 0, true, false⟩]⟩] ++
  [⟨0x10, 1, 0x208, 0x8, 4,
    [⟨0, 64, .ro, 0, false, false⟩]⟩]

/-- The registers of page SYN (R291). -/
def RegTable.Syn : List RegDef :=
  [⟨0x11, 1, 0x0, 0x8, 8,
    [⟨0, 14, .rwl, 0, false, false⟩, ⟨14, 9, .rwl, 0, false, false⟩, ⟨23, 1, .rw, 0, false, false⟩,
     ⟨24, 40, .ro, 0, true, false⟩]⟩] ++
  [⟨0x11, 1, 0x40, 0x8, 64,
    [⟨0, 32, .rw, 1000000, false, false⟩, ⟨32, 32, .ro, 0, true, false⟩]⟩] ++
  [⟨0x11, 1, 0x240, 0x8, 8,
    [⟨0, 32, .rw, 0, false, true⟩, ⟨32, 32, .rw, 0, false, true⟩]⟩] ++
  [⟨0x11, 1, 0x280, 0x8, 1,
    [⟨0, 13, .rw, 0, false, true⟩, ⟨13, 51, .ro, 0, true, false⟩]⟩] ++
  [⟨0x11, 1, 0x288, 0x8, 1,
    [⟨0, 1, .ro, 0, false, false⟩, ⟨1, 8, .ro, 0, false, false⟩, ⟨9, 7, .ro, 0, false, false⟩,
     ⟨16, 48, .ro, 0, true, false⟩]⟩] ++
  [⟨0x11, 1, 0x290, 0x8, 1,
    [⟨0, 8, .rw, 0, false, true⟩, ⟨8, 56, .ro, 0, true, false⟩]⟩] ++
  [⟨0x11, 1, 0x298, 0x8, 1,
    [⟨0, 32, .ro, 0, false, false⟩, ⟨32, 16, .ro, 0, false, false⟩, ⟨48, 16, .ro, 0, false, false⟩]⟩]

/-- The registers of page MSG (R292). -/
def RegTable.Msg : List RegDef :=
  [⟨0x12, 1, 0x0, 0x8, 1,
    [⟨0, 15, .rw, 0, false, true⟩, ⟨15, 49, .ro, 0, true, false⟩]⟩] ++
  [⟨0x12, 1, 0x8, 0x8, 5,
    [⟨0, 64, .ro, 0, false, false⟩]⟩] ++
  [⟨0x12, 1, 0x30, 0x8, 1,
    [⟨0, 11, .ro, 1024, false, false⟩, ⟨11, 16, .ro, 32768, false, false⟩, ⟨27, 37, .ro, 0, true, false⟩]⟩] ++
  [⟨0x12, 1, 0x40, 0x8, 8,
    [⟨0, 32, .rw, 0, false, true⟩, ⟨32, 32, .rw, 0, false, true⟩]⟩] ++
  [⟨0x12, 1, 0x80, 0x8, 8,
    [⟨0, 32, .rw, 0, false, true⟩, ⟨32, 32, .ro, 0, true, false⟩]⟩]

/-- The registers of page SRV (R417). -/
def RegTable.Srv : List RegDef :=
  [⟨0x13, 1, 0x0, 0x8, 8,
    [⟨0, 11, .rwl, 512, false, false⟩, ⟨11, 16, .rwl, 100, false, false⟩, ⟨27, 16, .rwl, 8192, false, false⟩,
     ⟨43, 17, .rwl, 0, false, false⟩, ⟨60, 1, .rwl, 0, false, false⟩, ⟨61, 3, .ro, 0, true, false⟩]⟩] ++
  [⟨0x13, 1, 0x40, 0x8, 8,
    [⟨0, 24, .rwl, 131072, false, false⟩, ⟨24, 24, .rwl, 0, false, false⟩, ⟨48, 16, .ro, 0, true, false⟩]⟩] ++
  [⟨0x13, 1, 0x80, 0x8, 8,
    [⟨0, 40, .rwl, 0, false, false⟩, ⟨40, 24, .rw, 0, false, true⟩]⟩] ++
  [⟨0x13, 1, 0xC0, 0x8, 8,
    [⟨0, 24, .ro, 0, false, false⟩, ⟨24, 24, .ro, 0, false, false⟩, ⟨48, 16, .ro, 0, false, false⟩]⟩] ++
  [⟨0x13, 1, 0x100, 0x8, 8,
    [⟨0, 32, .rw, 0, false, true⟩, ⟨32, 16, .rw, 0, false, true⟩, ⟨48, 16, .rw, 0, false, true⟩]⟩] ++
  [⟨0x13, 1, 0x140, 0x8, 8,
    [⟨0, 32, .rw, 0, false, true⟩, ⟨32, 32, .rw, 0, false, true⟩]⟩] ++
  [⟨0x13, 1, 0x180, 0x8, 8,
    [⟨0, 32, .ro, 0, false, false⟩, ⟨32, 32, .ro, 0, false, false⟩]⟩] ++
  [⟨0x13, 1, 0x1C0, 0x8, 1,
    [⟨0, 3, .rw, 0, false, true⟩, ⟨3, 3, .rw, 0, false, true⟩, ⟨6, 58, .ro, 0, true, false⟩]⟩] ++
  [⟨0x13, 1, 0x1C8, 0x8, 1,
    [⟨0, 32, .rwl, 0, false, false⟩, ⟨32, 2, .rwl, 0, false, false⟩, ⟨34, 8, .rwl, 0, false, false⟩,
     ⟨42, 1, .rwl, 0, false, false⟩, ⟨43, 21, .ro, 0, true, false⟩]⟩] ++
  [⟨0x13, 1, 0x1D0, 0x8, 1,
    [⟨0, 8, .rw, 0, false, true⟩, ⟨8, 56, .ro, 0, true, false⟩]⟩] ++
  [⟨0x13, 1, 0x1D8, 0x8, 1,
    [⟨0, 1, .ro, 0, false, false⟩, ⟨1, 2, .ro, 0, false, false⟩, ⟨3, 1, .ro, 0, false, false⟩,
     ⟨4, 3, .ro, 0, false, false⟩, ⟨7, 9, .ro, 0, true, false⟩, ⟨16, 8, .ro, 0, false, false⟩,
     ⟨24, 40, .ro, 0, false, false⟩]⟩] ++
  [⟨0x13, 1, 0x1E0, 0x8, 1,
    [⟨0, 64, .ro, 0, false, false⟩]⟩] ++
  [⟨0x13, 1, 0x1E8, 0x8, 1,
    [⟨0, 16, .rw, 0, false, true⟩, ⟨16, 48, .ro, 0, true, false⟩]⟩] ++
  [⟨0x13, 1, 0x1F0, 0x8, 8,
    [⟨0, 64, .ro, 0, false, false⟩]⟩]

/-- The registers of page PLC (R134). -/
def RegTable.Plc : List RegDef :=
  [⟨0x14, 1, 0x0, 0x8, 1,
    [⟨0, 1, .rwl, 1, false, false⟩, ⟨1, 1, .rwl, 0, false, false⟩, ⟨2, 1, .rwl, 0, false, false⟩,
     ⟨3, 61, .ro, 0, true, false⟩]⟩] ++
  [⟨0x14, 1, 0x8, 0x8, 1,
    [⟨0, 64, .rwl, 0, false, false⟩]⟩] ++
  [⟨0x14, 1, 0x10, 0x8, 1,
    [⟨0, 7, .ro, 0, false, false⟩, ⟨7, 4, .ro, 0, false, false⟩, ⟨11, 7, .ro, 0, false, false⟩,
     ⟨18, 1, .ro, 0, false, false⟩, ⟨19, 45, .ro, 0, true, false⟩]⟩] ++
  [⟨0x14, 1, 0x18, 0x8, 2,
    [⟨0, 2, .ro, 0, false, false⟩, ⟨2, 2, .ro, 0, false, false⟩, ⟨4, 2, .ro, 0, false, false⟩,
     ⟨6, 2, .ro, 0, false, false⟩, ⟨8, 2, .ro, 0, false, false⟩, ⟨10, 2, .ro, 0, false, false⟩,
     ⟨12, 2, .ro, 0, false, false⟩, ⟨14, 2, .ro, 0, false, false⟩, ⟨16, 2, .ro, 0, false, false⟩,
     ⟨18, 2, .ro, 0, false, false⟩, ⟨20, 2, .ro, 0, false, false⟩, ⟨22, 2, .ro, 0, false, false⟩,
     ⟨24, 2, .ro, 0, false, false⟩, ⟨26, 2, .ro, 0, false, false⟩, ⟨28, 2, .ro, 0, false, false⟩,
     ⟨30, 2, .ro, 0, false, false⟩, ⟨32, 2, .ro, 0, false, false⟩, ⟨34, 2, .ro, 0, false, false⟩,
     ⟨36, 2, .ro, 0, false, false⟩, ⟨38, 2, .ro, 0, false, false⟩, ⟨40, 2, .ro, 0, false, false⟩,
     ⟨42, 2, .ro, 0, false, false⟩, ⟨44, 2, .ro, 0, false, false⟩, ⟨46, 2, .ro, 0, false, false⟩,
     ⟨48, 2, .ro, 0, false, false⟩, ⟨50, 2, .ro, 0, false, false⟩, ⟨52, 2, .ro, 0, false, false⟩,
     ⟨54, 2, .ro, 0, false, false⟩, ⟨56, 2, .ro, 0, false, false⟩, ⟨58, 2, .ro, 0, false, false⟩,
     ⟨60, 2, .ro, 0, false, false⟩, ⟨62, 2, .ro, 0, false, false⟩]⟩] ++
  [⟨0x14, 1, 0x28, 0x8, 1,
    [⟨0, 2, .ro, 0, false, false⟩, ⟨2, 2, .ro, 0, false, false⟩, ⟨4, 2, .ro, 0, false, false⟩,
     ⟨6, 2, .ro, 0, false, false⟩, ⟨8, 2, .ro, 0, false, false⟩, ⟨10, 2, .ro, 0, false, false⟩,
     ⟨12, 2, .ro, 0, false, false⟩, ⟨14, 2, .ro, 0, false, false⟩, ⟨16, 48, .ro, 0, true, false⟩]⟩] ++
  [⟨0x14, 1, 0x30, 0x8, 1,
    [⟨0, 32, .rw, 0, false, true⟩, ⟨32, 32, .ro, 0, true, false⟩]⟩] ++
  [⟨0x14, 1, 0x40, 0x8, 8,
    [⟨0, 7, .rwl, 0, false, false⟩, ⟨7, 1, .rwl, 0, false, false⟩, ⟨8, 1, .rwl, 0, false, false⟩,
     ⟨9, 55, .ro, 0, true, false⟩]⟩] ++
  [⟨0x14, 1, 0x80, 0x8, 8,
    [⟨0, 32, .rw, 0, false, true⟩, ⟨32, 32, .rw, 0, false, true⟩]⟩] ++
  [⟨0x14, 1, 0xC0, 0x8, 6,
    [⟨0, 64, .ro, 0, false, false⟩]⟩] ++
  [⟨0x14, 1, 0xF0, 0x8, 1,
    [⟨0, 6, .ro, 0, false, false⟩, ⟨6, 57, .ro, 0, true, false⟩, ⟨63, 1, .ro, 0, false, false⟩]⟩] ++
  [⟨0x14, 1, 0x100, 0x8, 64,
    [⟨0, 16, .rw, 1000, false, false⟩, ⟨16, 48, .ro, 0, true, false⟩]⟩]

/-- The registers of page MEM (R163). -/
def RegTable.Mem : List RegDef :=
  [⟨0x15, 1, 0x0, 0x8, 8,
    [⟨0, 6, .rwl, 0, false, false⟩, ⟨6, 3, .rwl, 0, false, false⟩, ⟨9, 1, .rwl, 0, false, false⟩,
     ⟨10, 6, .ro, 0, true, false⟩, ⟨16, 6, .rwl, 0, false, false⟩, ⟨22, 3, .rwl, 0, false, false⟩,
     ⟨25, 1, .rwl, 0, false, false⟩, ⟨26, 6, .ro, 0, true, false⟩, ⟨32, 6, .rwl, 0, false, false⟩,
     ⟨38, 3, .rwl, 0, false, false⟩, ⟨41, 1, .rwl, 0, false, false⟩, ⟨42, 6, .ro, 0, true, false⟩,
     ⟨48, 6, .rwl, 0, false, false⟩, ⟨54, 3, .rwl, 0, false, false⟩, ⟨57, 1, .rwl, 0, false, false⟩,
     ⟨58, 6, .ro, 0, true, false⟩]⟩] ++
  [⟨0x15, 1, 0x40, 0x8, 16,
    [⟨0, 3, .rwl, 0, false, false⟩, ⟨3, 1, .rwl, 0, false, false⟩, ⟨4, 3, .rwl, 0, false, false⟩,
     ⟨7, 1, .rwl, 0, false, false⟩, ⟨8, 3, .rwl, 0, false, false⟩, ⟨11, 1, .rwl, 0, false, false⟩,
     ⟨12, 3, .rwl, 0, false, false⟩, ⟨15, 1, .rwl, 0, false, false⟩, ⟨16, 3, .rwl, 0, false, false⟩,
     ⟨19, 1, .rwl, 0, false, false⟩, ⟨20, 3, .rwl, 0, false, false⟩, ⟨23, 1, .rwl, 0, false, false⟩,
     ⟨24, 3, .rwl, 0, false, false⟩, ⟨27, 1, .rwl, 0, false, false⟩, ⟨28, 3, .rwl, 0, false, false⟩,
     ⟨31, 1, .rwl, 0, false, false⟩, ⟨32, 3, .rwl, 0, false, false⟩, ⟨35, 1, .rwl, 0, false, false⟩,
     ⟨36, 3, .rwl, 0, false, false⟩, ⟨39, 1, .rwl, 0, false, false⟩, ⟨40, 3, .rwl, 0, false, false⟩,
     ⟨43, 1, .rwl, 0, false, false⟩, ⟨44, 3, .rwl, 0, false, false⟩, ⟨47, 1, .rwl, 0, false, false⟩,
     ⟨48, 3, .rwl, 0, false, false⟩, ⟨51, 1, .rwl, 0, false, false⟩, ⟨52, 3, .rwl, 0, false, false⟩,
     ⟨55, 1, .rwl, 0, false, false⟩, ⟨56, 3, .rwl, 0, false, false⟩, ⟨59, 1, .rwl, 0, false, false⟩,
     ⟨60, 3, .rwl, 0, false, false⟩, ⟨63, 1, .rwl, 0, false, false⟩]⟩] ++
  [⟨0x15, 1, 0xC0, 0x8, 1,
    [⟨0, 1, .rwl, 1, false, false⟩, ⟨1, 63, .ro, 0, true, false⟩]⟩] ++
  [⟨0x15, 1, 0xC8, 0x8, 1,
    [⟨0, 16, .ro, 0, false, false⟩, ⟨16, 16, .ro, 0, false, false⟩, ⟨32, 32, .ro, 0, true, false⟩]⟩] ++
  [⟨0x15, 1, 0xD0, 0x8, 1,
    [⟨0, 1, .rw, 0, false, false⟩, ⟨1, 1, .rw, 0, false, false⟩, ⟨2, 6, .ro, 0, true, false⟩,
     ⟨8, 16, .rw, 24, false, false⟩, ⟨24, 40, .ro, 0, true, false⟩]⟩] ++
  [⟨0x15, 1, 0xD8, 0x8, 1,
    [⟨0, 32, .rw, 0, false, false⟩, ⟨32, 16, .rw, 16, false, false⟩, ⟨48, 16, .ro, 0, true, false⟩]⟩] ++
  [⟨0x15, 1, 0xE0, 0x8, 1,
    [⟨0, 48, .rw, 0, false, true⟩, ⟨48, 16, .ro, 0, true, false⟩]⟩] ++
  [⟨0x15, 1, 0xE8, 0x8, 1,
    [⟨0, 48, .rw, 0, false, true⟩, ⟨48, 16, .ro, 0, true, false⟩]⟩] ++
  [⟨0x15, 1, 0xF0, 0x8, 1,
    [⟨0, 1, .rw, 0, false, false⟩, ⟨1, 63, .ro, 0, true, false⟩]⟩] ++
  [⟨0x15, 1, 0x100, 0x8, 64,
    [⟨0, 8, .ro, 0, false, false⟩, ⟨8, 4, .ro, 0, false, false⟩, ⟨12, 20, .ro, 0, false, false⟩,
     ⟨32, 1, .ro, 0, false, false⟩, ⟨33, 1, .ro, 0, false, false⟩, ⟨34, 1, .ro, 0, false, false⟩,
     ⟨35, 28, .ro, 0, true, false⟩, ⟨63, 1, .ro, 0, false, false⟩]⟩]

/-- The registers of page CMB (R164). -/
def RegTable.Cmb : List RegDef :=
  [⟨0x16, 1, 0x0, 0x8, 8,
    [⟨0, 16, .rwl, 0, false, false⟩, ⟨16, 16, .rwl, 0, false, false⟩, ⟨32, 1, .rwl, 0, false, false⟩,
     ⟨33, 4, .rwl, 0, false, false⟩, ⟨37, 27, .ro, 0, true, false⟩]⟩] ++
  [⟨0x16, 1, 0x40, 0x8, 1,
    [⟨0, 1, .rwl, 0, false, false⟩, ⟨1, 63, .ro, 0, true, false⟩]⟩] ++
  [⟨0x16, 1, 0x48, 0x8, 1,
    [⟨0, 8, .wo, 0, false, false⟩, ⟨8, 56, .wo, 0, true, false⟩]⟩] ++
  [⟨0x16, 1, 0x50, 0x8, 1,
    [⟨0, 8, .ro, 0, false, false⟩, ⟨8, 56, .ro, 0, true, false⟩]⟩] ++
  [⟨0x16, 1, 0x80, 0x8, 8,
    [⟨0, 32, .rw, 0, false, true⟩, ⟨32, 32, .rw, 0, false, true⟩]⟩]

/-- The registers of page ERR (R504). -/
def RegTable.Err : List RegDef :=
  [⟨0x17, 1, 0x0, 0x8, 1,
    [⟨0, 1, .w1c, 0, false, false⟩, ⟨1, 21, .w1c, 0, false, false⟩, ⟨22, 42, .ro, 0, true, false⟩]⟩] ++
  [⟨0x17, 1, 0x8, 0x8, 1,
    [⟨0, 1, .ro, 0, true, false⟩, ⟨1, 21, .rw, 0, false, false⟩, ⟨22, 42, .ro, 0, true, false⟩]⟩] ++
  [⟨0x17, 1, 0x10, 0x8, 1,
    [⟨0, 1, .ro, 0, true, false⟩, ⟨1, 21, .rw, 0, false, false⟩, ⟨22, 42, .ro, 0, true, false⟩]⟩] ++
  [⟨0x17, 1, 0x18, 0x8, 1,
    [⟨0, 32, .ro, 0, false, false⟩, ⟨32, 32, .ro, 0, true, false⟩]⟩] ++
  [⟨0x17, 1, 0x20, 0x8, 1,
    [⟨0, 32, .rw, 0, false, true⟩, ⟨32, 32, .ro, 0, true, false⟩]⟩] ++
  [⟨0x17, 1, 0x28, 0x8, 1,
    [⟨0, 32, .rw, 0, false, true⟩, ⟨32, 32, .ro, 0, true, false⟩]⟩] ++
  [⟨0x17, 1, 0x30, 0x8, 1,
    [⟨0, 32, .rw, 0, false, true⟩, ⟨32, 32, .ro, 0, true, false⟩]⟩] ++
  [⟨0x17, 1, 0x38, 0x8, 1,
    [⟨0, 16, .rw, 0, false, false⟩, ⟨16, 48, .ro, 0, true, false⟩]⟩] ++
  [⟨0x17, 1, 0x40, 0x8, 1,
    [⟨0, 12, .rw, 0, false, true⟩, ⟨12, 52, .ro, 0, true, false⟩]⟩] ++
  [⟨0x17, 1, 0x48, 0x8, 8,
    [⟨0, 64, .ro, 0, false, false⟩]⟩] ++
  [⟨0x17, 1, 0x88, 0x8, 1,
    [⟨0, 16, .rw, 0, false, true⟩, ⟨16, 16, .rw, 0, false, true⟩, ⟨32, 16, .rw, 0, false, true⟩,
     ⟨48, 16, .rw, 0, false, true⟩]⟩]

/-- The registers of page CDC (R506). -/
def RegTable.Cdc : List RegDef :=
  [⟨0x18, 1, 0x0, 0x8, 1,
    [⟨0, 32, .rw, 0, false, true⟩, ⟨32, 32, .rw, 0, false, true⟩]⟩] ++
  [⟨0x18, 1, 0x8, 0x8, 1,
    [⟨0, 16, .rw, 0, false, true⟩, ⟨16, 48, .ro, 0, true, false⟩]⟩] ++
  [⟨0x18, 1, 0x10, 0x8, 1,
    [⟨0, 1, .ro, 0, false, false⟩, ⟨1, 2, .ro, 0, false, false⟩, ⟨3, 12, .ro, 0, false, false⟩,
     ⟨15, 12, .ro, 0, false, false⟩, ⟨27, 37, .ro, 0, true, false⟩]⟩] ++
  [⟨0x18, 1, 0x18, 0x8, 1,
    [⟨0, 32, .rw, 0, false, true⟩, ⟨32, 32, .rw, 0, false, true⟩]⟩]

/-- The registers of page CKP (R440). -/
def RegTable.Ckp : List RegDef :=
  [⟨0x19, 1, 0x0, 0x8, 8,
    [⟨0, 24, .rwl, 0, false, false⟩, ⟨24, 32, .rwl, 0, false, false⟩, ⟨56, 1, .rwl, 0, false, false⟩,
     ⟨57, 7, .ro, 0, true, false⟩]⟩] ++
  [⟨0x19, 1, 0x40, 0x8, 8,
    [⟨0, 8, .rwl, 0, false, false⟩, ⟨8, 8, .rwl, 0, false, false⟩, ⟨16, 8, .rwl, 0, false, false⟩,
     ⟨24, 8, .rwl, 0, false, false⟩, ⟨32, 14, .ro, 0, false, false⟩, ⟨46, 14, .ro, 0, false, false⟩,
     ⟨60, 4, .ro, 0, true, false⟩]⟩] ++
  [⟨0x19, 1, 0x80, 0x8, 8,
    [⟨0, 32, .ro, 0, false, false⟩, ⟨32, 32, .ro, 0, false, false⟩]⟩] ++
  [⟨0x19, 1, 0xC0, 0x8, 8,
    [⟨0, 48, .ro, 0, false, false⟩, ⟨48, 3, .ro, 0, false, false⟩, ⟨51, 1, .ro, 0, false, false⟩,
     ⟨52, 12, .ro, 0, true, false⟩]⟩] ++
  [⟨0x19, 1, 0x100, 0x8, 8,
    [⟨0, 64, .ro, 0, false, false⟩]⟩] ++
  [⟨0x19, 1, 0x140, 0x8, 1,
    [⟨0, 1, .ro, 0, false, false⟩, ⟨1, 2, .ro, 0, false, false⟩, ⟨3, 6, .ro, 0, false, false⟩,
     ⟨9, 14, .ro, 0, false, false⟩, ⟨23, 41, .ro, 0, true, false⟩]⟩] ++
  [⟨0x19, 1, 0x148, 0x8, 1,
    [⟨0, 1, .wo, 0, false, false⟩, ⟨1, 1, .wo, 0, false, false⟩, ⟨2, 3, .wo, 0, false, false⟩,
     ⟨5, 14, .wo, 0, false, false⟩, ⟨19, 45, .wo, 0, true, false⟩]⟩] ++
  [⟨0x19, 1, 0x150, 0x8, 1,
    [⟨0, 32, .rw, 0, false, true⟩, ⟨32, 16, .rw, 0, false, true⟩, ⟨48, 16, .rw, 0, false, true⟩]⟩]

/-- The registers of page CORE (R112, R508, R82, R83, R85). -/
def RegTable.Core : List RegDef :=
  [⟨0x20, 72, 0x10, 0x8, 1,
    [⟨0, 1, .w1c, 0, false, false⟩, ⟨1, 1, .w1c, 0, false, false⟩, ⟨2, 1, .w1c, 0, false, false⟩,
     ⟨3, 1, .w1c, 0, false, false⟩, ⟨4, 1, .w1c, 0, false, false⟩, ⟨5, 1, .w1c, 0, false, false⟩,
     ⟨6, 58, .ro, 0, true, false⟩]⟩] ++
  [⟨0x20, 72, 0x28, 0x8, 1,
    [⟨0, 48, .rw, 0, false, true⟩, ⟨48, 16, .ro, 0, true, false⟩]⟩] ++
  [⟨0x20, 72, 0x30, 0x8, 1,
    [⟨0, 48, .rw, 0, false, true⟩, ⟨48, 16, .ro, 0, true, false⟩]⟩] ++
  [⟨0x20, 72, 0x38, 0x8, 1,
    [⟨0, 32, .rw, 0, false, false⟩, ⟨32, 32, .rw, 0, false, false⟩]⟩] ++
  [⟨0x20, 72, 0x18, 0x8, 1,
    [⟨0, 4, .ro, 0, false, false⟩, ⟨4, 3, .ro, 0, false, false⟩, ⟨7, 9, .ro, 0, false, false⟩,
     ⟨16, 8, .ro, 0, false, false⟩, ⟨24, 16, .ro, 0, false, false⟩, ⟨40, 14, .ro, 0, false, false⟩,
     ⟨54, 6, .ro, 0, false, false⟩, ⟨60, 3, .ro, 0, true, false⟩, ⟨63, 1, .w1c, 0, false, false⟩]⟩] ++
  [⟨0x20, 72, 0x20, 0x8, 1,
    [⟨0, 48, .ro, 0, false, false⟩, ⟨48, 14, .ro, 0, false, false⟩, ⟨62, 2, .ro, 0, true, false⟩]⟩] ++
  [⟨0x20, 72, 0x8, 0x8, 1,
    [⟨0, 3, .ro, 0, false, false⟩, ⟨3, 3, .ro, 0, false, false⟩, ⟨6, 3, .ro, 0, false, false⟩,
     ⟨9, 3, .ro, 0, false, false⟩, ⟨12, 1, .ro, 0, false, false⟩, ⟨13, 3, .ro, 0, true, false⟩,
     ⟨16, 3, .ro, 0, false, false⟩, ⟨19, 3, .ro, 0, false, false⟩, ⟨22, 3, .ro, 0, false, false⟩,
     ⟨25, 3, .ro, 0, false, false⟩, ⟨28, 1, .ro, 0, false, false⟩, ⟨29, 3, .ro, 0, true, false⟩,
     ⟨32, 3, .ro, 0, false, false⟩, ⟨35, 3, .ro, 0, false, false⟩, ⟨38, 3, .ro, 0, false, false⟩,
     ⟨41, 3, .ro, 0, false, false⟩, ⟨44, 1, .ro, 0, false, false⟩, ⟨45, 3, .ro, 0, true, false⟩,
     ⟨48, 3, .ro, 0, false, false⟩, ⟨51, 3, .ro, 0, false, false⟩, ⟨54, 3, .ro, 0, false, false⟩,
     ⟨57, 3, .ro, 0, false, false⟩, ⟨60, 1, .ro, 0, false, false⟩, ⟨61, 3, .ro, 0, true, false⟩]⟩] ++
  [⟨0x20, 72, 0x0, 0x8, 1,
    [⟨0, 2, .ro, 0, false, false⟩, ⟨2, 2, .ro, 0, false, false⟩, ⟨4, 5, .ro, 0, false, false⟩,
     ⟨9, 6, .ro, 0, false, false⟩, ⟨15, 3, .ro, 0, false, false⟩, ⟨18, 1, .ro, 0, false, false⟩,
     ⟨19, 6, .ro, 0, false, false⟩, ⟨25, 6, .ro, 0, false, false⟩, ⟨31, 1, .ro, 0, false, false⟩,
     ⟨32, 1, .ro, 0, false, false⟩, ⟨33, 7, .ro, 0, false, false⟩, ⟨40, 24, .ro, 0, true, false⟩]⟩]

/-- Every register of the control window (R499). -/
def regTable : List RegDef :=
  RegTable.Id ++ RegTable.Kpr ++ RegTable.Prp ++ RegTable.Hum ++ RegTable.Clk ++ RegTable.Pwr ++ RegTable.Eth ++ RegTable.Ylp ++ RegTable.Port ++ RegTable.Fab ++ RegTable.Wgl ++ RegTable.Col ++ RegTable.Grd ++ RegTable.Opt ++ RegTable.Brd ++ RegTable.Syn ++ RegTable.Msg ++ RegTable.Srv ++ RegTable.Plc ++ RegTable.Mem ++ RegTable.Cmb ++ RegTable.Err ++ RegTable.Cdc ++ RegTable.Ckp ++ RegTable.Core

end Sys2Proof.Machine
end

