-- ==== Sys2Proof/Machine/Bits.lean ====
section
/-! DEFINITION. Bit fields of 64-bit words, bytes of numbers (little-endian, R519), signed readings. -/

namespace Sys2Proof.Machine

/-- The field `f` of a word, as a number. -/
def getF (f : Fld) (w : Word) : Nat := (w.toNat >>> f.lo) % 2 ^ f.w

/-- The word whose bits are those of field `f`. -/
def maskF (f : Fld) : Word := BitVec.ofNat 64 ((2 ^ f.w - 1) <<< f.lo)

/-- `w` with field `f` holding `v` modulo its range. -/
def putF (f : Fld) (v : Nat) (w : Word) : Word :=
  (w &&& ~~~(maskF f)) ||| BitVec.ofNat 64 ((v % 2 ^ f.w) <<< f.lo)

/-- Bits `hi..lo` of a word. -/
def bitsOf (hi lo : Nat) (w : Word) : Nat := (w.toNat >>> lo) % 2 ^ (hi + 1 - lo)

/-- Bit `i` of a word. -/
def bitOf (i : Nat) (w : Word) : Bool := w.getLsbD i

/-- A number read as a two's-complement integer of `n` bits. -/
def asSigned (n : Nat) (v : Nat) : Int :=
  if v % 2 ^ n < 2 ^ (n - 1) then (v % 2 ^ n : Nat) else ((v % 2 ^ n : Nat) : Int) - ((2 ^ n : Nat) : Int)

/-- An integer as the `n`-bit two's-complement number of its residue. -/
def toTwos (n : Nat) (v : Int) : Nat := (v % ((2 ^ n : Nat) : Int)).toNat

/-- The `n` low bytes of a number, least significant first (R519). -/
def leBytes : Nat → Nat → List Byte
  | 0, _ => []
  | n + 1, v => BitVec.ofNat 8 v :: leBytes n (v / 256)

/-- The number whose bytes, least significant first, are given. -/
def ofLeBytes : List Byte → Nat
  | [] => 0
  | b :: bs => b.toNat + 256 * ofLeBytes bs

/-- The field of bytes `at .. at + n − 1` of a little-endian structure. -/
def leField (bs : List Byte) (i n : Nat) : Nat := ofLeBytes ((bs.drop i).take n)

/-- 1 for true, 0 for false. -/
def bnat (b : Bool) : Nat := if b then 1 else 0

/-- Addition that stops at `2 ^ w − 1`. -/
def satAdd (w a b : Nat) : Nat := min (2 ^ w - 1) (a + b)

/-- The numbers `0 .. n − 1` that satisfy a test, ascending. -/
def selectBelow (n : Nat) (p : Nat → Bool) : List Nat := (List.range n).filter p

/-- The set bits of a number below `n`, ascending. -/
def bitList (n v : Nat) : List Nat := selectBelow n (fun i => v.testBit i)

/-- The number whose set bits are listed. -/
def ofBits (l : List Nat) : Nat := l.foldl (fun a i => a ||| (1 <<< i)) 0

/-- ⌈a ÷ b⌉. -/
def ceilDiv (a b : Nat) : Nat := (a + b - 1) / b

/-- ⌊log₂ n⌋ for n below 2 ^ 64; 0 for 0. -/
def log2Nat (n : Nat) : Nat := Nat.log2 n

/-- Insert before the first element of a larger key. -/
def insertBy {α : Type} (key : α → Nat) (a : α) : List α → List α
  | [] => [a]
  | b :: l => if key a < key b then a :: b :: l else b :: insertBy key a l

/-- Elements in ascending key, those of one key in the order given. -/
def sortBy {α : Type} (key : α → Nat) (l : List α) : List α := l.foldl (fun r a => insertBy key a r) []

end Sys2Proof.Machine
end

