-- ==== Sys2Proof/Machine/Cynal.lean ====
section
/-! DEFINITION. Decoding of Cynal instruction words: R43, R44, R165, R171, R178, R182, R191, R325, R329, R330, R334, R335,
R338, R343, R346, R350, R351. A reserved opcode, a reserved operand encoding or a non-zero reserved or unused operand bit
answers none, which step 1 of R46 refuses with ISA_RESERVED. -/

namespace Sys2Proof.Machine

/-- A scalar register field of six bits at `lo`. -/
def gAt (lo : Nat) (w : Word) : GReg := Fin.ofNat 64 (bitsOf (lo + 5) lo w)

/-- A descriptor register field of four bits at `lo`. -/
def tAt (lo : Nat) (w : Word) : TReg := Fin.ofNat 16 (bitsOf (lo + 3) lo w)

/-- Bits `hi..lo` are zero. -/
def zAt (hi lo : Nat) (w : Word) : Bool := decide (bitsOf hi lo w = 0)

/-- The rounding mode of a 2-bit RND field; 3 is reserved (R70). -/
def rndOf (v : Nat) : Option Rnd :=
  match v with
  | 0 => some .rne | 1 => some .rtz | 2 => some .sr | _ => none

/-- FN of R330. -/
def aluFnOf (v : Nat) : Option AluFn :=
  match v with
  | 0 => some .add | 1 => some .sub | 2 => some .mul | 3 => some .and | 4 => some .or | 5 => some .xor | 6 => some .shl
  | 7 => some .shr | 8 => some .sra | 9 => some .min | 10 => some .max | 11 => some .minu | 12 => some .maxu | _ => none

/-- CC of R330. -/
def cmpCcOf (v : Nat) : Option CmpCc :=
  match v with
  | 0 => some .eq | 1 => some .ne | 2 => some .lt | 3 => some .le | 4 => some .gt | 5 => some .ge | 6 => some .ltu
  | 7 => some .leu | 8 => some .gtu | 9 => some .geu | _ => none

/-- An instruction if its reserved bits allow it. -/
def okIf (b : Bool) (i : CInstr) : Option CInstr := if b then some i else none

/-- The K family (R329, R330, R334, R335, R336, R337). -/
def decodeK (op : Nat) (w : Word) : Option CInstr :=
  match op with
  | 0x01 => okIf (zAt 41 0 w) .kEnd
  | 0x02 => okIf (zAt 22 0 w && decide (bitsOf 35 30 w + 7 ≤ 63))
      (.kSpawn (gAt 36 w) (gAt 30 w) (gAt 24 w) (bitOf 23 w))
  | 0x03 => okIf (zAt 41 32 w) (.kBr (asSigned 32 (bitsOf 31 0 w)))
  | 0x04 => (aluFnOf (bitsOf 41 38 w)).bind fun fn => okIf (zAt 19 0 w) (.kAlu fn (gAt 32 w) (gAt 26 w) (gAt 20 w))
  | 0x05 => (aluFnOf (bitsOf 41 38 w)).map fun fn =>
      .kAlui fn (gAt 32 w) (gAt 26 w) (BitVec.ofNat 64 (toTwos 64 (asSigned 26 (bitsOf 25 0 w))))
  | 0x06 => okIf (zAt 34 32 w) (.kMovi (gAt 36 w) (bitOf 35 w) (BitVec.ofNat 32 (bitsOf 31 0 w)))
  | 0x07 => (cmpCcOf (bitsOf 38 35 w)).bind fun cc =>
      okIf (zAt 22 0 w) (.kCmp (Fin.ofNat 8 (bitsOf 41 39 w)) cc (gAt 29 w) (gAt 23 w))
  | 0x08 => okIf (zAt 25 0 w) (.kLd (gAt 36 w) (tAt 32 w) (gAt 26 w))
  | 0x09 => okIf (zAt 25 0 w) (.kSt (gAt 36 w) (tAt 32 w) (gAt 26 w))
  | 0x0A => okIf (zAt 31 0 w && decide (bitsOf 35 32 w ≤ 10)) (.kId (gAt 36 w) (bitsOf 35 32 w))
  | 0x0B =>
    let fld := bitsOf 37 34 w
    let add := bitOf 33 w
    okIf (zAt 26 0 w && decide (fld ≤ 13) && (!add || (decide (3 ≤ fld) && decide (fld ≤ 9))))
      (.kTd (tAt 38 w) fld add (gAt 27 w))
  | 0x0C => okIf (zAt 33 0 w) (.kTcpy (tAt 38 w) (tAt 34 w))
  | 0x0D => okIf (zAt 27 0 w && decide (bitsOf 31 28 w ≤ 13)) (.kTrd (gAt 36 w) (tAt 32 w) (bitsOf 31 28 w))
  | 0x0E =>
    match bitsOf 41 40 w with
    | 0 => okIf (zAt 33 0 w) (.kCtxEvent (gAt 34 w))
    | 1 => okIf (zAt 33 0 w) (.kCtxStop (gAt 34 w))
    | _ => none
  | 0x0F => okIf (zAt 41 0 w) .kNop
  | _ => none

/-- The operands of R171. -/
def aOps (w : Word) (rnd : Rnd) (k : Fin 3) : AOps where
  td := tAt 38 w
  ta := tAt 34 w
  tw := tAt 30 w
  mask := Fin.ofNat 16 (bitsOf 29 26 w)
  nsel := Fin.ofNat 4 (bitsOf 25 24 w)
  ksel := k
  rnd := rnd
  sat := bitOf 19 w
  defer := bitOf 18 w
  strm := bitOf 17 w
  gc := gAt 11 w
  gt := gAt 5 w

/-- KSEL, of which 3 is reserved (R93). -/
def kselOf (v : Nat) : Option (Fin 3) := if h : v < 3 then some ⟨v, h⟩ else none

/-- The array family (R170, R171, R178). -/
def decodeA (op : Nat) (w : Word) : Option CInstr :=
  match op with
  | 0x20 => (kselOf (bitsOf 23 22 w)).bind fun k =>
      okIf (zAt 41 34 w && zAt 21 17 w && zAt 10 0 w) (.aLdw (aOps w .rne k))
  | 0x21 => okIf (zAt 41 30 w && zAt 25 0 w) (.aSwp (aOps w .rne 0))
  | 0x24 =>
    (rndOf (bitsOf 28 27 w)).bind fun r0 => (rndOf (bitsOf 26 25 w)).bind fun r1 =>
      let en1 := bitOf 29 w
      okIf (zAt 16 0 w && (en1 || (zAt 33 30 w && zAt 26 25 w && zAt 23 23 w)))
        (.aDrn { mask := Fin.ofNat 16 (bitsOf 41 38 w), td0 := tAt 34 w, td1 := tAt 30 w, en1 := en1, rnd0 := r0,
                 rnd1 := r1, sat0 := bitOf 24 w, sat1 := bitOf 23 w, gt := gAt 17 w })
  | _ =>
    if op = 0x22 ∨ op = 0x23 then
      (kselOf (bitsOf 23 22 w)).bind fun k => (rndOf (bitsOf 21 20 w)).bind fun r =>
        let defer := bitOf 18 w
        let strm := bitOf 17 w
        okIf (zAt 4 0 w && (strm || zAt 33 30 w) && (!defer || (zAt 41 38 w && zAt 21 19 w && zAt 10 5 w)))
          (if op = 0x22 then .aMul (aOps w r k) else .aMult (aOps w r k))
    else none

/-- The operation of a vector opcode (R181). -/
def vOpOf (op : Nat) : Option VOp :=
  match op with
  | 0x30 => some .add | 0x31 => some .sub | 0x32 => some .mul | 0x33 => some .div | 0x34 => some .fma | 0x35 => some .max
  | 0x36 => some .min | 0x37 => some .adds | 0x38 => some .muls | 0x39 => some .axpy | 0x3A => some .sqrt
  | 0x3B => some .rsqrt | 0x3C => some .exp | 0x3D => some .log | 0x3E => some .silu | 0x3F => some .cvt
  | 0x40 => some .red | _ => none

/-- Operations with a source B (R182). -/
def vUsesB : VOp → Bool
  | .add | .sub | .mul | .div | .fma | .max | .min | .axpy => true
  | _ => false

/-- Operations with the scalar s (R182). -/
def vUsesS : VOp → Bool
  | .adds | .muls | .axpy => true
  | _ => false

/-- Compute types of an operation (R181). -/
def vAllows (op : VOp) (ct : CType) : Bool :=
  match op, ct with
  | _, .fp32 => true
  | .rsqrt, _ | .exp, _ | .log, _ | .silu, _ | .cvt, _ => false
  | _, .fp64 => true
  | .div, .int32 | .fma, .int32 | .axpy, .int32 | .sqrt, .int32 => false
  | _, .int32 => true

/-- CT (R182). -/
def ctOf (v : Nat) : Option CType :=
  match v with
  | 0 => some .fp32 | 1 => some .fp64 | 2 => some .int32 | _ => none

/-- RF (R182). -/
def rfOf (v : Nat) : Option RedFn :=
  match v with
  | 0 => some .sum | 1 => some .max | 2 => some .min | _ => none

/-- The vector family (R181, R182). -/
def decodeV (op : Nat) (w : Word) : Option CInstr :=
  (vOpOf op).bind fun v => (rndOf (bitsOf 25 24 w)).bind fun r => (ctOf (bitsOf 22 21 w)).bind fun ct =>
    (rfOf (bitsOf 17 16 w)).bind fun rf =>
      let useB := vUsesB v
      let gA := bitOf 19 w
      let gB := bitOf 20 w
      okIf (zAt 3 0 w && vAllows v ct && (useB || !gB) && (!gA || zAt 37 34 w)
          && ((useB && !gB) || zAt 33 30 w) && (v == .fma || zAt 29 26 w) && (useB || zAt 18 18 w)
          && (v == .red || zAt 17 16 w) && (vUsesS v || zAt 15 10 w))
        (.v v { td := tAt 38 w, ta := tAt 34 w, tb := tAt 30 w, tc := tAt 26 w, rnd := r, sat := bitOf 23 w, ct := ct,
                gselA := gA, gselB := gB, bcb := bitOf 18 w, rf := rf, gs := gAt 10 w, gt := gAt 4 w })

/-- The operands of R191. -/
def mOps (w : Word) : MOps where
  td := tAt 38 w
  ts := tAt 34 w
  ti := tAt 30 w
  q := bitOf 29 w
  strm := bitOf 28 w
  acc := bitOf 27 w
  gf := gAt 21 w

/-- The move family (R190, R191). -/
def decodeM (op : Nat) (w : Word) : Option CInstr :=
  let low := zAt 20 0 w
  match op with
  | 0x50 => okIf (low && zAt 33 30 w && zAt 27 21 w) (.mCpy (mOps w))
  | 0x51 => okIf (low && zAt 27 21 w) (.mGth (mOps w))
  | 0x52 => okIf (low && zAt 28 28 w && zAt 26 21 w) (.mSct (mOps w))
  | 0x53 => okIf (low && zAt 33 29 w && zAt 27 21 w) (.mTrn (mOps w))
  | 0x54 => okIf (low && zAt 37 30 w && zAt 28 27 w) (.mFil (mOps w))
  | _ => none

/-- The S family (R338). -/
def decodeS (op : Nat) (w : Word) : Option CInstr :=
  let name := bitsOf 41 26 w
  let gx := gAt 20 w
  match op with
  | 0x58 => okIf (zAt 6 0 w && (bitOf 19 w || zAt 18 7 w)) (.sSet name gx (bitOf 19 w) (gAt 13 w) (gAt 7 w))
  | 0x59 => okIf (zAt 19 0 w) (.sClr name gx)
  | 0x5A => okIf (zAt 5 0 w && (bitOf 18 w || zAt 11 6 w))
      (.sWait name gx (bitOf 19 w) (bitOf 18 w) (gAt 12 w) (gAt 6 w))
  | 0x5B =>
    let split := bitOf 19 w
    let soft := bitOf 18 w
    okIf ((!split || zAt 18 6 w) && (soft || zAt 11 6 w)) (.sBar name gx split soft (gAt 12 w) (gAt 6 w) (gAt 0 w))
  | 0x5C => okIf (zAt 19 19 w && (bitOf 18 w || zAt 11 6 w))
      (.sBwait name gx (bitOf 18 w) (gAt 12 w) (gAt 6 w) (gAt 0 w))
  | _ => none

/-- The Q family (R343). -/
def decodeQ (op : Nat) (w : Word) : Option CInstr :=
  match op with
  | 0x60 => okIf (zAt 20 0 w) (.qSend (tAt 38 w) (bitsOf 37 33 w) (gAt 27 w) (gAt 21 w))
  | 0x61 => okIf (zAt 41 0 w) .qAck
  | 0x62 => okIf (zAt 29 0 w) (.qOpen (gAt 36 w) (gAt 30 w))
  | 0x63 => okIf (zAt 29 0 w) (.qClose (gAt 36 w) (gAt 30 w))
  | 0x64 => okIf (zAt 29 0 w) (.qReset (gAt 36 w) (gAt 30 w))
  | _ => none

/-- TYPE and RED of C.WRED (R350). -/
def wredOk (type red : Nat) : Bool :=
  let fp := type == 0x00 || type == 0x10
  let int := type == 0x0F || type == 0x1F
  (fp && decide (red ≤ 2)) || (int && decide (red ≤ 4))

/-- The C family (R346, R350). -/
def decodeC (op : Nat) (w : Word) : Option CInstr :=
  match op with
  | 0x68 => okIf (zAt 21 0 w) (.cBulk (tAt 38 w) (tAt 34 w) (gAt 28 w) (gAt 22 w))
  | 0x69 =>
    let cnt := bitsOf 29 27 w
    let red := bitsOf 26 24 w
    let type := bitsOf 23 19 w
    okIf (zAt 0 0 w && wredOk type red && decide (bitsOf 41 36 w + cnt ≤ 64) && decide (bitsOf 35 30 w + cnt ≤ 64))
      (.cWred (gAt 36 w) (gAt 30 w) cnt red type (gAt 13 w) (gAt 7 w) (gAt 1 w))
  | _ => none

/-- The B family (R351). -/
def decodeB (op : Nat) (w : Word) : Option CInstr :=
  match op with
  | 0x70 => okIf (zAt 35 0 w) (.bRd (gAt 36 w))
  | 0x71 => okIf (zAt 11 0 w) (.bAt (gAt 36 w) (bitsOf 35 12 w))
  | _ => none

/-- The operation of an instruction word (R44). -/
def decodeInstr (w : Word) : Option CInstr :=
  let op := bitsOf 63 56 w
  if op < 0x20 then decodeK op w
  else if op < 0x30 then decodeA op w
  else if op < 0x50 then decodeV op w
  else if op < 0x58 then decodeM op w
  else if op < 0x60 then decodeS op w
  else if op < 0x68 then decodeQ op w
  else if op < 0x70 then decodeC op w
  else if op < 0x74 then decodeB op w
  else none

/-- An instruction word (R43). -/
def decodeCynal (w : Word) : Option CWord :=
  (decodeInstr w).map fun i =>
    { wait := bitsOf 55 51 w, post := bitsOf 50 46 w, pneg := bitOf 45 w, pred := Fin.ofNat 8 (bitsOf 44 42 w), instr := i }

/-- Where an instruction is executed (R44, R190): none for the sequencer. -/
def engineOf : CInstr → Option EngineQ
  | .aLdw _ | .aSwp _ | .aMul _ | .aMult _ | .aDrn _ => some .array
  | .v _ _ => some .vector
  | .mCpy o | .mGth o | .mSct o | .mFil o => some (if o.q then .mover1 else .mover0)
  | .mTrn _ => some .transposer
  | .sSet .. | .sClr .. | .sWait .. | .sBar .. | .sBwait .. | .qSend .. | .qAck | .qOpen .. | .qClose .. | .qReset ..
  | .cBulk .. | .cWred .. => some .comm
  | _ => none

/-! ### The encoder (R43, R44 and the encoding tables) -/

/-- A number made of fields, each a value at its lowest bit. -/
def packFields (fs : List (Nat × Nat)) : Nat := (fs.map (fun f => f.1 * 2 ^ f.2)).sum

/-- A rounding mode as its RND field (R70). -/
def rndCode : Rnd → Nat
  | .rne => 0 | .rtz => 1 | .sr => 2

/-- FN of R330. -/
def aluFnCode : AluFn → Nat
  | .add => 0 | .sub => 1 | .mul => 2 | .and => 3 | .or => 4 | .xor => 5 | .shl => 6 | .shr => 7 | .sra => 8 | .min => 9
  | .max => 10 | .minu => 11 | .maxu => 12

/-- CC of R330. -/
def cmpCcCode : CmpCc → Nat
  | .eq => 0 | .ne => 1 | .lt => 2 | .le => 3 | .gt => 4 | .ge => 5 | .ltu => 6 | .leu => 7 | .gtu => 8 | .geu => 9

/-- CT of R182. -/
def ctCode : CType → Nat
  | .fp32 => 0 | .fp64 => 1 | .int32 => 2

/-- RF of R182. -/
def rfCode : RedFn → Nat
  | .sum => 0 | .max => 1 | .min => 2

/-- The opcode of a vector operation (R181). -/
def vOpCode : VOp → Nat
  | .add => 0x30 | .sub => 0x31 | .mul => 0x32 | .div => 0x33 | .fma => 0x34 | .max => 0x35 | .min => 0x36 | .adds => 0x37
  | .muls => 0x38 | .axpy => 0x39 | .sqrt => 0x3A | .rsqrt => 0x3B | .exp => 0x3C | .log => 0x3D | .silu => 0x3E
  | .cvt => 0x3F | .red => 0x40

/-- The fields of R171. -/
def aFields (o : AOps) : List (Nat × Nat) :=
  [(o.td.val, 38), (o.ta.val, 34), (o.tw.val, 30), (o.mask.val, 26), (o.nsel.val, 24), (o.ksel.val, 22), (rndCode o.rnd, 20),
    (bnat o.sat, 19), (bnat o.defer, 18), (bnat o.strm, 17), (o.gc.val, 11), (o.gt.val, 5)]

/-- The fields of R182. -/
def vFields (o : VOps) : List (Nat × Nat) :=
  [(o.td.val, 38), (o.ta.val, 34), (o.tb.val, 30), (o.tc.val, 26), (rndCode o.rnd, 24), (bnat o.sat, 23), (ctCode o.ct, 21),
    (bnat o.gselB, 20), (bnat o.gselA, 19), (bnat o.bcb, 18), (rfCode o.rf, 16), (o.gs.val, 10), (o.gt.val, 4)]

/-- The fields of R191. -/
def mFields (o : MOps) : List (Nat × Nat) :=
  [(o.td.val, 38), (o.ts.val, 34), (o.ti.val, 30), (bnat o.q, 29), (bnat o.strm, 28), (bnat o.acc, 27), (o.gf.val, 21)]

/-- The opcode of an instruction and its operand fields. -/
def instrFields : CInstr → Nat × List (Nat × Nat)
  | .kEnd => (0x01, [])
  | .kSpawn ge ga gi bind => (0x02, [(ge.val, 36), (ga.val, 30), (gi.val, 24), (bnat bind, 23)])
  | .kBr ofs => (0x03, [(toTwos 32 ofs, 0)])
  | .kAlu fn gd ga gb => (0x04, [(aluFnCode fn, 38), (gd.val, 32), (ga.val, 26), (gb.val, 20)])
  | .kAlui fn gd ga imm => (0x05, [(aluFnCode fn, 38), (gd.val, 32), (ga.val, 26), (imm.toNat % 2 ^ 26, 0)])
  | .kMovi gd hi imm => (0x06, [(gd.val, 36), (bnat hi, 35), (imm.toNat, 0)])
  | .kCmp pd cc ga gb => (0x07, [(pd.val, 39), (cmpCcCode cc, 35), (ga.val, 29), (gb.val, 23)])
  | .kLd gd ts gb => (0x08, [(gd.val, 36), (ts.val, 32), (gb.val, 26)])
  | .kSt ga td gb => (0x09, [(ga.val, 36), (td.val, 32), (gb.val, 26)])
  | .kId gd sel => (0x0A, [(gd.val, 36), (sel, 32)])
  | .kTd td fld add ga => (0x0B, [(td.val, 38), (fld, 34), (bnat add, 33), (ga.val, 27)])
  | .kTcpy td ts => (0x0C, [(td.val, 38), (ts.val, 34)])
  | .kTrd gd ts fld => (0x0D, [(gd.val, 36), (ts.val, 32), (fld, 28)])
  | .kCtxEvent ga => (0x0E, [(ga.val, 34)])
  | .kCtxStop ga => (0x0E, [(1, 40), (ga.val, 34)])
  | .kNop => (0x0F, [])
  | .aLdw o => (0x20, aFields o)
  | .aSwp o => (0x21, aFields o)
  | .aMul o => (0x22, aFields o)
  | .aMult o => (0x23, aFields o)
  | .aDrn o => (0x24, [(o.mask.val, 38), (o.td0.val, 34), (o.td1.val, 30), (bnat o.en1, 29), (rndCode o.rnd0, 27),
      (rndCode o.rnd1, 25), (bnat o.sat0, 24), (bnat o.sat1, 23), (o.gt.val, 17)])
  | .v op o => (vOpCode op, vFields o)
  | .mCpy o => (0x50, mFields o)
  | .mGth o => (0x51, mFields o)
  | .mSct o => (0x52, mFields o)
  | .mTrn o => (0x53, mFields o)
  | .mFil o => (0x54, mFields o)
  | .sSet name gx remote gr gs => (0x58, [(name, 26), (gx.val, 20), (bnat remote, 19), (gr.val, 13), (gs.val, 7)])
  | .sClr name gx => (0x59, [(name, 26), (gx.val, 20)])
  | .sWait name gx consume soft gt gs =>
    (0x5A, [(name, 26), (gx.val, 20), (bnat consume, 19), (bnat soft, 18), (gt.val, 12), (gs.val, 6)])
  | .sBar name gx split soft gt gs gi =>
    (0x5B, [(name, 26), (gx.val, 20), (bnat split, 19), (bnat soft, 18), (gt.val, 12), (gs.val, 6), (gi.val, 0)])
  | .sBwait name gx soft gt gs gi =>
    (0x5C, [(name, 26), (gx.val, 20), (bnat soft, 18), (gt.val, 12), (gs.val, 6), (gi.val, 0)])
  | .qSend ts slots gr gs => (0x60, [(ts.val, 38), (slots, 33), (gr.val, 27), (gs.val, 21)])
  | .qAck => (0x61, [])
  | .qOpen gr gs => (0x62, [(gr.val, 36), (gs.val, 30)])
  | .qClose gr gs => (0x63, [(gr.val, 36), (gs.val, 30)])
  | .qReset gr gs => (0x64, [(gr.val, 36), (gs.val, 30)])
  | .cBulk td ts gc gs => (0x68, [(td.val, 38), (ts.val, 34), (gc.val, 28), (gs.val, 22)])
  | .cWred ga gd cnt red type gg gt gs =>
    (0x69, [(ga.val, 36), (gd.val, 30), (cnt, 27), (red, 24), (type, 19), (gg.val, 13), (gt.val, 7), (gs.val, 1)])
  | .bRd gd => (0x70, [(gd.val, 36)])
  | .bAt ga imm => (0x71, [(ga.val, 36), (imm, 12)])

/-- The word of an instruction with its header (R43). -/
def encodeCynal (w : CWord) : Word :=
  let f := instrFields w.instr
  BitVec.ofNat 64 (packFields ([(f.1, 56), (w.wait, 51), (w.post, 46), (bnat w.pneg, 45), (w.pred.val, 42)] ++ f.2))

end Sys2Proof.Machine
end

