-- ==== Sys2Proof/Machine/Sparse.lean ====
section
/-! DEFINITION. Tables held sparsely: a list of (key, value) pairs with keys strictly rising and no entry equal to what an
unlisted key reads as. Device memory, the register file and every other large table of the device are held so. -/

namespace Sys2Proof.Machine

/-- The value at key `k`; an unlisted key reads `d`. -/
def Sparse.get {α : Type} (d : α) : List (Nat × α) → Nat → α
  | [], _ => d
  | (j, v) :: m, k => if j = k then v else Sparse.get d m k

/-- Insert before the first larger key. -/
def Sparse.insert {α : Type} (k : Nat) (v : α) : List (Nat × α) → List (Nat × α)
  | [] => [(k, v)]
  | (j, u) :: m => if k < j then (k, v) :: (j, u) :: m else (j, u) :: Sparse.insert k v m

/-- Remove every entry at `k`. -/
def Sparse.erase {α : Type} (k : Nat) : List (Nat × α) → List (Nat × α)
  | [] => []
  | (j, u) :: m => if j = k then Sparse.erase k m else (j, u) :: Sparse.erase k m

/-- Write `v` at `k`; writing what an unlisted key reads as removes the entry. -/
def Sparse.set {α : Type} [DecidableEq α] (d : α) (m : List (Nat × α)) (k : Nat) (v : α) : List (Nat × α) :=
  if v = d then Sparse.erase k m else Sparse.insert k v (Sparse.erase k m)

/-- The canonical form: keys strictly rising from `b` on, no entry equal to `d`. -/
def Sparse.wfFrom {α : Type} [DecidableEq α] (d : α) : Nat → List (Nat × α) → Bool
  | _, [] => true
  | b, (k, v) :: m => decide (b ≤ k) && !decide (v = d) && Sparse.wfFrom d (k + 1) m

/-- The canonical form of a table whose unlisted keys read `d`. -/
def Sparse.wf {α : Type} [DecidableEq α] (d : α) (m : List (Nat × α)) : Bool := Sparse.wfFrom d 0 m

end Sys2Proof.Machine
end

