-- ==== Sys2Proof/Config.lean ====
section
/-! DEFINITION. What one part fixes, and the free values: constants without a body, so that nothing can be proved of
their value. Each is named in the assumption log. -/

namespace Sys2Proof.Config

/-- A byte the spec leaves undefined (R40, R308, R431), numbered by State.free (log entry 4). -/
opaque freeByte : Nat → BitVec 8

/-- How many of its destination units an engine has written when it meets poisoned data (R155), numbered by State.free
(log entry 7). -/
opaque freeWrites : Nat → Nat

/-- A number the spec does not state, numbered by State.free (log entry 2). -/
opaque freeNat : Nat → Nat

/-- Where row `row` of bank `bank` of a pseudo-channel lies among its 1,024-byte rows: the spec gives no map from rows to
addresses (log entry 14). -/
opaque rowPlace : Nat → Nat → Nat

/-- The set of a comb-store way in which a 256-byte line lies, by the line's device address ÷ 256: the spec gives no index (R142, R145;
log entry 11). -/
opaque combSet : Nat → Nat

/-- Which of the values within one unit in the last place V.RSQRT, V.EXP, V.LOG and V.SILU return (R187): a fixed
function of the operation and the input encoding (log entry 8). -/
opaque ulpChoice : Nat → BitVec 32 → Nat

/-- The public key of a slot (false ECDSA, true LMS), whose SHA-384 the slot's fuses hold (R462; log entry 9). -/
opaque slotKey : Bool → Nat → List (BitVec 8)

/-- The unique device secret, and SHA-384 of the boot ROM (R462, R467; log entry 9). -/
opaque uds : List (BitVec 8)
opaque bootRomDigest : List (BitVec 8)

/-- The private key that FIPS 186-5 derives from a secret of 384 bits, whose expansion the spec does not state, and an ECDSA P-384
signature by a private key, whose per-message number the spec does not state (R467, R468; log entry 9). -/
opaque keyGen : BitVec 384 → BitVec 384
opaque ecdsaSign : BitVec 384 → List (BitVec 8) → List (BitVec 8)

/-- A fresh 48-byte number of the true random generator (R466, R467), numbered by State.free (log entry 9). -/
opaque random384 : Nat → BitVec 384

/-- The size in bytes of a context image (R453: its layout is internal to the device), numbered by State.free (log
entry 10). -/
opaque imageSize : Nat → Nat

/-- The identity certificate, which Slatralis writes (R462), and the alias certificate: the DeviceID key that signs it, the alias
public key, M, and the SHA-384 of the boot nonce (R467). The spec gives the layout of neither (log entry 9). -/
opaque identityCert : List (BitVec 8)
opaque aliasCert : BitVec 384 → List (BitVec 8) → BitVec 384 → BitVec 384 → List (BitVec 8)

/-- A field of a message header to whose value the spec sets no more than a range (R445; log entry 83): 0 CREDIT, 1 the TAG of a message
that answers no request, 2 the OP of an ACK_ONLY message; of the message with that many items sent before it. -/
opaque ylpField : Nat → Nat → Nat

/-- Slatralis's MIPI and JEDEC manufacturer codes, which the spec does not state (R490; log entry 1). -/
opaque mipiId : Nat
opaque jedecId : Nat

end Sys2Proof.Config
end

