-- ==== Sys2Proof/Machine/Formats.lean ====
section
/-! DEFINITION. Number formats, scales, rounding and quantisation (chapter Number formats, scales and exceptions: R34, R58
to R80), and the vector engine's operations on one element (R183, R184, R187). A value is exact until it is cast. -/

namespace Sys2Proof.Machine

/-- An exact value: (−1)^neg × m × 2^e, an infinity, or NaN. -/
inductive FNum where
  | fin (neg : Bool) (m : Nat) (e : Int)
  | inf (neg : Bool)
  | nan
deriving DecidableEq, Repr

/-- The exceptions of one result (R82, R83): the sticky causes, clamps counted by SAT_COUNT and elements lost to zero. -/
structure Exc where
  invalid : Bool
  overflow : Bool
  underflow : Bool
  divzero : Bool
  sat : Nat
  loss : Nat
deriving DecidableEq, Repr

/-- No exception. -/
def Exc.zero : Exc := ⟨false, false, false, false, 0, 0⟩

/-- The exceptions of two results together. -/
def Exc.join (a b : Exc) : Exc :=
  ⟨a.invalid || b.invalid, a.overflow || b.overflow, a.underflow || b.underflow, a.divzero || b.divzero,
    a.sat + b.sat, a.loss + b.loss⟩

/-- The exceptions of one element: it counts at most once in SAT_COUNT, however many of its steps clamped (R75). -/
def Exc.once (e : Exc) : Exc := { e with sat := min e.sat 1 }

def Exc.ofInvalid : Exc := { Exc.zero with invalid := true }
def Exc.ofOverflow : Exc := { Exc.zero with overflow := true }
def Exc.ofUnderflow (b : Bool) : Exc := { Exc.zero with underflow := b }
def Exc.ofDivzero : Exc := { Exc.zero with divzero := true }

/-- How a floating-point format uses its highest exponent field: infinities and NaNs, NaN in one encoding only (E4M3), or
neither (the MX elements of 6 and 4 bits) (R58). -/
inductive Special where
  | ieee | e4m3 | none
deriving DecidableEq, Repr

/-- A floating-point format (R58): exponent and mantissa widths, bias, special encodings. -/
structure FpFmt where
  eb : Nat
  mb : Nat
  bias : Int
  special : Special
deriving DecidableEq, Repr

def fp64 : FpFmt := ⟨11, 52, 1023, .ieee⟩
def fp32 : FpFmt := ⟨8, 23, 127, .ieee⟩
def fp16 : FpFmt := ⟨5, 10, 15, .ieee⟩
def bf16 : FpFmt := ⟨8, 7, 127, .ieee⟩
def fp8e4m3 : FpFmt := ⟨4, 3, 7, .e4m3⟩
def fp8e5m2 : FpFmt := ⟨5, 2, 15, .ieee⟩
def fp6e3m2 : FpFmt := ⟨3, 2, 3, .none⟩
def fp6e2m3 : FpFmt := ⟨2, 3, 1, .none⟩
def fp4e2m1 : FpFmt := ⟨2, 1, 1, .none⟩

/-- Bits per element of a FORMAT code (R34). -/
def fmtBits (c : Nat) : Nat :=
  match c with
  | 0x00 => 32 | 0x01 => 16 | 0x02 => 16 | 0x07 => 6 | 0x08 => 6 | 0x09 => 4 | 0x0D => 4 | 0x0E => 4
  | 0x0F => 32 | 0x10 => 64 | _ => 8

/-- Alignment in bytes of a FORMAT code (R34). -/
def fmtAlign (c : Nat) : Nat :=
  match c with
  | 0x00 => 4 | 0x01 => 2 | 0x02 => 2 | 0x0F => 4 | 0x10 => 8 | _ => 1

/-- MX formats (R34). -/
def fmtMx (c : Nat) : Bool := decide (0x05 ≤ c) && decide (c ≤ 0x0A)

/-- Integer formats, without MXINT8 (R61). -/
def fmtInt (c : Nat) : Bool := decide (0x0B ≤ c) && decide (c ≤ 0x0F)

/-- A FORMAT code that is not reserved (R34). -/
def fmtLegal (c : Nat) : Bool := decide (c ≤ 0x10)

/-- The floating-point element layout of a FORMAT code; none for integers and MXINT8 (R34, R58). -/
def fmtFp (c : Nat) : Option FpFmt :=
  match c with
  | 0x00 => some fp32 | 0x01 => some fp16 | 0x02 => some bf16 | 0x03 => some fp8e4m3 | 0x04 => some fp8e5m2
  | 0x05 => some fp8e4m3 | 0x06 => some fp8e5m2 | 0x07 => some fp6e3m2 | 0x08 => some fp6e2m3 | 0x09 => some fp4e2m1
  | 0x10 => some fp64 | _ => Option.none

/-- Whether an integer format is signed (R61). -/
def fmtSigned (c : Nat) : Bool := c == 0x0B || c == 0x0D || c == 0x0F || c == 0x0A

/-- Bytes of a DIM0-row (R35). -/
def rowBytes (c dim0 : Nat) : Nat := ceilDiv (dim0 * fmtBits c) 8

/-- The value of a floating-point encoding (R58); with `ftz` a subnormal reads as zero of its sign (R77). -/
def decodeFp (f : FpFmt) (ftz : Bool) (raw : Nat) : FNum :=
  let m := raw % 2 ^ f.mb
  let e := (raw >>> f.mb) % 2 ^ f.eb
  let s := raw.testBit (f.eb + f.mb)
  if f.special = .ieee ∧ e = 2 ^ f.eb - 1 then (if m = 0 then .inf s else .nan)
  else if f.special = .e4m3 ∧ e = 2 ^ f.eb - 1 ∧ m = 2 ^ f.mb - 1 then .nan
  else if e = 0 then .fin s (if ftz then 0 else m) (1 - f.bias - f.mb)
  else .fin s (2 ^ f.mb + m) ((e : Int) - f.bias - f.mb)

/-- An integer as an exact value. -/
def FNum.ofInt (v : Int) : FNum := .fin (decide (v < 0)) v.natAbs 0

/-- The value of an element encoding, without its block scale (R58, R61); FTZ does not apply to MX elements (R77). -/
def decodeElem (c : Nat) (ftz : Bool) (raw : Nat) : FNum :=
  match fmtFp c with
  | some f => decodeFp f (ftz && !fmtMx c) raw
  | .none =>
    if c = 0x0A then
      let v := asSigned 8 raw
      .fin (decide (v < 0)) v.natAbs (-6)
    else if fmtSigned c then .ofInt (asSigned (fmtBits c) raw)
    else .fin false (raw % 2 ^ fmtBits c) 0

/-- An MX element under its block scale (R64). -/
def decodeMx (c scale raw : Nat) : FNum :=
  if scale = 0xFF then .nan
  else match decodeElem c false raw with
    | .fin s m e => .fin s m (e + scale - 127)
    | v => v

namespace FNum

/-- Zero of either sign. -/
def isZero : FNum → Bool
  | .fin _ 0 _ => true
  | _ => false

def isNan : FNum → Bool
  | .nan => true
  | _ => false

def isInf : FNum → Bool
  | .inf _ => true
  | _ => false

def isNeg : FNum → Bool
  | .fin s _ _ => s
  | .inf s => s
  | .nan => false

/-- The opposite value. -/
def negate : FNum → FNum
  | .fin s m e => .fin (!s) m e
  | .inf s => .inf (!s)
  | .nan => .nan

/-- Exact product (R79, R80): 0 × ∞ is NaN. -/
def mul : FNum → FNum → FNum
  | .nan, _ => .nan
  | _, .nan => .nan
  | .inf s, .inf t => .inf (xor s t)
  | .inf s, .fin t m _ => if m = 0 then .nan else .inf (xor s t)
  | .fin s m _, .inf t => if m = 0 then .nan else .inf (xor s t)
  | .fin s m e, .fin t n f => .fin (xor s t) (m * n) (e + f)

/-- A product that creates a NaN from non-NaN operands: 0 × ∞ (R86 KIND 0x01). -/
def mulInvalid (a b : FNum) : Bool := (a.isZero && b.isInf) || (a.isInf && b.isZero)

/-- The signed integer m × 2^(e − b) for b ≤ e. -/
def scaled (b : Int) : FNum → Int
  | .fin s m e =>
    let v : Int := (m <<< (e - b).toNat : Nat)
    if s then -v else v
  | _ => 0

/-- The exponent of a finite value that is not zero. -/
def lowExp : FNum → Option Int
  | .fin _ m e => if m = 0 then .none else some e
  | _ => .none

/-- The lowest exponent of the non-zero values of a list. -/
def minExp (xs : List FNum) : Option Int :=
  xs.foldl (fun a x => match a, x.lowExp with
    | .none, b => b
    | some p, .none => some p
    | some p, some q => some (min p q)) .none

/-- The exact sum of finite values; an exact zero is +0 (R79). -/
def sumFin (xs : List FNum) : FNum :=
  match minExp xs with
  | .none => .fin false 0 0
  | some b =>
    let v := xs.foldl (fun a x => if x.isZero then a else a + x.scaled b) (0 : Int)
    .fin (decide (v < 0)) v.natAbs b

/-- A sum under R79: NaN if a NaN or both infinities are present, else the infinity, else the exact sum. -/
def sum (xs : List FNum) : FNum :=
  if xs.any isNan then .nan
  else
    let p := xs.any (fun x => x == .inf false)
    let n := xs.any (fun x => x == .inf true)
    if p && n then .nan else if p then .inf false else if n then .inf true else sumFin xs

/-- Infinities of opposite sign meeting, with no NaN (R86 KIND 0x02). -/
def addInvalid (a b : FNum) : Bool := (a == .inf false && b == .inf true) || (a == .inf true && b == .inf false)

/-- The IEEE sum (R80): −0 + −0 is −0; any other exact zero is +0 under round to nearest even. -/
def ieeeAdd (a b : FNum) : FNum :=
  if a.isZero && b.isZero && a.isNeg && b.isNeg then .fin true 0 0 else sum [a, b]

/-- ⌊log₂ |x|⌋ of a finite non-zero value. -/
def expo : FNum → Int
  | .fin _ m e => e + Nat.log2 m
  | _ => 0

end FNum

/-- Rounding of a magnitude m × 2^e to `p` significant bits with no quantum below 2^emin (R70, R72): the significand, the
quantum's exponent, and whether the value was inexact. `u` is the draw of sr_bits. -/
def roundGrid (rnd : Rnd) (u p : Nat) (emin : Int) (m : Nat) (e : Int) : Nat × Int × Bool :=
  if m = 0 then (0, emin, false)
  else
    let q := max (e + (Nat.log2 m + 1 : Nat) - p) emin
    if q ≤ e then (m <<< (e - q).toNat, q, false)
    else
      let k := (q - e).toNat
      let a := m >>> k
      let r := m % 2 ^ k
      if r = 0 then (a, q, false)
      else
        let up := match rnd with
          | .rne => decide (2 * r > 2 ^ k) || (decide (2 * r = 2 ^ k) && a.testBit 0)
          | .rtz => false
          | .sr => decide (u < (r <<< 32) >>> k)
        (a + bnat up, q, true)

/-- sr_bits of R72. -/
def srBits (seed tid idx : Nat) : Nat :=
  let M := 2 ^ 64
  let z := (seed + tid * 0x9E3779B97F4A7C15 + idx * 0xD1B54A32D192ED03) % M
  let z := ((z ^^^ (z >>> 30)) * 0xBF58476D1CE4E5B9) % M
  let z := ((z ^^^ (z >>> 27)) * 0x94D049BB133111EB) % M
  let z := z ^^^ (z >>> 31)
  z >>> 32

/-- The canonical NaN of a floating-point format (R59). -/
def canonNan (f : FpFmt) : Nat :=
  match f.special with
  | .e4m3 => 0x7F
  | _ => (2 ^ f.eb - 1) <<< f.mb ||| (1 <<< (f.mb - 1))

/-- An encoding from its fields. -/
def fpBits (f : FpFmt) (s : Bool) (e m : Nat) : Nat := (bnat s) <<< (f.eb + f.mb) ||| (e <<< f.mb) ||| m

/-- The largest finite encoding with a sign (R58). -/
def fpMax (f : FpFmt) (s : Bool) : Nat :=
  match f.special with
  | .ieee => fpBits f s (2 ^ f.eb - 2) (2 ^ f.mb - 1)
  | .e4m3 => fpBits f s (2 ^ f.eb - 1) (2 ^ f.mb - 2)
  | .none => fpBits f s (2 ^ f.eb - 1) (2 ^ f.mb - 1)

/-- An infinity of a format that has one. -/
def fpInf (f : FpFmt) (s : Bool) : Nat := fpBits f s (2 ^ f.eb - 1) 0

/-- The exponent of the smallest subnormal. -/
def fpEmin (f : FpFmt) : Int := 1 - f.bias - f.mb

/-- The result of an overflow (R74, rows of the floating-point formats). -/
def fpOverflow (f : FpFmt) (rnd : Rnd) (sat s : Bool) : Nat :=
  if sat then fpMax f s
  else match f.special with
    | .ieee => if rnd = .rtz ∧ f.eb + f.mb + 1 > 8 then fpMax f s else fpInf f s
    | .e4m3 => canonNan f
    | .none => fpMax f s

/-- The place of a rounded magnitude a × 2^q in a format: exponent and mantissa fields, and whether it exceeds the largest
finite value. -/
def fpPlace (f : FpFmt) (a : Nat) (q : Int) : Nat × Nat × Bool :=
  if a < 2 ^ f.mb then (0, a, false)
  else
    let (a', q') := if a < 2 ^ (f.mb + 1) then (a, q) else (a / 2, q + 1)
    let ex := (q' + f.bias + f.mb).toNat
    let m := a' - 2 ^ f.mb
    let ovf := match f.special with
      | .ieee => decide (ex ≥ 2 ^ f.eb - 1)
      | .e4m3 => decide (ex > 2 ^ f.eb - 1) || (decide (ex = 2 ^ f.eb - 1) && decide (m = 2 ^ f.mb - 1))
      | .none => decide (ex > 2 ^ f.eb - 1)
    (ex, m, ovf)

/-- A cast into a floating-point format that is not an MX element (R59, R70, R74 to R77). -/
def castFp (f : FpFmt) (rnd : Rnd) (u : Nat) (sat ftz : Bool) (v : FNum) : Nat × Exc :=
  match v with
  | .nan => (canonNan f, Exc.zero)
  | .inf s =>
    if f.special = .ieee then (fpInf f s, Exc.zero)
    else (fpOverflow f rnd sat s, { Exc.ofOverflow with sat := bnat sat })
  | .fin s m e =>
    let (a, q, inexact) := roundGrid rnd u (f.mb + 1) (fpEmin f) m e
    let (ex, mant, ovf) := fpPlace f a q
    if ovf then (fpOverflow f rnd sat s, { Exc.ofOverflow with sat := bnat sat })
    else if ftz ∧ ex = 0 ∧ mant ≠ 0 then (fpBits f s 0 0, Exc.ofUnderflow true)
    else (fpBits f s ex mant, Exc.ofUnderflow (inexact && decide (ex = 0)))

/-- The range of an integer format (R61); MXINT8 is written as −127 … 127 (R62). -/
def intRange (c : Nat) : Int × Int :=
  let n := fmtBits c
  if c = 0x0A then (-127, 127)
  else if fmtSigned c then (-((2 ^ (n - 1) : Nat) : Int), ((2 ^ (n - 1) : Nat) : Int) - 1)
  else (0, ((2 ^ n : Nat) : Int) - 1)

/-- A finite value rounded to an integer (R71), and whether that was inexact. -/
def roundInt (rnd : Rnd) (u : Nat) (s : Bool) (m : Nat) (e : Int) : Int × Bool :=
  let (a, inexact) :=
    if 0 ≤ e then (m <<< e.toNat, false)
    else
      let k := (-e).toNat
      let a := m >>> k
      let r := m % 2 ^ k
      if r = 0 then (a, false)
      else
        let up := match rnd with
          | .rne => decide (2 * r > 2 ^ k) || (decide (2 * r = 2 ^ k) && a.testBit 0)
          | .rtz => false
          | .sr => decide (u < (r <<< 32) >>> k)
        (a + bnat up, true)
  (if s then -(a : Int) else (a : Int), inexact)

/-- A cast into an integer format (R71, R74, R76, R78). -/
def castInt (c : Nat) (rnd : Rnd) (u : Nat) (sat : Bool) (v : FNum) : Nat × Exc :=
  let n := fmtBits c
  let (lo, hi) := intRange c
  match v with
  | .nan => (0, Exc.ofInvalid)
  | .inf s => (toTwos n (if s then lo else hi), Exc.ofInvalid)
  | .fin s m e =>
    let (x, inexact) := roundInt rnd u s m e
    if x < lo then (toTwos n (if sat then lo else x), { Exc.ofOverflow with sat := bnat sat })
    else if x > hi then (toTwos n (if sat then hi else x), { Exc.ofOverflow with sat := bnat sat })
    else (toTwos n x, Exc.ofUnderflow (inexact && decide (x = 0)))

/-- A cast of one element into a format that is not MX (R70 to R78). -/
def castElem (c : Nat) (rnd : Rnd) (u : Nat) (sat ftz : Bool) (v : FNum) : Nat × Exc :=
  match fmtFp c with
  | some f => castFp f rnd u sat ftz v
  | .none => castInt c rnd u sat v

/-- The largest exponent of an MX element format (R65). -/
def mxEmax (c : Nat) : Int :=
  match c with
  | 0x05 => 8 | 0x06 => 15 | 0x07 => 4 | 0x08 => 2 | 0x09 => 2 | _ => 0

/-- One element of a block, already divided by the block scale (R65, R67): its encoding, whether it was clamped, whether
it was lost to zero. -/
def mxElem (c : Nat) (rnd : Rnd) (u : Nat) (s : Bool) (m : Nat) (e : Int) : Nat × Exc :=
  match fmtFp c with
  | some f =>
    let (a, q, _) := roundGrid rnd u (f.mb + 1) (fpEmin f) m e
    let (ex, mant, ovf) := fpPlace f a q
    if ovf then (fpMax f s, { Exc.zero with sat := 1 })
    else (fpBits f s ex mant, { Exc.zero with loss := bnat (decide (m ≠ 0) && decide (a = 0)) })
  | .none =>
    let (x, _) := roundInt rnd u s m (e + 6)
    if x < -127 then (toTwos 8 (-127), { Exc.zero with sat := 1 })
    else if x > 127 then (toTwos 8 127, { Exc.zero with sat := 1 })
    else (toTwos 8 x, { Exc.zero with loss := bnat (decide (m ≠ 0) && decide (x = 0)) })

/-- A quantised block: scale byte, element encodings, the exceptions of each element (R65 to R67). -/
structure MxBlock where
  scale : Nat
  elems : List Nat
  excs : List Exc
deriving DecidableEq, Repr

/-- The elements of a block under the scale exponent `x`, each with its exceptions. -/
def mxElems (c : Nat) (rnd : Rnd) (x : Int) (vs : List (FNum × Nat)) : List (Nat × Exc) :=
  vs.map fun (v, u) =>
    match v with
    | .fin s m e => mxElem c rnd u s m (e - x)
    | _ => (0, Exc.zero)

/-- Block quantisation (R65, R66, R74); each value comes with its sr_bits draw. The overflow of a block is that of each of
its elements. -/
def quantise (c : Nat) (rnd : Rnd) (sat : Bool) (vs : List (FNum × Nat)) : MxBlock :=
  let nanBlock (o : Bool) : MxBlock := ⟨0xFF, vs.map (fun _ => 0), vs.map (fun _ => { Exc.zero with overflow := o })⟩
  if vs.any (fun v => v.1.isNan || v.1.isInf) then nanBlock (vs.any (fun v => v.1.isInf))
  else
    let nz := (vs.map (·.1)).filter (fun v => !v.isZero)
    match nz with
    | [] => ⟨0x00, vs.map (fun _ => 0), vs.map (fun _ => Exc.zero)⟩
    | v :: rest =>
      let x := max (rest.foldl (fun a w => max a w.expo) v.expo - mxEmax c) (-127)
      if x > 127 then
        if sat then
          let es := mxElems c rnd 127 vs
          ⟨0xFE, es.map (·.1), es.map (fun e => { e.2 with overflow := true })⟩
        else nanBlock true
      else
        let es := mxElems c rnd x vs
        ⟨(x + 127).toNat, es.map (·.1), es.map (·.2)⟩

/-! ### Rows of elements in memory (R63) -/

/-- Bytes and elements of the smallest group of whole bytes. -/
def packGroup (c : Nat) : Nat × Nat :=
  match fmtBits c with
  | 4 => (1, 2)
  | 6 => (3, 4)
  | b => (b / 8, 1)

/-- The `n` elements of width `b` of a number, lowest first. -/
def splitBits (b : Nat) : Nat → Nat → List Nat
  | 0, _ => []
  | n + 1, v => (v % 2 ^ b) :: splitBits b n (v >>> b)

/-- The number made of elements of width `b`, lowest first. -/
def joinBits (b : Nat) : List Nat → Nat
  | [] => 0
  | v :: vs => v % 2 ^ b ||| (joinBits b vs <<< b)

/-- Elements of a row from its bytes; `k` bounds the groups. -/
def unpackRowAux (c gb ge : Nat) : Nat → List Byte → List Nat
  | 0, _ => []
  | k + 1, bs => splitBits (fmtBits c) ge (ofLeBytes (bs.take gb)) ++ unpackRowAux c gb ge k (bs.drop gb)

/-- The `n` element encodings of a DIM0-row. -/
def unpackRow (c n : Nat) (bs : List Byte) : List Nat :=
  let (gb, ge) := packGroup c
  (unpackRowAux c gb ge (ceilDiv n ge) bs).take n

def packRowAux (c gb ge : Nat) : Nat → List Nat → List Byte
  | 0, _ => []
  | k + 1, es => leBytes gb (joinBits (fmtBits c) (es.take ge)) ++ packRowAux c gb ge k (es.drop ge)

/-- The bytes of a DIM0-row. -/
def packRow (c : Nat) (es : List Nat) : List Byte :=
  let (gb, ge) := packGroup c
  packRowAux c gb ge (ceilDiv es.length ge) es

/-! ### ACC80 (R69, R95 to R97) -/

/-- Rounding to nearest even into ACC80: 64 significant bits; R97 bounds every finite sum inside its exponent range. -/
def acc80 (v : FNum) : FNum :=
  match v with
  | .fin s m e =>
    let (a, q, _) := roundGrid .rne 0 64 (-32829) m e
    .fin (s && decide (a ≠ 0)) a q
  | v => v

/-- One level of a balanced tree (R96). -/
def treeLevel : List FNum → List FNum
  | a :: b :: xs => acc80 (FNum.sum [a, b]) :: treeLevel xs
  | xs => xs

/-- A balanced tree of `n` levels (R96). -/
def treeSum : Nat → List FNum → FNum
  | 0, xs => xs.headD (.fin false 0 0)
  | n + 1, xs => treeSum n (treeLevel xs)

/-! ### The lanes of the vector engine (R80, R183, R184, R187) -/

/-- The grid of a floating-point compute type. -/
def ctFmt : CType → FpFmt
  | .fp64 => fp64
  | _ => fp32

/-- A lane value rounded to its compute type (R80, R74 for its range, R76, R77). -/
def laneRound (ct : CType) (ftz : Bool) (v : FNum) : FNum × Exc :=
  match v with
  | .fin _ _ _ =>
    let f := ctFmt ct
    let (r, ex) := castFp f .rne 0 false ftz v
    (decodeFp f false r, ex)
  | v => (v, Exc.zero)

/-- A subnormal input of the lane type reads as zero of its sign under FTZ (R77). -/
def laneFlush (ct : CType) (ftz : Bool) (v : FNum) : FNum :=
  match v with
  | .fin s m e =>
    let f := ctFmt ct
    if ftz ∧ m ≠ 0 ∧ (FNum.fin s m e).expo < 1 - f.bias then .fin s 0 0 else v
  | v => v

/-- A decoded source element as it enters a lane (R64, R183). Decoding has flushed a subnormal input already (R77); `ftz`
flushes a conversion that rounds, that of an FP64 source into FP32, and is false for every other source, whose conversion is
exact. INT32 lanes take integer sources as they are. -/
def toLane (ct : CType) (ftz : Bool) (v : FNum) : FNum × Exc :=
  match ct with
  | .fp32 => laneRound .fp32 ftz v
  | .fp64 => (v, Exc.zero)
  | .int32 => (v, Exc.zero)

/-- Order of V.MAX and V.MIN (R187): −0 below +0. -/
def numLt (a b : FNum) : Bool :=
  match a, b with
  | .inf s, .inf t => s && !t
  | .inf s, _ => s
  | _, .inf t => !t
  | .fin s m _, .fin t n _ =>
    if m = 0 ∧ n = 0 then s && !t
    else
      match FNum.sum [a, b.negate] with
      | .fin r k _ => r && decide (k ≠ 0)
      | _ => false
  | _, _ => false

/-- ⌊√n⌋ by bits: `k` is the number of result bits still to fix. -/
def isqrtAux (n : Nat) : Nat → Nat → Nat
  | 0, r => r
  | k + 1, r =>
    let c := r + 2 ^ k
    isqrtAux n k (if c * c ≤ n then c else r)

/-- ⌊√n⌋. -/
def isqrt (n : Nat) : Nat := isqrtAux n (Nat.log2 n / 2 + 1) 0

/-- √(m × 2^e) with `g` extra bits and a sticky last bit, which rounds as the exact value does. -/
def sqrtSticky (g m : Nat) (e : Int) : Nat × Int :=
  let (m, e) := if e % 2 = 0 then (m, e) else (2 * m, e - 1)
  let big := m <<< (2 * g)
  let r := isqrt big
  (2 * r + bnat (decide (r * r ≠ big)), e / 2 - g - 1)

/-- a ÷ b of magnitudes with `g` extra bits and a sticky last bit. -/
def divSticky (g m n : Nat) (e f : Int) : Nat × Int :=
  let k := g + Nat.log2 n + 1
  let q := (m <<< k) / n
  (2 * q + bnat (decide ((m <<< k) % n ≠ 0)), e - f - k - 1)

/-- The quotient (R80, R187): exceptions, and a magnitude that rounds as the exact one. -/
def laneDiv (ct : CType) (ftz : Bool) (a b : FNum) : FNum × Exc :=
  match a, b with
  | .nan, _ => (.nan, Exc.zero)
  | _, .nan => (.nan, Exc.zero)
  | .inf _, .inf _ => (.nan, Exc.ofInvalid)
  | .inf s, .fin t _ _ => (.inf (xor s t), Exc.zero)
  | .fin s _ _, .inf t => (.fin (xor s t) 0 0, Exc.zero)
  | .fin s m e, .fin t n f =>
    if n = 0 then (if m = 0 then (.nan, Exc.ofInvalid) else (.inf (xor s t), Exc.ofDivzero))
    else if m = 0 then (.fin (xor s t) 0 0, Exc.zero)
    else
      let (q, x) := divSticky 128 m n e f
      laneRound ct ftz (.fin (xor s t) q x)

/-- √a (R187). -/
def laneSqrt (ct : CType) (ftz : Bool) (a : FNum) : FNum × Exc :=
  match a with
  | .nan => (.nan, Exc.zero)
  | .inf s => if s then (.nan, Exc.ofInvalid) else (a, Exc.zero)
  | .fin s m e =>
    if m = 0 then (a, Exc.zero)
    else if s then (.nan, Exc.ofInvalid)
    else
      let (r, x) := sqrtSticky 128 m e
      laneRound ct ftz (.fin false r x)

/-! The four functions of R187 that are within one unit in the last place: the exact value is bracketed with 256 fraction
bits, and `Config.ulpChoice` picks among the values R187 allows (log entry 8). -/

/-- ⌊ln 2 × 2^256⌋. -/
def ln2Fix : Nat := 0xb17217f7d1cf79abc9e3b39803f2f6af40f343267298b62d8a0d175b8baafa2b

/-- Σ r^k ÷ k! for fixed-point 0 ≤ r < 1 (256 fraction bits): term, index, steps left. -/
def expSeries (r : Nat) : Nat → Nat → Nat → Nat
  | 0, _, _ => 0
  | n + 1, k, t => t + expSeries r n (k + 1) ((t * r) >>> 256 / (k + 1))

/-- e^x of x = ±m × 2^e, |x| < 1024, as a magnitude with a sticky last bit. -/
def expSticky (s : Bool) (m : Nat) (e : Int) : Nat × Int :=
  let fx : Nat := if 0 ≤ e + 256 then m <<< (e + 256).toNat else m >>> (-(e + 256)).toNat
  let v : Int := if s then -(fx : Int) else fx
  let k : Int := v / (ln2Fix : Int)
  let r := (v - k * ln2Fix).toNat
  (2 * expSeries r 80 0 (2 ^ 256) + 1, k - 257)

/-- Σ z^(2k+1) ÷ (2k+1): the inverse hyperbolic tangent of fixed-point z < ½. -/
def atanhSeries (z2 : Nat) : Nat → Nat → Nat → Nat
  | 0, _, _ => 0
  | n + 1, k, t => t / (2 * k + 1) + atanhSeries z2 n (k + 1) ((t * z2) >>> 256)

/-- ln of m × 2^e, m > 0, as a signed value with a sticky last bit; zero for 1. -/
def logSticky (m : Nat) (e : Int) : FNum :=
  let b := Nat.log2 m
  let f := if b ≤ 256 then m <<< (256 - b) else m >>> (b - 256)
  let k : Int := e + b
  let one := 2 ^ 256
  let z := ((f - one) <<< 256) / (f + one)
  let v : Int := k * ln2Fix + (2 * atanhSeries ((z * z) >>> 256) 170 0 z : Nat)
  if k = 0 ∧ f = one then .fin false 0 0
  else .fin (decide (v < 0)) (2 * v.natAbs + 1) (-257)

/-- The values of `ct` within one unit in the last place of an exact finite value (R187): its two neighbours, or, when it
is itself on the grid, itself and both neighbours. -/
def ulpNeighbours (v : FNum) : List (FNum × Exc) :=
  match v with
  | .fin s m e =>
    let (a, q, inexact) := roundGrid .rtz 0 24 (-149) m e
    let fin (a : Nat) (q : Int) : FNum × Exc :=
      let (r, ex) := castFp fp32 .rne 0 false false (.fin s a q)
      (decodeFp fp32 false r, ex.join (Exc.ofUnderflow (inexact && decide (a < 2 ^ 23))))
    if inexact then [fin a q, fin (a + 1) q]
    else if a = 0 then [fin 0 q, fin 1 q, ((fin 1 q).1.negate, (fin 1 q).2)]
    else if a = 2 ^ 23 ∧ q > -149 then [fin a q, fin (a + 1) q, fin (2 * a - 1) (q - 1)]
    else [fin a q, fin (a + 1) q, fin (a - 1) q]
  | v => [(v, Exc.zero)]

/-- The choice among them: a fixed function of the operation and the input. -/
def ulpPick (op : Nat) (ftz : Bool) (input : FNum) (v : FNum) : FNum × Exc :=
  let l := ulpNeighbours v
  let raw := (castFp fp32 .rne 0 false false input).1
  let i := Config.ulpChoice op (BitVec.ofNat 32 raw) % l.length
  let (r, ex) := l.getD i (v, Exc.zero)
  let r' := laneFlush .fp32 ftz r
  (r', if r' = r then ex else ex.join (Exc.ofUnderflow true))

/-- V.EXP. -/
def laneExp (ftz : Bool) (a : FNum) : FNum × Exc :=
  match a with
  | .nan => (.nan, Exc.zero)
  | .inf s => (if s then .fin false 0 0 else a, Exc.zero)
  | .fin s m e =>
    if m = 0 then ulpPick 0 ftz a (.fin false 1 0)
    else if a.expo ≥ 10 then ulpPick 0 ftz a (.fin false 1 (if s then -5000 else 5000))
    else
      let (r, x) := expSticky s m e
      ulpPick 0 ftz a (.fin false r x)

/-- V.LOG. -/
def laneLog (ftz : Bool) (a : FNum) : FNum × Exc :=
  match a with
  | .nan => (.nan, Exc.zero)
  | .inf s => if s then (.nan, Exc.ofInvalid) else (a, Exc.zero)
  | .fin s m e =>
    if m = 0 then (.inf true, Exc.ofDivzero)
    else if s then (.nan, Exc.ofInvalid)
    else ulpPick 1 ftz a (logSticky m e)

/-- V.RSQRT. -/
def laneRsqrt (ftz : Bool) (a : FNum) : FNum × Exc :=
  match a with
  | .nan => (.nan, Exc.zero)
  | .inf s => if s then (.nan, Exc.ofInvalid) else (.fin false 0 0, Exc.zero)
  | .fin s m e =>
    if m = 0 then (.inf s, Exc.ofDivzero)
    else if s then (.nan, Exc.ofInvalid)
    else
      let (m', e') := if e % 2 = 0 then (m, e) else (2 * m, e - 1)
      let t := (2 ^ 512) / m'
      let r := isqrt t
      let exact := decide (m' * (r * r) = 2 ^ 512)
      ulpPick 2 ftz a (.fin false (2 * r + bnat (!exact)) (-(e' / 2) - 257))

/-- V.SILU: a ÷ (1 + e^−a). -/
def laneSilu (ftz : Bool) (a : FNum) : FNum × Exc :=
  match a with
  | .nan => (.nan, Exc.zero)
  | .inf s => (if s then .fin true 0 0 else a, Exc.zero)
  | .fin s m e =>
    if m = 0 then ulpPick 3 ftz a a
    else if a.expo ≥ 10 then
      ulpPick 3 ftz a (if s then .fin true 1 (-5000) else .fin false ((m <<< 256) - 1) (e - 256))
    else
      let (r, x) := expSticky (!s) m e
      match FNum.sum [.fin false 1 0, .fin false r x] with
      | .fin _ d y =>
        let (q, z) := divSticky 300 m d e y
        ulpPick 3 ftz a (.fin s q z)
      | v => (v, Exc.zero)

/-- The larger or smaller operand (R187). -/
def lanePick (max : Bool) (a b : FNum) : FNum :=
  if a.isNan || b.isNan then .nan
  else if max then (if numLt a b then b else a)
  else (if numLt b a then b else a)

/-- One floating-point operation on lane values `a`, `b`, `c` and the scalar `s` (R181, R184, R187): result, exceptions,
and the KIND of R86 when it creates a NaN (0 otherwise). -/
def laneOp (op : VOp) (ct : CType) (ftz : Bool) (a b c s : FNum) : FNum × Exc × Nat :=
  let arith (v : FNum) : FNum × Exc × Nat := let (r, ex) := laneRound ct ftz v; (r, ex, 0)
  let add (x y : FNum) : FNum × Exc × Nat :=
    if x.addInvalid y then (.nan, Exc.ofInvalid, 2) else arith (x.ieeeAdd y)
  let mul (x y : FNum) : FNum × Exc × Nat :=
    if x.mulInvalid y then (.nan, Exc.ofInvalid, 1) else arith (x.mul y)
  let fma (x y z : FNum) : FNum × Exc × Nat :=
    if z.isNan then (.nan, Exc.zero, 0)
    else if x.mulInvalid y then (.nan, Exc.ofInvalid, 1)
    else add (x.mul y) z
  let other (p : FNum × Exc) : FNum × Exc × Nat := (p.1, p.2, if p.2.invalid then 3 else 0)
  match op with
  | .add => add a b
  | .sub => add a b.negate
  | .mul => mul a b
  | .div => other (laneDiv ct ftz a b)
  | .fma => fma a b c
  | .max => (lanePick true a b, Exc.zero, 0)
  | .min => (lanePick false a b, Exc.zero, 0)
  | .adds => add a s
  | .muls => mul a s
  | .axpy => fma s a b
  | .sqrt => other (laneSqrt ct ftz a)
  | .rsqrt => other (laneRsqrt ftz a)
  | .exp => other (laneExp ftz a)
  | .log => other (laneLog ftz a)
  | .silu => other (laneSilu ftz a)
  | .cvt => (a, Exc.zero, 0)
  | .red => (a, Exc.zero, 0)

/-- An INT32 result that leaves its range wraps, or clamps and counts (R184, R75). -/
def wrap32 (sat : Bool) (v : Int) : Int × Exc :=
  if v < -2147483648 then (if sat then -2147483648 else asSigned 32 (toTwos 32 v), { Exc.zero with sat := bnat sat })
  else if v > 2147483647 then (if sat then 2147483647 else asSigned 32 (toTwos 32 v), { Exc.zero with sat := bnat sat })
  else (v, Exc.zero)

/-- The integer of an INT32 lane. -/
def FNum.toInt : FNum → Int
  | .fin s m e =>
    let v : Nat := if 0 ≤ e then m <<< e.toNat else m >>> (-e).toNat
    if s then -(v : Int) else v
  | _ => 0

/-- One INT32 operation (R181, R184). -/
def laneOpInt (op : VOp) (sat : Bool) (a b s : Int) : Int × Exc :=
  match op with
  | .add => wrap32 sat (a + b)
  | .sub => wrap32 sat (a - b)
  | .mul => wrap32 sat (a * b)
  | .max => (max a b, Exc.zero)
  | .min => (min a b, Exc.zero)
  | .adds => wrap32 sat (a + s)
  | .muls => wrap32 sat (a * s)
  | _ => (a, Exc.zero)

end Sys2Proof.Machine
end

