-- ==== Sys2Proof/Machine/State.lean ====
section
/-! DEFINITION. The state of the device: every register, table, queue, buffer and pin the spec gives it, as plain data, and
the queue of waiting commands. Large tables are held sparsely (Machine/Sparse.lean): an unlisted key reads the default that
its field's comment names. -/

namespace Sys2Proof.Machine

/-! ### Tasks and cores (chapters Programming in Cynal; Cores, foragers and placement) -/

/-- The states of a context (R29). -/
inductive CtxState where
  | free | loaded | runnable | running | faulted | stopped
deriving DecidableEq, Repr

/-- A descriptor register: words W0 to W3 (R33). -/
structure Desc where
  w0 : Word
  w1 : Word
  w2 : Word
  w3 : Word
deriving DecidableEq, Repr

/-- The registers of a task (R31). -/
structure TaskRegs where
  g : Vector Word 64
  t : Vector Desc 16
  p : Vector Bool 8
deriving DecidableEq, Repr

/-- What a task is bound to (R202, R409): nothing, a brood cell, or a step window of partition `p`. -/
inductive Bound where
  | none
  | cell (c : Nat)
  | window (p w : Nat)
deriving DecidableEq, Repr

/-- What a task is for (R49, R245, R277): a program's task, the handler of message `msg` of a ring's
epoch, or the optimizer handler of a chunk. -/
inductive TaskKind where
  | plain
  | ringHandler (ring msg epoch : Nat)
  | optHandler (p chunk : Nat)
deriving DecidableEq, Repr

/-- A task that has not started (R49): entry word (R336), arguments, logical id, home core, the core group it is pinned to
(R120), kind and binding. -/
structure Task where
  entry : Word
  args : List Word
  tid : Nat
  home : Nat
  group : Option (Nat × Nat)
  kind : TaskKind
  bound : Bound
deriving DecidableEq, Repr

/-- Where the site of an invalid result lies (R85 to R87): KIND and KIDX. -/
structure Site where
  kind : Nat
  kidx : Nat
deriving DecidableEq, Repr

/-- One row of an accumulator store between a deferred product and its A.DRN (R91, R100): the ACC80 value of each output
and, where it is invalid, its site. -/
structure AccRow where
  vals : List FNum
  sites : List (Option Site)
deriving DecidableEq, Repr

/-- Where an issued instruction stands: in its queue, started, or executed and awaiting its post. -/
inductive Stage where
  | issued | started | executed
deriving DecidableEq, Repr

/-- What a started communication instruction waits for (R263, R269, R274, R280, R295, R316). -/
inductive CommWait where
  | none
  | flag (f : Nat)
  | barrier (b g i : Nat)
  | answer (rank ring : Nat)
  | ringReset (ring : Nat)
  | collective (slot seq : Nat)
deriving DecidableEq, Repr

/-- An issued instruction with the register values it read at issue (R32). `live` is false when the predicate is false or
the effective count is zero (R46 steps 2 and 4). `drn` is the A.DRN issued together with a deferred product (R100).
`ticks` counts the beats of its waits (R265), `since` is the beat and `order` the place in the order in which its wait began
(R264, R289). -/
structure Flight where
  id : Nat
  pc : Nat
  word : Word
  op : CWord
  live : Bool
  regs : TaskRegs
  stage : Stage
  ticks : Nat
  since : Nat
  order : Nat
  waits : CommWait
  drn : Option (Word × CWord)
  acc : List AccRow
deriving DecidableEq, Repr

/-- A task running on a core (R31, R45, R48): its CODE region, program counter, registers, token counters, the instruction
the sequencer holds, the engine queues (head first), the instructions started, whether K.END has executed, whether a
poisoned fetch has stopped the task (R520), and whether its message is acknowledged (R278). -/
structure Running where
  task : Task
  base : Nat
  size : Nat
  pc : Nat
  regs : TaskRegs
  tokens : Vector Nat 32
  seq : Option Flight
  array : List Flight
  vector : List Flight
  mover0 : List Flight
  mover1 : List Flight
  transposer : List Flight
  comm : List Flight
  flying : List Flight
  ended : Bool
  poisonStop : Bool
  acked : Bool
  nextId : Nat
deriving DecidableEq, Repr

/-- The states of a weight register set (R102). -/
inductive SetState where
  | empty | loading | ready
deriving DecidableEq, Repr

/-- The load record of a weight set (R102, R105, R174): the load it came from, the weight descriptor, NSEL, KSEL, first
column and K element, and the captured sB with it (the descriptor's SCALE). -/
structure LoadRec where
  load : Nat
  desc : Desc
  nsel : Nat
  ksel : Nat
  row : Nat
  elem : Nat
deriving DecidableEq, Repr

/-- A weight register set (R91, R101, R102): state, load record, and the decoded columns. -/
structure WSet where
  st : SetState
  loaded : Option LoadRec
  cols : List (List FNum)
deriving DecidableEq, Repr

/-- The two register sets of an array (R91). -/
structure ArrSets where
  active : WSet
  shadow : WSet
deriving DecidableEq, Repr

/-- What a core keeps for one context: its deque (near end first, R117), the spawns held for want of room (R203; true: for
the near end), the task running or saved with it (R28), and the register sets of its four arrays. -/
structure CoreCtx where
  deque : List Task
  held : List (Bool × Task)
  run : Option Running
  arrays : List ArrSets
deriving DecidableEq, Repr

/-- A handle table entry: its two words (R39). -/
structure Handle where
  w0 : Word
  w1 : Word
deriving DecidableEq, Repr

/-- A context slot (R25, R29): state; whether it was stopped from LOADED; partition; handle table (default: zero words);
flag map, name to entry word (R257; default 0); what its manifest declares; its tasks of each core; the SCRATCH region of each logical core (R40) and the deque region of each (R117); messages sent (R273 SEQ); loads of weight sets made; the arguments of its original launch (R431); whether it
has launched since its load; and the bytes of its manifest. -/
structure Ctx where
  st : CtxState
  fromLoaded : Bool
  part : Nat
  handles : List (Nat × Handle)
  flagMap : List (Nat × Nat)
  man : Option Manifest
  cores : List (Nat × CoreCtx)
  scratch : List Nat
  deques : List Nat
  sent : Nat
  loads : Nat
  launchArgs : List Word
  launched : Bool
  image : List Byte
deriving DecidableEq, Repr

/-- A partition's slice (R27): the context that holds it, the beats left, and whether a new slice awaits SLICE_START. -/
structure Slice where
  ctx : Option Nat
  left : Nat
  last : Nat
deriving DecidableEq, Repr

/-! ### The error log (chapter Spares, checkpoints and error records) -/

/-- An error record (R433). -/
structure ErrRec where
  code : Nat
  sev : Nat
  part : Option Nat
  ctx : Option Nat
  core : Option Nat
  forager : Nat
  seq : Nat
  pc : Nat
  obj : Nat
  beat : Nat
  d0 : Nat
  d1 : Nat
  d2 : Nat
  d3 : Nat
deriving DecidableEq, Repr

/-! ### Flags, barriers and rings (chapter Flags, waits and message rings) -/

/-- A physical flag (R260). -/
structure FlagSt where
  value : Bool
  merges : Nat
deriving DecidableEq, Repr

/-- A barrier (R269): released generation G, participants E, entries counted towards G + 1, each participant's generation
(default 0), and whether this device's entry for G + 1 has gone up the tree (R319). -/
structure BarSt where
  g : Nat
  e : Nat
  arrived : Nat
  gens : List (Nat × Nat)
  up : Bool
deriving DecidableEq, Repr

/-- The header of a placed message (R273). -/
structure MsgHdr where
  kind : Nat
  tag : Nat
  src : Nat
  data : Nat
  len : Nat
deriving DecidableEq, Repr

/-- How far a placed message has come (R277, R278): capped, its handler task spawned, started. -/
inductive MsgStage where
  | capped | spawned | started
deriving DecidableEq, Repr

/-- A message of a ring, or a pad (no header): first slot, slots, and whether it is consumed. -/
structure RMsg where
  id : Nat
  pos : Nat
  slots : Nat
  hdr : Option MsgHdr
  stage : MsgStage
  consumed : Bool
deriving DecidableEq, Repr

/-- A combining entry (R281): tag, bytes of the contributions, exact sums, contributions held. -/
structure CombEntry where
  tag : Nat
  len : Nat
  sums : List FNum
  count : Nat
deriving DecidableEq, Repr

/-- The operations of R345. -/
inductive RingOp where
  | open_ | close | reset
deriving DecidableEq, Repr

/-- A ring (R271): the fields of its five words, the state a reset restores, its messages oldest first, its combining
entries open and closed, the messages dispatched since the last reset, the handler tasks in flight by message, and the
operations waiting for a reset to complete with the one that waits for it (R345). -/
structure Ring where
  valid : Bool
  st : Nat
  prior : Nat
  combining : Bool
  combInt : Bool
  log2 : Nat
  ctx : Nat
  part : Nat
  handlers : Nat
  tags : Nat
  epoch : Nat
  handle : Nat
  wptr : Nat
  rptr : Nat
  lost : Nat
  expect : Nat
  gFirst : Nat
  gLast : Nat
  hHandle : Nat
  hOffset : Nat
  msgs : List RMsg
  nextMsg : Nat
  opened : List CombEntry
  closed : List CombEntry
  dispatched : Nat
  active : List Nat
  resetBy : Option (Nat × Nat × Nat)
  ops : List (Nat × Nat × Nat × RingOp)
deriving DecidableEq, Repr

/-! ### Collective groups and Waggle trees (chapter Collectives and the Waggle path) -/

/-- The payload of a combining chunk on its way through the adders: wire values and the fields of R233. -/
structure Cargo where
  vals : List Nat
  srcRes : Nat
  rndRes : Nat
  nonfinite : Bool
deriving DecidableEq, Repr

/-- A chunk waiting to be sent: stage of the all-gather side or not, stage number, receiving rank, ELEM, and what it
carries. -/
structure OutChunk where
  gather : Bool
  stage : Nat
  dest : Nat
  elem : Nat
  cargo : Cargo
  data : List Byte
deriving DecidableEq, Repr

/-- A member's bulk collective in progress (R295 to R310): the instruction that entered it (none: the parameter gather of
R248), signature, source and destination with their regions' base addresses, signals, entry beat and beat of the last chunk
received, latest and earliest entries known (R314), stages whose first chunk has come and has been sent, partial sums by
level and chunk, chunks that came before their partial, chunks waiting to be sent (R304) and to be written (R305), chunks
written, and of these the numbers of those signalled (R308, R310), retries made, chunks whose fold is in (R232), data chunks sent,
whether every receiving stage has agreed (R305), the first element of a final sum that failed its destination check (R301), and the
status bits. -/
structure Bulk where
  owner : Option (Nat × Nat × Nat)
  sig : Sig
  src : Option (Desc × Nat)
  dst : Option (Desc × Nat)
  sigMode : Nat
  target : Nat
  span : Nat
  beat : Nat
  last : Nat
  late : Nat × Nat
  early : Nat
  heard : List (Bool × Nat)
  began : List (Bool × Nat)
  parts : List (Nat × Nat × Cargo)
  came : List (Nat × Nat × Cargo)
  outbox : List OutChunk
  writes : List (Nat × List Byte)
  written : List Nat
  signalled : List Nat
  tries : List (Nat × Nat)
  folded : List Nat
  sent : Nat
  agreed : Bool
  failed : Option Nat
  overflow : Bool
  sigLost : Bool
deriving DecidableEq, Repr

/-- What entered a Waggle reduction (R318): an instruction (context, core, number), the step-end OR, the commit vote, or the naming
of a mismatch. -/
inductive WagOwner where
  | instr (x l id : Nat)
  | stepOr
  | vote
  | naming
deriving DecidableEq, Repr

/-- A Waggle reduction in progress at a member (R316): what entered it, its signature, wire values and bad scalars, and the result of
a device-started one once it has come down. -/
structure Wag where
  owner : WagOwner
  sig : Sig
  vals : List Int
  bad : List Bool
  result : Option (List Int)
deriving DecidableEq, Repr

/-- A device-started Waggle reduction that waits for the group (R295): RED, TYPE and the values it contributes. -/
structure DevWag where
  owner : WagOwner
  red : Nat
  type : Nat
  vals : List Int
deriving DecidableEq, Repr

/-- The naming of a mismatch (R306 step 3): the reductions completed, what they have named, and the one in flight with the beat of
its entry. -/
structure Naming where
  step : Nat
  rankA : Nat
  sigA : Sig
  rankB : Nat
  sigB : Sig
  wag : Option Wag
  since : Nat
deriving DecidableEq, Repr

/-- A collective group (R293, R323): the fields of its words, its members' job ranks, the operations in progress and
waiting (true: a Waggle reduction), chunks staged before entry or held for a later generation, abort notices by (Waggle,
sequence number), the abort under way with the beat of its notice, the reason that poisoned the group (R306, R307), the
device-started Waggle reductions that wait, whether a device-started bulk collective waits for the group (R295), the naming under
way, and its Waggle tree. -/
structure Grp where
  valid : Bool
  part : Nat
  ctx : Nat
  gid : Nat
  rank : Nat
  members : List Nat
  st : Nat
  device : Bool
  gen : Nat
  seq : Nat
  wseq : Nat
  abortSeq : Nat
  abortReason : Nat
  abortWaggle : Bool
  abortValid : Bool
  bulk : Option Bulk
  wag : Option Wag
  waiting : List (Bool × Nat × Nat × Nat)
  staged : List BulkChunk
  notices : List (Bool × Nat × AbortReason)
  aborting : Option (Bool × Nat × AbortReason × Nat)
  poison : Nat
  devWags : List DevWag
  devBulk : Bool
  naming : Option Naming
  tree : Option Nat
deriving DecidableEq, Repr

/-- A Waggle tree through this device (R315, R324): the fields of WGL_TREE, the contributions held (none: the local one)
and the barrier entries held with their generation, and the generation last released. -/
structure WTree where
  valid : Bool
  root : Bool
  up : Nat
  down : Nat
  depth : Nat
  relay : Bool
  local_ : Nat
  gid : Nat
  contribs : List (Option Nat × Sig × List Int × List Bool)
  entries : List (Option Nat × Nat)
  released : Nat
deriving DecidableEq, Repr

/-! ### Brood cells and training partitions (chapters 08 and 09) -/

/-- The states of a cell (R201, R225). -/
inductive CellSt where
  | free | forward | stashed | backward | accumulate | serving
deriving DecidableEq, Repr

/-- A brood cell (R225). `admitted` says that the accumulate entry has been spawned; `orphanLogged` that R222 case 2 has
been logged; `gen` is the window of a serving cell. -/
structure Cell where
  st : CellSt
  part : Nat
  ctx : Nat
  vstage : Nat
  slot : Nat
  index : Nat
  step : Nat
  attempt : Nat
  tasks : Nat
  inSlot : Nat
  outSlot : Nat
  beat : Nat
  admitted : Bool
  orphanLogged : Bool
deriving DecidableEq, Repr

/-- A capped item in an inbound queue (R198, R200) and the slot that holds it. -/
structure InItem where
  step : Nat
  attempt : Nat
  index : Nat
  slot : Nat
deriving DecidableEq, Repr

/-- An item of an outbound slot that waits for a credit (R198, R200): the position that it goes to, and whether it, and its copy
for a backup there (R252), have yet to leave. -/
structure OutItem where
  slot : Nat
  pos : Nat
  item : StageItem
  main : Bool
  copy : Bool
deriving DecidableEq, Repr

/-- The queues of one virtual stage (R198, R199, R205): items waiting, outbound slots taken, stash slots taken, the cells in
the order their backward phases completed (R214), how many micro-batches of the step, and of the next, have completed their
forward phase there, and how many of the step their accumulate phase; the credits spent and not yet returned, of the receivers and
of their backups, in each direction, and the items that wait for one (R198, R252). -/
structure VSt where
  inF : List InItem
  inB : List InItem
  outF : List Nat
  outB : List Nat
  stash : List Nat
  backOrder : List Nat
  fwdDone : Nat
  fwdNext : Nat
  accDone : Nat
  owedF : Nat
  owedB : Nat
  copyF : Nat
  copyB : Nat
  sendF : List OutItem
  sendB : List OutItem
deriving DecidableEq, Repr

/-- A gradient block on its way (R233 to R241): its form, dense elements or votes, sparse entries, signs, and the reduction
fields. -/
structure GCargo where
  form : ChunkForm
  vals : List (BitVec 32)
  idxs : List Nat
  signs : List Bool
  mag : Nat
  srcRes : Nat
  rndRes : Nat
  nonfinite : Bool
deriving DecidableEq, Repr

/-- A chunk of the shard ready for its handler (R236, R242): its index within the shard, values, MAG and NONFINITE. -/
structure ReadyChunk where
  c : Nat
  vals : List (BitVec 32)
  mag : Nat
  nonfinite : Bool
deriving DecidableEq, Repr

/-- A gradient chunk waiting to be sent in a round, and the rank it goes to. -/
structure GradOut where
  round : Nat
  dest : Nat
  wire : GradWire
deriving DecidableEq, Repr

/-- A gradient exchange in progress (R227 to R253): its compression, the beat at which each round was entered, partial sums
by level and unit, units that came before their partial, parts of units not yet whole, chunks received (round, index, part),
units whose fold is in (R232), chunks to be sent, chunks ready for handlers, chunks delivered, chunks whose handler has
ended, the vote's causes, NONFINITE chunks presented and the first of them, whether it was aborted, whether this device has
voted, and the ranks whose backup was taken. -/
structure Xch where
  comp : Nat
  entered : List (Nat × Nat)
  parts : List (Nat × Nat × GCargo)
  came : List (Nat × Nat × GCargo)
  pieces : List (Nat × Nat × GradWire)
  got : List (Nat × Nat × Nat)
  folded : List Nat
  outbox : List GradOut
  ready : List ReadyChunk
  delivered : List Nat
  ended : List Nat
  nfx : Bool
  rpt : Bool
  nfCount : Nat
  nfFirst : Nat
  aborted : Bool
  voted : Bool
  promoted : List Nat
deriving DecidableEq, Repr

/-- A stage item being assembled from its packets (R364): its direction, its sender's address, its header (R200), the packets that make
it up, and those that have come. -/
structure ItemPart where
  forward : Bool
  src : Nat
  step : Nat
  attempt : Nat
  index : Nat
  vstage : Nat
  count : Nat
  got : List (Nat × List Byte)
deriving DecidableEq, Repr

/-- An input item being assembled (R454): cursor, total bytes, bytes received by offset. -/
structure InPart where
  cursor : Nat
  total : Nat
  got : List (Nat × List Byte)
deriving DecidableEq, Repr

/-- Checkpoint state of a partition (R423 to R426): the last generation begun, with STEP, beat and cursor as it began, whether
its snapshot is due or under way, the last generations whose own header is written and whose copy is acknowledged, the beat
at which a copy was sent, whether a copy is to be sent again, and whether the background copies to a drone that is now the buddy
and to one that is now the ward await their acknowledgements (R431). -/
structure Ckpt where
  gen : Nat
  step : Nat
  beat : Nat
  cursor : Nat
  snap : Bool
  own : Nat
  acked : Nat
  copyAt : Option Nat
  retry : Bool
  bgBuddy : Bool
  bgWard : Bool
deriving DecidableEq, Repr

/-- The training state of a partition: its virtual stages' queues; NF (R218); the HALT cause of its next vote (R245, R247,
R251); whether an OR result is awaited and forwards wait for the window's end (R217); steps completed in the accumulation
window (R215) and the cursor of the next input (R200); the input items being assembled; the beat at which an exhaustion
episode began (R221); the exchange; gradient chunks held for it; whether the parameter gather runs (R248); the beat at which
this device entered a device-started Waggle operation that has not returned (R320); whether this device is fenced (R252); the
exchange (false) or gather (true) that waits for its group (R295, R311); and the checkpoint state. -/
structure Train where
  vs : List VSt
  nf : Bool
  halt : Bool
  orWait : Bool
  fwdHold : Bool
  winSteps : Nat
  cursor : Nat
  inputs : List InPart
  items : List ItemPart
  episode : Option Nat
  xch : Option Xch
  gstaged : List GradChunk
  gather : Bool
  wagSince : Option Nat
  fenced : Bool
  startDue : Option Bool
  ckpt : Ckpt
deriving DecidableEq, Repr

/-! ### The host event queue (R286, R337, R435, R458) -/

/-- An entry of the host event queue, by its kind (R458). -/
inductive HostEv where
  | record (r : ErrRec)
  | program (ctx core pc : Nat) (v : Word)
  | gap (count beat : Nat)
  | rewind (part cursor step attempt : Nat)
  | keyLow (an pn : Nat)
  | bootPhase (w : Word)
deriving DecidableEq, Repr

/-- A queue entry: whether it has been delivered at all, the sessions whose acknowledgement it awaits, and the EVENT
messages (session, SEQ) that carried it. -/
structure QEntry where
  ev : HostEv
  delivered : Bool
  awaits : List Nat
  sent : List (Nat × Nat)
deriving DecidableEq, Repr

/-! ### Fabric ports and Swarm (chapter Optical fabric) -/

/-- A unit in a port's retry buffer (R362, R363): its LSEQ, the packet it belongs to with its last flag, and how often it has been sent
again. -/
structure TxUnit where
  lseq : Nat
  pkt : Nat
  last : Bool
  resends : Nat
deriving DecidableEq, Repr

/-- A packet on its way through this device: its number, the port and the class it came by (no port: injected here), whether
its units carry PSN (R361), and the packet,
for a Waggle cell or a credit return of this device, the port that it leaves by, the partition that injects it and its group's slot
(R312, R313, R365), and whether it is sent again by another route (R379). -/
structure Transit where
  id : Nat
  inPort : Option Nat
  inEsc : Bool
  psn : Bool
  pkt : Packet
  via : Option Nat
  part : Option Nat
  slot : Nat
  resent : Bool
deriving DecidableEq, Repr

/-- A packet partly received on a port (R360): its VC and class, units so far, whether one carried PSN, and the bodies joined. -/
structure PartIn where
  vc : Nat
  cls : Nat
  units : Nat
  psn : Bool
  body : List Byte
deriving DecidableEq, Repr

/-- What a port's arbitration remembers (R312, R313, R365, R366): the class whose turn it is (0 the relayed traffic and VC7, 1 + n
partition n) with the flits that each may still send, the same of groups by their slots in bytes of payload, the flits that each
partition owes its channels other than VC2, and which of those is next there. -/
structure Arb where
  turn : Nat
  flits : List (Nat × Nat)
  group : Nat
  bytes : List (Nat × Nat)
  other : List (Nat × Nat)
  next : List (Nat × Nat)
deriving DecidableEq, Repr

/-- A fabric port (R362, R364, R379): the last unit received in order, whether it discards until the resend arrives, the
next LSEQ to send, the retry buffer and the packets with units in it, VC0 flits freed that no trailer has told yet, credits
by VC × 2 + class, packets partly received, packets held for a confirmation, each with the distance of its LAST unit from the
last unit acknowledged, that unit, and the beat of the deadline, whether it sends
safety pulses (R356), whether it went down under R379, the lanes failed, and its arbitration. -/
structure Port where
  lastIn : Nat
  dropping : Bool
  nextOut : Nat
  retry : List TxUnit
  sent : List Transit
  c0Due : Nat
  credits : List (Nat × Nat)
  partIn : List PartIn
  held : List (Transit × Nat)
  heldBase : Nat
  confirmBy : Option Nat
  unitsHeld : Nat
  pulses : Bool
  wentDown : Bool
  lanesFailed : List Nat
  arb : Arb
deriving DecidableEq, Repr

/-- Swarm (R372 to R374): the beat at which LINKS began; the root, parent port's far UID and depth as elected; the census
(each UID with the address it holds) and the links; the assignment; and the ordered VCs whose injection still carries the
old epoch, with the instructions (context, core, number) whose VC5 answers must come first. -/
structure Swarm where
  began : Nat
  root : Nat
  parent : Nat
  depth : Nat
  census : List (Nat × Option Nat)
  links : List SwarmLink
  nodes : List SwarmNode
  oldVcs : List Nat
  oldOpen : List (Nat × Nat × Nat)
deriving DecidableEq, Repr

/-! ### The Hum and the clocks (chapter 14) -/

/-- The Hum unit's own state: the beats for which each enabled source 1 to 3 has shown no fault, the sources that are healthy,
the number for the next PPS edge, what is left to slew in ps, the beat at which the last Hum cell came, the master followed,
whether a source has ever locked, how far the time of each source that has given one lies ahead of the device's, in ps, and the sources
whose fault lasts. -/
structure Hum where
  clean : List (Nat × Nat)
  healthy : List Nat
  nextPps : Option Nat
  slew : Int
  lastCell : Nat
  master : Option Nat
  everLocked : Bool
  ahead : List (Nat × Int)
  faulty : List Nat
deriving DecidableEq, Repr

/-! ### Power and telemetry (chapter 18) -/

/-- Droop of a die (R482): whether it is paused, the beat of its last pause, the start of the episode, pauses in it, and the
lowest reading. -/
structure Droop where
  paused : Bool
  last : Nat
  start : Option Nat
  pauses : Nat
  lowest : Nat
deriving DecidableEq, Repr

/-- The throttle and telemetry (R477 to R491): droop by die; the start of the throttle episode and the last beat with a DUTY
below 64; the beats of the last 10,000 above 2,700 A; whether the next beat runs at DUTY 4, with the DUTY each die returns
to; the sensors ignored, the beat since which a sensor disagrees with its die and the sense line with the monitor, and whether that is
logged; whether a monitor shows overvoltage, whether a fault holds every die at FLOOR, and whether the ignored sensors are
tested again; the beat of the last sample, and the hottest reading of it with its sensor (R479, R490). -/
structure Pwr where
  droops : List (Nat × Droop)
  episode : Option Nat
  lastBelow : Nat
  overs : List Nat
  brake : Bool
  duty : List Nat
  ignored : List Nat
  apart : List (Nat × Nat)
  sense : Option Nat
  senseLogged : Bool
  overVolt : Bool
  floorAll : Bool
  retest : Bool
  sampled : Option Nat
  hot : Nat × Nat
deriving DecidableEq, Repr

/-! ### Serving (chapter 15) -/

/-- A registered model (R403): partition, layers, bytes, backing address, pinned, state (0 COLD, 1 LOADING, 2 HOT), hot copy
and LAST_USE. -/
structure SModel where
  part : Nat
  layers : Nat
  bytes : Nat
  backing : Nat
  pinned : Bool
  st : Nat
  hot : Nat
  lastUse : Nat
deriving DecidableEq, Repr

/-- A KV page of a sequence (R160 to R162): its entry index in the page map, whether it lies in the second tier, and its
address. -/
structure KvPage where
  idx : Nat
  l2 : Bool
  addr : Nat
deriving DecidableEq, Repr

/-- A stream entry (R405, R406): the fields of its words, tokens emitted, the session that made the join and the beat of the join,
whether a row of it is in flight, whether it was cancelled, whether its deadline miss is logged, the positions whose KV is to be
written again before anything else (R408), and its pages. -/
structure Stream where
  st : Nat
  part : Nat
  model : Nat
  cls : Nat
  priority : Nat
  fellBack : Bool
  length : Nat
  prompt : Nat
  decLeft : Nat
  request : Nat
  seed : Nat
  tokbuf : Nat
  pmap : Nat
  deadline : Nat
  predict : Nat
  emitted : Nat
  sess : Nat
  flying : Bool
  cancelled : Bool
  missed : Bool
  joined : Nat
  redo : Nat
  pages : List KvPage
deriving DecidableEq, Repr

/-- A row of a window's batch list with its cell (R409). -/
structure WinRow where
  row : BatchRow
  cell : Nat
deriving DecidableEq, Repr

/-- A step window at this device (R407 to R411): number, whether this device opened it as its head, rows, the beat it opened, and whether
its tasks have all ended. -/
structure Win where
  num : Nat
  own : Bool
  rows : List WinRow
  opened : Nat
  done : Bool
deriving DecidableEq, Repr

/-- The serving state of a partition: the next window's number, windows in flight oldest first, the openings and round trips
of R413 (newest first), the latest report of each stage, the pages granted since, each with the number of the window at whose boundary it
was and whether in the second tier, and the windows received that wait for cells or models. -/
structure Serv where
  next : Nat
  wins : List Win
  opens : List Nat
  trips : List Nat
  reports : List PageReport
  granted : List (Nat × Bool)
  waiting : List (Nat × List BatchRow)
deriving DecidableEq, Repr

/-! ### The host port, its sessions and device trust (chapter 17) -/

/-- What a message says (R448, R450, R456, R458): a reply (OP, TAG, STATUS, words, bytes), an EVENT message, a TOKENS message (REQUEST,
position, END, token), HELLO (with the TAG of a DISCOVER that it answers), or nothing but an acknowledgement. -/
inductive TxBody where
  | reply (op tag status : Nat) (words : List Word) (bytes : List Byte)
  | events (evs : List HostEv)
  | tokens (rows : List (Nat × Nat × Bool × Nat))
  | hello (tag : Option Nat) (words : List Word) (cert : List Byte)
  | ack
deriving DecidableEq, Repr

/-- The header of a message as it leaves (R445), VER, the zero field and the CRC apart, which follow from it and the payload. -/
structure YlpHead where
  flags : Nat
  op : Nat
  session : Nat
  status : Nat
  seq : Nat
  ack : Nat
  tag : Nat
  credit : Nat
  len : Nat
deriving DecidableEq, Repr

/-- An unacknowledged message: its SEQ, whether the host's CREDIT has let it go out, the beat it was sent, retransmissions, the
interval in force, and the message. -/
structure TxMsg where
  seq : Nat
  sent : Bool
  at_ : Nat
  tries : Nat
  interval : Nat
  body : TxBody
deriving DecidableEq, Repr

/-- A session (R447, R448): the host's address and port, its event subscription, the last SEQ received in order, the last
SEQ used, the host's ACK and CREDIT, unacknowledged messages oldest first, and the beat of its last message. -/
structure Sess where
  addr : Nat
  port : Nat
  events : Bool
  rx : Nat
  tx : Nat
  ack : Nat
  credit : Nat
  unacked : List TxMsg
  heard : Nat
deriving DecidableEq, Repr

/-- An object being uploaded (R450, R56): its parts (offset, data) in the order in which they came. -/
structure Upload where
  kind : Nat
  index : Nat
  parts : List (Nat × List Byte)
deriving DecidableEq, Repr

/-- The host port (R442, R444): the mode in training (0 800GBASE-DR8, 1 and 2 400GBASE-DR4), the beat it came up, the beat
it was lost, lanes failed, the state of MACsec (keys by AN and direction, packet numbers), the IPv6 addresses for which duplicate
address detection has been made since the link came up, those found to be another's (R441), and the beat of the last HELLO that
announced the device (R459). -/
structure Eth where
  mode : Nat
  upAt : Nat
  lostAt : Nat
  failed : Nat
  keys : List (Nat × Bool × BitVec 256)
  txPn : List (Nat × Nat)
  rxPn : List (Nat × Nat)
  probed : List Nat
  dups : List Nat
  helloAt : Option Nat
deriving DecidableEq, Repr

/-- Propolis (R459 to R468): fuses blown (security version, ECDSA and LMS slots revoked), the session and tag whose BOOT_GO
is under verification (none within: I3C), the image locked in hub SRAM, the boot nonce, M and the alias key of the boot (R467), and
whether a challenge is open. -/
structure Propolis where
  svn : Nat
  ecdsaRev : Nat
  lmsRev : Nat
  verifying : Option (Option (Nat × Nat))
  image : List Byte
  bootNonce : BitVec 384
  measure : BitVec 384
  aliasKey : BitVec 384
  challenge : Bool
deriving DecidableEq, Repr

/-- The Keeper (R420, R421): the beat of the first watchdog expiry, whether it restarts now (with the PC, the activity and the
beat of the expiry) and whether it is held in reset. -/
structure Keeper where
  expired : Option Nat
  restart : Option (Nat × Nat × Nat)
  held : Bool
deriving DecidableEq, Repr

/-- The pins and the board's side (R465, R474, R487, R489, R490): RESET_N, PWR_OK, THERMTRIP_N asserted, ALERT_N's condition,
the conditions that assert ALERT_N apart from R436, and the I3C dynamic address. -/
structure Pins where
  resetN : Bool
  pwrOk : Bool
  tripped : Bool
  alert : Bool
  clkAlert : Bool
  senseAlert : Bool
  i3c : Option Nat
deriving DecidableEq, Repr

/-- What a drone has loaded (R429): the rank, its list index, STEP of K*, the rank's former address and its own. -/
structure DroneTake where
  rank : Nat
  index : Nat
  step : Nat
  oldAddr : Nat
  newAddr : Nat
deriving DecidableEq, Repr

/-- The loss of ranks and its takeover (R427 to R432): the ranks known lost, whether the devices agree now, the lost set
agreed so far, K*, the drone chosen for each lost rank, the drones that failed, the ranks whose drone has loaded with its address,
what this device has loaded as a drone and the contexts it loaded, and the partitions restored. -/
structure Takeover where
  known : List Nat
  agreeing : Bool
  agreed : List Nat
  kstar : Option Nat
  chosen : List (Nat × Nat)
  failed : List Nat
  loaded : List (Nat × Nat)
  mine : Option DroneTake
  ctxs : List Nat
  restored : List Nat
deriving DecidableEq, Repr

/-- A training partition that resumes from a checkpoint (R431, R517): the contexts to launch with their arguments once the
parameter gather is over, whether it is a rollback, the CTX_LAUNCH to answer, and whether the gather waits for READY
(R518). -/
structure Resume where
  launches : List (Nat × List Word)
  rollback : Bool
  reply : Option (Nat × Nat)
  waits : Bool
deriving DecidableEq, Repr

/-- What CTX_SAVE wrote (R453): the image's bytes, which the spec leaves to the device, and what they stand for: the digests of the
firmware and of the manifest, whether the context was stopped from LOADED, its tasks of each core, the messages it has sent, and its
flags, barriers and rings. -/
structure Saved where
  bytes : List Byte
  firmware : List Byte
  manifest : BitVec 384
  fromLoaded : Bool
  cores : List (Nat × CoreCtx)
  sent : Nat
  flags : List (Nat × FlagSt)
  bars : List (Nat × BarSt)
  rings : List (Nat × Ring)
deriving DecidableEq, Repr

/-- A 256-byte line that a cache way of the comb store holds (R142, R144): its device address ÷ 256, the partition and the way, and
whether it was written since it was fetched. Its bytes are those of device memory, the one copy that R144 keeps. -/
structure CombLine where
  line : Nat
  part : Nat
  way : Nat
  dirty : Bool
deriving DecidableEq, Repr

/-- The last corrected unit (R157): tier, device address, detail 2, and row and bank. -/
structure CorrUnit where
  tier : Nat
  addr : Nat
  loc : Nat
  rowBank : Nat
deriving DecidableEq, Repr

/-! ### What leaves the device -/

/-- What the device sends or signals (log entry 5). -/
inductive Output where
  /-- A Yalerern message with the header of each of its parts, sent or sent again (R445, R446, R448). -/
  | message (heads : List YlpHead) (body : TxBody)
  /-- A ring message sent to the device of a job rank (R274). -/
  | ringMsg (rank ring : Nat) (m : RingMsg)
  /-- The answer to a ring message: ring, sender's rank, context and SEQ, reason and the ring's EPOCH (R274, R275). -/
  | ringAnswer (ring srcRank srcCtx seq reason epoch : Nat)
  /-- A remote set on its way to the peer context of a rank, and the answer to one (R262). -/
  | remoteSet (ctx rank name : Nat)
  | setAnswer (rank name status : Nat)
  /-- A bulk chunk of a group (R300). -/
  | bulkChunk (gid : Nat) (sig : Sig) (src : Nat) (first : Bool) (lateRank lateBeat earlyBeat : Nat) (c : OutChunk)
  /-- A request to send a chunk again (R302). -/
  | chunkRetry (gid src stage elem : Nat)
  /-- An abort notice over a group's tree (R306, R307). -/
  | abortNotice (gid gen seq : Nat) (waggle : Bool) (reason : AbortReason)
  /-- Waggle traffic: a contribution or an entry up the tree, a result or a release down a port (R316, R319). -/
  | wagUp (tree port : Nat) (sig : Sig) (vals : List Int) (bad : List Bool)
  | wagDown (tree port : Nat) (sig : Sig) (vals : List Int) (bad : List Bool)
  | barUp (tree port gen : Nat)
  | barDown (tree port gen : Nat)
  /-- A stage item for the device at a pipeline position of the replica, or a copy for that device's backup (R200, R204,
  R252), the credit of a freed inbound slot, and the report that an item is capped (R199). -/
  | stageItem (part pos : Nat) (forward copy : Bool) (item : StageItem)
  | stageCredit (part vstage : Nat) (forward : Bool)
  | stageCapped (part vstage : Nat) (forward : Bool) (step index : Nat)
  /-- What the device contributes to the step-end OR (R216) and to the commit vote (R247, R423). -/
  | stepOr (part step : Nat) (nf : Bool)
  | commitVote (part : Nat) (halt rpt nfx due busy : Bool)
  /-- A gradient chunk, or its copy for a backup (R233, R252). -/
  | gradChunk (gid : Nat) (sig : Sig) (src dest : Nat) (first : Bool) (lateRank lateBeat earlyBeat : Nat) (copy : Bool)
      (wire : GradWire)
  /-- A checkpoint slot copied to the buddy rank, and the acknowledgement of a ward copy (R425). -/
  | ckptCopy (part gen buddy : Nat) (slot : List Byte)
  | ckptAck (part gen rank : Nat)
  /-- The answer to an ARP, NDP or echo request (R443). -/
  | answered (echo : Bool)
  /-- The SecTAG of a protected frame that leaves: AN, packet number, SCI (R444). -/
  | secTag (an pn sci : Nat)
  /-- A neighbour solicitation for an IPv6 address of the device's own, in duplicate address detection (R441). -/
  | addressProbe (addr : Nat)
  /-- On a fabric port: the trailer of an acknowledgement or NAK, a packet sent with the trailers of its units, units sent again, a
  credit return (for VC0, C0 in the trailers of so many idle units), safety pulses, an identity unit (R356, R359, R361, R362, R364, R372). -/
  | trailer (port lack : Nat) (nak : Bool)
  | packet (port : Nat) (esc psn : Bool) (p : Packet) (trailers : List (BitVec 64))
  | resent (port lack units : Nat)
  | credit (port vc cls flits : Nat)
  | pulses (port : Nat)
  | identity (port uid : Nat)
  /-- A packet delivered at this device (R361). -/
  | delivered (p : Packet)
  /-- The confirmation exchange of R379, and Swarm's candidate with its distance, census on its way up the tree, and address map and link
  list on their way down (R372). -/
  | confirmAsk (port : Nat)
  | confirmTell (port lseq : Nat)
  | swarmCandidate (root distance : Nat)
  | swarmCensus (nodes : List (Nat × Option Nat)) (links : List SwarmLink)
  | swarmMap (nodes : List SwarmNode) (links : List SwarmLink)
  /-- Time passed on (R388): a Hum cell out of a tree port, a stamped measuring cell, and the HUM_OUT pin with its rising edges in this
  beat (R393). -/
  | humCell (port beat hops master : Nat)
  | humStamp (port : Nat)
  | humOut (beat edges : Nat)
  /-- A loss notice and a contribution to the agreement of R428. -/
  | lossNotice (ranks : List Nat) (takeover : Bool)
  | agreement (step : TakeoverStep) (value : Nat)
  /-- A serving window for the next stage, and a window's return with the stage's free pages and, from the last
  stage, its output records (R401, R402). -/
  | window (part num : Nat) (rows : List BatchRow)
  | windowDone (part num : Nat) (pages : PageReport) (records : List OutRecord)
  /-- A voltage written over AVSBus, the ALERT_N and THERMTRIP_N pins, an I3C in-band interrupt, an I3C answer, and a value
  shifted out of the TAP (R477, R436, R487, R490, R466). -/
  | avsWrite (mv : Nat)
  | alertN (asserted : Bool)
  | thermtripN (asserted : Bool)
  | inBandInterrupt
  | i3cId (id : Nat)
  | jtag (bytes : List Byte)
deriving DecidableEq, Repr

/-! ### The whole -/

/-- The state of the device. -/
structure State where
  /-- The waiting commands, first in first out (the model's own). -/
  pending : List Instr
  /-- Numbers the free values drawn (the model's own; log entry 2). -/
  free : Nat
  /-- What the device has sent or signalled, oldest first (log entry 5). -/
  out : List Output
  /-- The control window's registers by offset in the window (R494); an unlisted register reads its reset value. -/
  regs : List (Nat × Word)
  /-- Device memory, one byte a cell (R136); an unlisted byte reads 0 (log entry 3). -/
  mem : List Host.Cell
  /-- The poisoned 64-byte units by address ÷ 64 (R155); default not poisoned. -/
  poison : List (Nat × Bool)
  /-- The lines that the comb stores hold, the most recently used first (R142 to R146). -/
  comb : List CombLine
  /-- The last corrected unit (R157). -/
  lastCorr : CorrUnit
  /-- Contexts by slot (R25); default a FREE slot. -/
  ctxs : List (Nat × Ctx)
  /-- Slices by partition (R27). -/
  slices : List (Nat × Slice)
  /-- Physical cores of each partition by logical number (R124). -/
  partCores : List (Nat × List Nat)
  /-- Chunk buffers of R244 by physical core: the chunks held, each a partition, a chunk number and its FP32 values. -/
  chunkBufs : List (Nat × List (Nat × Nat × List (BitVec 32)))
  /-- Training state by partition. -/
  train : List (Nat × Train)
  /-- Records generated and on their way to the log, oldest first (R435). -/
  recs : List ErrRec
  /-- Records generated since reset, modulo 2^16 (R433 SEQ). -/
  recSeq : Nat
  /-- The error log's slots (R505); default: never written. -/
  log : List (Nat × Option ErrRec)
  /-- Records logged of a code in a block of 1,000 beats (R437), by code + 65,536 × block; default 0. -/
  logRate : List (Nat × Nat)
  /-- "Logged, and not written below its threshold since" of R84 and R157, by the count register's offset. -/
  thrLogged : List (Nat × Bool)
  /-- Corrected errors of each HBM row since reset (R158), by device address ÷ row key. -/
  rowErrs : List (Nat × Nat)
  /-- Physical flags (R258, R260); default 0. -/
  flags : List (Nat × FlagSt)
  /-- Barriers (R269). -/
  bars : List (Nat × BarSt)
  /-- Numbers the waits begun, in their order (R264). -/
  waitSeq : Nat
  /-- Rings by number (R271). -/
  rings : List (Nat × Ring)
  /-- Collective groups by slot (R293). -/
  grps : List (Nat × Grp)
  /-- Waggle trees by entry (R315). -/
  trees : List (Nat × WTree)
  /-- Brood cells (R225). -/
  cells : List (Nat × Cell)
  /-- RING_SEND messages presented to rings since reset, modulo 2^32 (R273 SEQ). -/
  ringSends : Nat
  /-- The host event queue (R458). -/
  hostQ : List QEntry
  /-- CDC_FIFO_CNT of each FIFO (R506). -/
  cdcCnt : List (Nat × Word)
  /-- The configuration set applied last, as uploaded (R54, R424). -/
  cfgSet : List Byte
  /-- The route tables (R368), by epoch parity × 16,384 + address; default VALID 0. -/
  routes : List (Nat × Option Route)
  /-- The job rank table (R367): rank to address; default VALID 0. -/
  ranks : List (Nat × Option Nat)
  /-- Addresses that the job rank table held and holds no longer (R430). -/
  pastAddrs : List Nat
  /-- Fabric ports (R353). -/
  ports : List (Nat × Port)
  /-- Packets that wait for credits, in the order in which they came (R369), and the number of the next packet. -/
  fabWait : List Transit
  nextPkt : Nat
  /-- How many of `out` have been handed to the ports (the model's own; log entry 63). -/
  handed : Nat
  swarm : Swarm
  hum : Hum
  pwr : Pwr
  /-- Serving: models by id, stream entries, state by partition, and the class registers by partition × 8 + class (R413). -/
  models : List (Nat × Option SModel)
  streams : List (Nat × Option Stream)
  serv : List (Nat × Serv)
  classes : List (Nat × Word)
  /-- The host port, its sessions, and the objects uploaded (R56). -/
  eth : Eth
  sessions : List (Nat × Option Sess)
  uploads : List Upload
  /-- CTX_LOAD requests that wait for READY (R514): session, tag, slot, address, length, manifest. -/
  waitLoads : List (Nat × Nat × Nat × Nat × Nat × Manifest)
  prp : Propolis
  keeper : Keeper
  pins : Pins
  takeover : Option Takeover
  /-- Training partitions that resume (R431, R517). -/
  resume : List (Nat × Option Resume)
  /-- The context images that this device has written (R453; log entry 10). -/
  saved : List Saved
deriving DecidableEq, Repr

/-- The null descriptor (R33). -/
def Desc.null : Desc := ⟨0x3F80000000000000, 0, 0x0000040000200001, 0⟩

/-- A FREE context slot. -/
def Ctx.free : Ctx :=
  { st := .free, fromLoaded := false, part := 0, handles := [], flagMap := [], man := none, cores := [],
    scratch := [], deques := [], sent := 0, loads := 0, launchArgs := [], launched := false, image := [] }

/-- A core that holds nothing for a context. -/
def CoreCtx.none : CoreCtx :=
  let e : WSet := ⟨.empty, Option.none, []⟩
  ⟨[], [], Option.none, [⟨e, e⟩, ⟨e, e⟩, ⟨e, e⟩, ⟨e, e⟩]⟩

/-- A partition whose slice nobody holds. -/
def Slice.none : Slice := ⟨Option.none, 0, 63⟩

/-- A flag as its context loads (R260). -/
def FlagSt.off : FlagSt := ⟨false, 0⟩

/-- A barrier that no map names. -/
def BarSt.none : BarSt := ⟨0, 0, 0, [], false⟩

/-- A ring that no context holds; its EPOCH is 0 only after device reset (R271). -/
def Ring.none : Ring :=
  { valid := false, st := 0, prior := 0, combining := false, combInt := false, log2 := 0, ctx := 0, part := 0,
    handlers := 0, tags := 0, epoch := 0, handle := 0, wptr := 0, rptr := 0, lost := 0, expect := 0, gFirst := 0,
    gLast := 0, hHandle := 0, hOffset := 0, msgs := [], nextMsg := 0, opened := [], closed := [], dispatched := 0,
    active := [], resetBy := Option.none, ops := [] }

/-- A group slot that holds no group. -/
def Grp.none : Grp :=
  { valid := false, part := 0, ctx := 0, gid := 0, rank := 0, members := [], st := 0, device := false, gen := 0, seq := 0,
    wseq := 0, abortSeq := 0, abortReason := 0, abortWaggle := false, abortValid := false, bulk := Option.none,
    wag := Option.none, waiting := [], staged := [], notices := [], aborting := Option.none, poison := 0, devWags := [],
    devBulk := false, naming := Option.none, tree := Option.none }

/-- A tree entry that holds no tree. -/
def WTree.none : WTree :=
  { valid := false, root := false, up := 0, down := 0, depth := 0, relay := false, local_ := 0, gid := 0, contribs := [],
    entries := [], released := 0 }

/-- A FREE cell. -/
def Cell.free : Cell :=
  { st := .free, part := 0, ctx := 0, vstage := 0, slot := 0, index := 0, step := 0, attempt := 0, tasks := 0,
    inSlot := 0, outSlot := 0, beat := 0, admitted := false, orphanLogged := false }

/-- A virtual stage with nothing in its queues. -/
def VSt.none : VSt := ⟨[], [], [], [], [], [], 0, 0, 0, 0, 0, 0, 0, [], []⟩

/-- No checkpoint begun. -/
def Ckpt.none : Ckpt := ⟨0, 0, 0, 0, false, 0, 0, Option.none, false, false, false⟩

/-- A training partition with nothing in progress. -/
def Train.idle : Train :=
  { vs := [VSt.none, VSt.none, VSt.none, VSt.none], nf := false, halt := false, orWait := false, fwdHold := false,
    winSteps := 0, cursor := 0, inputs := [], items := [], episode := Option.none, xch := Option.none, gstaged := [], gather := false,
    wagSince := Option.none, fenced := false, startDue := Option.none, ckpt := Ckpt.none }

/-- A port that holds nothing; the first unit of a link is LSEQ 0 (log entry 15). -/
def Port.none : Port :=
  { lastIn := 4095, dropping := false, nextOut := 0, retry := [], sent := [], c0Due := 0, credits := [], partIn := [],
    held := [], heldBase := 0, confirmBy := Option.none, unitsHeld := 0, pulses := false, wentDown := false,
    lanesFailed := [], arb := ⟨0, [], 0, [], [], []⟩ }

/-- Swarm that has never run. -/
def Swarm.none : Swarm := ⟨0, 0, 0, 0, [], [], [], [], []⟩

/-- The Hum unit right after reset: no source enabled (R387). -/
def Hum.none : Hum := ⟨[], [], Option.none, 0, 0, Option.none, false, [], []⟩

/-- The throttle right after reset. -/
def Pwr.none : Pwr := ⟨[], Option.none, 0, [], false, [], [], [], Option.none, false, false, false, false, Option.none, (0, 0)⟩

/-- A serving partition with no window opened. -/
def Serv.none : Serv := ⟨0, [], [], [], [], [], []⟩

/-- The host port right after reset. -/
def Eth.none : Eth := ⟨0, 0, 0, 0, [], [], [], [], [], Option.none⟩

/-- Propolis of a part with no security fuse blown (log entry 1). -/
def Propolis.none : Propolis := ⟨0, 0, 0, Option.none, [], 0, 0, 0, false⟩

/-- The registers that are set from fuses, from design or from the reset itself (R496, R500, R503, R508; log entry 1): an
A.1 production part of 64 + 8 cores, 80 GiB a stack and 750 mV, with FAB_UID 1 and MAC address 2, after a power-on. -/
def resetRegs : List (Nat × Word) :=
  ([(0x8, 0x101), (0x10, 0x2A1102EE), (0x1008, 1)] : List (Nat × Word))
  ++ ([(Reg.CLK_DOM 1, 1 <<< 42), (Reg.CLK_DOM 2, 2 <<< 42), (Reg.CLK_DOM 3, 3 <<< 42), (Reg.CLK_DOM 5, 1 <<< 42),
    (Reg.CLK_DOM 6, 2 <<< 42), (Reg.CLK_DOM 7, 3 <<< 42), (Reg.CLK_DOM 10, 1 <<< 42), (Reg.CLK_DOM 11, 1 <<< 42),
    (Reg.CLK_DOM 12, 2 <<< 42), (Reg.CLK_DOM 13, 2 <<< 42), (Reg.CLK_DOM 14, 3 <<< 42), (Reg.CLK_DOM 15, 3 <<< 42)] : List (Nat × Word))
  ++ (List.range 8).map (fun i => (Reg.CLK_DOM (16 + i), (4 : Word) <<< 42))
  ++ ([(Reg.CLK_DOM 24, 6 <<< 42), (Reg.PWR_AVS, 750 + 750 * 2 ^ 18), (Reg.ETH_MAC, 2), (Reg.FAB_UID, 1)] : List (Nat × Word))
  ++ (List.range 71).map (fun i => (0x20000 + 0x1000 * (i + 1), BitVec.ofNat 64 ((i + 1) / 18 * 4 + (i + 1) % 18 * 16)))

/-- The device right after reset (R496): every register at its reset value, everything else empty; RESET_N is low until
RESET_RELEASE. -/
def State.reset : State :=
  { pending := [], free := 0, out := [], regs := resetRegs, mem := [], poison := [], comb := [],
    lastCorr := ⟨0, 0, 0, 0⟩, ctxs := [], slices := [], partCores := [],
    chunkBufs := [], train := [], recs := [], recSeq := 0, log := [], logRate := [], thrLogged := [], rowErrs := [],
    flags := [], bars := [], waitSeq := 0, rings := [], grps := [], trees := [], cells := [], ringSends := 0, hostQ := [], cdcCnt := [],
    cfgSet := [], routes := [], ranks := [], pastAddrs := [], ports := [], fabWait := [], nextPkt := 0, handed := 0, swarm := Swarm.none, hum := Hum.none,
    pwr := Pwr.none, models := [], streams := [], serv := [], classes := [], eth := Eth.none, sessions := [], uploads := [],
    waitLoads := [], prp := Propolis.none, keeper := ⟨none, none, false⟩,
    pins := ⟨false, true, false, false, false, false, none⟩, takeover := none, resume := [], saved := [] }


/-! ### Faults, refusals -/

/-- Reasons a step could stop with a fault. No meaning of this model stops: the spec gives every command an effect. The
one constructor stands for an access the model could not carry out; nothing raises it (safe). -/
inductive Fault where
  /-- Raised by no meaning (safe). -/
  | noAccess
deriving DecidableEq, Repr

/-- Reasons a step can be refused. -/
inductive Refusal where
  /-- The command has no meaning in the model: raised only by an arm of exec that is not modelled yet (safe). -/
  | notModelled (mnemonic : String)
deriving DecidableEq, Repr

end Sys2Proof.Machine
end

