-- ==== Sys2Proof/Machine/Ops.lean ====
section
/-! DEFINITION. The named operations over the state that every family shares: free values, registers, memory and poison,
the address map, handles and contexts, error records, refusals and faults. -/

namespace Sys2Proof

/-! ### The fields of a signature (R303) -/

def Sig.gid (v : Sig) : Nat := Machine.bitsOf 15 0 v.w0
def Sig.gen (v : Sig) : Nat := Machine.bitsOf 31 16 v.w0
def Sig.seq (v : Sig) : Nat := Machine.bitsOf 63 32 v.w0
def Sig.op (v : Sig) : Nat := Machine.bitsOf 2 0 v.w1
def Sig.red (v : Sig) : Nat := Machine.bitsOf 5 3 v.w1
def Sig.type (v : Sig) : Nat := Machine.bitsOf 10 6 v.w1
def Sig.root (v : Sig) : Nat := Machine.bitsOf 22 11 v.w1
def Sig.count (v : Sig) : Nat := Machine.bitsOf 62 23 v.w1

end Sys2Proof

namespace Sys2Proof.Machine

/-! ### Registers of the control window (R494, R495) -/

/-- The register table's row that holds an offset in the control window, with the field list. -/
def regDefIn (a : Nat) : List RegDef → Option RegDef
  | [] => none
  | d :: ds =>
    let page := a / 0x1000
    let off := a % 0x1000
    if d.page ≤ page ∧ page < d.page + d.pages ∧ d.off ≤ off ∧ (off - d.off) % d.stride = 0 ∧ (off - d.off) / d.stride < d.count
    then some d else regDefIn a ds

/-- The tables of one page (R499). -/
def pageTable (page : Nat) : List RegDef :=
  match page with
  | 0x00 => RegTable.Id | 0x01 => RegTable.Kpr | 0x02 => RegTable.Prp | 0x03 => RegTable.Hum | 0x04 => RegTable.Clk
  | 0x05 => RegTable.Pwr | 0x06 => RegTable.Eth | 0x07 => RegTable.Ylp
  | 0x08 => RegTable.Port ++ RegTable.Fab
  | 0x09 => RegTable.Port | 0x0A => RegTable.Port | 0x0B => RegTable.Port
  | 0x0C => RegTable.Wgl | 0x0D => RegTable.Col | 0x0E => RegTable.Grd | 0x0F => RegTable.Opt | 0x10 => RegTable.Brd
  | 0x11 => RegTable.Syn | 0x12 => RegTable.Msg | 0x13 => RegTable.Srv | 0x14 => RegTable.Plc | 0x15 => RegTable.Mem
  | 0x16 => RegTable.Cmb | 0x17 => RegTable.Err | 0x18 => RegTable.Cdc | 0x19 => RegTable.Ckp
  | _ => if 0x20 ≤ page ∧ page ≤ 0x67 then RegTable.Core else []

/-- The register at an offset of the control window; none at a reserved offset (R497). -/
def regDefAt (a : Nat) : Option RegDef := regDefIn a (pageTable (a / 0x1000))

/-- The word a register holds after reset. -/
def resetWord (a : Nat) : Word :=
  match regDefAt a with
  | some d => BitVec.ofNat 64 (d.fields.foldl (fun w f => w ||| (f.reset <<< f.lo)) 0)
  | none => 0

/-- The value of the register at `a`. -/
def rd (s : State) (a : Nat) : Word :=
  match s.regs.lookup a with
  | some w => w
  | none => resetWord a

/-- The field `f` of the register at `a`. -/
def fld (s : State) (a : Nat) (f : Fld) : Nat := getF f (rd s a)

/-- One bit of a register as a truth value. -/
def flg (s : State) (a : Nat) (f : Fld) : Bool := decide (fld s a f = 1)

/-- The register file with the register at `a` holding `w`. -/
def regsSet (m : List (Nat × Word)) (a : Nat) (w : Word) : List (Nat × Word) :=
  if w = resetWord a then Sparse.erase a m else Sparse.insert a w (Sparse.erase a m)

/-- The register at `a` takes `w`, whatever its access type. -/
def wr (s : State) (a : Nat) (w : Word) : State := { s with regs := regsSet s.regs a w }

/-- The field `f` of the register at `a` takes `v`. -/
def setFld (s : State) (a : Nat) (f : Fld) (v : Nat) : State := wr s a (putF f v (rd s a))

/-- A counter that stops at its largest value is raised by `n`. -/
def bump (s : State) (a : Nat) (f : Fld) (n : Nat) : State := setFld s a f (satAdd f.w (fld s a f) n)

/-- A field counts modulo its width. -/
def bumpMod (s : State) (a : Nat) (f : Fld) (n : Nat) : State := setFld s a f (fld s a f + n)

/-- HUM_BEAT (R384). -/
def beat (s : State) : Nat := (rd s Reg.HUM_BEAT).toNat

/-! ### Free values -/

/-- `n` bytes the spec leaves undefined. -/
def freeBytesFrom (k : Nat) : Nat → List Byte
  | 0 => []
  | n + 1 => Config.freeByte k :: freeBytesFrom (k + 1) n

/-- `n` undefined bytes, and the state that has drawn them. -/
def drawBytes (s : State) (n : Nat) : List Byte × State := (freeBytesFrom s.free n, { s with free := s.free + n })

/-! ### Memory (R136, R155) -/

/-- The byte at a device address. -/
def readByte (s : State) (a : Nat) : Byte := Sparse.get (0 : Byte) s.mem a

/-- The `n` bytes from a device address on. -/
def readBytes (s : State) (a n : Nat) : List Byte := (List.range n).map (fun i => readByte s (a + i))

/-- Bytes written one after another. -/
def writeList (m : List Host.Cell) (a : Nat) : List Byte → List Host.Cell
  | [] => m
  | b :: bs => writeList (Sparse.set (0 : Byte) m a b) (a + 1) bs

/-- The 64-byte units that an extent touches. -/
def unitsOf (a n : Nat) : List Nat := if n = 0 then [] else (List.range ((a + n - 1) / 64 + 1 - a / 64)).map (fun i => a / 64 + i)

/-- Whether the unit `u` lies whole in an extent. -/
def unitInside (a n u : Nat) : Bool := decide (a ≤ u * 64) && decide (u * 64 + 64 ≤ a + n)

/-- A write: the bytes change, and units covered whole lose their poison (R155). -/
def writeBytes (s : State) (a : Nat) (bs : List Byte) : State :=
  { s with
    mem := writeList s.mem a bs
    poison := (unitsOf a bs.length).foldl
      (fun p u => if unitInside a bs.length u then Sparse.set false p u false else p) s.poison }

/-- Whether an extent holds poisoned data. -/
def poisoned (s : State) (a n : Nat) : Bool :=
  if s.poison.isEmpty then false else s.poison.any (fun e => e.2 && decide (e.1 * 64 < a + n) && decide (a < e.1 * 64 + 64))

/-- The unit holding `a` becomes poisoned. -/
def poisonUnit (s : State) (a : Nat) : State := { s with poison := Sparse.set false s.poison (a / 64) true }

/-- The poison of `n` bytes from `a` on travels with them to `b` (R155): `old` is the state that they were read in. -/
def carryPoison (old s : State) (a b n : Nat) : State :=
  (old.poison.filter (fun e => e.2 && decide (e.1 * 64 < a + n) && decide (a < e.1 * 64 + 64))).foldl (fun s e =>
    poisonUnit (poisonUnit s (max (e.1 * 64) a - a + b)) (min (e.1 * 64 + 63) (a + n - 1) - a + b)) s

/-! ### The address map (R136 to R141, R148) -/

def hbmEnd : Nat := 0xA000000000
def l2Base : Nat := 0x10000000000
def l2End : Nat := 0x20000000000
def sramBase : Nat := 0x30000000000
def sramEnd : Nat := 0x30010000000
def combBase : Nat := 0x30010000000
def combEnd : Nat := 0x30018000000
def windowBase : Nat := 0x3F000000000
def windowEnd : Nat := 0x3F000100000

/-- Whether a partition's HBM set covers pseudo-channel `c` of die `d` (R140). -/
def hbmOwned (s : State) (p d c : Nat) : Bool :=
  let w := Reg.MEM_HBM_SET p
  let b := fld s w (Fld.MEM_HBM_SET_BASE d)
  let n := 2 ^ fld s w (Fld.MEM_HBM_SET_LOG2 d)
  flg s w (Fld.MEM_HBM_SET_EN d) && decide (b ≤ c) && decide (c < b + n)

/-- Whether a granule is assigned, and to which partition (R148). -/
def granuleOwner (s : State) (g : Nat) : Option Nat :=
  let w := Reg.MEM_L2OWN (g / 16)
  if flg s w (Fld.MEM_L2OWN_ASSIGNED (g % 16)) then some (fld s w (Fld.MEM_L2OWN_PART (g % 16))) else none

/-- Whether a die has its second tier: no package of it failed training (R150). -/
def l2Present (s : State) (d : Nat) : Bool := decide ((fld s Reg.MEM_L2_STATUS Fld.MEM_L2_STATUS_FAILED / 2 ^ (4 * d)) % 16 = 0)

/-- Whether a way is a placed way of partition `p` (R142). -/
def wayPlaced (s : State) (p w : Nat) : Bool := (fld s (Reg.CMB_PART p) Fld.CMB_PART_PLACED_WAYS).testBit w

/-- The state of a physical core (R131): 0 ACTIVE, 1 SPARE, 2 RETIRED. -/
def coreState (s : State) (c : Nat) : Nat := fld s (Reg.PLC_CORE_MAP (c / 32)) ⟨2 * (c % 32), 2⟩

/-- The ACTIVE cores, ascending (R137: their ordinals). -/
def activeCores (s : State) : List Nat := selectBelow 72 (fun c => coreState s c = 0)

/-- The ordinal of an active core (R137). -/
def coreOrdinal (s : State) (c : Nat) : Nat := (activeCores s).idxOf c

/-- The physical core of logical core `l` of a partition (R124). -/
def physCore (s : State) (p l : Nat) : Nat := (Sparse.get [] s.partCores p).getD l 0

/-- The cores of a partition. -/
def coresOf (s : State) (p : Nat) : List Nat := Sparse.get [] s.partCores p

/-- The die of a physical core (R131). -/
def dieOf (c : Nat) : Nat := c / 18

/-- The end of the piece of storage that holds address `a`, and whether it is backed, and owned by partition `p` if one is
named (R136 to R138). -/
def pieceAt (s : State) (p : Option Nat) (a : Nat) : Nat × Bool :=
  if a < hbmEnd then
    let pc := a / 0xA0000000
    ((pc + 1) * 0xA0000000, match p with
      | none => true
      | some p => hbmOwned s p (pc / 64) (pc % 64))
  else if l2Base ≤ a ∧ a < l2End then
    let g := (a - l2Base) / 0x100000000
    (l2Base + (g + 1) * 0x100000000, l2Present s (g / 64) && match p with
      | none => true
      | some p => granuleOwner s g == some p)
  else if sramBase ≤ a ∧ a < sramEnd then
    let o := (a - sramBase) / 0x400000
    (sramBase + (o + 1) * 0x400000, match (activeCores s)[o]? with
      | none => false
      | some c => match p with
        | none => true
        | some p => (coresOf s p).contains c)
  else if combBase ≤ a ∧ a < combEnd then
    let w := (a - combBase) / 0x200000
    (combBase + (w + 1) * 0x200000, match p with
      | none => (List.range 8).any (fun q => wayPlaced s q (w % 16))
      | some p => wayPlaced s p (w % 16))
  else (a + 1, false)

/-- The first byte of an extent that is not backed (or not owned by `p`), if any; `k` bounds the pieces, of which the whole
address map has fewer than 1,024. -/
def firstBadAux (s : State) (p : Option Nat) : Nat → Nat → Nat → Option Nat
  | 0, a, e => if a < e then some a else none
  | k + 1, a, e =>
    if a < e then
      let (b, ok) := pieceAt s p a
      if ok then firstBadAux s p k b e else some a
    else none

/-- The first byte of `[a, a + n)` outside the storage that partition `p`, or anyone, may reach. -/
def firstBad (s : State) (p : Option Nat) (a n : Nat) : Option Nat := firstBadAux s p 1024 a (a + n)

/-- The tier of an address (R39 TIER). -/
def tierOf (a : Nat) : Nat :=
  if a < hbmEnd then 2 else if a < l2End then 3 else if a < sramEnd then 0 else 1

/-- The partition that owns an address of HBM or of the second tier. -/
def ownerAt (s : State) (a : Nat) : Option Nat :=
  if a < hbmEnd then (selectBelow 8 (fun p => hbmOwned s p (a / 0xA0000000 / 64) (a / 0xA0000000 % 64))).head?
  else if l2Base ≤ a ∧ a < l2End then granuleOwner s ((a - l2Base) / 0x100000000)
  else none

/-- Whether accesses to partition `p`'s memory of a kind pass through cache ways (R144 to R146). -/
def combCaches (s : State) (p : Nat) (hbm : Bool) : Bool :=
  flg s Reg.CMB_CTL Fld.CMB_CTL_ENABLE && decide (fld s (Reg.CMB_PART p) Fld.CMB_PART_CACHE_WAYS ≠ 0)
    && (!hbm || flg s (Reg.CMB_PART p) Fld.CMB_PART_CACHE_HBM)

/-- The cache ways of a partition, ascending (R142). -/
def combWays (s : State) (p : Nat) : List Nat := bitList 16 (fld s (Reg.CMB_PART p) Fld.CMB_PART_CACHE_WAYS)

/-- The die that owns an address of HBM or of the second tier (R136). -/
def memDie (a : Nat) : Nat := if a < hbmEnd then a / 0x2800000000 else (a - l2Base) / 0x4000000000

/-- Whether a held line may stay: its memory is still its partition's and still cached, in a way that is still a cache way of it. -/
def CombLine.live (s : State) (c : CombLine) : Bool :=
  ownerAt s (c.line * 256) == some c.part && combCaches s c.part (decide (c.line * 256 < hbmEnd)) && (combWays s c.part).contains c.way

/-- Whether a held line lies in the set of `line`, in the comb store of the same die (R144). -/
def CombLine.peers (c : CombLine) (line : Nat) : Bool :=
  decide (memDie (c.line * 256) = memDie (line * 256)) && decide (Config.combSet c.line % 8192 = Config.combSet line % 8192)

/-- The held line of an address. -/
def combHeld (s : State) (a : Nat) : Option CombLine := s.comb.find? (fun c => c.line == a / 256)

/-- The lines without those of a test: written back and invalidated (R146). -/
def combDrop (s : State) (f : CombLine → Bool) : State := { s with comb := s.comb.filter (fun c => !f c) }

/-- A line takes a free one of `ways`, or the place of the least recently used line that its set holds in them (R145). With no way
open, nothing is allocated. DESIGN CHOICE (log entry 11): of several free ways the lowest is taken. -/
def combPlace (s : State) (p : Nat) (ways : List Nat) (write : Bool) (line : Nat) : State :=
  let held := s.comb.filter (fun c => c.peers line && ways.contains c.way)
  match ways.find? (fun w => !held.any (fun c => c.way == w)) with
  | some w => { s with comb := ⟨line, p, w, write⟩ :: s.comb }
  | none => match held.getLast? with
    | some v => { s with comb := ⟨line, p, v.way, write⟩ :: s.comb.filter (fun c => c.line != v.line) }
    | none => s

/-- One access to a line of cacheable memory (R144, R145): a hit makes it the most recently used, a miss allocates it, in the stream
ways for a streaming read. -/
def combAccess (write strm : Bool) (s : State) (line : Nat) : State :=
  match ownerAt s (line * 256) with
  | none => s
  | some p =>
    if combCaches s p (decide (line * 256 < hbmEnd)) then
      match s.comb.find? (fun c => c.line == line) with
      | some c => bump { s with comb := { c with dirty := c.dirty || write } :: s.comb.filter (fun c => c.line != line) }
          (Reg.CMB_HIT p) Fld.CMB_HIT_HITS 1
      | none =>
        let ways := if strm then (combWays s p).take (fld s (Reg.CMB_PART p) Fld.CMB_PART_STREAM_WAYS) else combWays s p
        bump (combPlace s p ways write line) (Reg.CMB_HIT p) Fld.CMB_HIT_MISSES 1
    else s

/-- The 256-byte lines that an extent takes in. -/
def linesOf (a n : Nat) : List Nat := if n = 0 then [] else (List.range ((a + n - 1) / 256 + 1 - a / 256)).map (fun i => a / 256 + i)

/-- The further accesses of one extent count too (R164): an engine may take a line in several pieces, and the spec does not say in how
many. They are free numbers: of hits, and, where a line found no way, of misses (log entry 11). -/
def combMore (s : State) (a n p : Nat) : State :=
  let h := Config.freeNat s.free
  let m := if (linesOf a n).all (fun i => (combHeld s (i * 256)).isSome) then 0 else Config.freeNat (s.free + 1)
  bump (bump { s with free := s.free + 2 } (Reg.CMB_HIT p) Fld.CMB_HIT_HITS h) (Reg.CMB_HIT p) Fld.CMB_HIT_MISSES m

/-- An access to `n` bytes from `a` on passes through the comb store (R144 to R146, R164), line by line. -/
def combTouch (s : State) (write strm : Bool) (a n : Nat) : State :=
  if n = 0 || !flg s Reg.CMB_CTL Fld.CMB_CTL_ENABLE then s
  else
    let s := (linesOf a n).foldl (combAccess write strm) s
    match ownerAt s a with
    | some p => if combCaches s p (decide (a < hbmEnd)) then combMore s a n p else s
    | none => s

/-- Bytes written by the device itself, through the comb store. -/
def storeBytes (s : State) (a : Nat) (bs : List Byte) : State := combTouch (writeBytes s a bs) true false a bs.length

/-- The set that holds pseudo-channel `c` of die `d`: its first pseudo-channel within the die and its size (R140, R141). -/
def hbmSetOf (s : State) (d c : Nat) : Nat × Nat :=
  match (selectBelow 8 (fun p => hbmOwned s p d c)).head? with
  | some p =>
    let w := Reg.MEM_HBM_SET p
    (fld s w (Fld.MEM_HBM_SET_BASE d), 2 ^ fld s w (Fld.MEM_HBM_SET_LOG2 d))
  | none => (c, 1)

/-- The pseudo-channel of an HBM address (R140). -/
def pcOf (s : State) (a : Nat) : Nat :=
  let d := a / 0x2800000000
  let v := hbmSetOf s d (a % 0x2800000000 / 0xA0000000)
  64 * d + v.1 + (a - 0x2800000000 * d - v.1 * 0xA0000000) / 4096 % v.2

/-- Where the memory of an address lies, as detail 2 of R157 says it: the physical core, the die and way, the pseudo-channel, or the
package (R137, R140, R147). DESIGN CHOICE (log entry 30): die and way are packed as 16 × die + way, and package k of die d is 4d + k. -/
def memLoc (s : State) (a : Nat) : Nat :=
  match tierOf a with
  | 0 => (activeCores s).getD ((a - sramBase) / 0x400000) 0
  | 1 => (a - combBase) / 0x200000
  | 2 => pcOf s a
  | _ => 4 * memDie a + (a - l2Base) / 4096 % 4

/-! ### Contexts, cores, slices -/

def getCtx (s : State) (x : Nat) : Ctx := Sparse.get Ctx.free s.ctxs x
def setCtx (s : State) (x : Nat) (c : Ctx) : State := { s with ctxs := Sparse.set Ctx.free s.ctxs x c }
def getCore (s : State) (x l : Nat) : CoreCtx := Sparse.get CoreCtx.none (getCtx s x).cores l
def setCore (s : State) (x l : Nat) (k : CoreCtx) : State :=
  setCtx s x { getCtx s x with cores := Sparse.set CoreCtx.none (getCtx s x).cores l k }
def getRun (s : State) (x l : Nat) : Option Running := (getCore s x l).run
def setRun (s : State) (x l : Nat) (r : Option Running) : State := setCore s x l { getCore s x l with run := r }
def getSlice (s : State) (p : Nat) : Slice := Sparse.get Slice.none s.slices p
def setSlice (s : State) (p : Nat) (v : Slice) : State := { s with slices := Sparse.set Slice.none s.slices p v }
def getTrain (s : State) (p : Nat) : Train := Sparse.get Train.idle s.train p
def setTrain (s : State) (p : Nat) (v : Train) : State := { s with train := Sparse.set Train.idle s.train p v }

def getFlag (s : State) (f : Nat) : FlagSt := Sparse.get FlagSt.off s.flags f
def setFlag (s : State) (f : Nat) (v : FlagSt) : State := { s with flags := Sparse.set FlagSt.off s.flags f v }
def getBar (s : State) (b : Nat) : BarSt := Sparse.get BarSt.none s.bars b
def setBar (s : State) (b : Nat) (v : BarSt) : State := { s with bars := Sparse.set BarSt.none s.bars b v }
def getRing (s : State) (r : Nat) : Ring := Sparse.get Ring.none s.rings r
def setRing (s : State) (r : Nat) (v : Ring) : State := { s with rings := Sparse.set Ring.none s.rings r v }
def getGrp (s : State) (k : Nat) : Grp := Sparse.get Grp.none s.grps k
def setGrp (s : State) (k : Nat) (v : Grp) : State := { s with grps := Sparse.set Grp.none s.grps k v }
def getTree (s : State) (k : Nat) : WTree := Sparse.get WTree.none s.trees k
def setTree (s : State) (k : Nat) (v : WTree) : State := { s with trees := Sparse.set WTree.none s.trees k v }
def getCell (s : State) (c : Nat) : Cell := Sparse.get Cell.free s.cells c
def setCell (s : State) (c : Nat) (v : Cell) : State := { s with cells := Sparse.set Cell.free s.cells c v }

/-- The current route to an address (R368). -/
def routeTo (s : State) (a : Nat) : Option Route :=
  Sparse.get none s.routes (fld s Reg.FAB_SWARM Fld.FAB_SWARM_EPOCH % 2 * 16384 + a)

/-- A context that is not FREE is resident. -/
def residentIn (s : State) (x : Nat) : Bool := (getCtx s x).st != .free

/-- The resident contexts, ascending. -/
def residents (s : State) : List Nat := (s.ctxs.filter (fun e => e.2.st != .free)).map (·.1)

/-- A context in state RUNNING holds its partition's slice (R29). -/
def runningCtx (s : State) (x : Nat) : Bool := (getCtx s x).st == .running

/-- The context in a new state. -/
def setCtxState (s : State) (x : Nat) (st : CtxState) : State := setCtx s x { getCtx s x with st := st }

/-- The slice of the context's partition is given up if the context holds it. -/
def dropSlice (s : State) (x : Nat) : State :=
  let p := (getCtx s x).part
  let v := getSlice s p
  if v.ctx = some x then setSlice s p { v with ctx := none, left := 0, last := x } else s

/-- A context enters FAULTED (R30): its sequencers stop; what has started completes. -/
def faultCtx (s : State) (x : Nat) : State :=
  if residentIn s x then dropSlice (setCtxState s x .faulted) x else s

/-- A context enters STOPPED (R29), remembering whether from LOADED; only LOADED, RUNNABLE and RUNNING contexts do. -/
def stopCtx (s : State) (x : Nat) : State :=
  let c := getCtx s x
  match c.st with
  | .loaded => setCtx s x { c with st := .stopped, fromLoaded := true }
  | .runnable => setCtx s x { c with st := .stopped, fromLoaded := false }
  | .running => dropSlice (setCtx s x { c with st := .stopped, fromLoaded := false }) x
  | _ => s

/-- The manifest of a context. -/
def manOf (s : State) (x : Nat) : Option Manifest := (getCtx s x).man

/-- The device's own job rank for a context; 0 without a rank table (R334, R367). -/
def ownRank (s : State) (x : Nat) : Nat :=
  match manOf s x with
  | some m => match m.ranks with
    | some (r, _) => r
    | none => 0
  | none => 0

/-- Where a job rank lies, as its sender sees it (R340, R344, R367). -/
inductive RankAt where
  | nowhere
  | here
  | away (addr : Nat)
deriving DecidableEq, Repr

/-- A job rank translated for a context. -/
def rankAt (s : State) (x r : Nat) : RankAt :=
  if r = ownRank s x then .here
  else match manOf s x with
    | some m => match m.ranks with
      | none => .nowhere
      | some _ => if r < 16384 then
          match Sparse.get none s.ranks r with
          | some a => .away a
          | none => .nowhere
        else .nowhere
    | none => .nowhere

/-- FTZ of a context (R77). -/
def ftzOf (s : State) (x : Nat) : Bool := match manOf s x with
  | some m => m.ftz
  | none => false

/-- The stochastic-rounding seed of a context's job (R73). -/
def seedOf (s : State) (x : Nat) : Nat := match manOf s x with
  | some m => m.srSeed.toNat
  | none => 0

/-- The resident contexts of a partition. -/
def ctxsOf (s : State) (p : Nat) : List Nat := (residents s).filter (fun x => (getCtx s x).part = p)

/-! ### Error records (R433, R435) -/

/-- Severities (R434). -/
def sevInfo : Nat := 0
def sevCorrected : Nat := 1
def sevError : Nat := 2
def sevFatal : Nat := 3

/-- A record that names no context, core or partition. -/
def plainRec (code sev obj d0 d1 d2 d3 : Nat) : ErrRec :=
  { code := code, sev := sev, part := none, ctx := none, core := none, forager := 0, seq := 0, pc := 0, obj := obj,
    beat := 0, d0 := d0, d1 := d1, d2 := d2, d3 := d3 }

/-- A record is generated: it takes its SEQ and BEAT and goes to the log (R433). -/
def raise (s : State) (r : ErrRec) : State :=
  { s with recs := s.recs ++ [{ r with seq := s.recSeq, beat := beat s }], recSeq := (s.recSeq + 1) % 65536 }

/-- A record of a device-level event. -/
def raiseDev (s : State) (code sev obj d0 d1 d2 d3 : Nat) : State := raise s (plainRec code sev obj d0 d1 d2 d3)

/-- A record that names a partition. -/
def raisePart (s : State) (p code sev obj d0 d1 d2 d3 : Nat) : State :=
  raise s { plainRec code sev obj d0 d1 d2 d3 with part := some p }

/-- A record that names a context and its partition. -/
def raiseCtx (s : State) (x code sev obj d0 d1 d2 d3 : Nat) : State :=
  raise s { plainRec code sev obj d0 d1 d2 d3 with part := some (getCtx s x).part, ctx := some x }

/-- A record of an instruction: context, core, forager and PC (R47). -/
def raiseInstr (s : State) (x l pc code sev obj d0 d1 d2 d3 : Nat) : State :=
  raise s { plainRec code sev obj d0 d1 d2 d3 with
    part := some (getCtx s x).part, ctx := some x, core := some (physCore s (getCtx s x).part l), forager := l, pc := pc }

/-- The first byte of a list of extents that partition `p`, or anyone, may not reach (R136, R138). -/
def firstOut (s : State) (p : Option Nat) (es : List (Nat × Nat)) : Option Nat := (es.filterMap (fun e => firstBad s p e.1 e.2)).head?

/-- An access that the device itself makes for context `x` is refused (R136, R138). DESIGN CHOICE (log entry 72): R521 lays out
the record of an instruction only, so details 0, 1 and 3 and the object id are 0, detail 2 is the first byte outside. -/
def refuseAccess (s : State) (x a : Nat) : State := raiseCtx s x 0x0303 sevError 0 0 0 a 0

/-- The same for an access made for a partition. -/
def refusePartAccess (s : State) (p a : Nat) : State := raisePart s p 0x0303 sevError 0 0 0 a 0

/-! ### Lossy FIFOs and the host event queue (R286, R458, R506) -/

/-- The identifier of the host event queue (R458). -/
def fifoHost : Nat := 0x0236

/-- CDC_FIFO_CNT of a FIFO (R506). -/
def cdcCount (s : State) (f : Nat) : Word := Sparse.get 0 s.cdcCnt f

/-- A new gap marker of `n` lost items is counted, and, but in the FIFO of the error log, a CDC_GAP record logged (R286,
R290). -/
def countGap (s : State) (fifo n : Nat) (quiet : Bool) : State :=
  let w := cdcCount s fifo
  let w := putF Fld.CDC_FIFO_CNT_GAP (satAdd 32 (getF Fld.CDC_FIFO_CNT_GAP w) 1) w
  let s := bump { s with cdcCnt := Sparse.set 0 s.cdcCnt fifo w } Reg.CDC_STAT Fld.CDC_STAT_GAPS 1
  if quiet then s else raiseDev s 0x0F02 sevInfo fifo n (beat s) 0 0

/-- Whether an entry is a gap marker. -/
def QEntry.isGap (e : QEntry) : Bool :=
  match e.ev with
  | .gap _ _ => true
  | _ => false

/-- The unread gap marker counts one more loss. -/
def QEntry.oneMore (e : QEntry) : QEntry :=
  match e.ev with
  | .gap n b => { e with ev := .gap (satAdd 32 n 1) b }
  | _ => e

/-- An item of the full host event queue is dropped (R286). -/
def dropEvent (s : State) : State :=
  if s.hostQ.any (·.isGap) then { s with hostQ := s.hostQ.map (fun q => if q.isGap then q.oneMore else q) }
  else countGap { s with hostQ := s.hostQ ++ [⟨.gap 1 (beat s), false, [], []⟩] } fifoHost 1 false

/-- An item reaches the host event queue, a lossy FIFO of 4,096 entries (R286, R458). -/
def pushEvent (s : State) (e : HostEv) : State :=
  if (s.hostQ.filter (fun q => !q.isGap)).length < 4095 then
    { s with hostQ := s.hostQ ++ [⟨e, false, [], []⟩] }
  else dropEvent s

/-- Something leaves the device (log entry 5). -/
def emit (s : State) (o : Output) : State := { s with out := s.out ++ [o] }

/-! ### Refusals and faults of instructions (R47, R245, R521) -/

/-- Codes of the catalogue (R438) that refuse instructions. -/
def codeShape : Nat := 0x0201
def codeBound : Nat := 0x0303
def codeHandle : Nat := 0x0304
def codeReserved : Nat := 0x1101
def codeUnmapped : Nat := 0x0402
def codeOverrun : Nat := 0x0404
def codeMalformed : Nat := 0x0501
def codeOptHandler : Nat := 0x1301

/-- Why an instruction is refused: code, object id, detail 2 and detail 3 (R521), and details 0 and 1 where the code has
its own (R289, R290): the rules of R521 give them otherwise. -/
structure Refuse where
  code : Nat
  obj : Nat
  d2 : Nat
  d3 : Nat
  own : Option (Nat × Nat)
deriving DecidableEq, Repr

/-- ARR_SHAPE, naming a descriptor register. -/
def refShape (t : Nat) : Refuse := ⟨codeShape, 0, t, 0, none⟩
/-- ARR_SHAPE with no descriptor concerned. -/
def refShape0 : Refuse := ⟨codeShape, 0, 0xFF, 0, none⟩
/-- MEM_HANDLE with its cause. -/
def refHandle (h cause d3 : Nat) : Refuse := ⟨codeHandle, h, cause, d3, none⟩
/-- MEM_BOUND in a handle's region. -/
def refBound (h offset size : Nat) : Refuse := ⟨codeBound, h, offset, size, none⟩
/-- MEM_BOUND where no handle is concerned. -/
def refBound0 (addr : Nat) : Refuse := ⟨codeBound, 0, addr, 0, none⟩

/-- SYN_UNMAPPED with its cause and the map entry (R289). -/
def refUnmapped (name cause entry : Nat) : Refuse := ⟨codeUnmapped, name, entry, 0, some (cause, 0)⟩
/-- SYN_BARRIER_OVERRUN (R289). -/
def refOverrun (bar participant gen g name : Nat) : Refuse := ⟨codeOverrun, bar, g, name, some (participant, gen)⟩
/-- MSG_MALFORMED (R290). -/
def refMalformed (ring slots rank : Nat) : Refuse := ⟨codeMalformed, ring, 0, 0, some (slots, rank)⟩

/-- A job rank names another address, or none; the address that the table held is one it holds no longer (R367, R429, R430). -/
def moveRank (s : State) (r : Nat) (a : Option Nat) : State :=
  let old := Sparse.get none s.ranks r
  { s with ranks := Sparse.set none s.ranks r a, pastAddrs := if old = a then s.pastAddrs else old.toList ++ s.pastAddrs }

/-- The step whose gradients an exchange carries: the last step ended (R216, R227). -/
def xchStep (s : State) (p : Nat) : Nat := (fld s (Reg.BRD_STEP p) Fld.BRD_STEP_STEP + 2 ^ 48 - 1) % 2 ^ 48

/-- DUE of the commit vote (R423). -/
def dueBit (s : State) (p : Nat) : Bool :=
  let k := (getTrain s p).ckpt
  let i := fld s (Reg.CKP_PART p) Fld.CKP_PART_INTERVAL
  let b := fld s (Reg.CKP_PART p) Fld.CKP_PART_BEATS
  (decide (i ≠ 0) && decide (k.step + i ≤ fld s (Reg.BRD_STEP p) Fld.BRD_STEP_STEP))
    || (decide (b ≠ 0) && decide (k.beat + b ≤ Machine.beat s))

/-- BUSY of the commit vote (R423, R431). -/
def busyBit (s : State) (p : Nat) : Bool :=
  let k := (getTrain s p).ckpt
  let g := k.gen % 2 ^ 32
  k.bgBuddy || k.bgWard || (decide (k.gen ≠ 0) && (decide (fld s (Reg.CKP_STAT p) Fld.CKP_STAT_DONE ≠ g)
    || (decide (fld s (Reg.CKP_AREA p) Fld.CKP_AREA_WARD_COUNT ≠ 0) && decide (fld s (Reg.CKP_STAT p) Fld.CKP_STAT_WARD_DONE ≠ g))))

/-- Whether a partition is a training partition (R17, R134). -/
def training (s : State) (p : Nat) : Bool := !flg s (Reg.PLC_PART p) Fld.PLC_PART_KIND

/-- The device-started reduction group of a training partition (R17, R293). -/
def redSlot (s : State) (p : Nat) : Option Nat :=
  if training s p then (s.grps.find? (fun e => e.2.valid && e.2.device && e.2.part == p)).map (·.1) else none

/-- Its group id. -/
def redGid (s : State) (p : Nat) : Nat := match redSlot s p with
  | some k => (getGrp s k).gid
  | none => 0

/-- Whether a repeat would bring ATTEMPT to MAX_ATTEMPTS (R251). -/
def exhausted (s : State) (p : Nat) : Bool :=
  decide (max 1 (fld s (Reg.GRD_PART p) Fld.GRD_PART_MAX_ATTEMPTS) ≤ fld s (Reg.BRD_STEP p) Fld.BRD_STEP_ATTEMPT + 1)

/-- GRD_NONFINITE, once per exchange (R254). -/
def noteNonfinite (s : State) (p : Nat) (e : Xch) : State :=
  if e.nfCount = 0 then s
  else raisePart (bump s (Reg.GRD_FAULT p) Fld.GRD_FAULT_NONFINITE 1) p 0x0703 sevInfo (redGid s p) e.nfFirst
    (min e.nfCount (2 ^ 32 - 1)) (xchStep s p) (fld s (Reg.BRD_STEP p) Fld.BRD_STEP_ATTEMPT)

/-- A signature (R303). -/
def mkSig (gid gen seq op red type root count : Nat) : Sig where
  w0 := BitVec.ofNat 64 (gid % 65536 + 2 ^ 16 * (gen % 65536) + 2 ^ 32 * (seq % 2 ^ 32))
  w1 := BitVec.ofNat 64 (op % 8 + 2 ^ 3 * (red % 8) + 2 ^ 6 * (type % 32) + 2 ^ 11 * (root % 4096) + 2 ^ 23 * (count % 2 ^ 40))

/-- The state of a group that is not poisoned (R323). -/
def Grp.settle (g : Grp) : Grp :=
  if g.st = 3 then g
  else { g with st := if g.aborting.isSome then 2 else if g.bulk.isSome || g.wag.isSome || g.naming.isSome then 1 else 0 }

/-- Counts of a partition's collectives (R322). -/
def countCol (s : State) (p : Nat) (aborted : Bool) : State :=
  if aborted then bump s (Reg.COL_STAT p) Fld.COL_STAT_ABORTED 1 else bump s (Reg.COL_STAT p) Fld.COL_STAT_COMPLETED 1

/-- The contexts of a partition stop. -/
def stopPart (s : State) (p : Nat) : State := (ctxsOf s p).foldl stopCtx s

/-! ### Device-started Waggle reductions (R216, R247, R294, R318, R423) -/

/-- The exchange's collective ends at this member. -/
def endExchange (s : State) (p : Nat) : State :=
  let s := match redSlot s p with
    | some slot =>
      let g := getGrp s slot
      match g.bulk with
      | some b => if b.sig.op = 6 then countCol (setGrp s slot ({ g with bulk := none }).settle) p false else s
      | none => s
    | none => s
  setTrain s p { getTrain s p with xch := none, halt := false, wagSince := none }

/-- A device-started reduction ends without a result (R308, R320): a failed commit vote stops the partition's contexts; the loss of a
member is for the takeover (R253). DESIGN CHOICE (log entry 73): a failed step-end OR stops them too. -/
def devWagAborted (s : State) (p : Nat) (lost : Bool) : State :=
  if lost then setTrain s p { getTrain s p with wagSince := none } else stopPart (endExchange s p) p

/-- A contribution stands at a node of a tree, from a child port or from the member here (R316). -/
def addContrib (s : State) (k : Nat) (port : Option Nat) (sig : Sig) (vals : List Int) (bad : List Bool) : State :=
  let v := getTree s k
  setTree s k { v with contribs := v.contribs.filter (fun c => c.1 != port) ++ [(port, sig, vals, bad)] }

/-- A device-started reduction enters under the group's next WSEQ (R294), or finds it already aborted (R307). -/
def beginDev (s : State) (slot : Nat) (d : DevWag) : State :=
  let g := getGrp s slot
  let sig := mkSig g.gid g.gen g.wseq 5 d.red d.type 0 d.vals.length
  let g := { g with wseq := (g.wseq + 1) % 2 ^ 32 }
  match g.notices.find? (fun n => n.1 && n.2.1 == sig.w0.toNat / 2 ^ 32) with
  | some n => devWagAborted (countCol (setGrp s slot g) g.part true) g.part (n.2.2 == .memberLost)
  | none =>
    let w : Wag := ⟨d.owner, sig, d.vals, d.vals.map (fun _ => false), none⟩
    let s := setGrp s slot ({ g with wag := some w }).settle
    match g.tree with
    | some k => addContrib s k none sig w.vals w.bad
    | none => s

/-- A device-started reduction enters, or waits for the group's reduction in progress (R295). -/
def enterDev (s : State) (slot : Nat) (d : DevWag) : State :=
  let g := getGrp s slot
  if g.wag.isSome || g.aborting.isSome || !g.devWags.isEmpty then setGrp s slot { g with devWags := g.devWags ++ [d] }
  else beginDev s slot d

/-- The next device-started reduction that waits enters once the group is free. -/
def pumpDev (s : State) (slot : Nat) : State :=
  let g := getGrp s slot
  match g.devWags with
  | d :: ds => if g.wag.isNone && g.aborting.isNone then beginDev (setGrp s slot { g with devWags := ds }) slot d else s
  | [] => s

/-- A device-started OR of a partition: over the tree of its reduction group (R318), or, where it has none, as `o`. DESIGN CHOICE
(log entry 73): RED is OR and TYPE the 64-bit unsigned integer. -/
def startOr (s : State) (p : Nat) (owner : WagOwner) (vals : List Nat) (o : Output) : State :=
  match redSlot s p with
  | some k => if (getGrp s k).tree.isSome then enterDev s k ⟨owner, 3, 0x1F, vals.map (fun v => (v : Int))⟩ else emit s o
  | none => emit s o

/-- The device votes (R247, R251, R423). -/
def castVote (s : State) (p : Nat) : State :=
  let t := getTrain s p
  match t.xch with
  | none => s
  | some e =>
    if e.voted then s
    else
      let out := e.rpt && exhausted s p
      let busy := busyBit s p
      let due := dueBit s p
      let s := noteNonfinite s p e
      let s := setFld (setFld s (Reg.OPT_PART p) Fld.OPT_PART_BUSY 0) (Reg.CKP_LAST p) Fld.CKP_LAST_BUSY (bnat busy)
      let s := setTrain s p { t with xch := some { e with voted := true }, wagSince := some (beat s) }
      startOr s p .vote [bnat e.nfx, bnat (e.rpt && !out), bnat (t.halt || out), bnat due + 2 * bnat busy]
        (.commitVote p (t.halt || out) (e.rpt && !out) e.nfx due busy)

/-- The optimizer handler of a partition is refused or faults: OPT_HANDLER is logged (R254) with its cause, and the device
votes HALT (R245, R247). -/
def haltHandler (s : State) (x l pc : Nat) (k : TaskKind) (cause : Nat) : State :=
  match k with
  | .optHandler p c =>
    let s := raiseInstr s x l pc codeOptHandler sevError x pc c cause (xchStep s p)
    castVote (setTrain s p { getTrain s p with halt := true }) p
  | _ => s

/-- The task running on a core. -/
def taskKindOf (s : State) (x l : Nat) : TaskKind :=
  match getRun s x l with
  | some r => r.task.kind
  | none => .plain

/-- A refused instruction (R47, R521): one record, no effect, no post, its context FAULTED; a handler task also votes HALT. -/
def refuseInstr (s : State) (x l pc : Nat) (word : Word) (step : Nat) (r : Refuse) : State :=
  let d := r.own.getD (word.toNat, step)
  let s := raiseInstr s x l pc r.code sevError r.obj d.1 d.2 r.d2 r.d3
  faultCtx (haltHandler s x l pc (taskKindOf s x l) 2) x

/-- A forbidden instruction of an optimizer handler task (R245): refused with OPT_HANDLER alone, cause 1. -/
def refuseForbidden (s : State) (x l pc : Nat) : State :=
  faultCtx (haltHandler s x l pc (taskKindOf s x l) 1) x

/-- An instruction that meets a fault as it runs (R30, R155), with no refusal record. -/
def faultInstr (s : State) (x l pc : Nat) : State := faultCtx (haltHandler s x l pc (taskKindOf s x l) 2) x

/-! ### The handle table (R39 to R41, R245) -/

def handleFld (lo w : Nat) (v : Word) : Nat := getF ⟨lo, w⟩ v
def Handle.base (h : Handle) : Nat := handleFld 0 56 h.w0
def Handle.tier (h : Handle) : Nat := handleFld 56 2 h.w0
def Handle.writable (h : Handle) : Bool := bitOf 58 h.w0
def Handle.code (h : Handle) : Bool := bitOf 59 h.w0
def Handle.valid (h : Handle) : Bool := bitOf 63 h.w0
def Handle.size (h : Handle) : Nat := handleFld 0 41 h.w1

/-- An entry from its fields (R39). -/
def mkHandle (base tier : Nat) (writable code pinned : Bool) (size : Nat) : Handle where
  w0 := putF ⟨0, 56⟩ base (putF ⟨56, 2⟩ tier (putF ⟨58, 1⟩ (bnat writable) (putF ⟨59, 1⟩ (bnat code)
    (putF ⟨60, 1⟩ (bnat pinned) (putF ⟨63, 1⟩ 1 0)))))
  w1 := putF ⟨0, 41⟩ size 0

/-- The entry a core of a context sees: handle 1 is that core's SCRATCH (R40); handle 0 is never valid. -/
def handleOf (s : State) (x l h : Nat) : Handle :=
  let c := getCtx s x
  if h = 1 then
    match c.man with
    | some m => mkHandle (c.scratch.getD l 0) 0 true false false m.scratch
    | none => ⟨0, 0⟩
  else if h = 0 then ⟨0, 0⟩
  else Sparse.get ⟨0, 0⟩ c.handles h

/-- The check of R41 on a data access, with the limits of R245 on an optimizer handler's writes. DESIGN CHOICE (log entry 66):
an access that breaks R41 in several ways is recorded with the lowest cause of R521. -/
def handleCheck (s : State) (x l h : Nat) (write : Bool) (kind : TaskKind) : Option Refuse :=
  let e := handleOf s x l h
  if !e.valid then some (refHandle h 1 0)
  else if write && !e.writable then some (refHandle h 2 0)
  else if e.code then some (refHandle h 3 0)
  else match kind with
    | .optHandler _ _ =>
      let allowed := match manOf s x with
        | some m => match m.reduce with
          | some r => r.stateHandles.contains h || r.staging == h || h == 1
          | none => h == 1
        | none => h == 1
      if write && !allowed then some (refHandle h 5 0) else none
    | _ => none

/-! ### Memory errors met by an access (R151, R155 to R158) -/

/-- "Passes from below to at or above a threshold, and not again until written below" (R84, R157). -/
def thrCross (s : State) (key old new thr : Nat) : Bool :=
  decide (thr ≠ 0) && decide (old < thr) && decide (thr ≤ new) && !Sparse.get false s.thrLogged key

def setThr (s : State) (key : Nat) (b : Bool) : State := { s with thrLogged := Sparse.set false s.thrLogged key b }

/-- One repair-list entry for an HBM row (R158): detail 3 of R157 gives row and bank. -/
def listRow (s : State) (pc rowBank : Nat) (uncorr : Bool) : State :=
  let row := rowBank % 2 ^ 20
  let bank := (rowBank / 2 ^ 20) % 16
  let same (e : Nat) : Bool :=
    let a := Reg.MEM_PPR_LIST e
    flg s a Fld.MEM_PPR_LIST_VALID && fld s a Fld.MEM_PPR_LIST_PC == pc && fld s a Fld.MEM_PPR_LIST_BANK == bank
      && fld s a Fld.MEM_PPR_LIST_ROW == row
  if (List.range 64).any same then s
  else match selectBelow 64 (fun e => !flg s (Reg.MEM_PPR_LIST e) Fld.MEM_PPR_LIST_VALID) with
    | [] => s
    | e :: _ =>
      let w := putF Fld.MEM_PPR_LIST_VALID 1 (putF Fld.MEM_PPR_LIST_UNCORR (bnat uncorr)
        (putF Fld.MEM_PPR_LIST_ROW row (putF Fld.MEM_PPR_LIST_BANK bank (putF Fld.MEM_PPR_LIST_PC pc 0))))
      wr s (Reg.MEM_PPR_LIST e) w

/-- MEM_ECC_CORRECTED for the last corrected unit (R157). -/
def logCorrected (s : State) : State :=
  let u := s.lastCorr
  setThr (raiseDev s 0x0301 sevCorrected u.tier u.addr (fld s Reg.MEM_ECC_CORR Fld.MEM_ECC_CORR_COUNT) u.loc u.rowBank)
    Reg.MEM_ECC_CORR true

/-- A corrected error is counted, with a record at the crossing (R157). -/
def eccCorrected (s : State) (u : CorrUnit) : State :=
  let old := fld s Reg.MEM_ECC_CORR Fld.MEM_ECC_CORR_COUNT
  let t := bump { s with lastCorr := u } Reg.MEM_ECC_CORR Fld.MEM_ECC_CORR_COUNT 1
  let new := fld t Reg.MEM_ECC_CORR Fld.MEM_ECC_CORR_COUNT
  if thrCross s Reg.MEM_ECC_CORR old new (fld s Reg.MEM_ECC_THR Fld.MEM_ECC_THR_CORR_THR) then logCorrected t else t

/-- An uncorrectable error: counted, logged, its unit poisoned (R155, R157). -/
def eccUncorrectable (s : State) (h : Nat) (u : CorrUnit) : State :=
  let s := bump s Reg.MEM_ECC_UNCORR Fld.MEM_ECC_UNCORR_COUNT 1
  poisonUnit (raiseDev s 0x0302 sevError u.tier u.addr h u.loc u.rowBank) u.addr

/-- The unit of an error in the memory of its address. -/
def memUnit (s : State) (e : EccEvent) : CorrUnit :=
  ⟨tierOf e.addr, e.addr / 64 * 64, memLoc s e.addr, if e.addr < hbmEnd then e.rowBank else 0⟩

/-- The unit of an error in a comb-store line: tier 1, with the line's die and way. -/
def lineUnit (e : EccEvent) (c : CombLine) : CorrUnit := ⟨1, e.addr / 64 * 64, 16 * memDie e.addr + c.way, 0⟩

/-- A corrected error in memory; an HBM row is listed at its own threshold (R158). -/
def memCorrected (s : State) (e : EccEvent) : State :=
  let s := eccCorrected s (memUnit s e)
  if e.addr < hbmEnd then
    let key := pcOf s e.addr * 2 ^ 24 + e.rowBank % 2 ^ 24
    let n := Sparse.get 0 s.rowErrs key + 1
    let t := { s with rowErrs := Sparse.set 0 s.rowErrs key n }
    if n ≥ fld s Reg.MEM_ECC_THR Fld.MEM_ECC_THR_PPR_THR then listRow t (pcOf s e.addr) e.rowBank false else t
  else s

/-- An uncorrectable error in memory; an HBM row is listed (R158). -/
def memUncorrectable (s : State) (h : Nat) (e : EccEvent) : State :=
  let t := eccUncorrectable s h (memUnit s e)
  if e.addr < hbmEnd then listRow t (pcOf s e.addr) e.rowBank true else t

/-- An uncorrectable error in a held line (R156): a clean line is fetched again, a dirty one is written back poisoned. -/
def lineUncorrectable (s : State) (h : Nat) (e : EccEvent) (c : CombLine) : State :=
  if c.dirty then combDrop (eccUncorrectable s h (lineUnit e c)) (fun v => v.line == c.line)
  else eccCorrected s (lineUnit e c)

/-- Whether an address lies behind the link of the second tier, and link ECC protects it (R151). -/
def linkGuards (s : State) (a : Nat) : Bool :=
  decide (l2Base ≤ a) && decide (a < l2End) && flg s Reg.MEM_L2_CTL Fld.MEM_L2_CTL_LINK_ECC

/-- An error met by a read that reaches the memory of its address (R151, R154 to R158). The second tier reports only what its link
protection sees: a corrected bit, a retry that helped, which leaves no trace, and one that failed; an error inside a package is not
told. -/
def eccMemory (h : Nat) (s : State) (e : EccEvent) : State :=
  let l2 := decide (l2Base ≤ e.addr) && decide (e.addr < l2End)
  match e.kind with
  | .corrected => if !l2 || linkGuards s e.addr then memCorrected s e else s
  | .uncorrectable => if l2 then s else memUncorrectable s h e
  | .linkFailed => if linkGuards s e.addr then memUncorrectable s h e else s
  | .linkRetried | .lineCorrected | .lineUncorrectable => s

/-- One error met by an access: an access to a line that the comb store holds meets the errors of the line, any other those of the
memory. -/
def eccOne (h : Nat) (s : State) (e : EccEvent) : State :=
  match combHeld s e.addr with
  | none => eccMemory h s e
  | some c => match e.kind with
    | .lineCorrected => eccCorrected s (lineUnit e c)
    | .lineUncorrectable => lineUncorrectable s h e c
    | _ => s

/-- The errors met by an access to `[a, a + n)`; events elsewhere do not concern it. -/
def eccApply (s : State) (h a n : Nat) (evs : List EccEvent) : State :=
  (evs.filter (fun e => decide (a ≤ e.addr / 64 * 64 + 63) && decide (e.addr / 64 * 64 < a + n))).foldl (eccOne h) s

end Sys2Proof.Machine
end

