-- ==== Sys2Proof/Machine/Operands.lean ====
section
/-! DEFINITION. Operand forms: scalar and descriptor registers (R31, R33), the descriptor rules (R35 to R38), extents (R53),
the access checks of step 5 of R46 (R41, R53, R138, R168), and tensors in memory row by row (R36, R63). -/

namespace Sys2Proof.Machine

/-! ### Registers of a task (R31) -/

/-- g0 reads zero. -/
def TaskRegs.getG (r : TaskRegs) (i : GReg) : Word := if i = 0 then 0 else r.g[i]

/-- A write to g0 is discarded. -/
def TaskRegs.setG (r : TaskRegs) (i : GReg) (v : Word) : TaskRegs := if i = 0 then r else { r with g := r.g.set i v }

/-- p0 reads true. -/
def TaskRegs.getP (r : TaskRegs) (i : PReg) : Bool := if i = 0 then true else r.p[i]

/-- A write to p0 is discarded. -/
def TaskRegs.setP (r : TaskRegs) (i : PReg) (v : Bool) : TaskRegs := if i = 0 then r else { r with p := r.p.set i v }

def TaskRegs.getT (r : TaskRegs) (i : TReg) : Desc := r.t[i]
def TaskRegs.setT (r : TaskRegs) (i : TReg) (d : Desc) : TaskRegs := { r with t := r.t.set i d }

/-- A register at a number, g0 beyond g63. -/
def TaskRegs.getN (r : TaskRegs) (i : Nat) : Word := if h : i < 64 then r.getG ⟨i, h⟩ else 0

/-- The registers at task start (R31): arguments in g1 to g8, everything else zero, null descriptors, false predicates. -/
def TaskRegs.start (args : List Word) : TaskRegs where
  g := (Vector.range 64).map (fun i => if 1 ≤ i ∧ i ≤ 8 then args.getD (i - 1) 0 else 0)
  t := Vector.replicate 16 Desc.null
  p := (Vector.range 8).map (fun i => decide (i = 0))

/-! ### Descriptor fields (R33) -/

def Desc.handle (d : Desc) : Nat := bitsOf 13 0 d.w0
def Desc.format (d : Desc) : Nat := bitsOf 20 16 d.w0
def Desc.scale (d : Desc) : Nat := bitsOf 63 32 d.w0
def Desc.offset (d : Desc) : Nat := bitsOf 40 0 d.w1
def Desc.plane (d : Desc) : Nat := bitsOf 63 41 d.w1
def Desc.dim0 (d : Desc) : Nat := bitsOf 20 0 d.w2
def Desc.dim1 (d : Desc) : Nat := bitsOf 41 21 d.w2
def Desc.dim2 (d : Desc) : Nat := bitsOf 62 42 d.w2
def Desc.stride1 (d : Desc) : Nat := bitsOf 31 0 d.w3
def Desc.stride2 (d : Desc) : Nat := bitsOf 63 32 d.w3

/-- A word of the descriptor by number. -/
def Desc.word (d : Desc) : Nat → Word
  | 0 => d.w0
  | 1 => d.w1
  | 2 => d.w2
  | _ => d.w3

def Desc.setWord (d : Desc) (i : Nat) (w : Word) : Desc :=
  match i with
  | 0 => { d with w0 := w }
  | 1 => { d with w1 := w }
  | 2 => { d with w2 := w }
  | _ => { d with w3 := w }

/-- The word and place of a field named by FLD (R335). -/
def descFld (n : Nat) : Nat × Fld :=
  match n with
  | 0 => (0, ⟨0, 14⟩) | 1 => (0, ⟨16, 5⟩) | 2 => (0, ⟨32, 32⟩) | 3 => (1, ⟨0, 41⟩) | 4 => (1, ⟨41, 23⟩)
  | 5 => (2, ⟨0, 21⟩) | 6 => (2, ⟨21, 21⟩) | 7 => (2, ⟨42, 21⟩) | 8 => (3, ⟨0, 32⟩) | 9 => (3, ⟨32, 32⟩)
  | 10 => (0, ⟨0, 64⟩) | 11 => (1, ⟨0, 64⟩) | 12 => (2, ⟨0, 64⟩) | _ => (3, ⟨0, 64⟩)

def Desc.getFld (d : Desc) (n : Nat) : Nat := getF (descFld n).2 (d.word (descFld n).1)
def Desc.setFld (d : Desc) (n v : Nat) : Desc := d.setWord (descFld n).1 (putF (descFld n).2 v (d.word (descFld n).1))

/-- Elements of a descriptor. -/
def Desc.count (d : Desc) : Nat := d.dim0 * d.dim1 * d.dim2

/-- Rows r = i₁ + DIM1 × i₂ (R173). -/
def Desc.rows (d : Desc) : Nat := d.dim1 * d.dim2

/-- Bytes of a DIM0-row (R35). -/
def Desc.rowLen (d : Desc) : Nat := rowBytes d.format d.dim0

/-- SCALE as a value. -/
def Desc.scaleNum (d : Desc) : FNum := decodeFp fp32 false d.scale

/-- The scale plane's offset in the region and its length; length 0 without one (R36). -/
def Desc.planeAt (d : Desc) : Nat × Nat :=
  if fmtMx d.format then (d.offset + d.plane * 4096, d.dim0 / 32 * d.dim1 * d.dim2) else (d.offset, 0)

/-- The byte after the extent of R53, in the region. -/
def Desc.extentEnd (d : Desc) : Nat := d.offset + (d.dim2 - 1) * d.stride2 + (d.dim1 - 1) * d.stride1 + d.rowLen

/-- R38, with R35 and the format conditions of R34; R37 as well for a destination. -/
def Desc.legal (d : Desc) (dest : Bool) : Bool :=
  let f := d.format
  let al := fmtAlign f
  decide (bitsOf 15 14 d.w0 = 0) && decide (bitsOf 31 21 d.w0 = 0) && !bitOf 63 d.w2
    && fmtLegal f
    && decide (d.offset % al = 0) && decide (d.stride1 % al = 0) && decide (d.stride2 % al = 0)
    && (!fmtMx f || decide (d.dim0 % 32 = 0))
    && (!(f == 0x0D || f == 0x0E) || decide (d.dim0 % 2 = 0))
    && decide (d.scale % 2 ^ 31 ≠ 0) && decide (d.scale / 2 ^ 23 % 256 ≠ 255)
    && (fmtMx f || decide (d.plane = 0))
    && (!dest || ((decide (d.dim1 ≤ 1) || decide (d.rowLen ≤ d.stride1))
        && (decide (d.dim2 ≤ 1) || decide (d.dim1 * d.stride1 ≤ d.stride2))))

/-- Identical in every field except SCALE (R168). -/
def Desc.sameBytes (a b : Desc) : Bool :=
  decide (a.w0.toNat % 2 ^ 32 = b.w0.toNat % 2 ^ 32) && decide (a.w1 = b.w1) && decide (a.w2 = b.w2) && decide (a.w3 = b.w3)

/-! ### Access checks of step 5 of R46 -/

/-- An interval of a handle's region is within the region (R53) and within the partition's memory (R138). -/
def intervalCheck (s : State) (x h base size lo hi : Nat) : Option Refuse :=
  if lo < hi ∧ size < hi then some (refBound h (max lo size) size)
  else match firstBad s (some (getCtx s x).part) (base + lo) (hi - lo) with
    | some a => some (refBound0 a)
    | none => none

/-- R41, R53, R36 and R138 on one descriptor. -/
def accessCheck (s : State) (x l : Nat) (kind : TaskKind) (write : Bool) (d : Desc) : Option Refuse :=
  match handleCheck s x l d.handle write kind with
  | some r => some r
  | none =>
    let e := handleOf s x l d.handle
    match intervalCheck s x d.handle e.base e.size d.offset d.extentEnd with
    | some r => some r
    | none => intervalCheck s x d.handle e.base e.size d.planeAt.1 (d.planeAt.1 + d.planeAt.2)

/-- The device addresses from OFFSET to the extent (R168). -/
def Desc.span (d : Desc) (h : Handle) : Nat × Nat := (h.base + d.offset, h.base + d.extentEnd)

/-- R168 between a destination and another operand: the first address common to both intervals. -/
def overlapAt (a b : Nat × Nat) : Option Nat := if a.1 < b.2 ∧ b.1 < a.2 then some (max a.1 b.1) else none

/-- The first refusal of a list of checks. -/
def firstRefusal : List (Option Refuse) → Option Refuse
  | [] => none
  | some r :: _ => some r
  | none :: rs => firstRefusal rs

/-- R168 between one destination and the sources it must not overlap; `samePass` lets an identical source stand. -/
def overlapCheck (s : State) (x l : Nat) (samePass : Bool) (dst : Desc) (srcs : List Desc) : Option Refuse :=
  firstRefusal (srcs.map fun d =>
    if samePass && dst.sameBytes d then none
    else match overlapAt (dst.span (handleOf s x l dst.handle)) (d.span (handleOf s x l d.handle)) with
      | some a => some (refBound0 a)
      | none => none)

/-! ### Tensors in memory -/

/-- The device address of row `r` (R173, R193). -/
def Desc.rowAddr (d : Desc) (base r : Nat) : Nat :=
  base + d.offset + (r / d.dim1) * d.stride2 + (r % d.dim1) * d.stride1

/-- The device address and length of row `r`'s block scales (R36). -/
def Desc.rowPlane (d : Desc) (base r : Nat) : Nat × Nat := (base + d.planeAt.1 + r * (d.dim0 / 32), if fmtMx d.format then d.dim0 / 32 else 0)

/-- The bytes of a row. -/
def rowData (s : State) (base : Nat) (d : Desc) (r : Nat) : List Byte := readBytes s (d.rowAddr base r) d.rowLen

/-- The scale bytes of a row. -/
def rowScales (s : State) (base : Nat) (d : Desc) (r : Nat) : List Byte :=
  readBytes s (d.rowPlane base r).1 (d.rowPlane base r).2

/-- Whether a row's elements or scales are poisoned. -/
def rowPoisoned (s : State) (base : Nat) (d : Desc) (r : Nat) : Bool :=
  poisoned s (d.rowAddr base r) d.rowLen || poisoned s (d.rowPlane base r).1 (d.rowPlane base r).2

/-- The element encodings of a row. -/
def rowCodes (s : State) (base : Nat) (d : Desc) (r : Nat) : List Nat := unpackRow d.format d.dim0 (rowData s base d r)

/-- The values of a row as stored, MX block scales applied (R63, R64, R77). -/
def decodeRow (fmt : Nat) (ftz : Bool) (codes : List Nat) (scales : List Byte) : List FNum :=
  if fmtMx fmt then
    codes.zipIdx.map fun (c, i) => decodeMx fmt ((scales.getD (i / 32) 0).toNat) c
  else codes.map (decodeElem fmt ftz)

/-- The values of row `r`. -/
def rowNums (s : State) (base : Nat) (d : Desc) (ftz : Bool) (r : Nat) : List FNum :=
  decodeRow d.format ftz (rowCodes s base d r) (rowScales s base d r)

/-- What a row write holds: the row number, its bytes, its scale bytes. -/
structure RowOut where
  row : Nat
  data : List Byte
  scales : List Byte

/-- Whether an encoding is a NaN or an infinity. -/
def codeNonfinite (fmt c : Nat) : Bool := (decodeElem fmt false c).isNan || (decodeElem fmt false c).isInf

/-- Whether a written row holds a NaN or an infinity (R218). -/
def rowNonfinite (fmt n : Nat) (o : RowOut) : Bool :=
  (fmtMx fmt && o.scales.any (fun b => b == 0xFF)) || (!fmtInt fmt && (unpackRow fmt n o.data).any (codeNonfinite fmt))

/-- Handles whose non-finite writes set NF (R218): gradient handles and outbound backward slots. -/
def watchesNf (m : Manifest) (h : Nat) : Bool :=
  m.handles.any (fun e => e.h == h && e.gradient)
    || (match m.stage with
        | some g => g.vstages.any (fun v => v.outBwd.handle == h)
        | none => false)

/-- NF is set (R218). -/
def markNf (s : State) (x h : Nat) (bad : Bool) : State :=
  let watched := match manOf s x with
    | some m => watchesNf m h
    | none => false
  if bad && watched then
    let p := (getCtx s x).part
    setTrain s p { getTrain s p with nf := true }
  else s

/-- One row written to memory. -/
def writeRow (base : Nat) (d : Desc) (s : State) (o : RowOut) : State :=
  writeBytes (writeBytes s (d.rowAddr base o.row) o.data) (d.rowPlane base o.row).1 o.scales

/-- Rows written through a descriptor, with NF watched (R218). -/
def writeRows (s : State) (x l : Nat) (d : Desc) (rows : List RowOut) : State :=
  let base := (handleOf s x l d.handle).base
  let s := markNf s x d.handle (rows.any (rowNonfinite d.format d.dim0))
  rows.foldl (writeRow base d) s

/-- An engine's writes (R155): all rows, or, when it meets poisoned data that stops it before row `limit`, a free number of
the rows before that; true when all were written. -/
def writeOrStop (s : State) (x l : Nat) (d : Desc) (rows : List RowOut) (limit : Option Nat) : State :=
  match limit with
  | none => writeRows s x l d rows
  | some k =>
    let n := Config.freeWrites s.free % (k + 1)
    writeRows { s with free := s.free + 1 } x l d (rows.take n)

/-- The first index below `n` whose test holds. -/
def firstBelow (n : Nat) (p : Nat → Bool) : Option Nat := (selectBelow n p).head?

/-! ### What the accesses of an instruction meet (R144 to R146, R151, R155 to R158) -/

/-- Bytes that an instruction reads, and the handle they are read through. -/
structure Touch where
  handle : Nat
  addr : Nat
  len : Nat
deriving DecidableEq, Repr

/-- Whether a read takes in the 64-byte unit of a memory error. -/
def Touch.hit (t : Touch) (e : EccEvent) : Bool :=
  decide (t.len ≠ 0) && decide (t.addr ≤ e.addr / 64 * 64 + 63) && decide (e.addr / 64 * 64 < t.addr + t.len)

/-- The reads of rows of a tensor, elements and block scales. -/
def rowTouches (s : State) (x l : Nat) (d : Desc) (rows : List Nat) : List Touch :=
  let base := (handleOf s x l d.handle).base
  rows.flatMap fun r => [⟨d.handle, d.rowAddr base r, d.rowLen⟩, ⟨d.handle, (d.rowPlane base r).1, (d.rowPlane base r).2⟩]

/-- The reads of a whole tensor. -/
def descTouches (s : State) (x l : Nat) (d : Desc) : List Touch := rowTouches s x l d (List.range d.rows)

/-- The memory errors that the reads of an instruction meet, each once; errors elsewhere do not concern it. -/
def eccMeet (s : State) (ts : List Touch) (evs : List EccEvent) : State :=
  evs.foldl (fun s e => match ts.find? (fun t => t.hit e) with
    | some t => eccOne t.handle s e
    | none => s) s

/-- Reads pass through the comb store, and so do the writes of whole tensors, row by row (R144, R145). DESIGN CHOICE (log entry 11):
an instruction's reads come in the order of its operands, then its writes, each row once. -/
def combReads (s : State) (strm : Bool) (ts : List Touch) : State := ts.foldl (fun s t => combTouch s false strm t.addr t.len) s

def combWrites (s : State) (ts : List Touch) : State := ts.foldl (fun s t => combTouch s true false t.addr t.len) s

/-- What the accesses of an instruction meet before their data count: errors, then the lines of what it reads and of what it
writes. -/
def meet (s : State) (x l : Nat) (strm : Bool) (ts : List Touch) (dsts : List Desc) (evs : List EccEvent) : State :=
  let s := combReads (eccMeet s ts evs) strm ts
  combWrites s (dsts.flatMap (descTouches s x l))

end Sys2Proof.Machine
end

