-- ==== Sys2Proof/Machine/Flags.lean ====
section
/-! DEFINITION. The exception state of a core: sticky bits, counts and their thresholds, the first site, and the records of
invalid and overflowing results (R82 to R88), for every instruction that computes. -/

namespace Sys2Proof.Machine

/-- EXC_SITE with VALID = 1 (R85). -/
def siteWord (kind array kidx col row handle ctx : Nat) : Word :=
  putF Fld.EXC_SITE_VALID 1 (putF Fld.EXC_SITE_CONTEXT ctx (putF Fld.EXC_SITE_HANDLE handle (putF Fld.EXC_SITE_ROW row
    (putF Fld.EXC_SITE_COLUMN col (putF Fld.EXC_SITE_KIDX kidx (putF Fld.EXC_SITE_ARRAY array
      (putF Fld.EXC_SITE_KIND kind 0)))))))

/-- The sticky bits of R82 are set for the exceptions met; none is cleared. -/
def setStickies (s : State) (core : Nat) (e : Exc) : State :=
  let a := Reg.EXC_STICKY core
  let on (b : Bool) (f : Fld) (w : Word) : Word := if b then putF f 1 w else w
  wr s a (on e.invalid Fld.EXC_STICKY_INVALID (on e.overflow Fld.EXC_STICKY_OVERFLOW (on e.underflow Fld.EXC_STICKY_UNDERFLOW
    (on e.divzero Fld.EXC_STICKY_DIVZERO (on (e.loss != 0) Fld.EXC_STICKY_BLOCK_LOSS
      (on (e.sat != 0) Fld.EXC_STICKY_SATURATE (rd s a)))))))

/-- What the records of R84 say of an instruction: context, logical core, PC, destination handle, FORMAT and SAT. -/
structure NumBy where
  x : Nat
  l : Nat
  pc : Nat
  destH : Nat
  destFmt : Nat
  sat : Bool
deriving DecidableEq, Repr

/-- FORMAT [4:0] and SAT [8] (R84, R88). -/
def fmtSat (f : Nat) (sat : Bool) : Nat := f + 256 * bnat sat

/-- A count of R83 is raised by `n`, with the record of R84 at its threshold. DESIGN CHOICE (log entry 65): the count rises
once for a whole destination, so detail 0 is the count after all of it. -/
def countNum (s : State) (by_ : NumBy) (core reg : Nat) (cnt thr : Fld) (code n : Nat) : State :=
  if n = 0 then s
  else
    let t := fld s (Reg.NUM_THR core) thr
    let old := fld s reg cnt
    let s1 := bump s reg cnt n
    let new := fld s1 reg cnt
    if thrCross s reg old new t then
      setThr (raiseInstr s1 by_.x by_.l by_.pc code sevInfo core new t by_.destH (fmtSat by_.destFmt by_.sat)) reg true
    else s1

/-- The exceptions of a conversion into one destination: sticky bits, counts, threshold records (R82 to R84). -/
def recordExc (s : State) (by_ : NumBy) (e : Exc) : State :=
  let core := physCore s (getCtx s by_.x).part by_.l
  let s := setStickies s core e
  let s := countNum s by_ core (Reg.BLOCK_LOSS core) Fld.BLOCK_LOSS_COUNT Fld.NUM_THR_BLOCK_LOSS_THR 0x0103 e.loss
  countNum s by_ core (Reg.SAT_COUNT core) Fld.SAT_COUNT_COUNT Fld.NUM_THR_SAT_THR 0x0104 e.sat

/-- The invalid results of one instruction (R87, R88): first site, its PC and weight handle, their number, and detail 2. -/
structure InvalidSeen where
  site : Word
  pc : Nat
  handle : Nat
  wHandle : Nat
  count : Nat
  where_ : Nat
deriving DecidableEq, Repr

/-- The first site is kept while VALID is 0, and one NUM_INVALID record is logged (R85, R88). -/
def recordInvalid (s : State) (x l : Nat) (v : Option InvalidSeen) : State :=
  match v with
  | none => s
  | some v =>
    let core := physCore s (getCtx s x).part l
    let s := if flg s (Reg.EXC_SITE core) Fld.EXC_SITE_VALID then s
      else wr (wr s (Reg.EXC_SITE core) v.site) (Reg.EXC_SITE_PC core)
        (putF Fld.EXC_SITE_PC_W_HANDLE v.wHandle (putF Fld.EXC_SITE_PC_PC v.pc 0))
    raiseInstr s x l v.pc 0x0101 sevInfo v.handle v.site.toNat (min v.count (2 ^ 32 - 1)) v.where_ v.wHandle

/-- The overflowing results of one destination (R88): their number and details 0 and 2 of the first. -/
structure OverflowSeen where
  count : Nat
  d0 : Nat
  d2 : Nat
deriving DecidableEq, Repr

/-- One NUM_OVERFLOW record for a destination with SAT = 0 that overflowed (R88). -/
def recordOverflow (s : State) (by_ : NumBy) (v : Option OverflowSeen) : State :=
  match v with
  | none => s
  | some v =>
    if by_.sat then s
    else raiseInstr s by_.x by_.l by_.pc 0x0102 sevInfo by_.destH v.d0 (min v.count (2 ^ 32 - 1)) v.d2
      (fmtSat by_.destFmt by_.sat)

/-- The indices of element `e` of a descriptor as detail 2 of R88 packs them. -/
def elemWhere (d : Desc) (e : Nat) : Nat :=
  let r := e / d.dim0
  e % d.dim0 + (r % d.dim1) * 2 ^ 21 + (r / d.dim1) * 2 ^ 42

/-- One row cast into a destination (R68, R70 to R78, R184, R186): encodings, scale bytes, the exceptions of each element.
`base` is the logical index of the row's first element (R73). -/
structure RowCast where
  codes : List Nat
  scales : List Byte
  excs : List Exc

/-- The blocks of an MX row. -/
def castMxBlocks (fmt : Nat) (rnd : Rnd) (sat : Bool) : Nat → List (FNum × Nat) → RowCast
  | 0, _ => ⟨[], [], []⟩
  | n + 1, vs =>
    let blk := vs.take 32
    let q := quantise fmt rnd sat blk
    let rest := castMxBlocks fmt rnd sat n (vs.drop 32)
    ⟨q.elems ++ rest.codes, BitVec.ofNat 8 q.scale :: rest.scales, q.excs ++ rest.excs⟩

/-- A row of exact values cast into `fmt`; `draw` gives the sr_bits of each element. -/
def castRow (fmt : Nat) (rnd : Rnd) (sat ftz : Bool) (draw : Nat → Nat) (vs : List FNum) : RowCast :=
  let us := vs.zipIdx.map (fun (v, i) => (v, draw i))
  if fmtMx fmt then castMxBlocks fmt rnd sat (vs.length / 32) us
  else
    let rs := us.map (fun (v, u) => castElem fmt rnd u sat ftz v)
    ⟨rs.map (·.1), [], rs.map (·.2)⟩

/-- The exceptions of a list together. -/
def Exc.all (l : List Exc) : Exc := l.foldl Exc.join Exc.zero

/-- The row write of a cast row. -/
def RowCast.out (c : RowCast) (fmt row : Nat) : RowOut := ⟨row, packRow fmt c.codes, c.scales⟩

/-- The first element of `excs` (in the given order) that satisfies a test, and how many do. -/
def countFirst (excs : List Exc) (p : Exc → Bool) : Option (Nat × Nat) :=
  match excs.zipIdx.filter (fun e => p e.1) with
  | [] => none
  | e :: es => some (e.2, es.length + 1)

end Sys2Proof.Machine
end

