-- ==== Sys2Proof/Machine/Issue.lean ====
section
/-! DEFINITION. Issued instructions of a core: engine queues, instructions in flight, tokens and completion (R28, R45, R48). -/

namespace Sys2Proof.Machine

/-! ### What keeps a core from starting anything (R397, R482, R487) -/

/-- STATE of a clock domain (R503). -/
def clkState (s : State) (d : Nat) : Nat := fld s (Reg.CLK_DOM d) Fld.CLK_DOM_STATE

/-- A domain that is held in reset after its PLL lost lock (R397). -/
def clkHeld (s : State) (d : Nat) : Bool := clkState s d == 1 || clkState s d == 3

def getDroop (s : State) (d : Nat) : Droop := (s.pwr.droops.lookup d).getD ⟨false, 0, none, 0, 0⟩

/-- A die in a droop pause: its arrays and vector engines start nothing (R482). -/
def droopPaused (s : State) (d : Nat) : Bool := (getDroop s d).paused

/-- A core whose clock, or the clock of its die's network, is held in reset, or any core after a thermal trip, starts nothing (R397, R487). -/
def coreHeld (s : State) (x l : Nat) : Bool :=
  let d := dieOf (physCore s (getCtx s x).part l)
  s.pins.tripped || clkHeld s d || clkHeld s (4 + d)

/-- An engine that may start nothing now. -/
def engineHeld (s : State) (x l : Nat) (q : EngineQ) : Bool :=
  coreHeld s x l || ((q == .array || q == .vector) && droopPaused s (dieOf (physCore s (getCtx s x).part l)))

/-! ### Queues, tokens, completion -/

/-- The queue of an engine. -/
def Running.queue (r : Running) : EngineQ → List Flight
  | .array => r.array
  | .vector => r.vector
  | .mover0 => r.mover0
  | .mover1 => r.mover1
  | .transposer => r.transposer
  | .comm => r.comm

def Running.setQueue (r : Running) (q : EngineQ) (v : List Flight) : Running :=
  match q with
  | .array => { r with array := v }
  | .vector => { r with vector := v }
  | .mover0 => { r with mover0 := v }
  | .mover1 => { r with mover1 := v }
  | .transposer => { r with transposer := v }
  | .comm => { r with comm := v }

def allQueues : List EngineQ := [.array, .vector, .mover0, .mover1, .transposer, .comm]

/-- The started instruction with number `id`. -/
def Running.inFlight (r : Running) (id : Nat) : Option Flight := r.flying.find? (fun f => f.id == id)

/-- A started instruction replaced. -/
def Running.putFlight (r : Running) (f : Flight) : Running :=
  { r with flying := r.flying.map (fun g => if g.id = f.id then f else g) }

/-- A started instruction removed. -/
def Running.dropFlight (r : Running) (id : Nat) : Running := { r with flying := r.flying.filter (fun g => g.id != id) }

/-- A token counter (R48). -/
def Running.token (r : Running) (t : Nat) : Nat := r.tokens.getD t 0

/-- A token counter set. -/
def Running.setToken (r : Running) (t v : Nat) : Running :=
  if h : t < 32 then { r with tokens := r.tokens.set t v } else r

/-- A post: token 0 posts nothing (R43, R48). -/
def Running.post (r : Running) (t : Nat) : Running := if t = 0 then r else r.setToken t (r.token t + 1)

/-- Whether a wait is satisfied; token 0 waits for nothing. -/
def Running.ready (r : Running) (t : Nat) : Bool := t == 0 || decide (1 ≤ r.token t)

/-- A satisfied wait consumes one post. -/
def Running.consume (r : Running) (t : Nat) : Running := if t = 0 then r else r.setToken t (r.token t - 1)

/-- The token that an issued instruction will post; a deferred pair posts its A.DRN's. -/
def Flight.postTok (f : Flight) : Nat :=
  match f.drn with
  | some (_, w) => w.post
  | none => f.op.post

/-- Instructions issued and not completed. -/
def Running.open_ (r : Running) : List Flight :=
  r.array ++ r.vector ++ r.mover0 ++ r.mover1 ++ r.transposer ++ r.comm ++ r.flying ++ r.seq.toList

/-- Posts of a token issued and not yet made (R48). -/
def Running.pendingPosts (r : Running) (t : Nat) : Nat := (r.open_.filter (fun f => f.postTok = t)).length

/-- Every instruction issued has completed (R48, R114). -/
def Running.quiet (r : Running) : Bool :=
  r.array.isEmpty && r.vector.isEmpty && r.mover0.isEmpty && r.mover1.isEmpty && r.transposer.isEmpty && r.comm.isEmpty
    && r.flying.isEmpty

/-- The started, not yet executed instruction `id` of a core. -/
def startedAt (s : State) (x l id : Nat) : Option (Running × Flight) :=
  match getRun s x l with
  | none => none
  | some r =>
    match r.inFlight id with
    | none => none
    | some f => if f.stage = .started then some (r, f) else none

/-- The instruction `id` has executed and awaits its post (TOKEN_POST). -/
def markExecuted (s : State) (x l id : Nat) : State :=
  match getRun s x l with
  | none => s
  | some r =>
    match r.inFlight id with
    | none => s
    | some f => setRun s x l (some (r.putFlight { f with stage := .executed }))

/-- A task stopped at a poisoned fetch faults its context once everything it had issued has completed (R520). -/
def settlePoison (s : State) (x l : Nat) : State :=
  match getRun s x l with
  | none => s
  | some r => if r.poisonStop && r.quiet && r.seq.isNone then faultInstr s x l r.pc else s

/-- The instruction `id` completes: it leaves the flight list and posts (R48). -/
def completeFlight (s : State) (x l id : Nat) : State :=
  match getRun s x l with
  | none => s
  | some r =>
    match r.inFlight id with
    | none => s
    | some f => settlePoison (setRun s x l (some ((r.dropFlight id).post f.postTok))) x l

/-- An instruction stopped by a fault leaves the flight list without a post (R155). -/
def abandonFlight (s : State) (x l id : Nat) : State :=
  match getRun s x l with
  | none => s
  | some r => setRun s x l (some (r.dropFlight id))

/-- The started instruction `id` changed. -/
def updFlight (s : State) (x l id : Nat) (g : Flight → Flight) : State :=
  match getRun s x l with
  | none => s
  | some r =>
    match r.inFlight id with
    | none => s
    | some f => setRun s x l (some (r.putFlight (g f)))

/-- A scalar register of the running task is written as an instruction completes (R327). -/
def writeG (s : State) (x l : Nat) (i : GReg) (v : Word) : State :=
  match getRun s x l with
  | none => s
  | some r => setRun s x l (some { r with regs := r.regs.setG i v })

/-- The results of an engine's instruction, row by row, for one destination: the row's write, its exceptions element by
element, and the KIND of each invalid element (0 where the exceptions say nothing). -/
structure RowResult where
  out : RowOut
  excs : List Exc

/-- Rows that an instruction has written when it ends: all, or a free number of those before row `limit` (R155). -/
def rowsDone (s : State) (n : Nat) (limit : Option Nat) : Nat × State :=
  match limit with
  | none => (n, s)
  | some k => (Config.freeWrites s.free % (k + 1), { s with free := s.free + 1 })

/-- An engine's instruction ends: executed, or stopped by poisoned data with its context FAULTED (R155). -/
def endEngine (s : State) (x l id pc : Nat) (limit : Option Nat) : State :=
  match limit with
  | none => markExecuted s x l id
  | some _ => faultInstr (abandonFlight s x l id) x l pc

end Sys2Proof.Machine
end

