-- ==== Sys2Proof/Machine/Arrays.lean ====
section
/-! DEFINITION. The array family (R91 to R109, R165 to R179): operand checks, start conditions, weight sets, products and
drains. -/

namespace Sys2Proof.Machine

/-! ### Shapes (R92, R93, R172, R173) -/

/-- The format class of a matrix operand (R92): Kmax; none for formats that are never matrix operands. -/
def arrKmax (fmt : Nat) : Option Nat :=
  match fmt with
  | 0x00 => some 8
  | 0x01 => some 64
  | 0x02 => some 64
  | 0x09 => some 256
  | 0x0D => some 256
  | 0x0E => some 256
  | 0x0F => none
  | 0x10 => none
  | _ => some 128

/-- N of NSEL (R93). -/
def arrN (o : AOps) : Nat := 128 / 2 ^ o.nsel.val

/-- K per pass of KSEL in a class (R93). -/
def arrK (o : AOps) (kmax : Nat) : Nat := kmax / 2 ^ o.ksel.val

/-- The arrays of a mask, ascending (R94). -/
def arrMask (m : Fin 16) : List Nat := bitList 4 m.val

/-- The count word (R172). -/
structure ArrCount where
  m : Nat
  p : Nat
  kq : Nat
  nq : Nat
  zero : Bool

def arrCount (w : Word) : ArrCount := ⟨bitsOf 15 0 w, bitsOf 28 16 w, bitsOf 44 29 w, bitsOf 61 45 w, decide (bitsOf 63 62 w = 0)⟩

/-- Step 3 for a destination of a product (R109, R173, R179). -/
def arrDest (g : TaskRegs) (t : TReg) (outs rows : Nat) : List (Option Refuse) :=
  let d := g.getT t
  let need (b : Bool) : Option Refuse := if b then none else some (refShape t)
  [need (d.legal true), need (!(d.format == 0x0F || d.format == 0x10)), need (decide (d.dim0 = outs) && decide (d.rows = rows)),
   need (!fmtMx d.format || decide (32 ≤ outs))]

/-- Outputs per row of a product (R175). -/
def arrOuts (mult : Bool) (o : AOps) (kmax : Nat) : Nat := if mult then arrK o kmax else arrN o

/-- Step 3 of A.LDW (R109, R172, R173). -/
def ldwStep3 (g : TaskRegs) (o : AOps) : Option Refuse :=
  let tw := g.getT o.tw
  let c := arrCount (g.getG o.gc)
  let need (b : Bool) (t : Nat) : Option Refuse := if b then none else some (refShape t)
  match arrKmax tw.format with
  | none => some (refShape o.tw)
  | some km => firstRefusal
      [need (o.mask.val != 0) 0xFF, need c.zero 0xFF, need (tw.legal false) o.tw,
       need (decide (tw.dim2 = 1) && decide ((c.nq + 1) * arrN o ≤ tw.dim1) && decide ((c.kq + 1) * arrK o km ≤ tw.dim0)) o.tw]

/-- Step 3 of A.MUL and A.MULT, without the destination of a deferred product (R109, R172, R173, R177). -/
def mulStep3 (mult : Bool) (g : TaskRegs) (o : AOps) (post : Nat) : Option Refuse :=
  let ta := g.getT o.ta
  let tw := g.getT o.tw
  let c := arrCount (g.getG o.gc)
  let need (b : Bool) (t : Nat) : Option Refuse := if b then none else some (refShape t)
  match arrKmax ta.format with
  | none => some (refShape o.ta)
  | some km =>
    let n := arrN o
    let k := arrK o km
    let inner := if mult then n else k
    firstRefusal
      ([need (o.mask.val != 0) 0xFF, need c.zero 0xFF, need (decide (c.p ≤ 4096)) 0xFF, need (ta.legal false) o.ta,
        need (o.strm || (decide (c.p ≤ 1) && decide (c.kq = 0) && decide (c.nq = 0))) 0xFF,
        need (decide (ta.dim0 = (if o.strm then c.p else 1) * inner) && decide (ta.rows = c.m)) o.ta,
        need (!(mult && fmtMx ta.format) || decide (32 ≤ n)) o.ta]
        ++ (if o.strm then
              [need (tw.legal false) o.tw, need (arrKmax tw.format == some km && decide (tw.dim2 = 1)) o.tw,
               need (decide ((c.nq + (if mult then c.p else 1)) * n ≤ tw.dim1)
                 && decide ((c.kq + (if mult then 1 else c.p)) * k ≤ tw.dim0)) o.tw]
            else [])
        ++ (if o.defer then
              [need (decide (c.m ≤ 256 * (arrMask o.mask).length) && decide (post = 0)) 0xFF]
            else arrDest g o.td (arrOuts mult o km) c.m))

/-- A product with M = 0 or P = 0, or an operand without elements, only waits and posts (R52, R172). -/
def mulZero (g : TaskRegs) (o : AOps) : Bool :=
  let c := arrCount (g.getG o.gc)
  decide (c.m = 0) || decide (c.p = 0) || decide ((g.getT o.ta).count = 0) || (o.strm && decide ((g.getT o.tw).count = 0))
    || (!o.defer && decide ((g.getT o.td).count = 0))

/-- The sources of a product. -/
def mulSources (g : TaskRegs) (o : AOps) : List Desc := g.getT o.ta :: (if o.strm then [g.getT o.tw] else [])

/-- Step 5 of a product with DEFER = 0 (R41, R53, R168). DESIGN CHOICE (log entry 66): TA is judged before TW and TD. -/
def mulStep5 (s : State) (x l : Nat) (k : TaskKind) (g : TaskRegs) (o : AOps) : Option Refuse :=
  firstRefusal
    ((mulSources g o).map (accessCheck s x l k false)
      ++ (if o.defer then [] else
            [accessCheck s x l k true (g.getT o.td), overlapCheck s x l false (g.getT o.td) (mulSources g o)]))

/-- The A.DRN that must follow a deferred product (R100, R109, R177). -/
def drnMatches (w : CWord) (o : AOps) (d : CWord) : Option DrnOps :=
  match d.instr with
  | .aDrn q => if q.mask = o.mask ∧ d.wait = 0 ∧ d.pred = w.pred ∧ d.pneg = w.pneg then some q else none
  | _ => none

/-- Step 3 of the A.DRN of a pair (R109, R179). -/
def drnStep3 (mult : Bool) (g : TaskRegs) (o : AOps) (q : DrnOps) : Option Refuse :=
  match arrKmax (g.getT o.ta).format with
  | none => none
  | some km =>
    let m := (arrCount (g.getG o.gc)).m
    firstRefusal (arrDest g q.td0 (arrOuts mult o km) m ++ (if q.en1 then arrDest g q.td1 (arrOuts mult o km) m else []))

/-- Step 5 of the A.DRN alone (R41, R53). -/
def drnStep5 (s : State) (x l : Nat) (k : TaskKind) (g : TaskRegs) (q : DrnOps) : Option Refuse :=
  firstRefusal (accessCheck s x l k true (g.getT q.td0) :: (if q.en1 then [accessCheck s x l k true (g.getT q.td1)] else []))

/-- R168 over the pair. -/
def pairOverlap (s : State) (x l : Nat) (g : TaskRegs) (o : AOps) (q : DrnOps) : Option Refuse :=
  let srcs := mulSources g o
  firstRefusal (overlapCheck s x l false (g.getT q.td0) srcs
    :: (if q.en1 then
          [overlapCheck s x l false (g.getT q.td1) srcs, overlapCheck s x l false (g.getT q.td0) [g.getT q.td1]]
        else []))

/-! ### Register sets and starting (R101 to R105) -/

/-- The array operands of an instruction. -/
def arrOpsOf : CInstr → Option AOps
  | .aLdw o => some o
  | .aSwp o => some o
  | .aMul o => some o
  | .aMult o => some o
  | _ => none

/-- Whether an instruction takes the shadow sets, and the active sets, of its mask (R105). -/
def arrUses (i : CInstr) : Bool × Bool :=
  match i with
  | .aLdw _ => (true, false)
  | .aSwp _ => (true, true)
  | .aMul o => (o.strm, true)
  | .aMult o => (o.strm, true)
  | _ => (false, false)

/-- Whether an instruction only reads active sets. -/
def arrResident (i : CInstr) : Bool :=
  match i with
  | .aMul o => !o.strm
  | .aMult o => !o.strm
  | _ => false

/-- Two array instructions need one register set (R105). -/
def arrConflict (a b : CInstr) : Bool :=
  match arrOpsOf a, arrOpsOf b with
  | some p, some q =>
    decide (p.mask.val &&& q.mask.val ≠ 0)
      && (((arrUses a).1 && (arrUses b).1) || ((arrUses a).2 && (arrUses b).2 && !(arrResident a && arrResident b)))
  | _, _ => false

/-- The sets that the started instructions of the core leave free are those this one needs (R105). -/
def arrFree (r : Running) (i : CInstr) : Bool := !(r.flying.any (fun f => f.stage == .started && f.live && arrConflict f.op.instr i))

/-- The register sets of array `a` of a core. -/
def arrSets (k : CoreCtx) (a : Nat) : ArrSets :=
  let e : WSet := ⟨.empty, none, []⟩
  k.arrays.getD a ⟨e, e⟩

/-- The register sets of the masked arrays changed. -/
def mapArrays (k : CoreCtx) (mask : Fin 16) (f : ArrSets → ArrSets) : CoreCtx :=
  { k with arrays := k.arrays.zipIdx.map (fun (v, a) => if mask.val.testBit a then f v else v) }

def WSet.none : WSet := ⟨.empty, Option.none, []⟩

/-- How an instruction at the head of the array queue may start. -/
inductive StartAs where
  | waits
  | starts
  | refused (r : Refuse)

/-- The start rules of R103, R105 and R173 for a live array instruction. DESIGN CHOICE (log entry 68): an EMPTY shadow set is
judged when the A.SWP at the head could start, its token satisfied and its sets free, as the other refusals at start are. -/
def arrStart (k : CoreCtx) (r : Running) (f : Flight) : StartAs :=
  if !arrFree r f.op.instr then .waits
  else match f.op.instr with
    | .aSwp o =>
      let sh := (arrMask o.mask).map (fun a => (arrSets k a).shadow.st)
      if sh.any (· == .loading) then .waits else if sh.any (· == .empty) then .refused refShape0 else .starts
    | .aMul o | .aMult o =>
      if o.strm then .starts
      else
        let recs := (arrMask o.mask).map (fun a => (arrSets k a).active)
        match recs with
        | [] => .refused refShape0
        | w :: ws =>
          match w.loaded with
          | none => .refused refShape0
          | some q =>
            if w.st != .ready || ws.any (fun v => v.st != .ready || v.loaded.map (·.load) != some q.load) then .refused refShape0
            else if q.nsel = o.nsel.val ∧ q.ksel = o.ksel.val ∧ arrKmax q.desc.format = arrKmax (f.regs.getT o.ta).format then .starts
            else .refused refShape0
    | _ => .starts

/-- What starting does to the register sets: a load makes its shadow sets LOADING (R102). -/
def arrOnStart (k : CoreCtx) (i : CInstr) : CoreCtx :=
  match i with
  | .aLdw o => mapArrays k o.mask (fun v => { v with shadow := { v.shadow with st := .loading } })
  | _ => k

/-- The elements `e .. e + k − 1` of row `r` of a weight descriptor. -/
def weightRow (s : State) (base : Nat) (d : Desc) (ftz : Bool) (r e k : Nat) : List FNum := ((rowNums s base d ftz r).drop e).take k

/-- A weight set: N columns of K elements (R101, R173). -/
def weightSet (s : State) (base : Nat) (d : Desc) (ftz : Bool) (row n e k : Nat) : List (List FNum) :=
  (List.range n).map (fun j => weightRow s base d ftz (row + j) e k)

/-- Whether the bytes of a weight set are poisoned. -/
def weightPoisoned (s : State) (base : Nat) (d : Desc) (row n e k : Nat) : Bool :=
  (List.range n).any fun j =>
    poisoned s (d.rowAddr base (row + j) + e * fmtBits d.format / 8) (k * fmtBits d.format / 8)
      || (fmtMx d.format && poisoned s ((d.rowPlane base (row + j)).1 + e / 32) (k / 32))

/-- The reads of a weight set. -/
def weightTouches (s : State) (x l : Nat) (d : Desc) (row n e k : Nat) : List Touch :=
  let base := (handleOf s x l d.handle).base
  (List.range n).flatMap fun j =>
    [⟨d.handle, d.rowAddr base (row + j) + e * fmtBits d.format / 8, k * fmtBits d.format / 8⟩,
     ⟨d.handle, (d.rowPlane base (row + j)).1 + e / 32, if fmtMx d.format then k / 32 else 0⟩]

/-- K of a load record's set. -/
def LoadRec.k (q : LoadRec) : Nat := (arrKmax q.desc.format).getD 0 / 2 ^ q.ksel
def LoadRec.n (q : LoadRec) : Nat := 128 / 2 ^ q.nsel

/-- The columns of a load record read from memory (R101, R102). -/
def loadCols (s : State) (x l : Nat) (q : LoadRec) : List (List FNum) :=
  weightSet s (handleOf s x l q.desc.handle).base q.desc (ftzOf s x) q.row q.n q.elem q.k

/-- A READY set is reloaded from its load record; an EMPTY one stays EMPTY (R102). -/
def reloadSet (s : State) (x l : Nat) (w : WSet) : WSet :=
  match w.st, w.loaded with
  | .ready, some q => { w with cols := loadCols s x l q }
  | _, _ => w

/-- The reload of a core's register sets when its context returns (R102). DESIGN CHOICE (log entry 68): it takes place as the
slice starts, and takes poisoned bytes as data. -/
def reloadCore (s : State) (x l : Nat) : State :=
  let k := getCore s x l
  setCore s x l { k with arrays := k.arrays.map (fun v => ⟨reloadSet s x l v.active, reloadSet s x l v.shadow⟩) }

/-! ### A.LDW and A.SWP -/

/-- What an A.LDW's reads meet (R151, R155 to R158, R164). -/
def ldwMeet (s : State) (x l : Nat) (f : Flight) (o : AOps) (ecc : List EccEvent) : State :=
  let tw := f.regs.getT o.tw
  let c := arrCount (f.regs.getG o.gc)
  let n := arrN o
  let k := arrK o ((arrKmax tw.format).getD 0)
  meet s x l false (weightTouches s x l tw (c.nq * n) n (c.kq * k) k) [] ecc

/-- A started A.LDW completes its load (R101, R174); poisoned weights stop it (R155). -/
def runLdw (s : State) (x l : Nat) (f : Flight) (o : AOps) : State :=
  let tw := f.regs.getT o.tw
  let c := arrCount (f.regs.getG o.gc)
  let km := (arrKmax tw.format).getD 0
  let n := arrN o
  let k := arrK o km
  let base := (handleOf s x l tw.handle).base
  if weightPoisoned s base tw (c.nq * n) n (c.kq * k) k then
    let core := getCore s x l
    let s := setCore s x l (mapArrays core o.mask (fun v => { v with shadow := WSet.none }))
    faultInstr (abandonFlight s x l f.id) x l f.pc
  else
    let q : LoadRec := ⟨(getCtx s x).loads, tw, o.nsel.val, o.ksel.val, c.nq * n, c.kq * k⟩
    let w : WSet := ⟨.ready, some q, loadCols s x l q⟩
    let s := setCtx s x { getCtx s x with loads := (getCtx s x).loads + 1 }
    let s := setCore s x l (mapArrays (getCore s x l) o.mask (fun v => { v with shadow := w }))
    markExecuted s x l f.id

/-- A started A.SWP exchanges its sets (R103). DEDUCED (log entry 68): an active set that was EMPTY holds no weights to be READY
with, and the shadow set it becomes is EMPTY. -/
def runSwp (s : State) (x l : Nat) (f : Flight) (o : AOps) : State :=
  markExecuted (setCore s x l (mapArrays (getCore s x l) o.mask (fun v => ⟨v.shadow, v.active⟩))) x l f.id

/-! ### Products (R95 to R97, R107, R175) -/

/-- A product term: its value, and whether it is 0 × ∞. -/
def arrTerm (a w : FNum) : FNum × Bool := (a.mul w, a.mulInvalid w)

/-- The result of a pass: exact and rounded once in the 4-bit and 8-bit classes (R95), a balanced tree over `positions`
logical positions otherwise (R96, R107). -/
def passResult (exact : Bool) (levels : Nat) (ts : List (FNum × Bool)) : FNum :=
  let vs := ts.map (·.1)
  if exact then acc80 (FNum.sum vs)
  else treeSum levels (vs ++ List.replicate (2 ^ levels - vs.length) (.fin false 0 0))

/-- R87 within one pass: infinities seen in this pass (`p`, `n`) and in earlier passes (`ap`, `an`). The outcome is decided
(some) or still open (none, with the infinities seen). -/
def sitePass (ap an : Bool) : List (FNum × Bool) → Bool → Bool → Nat → Option (Option Site) × Bool × Bool
  | [], p, n, _ => (none, p, n)
  | (v, bad) :: ts, p, n, k =>
    if bad then (some (some ⟨1, k⟩), p, n)
    else match v with
      | .nan => (some none, p, n)
      | .inf neg =>
        if (neg && p) || (!neg && n) then (some (some ⟨2, k⟩), p, n)
        else if (neg && ap) || (!neg && an) then (some (some ⟨2, 0x1FF⟩), p, n)
        else sitePass ap an ts (p || !neg) (n || neg) (k + 1)
      | .fin .. => sitePass ap an ts p n (k + 1)

/-- R87 across the passes of an instruction. -/
def siteOf : List (List (FNum × Bool)) → Bool → Bool → Option Site
  | [], _, _ => none
  | t :: ts, ap, an =>
    match sitePass ap an t false false 0 with
    | (some r, _, _) => r
    | (none, p, n) => siteOf ts (ap || p) (an || n)

/-- The accumulator after all passes (R97). -/
def accumulate : List FNum → FNum
  | [] => .fin false 0 0
  | v :: vs => vs.foldl (fun a p => acc80 (FNum.sum [a, p])) v

/-- One output: the terms of each pass, combined. -/
def arrOutput (exact : Bool) (levels : Nat) (terms : List (List (FNum × Bool))) : FNum × Option Site :=
  (accumulate (terms.map (passResult exact levels)), siteOf terms false false)

/-- Column `j` of a set. -/
def setColumn (w : List (List FNum)) (j : Nat) : List FNum := w.getD j []

/-- K position `k` of a set, along its columns (R107). -/
def setPosition (w : List (List FNum)) (k : Nat) : List FNum := w.map (fun c => c.getD k (.fin false 0 0))

/-- The terms of output `j` in each pass for one activation row, cut into the pass slices (R175). -/
def outputTerms (mult : Bool) (inner : Nat) (row : List FNum) (sets : List (List (List FNum))) (j : Nat) :
    List (List (FNum × Bool)) :=
  sets.zipIdx.map fun (w, p) =>
    let a := (row.drop (p * inner)).take inner
    let b := if mult then setPosition w j else setColumn w j
    (a.zip b).map (fun (u, v) => arrTerm u v)

/-- A row of a product in the accumulators (R91). -/
def accRow (mult : Bool) (o : AOps) (km : Nat) (row : List FNum) (sets : List (List (List FNum))) : AccRow :=
  let exact := decide (128 ≤ km)
  let levels := if mult then 7 else Nat.log2 km
  let inner := if mult then arrN o else arrK o km
  let outs := (List.range (arrOuts mult o km)).map (fun j => arrOutput exact levels (outputTerms mult inner row sets j))
  ⟨outs.map (·.1), outs.map (·.2)⟩

/-- The load records of a streamed product's passes (R104, R173). -/
def streamRecs (s : State) (x : Nat) (mult : Bool) (f : Flight) (o : AOps) : List LoadRec :=
  let tw := f.regs.getT o.tw
  let c := arrCount (f.regs.getG o.gc)
  let n := arrN o
  let k := arrK o ((arrKmax tw.format).getD 0)
  (List.range c.p).map fun p =>
    ⟨(getCtx s x).loads, tw, o.nsel.val, o.ksel.val, (c.nq + if mult then p else 0) * n, (c.kq + if mult then 0 else p) * k⟩

/-- The load record of the active set that a product's drain uses (R68, R99). -/
def prodRec (s : State) (x l : Nat) (mult : Bool) (f : Flight) (o : AOps) : Option LoadRec :=
  if o.strm then (streamRecs s x mult f o).getLast?
  else (arrSets (getCore s x l) ((arrMask o.mask).headD 0)).active.loaded

/-- The weight sets of a product's passes. -/
def prodSets (s : State) (x l : Nat) (mult : Bool) (f : Flight) (o : AOps) : List (List (List FNum)) :=
  if o.strm then (streamRecs s x mult f o).map (loadCols s x l)
  else [(arrSets (getCore s x l) ((arrMask o.mask).headD 0)).active.cols]

/-- The first row a product cannot form because its activation, or a streamed weight, is poisoned (R155). -/
def prodPoison (s : State) (x l : Nat) (mult : Bool) (f : Flight) (o : AOps) : Option Nat :=
  let ta := f.regs.getT o.ta
  let base := (handleOf s x l ta.handle).base
  if o.strm && (streamRecs s x mult f o).any (fun q =>
      weightPoisoned s (handleOf s x l q.desc.handle).base q.desc q.row q.n q.elem q.k) then some 0
  else firstBelow ta.rows (rowPoisoned s base ta)

/-- What a product's accesses meet (R151, R155 to R158, R164): its activations, its weights where it streams them, and its
destination where it drains itself. -/
def prodMeet (s : State) (x l : Nat) (mult : Bool) (f : Flight) (o : AOps) (ecc : List EccEvent) : State :=
  let ta := f.regs.getT o.ta
  let ws := if o.strm then (streamRecs s x mult f o).flatMap (fun q => weightTouches s x l q.desc q.row q.n q.elem q.k) else []
  meet s x l false (descTouches s x l ta ++ ws) (if o.defer then [] else [f.regs.getT o.td]) ecc

/-- The first `n` rows of a product. -/
def prodRows (s : State) (x l : Nat) (mult : Bool) (f : Flight) (o : AOps) (n : Nat) : List AccRow :=
  let ta := f.regs.getT o.ta
  let base := (handleOf s x l ta.handle).base
  let km := (arrKmax ta.format).getD 0
  let sets := prodSets s x l mult f o
  (List.range n).map (fun r => accRow mult o km (rowNums s base ta (ftzOf s x) r) sets)

/-- A streamed product leaves its last set active and READY and the shadow sets EMPTY (R102, R104). -/
def afterStream (s : State) (x l : Nat) (mult : Bool) (f : Flight) (o : AOps) : State :=
  if o.strm then
    match (streamRecs s x mult f o).getLast? with
    | none => s
    | some q =>
      let w : WSet := ⟨.ready, some q, loadCols s x l q⟩
      let s := setCtx s x { getCtx s x with loads := (getCtx s x).loads + 1 }
      setCore s x l (mapArrays (getCore s x l) o.mask (fun _ => ⟨w, WSet.none⟩))
  else s

/-! ### Drains (R68, R99, R176, R179) and their exceptions (R85 to R88) -/

/-- One destination of a drain. -/
structure DrainTo where
  td : Desc
  rnd : Rnd
  sat : Bool
  tid : Nat

/-- A row drained into one destination: acc × sA × sB × sOut, exactly, cast once (R68). -/
def drainRow (ftz : Bool) (seed : Nat) (sA sB : FNum) (d : DrainTo) (r : Nat) (a : AccRow) : RowCast :=
  let vs := a.vals.map (fun v => ((v.mul sA).mul sB).mul d.td.scaleNum)
  let draw (i : Nat) : Nat := if d.rnd = .sr then srBits seed d.tid (r * d.td.dim0 + i) else 0
  castRow d.td.format d.rnd d.sat ftz draw vs

/-- The KIND and KIDX of each invalid result of a row: the site of the sum, or the integer cast (R87). -/
def rowSites (a : AccRow) (casts : List RowCast) : List (Option Site) :=
  a.sites.zipIdx.map fun (st, i) =>
    match st with
    | some v => some v
    | none => if casts.any (fun c => (c.excs.getD i Exc.zero).invalid) then some ⟨4, 0x1FF⟩ else none

/-- The first invalid result of the rows, as row, column and site, and how many there are (R87). -/
def firstSite : List (List (Option Site)) → Nat → Option (Nat × Nat × Site) × Nat
  | [], _ => (none, 0)
  | row :: rows, r =>
    let here := row.zipIdx.filterMap (fun (v, c) => v.map (fun st => (r, c, st)))
    let (more, n) := firstSite rows (r + 1)
    (here.head?.orElse (fun _ => more), here.length + n)

/-- The drain of rows into its destinations, with exceptions: `prodPc` is the product's PC, `pc` that of the instruction
that drains, `q` the load record of the active set. -/
def runDrain (s : State) (x l : Nat) (pc prodPc : Nat) (mask : Fin 16) (ta : Desc) (q : Option LoadRec) (rows : List AccRow)
    (dests : List DrainTo) : State :=
  let ftz := ftzOf s x
  let seed := seedOf s x
  let sA := ta.scaleNum
  let (sB, wh) := match q with
    | some q => (q.desc.scaleNum, q.desc.handle)
    | none => (.fin false 1 0, 0)
  let casts := dests.map (fun d => (d, rows.zipIdx.map (fun (a, r) => drainRow ftz seed sA sB d r a)))
  let sites := rows.zipIdx.map (fun (a, r) => rowSites a (casts.filterMap (fun c => c.2[r]?)))
  let s := casts.foldl (fun s c => writeRows s x l c.1.td (c.2.zipIdx.map (fun (v, r) => v.out c.1.td.format r))) s
  let inval := (firstSite sites 0).1.isSome
  let s := casts.foldl (fun s c =>
    let e := Exc.all (c.2.flatMap (·.excs))
    recordExc s ⟨x, l, pc, c.1.td.handle, c.1.td.format, c.1.sat⟩ { e with invalid := e.invalid || inval }) s
  let s := match firstSite sites 0 with
    | (none, _) => s
    | (some (r, c, st), n) =>
      let arrs := arrMask mask
      let at_ := if st.kind = 4 then pc else prodPc
      recordInvalid s x l (some
        { site := siteWord st.kind (arrs.getD (r % max arrs.length 1) 0) st.kidx c r ta.handle x, pc := at_, handle := ta.handle,
          wHandle := wh, count := n, where_ := 0 })
  casts.foldl (fun s c =>
    let d := c.1
    recordOverflow s ⟨x, l, pc, d.td.handle, d.td.format, d.sat⟩
      ((countFirst (c.2.flatMap (·.excs)) (·.overflow)).map fun (i, n) =>
        ⟨n, i / d.td.dim0 % 65536 + (i % d.td.dim0) % 256 * 65536, elemWhere d.td i⟩)) s

/-- A started product: drained at once, or, deferred, left in the accumulators for its A.DRN (R100, R175, R176). -/
def runProduct (s : State) (x l : Nat) (mult : Bool) (f : Flight) (o : AOps) : State :=
  let ta := f.regs.getT o.ta
  let limit := prodPoison s x l mult f o
  if o.defer then
    match limit with
    | some _ => faultInstr (abandonFlight s x l f.id) x l f.pc
    | none =>
      if f.acc.isEmpty then
        let rows := prodRows s x l mult f o ta.rows
        let s := afterStream s x l mult f o
        match getRun s x l with
        | none => s
        | some r => setRun s x l (some (r.putFlight { f with acc := rows }))
      else s
  else
    let (n, s1) := rowsDone s ta.rows limit
    let rows := prodRows s x l mult f o n
    let q := prodRec s x l mult f o
    let s2 := runDrain s1 x l f.pc f.pc o.mask ta q rows [⟨f.regs.getT o.td, o.rnd, o.sat, (f.regs.getG o.gt).toNat⟩]
    let s3 := if limit.isNone then afterStream s2 x l mult f o else s2
    endEngine s3 x l f.id f.pc limit

/-- A drain's writes pass through the comb store (R164), once its product stands in the accumulators. -/
def drnMeet (s : State) (x l : Nat) (f : Flight) (q : DrnOps) : State :=
  if f.acc.isEmpty then s
  else meet s x l false [] (f.regs.getT q.td0 :: if q.en1 then [f.regs.getT q.td1] else []) []

/-- The A.DRN of a started pair whose product stands in the accumulators (R178, R179). -/
def runDrn (s : State) (x l : Nat) (f : Flight) (o : AOps) (q : DrnOps) : State :=
  if f.acc.isEmpty then s
  else
    let tid := (f.regs.getG q.gt).toNat
    let dests : List DrainTo := ⟨f.regs.getT q.td0, q.rnd0, q.sat0, tid⟩
      :: (if q.en1 then [⟨f.regs.getT q.td1, q.rnd1, q.sat1, (tid + 1) % 2 ^ 64⟩] else [])
    let rec_ := (arrSets (getCore s x l) ((arrMask o.mask).headD 0)).active.loaded
    let s := runDrain s x l (f.pc + 8) f.pc o.mask (f.regs.getT o.ta) rec_ f.acc dests
    markExecuted s x l f.id

/-- A product's command: once the accumulators of a deferred product stand, nothing further is read (R100). -/
def productCmd (s : State) (x l : Nat) (mult : Bool) (f : Flight) (o : AOps) (ecc : List EccEvent) : State :=
  if o.defer && !f.acc.isEmpty then s else runProduct (prodMeet s x l mult f o ecc) x l mult f o

def execALdw (x l id : Nat) (ecc : List EccEvent) (s : State) : Host.Outcome State Fault Refusal :=
  match startedAt s x l id with
  | some (_, f) => match f.op.instr with
    | .aLdw o => .next (runLdw (ldwMeet s x l f o ecc) x l f o)
    | _ => .next s
  | none => .next s

def execASwp (x l id : Nat) (s : State) : Host.Outcome State Fault Refusal :=
  match startedAt s x l id with
  | some (_, f) => match f.op.instr with
    | .aSwp o => .next (runSwp s x l f o)
    | _ => .next s
  | none => .next s

def execAMul (x l id : Nat) (ecc : List EccEvent) (s : State) : Host.Outcome State Fault Refusal :=
  match startedAt s x l id with
  | some (_, f) => match f.op.instr with
    | .aMul o => .next (productCmd s x l false f o ecc)
    | _ => .next s
  | none => .next s

def execAMult (x l id : Nat) (ecc : List EccEvent) (s : State) : Host.Outcome State Fault Refusal :=
  match startedAt s x l id with
  | some (_, f) => match f.op.instr with
    | .aMult o => .next (productCmd s x l true f o ecc)
    | _ => .next s
  | none => .next s

def execADrn (x l id : Nat) (s : State) : Host.Outcome State Fault Refusal :=
  match startedAt s x l id with
  | some (_, f) => match arrOpsOf f.op.instr, f.drn with
    | some o, some (_, w) => match w.instr with
      | .aDrn q => .next (runDrn (drnMeet s x l f q) x l f o q)
      | _ => .next s
    | _, _ => .next s
  | none => .next s

end Sys2Proof.Machine
end

