-- ==== Sys2Proof/Machine/Sha.lean ====
section
/-! DEFINITION. The hash functions that the spec names (R56, R129, R460 to R467): SHA-384 and SHA-256 of FIPS 180-4 and HMAC-SHA-384
of FIPS 198-1. A digest is 48 bytes, held as a number whose byte i is byte i of the digest (R519). -/

namespace Sys2Proof.Machine

/-! ### What SHA-256 and SHA-512 share (FIPS 180-4, 5 and 6) -/

/-- A number as `n` bytes, most significant first. -/
def beBytes (n v : Nat) : List Byte := (leBytes n v).reverse

/-- The number that bytes spell, most significant first. -/
def ofBeBytes (bs : List Byte) : Nat := bs.foldl (fun a b => a * 256 + b.toNat) 0

/-- `k x`, with `x` computed first. -/
def withValue {n : Nat} {α : Type} (x : BitVec n) (k : BitVec n → α) : α :=
  match x.toNat with
  | 0 => k 0
  | m + 1 => k (BitVec.ofNat n (m + 1))

/-- `k bs`, with every byte of `bs` computed first. -/
def withBytes {α : Type} : List Byte → (List Byte → α) → α
  | [], k => k []
  | b :: bs, k => withValue b (fun b => withBytes bs (fun bs => k (b :: bs)))

/-- The eight working variables. -/
structure Sha2Vars (n : Nat) where
  a : BitVec n
  b : BitVec n
  c : BitVec n
  d : BitVec n
  e : BitVec n
  f : BitVec n
  g : BitVec n
  h : BitVec n
deriving DecidableEq, Repr

/-- The four functions of a word that differ between the two: the two Σ of a round and the two σ of the message schedule. -/
structure Sha2Mix (n : Nat) where
  big0 : Nat × Nat × Nat
  big1 : Nat × Nat × Nat
  small0 : Nat × Nat × Nat
  small1 : Nat × Nat × Nat
deriving DecidableEq, Repr

/-- Σ: three rotations. -/
def shaBig {n : Nat} (r : Nat × Nat × Nat) (x : BitVec n) : BitVec n :=
  x.rotateRight r.1 ^^^ x.rotateRight r.2.1 ^^^ x.rotateRight r.2.2

/-- σ: two rotations and a shift. -/
def shaSmall {n : Nat} (r : Nat × Nat × Nat) (x : BitVec n) : BitVec n :=
  x.rotateRight r.1 ^^^ x.rotateRight r.2.1 ^^^ (x >>> r.2.2)

/-- The rounds of a block: the constants left, the 16 words of the message schedule from this round on, the working variables. -/
def sha2Rounds {n : Nat} (m : Sha2Mix n) : List (BitVec n) → List (BitVec n) → Sha2Vars n → Sha2Vars n
  | k :: ks, [w0, w1, w2, w3, w4, w5, w6, w7, w8, w9, w10, w11, w12, w13, w14, w15], v =>
    withValue (v.h + shaBig m.big1 v.e + ((v.e &&& v.f) ^^^ (~~~v.e &&& v.g)) + k + w0) (fun t1 =>
    withValue (t1 + shaBig m.big0 v.a + ((v.a &&& v.b) ^^^ (v.a &&& v.c) ^^^ (v.b &&& v.c))) (fun a =>
    withValue (v.d + t1) (fun e =>
    withValue (shaSmall m.small1 w14 + w9 + shaSmall m.small0 w1 + w0) (fun w16 =>
    sha2Rounds m ks [w1, w2, w3, w4, w5, w6, w7, w8, w9, w10, w11, w12, w13, w14, w15, w16] ⟨a, v.a, v.b, v.c, e, v.e, v.f, v.g⟩))))
  | _, _, v => v

/-- The words of a block, each of `n` bits, most significant byte first. -/
def sha2Words (n : Nat) : Nat → List Byte → List (BitVec n)
  | 0, _ => []
  | k + 1, bs => withValue (BitVec.ofNat n (ofBeBytes (bs.take (n / 8)))) (fun w => w :: sha2Words n k (bs.drop (n / 8)))

/-- The hash value after a block. -/
def sha2Block {n : Nat} (m : Sha2Mix n) (ks : List (BitVec n)) (v : Sha2Vars n) (block : List Byte) : Sha2Vars n :=
  let r := sha2Rounds m ks (sha2Words n 16 block) v
  withValue (v.a + r.a) (fun a => withValue (v.b + r.b) (fun b => withValue (v.c + r.c) (fun c => withValue (v.d + r.d) (fun d =>
  withValue (v.e + r.e) (fun e => withValue (v.f + r.f) (fun f => withValue (v.g + r.g) (fun g => withValue (v.h + r.h) (fun h =>
    ⟨a, b, c, d, e, f, g, h⟩))))))))

/-- The hash value after `k` blocks of 2n bytes. -/
def sha2Blocks {n : Nat} (m : Sha2Mix n) (ks : List (BitVec n)) : Nat → List Byte → Sha2Vars n → Sha2Vars n
  | 0, _, v => v
  | k + 1, bs, v => sha2Blocks m ks k (bs.drop (2 * n)) (sha2Block m ks v (bs.take (2 * n)))

/-- The padded message: a bit 1, zeros, and the length in bits in the last n ÷ 4 bytes of a block of 2n bytes. -/
def sha2Pad (n : Nat) (msg : List Byte) : List Byte :=
  let used := msg.length + 1 + n / 4
  msg ++ [0x80] ++ List.replicate (ceilDiv used (2 * n) * (2 * n) - used) 0 ++ beBytes (n / 4) (8 * msg.length)

/-- The hash value of a message. -/
def sha2 {n : Nat} (m : Sha2Mix n) (ks : List (BitVec n)) (init : Sha2Vars n) (msg : List Byte) : Sha2Vars n :=
  sha2Blocks m ks (ceilDiv (msg.length + 1 + n / 4) (2 * n)) (sha2Pad n msg) init

/-! ### SHA-384 -/

/-- The 80 constants of SHA-512: the first 64 bits of the fractional parts of the cube roots of the first 80 primes. -/
def sha512Consts : List (BitVec 64) :=
  ([0x428A2F98D728AE22, 0x7137449123EF65CD, 0xB5C0FBCFEC4D3B2F, 0xE9B5DBA58189DBBC,
    0x3956C25BF348B538, 0x59F111F1B605D019, 0x923F82A4AF194F9B, 0xAB1C5ED5DA6D8118,
    0xD807AA98A3030242, 0x12835B0145706FBE, 0x243185BE4EE4B28C, 0x550C7DC3D5FFB4E2,
    0x72BE5D74F27B896F, 0x80DEB1FE3B1696B1, 0x9BDC06A725C71235, 0xC19BF174CF692694] : List (BitVec 64))
  ++ ([0xE49B69C19EF14AD2, 0xEFBE4786384F25E3, 0x0FC19DC68B8CD5B5, 0x240CA1CC77AC9C65,
    0x2DE92C6F592B0275, 0x4A7484AA6EA6E483, 0x5CB0A9DCBD41FBD4, 0x76F988DA831153B5,
    0x983E5152EE66DFAB, 0xA831C66D2DB43210, 0xB00327C898FB213F, 0xBF597FC7BEEF0EE4,
    0xC6E00BF33DA88FC2, 0xD5A79147930AA725, 0x06CA6351E003826F, 0x142929670A0E6E70] : List (BitVec 64))
  ++ ([0x27B70A8546D22FFC, 0x2E1B21385C26C926, 0x4D2C6DFC5AC42AED, 0x53380D139D95B3DF,
    0x650A73548BAF63DE, 0x766A0ABB3C77B2A8, 0x81C2C92E47EDAEE6, 0x92722C851482353B,
    0xA2BFE8A14CF10364, 0xA81A664BBC423001, 0xC24B8B70D0F89791, 0xC76C51A30654BE30,
    0xD192E819D6EF5218, 0xD69906245565A910, 0xF40E35855771202A, 0x106AA07032BBD1B8] : List (BitVec 64))
  ++ ([0x19A4C116B8D2D0C8, 0x1E376C085141AB53, 0x2748774CDF8EEB99, 0x34B0BCB5E19B48A8,
    0x391C0CB3C5C95A63, 0x4ED8AA4AE3418ACB, 0x5B9CCA4F7763E373, 0x682E6FF3D6B2B8A3,
    0x748F82EE5DEFB2FC, 0x78A5636F43172F60, 0x84C87814A1F0AB72, 0x8CC702081A6439EC,
    0x90BEFFFA23631E28, 0xA4506CEBDE82BDE9, 0xBEF9A3F7B2C67915, 0xC67178F2E372532B] : List (BitVec 64))
  ++ ([0xCA273ECEEA26619C, 0xD186B8C721C0C207, 0xEADA7DD6CDE0EB1E, 0xF57D4F7FEE6ED178,
    0x06F067AA72176FBA, 0x0A637DC5A2C898A6, 0x113F9804BEF90DAE, 0x1B710B35131C471B,
    0x28DB77F523047D84, 0x32CAAB7B40C72493, 0x3C9EBE0A15C9BEBC, 0x431D67C49C100D4C,
    0x4CC5D4BECB3E42B6, 0x597F299CFC657E2A, 0x5FCB6FAB3AD6FAEC, 0x6C44198C4A475817] : List (BitVec 64))

/-- The initial hash value of SHA-384. -/
def sha384Init : Sha2Vars 64 :=
  ⟨0xCBBB9D5DC1059ED8, 0x629A292A367CD507, 0x9159015A3070DD17, 0x152FECD8F70E5939,
    0x67332667FFC00B31, 0x8EB44A8768581511, 0xDB0C2E0D64F98FA7, 0x47B5481DBEFA4FA4⟩

/-- The rotations and shifts of SHA-512. -/
def sha512Mix : Sha2Mix 64 := ⟨(28, 34, 39), (14, 18, 41), (1, 8, 7), (19, 61, 6)⟩

/-- The 48 bytes of a SHA-384 digest. -/
@[irreducible] def sha384Bytes (msg : List Byte) : List Byte :=
  let v := sha2 sha512Mix sha512Consts sha384Init msg
  [v.a, v.b, v.c, v.d, v.e, v.f].flatMap (fun x => beBytes 8 x.toNat)

/-- SHA-384 (R56, R129, R460, R467). -/
@[irreducible] def sha384 (msg : List Byte) : BitVec 384 := BitVec.ofNat 384 (ofLeBytes (sha384Bytes msg))

/-- HMAC-SHA-384 (R467): key, message. -/
@[irreducible] def hmac384 (key msg : List Byte) : BitVec 384 :=
  let k := if 128 < key.length then sha384Bytes key else key
  let k := k ++ List.replicate (128 - k.length) 0
  sha384 (k.map (fun b => b ^^^ 0x5C) ++ sha384Bytes (k.map (fun b => b ^^^ 0x36) ++ msg))

/-! ### SHA-256, on which the LMS signatures of R460 rest -/

/-- The 64 constants of SHA-256: the first 32 bits of the fractional parts of the cube roots of the first 64 primes. -/
def sha256Consts : List (BitVec 32) :=
  ([0x428A2F98, 0x71374491, 0xB5C0FBCF, 0xE9B5DBA5, 0x3956C25B, 0x59F111F1, 0x923F82A4, 0xAB1C5ED5,
    0xD807AA98, 0x12835B01, 0x243185BE, 0x550C7DC3, 0x72BE5D74, 0x80DEB1FE, 0x9BDC06A7, 0xC19BF174] : List (BitVec 32))
  ++ ([0xE49B69C1, 0xEFBE4786, 0x0FC19DC6, 0x240CA1CC, 0x2DE92C6F, 0x4A7484AA, 0x5CB0A9DC, 0x76F988DA,
    0x983E5152, 0xA831C66D, 0xB00327C8, 0xBF597FC7, 0xC6E00BF3, 0xD5A79147, 0x06CA6351, 0x14292967] : List (BitVec 32))
  ++ ([0x27B70A85, 0x2E1B2138, 0x4D2C6DFC, 0x53380D13, 0x650A7354, 0x766A0ABB, 0x81C2C92E, 0x92722C85,
    0xA2BFE8A1, 0xA81A664B, 0xC24B8B70, 0xC76C51A3, 0xD192E819, 0xD6990624, 0xF40E3585, 0x106AA070] : List (BitVec 32))
  ++ ([0x19A4C116, 0x1E376C08, 0x2748774C, 0x34B0BCB5, 0x391C0CB3, 0x4ED8AA4A, 0x5B9CCA4F, 0x682E6FF3,
    0x748F82EE, 0x78A5636F, 0x84C87814, 0x8CC70208, 0x90BEFFFA, 0xA4506CEB, 0xBEF9A3F7, 0xC67178F2] : List (BitVec 32))

/-- The initial hash value of SHA-256. -/
def sha256Init : Sha2Vars 32 :=
  ⟨0x6A09E667, 0xBB67AE85, 0x3C6EF372, 0xA54FF53A, 0x510E527F, 0x9B05688C, 0x1F83D9AB, 0x5BE0CD19⟩

/-- The rotations and shifts of SHA-256. -/
def sha256Mix : Sha2Mix 32 := ⟨(2, 13, 22), (6, 11, 25), (7, 18, 3), (17, 19, 10)⟩

/-- The 32 bytes of a SHA-256 digest. -/
@[irreducible] def sha256Bytes (msg : List Byte) : List Byte :=
  let v := sha2 sha256Mix sha256Consts sha256Init msg
  [v.a, v.b, v.c, v.d, v.e, v.f, v.g, v.h].flatMap (fun x => beBytes 4 x.toNat)

end Sys2Proof.Machine
end

