-- ==== Sys2Proof/Machine/Curve.lean ====
section
/-! DEFINITION. The curve P-384 (R460, R467): ECDSA verification under FIPS 186-5, public keys, and the shared secret of R444. A
coordinate or a scalar is 48 bytes, most significant first. -/

namespace Sys2Proof.Machine

/-! ### Arithmetic modulo a prime -/

/-- b to the power e modulo m, for e below 2^k. -/
def powMod (m : Nat) : Nat → Nat → Nat → Nat
  | 0, _, _ => 1 % m
  | k + 1, b, e =>
    let h := powMod m k (b * b % m) (e / 2)
    if e % 2 = 1 then b * h % m else h

/-- The inverse modulo a prime m below 2^384. -/
def invMod (m x : Nat) : Nat := powMod m 384 x (m - 2)

/-- a − b modulo m, for numbers below m. -/
def subMod (m a b : Nat) : Nat := (a + (m - b)) % m

/-! ### The curve -/

/-- The field's prime, 2^384 − 2^128 − 2^96 + 2^32 − 1. -/
def p384 : Nat := 2 ^ 384 - 2 ^ 128 - 2 ^ 96 + 2 ^ 32 - 1

/-- The order of the base point. -/
def p384Order : Nat := 0xFFFFFFFFFFFFFFFFFFFFFFFFFFFFFFFFFFFFFFFFFFFFFFFFC7634D81F4372DDF581A0DB248B0A77AECEC196ACCC52973

/-- The coefficient b of y² = x³ − 3x + b. -/
def p384B : Nat := 0xB3312FA7E23EE7E4988E056BE3F82D19181D9C6EFE8141120314088F5013875AC656398D8A2ED19D2A85C8EDD3EC2AEF

/-- A point: none is the point at infinity. -/
abbrev CurvePoint := Option (Nat × Nat)

/-- The base point. -/
def p384Base : CurvePoint :=
  some (0xAA87CA22BE8B05378EB1C71EF320AD746E1D3B628BA79B9859F741E082542A385502F25DBF55296C3A545E3872760AB7,
    0x3617DE4A96262C6F5D9E98BF9292DC29F8F41DBD289A147CE9DA3113B5F0B8C00A60B1CE1D7E819D7A431D7C90EA0E5F)

/-- Whether coordinates below the prime satisfy the equation of the curve. -/
def onCurve (x y : Nat) : Bool :=
  decide (x < p384) && decide (y < p384) && decide (y * y % p384 = subMod p384 ((x * x % p384 * x + p384B) % p384) (3 * x % p384))

/-- The third point on a line of slope l through (x1, y1) and a point of abscissa x2, mirrored. -/
def chord (l x1 y1 x2 : Nat) : CurvePoint :=
  let x := subMod p384 (subMod p384 (l * l % p384) x1) x2
  some (x, subMod p384 (l * subMod p384 x1 x % p384) y1)

/-- The sum of two points. -/
def pointAdd (a b : CurvePoint) : CurvePoint :=
  match a, b with
  | none, q => q
  | q, none => q
  | some (x1, y1), some (x2, y2) =>
    if x1 = x2 then
      if y1 = y2 ∧ y1 ≠ 0 then chord (subMod p384 (3 * x1 * x1 % p384) 3 * invMod p384 (2 * y1) % p384) x1 y1 x2 else none
    else chord (subMod p384 y2 y1 * invMod p384 (subMod p384 x2 x1) % p384) x1 y1 x2

/-- n times a point, for n below 2^k. -/
def pointMul : Nat → Nat → CurvePoint → CurvePoint
  | 0, _, _ => none
  | k + 1, n, a =>
    let h := pointMul k (n / 2) (pointAdd a a)
    if n % 2 = 1 then pointAdd a h else h

/-! ### Keys and signatures -/

/-- The point that the 96 bytes X ∥ Y name, if it is one of the curve. -/
def pointOf (bs : List Byte) : CurvePoint :=
  let x := ofBeBytes (bs.take 48)
  let y := ofBeBytes (bs.drop 48)
  if bs.length = 96 ∧ onCurve x y then some (x, y) else none

/-- ECDSA P-384 verification under FIPS 186-5 with SHA-384 (R460, R461): public key X ∥ Y, message, signature r ∥ s. -/
@[irreducible] def ecdsaVerify (pub msg sig : List Byte) : Bool :=
  let r := ofBeBytes (sig.take 48)
  let v := ofBeBytes (sig.drop 48)
  match pointOf pub with
  | none => false
  | some q =>
    if sig.length = 96 ∧ 1 ≤ r ∧ r < p384Order ∧ 1 ≤ v ∧ v < p384Order then
      let w := invMod p384Order v
      let e := ofBeBytes (sha384Bytes msg)
      match pointAdd (pointMul 384 (e * w % p384Order) p384Base) (pointMul 384 (r * w % p384Order) (some q)) with
      | some (x, _) => x % p384Order == r
      | none => false
    else false

/-- The public key X ∥ Y of a private key (R467). -/
@[irreducible] def publicKey (d : BitVec 384) : List Byte :=
  match pointMul 384 d.toNat p384Base with
  | some (x, y) => beBytes 48 x ++ beBytes 48 y
  | none => List.replicate 96 0

/-- The ECDH shared secret Z of a private key and a public key (R444): the abscissa of their product; none for bytes that are not a
point of the curve. -/
@[irreducible] def sharedSecret (d : BitVec 384) (pub : List Byte) : Option (List Byte) :=
  match pointOf pub with
  | some q => (pointMul 384 d.toNat (some q)).map (fun v => beBytes 48 v.1)
  | none => none

end Sys2Proof.Machine
end

