-- ==== Sys2Proof/Machine/KeyWrap.lean ====
section
/-! DEFINITION. The unwrapping of a SAK by KEY_INSTALL (R444): the key-encryption key from an ECDH shared secret, AES-256 (FIPS 197)
and AES key unwrap (RFC 3394). -/

namespace Sys2Proof.Machine

/-! ### AES-256 -/

/-- SubBytes of every byte. -/
def aesBox : List Byte :=
  ([0x63, 0x7C, 0x77, 0x7B, 0xF2, 0x6B, 0x6F, 0xC5, 0x30, 0x01, 0x67, 0x2B, 0xFE, 0xD7, 0xAB, 0x76] : List Byte)
  ++ ([0xCA, 0x82, 0xC9, 0x7D, 0xFA, 0x59, 0x47, 0xF0, 0xAD, 0xD4, 0xA2, 0xAF, 0x9C, 0xA4, 0x72, 0xC0] : List Byte)
  ++ ([0xB7, 0xFD, 0x93, 0x26, 0x36, 0x3F, 0xF7, 0xCC, 0x34, 0xA5, 0xE5, 0xF1, 0x71, 0xD8, 0x31, 0x15] : List Byte)
  ++ ([0x04, 0xC7, 0x23, 0xC3, 0x18, 0x96, 0x05, 0x9A, 0x07, 0x12, 0x80, 0xE2, 0xEB, 0x27, 0xB2, 0x75] : List Byte)
  ++ ([0x09, 0x83, 0x2C, 0x1A, 0x1B, 0x6E, 0x5A, 0xA0, 0x52, 0x3B, 0xD6, 0xB3, 0x29, 0xE3, 0x2F, 0x84] : List Byte)
  ++ ([0x53, 0xD1, 0x00, 0xED, 0x20, 0xFC, 0xB1, 0x5B, 0x6A, 0xCB, 0xBE, 0x39, 0x4A, 0x4C, 0x58, 0xCF] : List Byte)
  ++ ([0xD0, 0xEF, 0xAA, 0xFB, 0x43, 0x4D, 0x33, 0x85, 0x45, 0xF9, 0x02, 0x7F, 0x50, 0x3C, 0x9F, 0xA8] : List Byte)
  ++ ([0x51, 0xA3, 0x40, 0x8F, 0x92, 0x9D, 0x38, 0xF5, 0xBC, 0xB6, 0xDA, 0x21, 0x10, 0xFF, 0xF3, 0xD2] : List Byte)
  ++ ([0xCD, 0x0C, 0x13, 0xEC, 0x5F, 0x97, 0x44, 0x17, 0xC4, 0xA7, 0x7E, 0x3D, 0x64, 0x5D, 0x19, 0x73] : List Byte)
  ++ ([0x60, 0x81, 0x4F, 0xDC, 0x22, 0x2A, 0x90, 0x88, 0x46, 0xEE, 0xB8, 0x14, 0xDE, 0x5E, 0x0B, 0xDB] : List Byte)
  ++ ([0xE0, 0x32, 0x3A, 0x0A, 0x49, 0x06, 0x24, 0x5C, 0xC2, 0xD3, 0xAC, 0x62, 0x91, 0x95, 0xE4, 0x79] : List Byte)
  ++ ([0xE7, 0xC8, 0x37, 0x6D, 0x8D, 0xD5, 0x4E, 0xA9, 0x6C, 0x56, 0xF4, 0xEA, 0x65, 0x7A, 0xAE, 0x08] : List Byte)
  ++ ([0xBA, 0x78, 0x25, 0x2E, 0x1C, 0xA6, 0xB4, 0xC6, 0xE8, 0xDD, 0x74, 0x1F, 0x4B, 0xBD, 0x8B, 0x8A] : List Byte)
  ++ ([0x70, 0x3E, 0xB5, 0x66, 0x48, 0x03, 0xF6, 0x0E, 0x61, 0x35, 0x57, 0xB9, 0x86, 0xC1, 0x1D, 0x9E] : List Byte)
  ++ ([0xE1, 0xF8, 0x98, 0x11, 0x69, 0xD9, 0x8E, 0x94, 0x9B, 0x1E, 0x87, 0xE9, 0xCE, 0x55, 0x28, 0xDF] : List Byte)
  ++ ([0x8C, 0xA1, 0x89, 0x0D, 0xBF, 0xE6, 0x42, 0x68, 0x41, 0x99, 0x2D, 0x0F, 0xB0, 0x54, 0xBB, 0x16] : List Byte)

/-- SubBytes and its inverse. -/
def subByte (b : Byte) : Byte := aesBox.getD b.toNat 0
def invSubByte (b : Byte) : Byte := BitVec.ofNat 8 (aesBox.idxOf b)

/-- The product with x, and with a number of 4 bits, in the field of 256 elements. -/
def aesTimes2 (b : Byte) : Byte := (b <<< 1) ^^^ (if b.getLsbD 7 then 0x1B else 0)
def aesTimes (k : Nat) (b : Byte) : Byte :=
  let t (i : Nat) (v : Byte) : Byte := if k.testBit i then v else 0
  let b2 := aesTimes2 b
  let b4 := aesTimes2 b2
  t 0 b ^^^ t 1 b2 ^^^ t 2 b4 ^^^ t 3 (aesTimes2 b4)

def xorBytes (a b : List Byte) : List Byte := List.zipWith (fun x y => x ^^^ y) a b

/-- The key schedule: `k` more words of 4 bytes after those made, newest first. -/
def aesExpand : Nat → List (List Byte) → List (List Byte)
  | 0, ws => ws
  | k + 1, ws =>
    let i := ws.length
    let w := ws.headD []
    let w := if i % 8 = 0 then
        match w.map subByte with
        | [a, b, c, d] => [b ^^^ BitVec.ofNat 8 (2 ^ (i / 8 - 1)), c, d, a]
        | v => v
      else if i % 8 = 4 then w.map subByte else w
    withBytes (xorBytes (ws.getD 7 []) w) (fun w => aesExpand k (w :: ws))

/-- The 15 round keys of a key of 32 bytes. -/
def aesKeys (key : List Byte) : List (List Byte) :=
  let ws := (aesExpand 52 ((List.range 8).map (fun i => (key.drop (4 * i)).take 4)).reverse).reverse
  (List.range 15).map (fun r => ((ws.drop (4 * r)).take 4).flatten)

/-- InvShiftRows and InvSubBytes: the byte of row r and column c comes from column c − r. -/
def aesUnshift (v : List Byte) : List Byte :=
  (List.range 16).map (fun i => invSubByte (v.getD (i % 4 + 4 * ((i / 4 + 4 - i % 4) % 4)) 0))

/-- InvMixColumns. -/
def aesUnmix (v : List Byte) : List Byte :=
  (List.range 16).map (fun i =>
    let b (k : Nat) : Byte := v.getD (i / 4 * 4 + (i + k) % 4) 0
    aesTimes 14 (b 0) ^^^ aesTimes 11 (b 1) ^^^ aesTimes 13 (b 2) ^^^ aesTimes 9 (b 3))

/-- The inner rounds of InvCipher, with the round keys from the last down. -/
def aesRounds : List (List Byte) → List Byte → List Byte
  | [], v => v
  | [k], v => xorBytes (aesUnshift v) k
  | k :: ks, v => withBytes (xorBytes (aesUnshift v) k) (fun v => withBytes (aesUnmix v) (aesRounds ks))

/-- AES-256 decryption of a block of 16 bytes. -/
def aesDecrypt (key block : List Byte) : List Byte :=
  match (aesKeys key).reverse with
  | k :: ks => withBytes (xorBytes block k) (aesRounds ks)
  | [] => block

/-! ### RFC 3394 -/

/-- The steps of the unwrapping from number t down, with the register A and the blocks R: step t takes the block at (t − 1) mod n. -/
def unwrapSteps (kek : List Byte) : Nat → List Byte → List (List Byte) → List Byte × List (List Byte)
  | 0, a, rs => (a, rs)
  | t + 1, a, rs =>
    let i := t % rs.length
    withBytes (aesDecrypt kek (xorBytes a (beBytes 8 (t + 1)) ++ rs.getD i [])) (fun b =>
      unwrapSteps kek t (b.take 8) (rs.set i (b.drop 8)))

/-- AES key unwrap of 40 bytes to a key of 32; none when the integrity check fails. -/
@[irreducible] def aesUnwrap (kek wrapped : List Byte) : Option (List Byte) :=
  let rs := (List.range 4).map (fun i => (wrapped.drop (8 * (i + 1))).take 8)
  let v := unwrapSteps kek 24 (wrapped.take 8) rs
  if v.1 = List.replicate 8 0xA6 then some v.2.flatten else none

/-- The SAK of KEY_INSTALL (R444): the alias key, the host's ephemeral key, the wrapped SAK. The key-encryption key is the first 32
bytes of SHA-384(Z ∥ "ENM-SAK"). -/
@[irreducible] def unwrapSak (aliasKey : BitVec 384) (hostKey wrapped : List Byte) : Option (BitVec 256) :=
  match sharedSecret aliasKey hostKey with
  | none => none
  | some z =>
    let kek := (sha384Bytes (z ++ [0x45, 0x4E, 0x4D, 0x2D, 0x53, 0x41, 0x4B])).take 32
    (aesUnwrap kek wrapped).map (fun k => BitVec.ofNat 256 (ofLeBytes k))

end Sys2Proof.Machine
end

