-- ==== Sys2Proof/Machine/Gcm.lean ====
section
/-! DEFINITION. The check value of MACsec (R441, R444): AES-256 encryption (FIPS 197), GHASH and the tag of GCM (NIST SP 800-38D) as
IEEE 802.1AE names them. -/

namespace Sys2Proof.Machine

/-! ### AES-256 encryption -/

/-- SubBytes and ShiftRows: the byte of row r and column c comes from column c + r. -/
def aesShift (v : List Byte) : List Byte := (List.range 16).map (fun i => subByte (v.getD (i % 4 + 4 * ((i / 4 + i % 4) % 4)) 0))

/-- MixColumns. -/
def aesMix (v : List Byte) : List Byte :=
  (List.range 16).map (fun i =>
    let b (k : Nat) : Byte := v.getD (i / 4 * 4 + (i + k) % 4) 0
    aesTimes 2 (b 0) ^^^ aesTimes 3 (b 1) ^^^ b 2 ^^^ b 3)

/-- The rounds after the first round key. -/
def aesForward : List (List Byte) → List Byte → List Byte
  | [], v => v
  | [k], v => xorBytes (aesShift v) k
  | k :: ks, v => withBytes (xorBytes (aesMix (aesShift v)) k) (aesForward ks)

/-- AES-256 encryption of a block of 16 bytes. -/
def aesEncrypt (key block : List Byte) : List Byte :=
  match aesKeys key with
  | k :: ks => withBytes (xorBytes block k) (aesForward ks)
  | [] => block

/-! ### GCM -/

/-- The product in the field of 2^128 elements, from bit `n - 1` of `x` down, with the sum and the multiple so far; the first bit of a
block is the most significant. -/
def gfMul (x : BitVec 128) : Nat → BitVec 128 → BitVec 128 → BitVec 128
  | 0, z, _ => z
  | n + 1, z, v =>
    gfMul x n (if x.getLsbD n then z ^^^ v else z) (if v.getLsbD 0 then (v >>> 1) ^^^ 0xE1000000000000000000000000000000 else v >>> 1)

/-- GHASH of `n` blocks. -/
def ghash (h : BitVec 128) : Nat → BitVec 128 → List Byte → BitVec 128
  | 0, y, _ => y
  | n + 1, y, bs => ghash h n (gfMul (y ^^^ BitVec.ofNat 128 (ofBeBytes (bs.take 16))) 128 0 h) (bs.drop 16)

/-- Zeros to a whole number of blocks. -/
def padBlock (bs : List Byte) : List Byte := bs ++ List.replicate ((16 - bs.length % 16) % 16) 0

/-- The tag of GCM over data that is authenticated only and data that is encrypted, for an IV of 12 bytes. -/
@[irreducible] def gcmTag (key iv aad data : List Byte) : List Byte :=
  let h := BitVec.ofNat 128 (ofBeBytes (aesEncrypt key (List.replicate 16 0)))
  let bs := padBlock aad ++ padBlock data ++ beBytes 8 (8 * aad.length) ++ beBytes 8 (8 * data.length)
  xorBytes (beBytes 16 (ghash h (bs.length / 16) 0 bs).toNat) (aesEncrypt key (iv ++ [0, 0, 0, 1]))

end Sys2Proof.Machine
end

