-- ==== Sys2Proof/Machine/Lms.lean ====
section
/-! DEFINITION. HSS signatures (R460, R461) under RFC 8554 with L = 1, LMS_SHA256_M32_H15 and LMOTS_SHA256_N32_W4. -/

namespace Sys2Proof.Machine

/-- `n` bytes at offset `i`. -/
def bytesAt (bs : List Byte) (i n : Nat) : List Byte := (bs.drop i).take n

/-- The i-th digit of 4 bits of a byte string, most significant first. -/
def lmsDigit (bs : List Byte) (i : Nat) : Nat :=
  let b := (bs.getD (i / 2) 0).toNat
  if i % 2 = 0 then b / 16 else b % 16

/-- The 67 digits that a one-time signature signs: those of the 32-byte digest and of its checksum. -/
def lmsDigits (digest : List Byte) : List Nat :=
  let ds := (List.range 64).map (lmsDigit digest)
  let sum := (ds.map (fun d => 15 - d)).sum
  ds ++ (List.range 3).map (lmsDigit (beBytes 2 (sum * 16)))

/-- A chain of hashes of digit i from step `j`, `n` steps long. -/
def lmsChain (key : List Byte) (i : Nat) : Nat → Nat → List Byte → List Byte
  | 0, _, v => v
  | n + 1, j, v => lmsChain key i n (j + 1) (sha256Bytes (key ++ beBytes 2 i ++ beBytes 1 j ++ v))

/-- The one-time public key that a signature gives (RFC 8554, 4.6): the key's identifier ∥ q, the randomiser C, the 67 values, the
message. -/
def lmotsKey (key c y msg : List Byte) : List Byte :=
  let ds := lmsDigits (sha256Bytes (key ++ [0x81, 0x81] ++ c ++ msg))
  sha256Bytes (key ++ [0x80, 0x80] ++ ds.zipIdx.flatMap (fun e => lmsChain key e.2 (15 - e.1) e.1 (bytesAt y (32 * e.2) 32)))

/-- The root over a path of nodes from node `r` with value `v` up. -/
def lmsRoot (id : List Byte) : List (List Byte) → Nat → List Byte → List Byte
  | [], _, v => v
  | n :: path, r, v =>
    let pair := if r % 2 = 1 then n ++ v else v ++ n
    lmsRoot id path (r / 2) (sha256Bytes (id ++ beBytes 4 (r / 2) ++ [0x83, 0x83] ++ pair))

/-- HSS verification (R460, R461; RFC 8554, 6.3): the public key of 60 bytes, the message, the signature of 2,672 bytes. -/
@[irreducible] def lmsVerify (pub msg sig : List Byte) : Bool :=
  let id := bytesAt pub 12 16
  let q := ofBeBytes (bytesAt sig 4 4)
  if pub.length = 60 ∧ bytesAt pub 0 12 = [0, 0, 0, 1, 0, 0, 0, 7, 0, 0, 0, 3] ∧ sig.length = 2672
      ∧ bytesAt sig 0 4 = [0, 0, 0, 0] ∧ bytesAt sig 8 4 = [0, 0, 0, 3] ∧ bytesAt sig 2188 4 = [0, 0, 0, 7]
      ∧ q < 2 ^ 15 then
    let leaf := 2 ^ 15 + q
    let k := lmotsKey (id ++ beBytes 4 q) (bytesAt sig 12 32) (bytesAt sig 44 2144) msg
    let path := (List.range 15).map (fun i => bytesAt sig (2192 + 32 * i) 32)
    lmsRoot id path leaf (sha256Bytes (id ++ beBytes 4 leaf ++ [0x82, 0x82] ++ k)) == bytesAt pub 28 32
  else false

end Sys2Proof.Machine
end

