-- ==== Sys2Proof/Machine/BulkFlow.lean ====
section
/-! DEFINITION. How the data of a bulk collective flow at one member (R296 to R302, R304, R305): the stages and partners, the
adders and their residue fields (R234, R235), and what each chunk does next. -/

namespace Sys2Proof.Machine

/-! ### Values on the wire (R230, R234, R235, R298) -/

/-- M = 2³¹ − 1 (R234). -/
def resMod : Nat := 2147483647

/-- The residue of a value; a non-finite value contributes 0 (R234, R235). -/
def residue : FNum → Nat
  | .fin sg m e =>
    let r := (m % resMod) * 2 ^ (e % 31).toNat % resMod
    if sg ∧ r ≠ 0 then resMod - r else r
  | _ => 0

/-- Whether a value is a NaN or an infinity. -/
def FNum.nonfin (v : FNum) : Bool := v.isNan || v.isInf

/-- An element sum in a binary format: its encoding, the residue owed to RND_RES, and whether it is non-finite (R230, R235). -/
def addElem (f : FpFmt) (a b : Nat) : Nat × Nat × Bool :=
  let x := decodeFp f false a
  let y := decodeFp f false b
  let exact := FNum.sum [x, y]
  let w := (castFp f .rne 0 false false exact).1
  let v := decodeFp f false w
  if v.nonfin then (w, (residue x + residue y) % resMod, true) else (w, residue (FNum.sum [exact, v.negate]), false)

/-- The wire value of a bulk collective as a number: FP64, or INT64 for INT32 elements (R298). -/
def wireNum (type v : Nat) : FNum := if type = 0x0F then FNum.ofInt (asSigned 64 v) else decodeFp fp64 false v

/-- One combination of R298. -/
def combineElem (red type a b : Nat) : Nat × Nat × Bool :=
  if red = 0 then
    if type = 0x0F then (toTwos 64 (asSigned 64 a + asSigned 64 b), 0, false) else addElem fp64 a b
  else
    let v := lanePick (red == 1) (wireNum type a) (wireNum type b)
    (if type = 0x0F then toTwos 64 v.toInt else (castFp fp64 .rne 0 false false v).1, 0, v.nonfin)

/-- An adder combines two chunks (R235). -/
def combineCargo (red type : Nat) (a b : Cargo) : Cargo :=
  let rs := (a.vals.zip b.vals).map (fun v => combineElem red type v.1 v.2)
  if red = 0 then
    { vals := rs.map (·.1), srcRes := (a.srcRes + b.srcRes) % resMod
      rndRes := (a.rndRes + b.rndRes + (rs.map (·.2.1)).sum) % resMod
      nonfinite := a.nonfinite || b.nonfinite || rs.any (·.2.2) }
  else { vals := rs.map (·.1), srcRes := 0, rndRes := 0, nonfinite := false }

/-- A source's chunk with its fields (R235, R300). -/
def sourceCargo (red type : Nat) (vals : List Nat) : Cargo :=
  let ns := vals.map (wireNum type)
  if red = 0 then ⟨vals, (ns.map residue).sum % resMod, 0, ns.any FNum.nonfin⟩ else ⟨vals, 0, 0, false⟩

/-- The hop check of R236 on a sum. -/
def hopOk (type : Nat) (c : Cargo) : Bool :=
  (((c.vals.map (fun v => residue (wireNum type v))).sum + c.rndRes) % resMod) == c.srcRes % resMod

/-- An element's encoding as its wire value (R298). -/
def toWire (type code : Nat) : Nat :=
  if type = 0x0F then toTwos 64 (asSigned 32 code) else (castFp fp64 .rne 0 false false (decodeElem type false code)).1

/-- A wire value rounded once into the element type, and whether it overflows (R298). -/
def ofWire (type v : Nat) : Nat × Bool :=
  if type = 0x0F then
    let i := asSigned 64 v
    (toTwos 32 i, decide (i < -2147483648) || decide (2147483647 < i))
  else if type = 0x10 then (v, false)
  else match fmtFp type with
    | some f => let (c, e) := castFp f .rne 0 false false (decodeFp fp64 false v); (c, e.overflow)
    | none => (v, false)

/-! ### The geometry of an operation (R228, R296) -/

/-- What fixes the flow at a member: operation, reduction, type, root, elements, rank, members, and whether the fold is taken
in arrival order (R232). -/
structure Geo where
  op : Nat
  red : Nat
  type : Nat
  root : Nat
  count : Nat
  r : Nat
  n : Nat
  eager : Bool

namespace Geometry

/-- P, e and L of R228. -/
def cube (n : Nat) : Nat := 2 ^ Nat.log2 n
def fold (n : Nat) : Nat := n - cube n
def rounds (n : Nat) : Nat := Nat.log2 n

/-- d of round t. -/
def dist (n t : Nat) : Nat := cube n / 2 ^ t

end Geometry

def Geo.p (g : Geo) : Nat := Geometry.cube g.n
def Geo.e (g : Geo) : Nat := Geometry.fold g.n
def Geo.l (g : Geo) : Nat := Geometry.rounds g.n
def Geo.d (g : Geo) (t : Nat) : Nat := Geometry.dist g.n t

/-- Whether the operation combines (R296). -/
def opCombines (op : Nat) : Bool := op == 0 || op == 2 || op == 4

/-- Elements in a chunk of element bytes (R298). -/
def elemsPerChunk (type : Nat) : Nat := if fmtBits type = 0 then 1 else 32768 / fmtBits type

/-- Wire chunks and byte chunks of COUNT. -/
def Geo.wires (g : Geo) : Nat := g.count / 512
def Geo.bytes (g : Geo) : Nat := g.count / elemsPerChunk g.type

/-- The holder of a broadcast or a reduce, and the relative rank ρ (R296). -/
def Geo.holder (g : Geo) : Nat := if g.p ≤ g.root then g.root - g.p else g.root
def Geo.rel (g : Geo) : Nat := g.r ^^^ g.holder

/-- A stage: on the all-gather side or not, and its number (R300). -/
abbrev StageId := Bool × Nat

/-- The stages of an operation in order (R296). -/
def Geo.stages (g : Geo) : List StageId :=
  let up : List StageId := (List.range g.l).map (fun t => (false, t + 1))
  let down : List StageId := (List.range g.l).map (fun t => (true, g.l - t))
  let foldSt : List StageId := if g.e = 0 then [] else [(false, 0)]
  let unfold : List StageId := if g.e = 0 then [] else [(true, 15)]
  let lift : List StageId := if g.p ≤ g.root then [(false, 0)] else []
  let drop : List StageId := if g.p ≤ g.root then [(true, 0)] else []
  match g.op with
  | 0 => foldSt ++ up
  | 1 => down ++ unfold
  | 2 => foldSt ++ up ++ down ++ unfold
  | 3 => lift ++ up ++ down ++ unfold
  | 4 => foldSt ++ up ++ down ++ drop
  | 7 => down ++ unfold
  | _ => foldSt ++ up

/-- The folded pair of a member. -/
def Geo.folded (g : Geo) : Option Nat := if g.p ≤ g.r then some (g.r - g.p) else if g.r < g.e then some (g.r + g.p) else none

/-- The pair of a lift or a drop. -/
def Geo.lifted (g : Geo) : Option Nat :=
  if g.p ≤ g.root then
    (if g.r = g.root then some (g.root - g.p) else if g.r + g.p = g.root then some g.root else none)
  else none

/-- The partner of this member in a stage, if it takes part (R228, R296). -/
def Geo.partner (g : Geo) (st : StageId) : Option Nat :=
  match st with
  | (false, 0) => if g.op = 3 then g.lifted else g.folded
  | (true, 0) => g.lifted
  | (true, 15) => g.folded
  | (false, t) =>
    if g.p ≤ g.r then none
    else if g.op = 3 ∧ g.rel % g.d t ≠ 0 then none
    else some (g.r ^^^ g.d t)
  | (true, t) =>
    if g.p ≤ g.r then none
    else if g.op = 4 ∧ g.rel % g.d t ≠ 0 then none
    else some (g.r ^^^ g.d t)

/-- The stages in which this member takes part; in each it receives a first chunk (R296). -/
def Geo.mine (g : Geo) : List StageId := g.stages.filter (fun st => (g.partner st).isSome)

/-- The data chunks this member sends in a stage. -/
def Geo.sends (g : Geo) (st : StageId) : Nat :=
  if (g.partner st).isNone then 0
  else match st with
    | (false, 0) => if g.op = 3 then (if g.r = g.root then g.bytes else 0) else if g.p ≤ g.r then g.wires else 0
    | (true, 0) => if g.r = g.root then 0 else g.bytes
    | (true, 15) => if g.r < g.e then g.bytes else 0
    | (false, t) =>
      if g.op = 3 then (if g.rel % (2 * g.d t) = 0 then g.bytes / 2 ^ t else 0) else g.wires / 2 ^ t
    | (true, t) =>
      if g.op = 4 then (if g.rel % (2 * g.d t) = 0 then 0 else g.bytes / 2 ^ t) else g.bytes / 2 ^ t

/-- All the data chunks this member sends. -/
def Geo.allSends (g : Geo) : Nat := (g.stages.map g.sends).sum

/-- The elements of a destination chunk (R310). -/
def Geo.dstElems (g : Geo) : Nat := if g.op = 0 then 512 else elemsPerChunk g.type

/-- Where this member's destination starts within COUNT, and its elements; none without a destination (R296). -/
def Geo.dst (g : Geo) : Option (Nat × Nat) :=
  match g.op with
  | 0 => if g.r < g.p then some (g.r * (g.count / g.p), g.count / g.p) else none
  | 3 => if g.r = g.root then none else some (0, g.count)
  | 4 => if g.r = g.root then some (0, g.count) else none
  | 6 => none
  | _ => some (0, g.count)

/-- Where this member's source starts within COUNT, and its elements (R296). -/
def Geo.src (g : Geo) : Option (Nat × Nat) :=
  match g.op with
  | 1 => if g.r < g.p then some (g.r * (g.count / g.p), g.count / g.p) else none
  | 7 => if g.r < g.p then some (g.r * (g.count / g.p), g.count / g.p) else none
  | 3 => if g.r = g.root then some (0, g.count) else none
  | _ => some (0, g.count)

/-! ### What a chunk does next -/

/-- A chunk to be sent in a stage. -/
def Bulk.queue (b : Bulk) (g : Geo) (st : StageId) (elem : Nat) (cargo : Cargo) (data : List Byte) : Bulk :=
  match g.partner st with
  | some q => { b with outbox := b.outbox ++ [⟨st.1, st.2, q, elem, cargo, data⟩] }
  | none => b

/-- Bytes of a destination chunk waiting to be written. -/
def Bulk.toWrite (b : Bulk) (g : Geo) (elem : Nat) (data : List Byte) : Bulk :=
  match g.dst, b.dst with
  | some (lo, _), some _ => { b with writes := b.writes ++ [(elem - lo, data)] }
  | _, _ => b

/-- A cargo that holds no values. -/
def Cargo.empty : Cargo := ⟨[], 0, 0, false⟩

/-- Byte chunk `k`, held from gather round `t` on (`L + 1` for the member's own shard): sent in every later round and in the
unfold, and written. -/
def Bulk.hold (b : Bulk) (g : Geo) (k t : Nat) (data : List Byte) : Bulk :=
  let elem := k * elemsPerChunk g.type
  let later := (List.range (t - 1)).map (fun i => (true, t - 1 - i))
  let b := later.foldl (fun b st => b.queue g st elem Cargo.empty data) b
  let b := if g.r < g.e then b.queue g (true, 15) elem Cargo.empty data else b
  b.toWrite g elem data

/-- The rank that owns byte chunk `k`. -/
def Geo.ownerOf (g : Geo) (k : Nat) : Nat := if g.bytes / g.p = 0 then 0 else k / (g.bytes / g.p)

/-- Byte chunk `k` of a broadcast, held after scatter round `t`: passed to the half that holds its owner, or kept as the
member's own shard. -/
def Bulk.scatter (b : Bulk) (g : Geo) (k t : Nat) (data : List Byte) : Bulk :=
  let way := (List.range g.l).filter (fun i => decide (t < i + 1) && decide (((g.ownerOf k ^^^ g.r) / g.d (i + 1)) % 2 = 1))
  match way with
  | i :: _ => b.queue g (false, i + 1) (k * elemsPerChunk g.type) Cargo.empty data
  | [] => b.hold g k (g.l + 1) data

/-- Byte chunk `k` of a reduce on its way to the holder and the root. -/
def Bulk.collect (b : Bulk) (g : Geo) (k : Nat) (data : List Byte) : Bulk :=
  let elem := k * elemsPerChunk g.type
  if g.rel = 0 then
    (if g.root = g.r then b.toWrite g elem data else b.queue g (true, 0) elem Cargo.empty data)
  else
    let t := g.l - (List.range g.l).findIdx (fun i => g.rel.testBit i)
    b.queue g (true, t) elem Cargo.empty data

/-- The partial of a chunk held at a member: its level and cargo. -/
def Bulk.part (b : Bulk) (c : Nat) : Option (Nat × Cargo) := (b.parts.find? (fun e => e.2.1 == c)).map (fun e => (e.1, e.2.2))

/-- The partial of a chunk replaced, or removed. -/
def Bulk.setPart (b : Bulk) (c : Nat) (v : Option (Nat × Cargo)) : Bulk :=
  let rest := b.parts.filter (fun e => e.2.1 != c)
  { b with parts := match v with
      | some (t, w) => rest ++ [(t, c, w)]
      | none => rest }

/-- Wire values of a sum rounded once into the element type (R298): their encodings, the residue that the rounding owes to RND_RES
(R235, R301), and whether one overflows. -/
def roundWires (type : Nat) (vs : List Nat) : List Nat × Nat × Bool :=
  let rs := vs.map (fun v =>
    let (code, o) := ofWire type v
    let x := wireNum type v
    let y := if type = 0x0F then FNum.ofInt (asSigned 32 code) else decodeElem type false code
    (code, if y.nonfin then residue x else residue (FNum.sum [x, y.negate]), o))
  (rs.map (·.1), (rs.map (·.2.1)).sum % resMod, rs.any (·.2.2))

/-- The destination check of R236 on the final elements of a sum, the residue of the final rounding added to RND_RES (R301). -/
def finalOk (type : Nat) (v : Cargo) : Bool :=
  let (codes, r, _) := roundWires type v.vals
  let y (c : Nat) : FNum := if type = 0x0F then FNum.ofInt (asSigned 32 c) else decodeElem type false c
  (((codes.map (fun c => residue (y c))).sum + v.rndRes + r) % resMod) == v.srcRes % resMod

/-- The final sums of a member's shard, rounded once: a destination chunk of 512 elements of a reduce-scatter, or, for the
other operations, part of a byte chunk. -/
def Bulk.final (b : Bulk) (g : Geo) (c : Nat) (v : Cargo) : Bulk :=
  let pieces (vs : List Nat) : List Nat × Bool := let rs := roundWires g.type vs; (rs.1, rs.2.2)
  if g.red = 0 && !finalOk g.type v then { b with failed := some (c * 512) }
  else if g.op = 0 then
    let (codes, o) := pieces v.vals
    { b.setPart c none with overflow := b.overflow || o }.toWrite g (c * 512) (packRow g.type codes)
  else
    let b := b.setPart c (some (g.l + 1, v))
    let q := elemsPerChunk g.type / 512
    let k := c / q
    let group := (List.range q).map (fun i => k * q + i)
    let got := group.filterMap (fun i => (b.part i).bind (fun e => if e.1 = g.l + 1 then some e.2.vals else none))
    if got.length = q then
      let (codes, o) := pieces got.flatten
      let b := { group.foldl (fun b i => b.setPart i none) b with overflow := b.overflow || o }
      let data := packRow g.type codes
      if g.op = 4 then b.collect g k data else b.hold g k (g.l + 1) data
    else b

/-- Whether chunk `c` lies in the half that this member keeps in round `t`. -/
def Geo.keeps (g : Geo) (t c : Nat) : Bool :=
  if g.wires / 2 ^ t = 0 then false else c / (g.wires / 2 ^ t) == g.r / g.d t

/-- The partial of chunk `c` goes as far as it can: it waits for its fold, then in each round is sent, or combined with the
partner's, until it is final (R228, R229, R232). -/
def Bulk.advance (g : Geo) (c : Nat) : Nat → Bulk → Bulk
  | 0, b => b
  | fuel + 1, b =>
    match b.part c with
    | none => b
    | some (t, v) =>
      let unfolded := decide (g.r < g.e) && !b.folded.contains c
      if t > g.l then b
      else if t = g.l then (if unfolded then b else b.final g c v)
      else if unfolded && (t == 0 && !g.eager || !g.keeps (t + 1) c) then b
      else if !g.keeps (t + 1) c then (b.setPart c none).queue g (false, t + 1) (c * 512) v []
      else match b.came.find? (fun e => e.1 == t + 1 && e.2.1 == c) with
        | none => b
        | some e =>
          Bulk.advance g c fuel
            { b.setPart c (some (t + 1, combineCargo g.red g.type v e.2.2)) with came := b.came.filter (· != e) }

/-- A folded member's chunk is added into the partial present (R228, R232). -/
def Bulk.takeFold (b : Bulk) (g : Geo) (c : Nat) (v : Cargo) : Bulk :=
  match b.part c with
  | some (t, w) =>
    Bulk.advance g c (g.l + 2) { b.setPart c (some (t, combineCargo g.red g.type w v)) with folded := b.folded ++ [c] }
  | none => b

/-- A partner's sum of round `t`. -/
def Bulk.takeRound (b : Bulk) (g : Geo) (t c : Nat) (v : Cargo) : Bulk :=
  Bulk.advance g c (g.l + 2) { b with came := b.came ++ [(t, c, v)] }

/-- A checked chunk with data takes its course. -/
def Bulk.take (b : Bulk) (g : Geo) (st : StageId) (elem : Nat) (v : Cargo) (data : List Byte) : Bulk :=
  let k := elem / elemsPerChunk g.type
  match st with
  | (false, 0) => if g.op = 3 then b.scatter g k 0 data else b.takeFold g (elem / 512) v
  | (false, t) => if g.op = 3 then b.scatter g k t data else b.takeRound g t (elem / 512) v
  | (true, 0) => b.toWrite g elem data
  | (true, 15) => b.toWrite g elem data
  | (true, t) => if g.op = 4 then b.collect g k data else b.hold g k t data

/-- The data a member enters with: its sums, or the byte chunks of its source. -/
def Bulk.enter (b : Bulk) (g : Geo) (wire : Nat → Cargo) (bytes : Nat → List Byte) : Bulk :=
  if opCombines g.op then
    if g.p ≤ g.r then (List.range g.wires).foldl (fun b c => b.queue g (false, 0) (c * 512) (wire c) []) b
    else
      (List.range g.wires).foldl (fun b c => Bulk.advance g c (g.l + 2) (b.setPart c (some (0, wire c)))) b
  else match g.src with
    | none => b
    | some (lo, m) =>
      let e := elemsPerChunk g.type
      (List.range (m / e)).foldl (fun b i =>
        let k := lo / e + i
        if g.op = 3 then
          (if g.p ≤ g.root then b.queue g (false, 0) (k * e) Cargo.empty (bytes i) else b.scatter g k 0 (bytes i))
        else b.hold g k (g.l + 1) (bytes i)) b

/-- Whether stage `st` may be sent in: the first chunk of every earlier stage in which the member receives has come (R304). -/
def Bulk.gate (b : Bulk) (g : Geo) (st : StageId) : Bool := (g.mine.takeWhile (· != st)).all (fun e => b.heard.contains e)

/-- Whether the first chunks of all stages in which the member receives have come and agreed (R305). -/
def Bulk.allHeard (b : Bulk) (g : Geo) : Bool := g.mine.all (fun e => b.heard.contains e)

/-- Everything is sent and written (R309). -/
def Bulk.done (b : Bulk) (g : Geo) : Bool :=
  b.agreed && b.outbox.isEmpty && b.writes.isEmpty && g.mine.all (fun e => b.began.contains e) && b.sent == g.allSends
    && (match g.dst with
        | some (_, m) => b.dst.isNone || b.written.length == m / g.dstElems
        | none => true)

end Sys2Proof.Machine
end

