-- ==== Sys2Proof/Machine/Tasks.lean ====
section
/-! DEFINITION. Tasks: home cores (R125, R203), deques (R117, R118), spawns by the device (R203), and the start of a task
(R31, R40, R114). -/

namespace Sys2Proof.Machine

/-! ### Home cores (R125) -/

/-- Exchange two entries of a list. -/
def swapAt (p : List Nat) (i j : Nat) : List Nat := (p.set i (p.getD j 0)).set j (p.getD i 0)

/-- The loop of home_perm, `j` from `n − 1` down to 1. -/
def permLoop (seed c : Nat) : Nat → List Nat → List Nat
  | 0, p => p
  | j + 1, p => permLoop seed c j (swapAt p (j + 1) (srBits seed c (j + 1) % (j + 2)))

/-- home_perm of R125. -/
def homePerm (seed c n : Nat) : List Nat := permLoop seed c (n - 1) (List.range n)

/-- PLC_SEED. -/
def plcSeed (s : State) : Nat := (rd s Reg.PLC_SEED).toNat

/-- A core group cut to the `n` cores of the partition; the whole partition if none remain (R127): first core and count. -/
def cutGroup (n : Nat) (g : Option (Nat × Nat)) : Nat × Nat :=
  match g with
  | none => (0, n)
  | some (a, b) => if a < n ∧ a ≤ b then (a, min b (n - 1) + 1 - a) else (0, n)

/-- The class index of the default class (R125). -/
def defaultClass : Nat := 0xFFFF

/-- The home core of index `i` in a class: class index, distribution, count, group (R125). -/
def homeIn (s : State) (n c : Nat) (block : Bool) (count : Nat) (group : Option (Nat × Nat)) (i : Nat) : Nat :=
  let g := cutGroup n group
  let j := if block then (if count = 0 then 0 else i * g.2 / count) else (if g.2 = 0 then 0 else i % g.2)
  g.1 + (homePerm (plcSeed s) c g.2).getD j 0

/-- The class of a task id: its index in the manifest and the class. DESIGN CHOICE (log entry 70): an id that several classes cover
belongs to the first of them in the manifest. -/
def classOf (m : Manifest) (tid : Nat) : Option (Nat × ManClass) :=
  (m.classes.zipIdx.find? (fun e => decide (e.1.first ≤ tid) && decide (tid < e.1.first + e.1.count))).map (fun e => (e.2, e.1))

/-- The home core and the pinned group of a task id given to K.SPAWN or a launch task (R125, R120). -/
def homeOf (s : State) (x tid : Nat) : Nat × Option (Nat × Nat) :=
  let n := (coresOf s (getCtx s x).part).length
  match manOf s x with
  | none => (0, none)
  | some m =>
    match classOf m tid with
    | none => (homeIn s n defaultClass false 0 none tid, none)
    | some (c, k) =>
      (homeIn s n c k.block k.count k.group (tid - k.first),
        k.group.map (fun g => let h := cutGroup n (some g); (h.1, h.1 + h.2 - 1)))

/-- The home core and group of a task that the device spawns in class `c` of the manifest, or the default class (R203). -/
def homeDevice (s : State) (x : Nat) (c : Option Nat) (i : Nat) : Nat × Option (Nat × Nat) :=
  let n := (coresOf s (getCtx s x).part).length
  match manOf s x with
  | none => (0, none)
  | some m =>
    match c.bind (fun c => (m.classes[c]?).map (fun k => (c, k))) with
    | none => (homeIn s n defaultClass false 0 none i, none)
    | some (c, k) =>
      (homeIn s n c k.block k.count k.group (if k.block ∧ k.count ≠ 0 then i % k.count else i),
        k.group.map (fun g => let h := cutGroup n (some g); (h.1, h.1 + h.2 - 1)))

/-! ### Entry words (R336) -/

def entryHandle (w : Word) : Nat := bitsOf 13 0 w
def entryOffset (w : Word) : Nat := bitsOf 54 14 w

/-- What is wrong with an entry (R41, R336): the handle is not VALID, its region is not CODE, or the offset is not a
multiple of 8 or reaches past the region. -/
def entryCheck (s : State) (x l : Nat) (w : Word) : Option Refuse :=
  let e := handleOf s x l (entryHandle w)
  let o := entryOffset w
  if !e.valid then some (refHandle (entryHandle w) 1 0)
  else if !e.code then some (refHandle (entryHandle w) 4 0)
  else if o % 8 ≠ 0 ∨ e.size < o + 8 then
    some (refBound (entryHandle w) (if o + 8 ≤ e.size then o else max o e.size) e.size)
  else none

/-! ### The start of a task (R31, R40, R114) -/

/-- A message's handler task starts (R277). -/
def markStarted (s : State) (k : TaskKind) : State :=
  match k with
  | .ringHandler r m e =>
    let q := getRing s r
    if q.epoch = e then
      setRing s r { q with msgs := q.msgs.map (fun v => if v.id = m then { v with stage := .started } else v) }
    else s
  | _ => s

/-- The contents of SCRATCH are undefined at task start (R40). -/
def freshScratch (s : State) (x l : Nat) : State :=
  match manOf s x with
  | none => s
  | some m =>
    let (bs, s) := drawBytes s m.scratch
    writeBytes s ((getCtx s x).scratch.getD l 0) bs

/-- The running state of a task as it starts. -/
def Running.begin_ (t : Task) (base size : Nat) : Running :=
  { task := t, base := base, size := size, pc := base + entryOffset t.entry, regs := TaskRegs.start t.args,
    tokens := Vector.replicate 32 0, seq := none, array := [], vector := [], mover0 := [], mover1 := [], transposer := [],
    comm := [], flying := [], ended := false, poisonStop := false, acked := false, nextId := 0 }

/-- A forager starts a task on a core; an entry that fails R41 is refused (R521). -/
def startTask (s : State) (x l : Nat) (t : Task) : State :=
  let e := handleOf s x l (entryHandle t.entry)
  let s := freshScratch (markStarted s t.kind) x l
  let s := setRun s x l (some (Running.begin_ t e.base e.size))
  match entryCheck s x l t.entry with
  | some r => refuseInstr s x l (e.base + entryOffset t.entry) 0 0 r
  | none => s

/-- An idle core of the running context takes the task at the near end of its deque (R114, R118). -/
def dispatchCore (s : State) (x l : Nat) : State :=
  let k := getCore s x l
  match k.run, k.deque with
  | none, t :: ts => if runningCtx s x then startTask (setCore s x l { k with deque := ts }) x l t else s
  | _, _ => s

/-- Every core of the running context. -/
def dispatchAll (s : State) (x : Nat) : State :=
  (List.range (coresOf s (getCtx s x).part).length).foldl (fun s l => dispatchCore s x l) s

/-! ### Deques (R117, R118, R203, R212) -/

/-- The capacity of a core's deque (R117). -/
def dequeCap (s : State) (x : Nat) : Nat :=
  match manOf s x with
  | some m => 64 + m.dequeEntries
  | none => 64

/-- Whether a core's deque has room. -/
def dequeRoom (s : State) (x l : Nat) : Bool := decide ((getCore s x l).deque.length < dequeCap s x)

/-- A task pushed onto one end of a deque; an idle core takes it at once. -/
def pushTask (s : State) (x l : Nat) (near : Bool) (t : Task) : State :=
  let k := getCore s x l
  dispatchCore (setCore s x l { k with deque := if near then t :: k.deque else k.deque ++ [t] }) x l

/-- A task that the device spawns: held while the deque has no room, or while earlier spawns are held (R203). -/
def spawnTask (s : State) (x : Nat) (near : Bool) (t : Task) : State :=
  let k := getCore s x t.home
  if k.held.isEmpty && dequeRoom s x t.home then pushTask s x t.home near t
  else setCore s x t.home { k with held := k.held ++ [(near, t)] }

end Sys2Proof.Machine
end

