-- ==== Sys2Proof/Machine/Sync.lean ====
section
/-! DEFINITION. Flags, barriers and their waits (R257 to R270, R338 to R342), the barrier trees (R319), and the completion of
communication instructions (R327, R328). -/

namespace Sys2Proof.Machine

/-! ### The flag map (R257) -/

/-- The map entry of a virtual name. -/
def flagEntry (s : State) (x name : Nat) : Nat := Sparse.get 0 (getCtx s x).flagMap (name % 65536)

def entryValid (e : Nat) : Bool := e.testBit 0
def entryBarrier (e : Nat) : Bool := e.testBit 1
def entryIndex (e : Nat) : Nat := (e / 4) % 8192
def entryRemote (e : Nat) : Bool := e.testBit 15
def entryScoped (e : Nat) : Bool := e.testBit 16

/-- An entry word from its fields. -/
def mkEntry (barrier : Bool) (index : Nat) (remote stepScoped : Bool) : Nat :=
  1 + 2 * bnat barrier + 4 * index + 2 ^ 15 * bnat remote + 2 ^ 16 * bnat stepScoped

/-! ### Completion of communication instructions (R327) -/

/-- The instruction `id` writes its status or result registers, then posts its token and completes. -/
def finishComm (s : State) (x l id : Nat) (ws : List (GReg × Word)) : State :=
  completeFlight (ws.foldl (fun s w => writeG s x l w.1 w.2) s) x l id

/-- The instruction `id` is refused as it runs: no post, its context FAULTED (R47). -/
def refuseFlight (s : State) (x l : Nat) (f : Flight) (step : Nat) (r : Refuse) : State :=
  refuseInstr (abandonFlight s x l f.id) x l f.pc f.word step r

/-- Everything started on any core: context, logical core, instruction. -/
def allFlying (s : State) : List (Nat × Nat × Flight) :=
  s.ctxs.flatMap fun (x, c) => c.cores.flatMap fun (l, k) =>
    match k.run with
    | some r => r.flying.map (fun f => (x, l, f))
    | none => []

/-- The instruction `id` begins to wait, in its turn (R264, R289). -/
def beginWait (s : State) (x l id : Nat) (w : CommWait) : State :=
  updFlight { s with waitSeq := s.waitSeq + 1 } x l id
    (fun f => { f with waits := w, order := s.waitSeq, since := beat s, ticks := 0 })

/-- The timeout of a wait (R265, R339): the register's low half, or the context's default; 0 is treated as 1. -/
def timeoutOf (s : State) (x : Nat) (v : Word) : Nat :=
  let t := v.toNat % 2 ^ 32
  if t = 0 then max 1 (fld s (Reg.SYN_TMO x) Fld.SYN_TMO_BEATS) else t

/-! ### Flags (R261 to R264) -/

/-- A wait on a flag: whether it consumes, and where its SOFT status goes. -/
def flagWait (i : CInstr) : Option (Bool × Option GReg) :=
  match i with
  | .sWait _ _ consume soft _ gs => some (consume, if soft then some gs else none)
  | _ => none

/-- Whether a started wait on flag `f` consumes it. -/
def waitsOn (f : Nat) (consume : Bool) (e : Nat × Nat × Flight) : Bool :=
  e.2.2.waits == .flag f && (flagWait e.2.2.op.instr).map (·.1) == some consume

/-- A completed flag or barrier wait posts, a SOFT one writing 0 (R266). -/
def wakeWait (s : State) (e : Nat × Nat × Flight) : State :=
  let soft : Option GReg := match e.2.2.op.instr with
    | .sWait _ _ _ true _ gs => some gs
    | .sBar _ _ _ true _ gs _ => some gs
    | .sBwait _ _ true _ gs _ => some gs
    | _ => none
  finishComm s e.1 e.2.1 e.2.2.id (soft.toList.map (fun g => (g, 0)))

/-- The waits of a list whose context runs, in the order they began. -/
def liveWaits (s : State) (p : Nat × Nat × Flight → Bool) : List (Nat × Nat × Flight) :=
  sortBy (fun e => e.2.2.order) ((allFlying s).filter (fun e => p e && runningCtx s e.1))

/-- Steps 3 and 4 of R264: KEEP waits, then the CONSUME wait that began first. -/
def judgeFlag (s : State) (f : Nat) : State :=
  if !(getFlag s f).value then s
  else
    let s := (liveWaits s (waitsOn f false)).foldl wakeWait s
    match liveWaits s (waitsOn f true) with
    | [] => s
    | e :: _ => wakeWait (setFlag s f { getFlag s f with value := false }) e

/-- A set (R261): merged when VALUE is 1. `source` is 1 instruction, 2 collective, 3 remote, 4 host; `site` is the core and program
counter of the instruction of source 1 (R289). -/
def setFlagAt (s : State) (x name source rank : Nat) (site : Option (Nat × Nat)) : State :=
  let f := entryIndex (flagEntry s x name)
  let p := (getCtx s x).part
  let v := getFlag s f
  let s1 :=
    if v.value then
      let n := satAdd 8 v.merges 1
      let s := setFlag s f { v with merges := n }
      let s := bump s (Reg.SYN_STAT p) Fld.SYN_STAT_OVERSIGNALS 1
      if flg s (Reg.SYN_PART p) Fld.SYN_PART_OVERSIGNAL_EN then
        match site with
        | some (l, pc) => raiseInstr s x l pc 0x0403 sevInfo f (name % 65536) n source 0
        | none => raiseCtx s x 0x0403 sevInfo f (name % 65536) n source (if source = 3 then rank else 0)
      else s
    else setFlag s f { v with value := true }
  judgeFlag s1 f

/-- A set that no instruction makes. -/
def setFlagName (s : State) (x name source rank : Nat) : State := setFlagAt s x name source rank none

/-- A clear (R261). -/
def clearFlagName (s : State) (x name : Nat) : State :=
  let f := entryIndex (flagEntry s x name)
  setFlag s f { getFlag s f with value := false }

/-! ### Barriers (R269, R270) and their trees (R319) -/

/-- The tree of a barrier that spans devices. -/
def barTree (s : State) (b : Nat) : Option Nat :=
  (s.trees.find? (fun e => e.2.valid && !e.2.relay && e.2.local_ == b)).map (·.1)

/-- A barrier in its load state (R260, R269), generation 0 on the tree that it spans devices by too (R319). -/
def loadBarrier (s : State) (b e : Nat) : State :=
  let s := setBar s b ⟨0, max 1 e, 0, [], false⟩
  match barTree s b with
  | some k => setTree s k { getTree s k with entries := [], released := 0 }
  | none => s

/-- Every flag and barrier that a map names is in its load state (R260, R269). -/
def loadFlags (s : State) (fl : List ManFlag) : State :=
  fl.foldl (fun s e => if e.barrier then loadBarrier s e.index e.expect else setFlag s e.index FlagSt.off) s

/-- A barrier wait that a release of `g` satisfies. -/
def waitsBar (b g : Nat) (e : Nat × Nat × Flight) : Bool :=
  match e.2.2.waits with
  | .barrier b' g' _ => b' == b && decide (g' ≤ g)
  | _ => false

/-- The barrier's waits judged. -/
def judgeBar (s : State) (b : Nat) : State := (liveWaits s (waitsBar b (getBar s b).g)).foldl wakeWait s

/-- G becomes G + 1. -/
def releaseBar (s : State) (b : Nat) : State :=
  let v := getBar s b
  judgeBar (setBar s b { v with g := v.g + 1, arrived := 0, up := false }) b

/-- The children of a tree node that have entered generation `g`. -/
def enteredAll (v : WTree) (g : Nat) : Bool :=
  (bitList 16 v.down).all (fun p => v.entries.contains (some p, g)) && (v.relay || v.entries.contains (none, g))

/-- A node releases generation `g`: down its ports, and at its own barrier (R319). -/
def treeRelease (s : State) (k g : Nat) : State :=
  let v := getTree s k
  let s := setTree s k { v with entries := v.entries.filter (fun e => decide (g < e.2)), released := g }
  let s := (bitList 16 v.down).foldl (fun s p => emit s (.barDown k p g)) s
  if v.relay then bump s Reg.WGL_RELAY Fld.WGL_RELAY_RELAYED 1
  else releaseBar (bump s Reg.WGL_STAT Fld.WGL_STAT_BARRIERS 1) v.local_

/-- An entry for generation `g` reaches a node from a child port, or from its own barrier (R319). -/
def treeEntry (s : State) (k : Nat) (port : Option Nat) (g : Nat) : State :=
  let v := getTree s k
  if g = v.released + 1 then
    let v := { v with entries := if v.entries.contains (port, g) then v.entries else v.entries ++ [(port, g)] }
    let s := setTree s k v
    if enteredAll v g then (if v.root then treeRelease s k g else emit s (.barUp k v.up g)) else s
  else if g = v.released + 2 then
    let addr := match port with
      | some p => fld s (Reg.FAB_PSTATk p) Fld.FAB_PSTATk_REMOTE_ADDR
      | none => 0
    raiseDev s codeOverrun sevError v.local_ addr g v.released 0
  else s

/-- A barrier whose E local participants have entered releases, or enters its tree (R269, R319). -/
def barComplete (s : State) (b : Nat) : State :=
  let v := getBar s b
  if v.arrived = v.e ∧ v.e ≠ 0 ∧ !v.up then
    match barTree s b with
    | none => releaseBar s b
    | some k => treeEntry (setBar s b { v with up := true }) k none (v.g + 1)
  else s

/-- Participant `i` enters a barrier whose G is one below the generation it asks for. -/
def enterBar (s : State) (b i : Nat) : State :=
  let v := getBar s b
  barComplete (setBar s b { v with arrived := v.arrived + 1, gens := Sparse.set 0 v.gens i (Sparse.get 0 v.gens i + 1) }) b

/-! ### Checks at issue (R259, R269) -/

/-- The virtual name of R339. -/
def sName (g : TaskRegs) (name : Nat) (gx : GReg) : Nat := (name + (g.getG gx).toNat % 65536) % 65536

/-- A name must map to an object of the kind. -/
def needName (s : State) (x name : Nat) (barrier : Bool) : Option Refuse :=
  let e := flagEntry s x name
  if !entryValid e then some (refUnmapped name 1 e)
  else if entryBarrier e != barrier then some (refUnmapped name 2 e)
  else none

/-- A participant index of E or above (R269). -/
def needParticipant (s : State) (x name i : Nat) : Option Refuse :=
  let e := flagEntry s x name
  if (getBar s (entryIndex e)).e ≤ i then some (refUnmapped name 3 e) else none

/-- Step 5 of the S family. A remote set names the peer's map, unless the rank is the device's own (R262, R340). -/
def sStep5 (s : State) (x : Nat) (g : TaskRegs) (i : CInstr) : Option Refuse :=
  match i with
  | .sSet name gx remote gr _ =>
    if remote && rankAt s x (g.getG gr).toNat != .here then none else needName s x (sName g name gx) false
  | .sClr name gx => needName s x (sName g name gx) false
  | .sWait name gx _ _ _ _ => needName s x (sName g name gx) false
  | .sBar name gx _ _ _ _ gi | .sBwait name gx _ _ _ gi =>
    firstRefusal [needName s x (sName g name gx) true,
      needParticipant s x (sName g name gx) ((g.getG gi).toNat % 65536)]
  | _ => none

/-! ### Execution (R340 to R342) -/

/-- The status word of R274. -/
def statusWord (reason epoch : Nat) : Word := BitVec.ofNat 64 (reason % 16 + (epoch % 65536) * 16)

/-- The reason NO_HANDLER of R275. -/
def noHandler : Nat := 7

/-- S.SET: here, or sent to the device of a rank; no such rank, or no route to it: NO_HANDLER at once (R340). -/
def runSet (s : State) (x l : Nat) (f : Flight) (name : Nat) (gx : GReg) (remote : Bool) (gr gs : GReg) : State :=
  let n := sName f.regs name gx
  if !remote then finishComm (setFlagAt s x n 1 0 (some (l, f.pc))) x l f.id []
  else
    let r := (f.regs.getG gr).toNat
    match rankAt s x r with
    | .here => finishComm (setFlagAt s x n 1 0 (some (l, f.pc))) x l f.id [(gs, 0)]
    | .nowhere => finishComm s x l f.id [(gs, statusWord noHandler 0)]
    | .away a =>
      match routeTo s a with
      | none => finishComm s x l f.id [(gs, statusWord noHandler 0)]
      | some _ => beginWait (emit s (.remoteSet x r n)) x l f.id (.answer r 0)

/-- S.WAIT: complete at once on a set flag, else wait (R263). -/
def runWait (s : State) (x l : Nat) (f : Flight) (name : Nat) (gx : GReg) : State :=
  let b := entryIndex (flagEntry s x (sName f.regs name gx))
  judgeFlag (beginWait s x l f.id (.flag b)) b

/-- S.BAR (R269, R342): an entry for generation G + 2 is refused. -/
def runBar (s : State) (x l : Nat) (f : Flight) (name : Nat) (gx : GReg) (split : Bool) (gi : GReg) : State :=
  let n := sName f.regs name gx
  let b := entryIndex (flagEntry s x n)
  let i := (f.regs.getG gi).toNat % 65536
  let v := getBar s b
  let want := Sparse.get 0 v.gens i + 1
  if want = v.g + 1 then
    if split then finishComm (enterBar s b i) x l f.id []
    else judgeBar (enterBar (beginWait s x l f.id (.barrier b want i)) b i) b
  else refuseFlight s x l f 5 (refOverrun b i want v.g n)

/-- S.BWAIT (R270, R342). -/
def runBwait (s : State) (x l : Nat) (f : Flight) (name : Nat) (gx gi : GReg) : State :=
  let b := entryIndex (flagEntry s x (sName f.regs name gx))
  let i := (f.regs.getG gi).toNat % 65536
  judgeBar (beginWait s x l f.id (.barrier b (Sparse.get 0 (getBar s b).gens i) i)) b

def execSSet (x l id : Nat) (s : State) : Host.Outcome State Fault Refusal :=
  match startedAt s x l id with
  | some (_, f) => match f.waits, f.op.instr with
    | .none, .sSet name gx remote gr gs => .next (runSet s x l f name gx remote gr gs)
    | _, _ => .next s
  | none => .next s

def execSClr (x l id : Nat) (s : State) : Host.Outcome State Fault Refusal :=
  match startedAt s x l id with
  | some (_, f) => match f.op.instr with
    | .sClr name gx => .next (finishComm (clearFlagName s x (sName f.regs name gx)) x l f.id [])
    | _ => .next s
  | none => .next s

def execSWait (x l id : Nat) (s : State) : Host.Outcome State Fault Refusal :=
  match startedAt s x l id with
  | some (_, f) => match f.waits, f.op.instr with
    | .none, .sWait name gx _ _ _ _ => .next (runWait s x l f name gx)
    | _, _ => .next s
  | none => .next s

def execSBar (x l id : Nat) (s : State) : Host.Outcome State Fault Refusal :=
  match startedAt s x l id with
  | some (_, f) => match f.waits, f.op.instr with
    | .none, .sBar name gx split _ _ _ gi => .next (runBar s x l f name gx split gi)
    | _, _ => .next s
  | none => .next s

def execSBwait (x l id : Nat) (s : State) : Host.Outcome State Fault Refusal :=
  match startedAt s x l id with
  | some (_, f) => match f.waits, f.op.instr with
    | .none, .sBwait name gx _ _ _ gi => .next (runBwait s x l f name gx gi)
    | _, _ => .next s
  | none => .next s

/-- A set from the device of rank `rank` reaches context `x` (R262). -/
def execRemoteSetArrival (rank x name : Nat) (s : State) : Host.Outcome State Fault Refusal :=
  let e := flagEntry s x name
  let n := name % 65536
  if residentIn s x && entryValid e && !entryBarrier e && entryRemote e then
    .next (emit (setFlagName s x n 3 rank) (.setAnswer rank n 0))
  else
    let s := raiseCtx s x codeUnmapped sevError n 4 rank e 0
    .next (emit s (.setAnswer rank n noHandler))

/-- A child's barrier entry reaches this node of its tree (R319). -/
def execWaggleBarrierEntry (tree port gen : Nat) (s : State) : Host.Outcome State Fault Refusal :=
  let v := getTree s tree
  if v.valid ∧ v.down.testBit port then .next (treeEntry s tree (some port) gen) else .next s

/-- The root's release reaches this node (R319). -/
def execWaggleBarrierRelease (tree gen : Nat) (s : State) : Host.Outcome State Fault Refusal :=
  let v := getTree s tree
  if v.valid ∧ !v.root ∧ gen = v.released + 1 then .next (treeRelease s tree gen) else .next s

end Sys2Proof.Machine
end

