-- ==== Sys2Proof/Machine/Rings.lean ====
section
/-! DEFINITION. Message rings (R271 to R283, R343 to R345) and the forced resets and gaps of FIFOs between clock domains
(R284 to R286). -/

namespace Sys2Proof.Machine

/-! ### The ring table (R271, R292) -/

/-- Slots of a ring (R272). -/
def Ring.size (r : Ring) : Nat := 2 ^ r.log2 / 32

/-- The five words of a ring (R271). -/
def Ring.words (r : Ring) : List Word :=
  if !r.valid then [BitVec.ofNat 64 (r.epoch * 2 ^ 33), 0, 0, 0, 0]
  else
    let w0 := 1 + 2 * r.st + 2 ^ 3 * bnat r.combining + 2 ^ 4 * bnat r.combInt + 2 ^ 5 * (r.log2 % 32) + 2 ^ 10 * (r.ctx % 64)
      + 2 ^ 16 * (r.part % 8) + 2 ^ 19 * (r.handlers % 128) + 2 ^ 26 * (r.tags % 128) + 2 ^ 33 * (r.epoch % 65536)
      + 2 ^ 49 * (r.handle % 16384)
    let w3 := r.lost % 2 ^ 32 + 2 ^ 32 * (r.expect % 65536) + 2 ^ 48 * (r.gFirst % 64) + 2 ^ 54 * (r.gLast % 64)
    let w4 := r.hHandle % 16384 + 2 ^ 14 * (r.hOffset % 2 ^ 41)
    [BitVec.ofNat 64 w0, BitVec.ofNat 64 r.wptr, BitVec.ofNat 64 r.rptr, BitVec.ofNat 64 w3, BitVec.ofNat 64 w4]

/-- The device address of a ring's slot (R272). -/
def slotAddr (s : State) (r : Ring) (k : Nat) : Nat := (handleOf s r.ctx 0 r.handle).base + 32 * k

/-- The receiving context takes messages: it is neither FAULTED nor STOPPED (R275); a ring whose context is gone is CLOSED (R279). -/
def ringCtxUp (s : State) (r : Ring) : Bool :=
  match (getCtx s r.ctx).st with
  | .faulted | .stopped => false
  | _ => true

/-! ### Judging a message (R275, R276) -/

/-- The free slots, and the slots before the end (R276). -/
def Ring.free (r : Ring) : Nat := r.size - (r.wptr - r.rptr)
def Ring.toEnd (r : Ring) : Nat := r.size - r.wptr % r.size

/-- The pad slots a message of `n` slots needs; none when it cannot be placed (R276). -/
def Ring.fit (r : Ring) (n : Nat) : Option Nat :=
  if n ≤ r.toEnd ∧ n ≤ r.free then some 0
  else if r.toEnd < n ∧ r.toEnd + n ≤ r.free then some r.toEnd
  else Option.none

/-- Header fields the program set (R273). -/
def msgTag (m : RingMsg) : Nat := leField m.bytes 4 4
def msgData (m : RingMsg) : Nat := leField m.bytes 16 8
def msgLen (m : RingMsg) : Nat := leField m.bytes 24 4

/-- SRC of a message: job rank and context (R273). -/
def msgSrc (m : RingMsg) : Nat := m.srcRank % 16384 + 16384 * (m.srcCtx % 64)

/-- The open entry of a tag. -/
def Ring.entryOf (r : Ring) (tag : Nat) : Option CombEntry := r.opened.find? (fun e => e.tag == tag)

/-- Order 5 of R275. -/
def msgMalformed (r : Ring) (m : RingMsg) : Bool :=
  let len := msgLen m
  (m.kind != 1) || !m.reservedClear || decide (m.slots = 0) || decide (16 < m.slots) || decide (m.bytes.length ≠ 32 * m.slots)
    || decide (leField m.bytes 28 4 ≠ 0) || decide (2 ^ 55 ≤ msgData m)
    || (r.combining && (decide (msgData m % 16384 ≠ 0) || decide (len % 4 ≠ 0) || decide (len < 4) || decide (256 < len)
        || decide ((m.slots - 1) * 32 < len)
        || (match r.entryOf (msgTag m) with
            | some e => decide (e.len ≠ len)
            | none => false)))

/-- Order 6 of R275. -/
def msgBound (s : State) (r : Ring) (m : RingMsg) : Bool :=
  let h := msgData m % 16384
  let e := handleOf s r.ctx 0 h
  decide (h ≠ 0) && (!e.valid || decide (e.size < msgData m / 16384 % 2 ^ 41 + msgLen m))

/-- The reason of the answer (R275): 0 accepted. -/
def judgeMsg (s : State) (r : Ring) (m : RingMsg) : Nat :=
  if !r.valid then 7
  else if r.st = 0 ∨ r.st = 3 ∨ !ringCtxUp s r then 2
  else if r.st = 2 then 3
  else if m.epoch % 65536 ≠ r.epoch then 4
  else if msgMalformed r m then 5
  else if msgBound s r m then 6
  else if r.combining then
    if (r.entryOf (msgTag m)).isNone ∧ r.tags ≤ r.opened.length + r.closed.length then 1 else 0
  else if (r.fit m.slots).isNone then 1 else 0

/-! ### Placement (R273, R276, R277) -/

/-- A header in ring memory (R273). -/
def headerBytes (kind slots epoch tag src seq data len : Nat) : List Byte :=
  leBytes 2 (kind + 16 * slots) ++ leBytes 2 epoch ++ leBytes 4 tag ++ leBytes 4 src ++ leBytes 4 seq ++ leBytes 8 data
    ++ leBytes 4 len ++ leBytes 4 0

/-- A pad of `n` slots, written with SLOTS `k` (R276, R277). -/
def placePad (s : State) (num n k : Nat) : State :=
  let r := getRing s num
  let pos := r.wptr % r.size
  let s := storeBytes s (slotAddr s r pos) (headerBytes 2 k r.epoch 0 0 0 0 0)
  setRing s num { r with wptr := r.wptr + n, nextMsg := r.nextMsg + 1,
                         msgs := r.msgs ++ [⟨r.nextMsg, pos, n, none, .capped, false⟩] }

/-- The pad before a message that would straddle the wrap (R276). -/
def placeWrap (s : State) (num n : Nat) : State :=
  match (getRing s num).fit n with
  | some 0 => s
  | some t => placePad s num t 0
  | none => s

/-- RPTR advances over what is consumed and over pads (R278). -/
def Ring.advance (r : Ring) : Ring :=
  let gone := r.msgs.takeWhile (fun m => m.hdr.isNone || m.consumed)
  { r with msgs := r.msgs.drop gone.length, rptr := r.rptr + (gone.map (·.slots)).sum }

/-- A message takes its slots and is capped (R277); a pad before it that RPTR has reached is passed (R278). -/
def placeMsg (s : State) (num n : Nat) (h : MsgHdr) (seq : Nat) (payload : List Byte) : State :=
  let s := placeWrap s num n
  let r := getRing s num
  let pos := r.wptr % r.size
  let s := storeBytes s (slotAddr s r pos) (headerBytes h.kind n r.epoch h.tag h.src seq h.data h.len ++ payload)
  setRing s num { r with wptr := r.wptr + n, nextMsg := r.nextMsg + 1,
                         msgs := r.msgs ++ [RMsg.mk r.nextMsg pos n (some h) .capped false] }.advance

/-- RPTR of a ring advanced. -/
def advanceRing (s : State) (num : Nat) : State := setRing s num (getRing s num).advance

/-! ### Combining (R281, R282) -/

/-- The elements of a contribution. -/
def contribution (int : Bool) (len : Nat) (payload : List Byte) : List FNum :=
  (List.range (len / 4)).map fun i =>
    let v := leField payload (4 * i) 4
    if int then FNum.ofInt (asSigned 32 v) else decodeFp fp32 false v

/-- A contribution added into the open entry of its tag, or into a new one; a full entry closes (R281). -/
def contribute (r : Ring) (m : RingMsg) : Ring :=
  let tag := msgTag m
  let vs := contribution r.combInt (msgLen m) (m.bytes.drop 32)
  let e : CombEntry := match r.entryOf tag with
    | some e => { e with sums := (e.sums.zip vs).map (fun (a, b) => FNum.sum [a, b]), count := e.count + 1 }
    | none => ⟨tag, msgLen m, vs.map (fun b => FNum.sum [b]), 1⟩
  let rest := r.opened.filter (fun e => e.tag != tag)
  if r.expect ≤ e.count then { r with opened := rest, closed := r.closed ++ [e] } else { r with opened := rest ++ [e] }

/-- One element of a combined message: its encoding, and whether it overflows (R282). -/
def combElem (int : Bool) (v : FNum) : Nat × Bool :=
  if int then (toTwos 32 v.toInt, decide (v.toInt < -2147483648) || decide (2147483647 < v.toInt))
  else let (c, e) := castFp fp32 .rne 0 false false v; (c, e.overflow)

/-- Slots of a combined message (R281). -/
def combSlots (len : Nat) : Nat := 1 + ceilDiv len 32

/-- A closed entry is placed as a message of KIND 3 (R281, R282). -/
def placeCombined (s : State) (num : Nat) (e : CombEntry) : State :=
  let r := getRing s num
  let es := e.sums.map (combElem r.combInt)
  let n := combSlots e.len
  let data := es.flatMap (fun v => leBytes 4 v.1)
  let s := setRing s num { r with closed := r.closed.erase e }
  let s := placeMsg s num n ⟨3, e.tag, e.count, 0, e.len⟩ 0 (data ++ List.replicate (32 * (n - 1) - data.length) 0)
  match (es.zipIdx.find? (fun v => v.1.2)) with
  | some v => raise s { plainRec 0x0503 sevInfo num e.tag v.2 e.count (bnat r.combInt) with part := some r.part, ctx := some r.ctx }
  | none => s

/-! ### Arrival (R275 to R277) -/

/-- An accepted message taken into the ring: capped, or, not intact, rewound into a pad (R277); a contribution added. -/
def acceptMsg (s : State) (num : Nat) (m : RingMsg) (intact : Bool) : State :=
  let r := getRing s num
  if r.combining then (if intact then setRing s num (contribute r m) else s)
  else if intact then
    placeMsg s num m.slots ⟨1, msgTag m, msgSrc m, msgData m, msgLen m⟩ m.seq (m.bytes.drop 32)
  else advanceRing (placePad (placeWrap s num m.slots) num m.slots m.slots) num

/-- The first byte outside the partition's memory that a message of `n` slots, with its pad, would be written to (R138, R276). -/
def slotsBad (s : State) (r : Ring) (n : Nat) : Option Nat :=
  let pos := r.wptr % r.size
  match r.fit n with
  | none => none
  | some 0 => firstOut s (some r.part) [(slotAddr s r pos, 32 * n)]
  | some _ => firstOut s (some r.part) [(slotAddr s r pos, 32), (slotAddr s r 0, 32 * n)]

/-- The byte for which a message is refused under R138; a contribution writes no memory (R281). -/
def msgBad (s : State) (r : Ring) (m : RingMsg) : Option Nat := if r.combining then none else slotsBad s r m.slots

/-- The answer to a message, and the state once its refusal under R138 is logged. DESIGN CHOICE (log entry 72): such a message is
answered BOUND. -/
def judgeArrival (s : State) (r : Ring) (m : RingMsg) : State × Nat :=
  let reason := judgeMsg s r m
  match if reason = 0 then msgBad s r m else none with
  | some a => (refuseAccess s r.ctx a, 6)
  | none => (s, reason)

/-- A message reaches a ring: it is judged, taken and answered; an accepted message that fails its check has no answer of its
own, as it never becomes visible (R277, R287). -/
def ringArrive (s : State) (num : Nat) (m : RingMsg) (intact : Bool) : State × Nat :=
  let r := getRing s num
  let (s, reason) := judgeArrival s r m
  let s := if reason = 0 then acceptMsg s num m intact else s
  let s := if !r.valid then s
    else if reason = 0 then (if intact then bump s (Reg.MSG_STAT r.part) Fld.MSG_STAT_ACCEPTED 1 else s)
    else bump s (Reg.MSG_STAT r.part) Fld.MSG_STAT_NACKED 1
  (s, reason)

def execRingMessageArrival (ring : Nat) (m : RingMsg) (intact : Bool) (s : State) : Host.Outcome State Fault Refusal :=
  let e := if (getRing s ring).valid then (getRing s ring).epoch else 0
  let (s1, reason) := ringArrive s ring m intact
  if reason = 0 ∧ !intact then .next s1
  else .next (emit s1 (.ringAnswer ring m.srcRank m.srcCtx m.seq reason e))

/-- A closed combining entry is placed once the ring has room (R281). -/
def execCombinedMessagePlace (ring tag : Nat) (s : State) : Host.Outcome State Fault Refusal :=
  let r := getRing s ring
  match r.closed.find? (fun e => e.tag == tag) with
  | some e =>
    if r.valid ∧ r.st ≠ 3 ∧ (r.fit (combSlots e.len)).isSome then
      match slotsBad s r (combSlots e.len) with
      | some a => .next (refuseAccess s r.ctx a)
      | none => .next (placeCombined s ring e)
    else .next s
  | none => .next s

/-! ### Dispatch (R203, R277) -/

/-- The first capped message not yet dispatched: nothing capped lies before it undispatched. -/
def Ring.nextDue (r : Ring) : Option (RMsg × MsgHdr) :=
  (r.msgs.find? (fun m => m.hdr.isSome && m.stage == .capped)).bind (fun m => m.hdr.map (fun h => (m, h)))

/-- The core group of a ring's handlers, cut to the partition. -/
def ringGroup (s : State) (r : Ring) : Nat × Nat := cutGroup (coresOf s r.part).length (some (r.gFirst, r.gLast))

/-- The handler task of a message (R203, R277). -/
def handlerTask (s : State) (num : Nat) (r : Ring) (m : RMsg) (h : MsgHdr) : Task :=
  let g := ringGroup s r
  { entry := BitVec.ofNat 64 (r.hHandle % 16384 + 16384 * (r.hOffset % 2 ^ 41))
    args := [num, r.epoch, m.pos, m.slots, h.tag, h.src, h.data, h.len + 2 ^ 32 * h.kind].map (BitVec.ofNat 64)
    tid := 0
    home := homeIn s (coresOf s r.part).length (0x10000 + num) false 0 (some (r.gFirst, r.gLast)) r.dispatched
    group := some (g.1, g.1 + g.2 - 1)
    kind := .ringHandler num m.id r.epoch
    bound := .none }

def execHandlerDispatch (ring : Nat) (s : State) : Host.Outcome State Fault Refusal :=
  let r := getRing s ring
  match r.nextDue with
  | none => .next s
  | some (m, h) =>
    let t := handlerTask s ring r m h
    let st := (getCtx s r.ctx).st
    if r.valid ∧ r.st ≠ 3 ∧ (st = .runnable ∨ st = .running) ∧ r.active.length < r.handlers ∧ dequeRoom s r.ctx t.home
        ∧ (getCore s r.ctx t.home).held.isEmpty then
      let s := setRing s ring { r with
        msgs := r.msgs.map (fun v => if v.id = m.id then { v with stage := .spawned } else v)
        dispatched := r.dispatched + 1, active := r.active ++ [m.id] }
      .next (spawnTask s r.ctx true t)
    else .next s

/-! ### Consumption (R278) -/

/-- A handler's message is consumed, if its epoch is still the ring's. -/
def consumeMsg (s : State) (num m epoch : Nat) : State :=
  let r := getRing s num
  if r.epoch = epoch ∧ r.st ≠ 3 then
    setRing s num { r with msgs := r.msgs.map (fun (v : RMsg) => if v.id = m then { v with consumed := true } else v) }.advance
  else s

/-- A handler task has ended (R277, R278, R280). -/
def handlerEnded (s : State) (num m epoch : Nat) (acked : Bool) : State :=
  let r := getRing s num
  let s := setRing s num { r with active := r.active.filter (· != m) }
  if acked then s else consumeMsg s num m epoch

/-! ### Checks at issue (R274, R278, R343 to R345) -/

/-- Step 3 of the Q family. -/
def qStep3 (g : TaskRegs) (i : CInstr) : Option Refuse :=
  match i with
  | .qSend ts slots gr _ =>
    let w := g.getG gr
    let d := g.getT ts
    let ring := bitsOf 14 0 w
    if slots = 0 ∨ 16 < slots ∨ bitOf 15 w ∨ bitsOf 31 30 w ≠ 0 ∨ bitsOf 63 48 w ≠ 0 then
      some (refMalformed ring slots (bitsOf 29 16 w))
    else if !d.legal false || !(d.format == 0x0C) || decide (d.dim0 ≠ slots * 32) || decide (d.dim1 ≠ 1) || decide (d.dim2 ≠ 1)
    then some (refShape ts)
    else none
  | .qOpen gr _ | .qClose gr _ | .qReset gr _ =>
    if bitsOf 63 15 (g.getG gr) ≠ 0 then some (refMalformed (bitsOf 14 0 (g.getG gr)) 0 0) else none
  | _ => none

/-- Step 5 of the Q family. -/
def qStep5 (s : State) (x l : Nat) (k : TaskKind) (g : TaskRegs) (i : CInstr) : Option Refuse :=
  let ours (gr : GReg) : Option Refuse :=
    let n := bitsOf 14 0 (g.getG gr)
    let r := getRing s n
    if r.valid ∧ r.ctx = x ∧ residentIn s x then none else some (refHandle 0 5 n)
  match i with
  | .qSend ts _ _ _ => accessCheck s x l k false (g.getT ts)
  | .qAck => match k with
    | .ringHandler _ _ _ => none
    | _ => some (refHandle 0 5 0)
  | .qOpen gr _ | .qClose gr _ => ours gr
  | .qReset gr _ => firstRefusal [ours gr, match k with
    | .ringHandler r _ _ => if r = bitsOf 14 0 (g.getG gr) then some (refHandle 0 5 r) else none
    | _ => none]
  | _ => none

/-! ### Execution (R274, R278 to R280, R344, R345) -/

/-- The message image with the device's fields filled in (R273, R344). -/
def sendImage (s : State) (x l : Nat) (f : Flight) (ts : TReg) (slots epoch : Nat) : RingMsg :=
  let d := f.regs.getT ts
  let bs := readBytes s ((handleOf s x l d.handle).base + d.offset) (32 * slots)
  let rank := ownRank s x
  let seq := ((getCtx s x).sent + 1) % 2 ^ 32
  { srcRank := rank, srcCtx := x, epoch := epoch, kind := 1, seq := seq, reservedClear := decide (leField bs 28 4 = 0),
    slots := slots,
    bytes := leBytes 2 (1 + 16 * slots) ++ leBytes 2 epoch ++ (bs.drop 4).take 4 ++ leBytes 4 (rank % 16384 + 16384 * (x % 64))
      ++ leBytes 4 seq ++ bs.drop 16 }

/-- Q.SEND: sent to the device of its rank; no such rank: NO_HANDLER at once (R344). Poisoned source data stop it (R155). -/
def runSend (s : State) (x l : Nat) (f : Flight) (ts : TReg) (slots : Nat) (gr gs : GReg) : State :=
  let w := f.regs.getG gr
  let rank := bitsOf 29 16 w
  let d := f.regs.getT ts
  if rowPoisoned s (handleOf s x l d.handle).base d 0 then faultInstr (abandonFlight s x l f.id) x l f.pc
  else if rankAt s x rank = .nowhere then finishComm s x l f.id [(gs, statusWord noHandler 0)]
  else
    let m := sendImage s x l f ts slots (bitsOf 47 32 w)
    let c := getCtx s x
    let s := setCtx s x { c with sent := m.seq }
    beginWait (emit s (.ringMsg rank (bitsOf 14 0 w) m)) x l f.id (.answer rank (bitsOf 14 0 w))

/-- The word that Q.OPEN, Q.CLOSE and Q.RESET return (R345). -/
def ringStatus (r : Ring) : Word := BitVec.ofNat 64 (r.epoch % 65536 + 65536 * r.st)

/-- The register a ring operation writes. -/
def ringStatusReg : CInstr → GReg
  | .qOpen _ gs => gs
  | .qClose _ gs => gs
  | .qReset _ gs => gs
  | _ => 0

/-- A ring operation's instruction completes with the ring's status. -/
def finishRingOp (s : State) (x l id num : Nat) : State :=
  match startedAt s x l id with
  | some (_, f) => finishComm s x l id [(ringStatusReg f.op.instr, ringStatus (getRing s num))]
  | none => s

/-- A task that is the unstarted handler of one of the ring's messages. -/
def unstartedOf (num epoch : Nat) (t : Task) : Bool :=
  match t.kind with
  | .ringHandler r _ e => r == num && e == epoch
  | _ => false

/-- Handler tasks spawned and not started leave the deques of the context (R280 step 3). -/
def discardHandlers (s : State) (x num epoch : Nat) : State :=
  let c := getCtx s x
  setCtx s x { c with cores := c.cores.map fun (l, k) =>
    (l, { k with deque := k.deque.filter (fun t => !unstartedOf num epoch t)
                 held := k.held.filter (fun t => !unstartedOf num epoch t.2) }) }

/-- Steps 1 to 3 of R280. -/
def beginReset (s : State) (num : Nat) (by_ : Option (Nat × Nat × Nat)) : State :=
  let r := getRing s num
  let e := (r.epoch + 1) % 65536
  let gone := r.msgs.filter (fun m => m.hdr.isSome && m.stage != .started && !m.consumed)
  let lost := gone.length + r.opened.length + r.closed.length
  let total := satAdd 32 r.lost lost
  let s := discardHandlers s r.ctx num r.epoch
  let s := setRing s num { r with
    epoch := e, prior := r.st, st := 3, msgs := [], opened := [], closed := [], lost := total
    active := r.active.filter (fun i => !gone.any (fun m => m.id == i)), resetBy := by_ }
  if lost = 0 then s
  else
    let s := bump s (Reg.MSG_LOST r.part) Fld.MSG_LOST_LOST lost
    raise s { plainRec 0x0502 sevInfo num lost r.epoch e total with part := some r.part, ctx := some r.ctx }

/-- Q.OPEN, Q.CLOSE or Q.RESET acting on a ring that is not RESETTING (R345). -/
def ringAct (s : State) (x l id num : Nat) (op : RingOp) : State :=
  let r := getRing s num
  match op with
  | .open_ => finishRingOp (setRing s num { r with st := 1 }) x l id num
  | .close => finishRingOp (setRing s num { r with st := 2 }) x l id num
  | .reset => beginReset (updFlight s x l id (fun f => { f with waits := .ringReset num })) num (some (x, l, id))

/-- An operation on a ring: at once, or, while the ring resets, when the reset completes (R345). -/
def ringOp (s : State) (x l id num : Nat) (op : RingOp) : State :=
  let r := getRing s num
  if r.st = 3 then
    updFlight (setRing s num { r with ops := r.ops ++ [(x, l, id, op)] }) x l id (fun f => { f with waits := .ringReset num })
  else ringAct s x l id num op

/-- The operations that waited for a reset, up to the next reset. -/
def runOps (s : State) (num : Nat) : List (Nat × Nat × Nat × RingOp) → State
  | [] => s
  | o :: os =>
    if (getRing s num).st = 3 then
      let r := getRing s num
      setRing s num { r with ops := o :: os }
    else runOps (ringAct s o.1 o.2.1 o.2.2.1 num o.2.2.2) num os

/-- Step 5 of R280. -/
def endReset (s : State) (num : Nat) : State :=
  let r := getRing s num
  let ops := r.ops
  let s := setRing s num { r with wptr := 0, rptr := 0, dispatched := 0, st := r.prior, resetBy := none, ops := [] }
  let s := match r.resetBy with
    | some (x, l, id) => finishRingOp s x l id num
    | none => s
  runOps s num ops

/-- What a Q.SEND's reads meet (R151, R155 to R158, R164). -/
def sendMeet (s : State) (x l : Nat) (f : Flight) (ts : TReg) (ecc : List EccEvent) : State :=
  meet s x l false (rowTouches s x l (f.regs.getT ts) [0]) [] ecc

def execQSend (x l id : Nat) (ecc : List EccEvent) (s : State) : Host.Outcome State Fault Refusal :=
  match startedAt s x l id with
  | some (_, f) => match f.waits, f.op.instr with
    | .none, .qSend ts slots gr gs => .next (runSend (sendMeet s x l f ts ecc) x l f ts slots gr gs)
    | _, _ => .next s
  | none => .next s

def execQAck (x l id : Nat) (s : State) : Host.Outcome State Fault Refusal :=
  match startedAt s x l id with
  | some (r, f) => match f.op.instr with
    | .qAck => match r.task.kind with
      | .ringHandler n m e =>
        let s1 := if r.acked then s else consumeMsg s n m e
        let s2 := match getRun s1 x l with
          | some q => setRun s1 x l (some { q with acked := true })
          | none => s1
        .next (finishComm s2 x l id [])
      | _ => .next (finishComm s x l id [])
    | _ => .next s
  | none => .next s

def execQOpen (x l id : Nat) (s : State) : Host.Outcome State Fault Refusal :=
  match startedAt s x l id with
  | some (_, f) => match f.waits, f.op.instr with
    | .none, .qOpen gr _ => .next (ringOp s x l id (bitsOf 14 0 (f.regs.getG gr)) .open_)
    | _, _ => .next s
  | none => .next s

def execQClose (x l id : Nat) (s : State) : Host.Outcome State Fault Refusal :=
  match startedAt s x l id with
  | some (_, f) => match f.waits, f.op.instr with
    | .none, .qClose gr _ => .next (ringOp s x l id (bitsOf 14 0 (f.regs.getG gr)) .close)
    | _, _ => .next s
  | none => .next s

def execQReset (x l id : Nat) (s : State) : Host.Outcome State Fault Refusal :=
  match startedAt s x l id with
  | some (_, f) => match f.waits, f.op.instr with
    | .none, .qReset gr _ => .next (ringOp s x l id (bitsOf 14 0 (f.regs.getG gr)) .reset)
    | _, _ => .next s
  | none => .next s

/-- The answer to a send or a remote set (R262, R267, R274): the status word, then the post. -/
def execSendAnswerArrival (x l id reason epoch : Nat) (s : State) : Host.Outcome State Fault Refusal :=
  match startedAt s x l id with
  | some (_, f) => match f.waits, f.op.instr with
    | .answer _ _, .qSend _ _ _ gs =>
      .next (finishComm s x l id [(gs, statusWord reason (if reason = noHandler then 0 else epoch))])
    | .answer _ _, .sSet _ _ _ _ gs =>
      .next (finishComm s x l id [(gs, statusWord reason (if reason = noHandler then 0 else epoch))])
    | _, _ => .next s
  | none => .next s

/-- The last started handler of a RESETTING ring has ended (R280). -/
def execRingResetComplete (ring : Nat) (s : State) : Host.Outcome State Fault Refusal :=
  let r := getRing s ring
  if r.valid ∧ r.st = 3 ∧ r.active.isEmpty then .next (endReset s ring) else .next s

end Sys2Proof.Machine
end

