-- ==== Sys2Proof/Machine/Collectives.lean ====
section
/-! DEFINITION. Collectives and the Waggle path (R293 to R320, R346 to R350): entry, chunks, aborts, completion and signals,
and reductions over a tree. -/

namespace Sys2Proof.Machine

/-! ### Groups (R293, R303, R323) -/

/-- The words of a group slot (R323). -/
def Grp.words (g : Grp) : List Word :=
  if !g.valid then [0, 0, 0, 0]
  else
    let w0 := 1 + 2 * (g.part % 8) + 2 ^ 4 * (g.ctx % 64) + 2 ^ 10 * (g.gid % 65536) + 2 ^ 26 * (g.rank % 4096)
      + 2 ^ 38 * (g.members.length % 8192) + 2 ^ 51 * (g.st % 4) + 2 ^ 53 * bnat g.device
    let w1 := g.gen % 65536 + 2 ^ 16 * (g.seq % 2 ^ 32)
    let w2 := g.wseq % 2 ^ 32 + 2 ^ 32 * (g.abortSeq % 2 ^ 32)
    let w3 := g.abortReason % 16 + 2 ^ 4 * bnat g.abortWaggle + 2 ^ 5 * bnat g.abortValid
    [w0, w1, w2, w3].map (BitVec.ofNat 64)

/-- The slot of a group id declared for a context. -/
def grpSlot (s : State) (x gid : Nat) : Option Nat :=
  (s.grps.find? (fun e => e.2.valid && e.2.ctx == x && e.2.gid == gid)).map (·.1)

/-- Whether the fold of a partition's sums is taken in arrival order (R232). -/
def eagerFold (s : State) (p : Nat) : Bool :=
  !flg s Reg.PLC_CTL Fld.PLC_CTL_DETERMINISM && flg s (Reg.GRD_PART p) Fld.GRD_PART_EAGER

/-- The geometry of a bulk collective at this member. -/
def grpGeo (s : State) (g : Grp) (v : Sig) : Geo :=
  ⟨v.op, v.red, v.type, v.root, v.count, g.rank, g.members.length, eagerFold s g.part⟩

/-- The reason codes of R309. -/
def reasonCode : AbortReason → Nat
  | .mismatch => 1
  | .check => 2
  | .timeout => 3
  | .memberLost => 4


/-! ### Status and completion (R309) -/

/-- The status word (R309). -/
def colStatus (reason : Nat) (sigLost overflow : Bool) : Word :=
  BitVec.ofNat 64 (reason + 16 * bnat sigLost + 32 * bnat overflow)

/-- The instruction of a collective completes with results and its status word. -/
def finishCol (s : State) (o : Nat × Nat × Nat) (ws : List (GReg × Word)) (st : Word) : State :=
  match startedAt s o.1 o.2.1 o.2.2 with
  | some (_, f) => match f.op.instr with
    | .cBulk _ _ _ gs => finishComm s o.1 o.2.1 o.2.2 [(gs, st)]
    | .cWred _ _ _ _ _ _ _ gs => finishComm s o.1 o.2.1 o.2.2 (ws ++ [(gs, st)])
    | _ => s
  | none => s

/-! ### Tensors as runs of bytes (R36, R299) -/

/-- The runs of bytes, row by row, that hold bytes `j .. j + n − 1` of a tensor in logical order. -/
def runsOf (d : Desc) (base : Nat) : Nat → Nat → Nat → List (Nat × Nat)
  | 0, _, _ => []
  | fuel + 1, j, n =>
    if n = 0 ∨ d.rowLen = 0 then []
    else
      let o := j % d.rowLen
      let k := min n (d.rowLen - o)
      (d.rowAddr base (j / d.rowLen) + o, k) :: runsOf d base fuel (j + k) (n - k)

/-- Bytes of a tensor. -/
def tensorRead (s : State) (v : Desc × Nat) (j n : Nat) : List Byte :=
  (runsOf v.1 v.2 n j n).flatMap (fun r => readBytes s r.1 r.2)

/-- Bytes written into a tensor. -/
def tensorWriteRuns (s : State) (bs : List Byte) : List (Nat × Nat) → State
  | [] => s
  | (a, k) :: rs => tensorWriteRuns (writeBytes s a (bs.take k)) (bs.drop k) rs

def tensorWrite (s : State) (v : Desc × Nat) (j : Nat) (bs : List Byte) : State :=
  tensorWriteRuns s bs (runsOf v.1 v.2 bs.length j bs.length)

/-- The same through the comb store (R144), with NF watched (R218): `x` is the context that the tensor's handle belongs to. -/
def tensorStore (s : State) (x type : Nat) (v : Desc × Nat) (j : Nat) (bs : List Byte) : State :=
  let n := bs.length * 8 / max 1 (fmtBits type)
  let s := markNf s x v.1.handle (!fmtInt type && (unpackRow type n bs).any (codeNonfinite type))
  (runsOf v.1 v.2 bs.length j bs.length).foldl (fun s r => combTouch s true false r.1 r.2) (tensorWrite s v j bs)

/-- Whether any row of a tensor is poisoned. -/
def tensorPoisoned (s : State) (v : Desc × Nat) : Bool := (List.range v.1.rows).any (fun r => rowPoisoned s v.2 v.1 r)

/-! ### Sending (R300, R304, R314) -/

/-- A chunk leaves, with the entries known now. -/
def emitChunk (s : State) (g : Grp) (b : Bulk) (first : Bool) (c : OutChunk) : State :=
  emit s (.bulkChunk g.gid b.sig g.rank first b.late.1 b.late.2 b.early c)

/-- The chunks of one stage leave once its gate is open; a member with nothing to send sends a first chunk without payload
(R296, R304). -/
def pumpStage (slot : Nat) (s : State) (st : StageId) : State :=
  let g := getGrp s slot
  match g.bulk with
  | none => s
  | some b =>
    let geo := grpGeo s g b.sig
    match geo.partner st with
    | none => s
    | some q =>
      if b.gate geo st then
        let out := b.outbox.filter (fun c => c.gather == st.1 && c.stage == st.2)
        if !out.isEmpty then
          let fresh := !b.began.contains st
          let s := (out.zipIdx).foldl (fun s c => emitChunk s g b (fresh && c.2 == 0) c.1) s
          setGrp s slot { g with bulk := some { b with
            outbox := b.outbox.filter (fun c => !(c.gather == st.1 && c.stage == st.2))
            began := if fresh then b.began ++ [st] else b.began
            sent := b.sent + out.length } }
        else if !b.began.contains st && geo.sends st == 0 then
          let s := emitChunk s g b true ⟨st.1, st.2, q, 0, Cargo.empty, []⟩
          setGrp s slot { g with bulk := some { b with began := b.began ++ [st] } }
        else s
      else s

/-- Everything that may be sent is sent. -/
def pump (s : State) (slot : Nat) : State :=
  match (getGrp s slot).bulk with
  | some b => (grpGeo s (getGrp s slot) b.sig).stages.foldl (pumpStage slot) s
  | none => s

/-! ### Writes and signals (R305, R310) -/

/-- Destination chunk `k` has been signalled. -/
def markSignalled (s : State) (slot k : Nat) : State :=
  let g := getGrp s slot
  setGrp s slot { g with bulk := g.bulk.map (fun (b : Bulk) => { b with signalled := b.signalled ++ [k] }) }

/-- The signal of destination chunk `k` (R310): a flag, or a message to a ring that may be lost. -/
def signalChunk (s : State) (slot k : Nat) : State :=
  let g := getGrp s slot
  match g.bulk with
  | none => s
  | some b =>
    if b.sigMode = 1 then markSignalled (setFlagName s g.ctx (b.target + k % b.span) 2 0) slot k
    else if b.sigMode = 2 then
      let c := getCtx s g.ctx
      let seq := (c.sent + 1) % 2 ^ 32
      let ep := (getRing s b.target).epoch
      let m : RingMsg :=
        { srcRank := ownRank s g.ctx, srcCtx := g.ctx, epoch := ep, kind := 1, seq := seq, reservedClear := true, slots := 1
          bytes := headerBytes 1 1 ep k (ownRank s g.ctx % 16384 + 16384 * (g.ctx % 64)) seq 0 0 }
      let (s, reason) := ringArrive (setCtx s g.ctx { c with sent := seq }) b.target m true
      if reason = 0 then markSignalled s slot k
      else
        let s := bump s (Reg.COL_STAT g.part) Fld.COL_STAT_SIG_LOST 1
        match (getGrp s slot).bulk with
        | some b => setGrp s slot { getGrp s slot with bulk := some { b with sigLost := true } }
        | none => s
    else s

/-- The first byte outside the partition's memory that a destination chunk would be written to (R138). -/
def chunkBad (s : State) (g : Grp) (d : Option (Desc × Nat)) (j n : Nat) : Option Nat :=
  match d with
  | some v => firstOut s (some g.part) (runsOf v.1 v.2 n j n)
  | none => none

/-- One destination chunk is written, and signalled once visible; one outside the partition's memory is refused, and its context
is FAULTED (R138, log entry 72). -/
def writeChunk (slot : Nat) (s : State) (w : Nat × List Byte) : State :=
  let g := getGrp s slot
  match g.bulk with
  | none => s
  | some b =>
    let geo := grpGeo s g b.sig
    let j := w.1 * fmtBits geo.type / 8
    match chunkBad s g b.dst j w.2.length with
    | some a => faultCtx (refuseAccess s g.ctx a) g.ctx
    | none =>
      let s := match b.dst with
        | some d => tensorStore s g.ctx geo.type d j w.2
        | none => s
      let s := setGrp s slot { g with bulk := some { b with written := b.written ++ [w.1] } }
      signalChunk s slot (w.1 / geo.dstElems)

/-- The chunks that wait to be written, once every signature has agreed (R305). -/
def doWrites (s : State) (slot : Nat) : State :=
  let g := getGrp s slot
  match g.bulk with
  | some b =>
    if b.agreed then b.writes.foldl (writeChunk slot) (setGrp s slot { g with bulk := some { b with writes := [] } }) else s
  | none => s

/-- COL_LAGGARD as a member's agreement completes (R314). -/
def noteLaggard (s : State) (g : Grp) (b : Bulk) : State :=
  let lag := min (b.late.2 - b.early) (2 ^ 32 - 1)
  let s := wr s Reg.COL_LAGGARD (putF Fld.COL_LAGGARD_VALID 1 (putF Fld.COL_LAGGARD_LAG lag
    (putF Fld.COL_LAGGARD_GROUP g.gid (putF Fld.COL_LAGGARD_RANK b.late.1 0))))
  if b.late.1 = g.rank then bump s Reg.COL_SELF Fld.COL_SELF_LAGGARD_COUNT 1 else s

/-- The agreement of R305, when it completes. -/
def noteAgreed (s : State) (slot : Nat) : State :=
  let g := getGrp s slot
  match g.bulk with
  | some b =>
    if !b.agreed && b.allHeard (grpGeo s g b.sig) then
      noteLaggard (setGrp s slot { g with bulk := some { b with agreed := true } }) g b
    else s
  | none => s

/-- After any change: what may be sent is sent, what may be written is written. -/
def progress (s : State) (slot : Nat) : State := doWrites (noteAgreed (pump s slot) slot) slot

/-! ### Aborts (R306 to R308, R311) -/

/-- The fields of the last abort, and the state after it: POISONED after MISMATCH or MEMBER_LOST (R306, R307). -/
def Grp.recordAbort (g : Grp) (waggle : Bool) (seq : Nat) (why : AbortReason) : Grp :=
  let g := { g with
    abortSeq := seq % 2 ^ 32, abortReason := reasonCode why, abortWaggle := waggle, abortValid := true, aborting := Option.none
    naming := Option.none }
  match why with
  | .mismatch => { g with st := 3, poison := reasonCode why }
  | .memberLost => { g with st := 3, poison := reasonCode why }
  | _ => g.settle

/-- What an abort of the exchange makes of it: its partials and undispatched chunks are discarded (R250). -/
def Xch.abort (e : Xch) : Xch :=
  { e with parts := [], came := [], pieces := [], outbox := [], ready := [], aborted := true }

/-- A device-started collective is aborted (R308): an exchange by MISMATCH or TIMEOUT makes the device vote HALT, by CHECK
(a repeat of R250) RPT; a parameter gather stops the partition's contexts, and the snapshot that would follow it is not taken
(R18); after MEMBER_LOST no vote is taken (R253). -/
def deviceAbort (s : State) (p : Nat) (why : AbortReason) : State :=
  let t := getTrain s p
  if why = .memberLost then
    let s := match redSlot s p with
      | some k => setGrp s k { getGrp s k with devBulk := false }
      | none => s
    setTrain s p { t with xch := none, gather := false, gstaged := [], startDue := none, ckpt := { t.ckpt with snap := false } }
  else if t.gather then stopPart (setTrain s p { t with gather := false, ckpt := { t.ckpt with snap := false } }) p
  else match t.xch with
    | some e =>
      setTrain s p { t with
        halt := t.halt || why == .mismatch || why == .timeout, gstaged := []
        xch := some { e.abort with rpt := e.rpt || why == .check } }
    | none => s

/-- What an abort leaves of a member's destination (R308): chunks that have been signalled keep their values, every other byte is
undefined (log entry 4). -/
def undefineDst (s : State) (geo : Geo) (b : Bulk) : State :=
  match geo.dst, b.dst with
  | some (_, m), some d =>
    let n := geo.dstElems * fmtBits geo.type / 8
    ((List.range (m / geo.dstElems)).filter (fun k => !b.signalled.contains k)).foldl (fun s k =>
      let (bs, s) := drawBytes s n
      tensorWrite s d (k * n) bs) s
  | _, _ => s

/-- The contributions to an aborted reduction leave its tree's node. -/
def dropContribs (s : State) (g : Grp) (seq : Nat) : State :=
  match g.tree with
  | some k =>
    let v := getTree s k
    setTree s k { v with contribs := v.contribs.filter (fun c => !(c.2.1.seq == seq && c.2.1.gen == g.gen)) }
  | none => s

/-- A Waggle reduction of this member ends aborted (R307, R308). -/
def endWag (s : State) (p : Nat) (owner : WagOwner) (why : AbortReason) : State :=
  match owner with
  | .instr x l id => finishCol s (x, l, id) [] (colStatus (reasonCode why) false false)
  | _ => devWagAborted s p (why == .memberLost)

/-- The local operation of an aborted sequence number ends with its reason; a member that has not entered it records the
reason (R307). -/
def endAborted (s : State) (slot : Nat) (waggle : Bool) (seq : Nat) (why : AbortReason) : State :=
  let g := getGrp s slot
  let g' := g.recordAbort waggle seq why
  if waggle then
    match g.wag with
    | some w =>
      if w.sig.seq = seq then
        let s := countCol (setGrp (dropContribs s g seq) slot ({ g' with wag := none }).settle) g.part true
        pumpDev (endWag s g.part w.owner why) slot
      else setGrp s slot { g' with notices := g.notices ++ [(true, seq, why)] }
    | none => setGrp s slot { g' with notices := g.notices ++ [(true, seq, why)] }
  else
    let left := g.staged.filter (fun c => c.sig.seq != seq || c.sig.gen != g.gen)
    match g.bulk with
    | some b =>
      if b.sig.seq = seq then
        let s := undefineDst s (grpGeo s g b.sig) b
        let s := countCol (setGrp s slot ({ g' with bulk := none, staged := left }).settle) g.part true
        match b.owner with
        | some o => finishCol s o [] (colStatus (reasonCode why) b.sigLost b.overflow)
        | none => deviceAbort s g.part why
      else setGrp s slot { g' with notices := g.notices ++ [(false, seq, why)], staged := left }
    | none =>
      let s := setGrp s slot { g' with notices := g.notices ++ [(false, seq, why)], staged := left }
      if g.device && why == .memberLost then deviceAbort s g.part why else s

/-! ### The naming of a mismatch (R306, R318, R320) -/

/-- The signature under which this member has entered a sequence number, if it has. -/
def Grp.entered (g : Grp) (waggle : Bool) (seq : Nat) : Option Sig :=
  (if waggle then g.wag.map (·.sig) else g.bulk.map (·.sig)).bind (fun v => if v.seq = seq then Option.some v else Option.none)

/-- What a member contributes to a reduction of the naming: RED, TYPE and values. DESIGN CHOICE (log entry 73): a member without a
rank to give contributes the largest INT32 to a minimum. -/
def namingVals (g : Grp) (n : Naming) (own : Option Sig) : Nat × Nat × List Int :=
  let none_ : Int := 2147483647
  let words (v : Sig) : List Int := [(v.w0.toNat : Int), (v.w1.toNat : Int)]
  match n.step, own with
  | 0, some _ => (2, 0x0F, [(g.rank : Int)])
  | 0, none => (2, 0x0F, [none_])
  | 1, some v => (0, 0x1F, if g.rank = n.rankA then words v else [0, 0])
  | 1, none => (0, 0x1F, [0, 0])
  | 2, some v => (2, 0x0F, [if v ≠ n.sigA then (g.rank : Int) else none_])
  | 2, none => (2, 0x0F, [none_])
  | _, some v => (0, 0x1F, if g.rank = n.rankB then words v else [0, 0])
  | _, none => (0, 0x1F, [0, 0])

/-- This member's part in the next reduction of the naming goes to the group's tree under the next WSEQ (R294, R306). -/
def enterNaming (s : State) (slot : Nat) (n : Naming) (own : Option Sig) : State :=
  let g := getGrp s slot
  let (red, type, vals) := namingVals g n own
  let sig := mkSig g.gid g.gen g.wseq 5 red type 0 vals.length
  let w : Wag := ⟨.naming, sig, vals, vals.map (fun _ => false), none⟩
  let s := setGrp s slot { g with wseq := (g.wseq + 1) % 2 ^ 32, naming := some { n with wag := some w, since := beat s } }
  match g.tree with
  | some k => addContrib s k none sig vals w.bad
  | none => s

/-- The naming begins at this member once it has entered, or COL_CTL.TMO beats after the notice (R306 step 3). -/
def startNaming (s : State) (slot : Nat) : State :=
  let g := getGrp s slot
  match g.aborting, g.naming with
  | some (waggle, seq, _, since), none =>
    let own := g.entered waggle seq
    if own.isSome ∨ since + max 1 (fld s Reg.COL_CTL Fld.COL_CTL_TMO) ≤ beat s then
      enterNaming s slot ⟨0, 0, ⟨0, 0⟩, 0, ⟨0, 0⟩, none, 0⟩ own
    else s
  | _, _ => s

/-- A result of the naming has come down: what it names, and the next reduction (R306 step 3, R324). -/
def namingStep (s : State) (slot : Nat) (n : Naming) (vals : List Int) : State :=
  let g := getGrp s slot
  let v := vals.headD 0
  let sig : Sig := ⟨BitVec.ofInt 64 v, BitVec.ofInt 64 ((vals.drop 1).headD 0)⟩
  let m : Naming := match n.step with
    | 0 => { n with rankA := v.toNat }
    | 1 => { n with sigA := sig }
    | 2 => { n with rankB := v.toNat }
    | _ => { n with sigB := sig }
  let m := { m with step := n.step + 1, wag := none }
  let s := bump (setGrp s slot { g with naming := some m }) Reg.WGL_STAT Fld.WGL_STAT_REDUCTIONS 1
  match g.aborting with
  | some (waggle, seq, _, _) => if m.step < 4 then enterNaming s slot m (g.entered waggle seq) else s
  | none => s

/-- An abort reaches this member, from itself or by a notice (R306, R307, R311): a MISMATCH waits for the naming, which an abort
of the group's other operation leaves to go on unless a member is lost; every other reason completes the collective. -/
def applyAbort (s : State) (slot : Nat) (waggle : Bool) (seq : Nat) (why : AbortReason) : State :=
  let g := getGrp s slot
  match g.aborting with
  | some (w, q, _, _) =>
    if w = waggle ∧ q = seq then (if why = .memberLost then endAborted s slot w q why else s)
    else match why with
      | .mismatch => s
      | .memberLost => endAborted (endAborted s slot w q why) slot waggle seq why
      | _ =>
        let s := endAborted s slot waggle seq why
        setGrp s slot ({ getGrp s slot with aborting := g.aborting, naming := g.naming }).settle
  | none =>
    if why = .mismatch then
      let s := if waggle then dropContribs s g seq else s
      startNaming (setGrp s slot ({ g with
        aborting := some (waggle, seq, why, Machine.beat s)
        staged := if waggle then g.staged else g.staged.filter (fun c => c.sig.seq != seq || c.sig.gen != g.gen)
        bulk := if waggle then g.bulk else g.bulk.map (fun (b : Bulk) => { b with outbox := [], writes := [] }) }).settle) slot
    else endAborted s slot waggle seq why

/-! ### Entry (R294, R295, R299) -/

/-- A chunk's data enter the flow at this member. -/
def takeChunk (s : State) (slot : Nat) (c : BulkChunk) : State :=
  let g := getGrp s slot
  match g.bulk with
  | none => s
  | some b =>
    let geo := grpGeo s g b.sig
    let cargo : Cargo := ⟨c.vals.map (·.toNat), c.srcRes, c.rndRes, c.nonfinite⟩
    let st : StageId := (c.gather, c.stage)
    let b := { b with
      last := beat s
      heard := if c.first && !b.heard.contains st then b.heard ++ [st] else b.heard
      late := if c.first ∧ (b.late.2 < c.lateBeat ∨ (b.late.2 = c.lateBeat ∧ c.lateRank < b.late.1)) then (c.lateRank, c.lateBeat)
        else b.late
      early := if c.first then min b.early c.earlyBeat else b.early }
    let b := if c.vals.isEmpty && c.data.isEmpty then b else b.take geo st c.elem cargo c.data
    progress (setGrp s slot { g with bulk := some b }) slot

/-- A chunk of a sum is checked at the hop; one without payload has no residues to check. -/
def sumOk (b : Bulk) (c : BulkChunk) : Bool :=
  (c.vals.isEmpty && c.data.isEmpty) || (hopOk b.sig.type ⟨c.vals.map (·.toNat), c.srcRes, c.rndRes, c.nonfinite⟩ && c.comparatorOk)

/-- An abort notice leaves over the group's tree, and the abort begins here (R306 step 1). -/
def detectAbort (s : State) (slot : Nat) (waggle : Bool) (seq : Nat) (why : AbortReason) : State :=
  let g := getGrp s slot
  applyAbort (emit s (.abortNotice g.gid g.gen seq waggle why)) slot waggle seq why

/-- A record of the COL class that names the group's context (R321). -/
def raiseGrp (s : State) (g : Grp) (code obj d0 d1 d2 d3 : Nat) : State := raiseCtx s g.ctx code sevError obj d0 d1 d2 d3

/-- COL_TIMEOUT of a reduction (R321). DESIGN CHOICE (log entry 40): a member cannot tell whom it awaits, so the rank is free. -/
def raiseWagTimeout (s : State) (g : Grp) (seq waited : Nat) : State :=
  raiseGrp { s with free := s.free + 1 } g 0x0603 g.gid (Config.freeNat s.free % 4096) 0 waited seq

/-- A chunk that fails its check aborts its collective (R302). -/
def failCheck (s : State) (slot : Nat) (c : BulkChunk) (check : Nat) : State :=
  let g := getGrp s slot
  let s := raiseGrp s g 0x0602 g.gid c.elem (c.src % 4096 + 2 ^ 12 * (c.stage % 16) + 2 ^ 16 * (c.port % 16)) check c.sig.seq
  detectAbort s slot false c.sig.seq .check

/-- A final sum that failed its destination check aborts the collective (R301, R302). -/
def failFinal (s : State) (slot : Nat) : State :=
  let g := getGrp s slot
  match g.bulk with
  | some b => match b.failed with
    | some elem =>
      let geo := grpGeo s g b.sig
      let s := raiseGrp s g 0x0602 g.gid elem (g.rank % 4096 + 2 ^ 12 * (geo.l % 16)) 2 b.sig.seq
      detectAbort s slot false b.sig.seq .check
    | none => s
  | none => s

/-- Whether a chunk belongs to a combining stage of the operation. -/
def combiningStage (op : Nat) (c : BulkChunk) : Bool := opCombines op && !c.gather

/-- A chunk of the collective in progress is compared, checked and taken (R301, R302, R304, R306). -/
def judgeChunk (s : State) (slot : Nat) (c : BulkChunk) : State :=
  let g := getGrp s slot
  match g.bulk with
  | none => s
  | some b =>
    if c.first ∧ c.sig ≠ b.sig then detectAbort s slot false b.sig.seq .mismatch
    else if combiningStage b.sig.op c then
      if b.sig.red = 0 then
        (if sumOk b c then failFinal (takeChunk s slot c) slot else failCheck s slot c 2)
      else if !c.crcOk then failCheck s slot c 1
      else if !(c.comparatorOk || c.vals.isEmpty) then failCheck s slot c 3
      else takeChunk s slot c
    else if c.crcOk then takeChunk s slot c
    else
      let key := c.src * 2 ^ 45 + (bnat c.gather * 16 + c.stage) * 2 ^ 40 + c.elem
      let n := Sparse.get 0 b.tries key
      if n < fld s Reg.COL_CTL Fld.COL_CTL_RETRIES then
        let s := bump s (Reg.COL_STALE g.part) Fld.COL_STALE_RETRIED 1
        let s := setGrp s slot { g with bulk := some { b with tries := Sparse.set 0 b.tries key (n + 1) } }
        emit s (.chunkRetry g.gid c.src c.stage c.elem)
      else failCheck s slot c 1

/-- Whether a later sequence number from a partner whose first chunk of this collective has not come shows that the partner
left this one out (R304: its first chunk comes first). -/
def skipped (geo : Geo) (b : Bulk) (src : Nat) : Bool :=
  geo.mine.any (fun st => geo.partner st == some src && !b.heard.contains st)

/-- A chunk reaches the member (R304, R305, R311): of an older generation, discarded; of a newer one, or of a sequence number
not yet entered, held. -/
def arriveChunk (s : State) (slot : Nat) (c : BulkChunk) : State :=
  let g := getGrp s slot
  let hold := setGrp s slot { g with staged := g.staged ++ [c] }
  if c.sig.gen < g.gen then bump s (Reg.COL_STALE g.part) Fld.COL_STALE_STALE 1
  else if g.gen < c.sig.gen then hold
  else if g.st = 3 ∨ g.aborting.isSome then s
  else match g.bulk with
    | none => if c.sig.seq < g.seq then s else hold
    | some b =>
      if c.sig.seq = b.sig.seq then judgeChunk s slot c
      else if c.sig.seq < b.sig.seq then s
      else if c.first && skipped (grpGeo s g b.sig) b c.src then detectAbort s slot false b.sig.seq .mismatch
      else hold

/-- The chunks held for the collective just entered are judged in their order. -/
def takeStaged (s : State) (slot : Nat) : State :=
  let g := getGrp s slot
  g.staged.foldl (fun s c => arriveChunk s slot c) (setGrp s slot { g with staged := [] })

/-- A bulk collective begins at this member. -/
def beginBulk (s : State) (slot : Nat) (b : Bulk) : State :=
  let g := getGrp s slot
  let geo := grpGeo s g b.sig
  let wire (c : Nat) : Cargo := match b.src with
    | some v =>
      let bits := fmtBits geo.type
      sourceCargo geo.red geo.type ((unpackRow geo.type 512 (tensorRead s v (c * 512 * bits / 8) (512 * bits / 8))).map (toWire geo.type))
    | none => Cargo.empty
  let bytes (i : Nat) : List Byte := match b.src with
    | some v => tensorRead s v (i * 4096) 4096
    | none => []
  let s := setGrp s slot { g with bulk := some (b.enter geo wire bytes), seq := (g.seq + 1) % 2 ^ 32, st := 1 }
  takeStaged (failFinal (progress s slot) slot) slot

/-- A Bulk at entry. -/
def Bulk.start (s : State) (owner : Option (Nat × Nat × Nat)) (sig : Sig) (rank : Nat) (src dst : Option (Desc × Nat))
    (sigMode target span : Nat) : Bulk :=
  { owner := owner, sig := sig, src := src, dst := dst, sigMode := sigMode, target := target, span := span, beat := Machine.beat s
    last := Machine.beat s, late := (rank, Machine.beat s), early := Machine.beat s, heard := [], began := [], parts := [], came := [], outbox := []
    writes := [], written := [], signalled := [], tries := [], folded := [], sent := 0, agreed := false, failed := none, overflow := false, sigLost := false }

/-! ### Waggle reductions (R316, R317) -/

/-- The order-preserving integer of a floating-point encoding of `w` bits. -/
def orderKey (w v : Nat) : Int := if v < 2 ^ (w - 1) then (v : Int) else -1 - ((v % 2 ^ (w - 1) : Nat) : Int)

/-- The encoding of an order-preserving integer. -/
def ofOrderKey (w : Nat) (k : Int) : Nat := if 0 ≤ k then k.toNat else 2 ^ (w - 1) + (-1 - k).toNat

/-- A finite value below 2 ^ 48 in magnitude as a multiple of 2 ^ −64, to nearest even; none otherwise (R317). -/
def toFixed (v : FNum) : Option Int :=
  match v with
  | .fin sg m e =>
    let small := if 0 ≤ e then decide (m * 2 ^ e.toNat < 2 ^ 48) else decide (m < 2 ^ (48 + (-e).toNat))
    if small then some (roundInt .rne 0 sg m (e + 64)).1 else none
  | _ => none

/-- Width of a scalar type (R350). -/
def scalarBits (type : Nat) : Nat := if type = 0x00 ∨ type = 0x0F then 32 else 64

/-- Whether a scalar type is floating point. -/
def scalarFp (type : Nat) : Bool := type == 0x00 || type == 0x10

/-- A register's scalar on the wire, and whether its result is the canonical NaN (R317; maximum and minimum under R187). -/
def scalarWire (red type : Nat) (w : Word) : Int × Bool :=
  let n := scalarBits type
  let v := w.toNat % 2 ^ n
  if scalarFp type then
    let x := decodeElem type false v
    if red = 0 then (match toFixed x with
      | some i => (i, false)
      | none => (0, true))
    else if x.isNan then (0, true) else (orderKey n v, false)
  else if type = 0x0F then (asSigned 32 v, false) else ((v : Int), false)

/-- Two wire values combined (R316). -/
def scalarCombine (red : Nat) (a b : Int) : Int :=
  match red with
  | 0 => a + b
  | 1 => max a b
  | 2 => min a b
  | 3 => asSigned 128 (toTwos 128 a ||| toTwos 128 b)
  | _ => asSigned 128 (toTwos 128 a &&& toTwos 128 b)

/-- The result register's word, and whether it sets OVERFLOW (R316, R317). -/
def scalarResult (red type : Nat) (v : Int) (bad : Bool) : Word × Bool :=
  let n := scalarBits type
  if scalarFp type then
    let f := if type = 0x00 then fp32 else fp64
    if bad then (BitVec.ofNat 64 (canonNan f), red == 0)
    else if red = 0 then (BitVec.ofNat 64 (castFp f .rne 0 false false (.fin (decide (v < 0)) v.natAbs (-64))).1, false)
    else (BitVec.ofNat 64 (ofOrderKey n v), false)
  else
    let lo : Int := if type = 0x0F then -2147483648 else 0
    let hi : Int := if type = 0x0F then 2147483647 else 18446744073709551615
    let c := max lo (min hi v)
    (BitVec.ofNat 64 (toTwos n c), decide (c ≠ v))

/-- A Waggle reduction of this member completes with the result that came down (R316). -/
def finishWag (s : State) (slot : Nat) (w : Wag) (vals : List Int) (bad : List Bool) : State :=
  let g := getGrp s slot
  let s := setGrp s slot ({ g with wag := none }).settle
  let s := bump (countCol s g.part false) Reg.WGL_STAT Fld.WGL_STAT_REDUCTIONS 1
  let rs := (vals.zip bad).map (fun v => scalarResult w.sig.red w.sig.type v.1 v.2)
  let s := match w.owner with
    | .instr x l id => match startedAt s x l id with
      | some (_, f) => match f.op.instr with
        | .cWred _ gd _ _ _ _ _ _ =>
          finishCol s (x, l, id) (rs.zipIdx.map (fun r => (Fin.ofNat 64 (gd.val + r.2), r.1.1))) (colStatus 0 false (rs.any (·.2)))
        | _ => s
      | none => s
    | _ => s
  pumpDev s slot

/-- The result of the reduction in progress reaches the member: a program's completes, a device-started one keeps it until the step
that takes it (R216, R247). -/
def wagReturn (s : State) (slot : Nat) (sig : Sig) (vals : List Int) (bad : List Bool) : State :=
  let g := getGrp s slot
  match g.wag with
  | none => s
  | some w =>
    if w.sig ≠ sig ∨ w.result.isSome ∨ g.aborting.map (fun a => (a.1, a.2.1)) = some (true, sig.seq) then s
    else match w.owner with
      | .instr _ _ _ => finishWag s slot w vals bad
      | _ => bump (setGrp s slot { g with wag := some { w with result := some vals } }) Reg.WGL_STAT Fld.WGL_STAT_REDUCTIONS 1

/-- The result of a reduction goes down the tree, and to the member here (R316). -/
def wagDeliver (s : State) (k : Nat) (sig : Sig) (vals : List Int) (bad : List Bool) : State :=
  let v := getTree s k
  let s := (bitList 16 v.down).foldl (fun s p => emit s (.wagDown k p sig vals bad)) s
  if v.relay then bump s Reg.WGL_RELAY Fld.WGL_RELAY_RELAYED 1
  else if v.local_ < 256 then s
  else match (getGrp s (v.local_ - 256)).naming with
    | some n => if n.wag.map (·.sig) = some sig then namingStep s (v.local_ - 256) n vals else wagReturn s (v.local_ - 256) sig vals bad
    | none => wagReturn s (v.local_ - 256) sig vals bad

/-- Contributions combined. -/
def wagCombine (red : Nat) : List (List Int × List Bool) → List Int × List Bool
  | [] => ([], [])
  | [c] => c
  | c :: cs =>
    let d := wagCombine red cs
    ((c.1.zip d.1).map (fun v => scalarCombine red v.1 v.2), (c.2.zip d.2).map (fun v => v.1 || v.2))

/-- A node that holds the contributions of all its inputs compares their signatures and combines them: up the tree, or, at
the root, down again (R316, R318). -/
def wagJoin (s : State) (k : Nat) : State :=
  let v := getTree s k
  let ports : List (Option Nat) := (bitList 16 v.down).map some ++ (if v.relay then [] else [none])
  let ins := ports.filterMap (fun p => v.contribs.find? (fun c => c.1 == p))
  match ins with
  | [] => s
  | c :: _ =>
    if ins.length < ports.length then s
    else
      let s := setTree s k { v with contribs := [] }
      if ins.any (fun e => e.2.1 != c.2.1) then
        let s := bump s Reg.WGL_FAULT Fld.WGL_FAULT_MISMATCH 1
        if v.relay ∨ v.local_ < 256 then emit s (.abortNotice c.2.1.gid c.2.1.gen c.2.1.seq true .mismatch)
        else detectAbort s (v.local_ - 256) true c.2.1.seq .mismatch
      else
        let r := wagCombine c.2.1.red (ins.map (fun e => e.2.2))
        if v.root then wagDeliver s k c.2.1 r.1 r.2 else emit s (.wagUp k v.up c.2.1 r.1 r.2)

/-- Whether a child's contribution belongs to a reduction that this node's member has left behind: of an older generation, or
aborted (R307, R311). -/
def wagStale (s : State) (v : WTree) (port : Option Nat) (sig : Sig) : Bool :=
  let g := getGrp s (v.local_ - 256)
  let now := (g.wag.map (·.sig.seq)).toList ++ ((g.naming.bind (·.wag)).map (·.sig.seq)).toList
  port.isSome && !v.relay && decide (256 ≤ v.local_)
    && (decide (sig.gen < g.gen) || (sig.gen == g.gen && decide (sig.seq < g.wseq) && !now.contains sig.seq))

/-- A contribution reaches a node, from a child port or from the member here. -/
def wagContribute (s : State) (k : Nat) (port : Option Nat) (sig : Sig) (vals : List Int) (bad : List Bool) : State :=
  if wagStale s (getTree s k) port sig then s else wagJoin (addContrib s k port sig vals bad) k

/-- Every node joins what it holds whole: contributions that a device-started reduction left there (R316). -/
def joinAll (s : State) : State := (s.trees.map (·.1)).foldl wagJoin s

/-- The result of a device-started reduction of a partition is taken: what its tree brought, if it did; else the event that brings
the result counts it (R324). -/
def devTake (s : State) (p : Nat) (owner : WagOwner) : State × Option (List Int) :=
  let counted := bump s Reg.WGL_STAT Fld.WGL_STAT_REDUCTIONS 1
  match redSlot s p with
  | none => (counted, none)
  | some k => match (getGrp s k).wag with
    | none => (counted, none)
    | some w =>
      if w.owner ≠ owner then (counted, none)
      else
        let s := if w.result.isSome then s else counted
        (pumpDev (setGrp s k ({ getGrp s k with wag := none }).settle) k, w.result)

/-- A Waggle reduction begins at this member. -/
def beginWag (s : State) (slot : Nat) (w : Wag) : State :=
  let g := getGrp s slot
  let s := setGrp s slot { g with wag := some w, wseq := (g.wseq + 1) % 2 ^ 32, st := 1 }
  match g.tree with
  | some k => wagContribute s k none w.sig w.vals w.bad
  | none => s

/-! ### The C instructions (R346 to R350) -/

/-- The fields of C.BULK's control word (R347). -/
def ctlGroup (w : Word) : Nat := bitsOf 15 0 w
def ctlOp (w : Word) : Nat := bitsOf 18 16 w
def ctlRed (w : Word) : Nat := bitsOf 21 19 w
def ctlRoot (w : Word) : Nat := bitsOf 33 22 w
def ctlSig (w : Word) : Nat := bitsOf 35 34 w
def ctlTarget (w : Word) : Nat := bitsOf 51 36 w
def ctlSpan (w : Word) : Nat := bitsOf 55 52 w

/-- Whether TS and TD are used (R348); none where that depends on an undeclared group. -/
def bulkUses (op root : Nat) (g : Option Grp) : Option Bool × Option Bool :=
  let low : Option Bool := g.map (fun g => decide (g.rank < Geometry.cube g.members.length))
  let isRoot : Option Bool := g.map (fun g => decide (g.rank = root))
  match op with
  | 0 => (some true, low)
  | 1 => (low, some true)
  | 2 => (some true, some true)
  | 3 => (isRoot, isRoot.map (!·))
  | _ => (some true, isRoot)

/-- COUNT of the signature (R348): the elements of the descriptor that names it. -/
def bulkCount (op : Nat) (uses : Option Bool × Option Bool) (ts td : Desc) : Nat :=
  if op = 1 ∨ (op = 3 ∧ uses.1 ≠ some true) then td.count else ts.count

/-- The element type (R348). -/
def bulkType (uses : Option Bool × Option Bool) (ts td : Desc) : Nat := if uses.1 = some true then ts.format else td.format

/-- Types that reductions combine (R298). -/
def redType (f : Nat) : Bool := f == 0x00 || f == 0x01 || f == 0x02 || f == 0x10 || f == 0x0F

/-- The rules of R347 on the control word. -/
def ctlBad (w : Word) : Bool :=
  let op := ctlOp w
  let sg := ctlSig w
  decide (bitsOf 63 56 w ≠ 0) || decide (5 ≤ op) || decide (3 ≤ ctlRed w) || decide (sg = 3)
    || ((op == 1 || op == 3) && decide (ctlRed w ≠ 0)) || (!(op == 3 || op == 4) && decide (ctlRoot w ≠ 0))
    || (sg == 0 && decide (ctlTarget w ≠ 0)) || (sg == 2 && bitOf 51 w) || (decide (sg ≠ 1) && decide (ctlSpan w ≠ 0))

/-- One descriptor of C.BULK (R348). -/
def bulkDesc (t : TReg) (use : Option Bool) (d : Desc) (op : Nat) (dest : Bool) : Option Refuse :=
  match use with
  | none => none
  | some false => if t.val ≠ 0 then some (refShape t.val) else none
  | some true =>
    if !d.legal dest || fmtMx d.format || (opCombines op && !redType d.format) then some (refShape t.val) else none

/-- Step 3 of the C family (R299, R347, R348, R350). -/
def cStep3 (s : State) (x : Nat) (g : TaskRegs) (i : CInstr) : Option Refuse :=
  match i with
  | .cBulk td ts gc _ =>
    let w := g.getG gc
    let op := ctlOp w
    let grp := (grpSlot s x (ctlGroup w)).map (getGrp s)
    let u := bulkUses op (ctlRoot w) grp
    let dS := g.getT ts
    let dD := g.getT td
    let e := elemsPerChunk (bulkType u dS dD)
    let count := bulkCount op u dS dD
    if ctlBad w then some refShape0
    else firstRefusal [
      (grp.bind (fun v => if v.members.length ≤ ctlRoot w then some refShape0 else none)),
      bulkDesc ts u.1 dS op false, bulkDesc td u.2 dD op true,
      (if u.1 = some true ∧ u.2 = some true ∧ dS.format ≠ dD.format then some (refShape td.val) else none),
      (if op = 2 ∧ dD.count ≠ dS.count then some (refShape td.val) else none),
      (grp.bind (fun v =>
        let p := Geometry.cube v.members.length
        let bad := (opCombines op && decide (count % (p * 512) ≠ 0)) || (op != 0 && decide (count % (p * e) ≠ 0))
        let dst := if op = 0 then count / p else count
        if bad then some (refShape (if u.1 = some true then ts.val else td.val))
        else if u.2 = some true ∧ dD.count ≠ dst then some (refShape td.val)
        else if op = 1 ∧ u.1 = some true ∧ dS.count ≠ count / p then some (refShape ts.val)
        else none))]
  | .cWred _ _ cnt _ _ _ _ _ => if 5 ≤ cnt then some refShape0 else none
  | _ => none

/-- Whether a C instruction has nothing to do (R46 step 4, R299, R350). -/
def cZero (s : State) (x : Nat) (g : TaskRegs) (i : CInstr) : Bool :=
  match i with
  | .cBulk td ts gc _ =>
    let w := g.getG gc
    let u := bulkUses (ctlOp w) (ctlRoot w) ((grpSlot s x (ctlGroup w)).map (getGrp s))
    bulkCount (ctlOp w) u (g.getT ts) (g.getT td) == 0
  | .cWred _ _ cnt _ _ _ _ _ => cnt == 0
  | _ => false

/-- A name of FLAG_BASE to FLAG_BASE + SPAN − 1 that is no mapped flag (R349). -/
def spanCheck (s : State) (x base span : Nat) : Option Refuse :=
  ((List.range span).map (fun i => (base + i) % 65536)).findSome? (fun n => needName s x n false)

/-- Step 5 of the C family (R349, R350). -/
def cStep5 (s : State) (x l : Nat) (k : TaskKind) (g : TaskRegs) (i : CInstr) : Option Refuse :=
  match i with
  | .cBulk td ts gc _ =>
    let w := g.getG gc
    match grpSlot s x (ctlGroup w) with
    | none => some (refHandle 0 5 (ctlGroup w))
    | some slot =>
      let u := bulkUses (ctlOp w) (ctlRoot w) (some (getGrp s slot))
      let ring := getRing s (ctlTarget w)
      firstRefusal [
        (if u.1 = some true then accessCheck s x l k false (g.getT ts) else none),
        (if u.2 = some true then accessCheck s x l k true (g.getT td) else none),
        (if ctlSig w = 1 then spanCheck s x (ctlTarget w) (2 ^ ctlSpan w) else none),
        (if ctlSig w = 2 ∧ ¬(ring.valid ∧ ring.ctx = x) then some (refHandle 0 5 (ctlTarget w)) else none)]
  | .cWred _ _ _ _ _ gg _ _ =>
    let gid := bitsOf 15 0 (g.getG gg)
    if (grpSlot s x gid).isNone then some (refHandle 0 5 gid) else none
  | _ => none

/-- The group of a C instruction. -/
def cGroup (g : TaskRegs) (i : CInstr) : Nat :=
  match i with
  | .cBulk _ _ gc _ => ctlGroup (g.getG gc)
  | .cWred _ _ _ _ _ gg _ _ => bitsOf 15 0 (g.getG gg)
  | _ => 0

/-- Whether an instruction is a Waggle reduction. -/
def isWred : CInstr → Bool
  | .cWred _ _ _ _ _ _ _ _ => true
  | _ => false

/-- Whether an entry on a group would wait (R295, R311). -/
def Grp.busy (g : Grp) (waggle : Bool) : Bool :=
  g.aborting.isSome || (if waggle then g.wag.isSome || !g.devWags.isEmpty else g.bulk.isSome || g.devBulk)

/-- Entries waiting in the collective engine (R295). -/
def waitingEntries (s : State) : Nat := (s.grps.map (fun e => e.2.waiting.length)).sum

/-- The reason recorded for a sequence number: of several, the first in the order of R311. -/
def Grp.noticeOf (g : Grp) (waggle : Bool) (seq : Nat) : Option AbortReason :=
  let ws := (g.notices.filter (fun n => n.1 == waggle && n.2.1 == seq)).map (·.2.2)
  [.memberLost, .mismatch, .check, .timeout].find? (fun w => ws.contains w)

/-- The instruction enters its group, or completes at once in a POISONED group, or in a sequence number already aborted, whose
destination is then undefined (R306 to R308). -/
def enterCol (s : State) (slot : Nat) (x l : Nat) (f : Flight) : State :=
  let g := getGrp s slot
  let waggle := isWred f.op.instr
  let seq := if waggle then g.wseq else g.seq
  let taken := if waggle then { g with wseq := (g.wseq + 1) % 2 ^ 32 } else { g with seq := (g.seq + 1) % 2 ^ 32 }
  let turned (s : State) (r : Nat) : State :=
    finishCol (countCol (setGrp s slot taken) g.part true) (x, l, f.id) [] (colStatus r false false)
  let bulk (gc : GReg) (ts td : TReg) : Bulk :=
    let w := f.regs.getG gc
    let op := ctlOp w
    let u := bulkUses op (ctlRoot w) (some g)
    let dS := f.regs.getT ts
    let dD := f.regs.getT td
    let at_ (use : Option Bool) (d : Desc) : Option (Desc × Nat) :=
      if use = some true then some (d, (handleOf s x l d.handle).base) else none
    let sig := mkSig g.gid g.gen seq op (ctlRed w) (bulkType u dS dD) (ctlRoot w) (bulkCount op u dS dD)
    Bulk.start s (some (x, l, f.id)) sig g.rank (at_ u.1 dS) (at_ u.2 dD) (ctlSig w) (ctlTarget w) (2 ^ ctlSpan w)
  if g.st = 3 then turned s g.poison
  else match g.noticeOf waggle seq with
    | some why =>
      match f.op.instr with
      | .cBulk td ts gc _ =>
        let b := bulk gc ts td
        turned (undefineDst s (grpGeo s g b.sig) b) (reasonCode why)
      | _ => turned s (reasonCode why)
    | none =>
      let s := beginWait s x l f.id (.collective slot seq)
      match f.op.instr with
      | .cBulk td ts gc _ =>
        let b := bulk gc ts td
        if b.src.any (tensorPoisoned s) then faultInstr (abandonFlight s x l f.id) x l f.pc
        else beginBulk s slot b
      | .cWred ga _ cnt red type _ _ _ =>
        let sig := mkSig g.gid g.gen seq 5 red type 0 cnt
        let vs := (List.range cnt).map (fun i => scalarWire red type (f.regs.getN (ga.val + i)))
        beginWag s slot ⟨.instr x l f.id, sig, vs.map (·.1), vs.map (·.2), none⟩
      | _ => s

/-- A C instruction starts: it enters, or waits for the group, of which waits the engine holds 16 (R295); with 16 there it stays where
it is. Its own wait begins with the entry (R320). -/
def startCol (s : State) (x l : Nat) (f : Flight) : State :=
  match grpSlot s x (cGroup f.regs f.op.instr) with
  | none => s
  | some slot =>
    let g := getGrp s slot
    let waggle := isWred f.op.instr
    if !g.busy waggle then enterCol s slot x l f
    else if 16 ≤ waitingEntries s then s
    else
      let s := updFlight s x l f.id (fun f => { f with waits := .collective slot 0 })
      setGrp s slot { g with waiting := g.waiting ++ [(waggle, x, l, f.id)] }

/-- Whether an instruction is a collective. -/
def isCol : CInstr → Bool
  | .cBulk .. | .cWred .. => true
  | _ => false

/-- A started collective that has not reached its group. -/
def Flight.colDue (f : Flight) : Bool := isCol f.op.instr && f.stage == .started && f.waits == .none

/-- The collectives of a core reach their groups in the order in which they started (R328). -/
def colTurn (r : Running) (id : Nat) : Bool := !(r.flying.takeWhile (fun e => e.id != id)).any Flight.colDue

/-- Waiting entries enter as the group allows; `n` bounds their number. -/
def runWaiting (slot : Nat) : Nat → State → State
  | 0, s => s
  | n + 1, s =>
    let g := getGrp s slot
    match g.waiting.find? (fun e => !g.busy e.1) with
    | none => s
    | some e =>
      let s := setGrp s slot { g with waiting := g.waiting.erase e }
      match startedAt s e.2.1 e.2.2.1 e.2.2.2 with
      | some (_, f) => runWaiting slot n (enterCol s slot e.2.1 e.2.2.1 f)
      | none => runWaiting slot n s

/-- The group's waiting entries, after an operation has ended. -/
def afterCol (s : State) (slot : Nat) : State := runWaiting slot (getGrp s slot).waiting.length s

/-- Every group's waiting entries. -/
def afterAll (s : State) : State := (s.grps.map (·.1)).foldl afterCol s

/-- What a C.BULK's reads of its source meet (R151, R155 to R158, R164). -/
def bulkMeet (s : State) (x l : Nat) (f : Flight) (ecc : List EccEvent) : State :=
  match f.op.instr with
  | .cBulk _ ts gc _ =>
    let w := f.regs.getG gc
    let u := bulkUses (ctlOp w) (ctlRoot w) ((grpSlot s x (cGroup f.regs f.op.instr)).map (getGrp s))
    let src := if u.1 = some true then [f.regs.getT ts] else []
    meet s x l false (src.flatMap (descTouches s x l)) [] ecc
  | _ => s

def execCBulk (x l id : Nat) (ecc : List EccEvent) (s : State) : Host.Outcome State Fault Refusal :=
  match startedAt s x l id with
  | some (r, f) => match f.waits, f.op.instr with
    | .none, .cBulk .. => .next (if colTurn r id then afterAll (startCol (bulkMeet s x l f ecc) x l f) else s)
    | _, _ => .next s
  | none => .next s

def execCWred (x l id : Nat) (s : State) : Host.Outcome State Fault Refusal :=
  match startedAt s x l id with
  | some (r, f) => match f.waits, f.op.instr with
    | .none, .cWred _ _ _ _ _ _ _ _ => .next (if colTurn r id then afterAll (startCol s x l f) else s)
    | _, _ => .next s
  | none => .next s

/-- A bulk chunk reaches this device's member of a group (R300 to R305). -/
def execBulkChunkArrival (slot : Nat) (c : BulkChunk) (s : State) : Host.Outcome State Fault Refusal :=
  let g := getGrp s slot
  if g.valid ∧ g.gid = c.sig.gid then .next (afterCol (arriveChunk s slot c) slot) else .next s

/-- A contribution reaches this node of a tree (R316, R318). -/
def execWaggleContributionArrival (tree port : Nat) (sig : Sig) (vals : List Int) (bad : List Bool) (s : State) :
    Host.Outcome State Fault Refusal :=
  let v := getTree s tree
  if v.valid ∧ v.down.testBit port then .next (afterAll (wagContribute s tree (some port) sig vals bad)) else .next s

/-- A result reaches this node of a tree (R316). -/
def execWaggleResultArrival (tree : Nat) (sig : Sig) (vals : List Int) (bad : List Bool) (s : State) :
    Host.Outcome State Fault Refusal :=
  let v := getTree s tree
  if v.valid ∧ !v.root then .next (afterAll (wagDeliver s tree sig vals bad)) else .next s

/-! ### Expiry of waits (R265, R266, R350) -/

/-- Whether a wait has lasted its timeout (R265). -/
def expired (s : State) (x : Nat) (f : Flight) (t : Word) : Bool := decide (timeoutOf s x t ≤ f.ticks)

/-- SYN_TIMEOUT of a wait; its context becomes FAULTED (R266). -/
def faultWait (s : State) (x l : Nat) (f : Flight) (kind obj name t : Nat) : State :=
  let s := raiseInstr s x l f.pc 0x0401 sevError obj kind name t f.since
  faultInstr s x l f.pc

/-- An expired flag or barrier wait: SOFT completes with its status 1, FAULT faults the context (R266). -/
def expireWait (s : State) (x l : Nat) (f : Flight) (kind obj name : Nat) (soft : Bool) (t : Word) (gs : GReg) : State :=
  let s := bump s (Reg.SYN_STAT (getCtx s x).part) Fld.SYN_STAT_TIMEOUTS 1
  if soft then finishComm s x l f.id [(gs, 1)]
  else faultWait (abandonFlight s x l f.id) x l f kind obj name (timeoutOf s x t)

/-- A C.WRED that expires aborts with TIMEOUT (R350); one that still waits for its group has not begun its wait (R320). -/
def expireWred (s : State) (x l : Nat) (f : Flight) (slot : Nat) : State :=
  let g := getGrp s slot
  match g.wag with
  | some w =>
    if w.owner = .instr x l f.id then
      let s := raiseWagTimeout s g w.sig.seq f.ticks
      afterCol (detectAbort s slot true w.sig.seq .timeout) slot
    else s
  | none => s

/-- An expired token wait of an instruction not yet started (R48, R266). -/
def expireToken (s : State) (x l : Nat) (f : Flight) : State :=
  let s := bump s (Reg.SYN_STAT (getCtx s x).part) Fld.SYN_STAT_TIMEOUTS 1
  faultWait s x l f 3 f.op.wait 0 (timeoutOf s x 0)

/-- The expiry of a wait (R265, R266). -/
def execWaitTimeout (x l : Nat) (w : WaitRef) (s : State) : Host.Outcome State Fault Refusal :=
  match getRun s x l with
  | none => .next s
  | some r =>
    if !runningCtx s x then .next s
    else match w with
      | .sequencer => match r.seq with
        | some f => if !r.ready f.op.wait && expired s x f 0 then .next (expireToken s x l f) else .next s
        | none => .next s
      | .queueHead q => match r.queue q with
        | f :: _ => if !r.ready f.op.wait && expired s x f 0 then .next (expireToken s x l f) else .next s
        | [] => .next s
      | .inFlight id => match r.inFlight id with
        | none => .next s
        | some f => match f.waits, f.op.instr with
          | .flag b, .sWait name gx _ soft gt gs =>
            if expired s x f (f.regs.getG gt) then
              .next (expireWait s x l f 1 b (sName f.regs name gx) soft (f.regs.getG gt) gs)
            else .next s
          | .barrier b _ _, .sBar name gx _ soft gt gs _ =>
            if expired s x f (f.regs.getG gt) then
              .next (expireWait s x l f 2 b (sName f.regs name gx) soft (f.regs.getG gt) gs)
            else .next s
          | .barrier b _ _, .sBwait name gx soft gt gs _ =>
            if expired s x f (f.regs.getG gt) then
              .next (expireWait s x l f 2 b (sName f.regs name gx) soft (f.regs.getG gt) gs)
            else .next s
          | .collective slot _, .cWred _ _ _ _ _ _ gt _ =>
            if expired s x f (f.regs.getG gt) then .next (expireWred s x l f slot) else .next s
          | _, _ => .next s

end Sys2Proof.Machine
end

