-- ==== Sys2Proof/Machine/Movers.lean ====
section
/-! DEFINITION. The move family (R190 to R195): operand checks, and copies, gathers, scatters, transposes and fills. -/

namespace Sys2Proof.Machine

/-! ### Checks at issue -/

/-- Step 3 of the move family (R38, R192). DESIGN CHOICE (log entry 66): TD is named before the sources. -/
def mStep3 (g : TaskRegs) (i : CInstr) : Option Refuse :=
  let need (b : Bool) (t : TReg) : Option Refuse := if b then none else some (refShape t)
  let idxOk (t : TReg) : Option Refuse :=
    need ((g.getT t).legal false && decide ((g.getT t).format = 0x0F) && decide ((g.getT t).dim1 = 1) && decide ((g.getT t).dim2 = 1)) t
  match i with
  | .mCpy o =>
    let d := g.getT o.td
    let c := g.getT o.ts
    firstRefusal [need (d.legal true) o.td, need (c.legal false) o.ts,
      need (decide (d.format = c.format) && decide (d.dim0 = c.dim0) && decide (d.dim1 = c.dim1) && decide (d.dim2 = c.dim2)) o.ts]
  | .mGth o =>
    let d := g.getT o.td
    let c := g.getT o.ts
    firstRefusal [need (d.legal true) o.td, need (c.legal false) o.ts, idxOk o.ti,
      need (decide (d.format = c.format) && decide (d.dim0 = c.dim0)) o.ts, need (decide (d.rows = (g.getT o.ti).dim0)) o.ti]
  | .mSct o =>
    let d := g.getT o.td
    let c := g.getT o.ts
    firstRefusal [need (d.legal true) o.td, need (c.legal false) o.ts, idxOk o.ti,
      need (decide (d.format = c.format) && decide (d.dim0 = c.dim0)) o.ts, need (decide (c.rows = (g.getT o.ti).dim0)) o.ti,
      need (!o.acc || decide (d.format = 0)) o.td]
  | .mTrn o =>
    let d := g.getT o.td
    let c := g.getT o.ts
    firstRefusal [need (d.legal true) o.td, need (c.legal false) o.ts,
      need (decide (d.format = c.format) && !fmtMx d.format) o.td,
      need (decide (d.dim0 = c.dim1) && decide (d.dim1 = c.dim0) && decide (d.dim2 = c.dim2)) o.ts,
      need (!(d.format == 0x0D || d.format == 0x0E) || (decide (d.dim0 % 2 = 0) && decide (d.dim1 % 2 = 0))) o.td]
  | .mFil o =>
    let d := g.getT o.td
    firstRefusal [need (d.legal true) o.td, need (!fmtMx d.format) o.td]
  | _ => none

/-- The sources of a move. -/
def mSources (g : TaskRegs) (i : CInstr) : List Desc :=
  match i with
  | .mCpy o | .mTrn o => [g.getT o.ts]
  | .mGth o | .mSct o => [g.getT o.ts, g.getT o.ti]
  | _ => []

/-- The destination of a move. -/
def mDest (g : TaskRegs) (i : CInstr) : Desc :=
  match i with
  | .mCpy o | .mTrn o | .mGth o | .mSct o | .mFil o => g.getT o.td
  | _ => Desc.null

/-- An operand without elements (R52). -/
def mZero (g : TaskRegs) (i : CInstr) : Bool := decide ((mDest g i).count = 0) || (mSources g i).any (fun d => decide (d.count = 0))

/-- The addresses of the page entries inside the length of a sequence (R162). -/
def mapEntries (s : State) (x : Nat) (v : Stream) : List Nat :=
  let layers := max 1 (((Sparse.get none s.models v.model).map (·.layers)).getD 1)
  (List.range (ceilDiv v.length 64 * layers)).map (fun i => (handleOf s x 0 (v.pmap % 16384)).base + v.pmap / 16384 + 8 * i)

/-- What is wrong with a page entry (R161, R162): not valid, or a page that does not lie in memory of the partition, of its tier. -/
def entryBad (s : State) (p at_ : Nat) : Option Nat :=
  let e := leField (readBytes s at_ 8) 0 8
  let a := e / 4096 % 2 ^ 44 * 4096
  let bytes := max 4096 (fld s (Reg.SRV_PAGE p) Fld.SRV_PAGE_PAGE_BYTES)
  if e % 2 = 0 then some at_
  else if decide (e / 2 % 2 = 1) != decide (tierOf a = 3) then some a
  else firstBad s (some p) a bytes

/-- A read of page entries inside a sequence's length is refused where one of them is no page (R162). DESIGN CHOICE (log entry 80): the
reads meant are those of the mover instructions that fetch entries, M.CPY and M.GTH, of the streams of the partition. -/
def pageCheck (s : State) (x l : Nat) (g : TaskRegs) (i : CInstr) : Option Refuse :=
  let p := (getCtx s x).part
  let reads : List Desc := match i with
    | .mCpy o | .mGth o => [g.getT o.ts]
    | _ => []
  let hit (a : Nat) : Bool := reads.any (fun d => (overlapAt (d.span (handleOf s x l d.handle)) (a, a + 8)).isSome)
  let streams := s.streams.filterMap (fun e => e.2.bind (fun v => if v.part = p then some v else none))
  let entries := (streams.flatMap (mapEntries s x)).filter hit
  (entries.findSome? (entryBad s p)).map refBound0

/-- Step 5 of the move family (R41, R53, R162, R168). DESIGN CHOICE (log entry 66): TD is judged before the sources. -/
def mStep5 (s : State) (x l : Nat) (k : TaskKind) (g : TaskRegs) (i : CInstr) : Option Refuse :=
  firstRefusal (accessCheck s x l k true (mDest g i) :: (mSources g i).map (accessCheck s x l k false)
    ++ [overlapCheck s x l false (mDest g i) (mSources g i), pageCheck s x l g i])

/-! ### Execution -/

/-- A row taken as it is, with its scale bytes (R192), to stand at row `r`. -/
def copyRow (s : State) (base : Nat) (d : Desc) (src r : Nat) : RowOut := ⟨r, rowData s base d src, rowScales s base d src⟩

/-- The rows of a move written, up to a row stopped by poison, and the instruction ended (R155). -/
def endMove (s : State) (x l : Nat) (f : Flight) (d : Desc) (rows : List RowOut) (limit : Option Nat) : State :=
  endEngine (writeOrStop s x l d rows limit) x l f.id f.pc limit

/-- M.CPY. -/
def runCpy (s : State) (x l : Nat) (f : Flight) (o : MOps) : State :=
  let d := f.regs.getT o.td
  let c := f.regs.getT o.ts
  let base := (handleOf s x l c.handle).base
  endMove s x l f d ((List.range d.rows).map (fun r => copyRow s base c r r)) (firstBelow d.rows (rowPoisoned s base c))

/-- The indices of a gather or scatter, signed (R192, R193). -/
def indices (s : State) (x l : Nat) (ti : Desc) : List Int :=
  (rowCodes s (handleOf s x l ti.handle).base ti 0).map (asSigned 32)

/-- The first index outside `0 .. n − 1` (R193). -/
def badIndex (n : Nat) (is : List Int) : Option Int := is.find? (fun i => decide (i < 0) || decide ((n : Int) ≤ i))

/-- The refusal of an index out of range (R193): the row's offset in the region of the indexed descriptor. -/
def refIndex (s : State) (x l : Nat) (d : Desc) (i : Int) : Refuse :=
  refBound d.handle (d.rowAddr 0 (toTwos 32 i)) (handleOf s x l d.handle).size

/-- A gather or scatter whose index lies outside is refused as it runs, with nothing written (R193). -/
def refuseStarted (s : State) (x l : Nat) (f : Flight) (r : Refuse) : State :=
  refuseInstr (abandonFlight s x l f.id) x l f.pc f.word 0 r

/-- M.GTH (R193). -/
def runGth (s : State) (x l : Nat) (f : Flight) (o : MOps) : State :=
  let d := f.regs.getT o.td
  let c := f.regs.getT o.ts
  let ti := f.regs.getT o.ti
  let base := (handleOf s x l c.handle).base
  if rowPoisoned s (handleOf s x l ti.handle).base ti 0 then endMove s x l f d [] (some 0)
  else
    let is := indices s x l ti
    match badIndex c.rows is with
    | some i => refuseStarted s x l f (refIndex s x l c i)
    | none =>
      endMove s x l f d (is.zipIdx.map (fun (i, r) => copyRow s base c i.toNat r))
        (firstBelow d.rows (fun r => rowPoisoned s base c (is.getD r 0).toNat))

/-- One FP32 addition of M.SCT with ACC (R194): encoding, exceptions. -/
def sctAdd (ftz : Bool) (a b : Nat) : Nat × Exc :=
  let u := laneFlush .fp32 ftz (decodeFp fp32 ftz a)
  let v := laneFlush .fp32 ftz (decodeFp fp32 ftz b)
  if u.addInvalid v then (canonNan fp32, Exc.ofInvalid)
  else castFp fp32 .rne 0 false ftz (u.ieeeAdd v)

/-- The exceptions met by an accumulating scatter: the destination elements made invalid, those that overflowed, and the
rest of the exceptions. -/
structure SctSeen where
  invalid : List Nat
  overflow : List Nat
  exc : Exc

/-- One source row added into row `i` of the destination (R194). -/
def sctRow (base cbase : Nat) (d c : Desc) (ftz : Bool) (x l : Nat) (p : State × SctSeen) (e : Int × Nat) : State × SctSeen :=
  let (s, seen) := p
  let i := e.1.toNat
  let rs := ((rowCodes s base d i).zip (rowCodes s cbase c e.2)).map (fun (a, b) => sctAdd ftz a b)
  let at_ (t : Exc → Bool) : List Nat := (rs.zipIdx.filter (fun v => t v.1.2)).map (fun v => i * d.dim0 + v.2)
  (writeRows s x l d [⟨i, packRow 0 (rs.map (·.1)), []⟩],
    ⟨seen.invalid ++ at_ (·.invalid), seen.overflow ++ at_ (·.overflow), seen.exc.join (Exc.all (rs.map (·.2)))⟩)

/-- The exceptions of an accumulating scatter (R82 to R88, R194). DESIGN CHOICE (log entry 67): no weight set is concerned, so
W_HANDLE is 0 as for the vector engine. -/
def sctRecord (s : State) (x l : Nat) (f : Flight) (d c : Desc) (seen : SctSeen) : State :=
  let by_ : NumBy := ⟨x, l, f.pc, d.handle, 0, false⟩
  let s := recordExc s by_ seen.exc
  let inv := seen.invalid.dedup
  let s := recordInvalid s x l (inv.min?.map fun e =>
    { site := siteWord 2 7 0x1FF 0 0 c.handle x, pc := f.pc, handle := c.handle, wHandle := 0, count := inv.length,
      where_ := elemWhere d e })
  let ovf := seen.overflow.dedup
  recordOverflow s by_ (ovf.min?.map fun e => ⟨ovf.length, 0, elemWhere d e⟩)

/-- M.SCT (R193, R194): rows in ascending order, a later row over an earlier one, or added in that order. -/
def runSct (s : State) (x l : Nat) (f : Flight) (o : MOps) : State :=
  let d := f.regs.getT o.td
  let c := f.regs.getT o.ts
  let ti := f.regs.getT o.ti
  let base := (handleOf s x l d.handle).base
  let cbase := (handleOf s x l c.handle).base
  if rowPoisoned s (handleOf s x l ti.handle).base ti 0 then endMove s x l f d [] (some 0)
  else
    let is := indices s x l ti
    match badIndex d.rows is with
    | some i => refuseStarted s x l f (refIndex s x l d i)
    | none =>
      let limit := firstBelow c.rows (fun r => rowPoisoned s cbase c r || (o.acc && rowPoisoned s base d (is.getD r 0).toNat))
      if o.acc then
        let (n, s1) := rowsDone s c.rows limit
        let (s2, seen) := (is.zipIdx.take n).foldl (sctRow base cbase d c (ftzOf s x) x l) (s1, ⟨[], [], Exc.zero⟩)
        endEngine (sctRecord s2 x l f d c seen) x l f.id f.pc limit
      else endMove s x l f d (is.zipIdx.map (fun (i, r) => copyRow s cbase c r i.toNat)) limit

/-- M.TRN: element (i₀, i₁, i₂) of the destination from element (i₁, i₀, i₂) of the source. -/
def runTrn (s : State) (x l : Nat) (f : Flight) (o : MOps) : State :=
  let d := f.regs.getT o.td
  let c := f.regs.getT o.ts
  let base := (handleOf s x l c.handle).base
  let plane (p : Nat) : List (List Nat) := (List.range c.dim1).map (fun j => rowCodes s base c (p * c.dim1 + j))
  let rows := (List.range d.dim2).flatMap fun p =>
    let src := plane p
    (List.range d.dim1).map fun i : Nat => (⟨p * d.dim1 + i, packRow d.format (src.map (fun row => row.getD i 0)), []⟩ : RowOut)
  let bad (r : Nat) : Bool := (List.range c.dim1).any (fun j => rowPoisoned s base c (r / d.dim1 * c.dim1 + j))
  endMove s x l f d rows (firstBelow d.rows bad)

/-- M.FIL (R195). -/
def runFil (s : State) (x l : Nat) (f : Flight) (o : MOps) : State :=
  let d := f.regs.getT o.td
  let v := (f.regs.getG o.gf).toNat % 2 ^ fmtBits d.format
  let data := packRow d.format (List.replicate d.dim0 v)
  endMove s x l f d ((List.range d.rows).map (fun r => ⟨r, data, []⟩)) none

/-- The reads of a move (R192 to R194). -/
def mTouches (s : State) (x l : Nat) (g : TaskRegs) (i : CInstr) : List Touch :=
  let rowsAt (ti : Desc) : List Nat := (indices s x l ti).map Int.toNat
  match i with
  | .mCpy o => descTouches s x l (g.getT o.ts)
  | .mTrn o => descTouches s x l (g.getT o.ts)
  | .mGth o => descTouches s x l (g.getT o.ti)
      ++ rowTouches s x l (g.getT o.ts) ((rowsAt (g.getT o.ti)).filter (fun r => decide (r < (g.getT o.ts).rows)))
  | .mSct o => descTouches s x l (g.getT o.ti) ++ descTouches s x l (g.getT o.ts)
      ++ (if o.acc then rowTouches s x l (g.getT o.td) ((rowsAt (g.getT o.ti)).filter (fun r => decide (r < (g.getT o.td).rows)))
          else [])
  | _ => []

/-- Whether a move's reads are streaming reads (R145, R191). -/
def mStreams (i : CInstr) : Bool :=
  match i with
  | .mCpy o | .mGth o | .mTrn o => o.strm
  | _ => false

/-- What a move's accesses meet (R145, R151, R155 to R158, R164). A scatter writes the rows that its indices name. -/
def mMeet (s : State) (x l : Nat) (f : Flight) (ecc : List EccEvent) : State :=
  let ts := mTouches s x l f.regs f.op.instr
  match f.op.instr with
  | .mSct o =>
    let td := f.regs.getT o.td
    combWrites (meet s x l false ts [] ecc)
      (rowTouches s x l td (((indices s x l (f.regs.getT o.ti)).map Int.toNat).filter (fun r => decide (r < td.rows))))
  | i => meet s x l (mStreams i) ts [mDest f.regs i] ecc

def execMCpy (x l id : Nat) (ecc : List EccEvent) (s : State) : Host.Outcome State Fault Refusal :=
  match startedAt s x l id with
  | some (_, f) => match f.op.instr with
    | .mCpy o => .next (runCpy (mMeet s x l f ecc) x l f o)
    | _ => .next s
  | none => .next s

def execMGth (x l id : Nat) (ecc : List EccEvent) (s : State) : Host.Outcome State Fault Refusal :=
  match startedAt s x l id with
  | some (_, f) => match f.op.instr with
    | .mGth o => .next (runGth (mMeet s x l f ecc) x l f o)
    | _ => .next s
  | none => .next s

def execMSct (x l id : Nat) (ecc : List EccEvent) (s : State) : Host.Outcome State Fault Refusal :=
  match startedAt s x l id with
  | some (_, f) => match f.op.instr with
    | .mSct o => .next (runSct (mMeet s x l f ecc) x l f o)
    | _ => .next s
  | none => .next s

def execMTrn (x l id : Nat) (ecc : List EccEvent) (s : State) : Host.Outcome State Fault Refusal :=
  match startedAt s x l id with
  | some (_, f) => match f.op.instr with
    | .mTrn o => .next (runTrn (mMeet s x l f ecc) x l f o)
    | _ => .next s
  | none => .next s

def execMFil (x l id : Nat) (s : State) : Host.Outcome State Fault Refusal :=
  match startedAt s x l id with
  | some (_, f) => match f.op.instr with
    | .mFil o => .next (runFil (mMeet s x l f []) x l f o)
    | _ => .next s
  | none => .next s

end Sys2Proof.Machine
end

