-- ==== Sys2Proof/Machine/Vector.lean ====
section
/-! DEFINITION. The vector family (R181 to R189): operand checks at issue, and the execution of each instruction. -/

namespace Sys2Proof.Machine

/-! ### Checks at issue (R46 steps 3 to 5) -/

/-- The memory sources of a vector instruction (R182): whether it is B under BCB, and its descriptor register. -/
def vRoles (op : VOp) (o : VOps) : List (Bool × TReg) :=
  (if o.gselA then [] else [(false, o.ta)]) ++ (if vUsesB op && !o.gselB then [(o.bcb, o.tb)] else [])
    ++ (if op = .fma then [(false, o.tc)] else [])

/-- Their descriptor registers. -/
def vSources (op : VOp) (o : VOps) : List TReg := (vRoles op o).map (·.2)

/-- Equal shapes (R185). -/
def Desc.sameShape (a b : Desc) : Bool := decide (a.dim0 = b.dim0) && decide (a.dim1 = b.dim1) && decide (a.dim2 = b.dim2)

/-- One unit in the contiguous dimension and equal otherwise (R185). -/
def Desc.columnOf (a b : Desc) : Bool := decide (a.dim0 = 1) && decide (a.dim1 = b.dim1) && decide (a.dim2 = b.dim2)

/-- A step-3 refusal unless a test holds. -/
def needShape (b : Bool) (t : Nat) : Option Refuse := if b then none else some (refShape t)

/-- Step 3 for a vector instruction: R38, R183, R185, R189. The gradient chunk is an FP32 source (R189), so CT = INT32 refuses
it too. DESIGN CHOICE (log entry 66): where several operands break step 3, TD is named before the sources, and the sources in
the order A, B, C; a chunk under CT = INT32, which has no descriptor, names TD. -/
def vStep3 (g : TaskRegs) (op : VOp) (o : VOps) : Option Refuse :=
  let td := g.getT o.td
  let srcs := vSources op o
  firstRefusal
    (needShape (td.legal true) o.td
      :: srcs.map (fun t => needShape ((g.getT t).legal false) t)
      ++ needShape (!((o.gselA || o.gselB) && o.ct == .int32)) o.td
      :: srcs.map (fun t => needShape (o.ct != .int32 || fmtInt (g.getT t).format) t)
      ++ (if op = .red then
            [needShape (o.gselA || td.columnOf (g.getT o.ta)) o.td, needShape (decide (td.dim0 = 1)) o.td]
          else
            (vRoles op o).map (fun e => needShape
              (if e.1 then (g.getT e.2).columnOf td else (g.getT e.2).sameShape td) e.2))
      ++ (if o.gselA || o.gselB then
            needShape (decide (td.dim1 = 1) && decide (td.dim2 = 1)) o.td
              :: srcs.map (fun t => needShape (decide ((g.getT t).dim1 = 1) && decide ((g.getT t).dim2 = 1)) t)
          else []))

/-- Step 4: an operand descriptor names no element (R52). -/
def vZero (g : TaskRegs) (op : VOp) (o : VOps) : Bool :=
  decide ((g.getT o.td).count = 0) || (vSources op o).any (fun t => decide ((g.getT t).count = 0))

/-- The gradient chunk that a task may read (R189): its values, for an optimizer handler. -/
def chunkOf (s : State) (x l : Nat) (k : TaskKind) : Option (List (BitVec 32)) :=
  match k with
  | .optHandler p c =>
    let core := physCore s (getCtx s x).part l
    ((Sparse.get [] s.chunkBufs core).find? (fun e => e.1 == p && e.2.1 == c)).map (·.2.2)
  | _ => none

/-- The elements a vector instruction reads of the chunk. -/
def vChunkDim (g : TaskRegs) (op : VOp) (o : VOps) : Nat :=
  if op = .red then (if o.gselA then 1024 else 0) else (g.getT o.td).dim0

/-- Step 5 for a vector instruction: R41, R53, R168, R189. DESIGN CHOICE (log entry 66): the chunk is judged first, then TD,
then the sources in the order A, B, C. -/
def vStep5 (s : State) (x l : Nat) (k : TaskKind) (g : TaskRegs) (op : VOp) (o : VOps) : Option Refuse :=
  let td := g.getT o.td
  let srcs := (vSources op o).map g.getT
  firstRefusal
    ((if o.gselA || o.gselB then
        match chunkOf s x l k with
        | none => [some (refHandle 0 5 0)]
        | some vs => [if op ≠ .red ∧ vs.length < td.dim0 then some (refBound0 (4 * vs.length)) else none]
      else [])
      ++ [accessCheck s x l k true td] ++ srcs.map (accessCheck s x l k false) ++ [overlapCheck s x l true td srcs])

/-! ### Execution -/

/-- The lane values of a row of a source of format `fmt`, with the exceptions of R64, R77 and R183. -/
def laneRow (ct : CType) (ftz : Bool) (fmt : Nat) (vs : List FNum) : List (FNum × Exc) :=
  vs.map (toLane ct (ftz && fmt == 0x10))

/-- Where a source's values come from: a descriptor, or the gradient chunk (R189). -/
def vRow (s : State) (x l : Nat) (ftz : Bool) (chunk : List (BitVec 32)) (useChunk : Bool) (d : Desc) (n r : Nat) : List FNum :=
  if useChunk then (chunk.take n).map (fun c => decodeFp fp32 ftz c.toNat)
  else rowNums s (handleOf s x l d.handle).base d ftz r

/-- The scalar s (R183). -/
def vScalar (ct : CType) (w : Word) : FNum :=
  match ct with
  | .fp32 => decodeFp fp32 false (w.toNat % 2 ^ 32)
  | .fp64 => decodeFp fp64 false w.toNat
  | .int32 => FNum.ofInt (asSigned 32 w.toNat)

/-- One element: value, exceptions, KIND (R86). -/
def vElem (op : VOp) (o : VOps) (ftz : Bool) (sc : FNum) (a b c : FNum × Exc) : FNum × Exc × Nat :=
  let src := a.2.join (b.2.join c.2)
  match o.ct with
  | .int32 =>
    let (v, e) := laneOpInt op o.sat a.1.toInt b.1.toInt sc.toInt
    (FNum.ofInt v, src.join e, 0)
  | ct =>
    let (v, e, k) := laneOp op ct ftz a.1 b.1 c.1 (laneFlush ct ftz sc)
    (v, src.join e, k)

/-- Elements of a row. -/
def vElems (op : VOp) (o : VOps) (ftz : Bool) (sc : FNum) (n : Nat) (a b c : List (FNum × Exc)) : List (FNum × Exc × Nat) :=
  (List.range n).map fun i =>
    let z : FNum × Exc := (.fin false 0 0, Exc.zero)
    vElem op o ftz sc (a.getD i z) (if o.bcb then b.getD 0 z else b.getD i z) (c.getD i z)

/-- The descriptor of source A: the gradient chunk, which has none, counts as FP32 with SCALE 1.0 (R189, log entry 62). -/
def vDescA (g : TaskRegs) (o : VOps) : Desc :=
  if o.gselA then { Desc.null with w0 := putF ⟨32, 32⟩ 0x3F800000 0 } else g.getT o.ta

/-- V.CVT: a × sA × sD exactly (R186), the MX range rule of R64 on the source. -/
def vCvtElems (td ta : Desc) (vs : List FNum) : List (FNum × Exc × Nat) :=
  vs.map fun v =>
    let (a, e) := if fmtMx ta.format then toLane .fp32 false v else (v, Exc.zero)
    ((a.mul ta.scaleNum).mul td.scaleNum, e, 0)

/-- The combination of two nodes of the tree of V.RED (R185). -/
def redNode (o : VOps) (ftz : Bool) (a b : FNum × Exc) : FNum × Exc :=
  let src := a.2.join b.2
  match o.ct with
  | .int32 =>
    let (v, e) := match o.rf with
      | .sum => laneOpInt .add o.sat a.1.toInt b.1.toInt 0
      | .max => laneOpInt .max o.sat a.1.toInt b.1.toInt 0
      | .min => laneOpInt .min o.sat a.1.toInt b.1.toInt 0
    (FNum.ofInt v, src.join e)
  | ct =>
    match o.rf with
    | .sum =>
      let (v, e) := laneRound ct ftz (a.1.ieeeAdd b.1)
      (v, src.join e)
    | .max => (lanePick true a.1 b.1, src)
    | .min => (lanePick false a.1 b.1, src)

def redLevel (o : VOps) (ftz : Bool) : List (FNum × Exc) → List (FNum × Exc)
  | a :: b :: xs => redNode o ftz a b :: redLevel o ftz xs
  | xs => xs

def redTree (o : VOps) (ftz : Bool) : Nat → List (FNum × Exc) → List (FNum × Exc)
  | 0, xs => xs
  | n + 1, xs => redTree o ftz n (redLevel o ftz xs)

/-- The padding of the tree (R185). -/
def redPad (o : VOps) : FNum :=
  match o.rf, o.ct with
  | .sum, _ => .fin false 0 0
  | .max, .int32 => FNum.ofInt (-2147483648)
  | .min, .int32 => FNum.ofInt 2147483647
  | .max, _ => .inf true
  | .min, _ => .inf false

/-- Levels of the tree over `n` elements. -/
def treeLevels (n : Nat) : Nat := if n ≤ 1 then 0 else Nat.log2 (n - 1) + 1

/-- The element of a row at which a sum first holds infinities of both signs with no NaN before it (R87). -/
def redSite : List FNum → Bool → Bool → Nat → Option Nat
  | [], _, _, _ => none
  | v :: vs, p, n, i =>
    match v with
    | .nan => none
    | .inf s => if (s && p) || (!s && n) then some i else redSite vs (p || !s) (n || s) (i + 1)
    | .fin .. => redSite vs p n (i + 1)

/-- The element at which a sum whose result is `v` became invalid (R87). A NaN with no source to explain it is one that
partial sums made, by overflowing to infinities of both signs (R80). DEDUCED: it is invalid as an element-wise addition of
those infinities is; DESIGN CHOICE (log entry 67): R87 names no element for it, and the model names the row's last. -/
def redSumSite (v : FNum) (vs : List FNum) : Option Nat :=
  match redSite vs false false 0 with
  | some i => some i
  | none => if v.isNan && !vs.any FNum.isNan then some (vs.length - 1) else none

/-- One row of V.RED: the reduction, its exceptions, and the element at which it became invalid. -/
def vRedRow (o : VOps) (ftz : Bool) (vs : List (FNum × Exc)) : FNum × Exc × Option Nat :=
  let lv := treeLevels vs.length
  let padded := vs ++ List.replicate (2 ^ lv - vs.length) (redPad o, Exc.zero)
  let (v, e) := (redTree o ftz lv padded).headD (.fin false 0 0, Exc.zero)
  let site := match o.ct, o.rf with
    | .int32, _ => none
    | _, .sum => redSumSite v (vs.map (·.1))
    | _, _ => none
  (v, if site.isSome then { e with invalid := true } else e, site)

/-- A computed row of a vector instruction: the cast row, and for each element its KIND and the index detail 2 names. -/
structure VRowOut where
  cast : RowCast
  kinds : List Nat
  wheres : List Nat

/-- A row's results cast into the destination (R184, R186); an element clamped in the lane and in the cast, or at several nodes
of V.RED's tree, counts once (R75). -/
def vCastRow (td : Desc) (o : VOps) (ftz : Bool) (seed tid r : Nat) (vs : List (FNum × Exc × Nat)) : VRowOut :=
  let draw (i : Nat) : Nat := if o.rnd = .sr then srBits seed tid (r * td.dim0 + i) else 0
  let c := castRow td.format o.rnd o.sat ftz draw (vs.map (·.1))
  let excs := (vs.zip c.excs).map (fun (v, e) => (v.2.1.join e).once)
  let kinds := (vs.zip c.excs).map (fun (v, e) => if v.2.2 ≠ 0 then v.2.2 else if v.2.1.invalid then 3 else if e.invalid then 4 else 0)
  ⟨{ c with excs := excs }, kinds, (List.range vs.length).map (fun i => elemWhere td (r * td.dim0 + i))⟩

/-- Row `r` of a vector instruction. -/
def vRowOut (s : State) (x l : Nat) (f : Flight) (op : VOp) (o : VOps) (chunk : List (BitVec 32)) (r : Nat) : VRowOut :=
  let g := f.regs
  let td := g.getT o.td
  let ta := g.getT o.ta
  let ftz := ftzOf s x
  let tid := (g.getG o.gt).toNat
  let seed := seedOf s x
  let n := td.dim0
  match op with
  | .cvt => vCastRow td o ftz seed tid r (vCvtElems td (vDescA g o) (vRow s x l ftz chunk o.gselA ta n r))
  | .red =>
    let vs := laneRow o.ct ftz (vDescA g o).format (vRow s x l ftz chunk o.gselA ta 1024 r)
    let (v, e, site) := vRedRow o ftz vs
    let c := vCastRow td o ftz seed tid r [(v, e, if site.isSome then 2 else 0)]
    { c with wheres := [match site with
        | some i => if o.gselA then i else elemWhere ta (r * ta.dim0 + i)
        | none => elemWhere td r] }
  | _ =>
    let tb := g.getT o.tb
    let tc := g.getT o.tc
    let a := laneRow o.ct ftz (vDescA g o).format (vRow s x l ftz chunk o.gselA ta n r)
    let b := if vUsesB op then laneRow o.ct ftz (if o.gselB then 0 else tb.format) (vRow s x l ftz chunk o.gselB tb n r) else []
    let c := if op = .fma then laneRow o.ct ftz tc.format (vRow s x l ftz chunk false tc n r) else []
    vCastRow td o ftz seed tid r (vElems op o ftz (vScalar o.ct (g.getG o.gs)) n a b c)

/-- The exceptions of a vector instruction's rows (R82 to R88). DESIGN CHOICE (log entry 67): the gradient chunk has no handle,
and HANDLE is 0 where source A is the chunk. -/
def vRecord (s : State) (x l : Nat) (f : Flight) (o : VOps) (rows : List VRowOut) : State :=
  let td := f.regs.getT o.td
  let by_ : NumBy := ⟨x, l, f.pc, td.handle, td.format, o.sat⟩
  let excs := rows.flatMap (·.cast.excs)
  let kinds := rows.flatMap (·.kinds)
  let wheres := rows.flatMap (·.wheres)
  let ah := if o.gselA then 0 else (f.regs.getT o.ta).handle
  let s := recordExc s by_ (Exc.all excs)
  let s := recordInvalid s x l ((countFirst excs (·.invalid)).map fun (i, n) =>
    { site := siteWord (kinds.getD i 3) 7 0x1FF 0 0 ah x, pc := f.pc, handle := ah, wHandle := 0, count := n,
      where_ := wheres.getD i 0 })
  recordOverflow s by_ ((countFirst excs (·.overflow)).map fun (i, n) => ⟨n, 0, elemWhere td i⟩)

/-- The first row whose sources hold poisoned data (R155). -/
def vPoison (s : State) (x l : Nat) (f : Flight) (op : VOp) (o : VOps) : Option Nat :=
  firstBelow (f.regs.getT o.td).rows fun r =>
    (vSources op o).any fun t =>
      let d := f.regs.getT t
      rowPoisoned s (handleOf s x l d.handle).base d r

/-- A started vector instruction executes. -/
def runVector (s : State) (x l : Nat) (f : Flight) (op : VOp) (o : VOps) : State :=
  let td := f.regs.getT o.td
  let chunk := (chunkOf s x l (taskKindOf s x l)).getD []
  let limit := vPoison s x l f op o
  let (n, s1) := rowsDone s td.rows limit
  let rows := (List.range n).map (vRowOut s x l f op o chunk)
  let s2 := writeRows s1 x l td (rows.zipIdx.map fun (v, r) => v.cast.out td.format r)
  endEngine (vRecord s2 x l f o rows) x l f.id f.pc limit

/-- What a vector instruction's accesses meet (R151, R155 to R158, R164). -/
def vMeet (s : State) (x l : Nat) (f : Flight) (op : VOp) (o : VOps) (ecc : List EccEvent) : State :=
  let srcs := (vSources op o).map f.regs.getT
  meet s x l false (srcs.flatMap (descTouches s x l)) [f.regs.getT o.td] ecc

/-- The started vector instruction `id`, if it is one of operation `op`. -/
def execV (op : VOp) (x l id : Nat) (ecc : List EccEvent) (s : State) : State :=
  match startedAt s x l id with
  | none => s
  | some (_, f) =>
    match f.op.instr with
    | .v op' o => if op' = op then runVector (vMeet s x l f op o ecc) x l f op o else s
    | _ => s

def execVAdd (x l id : Nat) (ecc : List EccEvent) (s : State) : Host.Outcome State Fault Refusal :=
  .next (execV .add x l id ecc s)
def execVSub (x l id : Nat) (ecc : List EccEvent) (s : State) : Host.Outcome State Fault Refusal :=
  .next (execV .sub x l id ecc s)
def execVMul (x l id : Nat) (ecc : List EccEvent) (s : State) : Host.Outcome State Fault Refusal :=
  .next (execV .mul x l id ecc s)
def execVDiv (x l id : Nat) (ecc : List EccEvent) (s : State) : Host.Outcome State Fault Refusal :=
  .next (execV .div x l id ecc s)
def execVFma (x l id : Nat) (ecc : List EccEvent) (s : State) : Host.Outcome State Fault Refusal :=
  .next (execV .fma x l id ecc s)
def execVMax (x l id : Nat) (ecc : List EccEvent) (s : State) : Host.Outcome State Fault Refusal :=
  .next (execV .max x l id ecc s)
def execVMin (x l id : Nat) (ecc : List EccEvent) (s : State) : Host.Outcome State Fault Refusal :=
  .next (execV .min x l id ecc s)
def execVAdds (x l id : Nat) (ecc : List EccEvent) (s : State) : Host.Outcome State Fault Refusal :=
  .next (execV .adds x l id ecc s)
def execVMuls (x l id : Nat) (ecc : List EccEvent) (s : State) : Host.Outcome State Fault Refusal :=
  .next (execV .muls x l id ecc s)
def execVAxpy (x l id : Nat) (ecc : List EccEvent) (s : State) : Host.Outcome State Fault Refusal :=
  .next (execV .axpy x l id ecc s)
def execVSqrt (x l id : Nat) (ecc : List EccEvent) (s : State) : Host.Outcome State Fault Refusal :=
  .next (execV .sqrt x l id ecc s)
def execVRsqrt (x l id : Nat) (ecc : List EccEvent) (s : State) : Host.Outcome State Fault Refusal :=
  .next (execV .rsqrt x l id ecc s)
def execVExp (x l id : Nat) (ecc : List EccEvent) (s : State) : Host.Outcome State Fault Refusal :=
  .next (execV .exp x l id ecc s)
def execVLog (x l id : Nat) (ecc : List EccEvent) (s : State) : Host.Outcome State Fault Refusal :=
  .next (execV .log x l id ecc s)
def execVSilu (x l id : Nat) (ecc : List EccEvent) (s : State) : Host.Outcome State Fault Refusal :=
  .next (execV .silu x l id ecc s)
def execVCvt (x l id : Nat) (ecc : List EccEvent) (s : State) : Host.Outcome State Fault Refusal :=
  .next (execV .cvt x l id ecc s)
def execVRed (x l id : Nat) (ecc : List EccEvent) (s : State) : Host.Outcome State Fault Refusal :=
  .next (execV .red x l id ecc s)

end Sys2Proof.Machine
end

