-- ==== Sys2Proof/Machine/Sequencer.lean ====
section
/-! DEFINITION. The control sequencer: fetch and the checks of R46, the engine queues (R45, R48), the K and B families (R326
to R337, R351, R352), slices (R27, R28) and stealing (R119 to R121). -/

namespace Sys2Proof.Machine

/-! ### The checks of R46 -/

/-- The 8 bytes that K.LD and K.ST name, as an offset in the region (R333). -/
def scalarOffset (g : TaskRegs) (t : TReg) (gb : GReg) : Nat := (g.getT t).offset + (g.getG gb).toNat

/-- Step 5 of K.LD and K.ST (R41, R136, R138, R333). DESIGN CHOICE (log entry 66): a misaligned access that lies inside its
region exceeds no byte of it, and detail 2 is the access's own offset. -/
def scalarCheck (s : State) (x l : Nat) (k : TaskKind) (g : TaskRegs) (t : TReg) (gb : GReg) (write : Bool) : Option Refuse :=
  let h := (g.getT t).handle
  let e := handleOf s x l h
  let o := scalarOffset g t gb
  firstRefusal [handleCheck s x l h write k,
    (if o % 8 ≠ 0 ∨ e.size < o + 8 then some (refBound h (if o + 8 ≤ e.size then o else max o e.size) e.size) else none),
    (firstBad s (some (getCtx s x).part) (e.base + o) 8).map refBound0]

/-- The target of K.BR lies within the CODE region from which the task was entered (R332). -/
def branchCheck (r : Running) (ofs : Int) : Option Refuse :=
  let t : Int := (r.pc : Int) + 8 * ofs
  let o : Int := t - r.base
  if o < 0 then some (refBound (entryHandle r.task.entry) (toTwos 64 o) r.size)
  else if (r.size : Int) < o + 8 then some (refBound (entryHandle r.task.entry) (max o.toNat r.size) r.size)
  else none

/-- The new value of a descriptor field (R335); none where it breaks the field's range. -/
def fieldValue (d : Desc) (fld : Nat) (add : Bool) (w : Word) : Option Nat :=
  let width := (descFld fld).2.w
  let v : Int := if add then (d.getFld fld : Int) + asSigned 64 w.toNat else (w.toNat : Int)
  if 0 ≤ v ∧ v < ((2 ^ width : Nat) : Int) then some v.toNat else none

/-- Step 3 for an instruction that is not an A.DRN (R38, R46, R53). -/
def step3 (s : State) (x : Nat) (g : TaskRegs) (w : CWord) : Option Refuse :=
  match w.instr with
  | .kSpawn ge _ gi _ => if bitsOf 63 55 (g.getG ge) ≠ 0 ∨ bitsOf 63 32 (g.getG gi) ≠ 0 then some refShape0 else none
  | .kTd td fld add ga => if (fieldValue (g.getT td) fld add (g.getG ga)).isNone then some (refShape td.val) else none
  | .aLdw o => ldwStep3 g o
  | .aSwp o => if o.mask.val = 0 then some refShape0 else none
  | .aMul o => mulStep3 false g o w.post
  | .aMult o => mulStep3 true g o w.post
  | .aDrn _ => some refShape0
  | .v op o => vStep3 g op o
  | .mCpy _ | .mGth _ | .mSct _ | .mTrn _ | .mFil _ => mStep3 g w.instr
  | .qSend .. | .qOpen .. | .qClose .. | .qReset .. => qStep3 g w.instr
  | .cBulk .. | .cWred .. => cStep3 s x g w.instr
  | _ => none

/-- Step 4: the effective count is zero (R52). -/
def step4 (s : State) (x : Nat) (g : TaskRegs) (i : CInstr) : Bool :=
  match i with
  | .aLdw o => decide ((g.getT o.tw).count = 0)
  | .aMul o | .aMult o => mulZero g o
  | .v op o => vZero g op o
  | .mCpy _ | .mGth _ | .mSct _ | .mTrn _ | .mFil _ => mZero g i
  | .cBulk .. | .cWred .. => cZero s x g i
  | _ => false

/-- Step 5: handles, extents and objects (R41, R53, R259, R332, R336, R349). -/
def step5 (s : State) (x l : Nat) (r : Running) (i : CInstr) : Option Refuse :=
  let g := r.regs
  let k := r.task.kind
  match i with
  | .kSpawn ge _ _ _ => entryCheck s x l (g.getG ge)
  | .kBr ofs => branchCheck r ofs
  | .kLd _ ts gb => scalarCheck s x l k g ts gb false
  | .kSt _ td gb => scalarCheck s x l k g td gb true
  | .aLdw o => accessCheck s x l k false (g.getT o.tw)
  | .aMul o | .aMult o => mulStep5 s x l k g o
  | .v op o => vStep5 s x l k g op o
  | .mCpy _ | .mGth _ | .mSct _ | .mTrn _ | .mFil _ => mStep5 s x l k g i
  | .sSet .. | .sClr .. | .sWait .. | .sBar .. | .sBwait .. => sStep5 s x g i
  | .qSend .. | .qAck | .qOpen .. | .qClose .. | .qReset .. => qStep5 s x l k g i
  | .cBulk .. | .cWred .. => cStep5 s x l k g i
  | _ => none

/-- Instructions that an optimizer handler task may not issue (R245). -/
def handlerForbids (k : TaskKind) (i : CInstr) : Bool :=
  match k with
  | .optHandler _ _ => (match i with
    | .kSpawn .. => true
    | _ => engineOf i == some .comm)
  | _ => false

/-- What issuing an instruction comes to: live or not, refused at a step, or forbidden to the handler. -/
inductive Judged where
  | goes (live : Bool)
  | refused (step : Nat) (r : Refuse)
  | forbidden

/-- The checks of R46 after the decoding. -/
def judge (s : State) (x l : Nat) (r : Running) (w : CWord) : Judged :=
  if (r.regs.getP w.pred).xor w.pneg = false then .goes false
  else if handlerForbids r.task.kind w.instr then .forbidden
  else match step3 s x r.regs w with
    | some e => .refused 3 e
    | none =>
      if step4 s x r.regs w.instr then .goes false
      else match step5 s x l r w.instr with
        | some e => .refused 5 e
        | none => .goes true

/-! ### Issue (R45, R48, R100, R520) -/

/-- An instruction as it is issued: it reads its registers now (R32). -/
def mkFlight (s : State) (r : Running) (word : Word) (w : CWord) (live : Bool) (drn : Option (Word × CWord)) : Flight :=
  { id := r.nextId, pc := r.pc, word := word, op := w, live := live, regs := r.regs, stage := .issued, ticks := 0
    since := beat s, order := 0, waits := .none, drn := drn, acc := [] }

/-- Whether a post on `t` can still be made (R48). -/
def Running.postRoom (r : Running) (t : Nat) : Bool := t == 0 || decide (r.token t + r.pendingPosts t < 255)

/-- An instruction goes to the sequencer or to its engine's queue; a full queue stalls the sequencer (R45). -/
def issue (s : State) (x l : Nat) (r : Running) (f : Flight) (bytes : Nat) : State :=
  if !r.postRoom f.postTok then s
  else match engineOf f.op.instr with
    | none => setRun s x l (some { r with seq := some f, nextId := r.nextId + 1 })
    | some q =>
      if 32 ≤ (r.queue q).length then s
      else setRun s x l (some { (r.setQueue q (r.queue q ++ [f])) with nextId := r.nextId + 1, pc := r.pc + bytes })

/-- A task stops at a poisoned instruction word (R520). -/
def poisonFetch (s : State) (x l : Nat) (r : Running) : State := settlePoison (setRun s x l (some { r with poisonStop := true })) x l

/-- The instruction word at an address. -/
def wordAt (s : State) (a : Nat) : Word := BitVec.ofNat 64 (ofLeBytes (readBytes s a 8))

/-- A deferred product and the A.DRN that follows it (R100, R177): checked and issued as one. -/
def issuePair (s : State) (x l : Nat) (r : Running) (word : Word) (w : CWord) (o : AOps) (mult : Bool) (dw : Word) (d : CWord)
    (q : DrnOps) : State :=
  if (r.regs.getP w.pred).xor w.pneg = false then issue s x l r (mkFlight s r word w false (some (dw, d))) 16
  else
    match step3 s x r.regs w with
    | some e => refuseInstr s x l r.pc word 3 e
    | none => match drnStep3 mult r.regs o q with
      | some e => refuseInstr s x l (r.pc + 8) dw 3 e
      | none =>
        if mulZero r.regs o then issue s x l r (mkFlight s r word w false (some (dw, d))) 16
        else match mulStep5 s x l r.task.kind r.regs o with
          | some e => refuseInstr s x l r.pc word 5 e
          | none => match drnStep5 s x l r.task.kind r.regs q with
            | some e => refuseInstr s x l (r.pc + 8) dw 5 e
            | none => match pairOverlap s x l r.regs o q with
              | some e => refuseInstr s x l r.pc word 5 e
              | none => issue s x l r (mkFlight s r word w true (some (dw, d))) 16

/-- One instruction that stands alone. -/
def issueOne (s : State) (x l : Nat) (r : Running) (word : Word) (w : CWord) : State :=
  match judge s x l r w with
  | .goes live => issue s x l r (mkFlight s r word w live none) 8
  | .refused step e => refuseInstr s x l r.pc word step e
  | .forbidden => refuseForbidden s x l r.pc

/-- A product with DEFER = 1: with the A.DRN after it, or refused for want of it (R100, R109). -/
def issueDeferred (s : State) (x l : Nat) (r : Running) (word : Word) (w : CWord) (o : AOps) (mult : Bool) : State :=
  let inside := decide (r.pc + 16 ≤ r.base + r.size)
  if inside && poisoned s (r.pc + 8) 8 then poisonFetch s x l r
  else
    let dw := wordAt s (r.pc + 8)
    match (if inside then (decodeCynal dw).bind (fun d => (drnMatches w o d).map (fun q => (d, q))) else none) with
    | some (d, q) => issuePair s x l r word w o mult dw d q
    | none =>
      if (r.regs.getP w.pred).xor w.pneg = false then issue s x l r (mkFlight s r word w false none) 8
      else refuseInstr s x l r.pc word 3 refShape0

/-- The next instruction of a task is fetched, checked and issued (R43, R46, R520). Detail 2 of a fetch that leaves its region
is the first byte outside (R521). -/
def fetch (s : State) (x l : Nat) (r : Running) : State :=
  if r.base + r.size < r.pc + 8 then refuseInstr s x l r.pc 0 0 (refBound0 (max r.pc (r.base + r.size)))
  else if poisoned s r.pc 8 then poisonFetch s x l r
  else
    let word := wordAt s r.pc
    match decodeCynal word with
    | none => refuseInstr s x l r.pc word 1 ⟨codeReserved, 0, 0, 0, none⟩
    | some w => match w.instr with
      | .aMul o => if o.defer then issueDeferred s x l r word w o false else issueOne s x l r word w
      | .aMult o => if o.defer then issueDeferred s x l r word w o true else issueOne s x l r word w
      | _ => issueOne s x l r word w

/-- What a fetch's reads meet (R151, R155 to R158, R164): the word, and the word after it where that is fetched with it. -/
def fetchMeet (s : State) (r : Running) (ecc : List EccEvent) : State :=
  let h := entryHandle r.task.entry
  if r.base + r.size < r.pc + 8 then s
  else
    let pair : Bool := match decodeCynal (wordAt s r.pc) with
      | some w => match w.instr with
        | .aMul o | .aMult o => o.defer && decide (r.pc + 16 ≤ r.base + r.size)
        | _ => false
      | none => false
    let ts : List Touch := ⟨h, r.pc, 8⟩ :: if pair then [⟨h, r.pc + 8, 8⟩] else []
    combReads (eccMeet s ts ecc) false ts

def execInstructionFetch (x l : Nat) (ecc : List EccEvent) (s : State) : Host.Outcome State Fault Refusal :=
  match getRun s x l with
  | some r => if runningCtx s x && !coreHeld s x l && r.seq.isNone && !r.ended && !r.poisonStop then .next (fetch (fetchMeet s r ecc) x l r) else .next s
  | none => .next s

/-! ### Engine queues and posts (R45, R48, R103, R105, R328) -/

/-- Whether the communication unit may start an instruction now (R295, R328). Of collectives, those that wait for their groups and
those that have started and may come to wait fill the 16 places. -/
def commRoom (s : State) (x : Nat) (r : Running) (f : Flight) : Bool :=
  let send (i : CInstr) : Bool := match i with
    | .qSend .. => true
    | _ => false
  let comm := r.flying.filter (fun e => engineOf e.op.instr == some .comm && !isCol e.op.instr)
  if !f.live then true
  else if isCol f.op.instr then
    let due := ((allFlying s).filter (fun e => e.2.2.colDue)).length
    match grpSlot s x (cGroup f.regs f.op.instr) with
    | some k => (!(getGrp s k).busy (isWred f.op.instr) && due == 0) || decide (waitingEntries s + due < 16)
    | none => true
  else decide ((comm.filter (fun e => send e.op.instr == send f.op.instr)).length < 64)

/-- The queue after its head has left; the new head's wait begins. -/
def popQueue (s : State) (r : Running) (q : EngineQ) : Running :=
  match (r.queue q).drop 1 with
  | [] => r.setQueue q []
  | f :: fs => r.setQueue q ({ f with since := beat s, ticks := 0 } :: fs)

/-- The head of a queue starts: it consumes its wait; without effect, it completes at once (R46). -/
def startHead (s : State) (x l : Nat) (r : Running) (q : EngineQ) (f : Flight) : State :=
  let r := (popQueue s r q).consume f.op.wait
  if !f.live then settlePoison (setRun s x l (some (r.post f.postTok))) x l
  else
    let s := setRun s x l (some { r with flying := r.flying ++ [{ f with stage := .started }] })
    setCore s x l (arrOnStart (getCore s x l) f.op.instr)

def execEngineQueueStart (x l : Nat) (q : EngineQ) (s : State) : Host.Outcome State Fault Refusal :=
  match getRun s x l with
  | some r => match r.queue q with
    | f :: _ =>
      if runningCtx s x && !engineHeld s x l q && r.ready f.op.wait && (q != .comm || commRoom s x r f) then
        match (if f.live && q == .array then arrStart (getCore s x l) r f else .starts) with
        | .waits => .next s
        | .starts => .next (startHead s x l r q f)
        | .refused e => .next (refuseInstr (setRun s x l (some (popQueue s r q))) x l f.pc f.word 0 e)
      else .next s
    | [] => .next s
  | none => .next s

/-- An instruction whose writes are visible posts and completes (R48). -/
def execTokenPost (x l id : Nat) (s : State) : Host.Outcome State Fault Refusal :=
  match getRun s x l with
  | some r => match r.inFlight id with
    | some f => if f.stage = .executed then .next (completeFlight s x l id) else .next s
    | none => .next s
  | none => .next s

/-! ### The sequencer's own instructions (R326) -/

/-- The instruction that the sequencer holds, once its token is there. -/
def seqAt (s : State) (x l : Nat) : Option (Running × Flight) :=
  match getRun s x l with
  | some r => match r.seq with
    | some f => if runningCtx s x && !coreHeld s x l && r.ready f.op.wait then some (r, f) else none
    | none => none
  | none => none

/-- The held instruction completes: registers changed, wait consumed, token posted, the next instruction at `pc`. -/
def finishSeq (s : State) (x l : Nat) (r : Running) (f : Flight) (g : TaskRegs → TaskRegs) (pc : Nat) : State :=
  setRun s x l (some { ((r.consume f.op.wait).post f.op.post) with regs := g r.regs, seq := none, pc := pc })

/-- The held instruction completes and the next one follows it. -/
def stepSeq (s : State) (x l : Nat) (r : Running) (f : Flight) (g : TaskRegs → TaskRegs) : State := finishSeq s x l r f g (f.pc + 8)

/-- A held instruction of one kind: without effect where it is not live (R46). -/
def seqExec (s : State) (x l : Nat) (is : CInstr → Bool) (act : Running → Flight → State) : State :=
  match seqAt s x l with
  | some (r, f) => if is f.op.instr then (if f.live then act r f else stepSeq s x l r f id) else s
  | none => s

/-- The functions of K.ALU and K.ALUI (R330). -/
def aluFn (fn : AluFn) (a b : Word) : Word :=
  match fn with
  | .add => a + b
  | .sub => a - b
  | .mul => a * b
  | .and => a &&& b
  | .or => a ||| b
  | .xor => a ^^^ b
  | .shl => a <<< (b.toNat % 64)
  | .shr => a >>> (b.toNat % 64)
  | .sra => a.sshiftRight (b.toNat % 64)
  | .min => if a.slt b then a else b
  | .max => if a.slt b then b else a
  | .minu => if a.ult b then a else b
  | .maxu => if a.ult b then b else a

/-- The conditions of K.CMP (R330). -/
def cmpCc (cc : CmpCc) (a b : Word) : Bool :=
  match cc with
  | .eq => a == b
  | .ne => a != b
  | .lt => a.slt b
  | .le => a.sle b
  | .gt => b.slt a
  | .ge => b.sle a
  | .ltu => a.ult b
  | .leu => a.ule b
  | .gtu => b.ult a
  | .geu => b.ule a

/-- The identities of R334. -/
def identity (s : State) (x : Nat) (r : Running) (sel : Nat) : Nat :=
  let p := (getCtx s x).part
  let serving := flg s (Reg.PLC_PART p) Fld.PLC_PART_KIND
  let man := manOf s x
  let stage (f : ManStage → Nat) (d : Nat) : Nat := ((man.bind (·.stage)).map f).getD d
  match sel with
  | 0 => x
  | 1 => r.task.tid
  | 2 => r.task.home
  | 3 => (coresOf s p).length
  | 4 => ownRank s x
  | 5 => if serving then 0 else stage (·.pos) 0
  | 6 => if serving then 0 else (match r.task.bound with
    | .cell c => (getCell s c).vstage
    | _ => 0)
  | 7 => if serving then 0 else fld s (Reg.GRD_ROLE p) Fld.GRD_ROLE_RANK
  | 8 => if serving then 0 else stage (·.positions) 1
  | 9 => if serving then 0 else stage (·.vstages.length) 1
  | _ => if serving then 0
    else if (man.bind (·.reduce)).isSome then fld s (Reg.GRD_ROLE p) Fld.GRD_ROLE_SIZE else 1

def isEnd : CInstr → Bool
  | .kEnd => true
  | _ => false

def execKEnd (x l : Nat) (s : State) : Host.Outcome State Fault Refusal :=
  .next (seqExec s x l isEnd fun r f => setRun s x l (some { (r.consume f.op.wait) with ended := true, seq := none }))

/-- The capacity refusal of K.SPAWN (R117, R521): the first byte after the home core's deque region. -/
def refDeque (s : State) (x home : Nat) : Refuse :=
  let n := match manOf s x with
    | some m => m.dequeEntries
    | none => 0
  refBound0 ((getCtx s x).deques.getD home 0 + n * 128)

/-- The task that K.SPAWN pushes (R202, R336). -/
def spawnedTask (s : State) (x : Nat) (r : Running) (g : TaskRegs) (ge ga gi : GReg) (bind : Bool) : Task :=
  let tid := (g.getG gi).toNat % 2 ^ 32
  let h := homeOf s x tid
  { entry := g.getG ge, args := (List.range 8).map (fun i => g.getN (ga.val + i)), tid := tid, home := h.1, group := h.2
    kind := .plain, bound := if bind then r.task.bound else .none }

/-- One more task is open in the cell that a task is bound to (R202). -/
def openBound (s : State) (b : Bound) : State :=
  match b with
  | .cell c => setCell s c { getCell s c with tasks := (getCell s c).tasks + 1 }
  | _ => s

def execKSpawn (x l : Nat) (s : State) : Host.Outcome State Fault Refusal :=
  .next (seqExec s x l (fun i => match i with
    | .kSpawn .. => true
    | _ => false) fun r f =>
    match f.op.instr with
    | .kSpawn ge ga gi bind =>
      let t := spawnedTask s x r f.regs ge ga gi bind
      if dequeRoom s x t.home then pushTask (openBound (stepSeq s x l r f id) t.bound) x t.home true t
      else refuseInstr (setRun s x l (some { r with seq := none })) x l f.pc f.word 5 (refDeque s x t.home)
    | _ => s)

def execKBr (x l : Nat) (s : State) : Host.Outcome State Fault Refusal :=
  .next (seqExec s x l (fun i => match i with
    | .kBr _ => true
    | _ => false) fun r f =>
    match f.op.instr with
    | .kBr ofs => finishSeq s x l r f id ((f.pc : Int) + 8 * ofs).toNat
    | _ => s)

def execKAlu (x l : Nat) (s : State) : Host.Outcome State Fault Refusal :=
  .next (seqExec s x l (fun i => match i with
    | .kAlu .. => true
    | _ => false) fun r f =>
    match f.op.instr with
    | .kAlu fn gd ga gb => stepSeq s x l r f (fun g => g.setG gd (aluFn fn (f.regs.getG ga) (f.regs.getG gb)))
    | _ => s)

def execKAlui (x l : Nat) (s : State) : Host.Outcome State Fault Refusal :=
  .next (seqExec s x l (fun i => match i with
    | .kAlui .. => true
    | _ => false) fun r f =>
    match f.op.instr with
    | .kAlui fn gd ga imm => stepSeq s x l r f (fun g => g.setG gd (aluFn fn (f.regs.getG ga) imm))
    | _ => s)

/-- K.MOVI: the whole register, or its high half with the low half as it stands (R329). -/
def moviWord (hi : Bool) (imm : BitVec 32) (old : Word) : Word :=
  if hi then BitVec.ofNat 64 (imm.toNat * 2 ^ 32 + old.toNat % 2 ^ 32) else BitVec.ofNat 64 imm.toNat

def execKMovi (x l : Nat) (s : State) : Host.Outcome State Fault Refusal :=
  .next (seqExec s x l (fun i => match i with
    | .kMovi .. => true
    | _ => false) fun r f =>
    match f.op.instr with
    | .kMovi gd hi imm => stepSeq s x l r f (fun g => g.setG gd (moviWord hi imm (g.getG gd)))
    | _ => s)

def execKCmp (x l : Nat) (s : State) : Host.Outcome State Fault Refusal :=
  .next (seqExec s x l (fun i => match i with
    | .kCmp .. => true
    | _ => false) fun r f =>
    match f.op.instr with
    | .kCmp pd cc ga gb => stepSeq s x l r f (fun g => g.setP pd (cmpCc cc (f.regs.getG ga) (f.regs.getG gb)))
    | _ => s)

/-- The device address of a K.LD or K.ST. -/
def scalarAddr (s : State) (x l : Nat) (f : Flight) (t : TReg) (gb : GReg) : Nat :=
  (handleOf s x l (f.regs.getT t).handle).base + scalarOffset f.regs t gb

def execKLd (x l : Nat) (ecc : List EccEvent) (s : State) : Host.Outcome State Fault Refusal :=
  .next (seqExec s x l (fun i => match i with
    | .kLd .. => true
    | _ => false) fun r f =>
    match f.op.instr with
    | .kLd gd ts gb =>
      let a := scalarAddr s x l f ts gb
      let s := combTouch (eccApply s (f.regs.getT ts).handle a 8 ecc) false false a 8
      if poisoned s a 8 then faultInstr (setRun s x l (some { r with seq := none })) x l f.pc
      else stepSeq s x l r f (fun g => g.setG gd (wordAt s a))
    | _ => s)

def execKSt (x l : Nat) (s : State) : Host.Outcome State Fault Refusal :=
  .next (seqExec s x l (fun i => match i with
    | .kSt .. => true
    | _ => false) fun r f =>
    match f.op.instr with
    | .kSt ga td gb =>
      let a := scalarAddr s x l f td gb
      stepSeq (storeBytes s a (leBytes 8 (f.regs.getG ga).toNat)) x l r f id
    | _ => s)

def execKId (x l : Nat) (s : State) : Host.Outcome State Fault Refusal :=
  .next (seqExec s x l (fun i => match i with
    | .kId .. => true
    | _ => false) fun r f =>
    match f.op.instr with
    | .kId gd sel => stepSeq s x l r f (fun g => g.setG gd (BitVec.ofNat 64 (identity s x r sel)))
    | _ => s)

def execKTd (x l : Nat) (s : State) : Host.Outcome State Fault Refusal :=
  .next (seqExec s x l (fun i => match i with
    | .kTd .. => true
    | _ => false) fun r f =>
    match f.op.instr with
    | .kTd td fld add ga =>
      let d := f.regs.getT td
      stepSeq s x l r f (fun g => g.setT td (d.setFld fld ((fieldValue d fld add (f.regs.getG ga)).getD 0)))
    | _ => s)

def execKTcpy (x l : Nat) (s : State) : Host.Outcome State Fault Refusal :=
  .next (seqExec s x l (fun i => match i with
    | .kTcpy .. => true
    | _ => false) fun r f =>
    match f.op.instr with
    | .kTcpy td ts => stepSeq s x l r f (fun g => g.setT td (f.regs.getT ts))
    | _ => s)

def execKTrd (x l : Nat) (s : State) : Host.Outcome State Fault Refusal :=
  .next (seqExec s x l (fun i => match i with
    | .kTrd .. => true
    | _ => false) fun r f =>
    match f.op.instr with
    | .kTrd gd ts fld => stepSeq s x l r f (fun g => g.setG gd (BitVec.ofNat 64 ((f.regs.getT ts).getFld fld)))
    | _ => s)

/-- A program event goes to the host event queue (R337). -/
def programEvent (s : State) (x l : Nat) (f : Flight) (ga : GReg) : State :=
  pushEvent s (.program x (physCore s (getCtx s x).part l) f.pc (f.regs.getG ga))

def execKCtxEvent (x l : Nat) (s : State) : Host.Outcome State Fault Refusal :=
  .next (seqExec s x l (fun i => match i with
    | .kCtxEvent _ => true
    | _ => false) fun r f =>
    match f.op.instr with
    | .kCtxEvent ga => programEvent (stepSeq s x l r f id) x l f ga
    | _ => s)

def execKCtxStop (x l : Nat) (s : State) : Host.Outcome State Fault Refusal :=
  .next (seqExec s x l (fun i => match i with
    | .kCtxStop _ => true
    | _ => false) fun r f =>
    match f.op.instr with
    | .kCtxStop ga =>
      let s := setRun s x l (some { (r.consume f.op.wait) with seq := none, pc := f.pc + 8 })
      stopCtx (programEvent s x l f ga) x
    | _ => s)

def execKNop (x l : Nat) (s : State) : Host.Outcome State Fault Refusal :=
  .next (seqExec s x l (fun i => match i with
    | .kNop => true
    | _ => false) fun r f => stepSeq s x l r f id)

def execBRd (x l : Nat) (s : State) : Host.Outcome State Fault Refusal :=
  .next (seqExec s x l (fun i => match i with
    | .bRd _ => true
    | _ => false) fun r f =>
    match f.op.instr with
    | .bRd gd => stepSeq s x l r f (fun g => g.setG gd (rd s Reg.HUM_BEAT))
    | _ => s)

/-- A held B.AT completes once its beat has come (R351, R352). -/
def settleBat (s : State) (x l : Nat) : State :=
  seqExec s x l (fun i => match i with
    | .bAt _ _ => true
    | _ => false) fun r f =>
    match f.op.instr with
    | .bAt ga imm => if ((f.regs.getG ga).toNat + imm) % 2 ^ 64 ≤ beat s then stepSeq s x l r f id else s
    | _ => s

def execBAt (x l : Nat) (s : State) : Host.Outcome State Fault Refusal := .next (settleBat s x l)

/-! ### Slices (R27, R28, R267, R352) -/

/-- The cores of a context. -/
def ctxCores (s : State) (x : Nat) : List Nat := List.range (coresOf s (getCtx s x).part).length

/-- The slice length of a context in beats (R27). -/
def sliceBeats (s : State) (x : Nat) : Nat := max 1 (fld s (Reg.PLC_SLICE x) Fld.PLC_SLICE_BEATS)

/-- The next RUNNABLE context of a partition after the last one served, in ascending order and round; a context whose slice
length is 0 is skipped (R27, R134). -/
def nextCtx (s : State) (p : Nat) : Option Nat :=
  let xs := (ctxsOf s p).filter (fun x => (getCtx s x).st = .runnable && fld s (Reg.PLC_SLICE x) Fld.PLC_SLICE_BEATS != 0)
  match xs.find? (fun x => decide ((getSlice s p).last < x)) with
  | some x => some x
  | none => xs.head?

/-- The waits of a context judged as it runs again (R267). -/
def judgeWaits (s : State) (x : Nat) : State :=
  (allFlying s).foldl (fun s e =>
    if e.1 = x then (match e.2.2.waits with
      | .flag f => judgeFlag s f
      | .barrier b _ _ => judgeBar s b
      | _ => s)
    else s) s

/-- A context takes its partition's slice: its weight sets are loaded again where another context ran since (R102), its idle
cores take tasks, and its waits are judged. -/
def startSlice (s : State) (p x : Nat) : State :=
  let changed := decide ((getSlice s p).last ≠ x)
  let s := setSlice (setCtxState s x .running) p ⟨some x, sliceBeats s x, x⟩
  let s := if changed then (ctxCores s x).foldl (fun s l => reloadCore s x l) s else s
  let s := judgeWaits (dispatchAll s x) x
  (ctxCores s x).foldl (fun s l => settleBat s x l) s

def execSliceEnd (p : Nat) (s : State) : Host.Outcome State Fault Refusal :=
  let v := getSlice s p
  match v.ctx with
  | some x => if v.left = 0 then .next (setSlice (setCtxState s x .runnable) p ⟨none, 0, x⟩) else .next s
  | none => .next s

def execSliceStart (p : Nat) (s : State) : Host.Outcome State Fault Refusal :=
  match (getSlice s p).ctx, nextCtx s p with
  | none, some x => .next (if s.pins.tripped then s else startSlice s p x)
  | _, _ => .next s

/-- A context with no task in any deque and nothing issued or in flight is idle (R27). -/
def idleCtx (s : State) (x : Nat) : Bool :=
  (getCtx s x).cores.all (fun e => e.2.deque.isEmpty && e.2.held.isEmpty && e.2.run.isNone)

/-! ### Stealing (R119 to R121, R203) -/

/-- Whether a forager on core `l` may take a task. -/
def mayTake (l : Nat) (t : Task) : Bool :=
  (match t.kind with
    | .optHandler _ _ => false
    | _ => true)
    && (match t.group with
      | some (a, b) => decide (a ≤ l) && decide (l ≤ b)
      | none => true)

/-- The probe order of R119: logical cores of the own die after the own number, then, across dies, die by die. -/
def probeOrder (s : State) (x l : Nat) : List Nat :=
  let p := (getCtx s x).part
  let n := (coresOf s p).length
  let die (k : Nat) : Nat := dieOf (physCore s p k)
  let all := List.range n
  let own := all.filter (fun k => die k = die l)
  let same := own.filter (fun k => decide (l < k)) ++ own.filter (fun k => decide (k < l))
  let far := [1, 2, 3].flatMap (fun d => all.filter (fun k => die k = (die l + d) % 4))
  if flg s Reg.PLC_CTL Fld.PLC_CTL_CROSS_DIE then same ++ far else same

/-- The task nearest the far end that core `l` may take, and the deque without it. -/
def takeFar (l : Nat) (d : List Task) : Option (Task × List Task) :=
  match (d.zipIdx.filter (fun e => mayTake l e.1)).getLast? with
  | some (t, i) => some (t, d.eraseIdx i)
  | none => none

/-- FORAGER_STEAL (R119, R120): the stolen task starts at once. DEDUCED (log entry 69): once the slice's beats have run out, its end
comes before the start, and the task is placed at the near end of the thief's deque (R121). -/
def execForagerSteal (x thief : Nat) (s : State) : Host.Outcome State Fault Refusal :=
  let k := getCore s x thief
  let p := (getCtx s x).part
  if flg s Reg.PLC_CTL Fld.PLC_CTL_STEAL && runningCtx s x && k.run.isNone && k.deque.isEmpty
      && decide (thief < (coresOf s p).length) then
    match (probeOrder s x thief).findSome? (fun v => (takeFar thief (getCore s x v).deque).map (fun e => (v, e.1, e.2))) with
    | some (v, t, d) =>
      let s := setCore s x v { getCore s x v with deque := d }
      let near := dieOf (physCore s p v) = dieOf (physCore s p thief)
      let s := bump s (Reg.PLC_STEALS p) (if near then Fld.PLC_STEALS_SAME_DIE else Fld.PLC_STEALS_CROSS_DIE) 1
      if (getSlice s p).left = 0 then .next (setCore s x thief { getCore s x thief with deque := [t] })
      else .next (startTask s x thief t)
    | none => .next s
  else .next s

/-- A spawn held for want of room is pushed (R203). -/
def execHeldSpawnRelease (x l : Nat) (s : State) : Host.Outcome State Fault Refusal :=
  let k := getCore s x l
  match k.held with
  | (near, t) :: hs => if dequeRoom s x l then .next (pushTask (setCore s x l { k with held := hs }) x l near t) else .next s
  | [] => .next s

/-! ### What a beat does to waits (R265) -/

/-- One more beat for a wait. -/
def Flight.tick (f : Flight) : Flight := { f with ticks := f.ticks + 1 }

/-- Whether a started instruction is in a wait that expires (R265, R350). -/
def Flight.counts (f : Flight) : Bool :=
  match f.waits with
  | .flag _ => true
  | .barrier _ _ _ => true
  | .collective _ _ => isWred f.op.instr
  | _ => false

/-- The head of a queue, waiting for its token. -/
def tickHead (r : Running) : List Flight → List Flight
  | [] => []
  | f :: fs => if r.ready f.op.wait then f :: fs else f.tick :: fs

/-- The waits of a core counted. -/
def Running.tick (r : Running) : Running :=
  { r with
    seq := r.seq.map (fun f => if r.ready f.op.wait then f else f.tick)
    array := tickHead r r.array, vector := tickHead r r.vector, mover0 := tickHead r r.mover0
    mover1 := tickHead r r.mover1, transposer := tickHead r r.transposer, comm := tickHead r r.comm
    flying := r.flying.map (fun f => if f.counts then f.tick else f) }

/-- The waits of a context that runs, counted by one beat (R265, R267). -/
def tickCtx (s : State) (x : Nat) : State :=
  if runningCtx s x then
    let c := getCtx s x
    setCtx s x { c with cores := c.cores.map (fun e => (e.1, { e.2 with run := e.2.run.map Running.tick })) }
  else s

/-- A beat for the slices: idle contexts yield, and the slice shortens (R27). -/
def tickSlice (s : State) (p : Nat) : State :=
  let v := getSlice s p
  match v.ctx with
  | some x =>
    if idleCtx s x then setSlice (setCtxState s x .runnable) p ⟨none, 0, x⟩
    else setSlice s p { v with left := v.left - 1 }
  | none => s

/-- A beat for every context. -/
def tickTasks (s : State) : State :=
  let s := (residents s).foldl tickCtx s
  let s := (List.range 8).foldl tickSlice s
  (residents s).foldl (fun s x => (ctxCores s x).foldl (fun s l => settleBat s x l) s) s

end Sys2Proof.Machine
end

