-- ==== Sys2Proof/Machine/Stage.lean ====
section
/-! DEFINITION. Pipeline stages of a training partition: queues, brood cells, admissions, phases, the step boundary and the
loss scale (R197 to R223). -/

namespace Sys2Proof

/-- Logical stage of virtual stage `j`, and their number (R197). -/
def ManStage.logical (g : ManStage) (j : Nat) : Nat := g.pos + j * g.positions
def ManStage.last (g : ManStage) : Nat := g.positions * g.vstages.length
def ManStage.isLast (g : ManStage) (j : Nat) : Bool := g.logical j + 1 == g.last

/-- The queue that a manifest gives. -/
def ManVStage.inQ (v : ManVStage) (forward : Bool) : ManQueue := if forward then v.inFwd else v.inBwd
def ManVStage.outQ (v : ManVStage) (forward : Bool) : ManQueue := if forward then v.outFwd else v.outBwd

/-- Virtual stages of the geometry. -/
def ManStage.js (g : ManStage) : List Nat := List.range g.vstages.length

end Sys2Proof

namespace Sys2Proof.Machine

/-! ### The geometry of a partition (R197, R209) -/

/-- The context of a training partition that declares a stage, and its geometry (R17, R197). -/
def stageOf (s : State) (p : Nat) : Option (Nat × ManStage) :=
  if training s p then (ctxsOf s p).findSome? (fun x => ((manOf s x).bind (·.stage)).map (fun g => (x, g))) else none

/-- The depth D_j (R209). -/
def depth (s : State) (p : Nat) (g : ManStage) (j : Nat) : Nat :=
  let r := Reg.BRD_PART p
  let m := g.mbPerStep
  if fld s r Fld.BRD_PART_SCHEDULE = 0 then m
  else
    let d := min m (ceilDiv (g.last - g.logical j) g.vstages.length)
    let cap := fld s r Fld.BRD_PART_DEPTH_CAP
    if cap = 0 then d else min d cap

def fillDrain (s : State) (p : Nat) : Bool := fld s (Reg.BRD_PART p) Fld.BRD_PART_SCHEDULE == 0
def bFirst (s : State) (p : Nat) : Bool := fld s (Reg.BRD_PART p) Fld.BRD_PART_ORDER == 0
def detOn (s : State) : Bool := flg s Reg.PLC_CTL Fld.PLC_CTL_DETERMINISM

/-- STEP and ATTEMPT of a partition. -/
def stepNo (s : State) (p : Nat) : Nat := fld s (Reg.BRD_STEP p) Fld.BRD_STEP_STEP
def attemptNo (s : State) (p : Nat) : Nat := fld s (Reg.BRD_STEP p) Fld.BRD_STEP_ATTEMPT

/-- ACCUM_STEPS (R215). -/
def accumSteps (s : State) (p : Nat) : Nat := max 1 (fld s (Reg.GRD_PART p) Fld.GRD_PART_ACCUM_STEPS)

/-! ### Cells (R201, R206, R207, R225) -/

/-- The words of a cell (R225). -/
def Cell.words (c : Cell) : List Word :=
  let st := match c.st with
    | .free => 0
    | .forward => 1
    | .stashed => 2
    | .backward => 3
    | .accumulate => 4
    | .serving => 5
  if c.st = .free then [0, 0, 0, 0]
  else
    let w0 := 1 + 2 * (c.part % 8) + 2 ^ 4 * (c.ctx % 64) + 2 ^ 10 * (c.vstage % 4) + 2 ^ 12 * st + 2 ^ 16 * (c.slot % 65536)
      + 2 ^ 32 * (c.index % 65536)
    let w1 := c.step % 2 ^ 48 + 2 ^ 48 * (c.attempt % 256)
    let w2 := c.tasks % 65536 + 2 ^ 16 * (c.inSlot % 65536) + 2 ^ 32 * (c.outSlot % 65536)
    [w0, w1, w2, c.beat].map (BitVec.ofNat 64)

/-- The held cells of a partition, with their numbers. -/
def cellsOf (s : State) (p : Nat) : List (Nat × Cell) := s.cells.filter (fun e => e.2.st != .free && e.2.part == p)

/-- Its cells at one virtual stage. -/
def cellsAt (s : State) (p j : Nat) : List (Nat × Cell) := (cellsOf s p).filter (fun e => e.2.st != .serving && e.2.vstage == j)

/-- BRD_USEn.HELD and PEAK follow the cells held. -/
def noteHeld (s : State) (p : Nat) : State :=
  let n := (cellsOf s p).length
  let r := Reg.BRD_USE p
  let s := setFld s r Fld.BRD_USE_HELD n
  if fld s r Fld.BRD_USE_PEAK < n then setFld s r Fld.BRD_USE_PEAK n else s

/-- The lowest free cell. -/
def freeCell (s : State) : Option Nat := (selectBelow 256 (fun c => (getCell s c).st = .free)).head?

/-- Whether a training admission at virtual stage `j` finds a cell (R206, R207). -/
def cellRoom (s : State) (p j : Nat) : Bool :=
  let q := fld s (Reg.BRD_PART p) Fld.BRD_PART_QUOTA
  let r := fld s (Reg.BRD_PART p) Fld.BRD_PART_RESERVE
  (freeCell s).isSome
    && (if j = 0 then decide ((cellsAt s p 0).length < q - r) else decide ((cellsOf s p).length < q))

/-! ### Queues (R198 to R200) -/

/-- A virtual stage's queues. -/
def getVs (s : State) (p j : Nat) : VSt := (getTrain s p).vs.getD j VSt.none
def setVs (s : State) (p j : Nat) (v : VSt) : State := setTrain s p { getTrain s p with vs := (getTrain s p).vs.set j v }

/-- The inbound slots that items and phases hold. -/
def inTaken (s : State) (p : Nat) (g : ManStage) (j : Nat) (forward : Bool) : List Nat :=
  let v := getVs s p j
  let held := (cellsAt s p j).filter (fun e =>
    if forward then e.2.st = .forward ∧ e.2.tasks ≠ 0 else e.2.st = .backward ∧ !g.isLast j)
  ((if forward then v.inF else v.inB).map (·.slot)) ++ held.map (fun e => e.2.inSlot)

/-- The lowest of `n` slots not listed. -/
def lowestFree (n : Nat) (taken : List Nat) : Option Nat := (selectBelow n (fun k => !taken.contains k)).head?

/-- A capped item in its slot (R198); one whose slot lies outside the partition's memory is refused (R136, R138, log entry 72). -/
def capItem (s : State) (p x : Nat) (g : ManStage) (forward : Bool) (i : StageItem) : State :=
  match g.vstages[i.vstage]? with
  | none => s
  | some mv =>
    let q := mv.inQ forward
    match lowestFree q.slots (inTaken s p g i.vstage forward) with
    | none => s
    | some k =>
      let a := (handleOf s x 0 q.handle).base + k * q.slotBytes
      let data := i.data.take q.slotBytes
      match firstOut s (some p) [(a, data.length)] with
      | some b => refuseAccess s x b
      | none =>
        let s := storeBytes s a data
        let v := getVs s p i.vstage
        let e : InItem := ⟨i.step, i.attempt, i.index, k⟩
        let s := setVs s p i.vstage (if forward then { v with inF := v.inF ++ [e] } else { v with inB := v.inB ++ [e] })
        emit s (.stageCapped p i.vstage forward i.step i.index)

/-! ### The step gate (R217) -/

/-- Whether the current step closes its accumulation window. -/
def closesWindow (s : State) (p : Nat) : Bool :=
  let t := getTrain s p
  decide (accumSteps s p ≤ t.winSteps + (if t.orWait then 1 else 0) + 1)

/-- The gate for a forward of step `k`. -/
def fwdGate (s : State) (p k : Nat) : Bool :=
  let n := stepNo s p
  (k == n && !(getTrain s p).fwdHold) || (k == n + 1 && !(getTrain s p).fwdHold && !closesWindow s p)

/-- The gate for a turn or an accumulation of step `k`. -/
def lateGate (s : State) (p k : Nat) : Bool := k == stepNo s p && !(getTrain s p).orWait

/-! ### What admissions need (R210 to R214) -/

/-- Contexts to which tasks are given. -/
def ctxAdmits (s : State) (x : Nat) : Bool := (getCtx s x).st = .runnable || (getCtx s x).st = .running

/-- Conditions 1, 2, 4 and 5 of R210 at virtual stage `j`. -/
def fwdOthers (s : State) (p x : Nat) (g : ManStage) (j : Nat) : Bool :=
  match (getVs s p j).inF, g.vstages[j]? with
  | i :: _, some mv =>
    ctxAdmits s x && decide ((cellsAt s p j).length < depth s p g j)
      && (g.isLast j || (lowestFree mv.outFwd.slots (getVs s p j).outF).isSome) && fwdGate s p i.step
  | _, _ => false

/-- Whether a forward admission at virtual stage `j` can take place (R210). -/
def fwdReady (s : State) (p x : Nat) (g : ManStage) (j : Nat) : Bool := fwdOthers s p x g j && cellRoom s p j

/-- A free outbound backward slot (R211). -/
def bwdSlot (s : State) (p : Nat) (g : ManStage) (j : Nat) : Bool :=
  g.logical j == 0 || (match g.vstages[j]? with
    | some mv => (lowestFree mv.outBwd.slots (getVs s p j).outB).isSome
    | none => false)

/-- The cell whose turn is next: its forward is complete, its gate open, and under FILL_DRAIN every micro-batch of its step
has completed its forward (R210, R211). -/
def turnNext (s : State) (p x : Nat) (g : ManStage) (j : Nat) : Option (Nat × Cell) :=
  if g.isLast j && ctxAdmits s x && bwdSlot s p g j && (!fillDrain s p || decide (g.mbPerStep ≤ (getVs s p j).fwdDone)) then
    (sortBy (fun e => e.2.index) ((cellsAt s p j).filter (fun e =>
      e.2.st = .forward && e.2.tasks == 0 && lateGate s p e.2.step))).head?
  else none

/-- The cell of an inbound backward item (R211). -/
def cellKey (s : State) (p x j : Nat) (i : InItem) : Option (Nat × Cell) :=
  (cellsAt s p j).find? (fun e => e.2.st == .stashed && e.2.ctx == x && e.2.step == i.step && e.2.index == i.index)

/-- Whether a backward admission at virtual stage `j` can take place: of an item, or a turn. -/
def bwdReady (s : State) (p x : Nat) (g : ManStage) (j : Nat) : Bool :=
  if g.isLast j then (turnNext s p x g j).isSome
  else match (getVs s p j).inB with
    | i :: _ => ctxAdmits s x && (if (cellKey s p x j i).isSome then bwdSlot s p g j else i.attempt == attemptNo s p)
    | [] => false

/-- The cell whose accumulate entry is next at virtual stage `j` (R214). -/
def accNext (s : State) (p x j : Nat) : Option (Nat × Cell) :=
  let can (e : Nat × Cell) : Bool := e.2.st == .accumulate && !e.2.admitted && lateGate s p e.2.step && ctxAdmits s x
  if detOn s then (cellsAt s p j).find? (fun e => can e && e.2.index == (getVs s p j).accDone)
  else (((getVs s p j).backOrder.map (fun c => (c, getCell s c))).filter can).head?

/-- Whether any admission of a kind can take place, at or above a virtual stage. -/
def anyAcc (s : State) (p x : Nat) (g : ManStage) : Bool := g.js.any (fun j => (accNext s p x j).isSome)
def anyBwd (s : State) (p x : Nat) (g : ManStage) (lo : Nat) : Bool := g.js.any (fun j => decide (lo ≤ j) && bwdReady s p x g j)
def anyFwd (s : State) (p x : Nat) (g : ManStage) (lo : Nat) : Bool := g.js.any (fun j => decide (lo ≤ j) && fwdReady s p x g j)

/-! ### Entry tasks (R202, R203, R212, R213) -/

/-- 2 ^ E as FP32 (R219). -/
def lossScale (s : State) (p : Nat) : Nat :=
  (asSigned 8 (fld s (Reg.BRD_LS p) Fld.BRD_LS_SCALE_EXP) + 127).toNat * 2 ^ 23

/-- The arguments of an entry task (R202). -/
def entryArgs (s : State) (p : Nat) (g : ManStage) (c : Nat) (v : Cell) (inOff outOff g7 : Nat) (accMode : Bool) : List Word :=
  let flags := bnat (g.isLast v.vstage) + 2 * bnat (g.logical v.vstage == 0)
    + 4 * bnat (flg s (Reg.BRD_PART p) Fld.BRD_PART_RECOMPUTE) + 8 * bnat accMode
  [c, v.step, v.index % 65536 + 65536 * v.vstage, v.slot, inOff, outOff, g7, flags].map (BitVec.ofNat 64)

/-- An entry task spawned at its home core (R202, R203, R212). -/
def spawnEntry (s : State) (x c : Nat) (v : Cell) (entry : Word) (cls : Option Nat) (near : Bool) (args : List Word) : State :=
  let h := homeDevice s x cls v.index
  spawnTask s x near { entry := entry, args := args, tid := 0, home := h.1, group := h.2, kind := .plain, bound := .cell c }

/-- Which end an entry task goes to (R212). -/
def nearEnd (s : State) (p : Nat) (forward : Bool) : Bool := !(bFirst s p && forward)

/-! ### Admissions -/

/-- An exhaustion episode begins when a forward admission waits for a cell alone (R221). -/
def checkExhausted (s : State) (p : Nat) : State :=
  match stageOf s p with
  | none => s
  | some (x, g) =>
    let t := getTrain s p
    if t.episode.isSome then s
    else match g.js.find? (fun j => fwdOthers s p x g j && !cellRoom s p j) with
      | none => s
      | some j =>
        let r := Reg.BRD_PART p
        let n := (cellsOf s p).length
        let per := (List.range 4).map (fun k => (cellsAt s p k).length % 512 * 2 ^ (9 * k))
        let s := bump (setTrain s p { t with episode := some (beat s) }) (Reg.BRD_USE p) Fld.BRD_USE_EPISODES 1
        raisePart s p 0x0D01 sevInfo p j
          (fld s r Fld.BRD_PART_QUOTA + 2 ^ 9 * fld s r Fld.BRD_PART_RESERVE + 2 ^ 18 * n) per.sum (beat s)

/-- The forward admission at virtual stage `j` (R200, R205, R210). -/
def admitForward (s : State) (p x : Nat) (g : ManStage) (j : Nat) : State :=
  match (getVs s p j).inF, g.vstages[j]?, freeCell s with
  | i :: rest, some mv, some c =>
    let v := getVs s p j
    let stash := (lowestFree 256 v.stash).getD 0
    let out := if g.isLast j then none else lowestFree mv.outFwd.slots v.outF
    let cell : Cell :=
      { st := .forward, part := p, ctx := x, vstage := j, slot := stash, index := i.index, step := i.step, attempt := attemptNo s p
        tasks := 1, inSlot := i.slot, outSlot := out.getD 0, beat := Machine.beat s, admitted := false, orphanLogged := false }
    let s := setVs s p j { v with inF := rest, stash := v.stash ++ [stash], outF := v.outF ++ out.toList }
    let t := getTrain s p
    let s := setTrain s p { t with episode := none }
    let s := noteHeld (setCell s c cell) p
    spawnEntry s x c cell mv.fwdEntry mv.fwdClass (nearEnd s p true)
      (entryArgs s p g c cell (i.slot * mv.inFwd.slotBytes) ((out.map (· * mv.outFwd.slotBytes)).getD 0) 0 false)
  | _, _, _ => s

/-- A cell enters BACKWARD and its backward entry is spawned (R201, R202, R211). -/
def startBackward (s : State) (p x : Nat) (g : ManStage) (c : Nat) (cell : Cell) (slot : Option Nat) : State :=
  let j := cell.vstage
  match g.vstages[j]? with
  | none => s
  | some mv =>
    let v := getVs s p j
    let out := if g.logical j = 0 then none else lowestFree mv.outBwd.slots v.outB
    let cell := { cell with st := .backward, tasks := 1, inSlot := slot.getD 0, outSlot := out.getD 0 }
    let s := setCell (setVs s p j { v with outB := v.outB ++ out.toList }) c cell
    spawnEntry s x c cell mv.bwdEntry mv.bwdClass true
      (entryArgs s p g c cell ((slot.map (· * mv.inBwd.slotBytes)).getD 0) ((out.map (· * mv.outBwd.slotBytes)).getD 0)
        (if g.isLast j then lossScale s p else 0) false)

/-- The turn at the last logical stage, if one can be made (R204, R211). -/
def tryTurn (s : State) (p x : Nat) (g : ManStage) (j : Nat) : State :=
  match turnNext s p x g j with
  | some (c, cell) => startBackward s p x g c cell none
  | none => s

/-- Detail 2 of BRD_ORPHAN (R221). -/
def orphanWhich (index vstage attempt : Nat) : Nat := index % 65536 + 2 ^ 16 * (vstage % 4) + 2 ^ 18 * (attempt % 256)

/-- A BRD_ORPHAN record (R222). -/
def orphan (s : State) (p obj cause step which released : Nat) : State :=
  raisePart (bump s (Reg.BRD_ORPHAN p) Fld.BRD_ORPHAN_COUNT 1) p 0x0D02 sevError obj cause step which released

/-- The backward admission at virtual stage `j` (R211, R222). -/
def admitBackward (s : State) (p x : Nat) (g : ManStage) (j : Nat) : State :=
  if g.isLast j then tryTurn s p x g j
  else match (getVs s p j).inB with
    | [] => s
    | i :: rest =>
      let v := getVs s p j
      let s1 := setVs s p j { v with inB := rest }
      match cellKey s p x j i with
      | some (c, cell) => startBackward s1 p x g c cell (some i.slot)
      | none =>
        emit (orphan s1 p 0xFFFF 1 i.step (orphanWhich i.index j i.attempt) 0) (.stageCredit p j false)

/-- The accumulate admission at virtual stage `j` (R214, R215). -/
def admitAccumulate (s : State) (p x : Nat) (g : ManStage) (j : Nat) : State :=
  match accNext s p x j, g.vstages[j]? with
  | some (c, cell), some mv =>
    let cell := { cell with tasks := 1, admitted := true, inSlot := 0, outSlot := 0 }
    let mode := cell.index == 0 && (getTrain s p).winSteps == 0
    spawnEntry (setCell s c cell) x c cell mv.accEntry mv.accClass true (entryArgs s p g c cell 0 0 0 mode)
  | _, _ => s

/-! ### Phases (R199, R204, R216) -/

/-- Slots of the queue that takes a virtual stage's outbound items. DESIGN CHOICE (log entry 64): the sender reads them in its own
manifest, as many as its own inbound queue of that direction has. -/
def sendSlots (g : ManStage) (j : Nat) (forward : Bool) : Nat := match g.vstages[j]? with
  | some mv => (mv.inQ forward).slots
  | none => 0

/-- The items of one direction that have yet to be sent, of the receivers or of their backups, as far as credits go (R198, R252). -/
def VSt.sendable (v : VSt) (n : Nat) (forward copy : Bool) : List OutItem :=
  let owed := if forward then (if copy then v.copyF else v.owedF) else (if copy then v.copyB else v.owedB)
  ((if forward then v.sendF else v.sendB).filter (fun o => if copy then o.copy else o.main)).take (n - owed)

/-- Items leave against credits, and so do the copies for backups, each against its receiver's (R12, R198, R252); a backup's own
items are held at its ports. -/
def pumpItems (s : State) (p : Nat) (g : ManStage) (j : Nat) (forward : Bool) : State :=
  if flg s (Reg.GRD_ROLE p) Fld.GRD_ROLE_BACKUP_ROLE then s
  else
    let v := getVs s p j
    let ms := v.sendable (sendSlots g j forward) forward false
    let cs := v.sendable (sendSlots g j forward) forward true
    let left (os : List OutItem) : List OutItem :=
      (os.map (fun (o : OutItem) => { o with main := o.main && !ms.contains o, copy := o.copy && !cs.contains o })).filter
        (fun o => o.main || o.copy)
    let s := setVs s p j (if forward then
        { v with sendF := left v.sendF, owedF := v.owedF + ms.length, copyF := v.copyF + cs.length }
      else { v with sendB := left v.sendB, owedB := v.owedB + ms.length, copyB := v.copyB + cs.length })
    let s := ms.foldl (fun s o => emit s (.stageItem p o.pos forward false o.item)) s
    cs.foldl (fun s o => emit s (.stageItem p o.pos forward true o.item)) s

/-- Everything that a stage may send is sent. -/
def pumpStageItems (s : State) (p : Nat) : State :=
  match stageOf s p with
  | some (_, g) => g.js.foldl (fun s j => pumpItems (pumpItems s p g j true) p g j false) s
  | none => s

/-- The item of a phase's outbound slot waits for its credit, and the copy for the receiver's backup for its own (R198, R200, R204,
R252). An item built from poisoned data is rewound and never capped, and the context is FAULTED (R155). -/
def sendItem (s : State) (p x : Nat) (g : ManStage) (cell : Cell) (forward : Bool) : State :=
  let j := cell.vstage
  match g.vstages[j]? with
  | none => s
  | some mv =>
    let q := mv.outQ forward
    let to_ := if forward then g.logical j + 1 else g.logical j - 1
    let at_ := (handleOf s x 0 q.handle).base + cell.outSlot * q.slotBytes
    let item : StageItem := ⟨cell.step, cell.attempt, cell.index, to_ / g.positions, readBytes s at_ q.slotBytes⟩
    let backed := flg s (Reg.GRD_PART p) Fld.GRD_PART_POLICY && g.backups.any (fun e => e.1 == to_ % g.positions)
    if poisoned s at_ q.slotBytes then faultCtx s x
    else
      let s := combTouch s false false at_ q.slotBytes
      let v := getVs s p j
      let o : OutItem := ⟨cell.outSlot, to_ % g.positions, item, true, backed⟩
      pumpItems (setVs s p j (if forward then { v with sendF := v.sendF ++ [o] } else { v with sendB := v.sendB ++ [o] })) p g j forward

/-- The step ends at the device (R216, R217). -/
def stepEnd (s : State) (p : Nat) (g : ManStage) : State :=
  let t := getTrain s p
  let k := stepNo s p
  let closes := closesWindow s p
  let s := startOr s p .stepOr [bnat t.nf] (.stepOr p k t.nf)
  let s := setFld s (Reg.BRD_STEP p) Fld.BRD_STEP_STEP (k + 1)
  let s := bumpMod s (Reg.BRD_CURSOR p) Fld.BRD_CURSOR_CURSOR g.mbPerStep
  joinAll (setTrain s p { t with
    nf := false, orWait := true, fwdHold := closes, wagSince := some (beat s)
    vs := t.vs.map (fun (v : VSt) => { v with fwdDone := v.fwdNext, fwdNext := 0, accDone := 0, backOrder := [] }) })

/-- A cell is released (R201, R205). -/
def releaseCell (s : State) (p c : Nat) : State :=
  let cell := getCell s c
  let v := getVs s p cell.vstage
  let s := setVs (setCell s c Cell.free) p cell.vstage
    { v with stash := v.stash.filter (· != cell.slot), backOrder := v.backOrder.filter (· != c) }
  noteHeld s p

/-- The phase of a cell is complete (R199, R201, R204, R216). -/
def phaseComplete (s : State) (c : Nat) : State :=
  let cell := getCell s c
  let p := cell.part
  match stageOf s p with
  | none => s
  | some (x, g) =>
    let j := cell.vstage
    match cell.st with
    | .forward =>
      let v := getVs s p j
      let s := setVs s p j (if cell.step = stepNo s p then { v with fwdDone := v.fwdDone + 1 } else { v with fwdNext := v.fwdNext + 1 })
      let s := emit s (.stageCredit p j true)
      if g.isLast j then tryTurn (setCell s c { cell with inSlot := 0 }) p x g j
      else
        let s := sendItem s p x g cell true
        setCell s c { cell with st := .stashed, inSlot := 0, outSlot := 0 }
    | .backward =>
      let v := getVs s p j
      let s := setVs s p j { v with backOrder := v.backOrder ++ [c] }
      let s := if g.isLast j then s else emit s (.stageCredit p j false)
      let s := if g.logical j = 0 then s else sendItem s p x g cell false
      setCell s c { cell with st := .accumulate, inSlot := 0, outSlot := 0 }
    | .accumulate =>
      let s := releaseCell s p c
      let v := getVs s p j
      let s := setVs s p j { v with accDone := v.accDone + 1 }
      if g.js.all (fun k => decide (g.mbPerStep ≤ (getVs s p k).accDone)) then stepEnd s p g else s
    | _ => s

/-- A task bound to a cell has ended (R202). -/
def cellTaskEnded (s : State) (c : Nat) : State :=
  let cell := getCell s c
  if cell.st = .free ∨ cell.st = .serving then s
  else
    let s := setCell s c { cell with tasks := cell.tasks - 1 }
    if cell.tasks ≤ 1 then checkExhausted (phaseComplete s c) cell.part else s

/-! ### The loss scale (R219, R220) -/

/-- What each step's OR result does to the scale (R219). -/
def scaleUpdate (s : State) (p : Nat) (orResult : Bool) : State :=
  let r := Reg.BRD_LS p
  let q := Reg.BRD_LSSTAT p
  let e := asSigned 8 (fld s r Fld.BRD_LS_SCALE_EXP)
  let en := flg s r Fld.BRD_LS_LS_EN
  let setE (s : State) (v : Int) : State := setFld s r Fld.BRD_LS_SCALE_EXP (toTwos 8 v)
  if orResult then
    let s := if en ∧ -126 < e then setE s (e - 1) else s
    bump (setFld s q Fld.BRD_LSSTAT_CLEAN 0) q Fld.BRD_LSSTAT_SKIPS 1
  else
    let s := setFld s q Fld.BRD_LSSTAT_CLEAN (fld s q Fld.BRD_LSSTAT_CLEAN + 1)
    if en ∧ fld s q Fld.BRD_LSSTAT_CLEAN = max 1 (fld s r Fld.BRD_LS_GROWTH_STEPS) then
      setFld (if e < 127 then setE s (e + 1) else s) q Fld.BRD_LSSTAT_CLEAN 0
    else s

/-- A window ends without a repeat: a skip, or a commit (R215, R251). -/
def windowOver (s : State) (p : Nat) : State :=
  setFld (setTrain s p { getTrain s p with winSteps := 0 }) (Reg.BRD_STEP p) Fld.BRD_STEP_ATTEMPT 0

/-- The gate opens (R217); `hold` keeps the forwards waiting for the gather. -/
def openGate (s : State) (p : Nat) (hold : Bool) : State :=
  checkExhausted (setTrain s p { getTrain s p with orWait := false, fwdHold := hold, wagSince := none }) p

/-- A skip (R219). -/
def skipWindow (s : State) (p : Nat) : State := openGate (windowOver (scaleUpdate s p true) p) p false

/-! ### Repeats (R223) -/

/-- Tasks bound to cells leave the deques, the held spawns and the cores of a context. -/
def dropBound (s : State) (x : Nat) : State :=
  let cellTask (t : Task) : Bool := match t.bound with
    | .cell _ => true
    | _ => false
  let c := getCtx s x
  setCtx s x { c with cores := c.cores.map fun (l, k) =>
    (l, { k with
      deque := k.deque.filter (fun t => !cellTask t), held := k.held.filter (fun e => !cellTask e.2)
      run := k.run.bind (fun r => if cellTask r.task then none else some r) }) }

/-- Cells and queues of a partition are discarded, with the tasks bound to them (R223). -/
def discardStage (s : State) (p : Nat) : State :=
  let gone := (cellsOf s p).filter (fun e => e.2.st != .serving)
  let s := gone.foldl (fun s e => setCell s e.1 Cell.free) s
  let s := (ctxsOf s p).foldl dropBound s
  noteHeld (setTrain s p { getTrain s p with vs := [VSt.none, VSt.none, VSt.none, VSt.none], inputs := [], items := [], episode := none }) p

/-- The STEP_SCOPED flags and barriers of a partition return to their load state (R260). -/
def resetScoped (s : State) (p : Nat) : State :=
  (ctxsOf s p).foldl (fun s x => match manOf s x with
    | some m => loadFlags s (m.flags.filter (·.stepScoped))
    | none => s) s

/-- The stage starts again at the first step of its window (R223, R260). -/
def rewindStep (s : State) (p : Nat) (attempt : Nat) : State :=
  let t := getTrain s p
  let m := match stageOf s p with
    | some (_, g) => g.mbPerStep
    | none => 0
  let s := resetScoped (discardStage s p) p
  let s := setFld s (Reg.BRD_STEP p) Fld.BRD_STEP_STEP (stepNo s p - t.winSteps)
  let s := setFld s (Reg.BRD_STEP p) Fld.BRD_STEP_ATTEMPT attempt
  let cur := (rd s (Reg.BRD_CURSOR p)).toNat - m * t.winSteps
  let s := setFld s (Reg.BRD_CURSOR p) Fld.BRD_CURSOR_CURSOR cur
  setTrain s p { getTrain s p with winSteps := 0, cursor := cur, nf := false, orWait := false, fwdHold := false }

/-! ### The rows -/

/-- A stage item from another device is capped (R198); one of an older attempt is discarded and counted, its credit returned (R223).
DESIGN CHOICE (log entry 64): a forward item of an older step, which no gate would ever admit, is discarded uncounted. -/
def stageItemCapped (s : State) (p x : Nat) (g : ManStage) (forward : Bool) (item : StageItem) : State :=
  if item.vstage < g.vstages.length ∧ ¬(forward ∧ g.logical item.vstage = 0) ∧ ¬(!forward ∧ g.isLast item.vstage) then
    if item.attempt < attemptNo s p then
      emit (bump s (Reg.BRD_USE p) Fld.BRD_USE_STALE 1) (.stageCredit p item.vstage forward)
    else if forward ∧ item.step < stepNo s p then emit s (.stageCredit p item.vstage forward)
    else checkExhausted (capItem s p x g forward item) p
  else s

def execInboundItemCapped (p : Nat) (forward : Bool) (item : StageItem) (s : State) : Host.Outcome State Fault Refusal :=
  match stageOf s p with
  | none => .next s
  | some (x, g) => .next (stageItemCapped s p x g forward item)

/-- Credits that a receiver returns, or a backup for its copies (R199, R252). -/
def VSt.returned (v : VSt) (forward copy : Bool) (n : Nat) : VSt :=
  match forward, copy with
  | true, false => { v with owedF := v.owedF - n }
  | true, true => { v with copyF := v.copyF - n }
  | false, false => { v with owedB := v.owedB - n }
  | false, true => { v with copyB := v.copyB - n }

/-- A receiver reports an item capped, and returns credits: the item's outbound slot is free, and items that wait may leave (R198,
R199); a backup's report frees no slot. -/
def execOutboundCappedReport (p j : Nat) (flow : ItemFlow) (report : CapReport) (s : State) : Host.Outcome State Fault Refusal :=
  let ⟨forward, copy⟩ := flow
  let ⟨slot, credits⟩ := report
  let v := (getVs s p j).returned forward copy credits
  let inUse := (cellsAt s p j).any (fun e =>
    e.2.outSlot == slot && (if forward then e.2.st == .forward else e.2.st == .backward))
  let waits := (if forward then v.sendF else v.sendB).any (fun o => o.slot == slot && o.main)
  let v := if copy || inUse || waits then v
    else if forward then { v with outF := v.outF.filter (· != slot) } else { v with outB := v.outB.filter (· != slot) }
  .next (checkExhausted (pumpStageItems (setVs s p j v) p) p)

def execForwardAdmission (p j : Nat) (s : State) : Host.Outcome State Fault Refusal :=
  match stageOf s p with
  | none => .next s
  | some (x, g) =>
    if fwdReady s p x g j && !anyAcc s p x g && !(bFirst s p && anyBwd s p x g 0) && !anyFwd s p x g (j + 1) then
      .next (checkExhausted (admitForward s p x g j) p)
    else .next (checkExhausted s p)

def execBackwardAdmission (p j : Nat) (s : State) : Host.Outcome State Fault Refusal :=
  match stageOf s p with
  | none => .next s
  | some (x, g) =>
    if bwdReady s p x g j && !anyAcc s p x g && (bFirst s p || !anyFwd s p x g 0) && !anyBwd s p x g (j + 1) then
      .next (admitBackward s p x g j)
    else .next s

def execAccumulateAdmission (p j : Nat) (s : State) : Host.Outcome State Fault Refusal :=
  match stageOf s p with
  | none => .next s
  | some (x, g) =>
    match accNext s p x j with
    | none => .next s
    | some (_, cell) =>
      let lower := g.js.any (fun k => match accNext s p x k with
        | some (_, d) => decide (d.index < cell.index)
        | none => false)
      if lower then .next s else .next (admitAccumulate s p x g j)

/-- A cell held beyond the limit is reported once (R222). -/
def execCellHoldLimit (cell : Nat) (s : State) : Host.Outcome State Fault Refusal :=
  let c := getCell s cell
  let lim := fld s (Reg.BRD_ORPHAN c.part) Fld.BRD_ORPHAN_LIMIT
  if c.st ≠ .free ∧ c.st ≠ .serving ∧ lim ≠ 0 ∧ !c.orphanLogged ∧ c.beat + lim * 1000 ≤ Machine.beat s then
    .next (orphan (setCell s cell { c with orphanLogged := true }) c.part cell 2 c.step (orphanWhich c.index c.vstage c.attempt) 0)
  else .next s

end Sys2Proof.Machine
end

