-- ==== Sys2Proof/Machine/Checkpoint.lean ====
section
/-! DEFINITION. Checkpoints of a training partition: the slot's contents, the snapshot, the copy at the buddy and its
acknowledgement (R422 to R426). -/

namespace Sys2Proof.Machine

/-! ### CRC-32C (R233, R424) -/

/-- One bit of the reflected CRC-32C. -/
def crcBit (c : BitVec 32) : BitVec 32 := if c.getLsbD 0 then (c >>> 1) ^^^ 0x82F63B78 else c >>> 1

/-- One byte of the CRC-32C. -/
def crcByte (c : BitVec 32) (b : Byte) : BitVec 32 :=
  crcBit (crcBit (crcBit (crcBit (crcBit (crcBit (crcBit (crcBit (c ^^^ b.setWidth 32))))))))

/-- CRC-32C (Castagnoli): initial value and final XOR of all ones. -/
def crc32c (bs : List Byte) : Nat := (bs.foldl crcByte 0xFFFFFFFF ^^^ 0xFFFFFFFF).toNat

/-! ### The slot (R422, R424) -/

/-- A section of a slot: kind, handle, context, bytes, and the device address they are read at, if they lie in memory. -/
structure Section where
  kind : Nat
  handle : Nat
  ctx : Nat
  data : List Byte
  src : Option Nat
deriving DecidableEq, Repr

/-- The reduction registered by a context of a training partition, with the context (R17). -/
def reduceOf (s : State) (p : Nat) : Option (Nat × ManReduce) :=
  if training s p then (ctxsOf s p).findSome? (fun x => ((manOf s x).bind (·.reduce)).map (fun r => (x, r))) else none

/-- The committed bank of a partition (R246). -/
def bankOf (s : State) (p : Nat) : Nat := fld s (Reg.OPT_PART p) Fld.OPT_PART_BANK

/-- The bytes of a handle's region from `o` on. -/
def handleBytes (s : State) (x h o n : Nat) : List Byte := readBytes s ((handleOf s x 0 h).base + o) n

/-- The whole region of a handle as a section. -/
def wholeSection (s : State) (x kind h : Nat) : Section := 
  ⟨kind, h, x, handleBytes s x h 0 (handleOf s x 0 h).size, some (handleOf s x 0 h).base⟩

/-- The sections of one context: manifest, CODE handles, the committed banks of the state handles, the staging handle and
the handles marked for checkpointing (R424). -/
def ctxSections (s : State) (p x : Nat) : List Section :=
  match manOf s x with
  | none => []
  | some m =>
    let code := (m.handles.filter (·.code)).map (fun h => wholeSection s x 3 h.h)
    let state := match m.reduce with
      | none => []
      | some r =>
        r.stateHandles.map (fun h =>
          let n := (handleOf s x 0 h).size / 2
          (⟨4, h, x, handleBytes s x h (bankOf s p * n) n, some ((handleOf s x 0 h).base + bankOf s p * n)⟩ : Section)) ++ [wholeSection s x 5 r.staging]
    let marked := match m.ckpt with
      | none => []
      | some k => k.handles.map (wholeSection s x 6)
    ⟨2, 0, x, (getCtx s x).image, none⟩ :: code ++ state ++ marked

/-- The sections of a partition's slot (R424). -/
def sectionsOf (s : State) (p : Nat) : List Section := ⟨1, 0, 0, s.cfgSet, none⟩ :: (ctxsOf s p).flatMap (ctxSections s p)

/-- The bytes of six digest registers. -/
def digestBytes (s : State) (r : Nat → Nat) : List Byte := (List.range 6).flatMap (fun i => leBytes 8 (rd s (r i)).toNat)

/-- Where each section begins, after the header and the table. -/
def sectionOffsets : Nat → List Section → List Nat
  | _, [] => []
  | o, v :: vs => o :: sectionOffsets (o + ceilDiv v.data.length 4096 * 4096) vs

/-- A section table entry (R424). -/
def sectionEntry (v : Section) (o : Nat) : List Byte :=
  leBytes 2 v.kind ++ leBytes 2 v.handle ++ leBytes 4 v.ctx ++ leBytes 8 o ++ leBytes 8 v.data.length ++ leBytes 8 0

/-- The job rank this device carries in a partition. -/
def partRank (s : State) (p : Nat) : Nat := match ctxsOf s p with
  | x :: _ => ownRank s x
  | [] => 0

/-- The 4 KiB chunks of a section. -/
def chunksOf (bs : List Byte) : List (List Byte) := (List.range (ceilDiv bs.length 4096)).map (fun i => (bs.drop (i * 4096)).take 4096)

/-- Bytes before HCRC (R424). -/
def headerHead (s : State) (p gen step cursor n : Nat) : List Byte :=
  let ls := Reg.BRD_LSSTAT p
  leBytes 8 gen ++ leBytes 8 step ++ leBytes 8 cursor
    ++ leBytes 4 (fld s (Reg.BRD_LS p) Fld.BRD_LS_SCALE_EXP % 256 + 256 * fld s ls Fld.BRD_LSSTAT_CLEAN)
    ++ leBytes 4 (fld s ls Fld.BRD_LSSTAT_SKIPS) ++ leBytes 2 (partRank s p % 16384) ++ leBytes 2 (p % 8) ++ leBytes 4 n
    ++ digestBytes s Reg.FW_DIGEST ++ digestBytes s Reg.CFG_DIGEST ++ leBytes 8 (rd s Reg.PLC_SEED).toNat

/-- A slot: header, section table, sections padded to whole chunks, and the CRC-32C of every chunk. -/
def slotBytes (s : State) (p gen step cursor : Nat) : List Byte :=
  let vs := sectionsOf s p
  let table0 := 256 + 32 * vs.length
  let start := ceilDiv table0 4096 * 4096
  let offs := sectionOffsets start vs
  let table := ((vs.zip offs).map (fun e => sectionEntry e.1 e.2)).flatten
  let head := headerHead s p gen step cursor vs.length
  let hcrc := leBytes 4 (crc32c (head ++ table))
  let pad (bs : List Byte) (n : Nat) : List Byte := bs ++ List.replicate (n - bs.length) 0
  let body := (vs.map (fun v => pad v.data (ceilDiv v.data.length 4096 * 4096))).flatten
  let crcs := (chunksOf body).flatMap (fun c => leBytes 4 (crc32c c))
  pad (pad (head ++ hcrc) 256 ++ table) start ++ body ++ crcs

/-! ### A slot in memory (R424, R517) -/

/-- A section as a slot's table gives it: kind, handle, context, offset, bytes. -/
structure SlotEntry where
  kind : Nat
  handle : Nat
  ctx : Nat
  offset : Nat
  len : Nat
deriving DecidableEq, Repr

/-- A field of a slot's header. -/
def slotFld (s : State) (a o n : Nat) : Nat := ofLeBytes (readBytes s (a + o) n)

/-- The section table of a slot. -/
def slotTable (s : State) (a : Nat) : List SlotEntry :=
  (List.range (slotFld s a 36 4)).map (fun i =>
    let e := a + 256 + 32 * i
    ⟨slotFld s e 0 2, slotFld s e 2 2, slotFld s e 4 4 % 64, slotFld s e 8 8, slotFld s e 16 8⟩)

/-- Whether a slot's own checks hold: a generation, HCRC and the CRC of every chunk, within `size` bytes. -/
def slotIntact (s : State) (a size : Nat) : Bool :=
  let n := slotFld s a 36 4
  let start := ceilDiv (256 + 32 * n) 4096 * 4096
  decide (slotFld s a 0 8 ≠ 0) && decide (start ≤ size)
    && slotFld s a 144 4 == crc32c (readBytes s a 144 ++ readBytes s (a + 256) (32 * n))
    && (let es := slotTable s a
        let chunks := (es.map (fun e => ceilDiv e.len 4096)).sum
        decide (start + chunks * 4100 ≤ size) && es.all (fun e => decide (e.offset + e.len ≤ size))
          && (List.range chunks).all (fun i =>
            slotFld s (a + start + chunks * 4096 + 4 * i) 0 4 == crc32c (readBytes s (a + start + 4096 * i) 4096)))

/-- The device address of slot `k` of an area of `count` granules from granule `first` (R422). -/
def slotAt (first count k : Nat) : Nat := l2Base + first * 0x100000000 + k * (count * 0x100000000 / 2)

/-- The own slot and the ward slot of a generation (R425). -/
def ownSlot (s : State) (p gen : Nat) : Nat :=
  slotAt (fld s (Reg.CKP_AREA p) Fld.CKP_AREA_AREA_FIRST) (fld s (Reg.CKP_AREA p) Fld.CKP_AREA_AREA_COUNT) (gen % 2)
def wardSlot (s : State) (p gen : Nat) : Nat :=
  slotAt (fld s (Reg.CKP_AREA p) Fld.CKP_AREA_WARD_FIRST) (fld s (Reg.CKP_AREA p) Fld.CKP_AREA_WARD_COUNT) (gen % 2)

/-! ### Phases (R425, R426) -/

def getCkpt (s : State) (p : Nat) : Ckpt := (getTrain s p).ckpt
def setCkpt (s : State) (p : Nat) (k : Ckpt) : State := setTrain s p { getTrain s p with ckpt := k }

/-- CKP_LASTn.PHASE. -/
def setPhase (s : State) (p ph : Nat) : State := setFld s (Reg.CKP_LAST p) Fld.CKP_LAST_PHASE ph

/-- A generation begins with the commit of an exchange (R423). -/
def beginGeneration (s : State) (p : Nat) : State :=
  let k := getCkpt s p
  setCkpt s p { k with
    gen := k.gen + 1, step := fld s (Reg.BRD_STEP p) Fld.BRD_STEP_STEP, beat := Machine.beat s
    cursor := (rd s (Reg.BRD_CURSOR p)).toNat, snap := true, copyAt := none, retry := false }

/-- The buddy's rank of a partition. -/
def buddyOf (s : State) (p : Nat) : Nat := fld s (Reg.CKP_AREA p) Fld.CKP_AREA_BUDDY

/-- The bytes that a slot's sections and their check words take up, as its table gives them (R424), at most `cap`. -/
def slotLen (s : State) (a cap : Nat) : Nat :=
  let n := leField (readBytes s (a + 36) 4) 0 4
  let t := readBytes s (a + 256) (32 * min n 65536)
  let ends := (List.range (min n 65536)).map fun i => leField t (32 * i + 8) 8 + ceilDiv (leField t (32 * i + 16) 8) 4096 * 4096
  let body := ends.foldl max (ceilDiv (256 + 32 * n) 4096 * 4096)
  min cap (body + 4 * ((body - ceilDiv (256 + 32 * n) 4096 * 4096) / 4096))

/-- A slot leaves for a rank; one with poisoned data is never capped there, and the partition's contexts are FAULTED (R155,
R425). -/
def sendSlot (s : State) (p gen rank a n : Nat) : State :=
  if poisoned s a n then (ctxsOf s p).foldl faultCtx s
  else emit (combTouch s false false a n) (.ckptCopy p gen rank (readBytes s a n))

/-- The rank whose copy this device keeps. -/
def wardOf (s : State) (p : Nat) : Nat := fld s (Reg.CKP_AREA p) Fld.CKP_AREA_WARD

/-- Whether the buddy owes an acknowledgement of the own slot (R425 step 4, R431). -/
def Ckpt.buddyOwes (k : Ckpt) : Bool := k.bgBuddy || k.acked != k.own

/-- The copies not yet acknowledged leave: the own slot for the buddy (R425 step 3), the ward slot for a drone that has taken the
ward's rank (R431). -/
def sendCopy (s : State) (p : Nat) : State :=
  let k := getCkpt s p
  let a := Reg.CKP_AREA p
  let s := if k.buddyOwes then
      sendSlot s p k.own (buddyOf s p) (ownSlot s p k.own)
        (slotLen s (ownSlot s p k.own) (fld s a Fld.CKP_AREA_AREA_COUNT * 0x100000000 / 2))
    else s
  let s := if k.bgWard then
      sendSlot s p k.own (wardOf s p) (wardSlot s p k.own)
        (slotLen s (wardSlot s p k.own) (fld s a Fld.CKP_AREA_WARD_COUNT * 0x100000000 / 2))
    else s
  setCkpt s p { getCkpt s p with copyAt := some (beat s), retry := false }

/-- The poison of what a snapshot reads travels into its slot (R155). -/
def poisonSlot (old s : State) (a : Nat) (vs : List Section) : State :=
  if old.poison.isEmpty then s
  else (vs.zip (sectionOffsets (ceilDiv (256 + 32 * vs.length) 4096 * 4096) vs)).foldl (fun s e => match e.1.src with
    | some b => carryPoison old s b (a + e.2) e.1.data.length
    | none => s) s

/-- A copy that failed is made again at a commit vote (R426). -/
def retryCopy (s : State) (p : Nat) : State := if (getCkpt s p).retry then sendCopy s p else s

/-- Generation DONE, with its STEP and CURSOR (R440). -/
def setDone (s : State) (p gen step cursor : Nat) : State :=
  let s := setFld s (Reg.CKP_STAT p) Fld.CKP_STAT_DONE gen
  setFld (setFld s (Reg.CKP_LAST p) Fld.CKP_LAST_STEP step) (Reg.CKP_CURSOR p) Fld.CKP_CURSOR_CURSOR cursor

/-- A generation is complete at the device once its own header is written and its copy acknowledged (R425 step 4). -/
def completeGeneration (s : State) (p : Nat) : State :=
  let k := getCkpt s p
  if k.gen ≠ 0 ∧ k.own = k.gen ∧ k.acked = k.gen then
    bump (setPhase (setDone s p k.gen k.step k.cursor) p 0) Reg.CKP_COUNT Fld.CKP_COUNT_CHECKPOINTS 1
  else s

/-- The comb store meets what a snapshot reads (R144). -/
def touchSections (s : State) (vs : List Section) : State :=
  vs.foldl (fun s v => match v.src with
    | some b => combTouch s false false b v.data.length
    | none => s) s

/-- The snapshot is written into the own slot, and the copy leaves (R425 steps 1 to 3). A slot that lies in memory which is not there
is refused, and no copy leaves (R136, log entry 72). -/
def execSnapshotDone (p : Nat) (s : State) : Host.Outcome State Fault Refusal :=
  let k := getCkpt s p
  if k.snap && !(getTrain s p).gather then
    let old := s
    let slot := slotBytes s p k.gen k.step k.cursor
    match firstOut s none [(ownSlot s p k.gen, slot.length)] with
    | some a => .next (refusePartAccess (setCkpt s p { k with snap := false }) p a)
    | none =>
      let s := storeBytes (touchSections s (sectionsOf s p)) (ownSlot s p k.gen) slot
      let s := poisonSlot old s (ownSlot s p k.gen) (sectionsOf old p)
      let s := setCkpt s p { k with snap := false, own := k.gen }
      .next (setPhase (sendCopy s p) p 2)
  else .next s

/-- Whether a takeover is under way: its agreement, or what follows from it (R428 to R431). -/
def inTakeover (s : State) : Bool := match s.takeover with
  | some t => t.agreeing || t.kstar.isSome
  | none => false

/-- CKP_FAIL of causes 1 and 7: an error, but FATAL in a takeover (R438, R439). -/
def raiseCkp (s : State) (p cause gen rank : Nat) : State :=
  raisePart s p 0x1001 (if inTakeover s then sevFatal else sevError) p cause gen rank (fld s (Reg.BRD_STEP p) Fld.BRD_STEP_STEP)

/-- Whether a slot is the own one of a drone that has taken a rank (R431): its RANK is the rank taken. -/
def ownCopy (s : State) (p : Nat) (slot : List Byte) : Bool :=
  fld s Reg.CKP_DRONE Fld.CKP_DRONE_STATE == 2 && leField slot 32 2 % 16384 == fld s Reg.CKP_DRONE Fld.CKP_DRONE_TOOK
    && partRank s p == fld s Reg.CKP_DRONE Fld.CKP_DRONE_TOOK

/-- A slot that arrives is written at `a` and acknowledged where every CRC holds, those of its transfer (`crcOk`) and the slot's own;
otherwise CKP_FAIL (R425 step 3, R426). -/
def takeCopy (s : State) (p gen rank a : Nat) (slot : List Byte) (crcOk ward : Bool) : State :=
  match firstOut s none [(a, slot.length)] with
  | some b => refusePartAccess s p b
  | none =>
    let t := storeBytes s a slot
    if crcOk && slotIntact t a slot.length then
      emit (if ward then setFld t (Reg.CKP_STAT p) Fld.CKP_STAT_WARD_DONE gen else t) (.ckptAck p gen rank)
    else raiseCkp s p 1 gen rank

/-- A copy arrives from a rank: the ward's slot at its buddy (R425 step 3), or a drone's own slot from the buddy of the rank it took
(R431). -/
def execWardCopyArrival (p gen rank : Nat) (slot : List Byte) (crcOk : Bool) (s : State) : Host.Outcome State Fault Refusal :=
  if ownCopy s p slot && buddyOf s p == rank && fld s (Reg.CKP_AREA p) Fld.CKP_AREA_AREA_COUNT != 0 then
    .next (takeCopy s p gen rank (ownSlot s p gen) slot crcOk false)
  else if fld s (Reg.CKP_AREA p) Fld.CKP_AREA_WARD_COUNT ≠ 0 ∧ wardOf s p = rank then
    .next (takeCopy s p gen rank (wardSlot s p gen) slot crcOk true)
  else .next s

/-- A copy is acknowledged, and none is under way once no acknowledgement is owed. -/
def settleCopy (s : State) (p : Nat) (k : Ckpt) : State :=
  setCkpt s p (if k.buddyOwes || k.bgWard then k else { k with copyAt := none })

/-- A rank acknowledges a copy: the buddy that of a generation (R425 step 4), or a drone one made in the background (R431). -/
def execCheckpointAckArrival (p : Nat) (ack : CopyAck) (s : State) : Host.Outcome State Fault Refusal :=
  let ⟨gen, rank⟩ := ack
  let k := getCkpt s p
  if k.own = gen ∧ k.copyAt.isSome then
    if rank = buddyOf s p ∧ k.buddyOwes then
      if k.acked = gen then .next (settleCopy s p { k with bgBuddy := false })
      else .next (completeGeneration (settleCopy s p { k with acked := gen }) p)
    else if rank = wardOf s p ∧ k.bgWard then .next (settleCopy s p { k with bgWard := false })
    else .next s
  else .next s

/-- A copy fails: its CRC at the buddy (cause 1), or no acknowledgement within COL_CTL.TMO beats (cause 7); the device stays
BUSY and makes the copy again at the next commit vote (R426). -/
def execCkpFail (p cause : Nat) (s : State) : Host.Outcome State Fault Refusal :=
  let k := getCkpt s p
  match k.copyAt with
  | none => .next s
  | some t =>
    let late := decide (t + max 1 (fld s Reg.COL_CTL Fld.COL_CTL_TMO) ≤ beat s)
    if cause = 1 ∨ (cause = 7 ∧ late) then
      let s := setCkpt s p { k with copyAt := none, retry := true }
      .next (raiseCkp s p cause k.own (if k.buddyOwes then buddyOf s p else wardOf s p))
    else .next s

end Sys2Proof.Machine
end

