-- ==== Sys2Proof/Machine/Exchange.lean ====
section
/-! DEFINITION. The gradient exchange (R226 to R254): the tree over FP32 chunks, the residue checks, compression, delivery to
optimizer handlers, late members, the commit vote and the parameter gather; and the aborts and timeouts that reach a group
from outside (R306, R307, R320). -/

namespace Sys2Proof.Machine

/-! ### Chunks and units (R230, R233, R235, R241) -/

/-- The numbers that a chunk's residues cover: elements, sparse values, or the signs as ±1. -/
def gradNums (form : ChunkForm) (vals : List (BitVec 32)) (signs : List Bool) : List FNum :=
  match form with
  | .sign => signs.map (fun b => .fin b 1 0)
  | _ => vals.map (fun v => decodeFp fp32 false v.toNat)

/-- Σ res of a list (R234). -/
def resSum (ns : List FNum) : Nat := (ns.map residue).sum % resMod

/-- A member's own contribution (R235). -/
def sourceGrad (form : ChunkForm) (vals : List (BitVec 32)) (idxs : List Nat) (signs : List Bool) (mag : Nat) : GCargo :=
  let ns := gradNums form vals signs
  ⟨form, vals, idxs, signs, mag, resSum ns, 0, ns.any FNum.nonfin⟩

/-- FP32 values of a sparse block, +0 where no entry is (R241, R242). -/
def expandSparse (idxs : List Nat) (vals : List (BitVec 32)) : List (BitVec 32) :=
  (List.range 4096).map (fun i => ((idxs.zip vals).lookup i).getD 0)

/-- Signs as FP32 votes (R241). -/
def votesOf (signs : List Bool) : List (BitVec 32) := signs.map (fun b => if b then 0xBF800000 else 0x3F800000)

/-- A unit as dense values. -/
def GCargo.dense (c : GCargo) : List (BitVec 32) :=
  match c.form with
  | .dense => c.vals
  | .sparse => expandSparse c.idxs c.vals
  | .sign => votesOf c.signs

/-- One FP32 addition of a link adder (R230, R235). -/
def addFp32 (a b : BitVec 32) : BitVec 32 × Nat × Bool :=
  let r := addElem fp32 a.toNat b.toNat
  (BitVec.ofNat 32 r.1, r.2.1, r.2.2)

/-- The union of two sparse blocks in ascending index, values at equal indices added (R241). -/
def sparseUnion (a b : GCargo) : List (Nat × (BitVec 32 × Nat × Bool)) :=
  (List.range 4096).filterMap fun i =>
    match (a.idxs.zip a.vals).lookup i, (b.idxs.zip b.vals).lookup i with
    | some v, some w => some (i, addFp32 v w)
    | some v, none => some (i, (v, 0, false))
    | none, some w => some (i, (w, 0, false))
    | none, none => none

/-- The fields of a sum (R235, R241). -/
def mergeFields (a b : GCargo) (rs : List (BitVec 32 × Nat × Bool)) (form : ChunkForm) (vals : List (BitVec 32)) (idxs : List Nat) :
    GCargo :=
  { form := form, vals := vals, idxs := idxs, signs := [], mag := (addElem fp32 a.mag b.mag).1
    srcRes := (a.srcRes + b.srcRes) % resMod, rndRes := (a.rndRes + b.rndRes + (rs.map (·.2.1)).sum) % resMod
    nonfinite := a.nonfinite || b.nonfinite || rs.any (·.2.2) }

/-- An adder combines two units; true where a sparse block turns dense by crossover (R241). -/
def mergeGrad (cross : Nat) (a b : GCargo) : GCargo × Bool :=
  if a.form = .sparse ∧ b.form = .sparse then
    let u := sparseUnion a b
    let c := mergeFields a b (u.map (·.2)) .sparse (u.map (·.2.1)) (u.map (·.1))
    if cross * 16 < u.length then ({ c with form := .dense, vals := expandSparse c.idxs c.vals, idxs := [] }, true) else (c, false)
  else
    let rs := (a.dense.zip b.dense).map (fun v => addFp32 v.1 v.2)
    (mergeFields a b rs .dense (rs.map (·.1)) [], false)

/-- Pieces of a list of at most `n`. -/
def piecesOf {α : Type} (n k : Nat) (l : List α) : List (List α) := (List.range k).map (fun i => (l.drop (i * n)).take n)

/-- The residue fields of the chunks into which a unit is split: each later chunk carries the residue of its own values, the
first what remains, so that the sums are the unit's (log entry 38). -/
def shareFields (c : GCargo) (ps : List (List (BitVec 32))) : List (Nat × Nat) :=
  match ps with
  | [] => []
  | _ :: qs =>
    let rest := qs.map (fun v => resSum (gradNums .dense v []))
    ((c.srcRes + (resMod - rest.sum % resMod)) % resMod, c.rndRes) :: rest.map (fun r => (r, 0))

/-- The chunks that carry a unit (R230, R233, R239, R241). -/
def wiresOf (comp unit round : Nat) (c : GCargo) : List GradWire :=
  let blank : GradWire := ⟨unit, c.form, round, 0, 0, c.mag, c.srcRes, c.rndRes, c.nonfinite, c.vals, c.idxs, c.signs⟩
  if comp = 0 then [blank]
  else match c.form with
    | .sign => [{ blank with chunk := 4 * unit }]
    | .sparse =>
      let n := max 1 (ceilDiv c.vals.length 512)
      let vs := piecesOf 512 n c.vals
      let is := piecesOf 512 n c.idxs
      ((vs.zip is).zip (shareFields c vs)).zipIdx.map (fun e =>
        { blank with chunk := 4 * unit, part := e.2, parts := n, srcRes := e.1.2.1, rndRes := e.1.2.2, vals := e.1.1.1, idxs := e.1.1.2 })
    | .dense =>
      let vs := piecesOf 1024 4 c.vals
      (vs.zip (shareFields c vs)).zipIdx.map (fun e =>
        { blank with chunk := 4 * unit + e.2, srcRes := e.1.2.1, rndRes := e.1.2.2, vals := e.1.1 })

/-- The unit of a chunk, and how many chunks make it up. -/
def gradUnit (comp : Nat) (w : GradWire) : Nat := if comp = 0 then w.chunk else w.chunk / 4
def gradWhole (comp : Nat) (w : GradWire) : Nat :=
  if comp = 0 then 1
  else match w.form with
    | .sign => 1
    | .sparse => max 1 w.parts
    | .dense => 4

/-- The place of a chunk within its unit. -/
def gradPlace (comp : Nat) (w : GradWire) : Nat := if comp = 0 then 0 else if w.form = .dense then w.chunk % 4 else w.part

/-- A unit assembled from its chunks (R241). -/
def assemble (comp : Nat) (ws : List GradWire) : GCargo :=
  let ws := sortBy (gradPlace comp) ws
  { form := (ws.head?.map (·.form)).getD .dense, vals := ws.flatMap (·.vals), idxs := ws.flatMap (·.idxs)
    signs := ws.flatMap (·.signs), mag := (ws.head?.map (·.mag)).getD 0, srcRes := (ws.map (·.srcRes)).sum % resMod
    rndRes := (ws.map (·.rndRes)).sum % resMod, nonfinite := ws.any (·.nonfinite) }

/-! ### The flow of units at a member (R228, R229, R232) -/

/-- Units of the buffer. -/
def unitsIn (comp elems : Nat) : Nat := if comp = 0 then elems / 1024 else elems / 4096

/-- What fixes the flow: the geometry (with COUNT in units), the compression and the crossover. -/
structure GFlow where
  geo : Geo
  units : Nat
  comp : Nat
  cross : Nat

/-- Whether a unit lies in the half that this member keeps in round `t`. -/
def GFlow.keeps (f : GFlow) (t u : Nat) : Bool :=
  if f.units / 2 ^ t = 0 then false else u / (f.units / 2 ^ t) == f.geo.r / f.geo.d t

def Xch.part (e : Xch) (u : Nat) : Option (Nat × GCargo) := (e.parts.find? (fun v => v.2.1 == u)).map (fun v => (v.1, v.2.2))

def Xch.setPart (e : Xch) (u : Nat) (v : Option (Nat × GCargo)) : Xch :=
  let rest := e.parts.filter (fun w => w.2.1 != u)
  { e with parts := match v with
      | some (t, c) => rest ++ [(t, u, c)]
      | none => rest }

/-- A unit to be sent in a round. -/
def Xch.queue (e : Xch) (f : GFlow) (t u : Nat) (c : GCargo) : Xch :=
  match f.geo.partner (false, t) with
  | some q => { e with outbox := e.outbox ++ (wiresOf f.comp u t c).map (fun w => ⟨t, q, w⟩) }
  | none => e

/-- The partial of a unit goes as far as it can; the number of blocks turned dense comes with it. -/
def Xch.advance (f : GFlow) (u : Nat) : Nat → Xch × Nat → Xch × Nat
  | 0, e => e
  | fuel + 1, (e, n) =>
    match e.part u with
    | none => (e, n)
    | some (t, v) =>
      let unfolded := decide (f.geo.r < f.geo.e) && !e.folded.contains u
      if f.geo.l ≤ t then (e, n)
      else if unfolded && (t == 0 && !f.geo.eager || !f.keeps (t + 1) u) then (e, n)
      else if !f.keeps (t + 1) u then ((e.setPart u none).queue f (t + 1) u v, n)
      else match e.came.find? (fun c => c.1 == t + 1 && c.2.1 == u) with
        | none => (e, n)
        | some c =>
          let (w, turned) := mergeGrad f.cross v c.2.2
          Xch.advance f u fuel ({ e.setPart u (some (t + 1, w)) with came := e.came.filter (· != c) }, n + bnat turned)

/-- A folded member's unit, or a partner's of round `t`, is taken. -/
def Xch.takeUnit (e : Xch) (f : GFlow) (t u : Nat) (c : GCargo) : Xch × Nat :=
  if t = 0 then
    match e.part u with
    | some (l, w) =>
      let (v, turned) := mergeGrad f.cross w c
      Xch.advance f u (f.geo.l + 2) ({ e.setPart u (some (l, v)) with folded := e.folded ++ [u] }, bnat turned)
    | none => (e, 0)
  else Xch.advance f u (f.geo.l + 2) ({ e with came := e.came ++ [(t, u, c)] }, 0)

/-- The flow of a partition's exchange. -/
def gflow (s : State) (p slot comp : Nat) (sig : Sig) : GFlow :=
  let geo := grpGeo s (getGrp s slot) sig
  ⟨geo, unitsIn comp sig.count, comp, max 1 (fld s (Reg.GRD_PART p) Fld.GRD_PART_CROSSOVER)⟩

/-! ### Compression (R238 to R240) -/

/-- The magnitude of an FP32 encoding as TOPK ranks it: NaN above all. -/
def topkKey (v : BitVec 32) : Nat :=
  let m := v.toNat % 2 ^ 31
  if 0x7F800000 < m then 2 ^ 31 else m

/-- The indices of the `k` elements of largest magnitude, ties to the lower index, ascending. -/
def topkPick (k : Nat) (us : List (BitVec 32)) : List Nat :=
  let ranked := sortBy (fun e => 2 ^ 31 - topkKey e.1) us.zipIdx
  sortBy id ((ranked.take k).map (·.2))

/-- One level of the balanced tree over FP32 magnitudes. -/
def pairAdd : List (BitVec 32) → List (BitVec 32)
  | a :: b :: xs => (addFp32 a b).1 :: pairAdd xs
  | xs => xs

/-- The sum of a block of 4,096 magnitudes by the balanced tree of R185. -/
def magSum : Nat → List (BitVec 32) → BitVec 32
  | 0, xs => xs.headD 0
  | n + 1, xs => magSum n (pairAdd xs)

/-- μ of R239. -/
def signMag (us : List (BitVec 32)) : Nat :=
  let sum := magSum 12 (us.map (fun v => v &&& 0x7FFFFFFF))
  (castFp fp32 .rne 0 false false ((decodeFp fp32 false sum.toNat).mul (.fin false 1 (-12)))).1

/-- A block of a member's buffer compressed: what it sends, and its new residual (R238, R239). -/
def compressBlock (comp k : Nat) (g r : List (BitVec 32)) : GCargo × List (BitVec 32) :=
  let us := (g.zip r).map (fun v => (addFp32 v.1 v.2).1)
  if comp = 1 then
    let is := topkPick k us
    (sourceGrad .sparse (is.map (fun i => us.getD i 0)) is [] 0, us.zipIdx.map (fun e => if is.contains e.2 then 0 else e.1))
  else
    let mu := signMag us
    let signs := us.map (fun v => v.getLsbD 31)
    (sourceGrad .sign [] [] signs mu,
      us.map (fun v => (addFp32 v (BitVec.ofNat 32 (if v.getLsbD 31 then mu else mu ^^^ 2 ^ 31))).1))

/-- FP32 encodings of consecutive bytes. -/
def fp32List (bs : List Byte) : List (BitVec 32) :=
  (List.range (bs.length / 4)).map (fun i => BitVec.ofNat 32 (leField bs (4 * i) 4))

/-- A member's own unit `u`, with the state in which its residual lies in the inactive bank (R240). -/
def ownUnit (s : State) (p x : Nat) (r : ManReduce) (comp u : Nat) : GCargo × State :=
  if comp = 0 then (sourceGrad .dense (fp32List (handleBytes s x r.bufHandle (u * 4096) 4096)) [] [] 0, s)
  else
    let g := fp32List (handleBytes s x r.bufHandle (u * 16384) 16384)
    match r.residual with
    | none => ((compressBlock comp (max 1 (fld s (Reg.GRD_PART p) Fld.GRD_PART_TOPK_K)) g (g.map (fun _ => 0))).1, s)
    | some h =>
      let half := (handleOf s x 0 h).size / 2
      let b := bankOf s p
      let rho := fp32List (handleBytes s x h (b * half + u * 16384) 16384)
      let (c, rest) := compressBlock comp (max 1 (fld s (Reg.GRD_PART p) Fld.GRD_PART_TOPK_K)) g rho
      (c, storeBytes s ((handleOf s x 0 h).base + (1 - b) * half + u * 16384) (rest.flatMap (fun v => leBytes 4 v.toNat)))

/-! ### Sending (R252, R304) -/

/-- Whether this device is a backup whose rank has not been promoted (R252). -/
def heldBack (s : State) (p : Nat) (e : Xch) : Bool :=
  flg s (Reg.GRD_ROLE p) Fld.GRD_ROLE_BACKUP_ROLE && !e.promoted.contains (fld s (Reg.GRD_ROLE p) Fld.GRD_ROLE_SHADOW)

/-- Whether chunks sent to a rank are duplicated for its backup. -/
def hasBackup (s : State) (p dest : Nat) : Bool :=
  flg s (Reg.GRD_PART p) Fld.GRD_PART_POLICY && (match reduceOf s p with
    | some (_, r) => r.backups.any (fun e => e.1 == dest)
    | none => false)

/-- A gradient chunk leaves. -/
def emitGrad (s : State) (p : Nat) (g : Grp) (b : Bulk) (first : Bool) (o : GradOut) : State :=
  let s := emit s (.gradChunk g.gid b.sig g.rank o.dest first b.late.1 b.late.2 b.early false o.wire)
  if hasBackup s p o.dest then emit s (.gradChunk g.gid b.sig g.rank o.dest first b.late.1 b.late.2 b.early true o.wire) else s

/-- A first chunk without payload. -/
def blankWire (t : Nat) : GradWire := ⟨0, .dense, t, 0, 0, 0, 0, 0, false, [], [], []⟩

/-- Whether this member sends data in a round. -/
def gradSends (f : GFlow) (t : Nat) : Bool := if t = 0 then decide (f.geo.p ≤ f.geo.r) else decide (f.geo.r < f.geo.p)

/-- What may be sent in one round is sent (R296, R304). -/
def pumpGradStage (p slot : Nat) (s : State) (st : StageId) : State :=
  let g := getGrp s slot
  match g.bulk, (getTrain s p).xch with
  | some b, some e =>
    let f := gflow s p slot e.comp b.sig
    match f.geo.partner st with
    | none => s
    | some q =>
      if b.gate f.geo st && !heldBack s p e then
        let out := e.outbox.filter (fun o => o.round == st.2)
        let fresh := !b.began.contains st
        if !out.isEmpty then
          let s := (out.zipIdx).foldl (fun s o => emitGrad s p g b (fresh && o.2 == 0) o.1) s
          let s := setTrain s p { getTrain s p with xch := some { e with outbox := e.outbox.filter (fun o => o.round != st.2) } }
          setGrp s slot { g with bulk := some { b with began := if fresh then b.began ++ [st] else b.began } }
        else if fresh && !gradSends f st.2 then
          let s := emitGrad s p g b true ⟨st.2, q, blankWire st.2⟩
          setGrp s slot { g with bulk := some { b with began := b.began ++ [st] } }
        else s
      else s
  | _, _ => s

/-- Rounds that this member has just entered: every earlier first chunk has come (R249). -/
def noteEntered (s : State) (p slot : Nat) : State :=
  match (getGrp s slot).bulk, (getTrain s p).xch with
  | some b, some e =>
    let geo := grpGeo s (getGrp s slot) b.sig
    let new := geo.mine.filter (fun st => b.gate geo st && !e.entered.any (fun v => v.1 == st.2))
    setTrain s p { getTrain s p with xch := some { e with entered := e.entered ++ new.map (fun st => (st.2, beat s)) } }
  | _, _ => s

/-- Everything that may be sent is sent. -/
def pumpGrad (s : State) (p slot : Nat) : State :=
  match (getGrp s slot).bulk with
  | some b => noteEntered ((grpGeo s (getGrp s slot) b.sig).stages.foldl (pumpGradStage p slot) s) p slot
  | none => s

/-! ### The vote (R247, R250) -/

/-- Chunks of a shard (R244). -/
def shardChunks (g : Geo) : Nat := if g.r < g.p then g.count / (g.p * 1024) else 0

/-- Whether the device has done all it must before its vote: its handler tasks have ended, and its exchange was aborted, or
its shard is complete, or, with no shard, its fold is sent. -/
def voteDue (s : State) (p : Nat) : Bool :=
  match (getTrain s p).xch, (redSlot s p).bind (fun k => (getGrp s k).bulk.map (fun b => (k, b))) with
  | some e, some (k, b) =>
    let geo := grpGeo s (getGrp s k) b.sig
    !e.voted && e.delivered.all (fun c => e.ended.contains c) && (e.aborted
      || (if geo.r < geo.p then e.delivered.length == shardChunks geo
          else e.outbox.isEmpty && b.began.contains (false, 0)))
  | some e, none => !e.voted && e.delivered.all (fun c => e.ended.contains c) && e.aborted
  | none, _ => false

/-- The device votes once it may; a mismatch is first named (R306). -/
def tryVote (s : State) (p : Nat) : State :=
  let naming := match redSlot s p with
    | some k => (getGrp s k).aborting.isSome
    | none => false
  if voteDue s p && !naming then joinAll (castVote s p) else s

/-- A chunk fails a check: GRD_RESIDUE, and the exchange is repeated (R236, R250). -/
def failResidue (s : State) (p slot src round port chunk check want got : Nat) : State :=
  let g := getGrp s slot
  let s := bump s (Reg.GRD_FAULT p) Fld.GRD_FAULT_RESIDUE 1
  let s := raisePart s p 0x0702 sevCorrected g.gid chunk check (want % 2 ^ 31 + 2 ^ 32 * (got % 2 ^ 31))
    (src % 4096 + 2 ^ 12 * (round % 16) + 2 ^ 16 * (port % 16))
  match g.bulk with
  | some b => detectAbort s slot false b.sig.seq .check
  | none => s

/-! ### The owner (R236, R242, R244) -/

/-- The final units of this member's shard, their fold in. -/
def finalUnits (f : GFlow) (e : Xch) : List (Nat × GCargo) :=
  (e.parts.filter (fun v => decide (f.geo.l ≤ v.1) && !(decide (f.geo.r < f.geo.e) && !e.folded.contains v.2.1))).map (·.2)

/-- The chunks in which a unit is presented (R242). -/
def presentUnit (f : GFlow) (u : Nat) (c : GCargo) : List ReadyChunk :=
  let lo := f.geo.r * shardChunks f.geo
  let n := if f.comp = 0 then 1 else 4
  (piecesOf 1024 n c.dense).zipIdx.map (fun v => ⟨u * n + v.2 - lo, v.1, if f.comp = 2 then c.mag else 0, c.nonfinite⟩)

/-- A final unit passes the destination check and waits for its handlers, or fails it (R236). -/
def presentOne (p slot : Nat) (s : State) (v : Nat × GCargo) : State :=
  match (getGrp s slot).bulk, (getTrain s p).xch with
  | some b, some e =>
    if e.aborted then s
    else
      let f := gflow s p slot e.comp b.sig
      let sum := (resSum (gradNums v.2.form v.2.vals v.2.signs) + v.2.rndRes) % resMod
      if sum = v.2.srcRes % resMod then
        let e := e.setPart v.1 none
        let ready := presentUnit f v.1 v.2
        let s := bump s (Reg.GRD_CHUNKS p) Fld.GRD_CHUNKS_CHECKED ready.length
        setTrain s p { getTrain s p with xch := some { e with ready := e.ready ++ ready } }
      else failResidue s p slot f.geo.r f.geo.l 0 (if f.comp = 0 then v.1 else 4 * v.1) 3 v.2.srcRes sum
  | _, _ => s

/-- The final units are presented, and what may be sent is sent. -/
def gradProgress (s : State) (p slot : Nat) : State :=
  match (getGrp s slot).bulk, (getTrain s p).xch with
  | some b, some e =>
    let f := gflow s p slot e.comp b.sig
    let s := (if f.geo.r < f.geo.p then finalUnits f e else []).foldl (presentOne p slot) s
    tryVote (noteAgreed (pumpGrad s p slot) slot) p
  | _, _ => s

/-! ### Start (R227, R238) -/

/-- An exchange as it begins. -/
def Xch.fresh (comp : Nat) : Xch :=
  { comp := comp, entered := [], parts := [], came := [], pieces := [], got := [], folded := [], outbox := [], ready := []
    delivered := [], ended := [], nfx := false, rpt := false, nfCount := 0, nfFirst := 0, aborted := false, voted := false
    promoted := [] }

/-- The bytes that a member's own unit is built from: its buffer's, and under compression its residual's. -/
def unitReads (s : State) (p x : Nat) (r : ManReduce) (comp u : Nat) : List (Nat × Nat) :=
  let n := if comp = 0 then 4096 else 16384
  let rho := match r.residual with
    | some h => if comp = 0 then [] else [((handleOf s x 0 h).base + bankOf s p * ((handleOf s x 0 h).size / 2) + u * n, n)]
    | none => []
  ((handleOf s x 0 r.bufHandle).base + u * n, n) :: rho

/-- One unit of the buffer enters the flow; one built from poisoned data (R155), or outside the partition's memory (R138, log entry
72), does not, and the context is FAULTED. -/
def enterUnit (p slot x : Nat) (r : ManReduce) (s : State) (u : Nat) : State :=
  match (getGrp s slot).bulk, (getTrain s p).xch with
  | some b, some e =>
    let es := unitReads s p x r e.comp u
    match firstOut s (some p) es with
    | some a => faultCtx (refuseAccess s x a) x
    | none =>
      if es.any (fun v => poisoned s v.1 v.2) then faultCtx s x
      else
        let s := es.foldl (fun s v => combTouch s false false v.1 v.2) s
        let (c, s) := ownUnit s p x r e.comp u
        let f := gflow s p slot e.comp b.sig
        let e' := if f.geo.p ≤ f.geo.r then e.queue f 0 u c
          else (Xch.advance f u (f.geo.l + 2) (e.setPart u (some (0, c)), 0)).1
        setTrain s p { getTrain s p with xch := some e' }
  | _, _ => s

/-- What an entry into an aborted or poisoned sequence number makes of the exchange (R250, R306, R307). -/
def enterAborted (s : State) (p slot why : Nat) : State :=
  let g := getGrp s slot
  let t := getTrain s p
  let s := countCol (setGrp s slot { g with seq := (g.seq + 1) % 2 ^ 32 }) p true
  if why = 4 then s
  else tryVote (setTrain s p { t with
    halt := t.halt || decide (why ≠ 2), xch := some { Xch.fresh 0 with aborted := true, rpt := decide (why = 2) } }) p

/-! ### Arrival (R236, R241, R252, R304, R305) -/

/-- The numbers of a unit. -/
def GCargo.nums (c : GCargo) : List FNum := gradNums c.form c.vals c.signs

/-- Σ res of the input elements of the addition that an arriving chunk takes part in, of its unit's chunks so far and of the partial
present (R236). -/
def adderInputs (e : Xch) (c : GradChunk) : Nat :=
  let u := gradUnit e.comp c.wire
  let came := (e.pieces.filter (fun v => v.1 == c.wire.round && v.2.1 == u)).map (·.2.2) ++ [c.wire]
  let own := match e.part u with
    | some (_, v) => resSum v.nums
    | none => 0
  ((came.map (fun w => resSum (gradNums w.form w.vals w.signs))).sum + own) % resMod

/-- The checks of R236 and R237 on an arriving chunk: 0 all pass, else the check of R254; the expected and the computed residue. An
adder fault is what the residue path computed in place of the sum over the inputs. -/
def gradCheck (e : Xch) (c : GradChunk) : Nat × Nat × Nat :=
  let want := c.wire.srcRes % resMod
  let sum := (resSum (gradNums c.wire.form c.wire.vals c.wire.signs) + c.wire.rndRes) % resMod
  if sum ≠ want then (1, want, sum)
  else if c.wire.form = .sparse ∧ !c.icrcOk then (4, want, sum)
  else match c.adderFault with
    | some v => if v % resMod = adderInputs e c then (0, want, sum) else (2, adderInputs e c, v % resMod)
    | none => (0, want, sum)

/-- The reduction fields, the header and the data of a checked chunk are taken. -/
def takeGrad (s : State) (p slot : Nat) (c : GradChunk) : State :=
  let g := getGrp s slot
  match g.bulk, (getTrain s p).xch with
  | some b, some e =>
    let st : StageId := (false, c.wire.round)
    let b := { b with
      last := beat s
      heard := if c.first && !b.heard.contains st then b.heard ++ [st] else b.heard
      late := if c.first ∧ (b.late.2 < c.lateBeat ∨ (b.late.2 = c.lateBeat ∧ c.lateRank < b.late.1)) then (c.lateRank, c.lateBeat)
        else b.late
      early := if c.first then min b.early c.earlyBeat else b.early }
    let s := setGrp s slot { g with bulk := some b }
    if c.wire = blankWire c.wire.round then gradProgress s p slot
    else
      let u := gradUnit e.comp c.wire
      let mine (v : Nat × Nat × GradWire) : Bool := v.1 == c.wire.round && v.2.1 == u
      let all := (e.pieces.filter mine).map (·.2.2) ++ [c.wire]
      let e := { e with got := e.got ++ [(c.wire.round, c.wire.chunk, c.wire.part)] }
      let s := bump s (Reg.GRD_CHUNKS p) Fld.GRD_CHUNKS_CHECKED 1
      if all.length < gradWhole e.comp c.wire then
        let e := { e with pieces := e.pieces ++ [(c.wire.round, u, c.wire)] }
        gradProgress (setTrain s p { getTrain s p with xch := some e }) p slot
      else
        let e := { e with pieces := e.pieces.filter (fun v => !mine v) }
        let (e, n) := e.takeUnit (gflow s p slot e.comp b.sig) c.wire.round u (assemble e.comp all)
        let s := bump s (Reg.GRD_CROSS p) Fld.GRD_CROSS_DENSIFIED n
        gradProgress (setTrain s p { getTrain s p with xch := some e }) p slot
  | _, _ => s

/-- A chunk of the exchange in progress is compared and checked (R236, R306); chunks of a fenced rank are discarded, and the
backup's chunks make the backup known (R252), and those of a second late member's make the exchange repeat (R253). -/
def judgeGrad (s : State) (p slot : Nat) (c : GradChunk) : State :=
  match (getGrp s slot).bulk, (getTrain s p).xch with
  | some b, some e =>
    if e.promoted.contains c.src && !c.backup then s
    else if c.backup && !e.promoted.contains c.src && !e.promoted.isEmpty then detectAbort s slot false b.sig.seq .check
    else
      let e := if c.backup && !e.promoted.contains c.src then { e with promoted := e.promoted ++ [c.src] } else e
      let s := setTrain s p { getTrain s p with xch := some e }
      if c.first ∧ c.sig ≠ b.sig then detectAbort s slot false b.sig.seq .mismatch
      else if c.wire = blankWire c.wire.round then takeGrad s p slot c
      else if e.got.contains (c.wire.round, c.wire.chunk, c.wire.part) then s
      else
        let (check, want, sum) := gradCheck e c
        if check = 0 then takeGrad s p slot c
        else failResidue s p slot c.src c.wire.round c.port c.wire.chunk check want sum
  | _, _ => s

/-- A gradient chunk reaches this member (R304, R305, R311). -/
def arriveGrad (s : State) (p slot : Nat) (c : GradChunk) : State :=
  let g := getGrp s slot
  let t := getTrain s p
  let hold := setTrain s p { t with gstaged := t.gstaged ++ [c] }
  if c.sig.gen < g.gen then bump s (Reg.COL_STALE p) Fld.COL_STALE_STALE 1
  else if g.gen < c.sig.gen then hold
  else if g.st = 3 ∨ g.aborting.isSome then s
  else match g.bulk, t.xch with
    | some b, some e =>
      if e.aborted then s
      else if c.sig.seq = b.sig.seq then judgeGrad s p slot c
      else if c.sig.seq < b.sig.seq then s
      else if c.first && skipped (grpGeo s g b.sig) b c.src then detectAbort s slot false b.sig.seq .mismatch
      else hold
    | some b, none => if c.sig.seq ≤ b.sig.seq then s else hold
    | none, _ => if c.sig.seq < g.seq then s else hold

/-- The exchange of a closed window begins at this member (R227), or finds its sequence number aborted (R306, R307). -/
def beginExchange (s : State) (p : Nat) : State :=
  match redSlot s p, reduceOf s p with
  | some slot, some (x, r) =>
    let g := getGrp s slot
    if g.st = 3 then enterAborted s p slot g.poison
    else match g.noticeOf false g.seq with
      | some why => enterAborted s p slot (reasonCode why)
      | none =>
        let comp := fld s (Reg.GRD_PART p) Fld.GRD_PART_COMP % 3
        let sig := mkSig g.gid g.gen g.seq 6 0 0 0 r.elems
        let s := setGrp s slot { g with
          bulk := some (Bulk.start s none sig g.rank none none 0 0 0), seq := (g.seq + 1) % 2 ^ 32, st := 1 }
        let held := (getTrain s p).gstaged
        let s := setTrain s p { getTrain s p with xch := some (Xch.fresh comp), gstaged := [] }
        let s := (List.range (unitsIn comp r.elems)).foldl (enterUnit p slot x r) s
        let s := gradProgress s p slot
        held.foldl (fun s c => arriveGrad s p slot c) s
  | _, _ => s

/-! ### The parameter gather (R248) -/

/-- A tensor of bytes at the start of a handle's region, long enough for any region. -/
def byteTensor (s : State) (x h : Nat) : Desc × Nat :=
  let w2 := 2 ^ 20 + 2 ^ 21 * 2 ^ 11 + 2 ^ 42 * (2 ^ 21 - 1)
  (⟨BitVec.ofNat 64 (h % 16384 + 2 ^ 16 * 0x0C), 0, BitVec.ofNat 64 w2, BitVec.ofNat 64 (2 ^ 20 + 2 ^ 32 * 2 ^ 31)⟩,
    (handleOf s x 0 h).base)

/-- Bytes that the gather moves: whole chunks of every shard of the working handle. -/
def gatherBytes (s : State) (x : Nat) (r : ManReduce) (p : Nat) : Nat :=
  (handleOf s x 0 r.working).size / (p * 4096) * (p * 4096)

/-- The parameter gather begins (R248); aborted before this member enters, it stops the partition's contexts, but after MEMBER_LOST,
and no snapshot follows it (R18, R306 to R308). -/
def beginGather (s : State) (p : Nat) : State :=
  match redSlot s p, reduceOf s p with
  | some slot, some (x, r) =>
    let g := getGrp s slot
    let turned (why : Nat) : State :=
      let s := countCol (setGrp s slot { g with seq := (g.seq + 1) % 2 ^ 32 }) p true
      let t := getTrain s p
      let s := setTrain s p { t with ckpt := { t.ckpt with snap := false } }
      if why = 4 then s else stopPart s p
    if g.st = 3 then turned g.poison
    else match g.noticeOf false g.seq with
      | some why => turned (reasonCode why)
      | none =>
        let sig := mkSig g.gid g.gen g.seq 7 0 0x0C 0 (gatherBytes s x r (Geometry.cube g.members.length))
        let s := setTrain s p { getTrain s p with gather := true }
        let h := handleOf s x 0 r.staging
        match firstOut s (some p) [(h.base, h.size)] with
        | some a => faultCtx (refuseAccess s x a) x
        | none =>
          if poisoned s h.base h.size then faultCtx s x
          else
            let s := combTouch s false false h.base h.size
            beginBulk s slot (Bulk.start s none sig g.rank (some (byteTensor s x r.staging)) (some (byteTensor s x r.working)) 0 0 0)
  | _, _ => s

/-! ### Device-started collectives in their turn (R295, R311) -/

/-- A device-started bulk collective begins, or waits for the group's collective in progress or its abort: the exchange, or the
gather. -/
def startDevBulk (s : State) (p : Nat) (gather : Bool) : State :=
  match redSlot s p with
  | none => s
  | some slot =>
    let g := getGrp s slot
    if g.bulk.isSome || g.aborting.isSome then
      setTrain (setGrp s slot { g with devBulk := true }) p { getTrain s p with startDue := some gather }
    else if gather then beginGather s p else beginExchange s p

def startExchange (s : State) (p : Nat) : State := startDevBulk s p false
def startGather (s : State) (p : Nat) : State := startDevBulk s p true

/-- The device-started bulk collective that waits begins once its group is free. -/
def startPending (s : State) (p : Nat) : State :=
  match (getTrain s p).startDue, redSlot s p with
  | some gather, some slot =>
    let g := getGrp s slot
    if g.bulk.isSome || g.aborting.isSome then s
    else startDevBulk (setTrain (setGrp s slot { g with devBulk := false }) p { getTrain s p with startDue := none }) p gather
  | _, _ => s

/-- What follows an abort in a group: the collectives that wait, and the vote of an aborted exchange. -/
def afterAbort (s : State) (slot : Nat) : State :=
  let g := getGrp s slot
  let s := afterCol s slot
  if g.device then tryVote (startPending s g.part) g.part else s

/-- A program-issued bulk collective completes (R309). -/
def execCollectiveComplete (slot : Nat) (s : State) : Host.Outcome State Fault Refusal :=
  let g := getGrp s slot
  match g.bulk with
  | some b =>
    match b.owner with
    | some o =>
      if g.valid ∧ g.aborting.isNone ∧ b.done (grpGeo s g b.sig) then
        let s := countCol (setGrp s slot ({ g with bulk := none }).settle) g.part false
        .next (afterAbort (finishCol s o [] (colStatus 0 b.sigLost b.overflow)) slot)
      else .next s
    | none => .next s
  | none => .next s

def execGradientChunkArrival (p : Nat) (c : GradChunk) (s : State) : Host.Outcome State Fault Refusal :=
  match redSlot s p with
  | some slot => if (getGrp s slot).gid = c.sig.gid then .next (afterAbort (arriveGrad s p slot c) slot) else .next s
  | none => .next s

/-! ### Handlers (R244, R425) -/

/-- The core group of the optimizer handler, cut to the partition. -/
def handlerGroup (s : State) (p : Nat) (r : ManReduce) : Nat × Nat :=
  cutGroup (coresOf s p).length (some (r.groupFirst, r.groupLast))

/-- The arguments of a handler task (R244). -/
def handlerArgs (s : State) (p : Nat) (f : GFlow) (n : Nat) (v : ReadyChunk) : List Word :=
  let g2 := (f.geo.r * shardChunks f.geo + v.c) * 1024
  let g8 := n % 8192 + 2 ^ 16 * bnat (f.comp == 2) + 2 ^ 17 * bnat (f.comp == 1)
  [v.c, g2, 1024, xchStep s p, bankOf s p, lossScale s p, v.mag, g8].map (BitVec.ofNat 64)

/-- A ready chunk enters a core's chunk buffer and its handler is spawned there (R244). -/
def deliverChunk (s : State) (p slot x : Nat) (r : ManReduce) (b : Bulk) (e : Xch) (v : ReadyChunk) : State :=
  let f := gflow s p slot e.comp b.sig
  let hg := handlerGroup s p r
  let l := hg.1 + v.c % max 1 hg.2
  let core := physCore s p l
  let e := { e with
    ready := e.ready.filter (· != v), delivered := e.delivered ++ [v.c], nfx := e.nfx || v.nonfinite
    nfFirst := if v.nonfinite && e.nfCount == 0 then f.geo.r * shardChunks f.geo + v.c else e.nfFirst
    nfCount := e.nfCount + bnat v.nonfinite }
  let s := setTrain s p { getTrain s p with xch := some e }
  let s := { s with chunkBufs := Sparse.set [] s.chunkBufs core (Sparse.get [] s.chunkBufs core ++ [(p, v.c, v.vals)]) }
  let s := setFld (bump s (Reg.OPT_CHUNKS p) Fld.OPT_CHUNKS_DISPATCHED 1) (Reg.OPT_PART p) Fld.OPT_PART_BUSY 1
  spawnTask s x true
    { entry := r.entry, args := handlerArgs s p f (getGrp s slot).members.length v, tid := 0, home := l, group := some (l, l)
      kind := .optHandler p v.c, bound := .none }

def execHandlerChunkDelivery (p c : Nat) (s : State) : Host.Outcome State Fault Refusal :=
  match redSlot s p, reduceOf s p with
  | some slot, some (x, r) =>
    match (getGrp s slot).bulk, (getTrain s p).xch with
    | some b, some e =>
      match e.ready.find? (fun v => v.c == c) with
      | some v =>
        let hg := handlerGroup s p r
        let core := physCore s p (hg.1 + c % max 1 hg.2)
        if b.agreed && !e.aborted && (getGrp s slot).aborting.isNone && !(getCkpt s p).snap
            && decide ((Sparse.get [] s.chunkBufs core).length < 4) then
          .next (deliverChunk s p slot x r b e v)
        else .next s
      | none => .next s
    | _, _ => .next s
  | _, _ => .next s

/-- A handler task's K.END completes: its chunk buffer is free, and the device may vote (R244, R247). -/
def handlerDone (s : State) (x l p c : Nat) : State :=
  let core := physCore s (getCtx s x).part l
  let left := (Sparse.get [] s.chunkBufs core).filter (fun v => !(v.1 == p && v.2.1 == c))
  let s := { s with chunkBufs := Sparse.set [] s.chunkBufs core left }
  match (getTrain s p).xch with
  | some e =>
    let e := { e with ended := e.ended ++ [c] }
    let s := setTrain s p { getTrain s p with xch := some e }
    let s := if e.delivered.all (fun d => e.ended.contains d) then setFld s (Reg.OPT_PART p) Fld.OPT_PART_BUSY 0 else s
    tryVote s p
  | none => s

/-! ### Late members (R249 to R253) -/

/-- Whether a member's first chunk is late here: the beats waited. -/
def lateBy (s : State) (p rank round : Nat) : Option Nat :=
  match redSlot s p with
  | none => none
  | some slot => match (getGrp s slot).bulk, (getTrain s p).xch with
    | some b, some e =>
      let geo := grpGeo s (getGrp s slot) b.sig
      let limit := fld s (Reg.GRD_DEADLINE p) Fld.GRD_DEADLINE_BEATS
      match e.entered.find? (fun v => v.1 == round) with
      | some v =>
        if limit ≠ 0 ∧ !e.aborted ∧ geo.partner (false, round) = some rank ∧ !b.heard.contains (false, round)
            ∧ v.2 + limit ≤ beat s then some (beat s - v.2) else none
      | none => none
    | _, _ => none

/-- The backup is taken for a late member (R252): the rounds in which it is awaited are counted anew. -/
def promote (e : Xch) (rank now : Nat) (rounds : List Nat) : Xch :=
  { e with promoted := e.promoted ++ [rank], entered := e.entered.map (fun v => if rounds.contains v.1 then (v.1, now) else v) }

/-- Whether this member exchanges with a rank in any round. -/
def meets (s : State) (p slot rank : Nat) : Bool :=
  match (getGrp s slot).bulk, (getTrain s p).xch with
  | some b, some e =>
    let geo := (gflow s p slot e.comp b.sig).geo
    geo.stages.any (fun st => geo.partner st == some rank)
  | _, _ => false

/-- A member is late here (R249 to R253): the exchange repeats, or its backup is taken. The late rank is fenced; its backup, and a
member that never meets it, learn of the promotion. DESIGN CHOICE (log entry 74): the spec does not say how they learn of it, so the
same command tells them. -/
def execGrdLate (p rank round : Nat) (s : State) : Host.Outcome State Fault Refusal :=
  let role := Reg.GRD_ROLE p
  match redSlot s p, (getTrain s p).xch with
  | some slot, some e =>
    let learn : State :=
      if e.promoted.contains rank ∨ e.aborted then s
      else if e.promoted.isEmpty then
        gradProgress (setTrain s p { getTrain s p with xch := some { e with promoted := [rank] } }) p slot
      else match (getGrp s slot).bulk with
        | some b => afterAbort (detectAbort s slot false b.sig.seq .check) slot
        | none => s
    if flg s role Fld.GRD_ROLE_BACKUP_ROLE && fld s role Fld.GRD_ROLE_SHADOW == rank then .next learn
    else if fld s role Fld.GRD_ROLE_RANK = rank then .next (setTrain s p { getTrain s p with fenced := true })
    else match lateBy s p rank round with
      | none => .next (if hasBackup s p rank && !meets s p slot rank then learn else s)
      | some waited =>
        let take := flg s (Reg.GRD_PART p) Fld.GRD_PART_POLICY && hasBackup s p rank && e.promoted.isEmpty
        let action := if take then 2 else if exhausted s p then 3 else 1
        let s := bump s (Reg.GRD_FAULT p) Fld.GRD_FAULT_LATE 1
        let s := raisePart s p 0x0701 sevCorrected (redGid s p) rank round action waited
        if take then
          .next (setTrain s p { getTrain s p with xch := some (promote e rank (beat s) [round]) })
        else match (getGrp s slot).bulk with
          | some b => .next (afterAbort (detectAbort s slot false b.sig.seq .check) slot)
          | none => .next s
  | none, _ => .next s
  | some _, none =>
    if fld s role Fld.GRD_ROLE_RANK = rank ∧ !flg s role Fld.GRD_ROLE_BACKUP_ROLE then
      .next (setTrain s p { getTrain s p with fenced := true })
    else .next s

/-! ### The end of the gather (R248) -/

/-- The parameter gather ends once it is complete at this device: the step gate opens and a snapshot that is due begins
(R217, R248, R425); none before. -/
def gatherDone (s : State) (p : Nat) : Option State :=
  match redSlot s p with
  | none => none
  | some slot =>
    let g := getGrp s slot
    match g.bulk with
    | some b =>
      if (getTrain s p).gather ∧ g.aborting.isNone ∧ b.owner.isNone ∧ b.done (grpGeo s g b.sig) then
        let s := countCol (setGrp s slot ({ g with bulk := none }).settle) p false
        let s := setTrain s p { getTrain s p with gather := false }
        let s := if (getCkpt s p).snap then setPhase s p 1 else s
        some (afterCol (openGate s p false) slot)
      else none
    | none => none

/-! ### Outcomes (R219, R223, R246, R247, R252) -/

/-- A group in its next generation (R294, R306, R311): poison and aborts are over, device-started operations are gone, and the chunks
held for that generation or a later one stay. A program's operation in progress stays too, and ends by its timeout. -/
def Grp.renew (g : Grp) : Grp :=
  let gen := (g.gen + 1) % 65536
  Grp.settle { g with
    gen := gen, seq := 0, wseq := 0, st := 0, notices := [], staged := g.staged.filter (fun c => decide (gen ≤ c.sig.gen))
    aborting := Option.none, naming := Option.none, poison := 0, devWags := [], devBulk := false
    bulk := g.bulk.filter (fun b => b.owner.isSome)
    wag := g.wag.filter (fun w => match w.owner with
      | .instr .. => true
      | _ => false) }

/-- Whether a contribution belongs to a generation that a group of the partition leaves. -/
def renewed (s : State) (p : Nat) (sig : Sig) : Bool :=
  s.grps.any (fun e => e.2.valid && e.2.part == p && e.2.gid == sig.gid && decide (sig.gen ≤ e.2.gen))

/-- The groups of a partition take a new generation (R294, R311). -/
def newGeneration (s : State) (p : Nat) : State :=
  { s with
    grps := s.grps.map (fun e => if e.2.valid && e.2.part == p then (e.1, e.2.renew) else e)
    trees := s.trees.map (fun e => (e.1, { e.2 with contribs := e.2.contribs.filter (fun c => !renewed s p c.2.1) }))
    train := Sparse.set Train.idle s.train p { getTrain s p with startDue := none } }

/-- A promoted backup is a backup no more: nothing more is sent to it as a copy (R252). -/
def dropBackup (p : Nat) (e : Nat × Nat) (s : State) : State :=
  (ctxsOf s p).foldl (fun s x =>
    let c := getCtx s x
    setCtx s x { c with man := c.man.map (fun m => { m with
      reduce := m.reduce.map (fun (r : ManReduce) => { r with backups := r.backups.filter (· != e) })
      stage := m.stage.map (fun (g : ManStage) => { g with backups := g.backups.filter (fun b => b.2 != e.2) }) }) }) s

/-- A backup is rank `r` from the next step on, and the items that it held leave (R252). -/
def becomeRank (p : Nat) (s : State) (r : Nat) : State :=
  let role := Reg.GRD_ROLE p
  let s := setFld s role Fld.GRD_ROLE_BACKUPS_LEFT (fld s role Fld.GRD_ROLE_BACKUPS_LEFT - 1)
  match redSlot s p, reduceOf s p with
  | some slot, some (x, m) =>
    let job := (getGrp s slot).members.getD r 0
    let s := match m.backups.find? (fun e => e.1 == r) with
      | some e => dropBackup p e (moveRank s job (Sparse.get none s.ranks e.2))
      | none => s
    if flg s role Fld.GRD_ROLE_BACKUP_ROLE && fld s role Fld.GRD_ROLE_SHADOW == r then
      let s := setFld (setFld s role Fld.GRD_ROLE_RANK r) role Fld.GRD_ROLE_BACKUP_ROLE 0
      let c := getCtx s x
      pumpStageItems (setCtx s x { c with man := c.man.map (fun m => { m with ranks := m.ranks.map (fun v => (job, v.2)) }) }) p
    else s
  | _, _ => s

/-- What promotions of an exchange leave behind as it ends: fenced contexts stop, backups take their ranks, and every group
takes a new generation (R252). -/
def settlePromoted (s : State) (p : Nat) (e : Xch) : State :=
  let s := if (getTrain s p).fenced then setTrain (stopPart s p) p { getTrain (stopPart s p) p with fenced := false } else s
  if e.promoted.isEmpty then s else newGeneration (e.promoted.foldl (becomeRank p) s) p

/-- The bank flips, and the gather follows (R246, R247). -/
def commitExchange (s : State) (p : Nat) (due busy : Bool) : State :=
  let k := xchStep s p
  let a := fld s (Reg.BRD_STEP p) Fld.BRD_STEP_ATTEMPT
  let s := setFld s (Reg.OPT_PART p) Fld.OPT_PART_BANK (1 - bankOf s p)
  let s := bump s (Reg.OPT_COMMITS p) Fld.OPT_COMMITS_COMMITS 1
  let s := setFld (setFld s (Reg.OPT_LAST p) Fld.OPT_LAST_STEP k) (Reg.OPT_LAST p) Fld.OPT_LAST_ATTEMPT a
  let s := windowOver (scaleUpdate s p false) p
  let s := if due && !busy && decide (fld s (Reg.CKP_AREA p) Fld.CKP_AREA_AREA_COUNT ≠ 0) then beginGeneration s p else s
  startGather s p

/-- The window is repeated (R223): the host learns of the rewind (R454). -/
def repeatWindow (s : State) (p : Nat) : State :=
  let s := bump s (Reg.GRD_FAULT p) Fld.GRD_FAULT_REPEATS 1
  let s := rewindStep s p (fld s (Reg.BRD_STEP p) Fld.BRD_STEP_ATTEMPT + 1)
  let s := pushEvent s (.rewind p (rd s (Reg.BRD_CURSOR p)).toNat (stepNo s p) (attemptNo s p))
  checkExhausted s p

/-- The vote returns (R247): what its tree has brought, or else the operands. -/
def execCommitVoteResult (p : Nat) (halt rpt nfx due busy : Bool) (s : State) : Host.Outcome State Fault Refusal :=
  match (getTrain s p).xch with
  | none => .next s
  | some e =>
    if !e.voted then .next s
    else
      let (s, r) := devTake s p .vote
      let nfx := (r.map (fun v => decide (v.headD 0 ≠ 0))).getD nfx
      let rpt := (r.map (fun v => decide (v.getD 1 0 ≠ 0))).getD rpt
      let halt := (r.map (fun v => decide (v.getD 2 0 ≠ 0))).getD halt
      let due := (r.map (fun v => (v.getD 3 0).toNat.testBit 0)).getD due
      let busy := (r.map (fun v => (v.getD 3 0).toNat.testBit 1)).getD busy
      let s := settlePromoted (endExchange s p) p e
      let s := setFld s (Reg.BRD_STEP p) Fld.BRD_STEP_NF_LAST (bnat nfx)
      let s := retryCopy s p
      .next (if halt then stopPart s p
        else if rpt then repeatWindow s p
        else if nfx then skipWindow s p
        else commitExchange s p due busy)

/-- The OR result of a step end returns (R216, R217, R219, R227): what its tree has brought, or else the operand. -/
def execStepEndOrResult (p : Nat) (orResult : Bool) (s : State) : Host.Outcome State Fault Refusal :=
  let t := getTrain s p
  if !t.orWait || t.xch.isSome || t.gather || t.startDue.isSome then .next s
  else
    let (s, r) := devTake s p .stepOr
    let orResult := (r.map (fun v => decide (v.headD 0 ≠ 0))).getD orResult
    let s := setFld s (Reg.BRD_STEP p) Fld.BRD_STEP_NF_LAST (bnat orResult)
    if orResult then .next (skipWindow s p)
    else
      let closes := decide (accumSteps s p ≤ t.winSteps + 1)
      let s := setTrain s p { getTrain s p with winSteps := t.winSteps + 1, wagSince := none }
      if closes then
        if (redSlot s p).isSome && (reduceOf s p).isSome then .next (startExchange s p)
        else .next (openGate (windowOver (scaleUpdate s p false) p) p false)
      else .next (openGate (scaleUpdate s p false) p false)

/-! ### Aborts and timeouts from outside (R306, R307, R311, R320) -/

/-- An abort notice reaches this member (R306, R307). -/
def execAbortNoticeArrival (slot gen seq : Nat) (waggle : Bool) (reason : AbortReason) (s : State) : Host.Outcome State Fault Refusal :=
  let g := getGrp s slot
  let done := if waggle then decide (seq < g.wseq) && (g.wag.map (·.sig.seq)) != some seq
    else decide (seq < g.seq) && (g.bulk.map (·.sig.seq)) != some seq
  if !g.valid || g.gen != gen || g.st == 3 || (done && g.aborting.isNone) then .next s
  else .next (afterAbort (applyAbort s slot waggle seq reason) slot)

/-- Whether COL_CTL.TMO beats have passed since one (R307, R320). -/
def tmoPassed (s : State) (since : Nat) : Bool := decide (since + max 1 (fld s Reg.COL_CTL Fld.COL_CTL_TMO) ≤ beat s)

/-- One COL_MISMATCH record, and the collective completes with MISMATCH (R306 step 4, R321). -/
def finishNaming (s : State) (slot rankA : Nat) (sigA : Sig) (rankB : Nat) (sigB : Sig) (waggle : Bool) (seq : Nat) : State :=
  let s := raiseGrp s (getGrp s slot) 0x0601 (rankA % 4096 + 4096 * (rankB % 4096)) sigA.w0.toNat sigA.w1.toNat sigB.w0.toNat sigB.w1.toNat
  afterAbort (endAborted s slot waggle seq .mismatch) slot

/-- The naming of a mismatch is complete (R306): with what the group's tree has brought, or else, once the naming has begun or could
have, with the operands, which count for the reductions still to come (R324). -/
def execAbortNaming (slot rankA : Nat) (sigA : Sig) (rankB : Nat) (sigB : Sig) (s : State) : Host.Outcome State Fault Refusal :=
  let g := getGrp s slot
  match g.aborting with
  | some (waggle, seq, _, since) =>
    match g.naming with
    | some n =>
      if n.step = 4 then .next (finishNaming s slot n.rankA n.sigA n.rankB n.sigB waggle seq)
      else .next (finishNaming (bump s Reg.WGL_STAT Fld.WGL_STAT_REDUCTIONS (4 - n.step)) slot rankA sigA rankB sigB waggle seq)
    | none =>
      if tmoPassed s since then
        .next (finishNaming (bump s Reg.WGL_STAT Fld.WGL_STAT_REDUCTIONS 4) slot rankA sigA rankB sigB waggle seq)
      else .next s
  | none => .next s

/-- A chunk of a partner has not come for COL_CTL.TMO beats (R307). -/
def execColTimeout (slot awaited stage : Nat) (s : State) : Host.Outcome State Fault Refusal :=
  let g := getGrp s slot
  match g.bulk with
  | none => .next s
  | some b =>
    let geo := grpGeo s g b.sig
    let tmo := max 1 (fld s Reg.COL_CTL Fld.COL_CTL_TMO)
    let waits := geo.mine.filter (fun st => st.2 == stage && geo.partner st == some awaited)
    let fresh := waits.any (fun st => !b.heard.contains st)
    let since := if fresh then b.beat else b.last
    let ended := match (getTrain s g.part).xch with
      | some e => b.owner.isNone && (e.aborted || e.voted)
      | none => false
    if g.valid ∧ g.aborting.isNone ∧ !waits.isEmpty ∧ !ended ∧ !b.done geo ∧ since + tmo ≤ beat s then
      let s := raiseGrp s g 0x0603 g.gid awaited (stage % 16) (beat s - since) b.sig.seq
      .next (afterAbort (detectAbort s slot false b.sig.seq .timeout) slot)
    else .next s

/-- A reduction of the naming has not returned for COL_CTL.TMO beats (R320). DESIGN CHOICE (log entry 73): the collective then
completes with MISMATCH and no record, since A and B are not named. -/
def expireNaming (s : State) (slot : Nat) : State :=
  let g := getGrp s slot
  match g.naming, g.aborting with
  | some n, some (waggle, seq, _, _) =>
    if n.wag.isSome && tmoPassed s n.since then
      afterAbort (endAborted (bump s Reg.WGL_FAULT Fld.WGL_FAULT_TIMEOUT 1) slot waggle seq .mismatch) slot
    else s
  | _, _ => s

/-- The step-end OR or the commit vote has not returned: its reduction aborts with TIMEOUT, or, where no tree carries it, it has
failed (R308, R320). -/
def expireDev (s : State) (p since : Nat) : State :=
  let s := bump (setTrain s p { getTrain s p with wagSince := none }) Reg.WGL_FAULT Fld.WGL_FAULT_TIMEOUT 1
  match redSlot s p with
  | none => devWagAborted s p false
  | some k =>
    let g := getGrp s k
    match g.wag with
    | some w => match w.owner with
      | .stepOr | .vote =>
        afterAbort (detectAbort (raiseWagTimeout s g w.sig.seq (beat s - since)) k true w.sig.seq .timeout) k
      | _ => devWagAborted (setGrp s k { g with devWags := [] }) p false
    | none => devWagAborted (setGrp s k { g with devWags := [] }) p false

/-- Device-started Waggle operations of a partition that have not returned for COL_CTL.TMO beats expire (R308, R320). -/
def execWaggleTimeout (p : Nat) (s : State) : Host.Outcome State Fault Refusal :=
  let s := ((s.grps.filter (fun e => e.2.valid && e.2.part == p)).map (·.1)).foldl expireNaming s
  match (getTrain s p).wagSince with
  | none => .next s
  | some b => if tmoPassed s b then .next (expireDev s p b) else .next s

end Sys2Proof.Machine
end

