-- ==== Sys2Proof/Machine/Lost.lean ====
section
/-! DEFINITION. Declaring a rank lost (R427, R430) and beginning the agreement of R428. -/

namespace Sys2Proof.Machine

/-- The job's contexts on this device: those of training partitions whose manifest holds a job rank table (R367). -/
def jobCtxs (s : State) : List Nat :=
  (residents s).filter (fun x => training s (getCtx s x).part && match manOf s x with
    | some m => m.ranks.isSome
    | none => false)

/-- The list index of a drone's context (R427). -/
def droneIndex (s : State) (x : Nat) : Option Nat := match manOf s x with
  | some m => match m.ckpt with
    | some k => k.droneIndex
    | none => none
  | none => none

/-- The training contexts of the job: the context with which a drone waits is none. -/
def jobTraining (s : State) : List Nat := (jobCtxs s).filter (fun x => (droneIndex s x).isNone)

/-- The partitions of the job's training contexts, ascending. -/
def jobParts (s : State) : List Nat := selectBelow 8 (fun p => (jobTraining s).any (fun x => (getCtx s x).part = p))

/-- CKP_PARTn.AUTO for the job (R427). -/
def autoTakeover (s : State) : Bool :=
  (jobCtxs s).any (fun x => flg s (Reg.CKP_PART (getCtx s x).part) Fld.CKP_PART_AUTO)

/-- The drone's state (R440). -/
def droneState (s : State) : Nat := fld s Reg.CKP_DRONE Fld.CKP_DRONE_STATE
def setDroneState (s : State) (v : Nat) : State := setFld s Reg.CKP_DRONE Fld.CKP_DRONE_STATE v

/-- Whether this device is a drone that has taken no rank (R427, R440). -/
def waitingDrone (s : State) : Bool := flg s Reg.CKP_DRONE Fld.CKP_DRONE_ROLE && droneState s != 2

/-- The ranks this device holds: a drone holds none before it is ACTIVE. -/
def ownRanks (s : State) : List Nat := if waitingDrone s then [] else (jobTraining s).map (ownRank s)

/-- The takeover's state, fresh when none is known. -/
def getTakeover (s : State) : Takeover := s.takeover.getD ⟨[], false, [], none, [], [], [], none, [], []⟩

/-- The lowest rank known lost above the previous result, or 2^14 (R428 step 1). -/
def nextLost (t : Takeover) : Nat :=
  ((t.known.filter (fun r => decide (t.agreed.all (fun a => a < r)))).foldl min 16384)

/-- Drones are to be chosen afresh: one that is loading, or has loaded, is IDLE again (R428 step 3, R432). -/
def rechoose (s : State) : State :=
  let s := if droneState s = 1 then setDroneState s 0 else s
  { s with takeover := some { getTakeover s with chosen := [], loaded := [], mine := none } }

/-- Agreement begins, or begins again: the drones are chosen afresh, and restores already begun are run again (R428 step 1, R432). -/
def beginAgreement (s : State) : State :=
  let s := rechoose s
  let t := { getTakeover s with agreeing := true, agreed := [], kstar := none, restored := [] }
  let s := { s with takeover := some t, resume := s.resume.filter (fun e => (e.2.map (fun r => !r.rollback)).getD false) }
  emit ((jobParts s).foldl (fun s p => setPhase s p 3) s) (.agreement .lostRank (nextLost t))

/-- What is in progress in a group aborts with MEMBER_LOST, with a notice over its tree (R306, R307, R427). DESIGN CHOICE (log entry
75): a group that has a lost member and nothing in progress is POISONED all the same, as if its next sequence number had aborted. -/
def abortGroup (ranks : List Nat) (s : State) (slot : Nat) : State :=
  let g := getGrp s slot
  if g.bulk.isNone && g.wag.isNone && g.aborting.isNone then
    if ranks.any (fun r => g.members.contains r) then setGrp s slot (g.recordAbort false g.seq .memberLost) else s
  else
    let s := match g.bulk with
      | some b => detectAbort s slot false b.sig.seq .memberLost
      | none => s
    let s := match (getGrp s slot).wag with
      | some w => detectAbort s slot true w.sig.seq .memberLost
      | none => s
    afterAbort s slot

/-- Whether a group has lost one of some ranks, and is not POISONED for a loss already. -/
def Grp.lost (g : Grp) (ranks : List Nat) : Bool := g.valid && g.poison != 4 && ranks.any (fun r => g.members.contains r)

/-- Groups outside the job's training partitions that have one of some ranks as a member (R307). -/
def otherGroups (s : State) (ranks : List Nat) : List Nat :=
  let ps := jobParts s
  (s.grps.filter (fun e => !ps.contains e.2.part && e.2.lost ranks)).map (·.1)

/-- COL_MEMBER_LOST of a group (R321). -/
def recordMember (s : State) (g : Grp) (r : Nat) : State :=
  let seq := match g.bulk, g.wag with
    | some b, _ => b.sig.seq
    | none, some w => w.sig.seq
    | none, none => g.seq
  raiseGrp s g 0x0604 g.gid (g.members.idxOf r) r seq g.gen

/-- The groups of serving partitions lose their members (R307): a record for each, and their collectives abort. -/
def loseOthers (s : State) (ranks : List Nat) : State :=
  (otherGroups s ranks).foldl (fun s k =>
    let g := getGrp s k
    match ranks.find? (fun r => g.members.contains r) with
    | some r => abortGroup ranks (recordMember s g r) k
    | none => s) s

/-- A loss reaches this device: the job's training contexts stop and their collectives abort (R427); the agreement begins
under AUTO or on the host's word, and begins again at a further loss in a takeover (R432). A device named lost itself takes no part (R430). -/
def lossHere (s : State) (ranks : List Nat) (takeover : Bool) : State :=
  let t := getTakeover s
  let fresh := ranks.filter (fun r => !t.known.contains r)
  let named := (ownRanks s).any (fun r => ranks.contains r)
  let auto := autoTakeover s
  let ps := jobParts s
  let slots := (s.grps.filter (fun e => e.2.valid && ps.contains e.2.part)).map (·.1)
  let s := (jobTraining s).foldl stopCtx s
  let s := slots.foldl (abortGroup ranks) s
  let s := ps.foldl (fun s p => deviceAbort s p .memberLost) s
  let s := { s with takeover := some { t with known := t.known ++ fresh } }
  if named then s
  else if (auto && (!fresh.isEmpty || !t.agreeing)) || takeover || (inTakeover s && !fresh.isEmpty) then beginAgreement s
  else s

/-- COL_MEMBER_LOST for a job rank (R321, R427): it names the first group of the job with that member, or group 0. -/
def recordLost (s : State) (r : Nat) : State :=
  match s.grps.find? (fun e => e.2.valid && e.2.members.contains r && (jobParts s).contains e.2.part) with
  | some (_, g) => recordMember s g r
  | none => raiseDev s 0x0604 sevError 0 0 r 0 0

/-- This device declares ranks lost: the groups of serving partitions lose them (R307); of a job with training partitions, one record
each, and a loss notice over the job's tree (R427). A rank already lost is merged (R432). -/
def declareLost (s : State) (ranks : List Nat) : State :=
  let s := loseOthers s ranks
  let fresh := ranks.filter (fun r => !(getTakeover s).known.contains r)
  if fresh.isEmpty || (jobCtxs s).isEmpty then s
  else lossHere (emit (fresh.foldl recordLost s) (.lossNotice fresh false)) fresh false

/-- The ranks of the job whose device has this address. -/
def ranksAt (s : State) (a : Nat) : List Nat := (s.ranks.filter (fun e => e.2 == some a)).map (·.1)

/-- LOSS_NOTICE_ARRIVAL: the notice goes onward over the tree and acts here (R427, R430). -/
def execLossNoticeArrival (x : Nat) (ranks : List Nat) (takeover : Bool) (s : State) : Host.Outcome State Fault Refusal :=
  if (manOf s x).isSome then .next (lossHere (emit s (.lossNotice ranks takeover)) ranks takeover) else .next s

/-- CKP_CMD.DECLARE (R427, R432). -/
def execCkpCmdDeclare (p rank : Nat) (s : State) : Host.Outcome State Fault Refusal :=
  if (jobCtxs s).any (fun x => (getCtx s x).part = p) then .next (declareLost s [rank % 16384]) else .next s

/-- CKP_CMD.TAKEOVER: the notice goes out again, and the agreement begins, when AUTO is 0 (R427). -/
def execCkpCmdTakeover (p : Nat) (s : State) : Host.Outcome State Fault Refusal :=
  let known := (getTakeover s).known
  if !flg s (Reg.CKP_PART p) Fld.CKP_PART_AUTO && !known.isEmpty && (jobCtxs s).any (fun x => (getCtx s x).part = p) then
    .next (lossHere (emit s (.lossNotice known true)) known true)
  else .next s

end Sys2Proof.Machine
end

