-- ==== Sys2Proof/Machine/Ports.lean ====
section
/-! DEFINITION. Fabric ports: buffers and credits (R364), routing and forwarding (R367 to R371), lane, laser and port loss
(R375 to R379), and the start of Swarm and of its rebuilds (R372, R373). A packet is forwarded when its last unit is in
(R364; log entry 16). -/

namespace Sys2Proof

/-! ### The trailer (R359) -/

def LinkUnit.lseq (u : LinkUnit) : Nat := u.trailer.toNat % 4096
def LinkUnit.lack (u : LinkUnit) : Nat := u.trailer.toNat / 2 ^ 12 % 4096
def LinkUnit.vc (u : LinkUnit) : Nat := u.trailer.toNat / 2 ^ 24 % 8
def LinkUnit.cls (u : LinkUnit) : Nat := u.trailer.toNat / 2 ^ 27 % 2
def LinkUnit.last (u : LinkUnit) : Bool := u.trailer.getLsbD 28
def LinkUnit.nak (u : LinkUnit) : Bool := u.trailer.getLsbD 29
def LinkUnit.c0 (u : LinkUnit) : Bool := u.trailer.getLsbD 30
def LinkUnit.psn (u : LinkUnit) : Bool := u.trailer.getLsbD 31
def LinkUnit.idle (u : LinkUnit) : Bool := u.body.isEmpty

/-- LCRC of a body and trailer bits [31:0] (R359). -/
def lcrc (body : List Byte) (lo : Nat) : Nat := Machine.crc32c (body ++ Machine.leBytes 4 lo)

/-- Whether a unit's LCRC is right. -/
def LinkUnit.lcrcOk (u : LinkUnit) : Bool := u.trailer.toNat / 2 ^ 32 == lcrc u.body (u.trailer.toNat % 2 ^ 32)

/-- A trailer: LSEQ, LACK, VC, CLS, LAST, NAK, C0, PSN and LCRC. -/
def mkTrailer (body : List Byte) (lseq lack vc cls : Nat) (last nak c0 psn : Bool) : BitVec 64 :=
  let lo := lseq % 4096 + 2 ^ 12 * (lack % 4096) + 2 ^ 24 * (vc % 8) + 2 ^ 27 * (cls % 2) + 2 ^ 28 * Machine.bnat last
    + 2 ^ 29 * Machine.bnat nak + 2 ^ 30 * Machine.bnat c0 + 2 ^ 31 * Machine.bnat psn
  BitVec.ofNat 64 (lo + 2 ^ 32 * lcrc body lo)

/-! ### The packet header and the bodies of a packet's units (R360) -/

/-- The 8-byte header. -/
def Packet.header (p : Packet) : List Byte :=
  Machine.leBytes 2 (p.dest % 16384 + 2 ^ 14 * (p.ep % 2) + 2 ^ 15 * Machine.bnat p.esc) ++ Machine.leBytes 2 (p.src % 16384)
    ++ Machine.leBytes 1 (p.vc % 8) ++ Machine.leBytes 1 (p.hops % 64) ++ Machine.leBytes 2 (p.data.length % 8192)

/-- The bytes of a unit's body on a channel. -/
def unitBytes (vc : Nat) : Nat := if vc = 1 then 64 else 256

/-- The units a packet takes: flits of 256 bytes; on VC1 one Waggle cell. -/
def Packet.units (p : Packet) : Nat := if p.vc = 1 then 1 else Machine.ceilDiv (8 + p.data.length) 256

/-- The bodies of a packet's units, the last filled with zeros. -/
def Packet.bodies (p : Packet) : List (List Byte) :=
  let n := unitBytes p.vc
  let bs := p.header ++ p.data ++ List.replicate (p.units * n - (8 + p.data.length)) 0
  (List.range p.units).map (fun i => (bs.drop (i * n)).take n)

/-- The packet that bodies joined spell; none where they are no packet of that channel: LEN out of range, a number of units that LEN
does not give, or unused bytes that are not zero. -/
def readPacket (vc : Nat) (bs : List Byte) : Option Packet :=
  let w0 := Machine.leField bs 0 2
  let len := Machine.leField bs 6 2 % 8192
  let p : Packet := ⟨w0 % 16384, w0 / 2 ^ 14 % 2, decide (w0 / 2 ^ 15 % 2 = 1), Machine.leField bs 2 2 % 16384,
    Machine.leField bs 4 1 % 8, Machine.leField bs 5 1 % 64, (bs.drop 8).take len⟩
  if p.vc = vc ∧ 1 ≤ len ∧ len ≤ (if vc = 1 then 56 else 4344) ∧ bs.length = p.units * unitBytes vc
      ∧ (bs.drop (8 + len)).all (· == 0) then some p
  else none

end Sys2Proof

namespace Sys2Proof.Machine

def getPort (s : State) (k : Nat) : Port := Sparse.get Port.none s.ports k
def setPort (s : State) (k : Nat) (v : Port) : State := { s with ports := Sparse.set Port.none s.ports k v }

/-- STATE of a port: 0 DOWN, 1 TRAINING, 2 UP, 3 DISABLED. -/
def portState (s : State) (k : Nat) : Nat := fld s (Reg.FAB_PSTATk k) Fld.FAB_PSTATk_STATE
def setPortState (s : State) (k v : Nat) : State := setFld s (Reg.FAB_PSTATk k) Fld.FAB_PSTATk_STATE v
def remoteUid (s : State) (k : Nat) : Nat := (rd s (Reg.FAB_PIDk k)).toNat
def ownUid (s : State) : Nat := (rd s Reg.FAB_UID).toNat

/-- The device's address, once assigned. -/
def ownAddr (s : State) : Option Nat :=
  if flg s Reg.FAB_ADDR Fld.FAB_ADDR_VALID then some (fld s Reg.FAB_ADDR Fld.FAB_ADDR_ADDR) else none

def epoch (s : State) : Nat := fld s Reg.FAB_SWARM Fld.FAB_SWARM_EPOCH
def swarmPhase (s : State) : Nat := fld s Reg.FAB_SWARM Fld.FAB_SWARM_PHASE
def setSwarmPhase (s : State) (v : Nat) : State := setFld s Reg.FAB_SWARM Fld.FAB_SWARM_PHASE v

/-- A port is enabled when its EN and its engine's LASER_EN are 1 (R354, R382). -/
def portEnabled (s : State) (k : Nat) : Bool :=
  flg s (Reg.FAB_PCTLk k) Fld.FAB_PCTLk_EN && flg s (Reg.FAB_ENG (k / 4)) Fld.FAB_ENG_LASER_EN

/-- A rebuild starts from ELECT once Swarm is past LINKS (R373). -/
def startRebuild (s : State) : State :=
  if 2 ≤ swarmPhase s then
    setSwarmPhase (bump { s with swarm := { s.swarm with began := beat s } } Reg.FAB_SWARM Fld.FAB_SWARM_REBUILDS 1) 2
  else s

/-! ### Units, buffers and credits (R357, R360, R364) -/

/-- The units a packet takes. -/
def packetUnits (p : Packet) : Nat := p.units

/-- A receive buffer in units (R364): VC1's 16 flits hold 64 cells. -/
def bufUnits (vc : Nat) (esc : Bool) : Nat :=
  match vc, esc with
  | 0, true => 64
  | 1, true => 64
  | 2, false => 512
  | 2, true => 64
  | 3, false => 128
  | 3, true => 32
  | 4, false => 128
  | 4, true => 32
  | 5, true => 128
  | 6, false => 128
  | 6, true => 32
  | 7, true => 64
  | _, _ => 0

/-- VC2, VC3, VC4 and VC6 have an adaptive class. -/
def adaptiveVc (vc : Nat) : Bool := vc == 2 || vc == 3 || vc == 4 || vc == 6

def creditKey (vc : Nat) (esc : Bool) : Nat := vc * 2 + bnat esc

/-- Free units of a buffer at the far end of a port. -/
def creditsOf (s : State) (k vc : Nat) (esc : Bool) : Nat :=
  ((getPort s k).credits.lookup (creditKey vc esc)).getD (bufUnits vc esc)

def setCredits (s : State) (k vc : Nat) (esc : Bool) (n : Nat) : State :=
  let p := getPort s k
  setPort s k { p with
    credits := (creditKey vc esc, min n (bufUnits vc esc)) :: p.credits.filter (fun e => e.1 != creditKey vc esc) }

/-- A port whose engine's FCLK is held in reset does nothing (R397). -/
def portHeld (s : State) (k : Nat) : Bool := clkHeld s (18 + k / 4)

/-- A port may send a packet in a class: it is UP, the far buffer takes all its flits, and the retry buffer has room
(R362, R364). -/
def portTakes (s : State) (k : Nat) (esc : Bool) (p : Packet) : Bool :=
  portState s k == 2 && !portHeld s k && decide (packetUnits p ≤ creditsOf s k p.vc esc)
    && decide ((getPort s k).retry.length + packetUnits p ≤ 1024)

/-- `n` units of a buffer of a port are free: their credits return to the neighbour, those of VC0 in trailers (R364). -/
def freeUnits (s : State) (k vc : Nat) (esc : Bool) (n : Nat) : State :=
  if vc = 0 then setPort s k { getPort s k with c0Due := (getPort s k).c0Due + n } else emit s (.credit k vc (bnat esc) n)

/-- The buffer that a packet leaves. -/
def freeBuffer (s : State) (t : Transit) : State :=
  match t.inPort with
  | some k => freeUnits s k t.pkt.vc t.inEsc (packetUnits t.pkt)
  | none => s

/-- The units of a packet in the retry buffer. -/
def unitsFrom (lseq id n : Nat) : List TxUnit := (List.range n).map (fun i => ⟨(lseq + i) % 4096, id, i + 1 == n, 0⟩)

/-- The trailers of a packet's units as a port sends them (R359). -/
def packetTrailers (p : Port) (q : Packet) (esc psn : Bool) : List (BitVec 64) :=
  (q.bodies.zipIdx).map (fun e => mkTrailer e.1 ((p.nextOut + e.2) % 4096) p.lastIn q.vc (bnat esc) (e.2 + 1 == q.units) false
    (decide (e.2 < p.c0Due)) psn)

/-- A packet leaves by a port in a class (R359, R362, R367, R369). -/
def sendOn (s : State) (k : Nat) (esc : Bool) (t : Transit) : State :=
  let n := packetUnits t.pkt
  let out := { t with pkt := { t.pkt with
    esc := t.pkt.esc || (esc && adaptiveVc t.pkt.vc), hops := if t.inPort.isSome then t.pkt.hops - 1 else t.pkt.hops } }
  let s := freeBuffer (setCredits s k t.pkt.vc esc (creditsOf s k t.pkt.vc esc - n)) t
  let p := getPort s k
  let s := setPort s k { p with
    nextOut := (p.nextOut + n) % 4096, retry := p.retry ++ unitsFrom p.nextOut t.id n, sent := p.sent ++ [out], c0Due := p.c0Due - n }
  emit (bump s (Reg.FAB_PTXk k) Fld.FAB_PTXk_UNITS n) (.packet k esc t.psn out.pkt (packetTrailers p out.pkt esc t.psn))

/-! ### Stage items in packets (R200, R364) -/

/-- The address that the job rank table gives a rank (R367). -/
def rankAddr (s : State) (r : Nat) : Option Nat := Sparse.get none s.ranks r

/-- The header that each packet of a stage item carries. DESIGN CHOICE (log entry 63): its layout, with the packet's number and how many
make up the item. -/
def itemHeader (i : StageItem) (k n : Nat) : List Byte :=
  leBytes 6 i.step ++ leBytes 1 i.attempt ++ leBytes 1 i.vstage ++ leBytes 2 i.index ++ leBytes 3 k ++ leBytes 3 n

/-- The payloads of a stage item's packets, of at most 4,344 bytes. -/
def itemPayloads (i : StageItem) : List (List Byte) :=
  let n := max 1 (ceilDiv i.data.length 4328)
  (List.range n).map (fun k => itemHeader i k n ++ (i.data.drop (4328 * k)).take 4328)

/-- The job rank of the device at a position of a partition's replica, and of that device's backup. -/
def stageRank (g : ManStage) (pos : Nat) (copy : Bool) : Option Nat :=
  if copy then (g.backups.find? (fun e => e.1 == pos)).map (·.2) else g.ranks[pos]?

/-- The partition whose replica holds the device of an address, its context and geometry. -/
def stageFrom (s : State) (src : Nat) : Option (Nat × Nat × ManStage) :=
  (List.range 8).findSome? (fun p => (stageOf s p).bind (fun e =>
    if (e.2.ranks ++ e.2.backups.map (·.2)).any (fun r => rankAddr s r == some src) then some (p, e.1, e.2) else none))

/-- A packet of a stage item joins those that have come; the item is capped when all have (R364). -/
def takeStagePacket (s : State) (q : Packet) : State :=
  match stageFrom s q.src with
  | none => s
  | some (p, x, g) =>
    let fresh : ItemPart := ⟨q.vc == 4, q.src, leField q.data 0 6, leField q.data 6 1, leField q.data 8 2, leField q.data 7 1,
      leField q.data 13 3, []⟩
    let same (e : ItemPart) : Bool := { e with got := [] } == fresh
    let t := getTrain s p
    let old := ((t.items.find? same).map (·.got)).getD []
    let got := old.filter (fun e => e.1 != leField q.data 10 3) ++ [(leField q.data 10 3, q.data.drop 16)]
    let others := t.items.filter (fun e => !same e)
    if got.length < fresh.count then setTrain s p { t with items := others ++ [{ fresh with got := got }] }
    else
      let s := setTrain s p { t with items := others }
      stageItemCapped s p x g fresh.forward
        ⟨fresh.step, fresh.attempt, fresh.index, fresh.vstage, (sortBy (fun (e : Nat × List Byte) => e.1) got).flatMap (·.2)⟩

/-! ### Routing (R367 to R371) -/

/-- The epoch parity that a packet of a VC is stamped with: the ordered VCs keep the old epoch for a while (R368, R374). -/
def stampOf (s : State) (vc : Nat) : Nat := if s.swarm.oldVcs.contains vc then (epoch s + 1) % 2 else epoch s % 2


/-- The entry of the table of a packet's own epoch parity. -/
def routeOf (s : State) (p : Packet) : Option Route := Sparse.get none s.routes (p.ep % 2 * 16384 + p.dest)

/-- The port of a MASK with the most free adaptive credits, ties to the lower, among those that take the whole packet
(R369). -/
def adaptivePort (s : State) (mask : Nat) (p : Packet) : Option Nat :=
  ((bitList 16 mask).filter (fun k => portTakes s k false p)).foldl (fun b k =>
    match b with
    | none => some k
    | some j => if creditsOf s j p.vc false < creditsOf s k p.vc false then some k else some j) none

/-- The escape port of a packet: ESC_PORT; a packet sent again after the loss of that very port takes the lowest port of MASK that is UP
(R379). -/
def escapePort (s : State) (r : Route) (resent : Bool) : Nat :=
  if resent && portState s r.escPort != 2 then (((bitList 16 r.mask).filter (fun k => portState s k == 2)).head?).getD r.escPort
  else r.escPort

/-- Where a packet with a route goes now: a port and whether in the escape class; none while it must wait. -/
def chooseHop (s : State) (r : Route) (t : Transit) : Option (Nat × Bool) :=
  let p := t.pkt
  let e := escapePort s r t.resent
  let escape := if portTakes s e true p then some (e, true) else none
  if adaptiveVc p.vc && !p.esc then
    match adaptivePort s r.mask p with
    | some k => some (k, false)
    | none => if fld s Reg.FAB_CTL Fld.FAB_CTL_ESC_WAIT = 0 then escape else none
  else escape

/-- FAB_ROUTE_UNREACHABLE (R381). -/
def routeRecord (s : State) (cause : Nat) (p : Packet) (n : Nat) : State :=
  raiseDev s 0x0804 sevError p.dest cause (p.src % 16384 + p.vc % 8 * 65536) n (epoch s)

/-- A packet with no route, or with its hops expired, is discarded (R367, R371); a rank of the job that lies there is
declared lost (R427). -/
def discardPacket (s : State) (t : Transit) (cause : Nat) : State :=
  let f := if cause = 1 then Fld.FAB_PDROPk_UNREACH else Fld.FAB_PDROPk_EXPIRED
  let s := match t.inPort with
    | some k => bump (freeBuffer s t) (Reg.FAB_PDROPk k) f 1
    | none => s
  let s := routeRecord s cause t.pkt 1
  if cause = 1 && !(ranksAt s t.pkt.dest).isEmpty then declareLost s (ranksAt s t.pkt.dest) else s

/-- A packet for this device (R361, R430): rewound when it is poisoned or truncated, discarded when it is the job's and its
source is in the rank table no longer. -/
def deliverPacket (s : State) (t : Transit) : State :=
  let s := freeBuffer s t
  let stranger := decide (2 ≤ t.pkt.vc) && (adaptiveVc t.pkt.vc || t.pkt.vc == 5) && s.pastAddrs.contains t.pkt.src
    && !(s.ranks.any (fun e => e.2 == some t.pkt.src))
  if t.psn then s
  else if stranger then bump s (Reg.FAB_PDROPk (t.inPort.getD 0)) Fld.FAB_PDROPk_UNREACH 1
  else
    let s := emit s (.delivered t.pkt)
    if t.pkt.vc = 3 ∨ t.pkt.vc = 4 then takeStagePacket s t.pkt else s

/-! ### Which packet a port sends next (R312, R313, R365, R366) -/

/-- Deficit round-robin: of `count` classes, each with the size of what it would send next, the one that sends, and the turn and the
deficits after it. A class earns its weight when the turn comes to it, sends while its deficit covers what it sends, and loses the
deficit once nothing waits. `n` bounds the visits; none where it runs out, as with weights of 0. -/
def drr (weight : Nat → Nat) (size : Nat → Option Nat) (count : Nat) : Nat → Nat → List (Nat × Nat) →
    Option (Nat × List (Nat × Nat))
  | 0, _, _ => none
  | n + 1, turn, d =>
    let next := (turn + 1) % count
    let onward (d : List (Nat × Nat)) := drr weight size count n next (Sparse.set 0 d next (Sparse.get 0 d next + weight next))
    match size turn with
    | some z =>
      if z ≤ Sparse.get 0 d turn then some (turn, Sparse.set 0 d turn (Sparse.get 0 d turn - z)) else onward d
    | none => onward (Sparse.set 0 d turn 0)

/-- The class of a packet at a port (R365): 0 for VC7 and what is relayed, 1 + n for what partition n injects. -/
def Transit.cls (t : Transit) : Nat := match t.part with
  | some p => if t.pkt.vc = 7 ∨ t.inPort.isSome then 0 else 1 + p % 8
  | none => 0

/-- The groups of a partition share VC2 by whole chunks (R313). -/
def pickGroup (s : State) (a : Arb) (ts : List Transit) : Option (Transit × Arb) :=
  let first (k : Nat) : Option Transit := ts.find? (fun t => t.slot == k)
  let q := max 1 (fld s Reg.COL_CTL Fld.COL_CTL_QUANTUM) * 4096
  match drr (fun _ => q) (fun k => (first k).map (fun t => t.pkt.data.length)) 64 256 a.group a.bytes with
  | some (k, d) => (first k).map (fun t => (t, { a with group := k, bytes := d }))
  | none => ts.head?.map (fun t => (t, a))

/-- VC3, VC4, VC6 and VC5 of a partition take turns by packets (R365). -/
def pickOther (a : Arb) (p : Nat) (ts : List Transit) : Option (Transit × Arb) :=
  let i := Sparse.get 0 a.next p
  let order := (List.range 4).map (fun j => ((i + j) % 4, [3, 4, 6, 5].getD ((i + j) % 4) 5))
  (order.findSome? (fun e => (ts.find? (fun t => t.pkt.vc == e.2)).map (fun t => (e.1, t)))).map
    (fun e => (e.2, { a with next := Sparse.set 0 a.next p ((e.1 + 1) % 4) }))

/-- Within a partition VC2 goes first, but for COL_CTL.MIN_OTHER 64ths of the flits while others wait (R312). -/
def pickPart (s : State) (a : Arb) (p : Nat) (ts : List Transit) : Option (Transit × Arb) :=
  let m := fld s Reg.COL_CTL Fld.COL_CTL_MIN_OTHER
  let owed := Sparse.get 0 a.other p
  match pickGroup s a (ts.filter (fun t => t.pkt.vc == 2)), pickOther a p (ts.filter (fun t => t.pkt.vc != 2)) with
  | some g, none => some (g.1, { g.2 with other := Sparse.set 0 a.other p 0 })
  | none, o => o
  | some g, some o =>
    let due := packetUnits o.1.pkt * (64 - m)
    if m ≠ 0 ∧ due ≤ owed then some (o.1, { o.2 with other := Sparse.set 0 a.other p (owed - due) })
    else some (g.1, { g.2 with other := Sparse.set 0 a.other p (owed + packetUnits g.1.pkt * m) })

/-- What one class would send next. -/
def pickIn (s : State) (a : Arb) (c : Nat) (ts : List Transit) : Option (Transit × Arb) :=
  let mine := ts.filter (fun t => t.cls == c)
  if c = 0 then mine.head?.map (fun t => (t, a)) else pickPart s a (c - 1) mine

/-- The weight of a class in 64ths (R366). -/
def classWeight (s : State) (c : Nat) : Nat :=
  if c = 0 then fld s Reg.FAB_CTL Fld.FAB_CTL_RELAY_SHARE else fld s (Reg.FAB_SHARE (c - 1)) Fld.FAB_SHARE_SHARE

/-- The packet that a port sends next of those that could leave by it: VC0, then VC1, then the classes by their weights. DESIGN CHOICE
(log entry 77): a class of weight 0 sends while no other waits, the lowest class first. -/
def pickNext (s : State) (k : Nat) (ts : List Transit) : Option (Transit × Arb) :=
  let a := (getPort s k).arb
  match ts.find? (fun t => t.pkt.vc == 0), ts.find? (fun t => t.pkt.vc == 1) with
  | some t, _ => some (t, a)
  | none, some t => some (t, a)
  | none, none =>
    match drr (classWeight s) (fun c => (pickIn s a c ts).map (fun e => packetUnits e.1.pkt)) 9 180 a.turn a.flits with
    | some (c, d) => (pickIn s a c ts).map (fun e => (e.1, { e.2 with turn := c, flits := d }))
    | none => ((List.range 9).findSome? (fun c => pickIn s a c ts))

/-! ### The waiting packets (R365, R367 to R371) -/

/-- What becomes of a packet now: nothing, where its port is not UP; delivery; discard with its cause; a port and class; or it waits. -/
inductive Fate where
  | dropped
  | delivered
  | discarded (cause : Nat)
  | goes (port : Nat) (esc : Bool)
  | waits
deriving DecidableEq, Repr

/-- A Waggle cell or a credit return of this device goes by its port (R320, R364); Waggle cells that came belong to a tree and end here;
every other packet is routed (R367 to R371). -/
def fateOf (s : State) (t : Transit) : Fate :=
  match t.via with
  | some k => if portState s k ≠ 2 then .dropped else if portTakes s k true t.pkt then .goes k true else .waits
  | none =>
    if t.pkt.vc = 1 then .delivered
    else match routeOf s t.pkt with
    | none => .discarded 1
    | some r =>
      if r.isLocal then .delivered
      else if t.inPort.isSome && t.pkt.hops == 0 then .discarded 2
      else match chooseHop s r t with
        | some (k, esc) => .goes k esc
        | none => .waits

/-- Whether a packet must stay behind another, for order per destination or per port (R364). -/
def behind (t w : Transit) : Bool :=
  w.via == t.via && w.pkt.vc == t.pkt.vc && (t.via.isSome || (!adaptiveVc t.pkt.vc && w.pkt.dest == t.pkt.dest))

/-- The packets that could go, each behind none that waits. -/
def goers (s : State) : List (Transit × Nat × Bool) :=
  (s.fabWait.zipIdx).filterMap fun e =>
    if (s.fabWait.take e.2).any (behind e.1) then none
    else match fateOf s e.1 with
      | .goes k esc => some (e.1, k, esc)
      | _ => none

/-- A packet waits no more. -/
def unwait (s : State) (t : Transit) : State := { s with fabWait := s.fabWait.filter (fun w => w.id != t.id) }

/-- One packet leaves those that wait: one that no port need carry, or, at the lowest port that can send, the one whose turn it is; none
where none can. -/
def pumpOnce (s : State) : Option State :=
  let settled := s.fabWait.findSome? (fun t => match fateOf s t with
    | .dropped => some (unwait s t)
    | .delivered => some (deliverPacket (unwait s t) t)
    | .discarded c => some (discardPacket (unwait s t) t c)
    | _ => none)
  match settled with
  | some s => some s
  | none =>
    let gs := goers s
    match (List.range 16).find? (fun k => gs.any (fun e => e.2.1 == k)) with
    | none => none
    | some k =>
      let mine := gs.filter (fun e => e.2.1 == k)
      match pickNext s k (mine.map (·.1)) with
      | none => none
      | some (t, a) =>
        let esc := (mine.find? (fun e => e.1.id == t.id)).any (fun e => e.2.2)
        let s := setPort (unwait s t) k { getPort s k with arb := a }
        some (sendOn s k esc t)

/-- Packets leave as far as they can; `n` bounds their number. -/
def pumpFor : Nat → State → State
  | 0, s => s
  | n + 1, s => match pumpOnce s with
    | some s => pumpFor n s
    | none => s

/-- The packets that wait are sent as far as credits go, in the order of each port's arbitration. -/
def pumpFabric (s : State) : State := pumpFor s.fabWait.length s

/-- A packet joins those that wait, and what can leave does. -/
def routePacket (s : State) (t : Transit) : State := pumpFabric { s with fabWait := s.fabWait ++ [t] }

/-- A packet that entered by a port. -/
def arrivePacket (s : State) (k : Nat) (esc psn : Bool) (p : Packet) : State :=
  routePacket { s with nextPkt := s.nextPkt + 1 } ⟨s.nextPkt, some k, esc, psn, p, none, none, 0, false⟩

/-! ### A port goes down (R379) -/

/-- FAB_PORT_DOWN (R381). -/
def downRecord (s : State) (k cause units resent : Nat) : State :=
  raiseDev s 0x0803 sevError k cause (remoteUid s k) units resent

/-- The last unit acknowledged on a port. -/
def ackedSeq (p : Port) : Nat := match p.retry with
  | u :: _ => (u.lseq + 4095) % 4096
  | [] => (p.nextOut + 4095) % 4096

/-- How far the LAST unit of a packet in the retry buffer lies after the last unit acknowledged. -/
def lastUnit (p : Port) (id : Nat) : Nat := match p.retry.find? (fun u => u.pkt == id && u.last) with
  | some u => (u.lseq + 4096 - ackedSeq p) % 4096
  | none => 0

/-- A port that was UP goes down: partial packets are rewound, packets with a unit in the retry buffer are held and the far
end is asked (R379 steps 1 and 2); a rebuild starts (R373). -/
def portDown (s : State) (k cause : Nat) : State :=
  if portState s k ≠ 2 then s
  else
    let p := getPort s k
    let held := (p.sent.filter (fun t => t.via.isNone && p.retry.any (fun u => u.pkt == t.id))).map
      (fun t => (t, lastUnit p t.id))
    let a := Reg.FAB_PSTATk k
    let s := wr s a (putF Fld.FAB_PSTATk_REMOTE_VALID 0 (putF Fld.FAB_PSTATk_TREE 0 (putF Fld.FAB_PSTATk_UP_REMOTE 0
      (putF Fld.FAB_PSTATk_SPARE_USED 0 (putF Fld.FAB_PSTATk_CAUSE cause (putF Fld.FAB_PSTATk_STATE 0 (rd s a)))))))
    let s := setPort s k { p with
      partIn := [], held := held, heldBase := ackedSeq p, retry := [], sent := [], unitsHeld := p.retry.length, wentDown := true
      confirmBy := if held.isEmpty then none else some (beat s + max 1 (fld s Reg.FAB_CTL Fld.FAB_CTL_CONFIRM_TMO)) }
    let s := if held.isEmpty then downRecord s k cause p.retry.length 0 else emit s (.confirmAsk k)
    startRebuild s

/-- The held packets are settled: those at or before `lseq` were capped at the far end, the rest are sent again whole ahead
of later packets (R379 step 3). -/
def settleHeld (s : State) (k lseq : Nat) : State :=
  let p := getPort s k
  let rest := p.held.filter (fun e => decide ((lseq + 4096 - p.heldBase) % 4096 < e.2))
  let s := setPort s k { p with held := [], confirmBy := none }
  let s := downRecord s k (fld s (Reg.FAB_PSTATk k) Fld.FAB_PSTATk_CAUSE) p.unitsHeld rest.length
  pumpFabric { s with fabWait := rest.map (fun e => { e.1 with inPort := none, resent := true }) ++ s.fabWait }

def execConfirmRequestArrival (port : Nat) (s : State) : Host.Outcome State Fault Refusal :=
  if port < 16 then .next (emit (portDown s port 6) (.confirmTell port (getPort s port).lastIn)) else .next s

def execConfirmAnswerArrival (port lseq : Nat) (s : State) : Host.Outcome State Fault Refusal :=
  if port < 16 && (getPort s port).confirmBy.isSome then .next (settleHeld s port (lseq % 4096)) else .next s

def execConfirmTimeout (port : Nat) (s : State) : Host.Outcome State Fault Refusal :=
  let p := getPort s port
  match p.confirmBy, p.held with
  | some d, (t, _) :: _ =>
    if d ≤ beat s then
      let n := p.held.length
      let s := setPort s port { p with held := [], confirmBy := none }
      let s := routeRecord (bump s (Reg.FAB_PDROPk port) Fld.FAB_PDROPk_LOST n) 3 t.pkt n
      .next (downRecord s port (fld s (Reg.FAB_PSTATk port) Fld.FAB_PSTATk_CAUSE) p.unitsHeld 0)
    else .next s
  | _, _ => .next s

/-- ESC_WAIT has passed for a waiting adaptive packet: it takes the escape class as soon as credits allow (R369). -/
def execEscapeWaitExpiry (port pkt : Nat) (s : State) : Host.Outcome State Fault Refusal :=
  .next (pumpFabric { s with fabWait := s.fabWait.map (fun t =>
    if t.id = pkt ∧ t.inPort.getD port = port ∧ adaptiveVc t.pkt.vc then { t with pkt := { t.pkt with esc := true } } else t) })

/-! ### Lanes and lasers (R377, R378) -/

/-- Every unit after LACK is sent again, and counts as sent (R362, R363, R382). -/
def resendAll (s : State) (k lack : Nat) : State :=
  let p := getPort s k
  let n := p.retry.length
  if n = 0 then s
  else
    let s := setPort s k { p with retry := p.retry.map (fun (u : TxUnit) => { u with resends := u.resends + 1 }) }
    emit (bump (bump s (Reg.FAB_PERRk k) Fld.FAB_PERRk_REPLAYS n) (Reg.FAB_PTXk k) Fld.FAB_PTXk_UNITS n) (.resent k lack n)

/-- Whether a lane of a port carries traffic (R377). -/
def laneUsed (s : State) (k lane : Nat) : Bool :=
  decide (lane < 9) && !(getPort s k).lanesFailed.contains lane && (lane != 8 || flg s (Reg.FAB_PSTATk k) Fld.FAB_PSTATk_SPARE_USED)

/-- A lane of an UP port fails: lane 8 takes its place, or the port goes down (R377). -/
def laneFail (s : State) (k lane how codewords : Nat) : State :=
  let p := getPort s k
  if portState s k ≠ 2 ∨ 9 ≤ lane ∨ p.lanesFailed.contains lane then s
  else
    let a := Reg.FAB_PSTATk k
    let used := flg s a Fld.FAB_PSTATk_SPARE_USED
    let s := setPort s k { p with lanesFailed := p.lanesFailed ++ [lane] }
    if lane = 8 && !used then s
    else if flg s (Reg.FAB_PCTLk k) Fld.FAB_PCTLk_SPARE_EN && !used && !p.lanesFailed.contains 8 then
      let s := raiseDev (setFld s a Fld.FAB_PSTATk_SPARE_USED 1) 0x0801 sevCorrected k lane how codewords (remoteUid s k)
      resendAll s k (ackedSeq p)
    else portDown s k 3

def execLaneFailure (port lane cause codewords : Nat) (s : State) : Host.Outcome State Fault Refusal :=
  let above := decide (max 1 (fld s (Reg.FAB_PCTLk port) Fld.FAB_PCTLk_SER_THR) < codewords)
  if port < 16 && (cause = 1 || (cause = 2 && above)) then .next (laneFail s port lane cause codewords) else .next s

/-- The ports that a source lights (R354): 0 source A, 1 source B. -/
def lasersPorts (engine source : Nat) : List Nat := [4 * engine + 2 * (source % 2), 4 * engine + 2 * (source % 2) + 1]

/-- The status field of a source: 0 A, 1 B, 2 C. -/
def laserFld (source : Nat) : Fld :=
  if source = 0 then Fld.FAB_ENG_SRC_A else if source = 1 then Fld.FAB_ENG_SRC_B else Fld.FAB_ENG_SRC_C

/-- A source's light is gone: the ports that it lit go down, but for those that source C takes over (R378). -/
def portsDark (s : State) (ports : List Nat) : State :=
  (ports.filter (fun k => portState s k == 2)).foldl (fun s k => portDown s k 5) s

/-- A laser source fails (R378). Source C takes the place of A or B where it is in standby; its own failure, in standby or in another's
place, is no replacement and makes no record (R381 names A and B alone). -/
def execLaserSourceFailure (engine source : Nat) (microwatts : Nat) (s : State) : Host.Outcome State Fault Refusal :=
  let a := Reg.FAB_ENG engine
  let st := fld s a (laserFld source)
  if 4 ≤ engine ∨ 3 ≤ source then .next s
  else if source = 2 then
    if st ≠ 1 ∧ st ≠ 3 then .next s
    else
      let for_ := fld s a Fld.FAB_ENG_C_FOR
      let s := setFld (setFld s a Fld.FAB_ENG_SRC_C 2) a Fld.FAB_ENG_C_FOR 0
      .next (if for_ = 1 ∨ for_ = 2 then portsDark s (lasersPorts engine (for_ - 1)) else s)
  else if st ≠ 1 then .next s
  else
    let s := setFld s a (laserFld source) 2
    if fld s a Fld.FAB_ENG_SRC_C = 3 then
      let s := setFld (setFld s a Fld.FAB_ENG_SRC_C 1) a Fld.FAB_ENG_C_FOR (1 + source)
      let s := raiseDev s 0x0805 sevCorrected engine source (ofBits (lasersPorts engine source)) microwatts 0
      .next (((lasersPorts engine source).filter (fun k => portState s k == 2)).foldl
        (fun s k => resendAll s k (ackedSeq (getPort s k))) s)
    else .next (portsDark s (lasersPorts engine source))

/-- A source that lights a port now: its own, or source C in its place. -/
def portLit (s : State) (k : Nat) : Bool :=
  let a := Reg.FAB_ENG (k / 4)
  let b := decide (2 ≤ k % 4)
  fld s a (if b then Fld.FAB_ENG_SRC_B else Fld.FAB_ENG_SRC_A) == 1
    || (fld s a Fld.FAB_ENG_SRC_C == 1 && fld s a Fld.FAB_ENG_C_FOR == 1 + bnat b)

/-- The sources of an engine follow LASER_EN; source B of engine 0, or source C in its place, lights the host port whatever it holds
(R354, R441). A failed source stays failed. -/
def laserSync (s : State) (e : Nat) : State :=
  let a := Reg.FAB_ENG e
  let on := flg s a Fld.FAB_ENG_LASER_EN
  let put (f : Fld) (lit : Bool) (s : State) : State := if fld s a f = 2 then s else setFld s a f (bnat lit)
  let s := put Fld.FAB_ENG_SRC_B (on || e == 0) (put Fld.FAB_ENG_SRC_A on s)
  let for_ := fld s a Fld.FAB_ENG_C_FOR
  if fld s a Fld.FAB_ENG_SRC_C = 2 then s
  else if for_ = 0 then setFld s a Fld.FAB_ENG_SRC_C (if on || e == 0 then 3 else 0)
  else setFld s a Fld.FAB_ENG_SRC_C (bnat (on || (e == 0 && for_ == 2)))

/-- A port begins to train, and tells its far end who it is (R372, R376). DESIGN CHOICE (log entry 78): one identity unit each time. -/
def beginTraining (s : State) (k : Nat) : State :=
  emit (bump (setPortState s k 1) (Reg.FAB_PTXk k) Fld.FAB_PTXk_UNITS 1) (.identity k (ownUid s))

/-- A port as it trains: nothing of the link before stays, but the packets held for a confirmation (R379). -/
def Port.afresh (p : Port) (lanes : List Nat) : Port :=
  { Port.none with held := p.held, heldBase := p.heldBase, confirmBy := p.confirmBy, unitsHeld := p.unitsHeld, lanesFailed := lanes }

/-- A port follows its enables: it trains when both become 1, and goes down and is disabled when one becomes 0 (R382,
R518). -/
def portSync (s : State) (k : Nat) : State :=
  if portEnabled s k then
    if portState s k = 3 then beginTraining (setPort s k ((getPort s k).afresh [])) k else s
  else if portState s k = 3 then s
  else
    let s := portDown s k (if flg s (Reg.FAB_PCTLk k) Fld.FAB_PCTLk_EN then 5 else 6)
    setPortState s k 3

/-- Every engine and port after a change of the enables. -/
def fabricSync (s : State) : State := (List.range 16).foldl portSync ((List.range 4).foldl laserSync s)

/-! ### Training (R356, R375, R376) -/

/-- The remote that most receive positions carry, by its first position among equals. -/
def mainRemote (l : List (Option LaneSeen)) : Option (Nat × Nat) :=
  let ids := l.filterMap (fun v => v.map (fun v => (v.uid, v.port)))
  let n (i : Nat × Nat) : Nat := (ids.filter (· == i)).length
  ids.foldl (fun b i => match b with
    | none => some i
    | some j => if n j < n i then some i else some j) none

/-- The lanes of a remote that no receive position carries: with one missing, lane 8 is in use in its place (R377). -/
def missingLanes (l : List (Option LaneSeen)) (r : Nat × Nat) : List Nat :=
  (List.range 9).filter (fun n => !l.any (fun v => match v with
    | some v => (v.uid, v.port) == r && v.lane == n
    | none => false))

/-- FAB_LMAPk for what a port receives from its remote (R375, R382). -/
def laneMap (l : List (Option LaneSeen)) (r : Nat × Nat) : Word :=
  let lane (i : Nat) : Nat := match l.getD i none with
    | some v => if (v.uid, v.port) = r then v.lane % 16 else 15
    | none => 15
  let seen := (List.range 9).filter (fun i => lane i != 15)
  let reversed := !seen.isEmpty && seen.all (fun i => lane i + i == 8)
  (List.range 9).foldl (fun w i => putF (Fld.FAB_LMAPk_LANE i) (lane i) w) (putF Fld.FAB_LMAPk_REVERSED (bnat reversed) 0)

/-- Whether the far end of a link is its up end: smaller depth, or lower address at equal depth (R370). -/
def upEnd (farDepth farAddr depth addr : Nat) : Bool := decide (farDepth < depth) || (farDepth == depth && decide (farAddr < addr))

/-- A port's training ends with the port DOWN (R376). -/
def stayDown (s : State) (k cause : Nat) : State :=
  let a := Reg.FAB_PSTATk k
  downRecord (wr s a (putF Fld.FAB_PSTATk_CAUSE cause (putF Fld.FAB_PSTATk_STATE 0 (rd s a)))) k cause 0 0

/-- FAB_FIBRE_SWAPPED (R381). -/
def swapped (s : State) (k cause : Nat) (r : Nat × Nat) : State :=
  raiseDev s 0x0802 sevCorrected k cause (rd s (Reg.FAB_LMAPk k)).toNat r.1 r.2

def execPortTrainingDone (port : Nat) (t : TrainResult) (s : State) : Host.Outcome State Fault Refusal :=
  if 16 ≤ port ∨ portState s port ≠ 1 ∨ portHeld s port then .next s
  else match mainRemote t.lanes with
  | none => .next (stayDown (wr s (Reg.FAB_LMAPk port) (laneMap t.lanes (0, 0))) port (if t.ownLit && portLit s port then 1 else 5))
  | some r =>
    let s := wr (wr s (Reg.FAB_LMAPk port) (laneMap t.lanes r)) (Reg.FAB_PIDk port) (BitVec.ofNat 64 r.1)
    let mine := (t.lanes.filter (fun v => v.map (fun v => (v.uid, v.port)) == some r)).length
    let others := t.lanes.any (fun v => v.isSome && v.map (fun v => (v.uid, v.port)) != some r)
    let s := if others then swapped s port 2 r else s
    if mine < 8 ∨ !t.remoteReportsUs then .next (stayDown s port 2)
    else if r.1 = ownUid s then .next (stayDown s port 7)
    else
      let s := if flg s (Reg.FAB_LMAPk port) Fld.FAB_LMAPk_REVERSED then swapped s port 1 r else s
      let up := upEnd t.remoteDepth t.remoteAddr (fld s Reg.FAB_ADDR Fld.FAB_ADDR_DEPTH) (fld s Reg.FAB_ADDR Fld.FAB_ADDR_ADDR)
      let a := Reg.FAB_PSTATk port
      let dark := missingLanes t.lanes r
      let s := wr s a (putF Fld.FAB_PSTATk_REMOTE_VALID 1 (putF Fld.FAB_PSTATk_REMOTE_ADDR t.remoteAddr
        (putF Fld.FAB_PSTATk_REMOTE_PORT r.2 (putF Fld.FAB_PSTATk_UP_REMOTE (bnat up)
          (putF Fld.FAB_PSTATk_SPARE_USED (bnat (!dark.isEmpty && !dark.contains 8)) (putF Fld.FAB_PSTATk_STATE 2 (rd s a)))))))
      .next (pumpFabric (startRebuild (setPort s port ((getPort s port).afresh dark))))

/-- A dark receive group: the transmitters lower to safety pulses, and a port that was UP is down (R356). -/
def execReceiveDarkTimeout (port : Nat) (s : State) : Host.Outcome State Fault Refusal :=
  if port < 16 && portEnabled s port then
    let s := portDown s port 1
    .next (emit (setPort s port { getPort s port with pulses := true }) (.pulses port))
  else .next s

/-- Light again: the pulses end and training resumes, but on a port that went down under R379 (R356). -/
def execLightDetected (port : Nat) (s : State) : Host.Outcome State Fault Refusal :=
  if port < 16 && portEnabled s port then
    let p := getPort s port
    let s := setPort s port { p with pulses := false }
    .next (if portState s port = 0 && !p.wentDown then beginTraining s port else s)
  else .next s

/-- RETRAIN: a port that went down trains again; no effect while it is disabled (R379, R382). -/
def execFabPctlRetrain (port : Nat) (s : State) : Host.Outcome State Fault Refusal :=
  let p := getPort s port
  if port < 16 && portEnabled s port && portState s port == 0 && p.wentDown then
    .next (beginTraining (setPort s port (p.afresh [])) port)
  else .next s

/-! ### Swarm begins (R372) -/

/-- FAB_CMD.START: LINKS begins, unless Swarm is running already or the Keeper is held (R372, R421). -/
def execFabCmdStart (s : State) : Host.Outcome State Fault Refusal :=
  if (swarmPhase s = 0 ∨ swarmPhase s = 6) ∧ !s.keeper.held then
    .next (setSwarmPhase { s with swarm := { s.swarm with began := beat s } } 1)
  else .next s

end Sys2Proof.Machine
end

