-- ==== Sys2Proof/Machine/Fabric.lean ====
section
/-! DEFINITION. The fabric: units received and link retry (R361 to R364), Swarm and the route tables (R368, R370, R372), the
epochs (R374), and the Waggle trees over the spanning tree (R315, R320). -/

namespace Sys2Proof.Machine

/-! ### Link retry (R362, R363) -/

/-- LACK releases the units up to it. -/
def takeLack (s : State) (k lack : Nat) : State :=
  let p := getPort s k
  if p.retry.any (fun u => u.lseq == lack) then
    let rest := (p.retry.dropWhile (fun u => u.lseq != lack)).drop 1
    setPort s k { p with retry := rest, sent := p.sent.filter (fun t => rest.any (fun u => u.pkt == t.id)) }
  else s

/-- A NAK: every unit after LACK is sent again; once one has been sent again sixteen times, the lanes are examined, and with none in use
at fault the port goes down (R362, R363). -/
def takeNak (s : State) (k : Nat) (fault : Option Nat) : State :=
  let p := getPort s k
  if p.retry.any (fun u => decide (16 ≤ u.resends)) then
    match fault with
    | some lane =>
      if laneUsed s k lane then
        laneFail (setPort s k { p with retry := p.retry.map (fun (u : TxUnit) => { u with resends := 0 }) }) k lane 3 0
      else portDown s k 4
    | none => portDown s k 4
  else resendAll s k (ackedSeq p)

/-- A unit is refused: it and every later one are discarded until the resend arrives (R362). -/
def refuseUnit (s : State) (k : Nat) : State :=
  let p := getPort s k
  emit (setPort s k { p with dropping := true }) (.trailer k p.lastIn true)

/-- An identity unit (R372, R373). -/
def takeIdentity (s : State) (k : Nat) (id : Nat × Nat) : State :=
  let s := emit (setFld (wr s (Reg.FAB_PIDk k) (BitVec.ofNat 64 id.1)) (Reg.FAB_PSTATk k) Fld.FAB_PSTATk_REMOTE_PORT id.2)
    (.credit k 7 1 1)
  if s.swarm.nodes.any (fun n => n.uid == id.1) then s else startRebuild s

/-- A unit's body reaches the buffers (R360, R361, R364). DESIGN CHOICE (log entry 76): units that make no packet of R360 are rewound like a
poisoned packet. -/
def takeBody (s : State) (k : Nat) (u : LinkUnit) : State :=
  match u.ident, u.credit with
  | some id, _ => takeIdentity s k id
  | none, some (vc, cls, n) =>
    pumpFabric (freeUnits (setCredits s k vc (cls == 1) (creditsOf s k vc (cls == 1) + n)) k 0 true 1)
  | none, none =>
    let p := getPort s k
    let part := (p.partIn.find? (fun e => e.vc == u.vc && e.cls == u.cls)).getD ⟨u.vc, u.cls, 0, false, []⟩
    let part := { part with units := part.units + 1, psn := part.psn || u.psn, body := part.body ++ u.body }
    let others := p.partIn.filter (fun e => e.vc != u.vc || e.cls != u.cls)
    if u.last then
      let s := setPort s k { p with partIn := others }
      match readPacket u.vc part.body with
      | some q => arrivePacket s k (u.cls == 1) part.psn q
      | none => freeUnits s k u.vc (u.cls == 1) part.units
    else setPort s k { p with partIn := others ++ [part] }

/-- A unit other than an idle unit, whose LCRC is good, is taken in LSEQ order (R362). -/
def takeUnit (s : State) (k : Nat) (u : LinkUnit) : State :=
  let p := getPort s k
  if u.lseq = (p.lastIn + 1) % 4096 then
    takeBody (emit (setPort s k { p with lastIn := u.lseq, dropping := false }) (.trailer k u.lseq false)) k u
  else if p.dropping then s
  else refuseUnit s k

/-- What a good trailer carries for the other direction: LACK, NAK and the C0 credit (R359, R364). -/
def takeTrailer (s : State) (k : Nat) (u : LinkUnit) : State :=
  let s := takeLack s k (u.lack % 4096)
  let s := if u.c0 then setCredits s k 0 true (creditsOf s k 0 true + 1) else s
  pumpFabric (if u.nak then takeNak s k u.laneFault else s)

def execLinkUnitReceive (port : Nat) (u : LinkUnit) (s : State) : Host.Outcome State Fault Refusal :=
  if 16 ≤ port ∨ portHeld s port then .next s
  else if portState s port = 1 then .next (if u.lcrcOk then (match u.ident with
    | some id => takeIdentity s port id
    | none => s) else s)
  else if portState s port ≠ 2 then .next s
  else
    let s := if u.idle then s else bump s (Reg.FAB_PRXk port) Fld.FAB_PRXk_UNITS 1
    if !u.lcrcOk then .next (if u.idle then s else refuseUnit (bump s (Reg.FAB_PERRk port) Fld.FAB_PERRk_CRC_ERR 1) port)
    else
      let s := takeTrailer s port u
      .next (if u.idle || portState s port != 2 then s else takeUnit s port u)

/-! ### Distances and trees over the link list (R370, R372) -/

/-- The links of a device: local port, far UID, far port. -/
def linksOf (l : List SwarmLink) (uid : Nat) : List (Nat × Nat × Nat) :=
  l.flatMap (fun e => (if e.uidA = uid then [(e.portA, e.uidB, e.portB)] else [])
    ++ (if e.uidB = uid then [(e.portB, e.uidA, e.portA)] else []))

/-- Breadth-first search: nodes with their distance. -/
def bfs (next : Nat → List Nat) : Nat → Nat → List Nat → List (Nat × Nat) → List (Nat × Nat)
  | 0, _, _, seen => seen
  | n + 1, d, front, seen =>
    let new := ((front.flatMap next).filter (fun v => !seen.any (fun e => e.1 == v))).eraseDups
    if new.isEmpty then seen else bfs next n (d + 1) new (seen ++ new.map (fun v => (v, d + 1)))

/-- Distances of every device from one. -/
def distances (l : List SwarmLink) (n from_ : Nat) : List (Nat × Nat) :=
  bfs (fun v => (linksOf l v).map (fun e => e.2.1)) n 0 [from_] [(from_, 0)]

/-- A distance, or 2^32 where there is none. -/
def distIn (d : List (Nat × Nat)) (v : Nat) : Nat := (d.lookup v).getD (2 ^ 32)

/-- The address of a device. -/
def addrOf (ns : List SwarmNode) (uid : Nat) : Nat := match ns.find? (fun n => n.uid == uid) with
  | some n => n.addr
  | none => 0

/-- Whether the hop from `a` to `b` goes up (R370): `b` has smaller depth, or lower address at equal depth. -/
def hopUp (ns : List SwarmNode) (depth : List (Nat × Nat)) (a b : Nat) : Bool :=
  upEnd (distIn depth b) (addrOf ns b) (distIn depth a) (addrOf ns a)

/-- Lengths of the shortest up-then-down paths to `t`: state 2v + 1 for a device that may still go up, 2v for one that may
only go down (R370). The search runs backwards from `t`. -/
def escDistances (l : List SwarmLink) (ns : List SwarmNode) (depth : List (Nat × Nat)) (n t : Nat) : List (Nat × Nat) :=
  bfs (fun q =>
    let v := q / 2
    (linksOf l v).flatMap (fun e =>
      let u := e.2.1
      if hopUp ns depth u v then (if q % 2 = 1 then [2 * u + 1] else []) else (if q % 2 = 0 then [2 * u, 2 * u + 1] else [])))
    (2 * n) 0 [2 * t, 2 * t + 1] [(2 * t, 0), (2 * t + 1, 0)]

/-- The lowest of a list by a key; none of an empty list. -/
def lowestBy {α : Type} (key : α → Nat) (l : List α) : Option α :=
  l.foldl (fun b a => match b with
    | none => some a
    | some c => if key a < key c then some a else some c) none

/-- The route entry of device `self` for destination `t` (R368, R370). -/
def routeFor (l : List SwarmLink) (ns : List SwarmNode) (depth : List (Nat × Nat)) (self t : Nat) : Option Route :=
  if self = t then some ⟨0, 0, true, 0⟩
  else
    let d := distances l ns.length t
    let mine := distIn d self
    if 2 ^ 32 ≤ mine then none
    else
      let mask := ofBits (((linksOf l self).filter (fun e => distIn d e.2.1 + 1 == mine)).map (·.1))
      let ed := escDistances l ns depth ns.length t
      let legal := (linksOf l self).filter (fun e =>
        distIn ed (if hopUp ns depth self e.2.1 then 2 * e.2.1 + 1 else 2 * e.2.1) + 1 == distIn ed (2 * self + 1))
      let hop := lowestBy (fun (e : Nat × Nat × Nat) => addrOf ns e.2.1 * 16 + e.1) legal
      some ⟨mask, (hop.map (·.1)).getD 0, false, min 255 mine⟩

/-- A device's parent on the spanning tree: local port, far UID, far port (R372 ELECT: shortest distance, then lower
neighbour UID, then lower local port). -/
def parentOf (l : List SwarmLink) (depth : List (Nat × Nat)) (uid : Nat) : Option (Nat × Nat × Nat) :=
  lowestBy (fun (e : Nat × Nat × Nat) => e.2.1 * 16 + e.1)
    ((linksOf l uid).filter (fun e => distIn depth e.2.1 + 1 == distIn depth uid))

/-- The devices from one up to the root. -/
def pathUp (l : List SwarmLink) (depth : List (Nat × Nat)) : Nat → Nat → List Nat
  | 0, v => [v]
  | n + 1, v => match parentOf l depth v with
    | some e => v :: pathUp l depth n e.2.1
    | none => [v]

/-! ### Waggle trees (R315, R320) -/

/-- The shape of a tree at this device: whether it is the root, its up port, its down ports, its depth, and whether it only
relays; none where the tree does not pass. -/
structure TreeShape where
  root : Bool
  up : Nat
  down : Nat
  depth : Nat
  relay : Bool
deriving DecidableEq, Repr

/-- The smallest subtree of the spanning tree that joins some devices, as this device sees it (R315). -/
def treeShape (s : State) (uids : List Nat) : Option TreeShape :=
  let w := s.swarm
  let self := ownUid s
  if uids == [self] then some ⟨true, 0, 0, 0, false⟩
  else
  let n := w.nodes.length
  let depth := distances w.links n w.root
  let paths := uids.map (pathUp w.links depth n)
  let common := (paths.headD []).filter (fun v => paths.all (fun p => p.contains v))
  let top := (common.map (distIn depth)).foldl max 0
  let inTree (v : Nat) : Bool := decide (top ≤ distIn depth v) && paths.any (fun p => p.contains v)
  if !inTree self then none
  else
    let down := (linksOf w.links self).filter (fun e =>
      inTree e.2.1 && parentOf w.links depth e.2.1 == some (e.2.2, self, e.1))
    let up := if distIn depth self = top then none else parentOf w.links depth self
    some ⟨up.isNone, (up.map (·.1)).getD 0, ofBits (down.map (·.1)), distIn depth self - top, !uids.contains self⟩

/-- The device of a job rank, for a context. -/
def rankUid (s : State) (x r : Nat) : Nat :=
  if r = ownRank s x then ownUid s
  else match Sparse.get none s.ranks r with
    | some a => (match s.swarm.nodes.find? (fun n => n.addr == a) with
      | some n => n.uid
      | none => 2 ^ 64 + r)
    | none => 2 ^ 64 + r

/-- The members of a group as some resident manifest declares it: the context and the job ranks. -/
def groupOf (s : State) (gid : Nat) : Option (Nat × List Nat) :=
  (residents s).findSome? (fun x => (manOf s x).bind (fun m => (m.groups.find? (fun g => g.gid == gid)).map (fun g => (x, g.members))))

/-- The trees that a manifest needs: each group with whether it is a barrier's, and which (R315). -/
def treesOf (m : Manifest) : List (Nat × Option Nat) :=
  m.groups.map (fun g => (g.gid, none))
    ++ (m.flags.filterMap (fun e => if e.barrier then e.spanning.map (fun g => (g, some e.index)) else none)).eraseDups

def freeTrees (s : State) : List Nat := selectBelow 1024 (fun k => !(getTree s k).valid)

/-- A Waggle tree takes the lowest free entry (R315). -/
def assignTree (s : State) (t : (Nat × Option Nat) × TreeShape) : State :=
  match freeTrees s with
  | k :: _ =>
    let h := t.2
    let slot := (s.grps.find? (fun e => e.2.valid && e.2.gid == t.1.1)).map (·.1)
    let loc := match t.1.2 with
      | some b => b
      | none => (slot.map (· + 256)).getD 0
    let s := setTree s k { WTree.none with
      valid := true, root := h.root, up := h.up, down := h.down, depth := h.depth, relay := h.relay
      local_ := if h.relay then 0 else loc, gid := t.1.1 }
    match t.1.2, slot with
    | none, some g => if h.relay then s else setGrp s g { getGrp s g with tree := some k }
    | _, _ => s
  | [] => s

/-- The shape that a group's trees have over the present spanning tree; none where they do not pass, or where no resident manifest
declares the group. -/
def shapeNow (s : State) (gid : Nat) : Option TreeShape :=
  (groupOf s gid).bind (fun e => treeShape s (e.2.map (rankUid s e.1)))

/-- A tree takes its shape over the present spanning tree. -/
def reshape (s : State) (v : WTree) : WTree := match shapeNow s v.gid with
  | some h => { v with root := h.root, up := h.up, down := h.down, depth := h.depth, contribs := [], entries := [] }
  | none => v

/-- Trees that this device relayed, and that pass it no longer, leave their entries (R315). -/
def dropRelays (s : State) : State :=
  { s with trees := s.trees.filter (fun e => !(e.2.relay && (groupOf s e.2.gid).isSome && (shapeNow s e.2.gid).isNone)) }

/-- Trees that pass this device since the rebuild, without a member here, take entries (R315). -/
def addRelays (s : State) : State :=
  let wanted := (residents s).flatMap (fun x => ((manOf s x).map treesOf).getD [])
  wanted.eraseDups.foldl (fun s t =>
    match shapeNow s t.1 with
    | some h =>
      let have_ := ((s.trees.filter (fun e => e.2.valid && e.2.gid == t.1))).length
      if h.relay && decide (have_ < (wanted.filter (fun w => w.1 == t.1)).length) then assignTree s (t, h) else s
    | none => s) s

/-- What this device has in flight on a tree is sent again (R320): its group's reduction and the naming's, or its barrier's entry. -/
def rerunTree (s : State) (k : Nat) : State :=
  let v := getTree s k
  let again (s : State) : State := bump s Reg.WGL_RELAY Fld.WGL_RELAY_REBUILT 1
  if v.relay then (if v.contribs.isEmpty && v.entries.isEmpty then setTree s k (reshape s v) else again (setTree s k (reshape s v)))
  else
    let s := setTree s k (reshape s v)
    if 256 ≤ v.local_ then
      let g := getGrp s (v.local_ - 256)
      let open_ (w : Wag) : Bool := w.result.isNone && g.aborting.map (fun a => (a.1, a.2.1)) != some (true, w.sig.seq)
      let ws := g.wag.toList.filter open_ ++ ((g.naming.bind (·.wag)).toList)
      ws.foldl (fun s w => wagContribute (again s) k none w.sig w.vals w.bad) s
    else if (getBar s v.local_).up then treeEntry (again s) k none ((getBar s v.local_).g + 1)
    else s

/-- The last device-started operation of a partition whose reduction group has no tree here, as it was sent. -/
def lastDeviceOp (s : State) (p : Nat) : Option Output :=
  if ((redSlot s p).bind (fun k => (getGrp s k).tree)).isSome then none
  else s.out.reverse.find? (fun o => match o with
    | .stepOr q _ _ => q == p
    | .commitVote q _ _ _ _ _ => q == p
    | _ => false)

/-- The trees take their new shapes, and every Waggle operation in flight is run again over them (R315, R320). -/
def rerunWaggle (s : State) : State :=
  let s := addRelays (dropRelays s)
  let s := (s.trees.map (·.1)).foldl rerunTree s
  (List.range 8).foldl (fun s p =>
    if (getTrain s p).wagSince.isSome then match lastDeviceOp s p with
      | some o => bump (emit s o) Reg.WGL_RELAY Fld.WGL_RELAY_REBUILT 1
      | none => s
    else s) s

/-! ### Swarm (R372 to R374) -/

/-- Every enabled port is UP or DOWN, or 100 ms have passed. -/
def execSwarmLinksEnd (elapsedMs : Nat) (s : State) : Host.Outcome State Fault Refusal :=
  if swarmPhase s = 1 ∧ (100 ≤ elapsedMs ∨ (List.range 16).all (fun k => portState s k != 1)) then
    .next (setSwarmPhase { s with swarm := { s.swarm with began := beat s } } 2)
  else .next s

/-- This device's best root candidate and its parent (R372): the lowest FAB_UID among its own, where it is eligible, and the offers of the
ports that are UP; the parent offers the shortest distance to it, ties to the lower neighbour FAB_UID and then the lower port. The
answer: root, distance, parent port; none where nobody is eligible. -/
def electRoot (s : State) (offers : List RootOffer) : Option (Nat × Nat × Nat) :=
  let seen := offers.filter (fun o => decide (o.port < 16) && portState s o.port == 2)
  let own := if flg s Reg.FAB_CTL Fld.FAB_CTL_ROOT_ELIGIBLE then [ownUid s] else []
  match lowestBy id (own ++ seen.map (·.root)) with
  | none => none
  | some r =>
    if own.contains r then some (r, 0, 0)
    else
      let mine := seen.filter (fun o => o.root == r)
      let d := ((lowestBy (·.distance) mine).map (·.distance)).getD 0
      let parent := lowestBy (fun (o : RootOffer) => remoteUid s o.port * 16 + o.port) (mine.filter (fun o => o.distance == d))
      some (r, d + 1, (parent.map (·.port)).getD 0)

/-- The neighbours' offers: the port, the root and the distance of each. -/
def offersOf (ports roots distances : List Nat) : List RootOffer :=
  (ports.zip (roots.zip distances)).map (fun e => ⟨e.1, e.2.1, e.2.2⟩)

/-- ELECT ends when no candidate or distance has changed for 64 beats: the root, this device's depth and its parent port stand, and the
neighbours have been told. Without an eligible device it does not end. -/
def execSwarmElectQuiet (ports roots distances : List Nat) (quietBeats : Nat) (s : State) : Host.Outcome State Fault Refusal :=
  if swarmPhase s ≠ 2 ∨ quietBeats < 64 then .next s
  else match electRoot s (offersOf ports roots distances) with
    | none => .next s
    | some (root, depth, parent) =>
      let s := emit { s with swarm := { s.swarm with root := root, parent := parent, depth := depth } } (.swarmCandidate root depth)
      let a := Reg.FAB_ADDR
      .next (setSwarmPhase (setFld (setFld s a Fld.FAB_ADDR_ROOT (bnat (root == ownUid s))) a Fld.FAB_ADDR_DEPTH depth) 3)

/-- What this device adds to the census: its FAB_UID with the address it holds, and its UP ports with their far ends. -/
def ownCensus (s : State) : (Nat × Option Nat) × List SwarmLink :=
  ((ownUid s, ownAddr s), ((List.range 16).filter (fun k => portState s k == 2)).map (fun k =>
    ⟨ownUid s, k, remoteUid s k, fld s (Reg.FAB_PSTATk k) Fld.FAB_PSTATk_REMOTE_PORT⟩))

/-- The same link, from either end. -/
def sameLink (a b : SwarmLink) : Bool :=
  a == b || (a.uidA == b.uidB && a.portA == b.portB && a.uidB == b.uidA && a.portB == b.portA)

/-- The censuses of this device's children are in, merged: its own joins them, and the whole goes up the tree (R372). -/
def execSwarmCensusDone (nodes : List (Nat × Option Nat)) (links : List SwarmLink) (s : State) : Host.Outcome State Fault Refusal :=
  if swarmPhase s ≠ 3 then .next s
  else
    let (own, up) := ownCensus s
    let ns := nodes.filter (fun n => n.1 != own.1) ++ [own]
    let ls := links ++ up.filter (fun l => !links.any (sameLink l))
    let s := { s with swarm := { s.swarm with census := ns, links := ls } }
    .next (setSwarmPhase (if flg s Reg.FAB_ADDR Fld.FAB_ADDR_ROOT then s else emit s (.swarmCensus ns ls)) 4)

/-- The root keeps every address already held, the first holder in ascending FAB_UID, and gives the other devices in ascending
FAB_UID the lowest free addresses. -/
def assignAddresses (census : List (Nat × Option Nat)) : List SwarmNode :=
  let us := sortBy (fun (e : Nat × Option Nat) => e.1) census
  let held := us.foldl (fun (l : List SwarmNode) e => match e.2 with
    | some a => if l.any (fun n => n.addr == a) then l else l ++ [⟨e.1, a⟩]
    | none => l) []
  us.foldl (fun (l : List SwarmNode) e =>
    if l.any (fun n => n.uid == e.1) then l
    else match (selectBelow (l.length + 1) (fun a => !l.any (fun n => n.addr == a))).head? with
      | some a => l ++ [⟨e.1, a⟩]
      | none => l) held

/-- Every device has its address: the root's own assignment at the root, elsewhere what came down the tree; it goes on down. -/
def execSwarmAssignDone (nodes : List SwarmNode) (links : List SwarmLink) (s : State) : Host.Outcome State Fault Refusal :=
  if swarmPhase s ≠ 4 then .next s
  else
    let root := flg s Reg.FAB_ADDR Fld.FAB_ADDR_ROOT
    let ns := if root then assignAddresses s.swarm.census else nodes
    let ls := if root then s.swarm.links else links
    let s := { s with swarm := { s.swarm with nodes := ns, links := ls } }
    let a := Reg.FAB_ADDR
    let mine := ns.find? (fun n => n.uid == ownUid s)
    let s := setFld (setFld s a Fld.FAB_ADDR_VALID (bnat mine.isSome)) a Fld.FAB_ADDR_ADDR ((mine.map (·.addr)).getD 0)
    let s := setFld s a Fld.FAB_ADDR_ROOT_ADDR (addrOf ns s.swarm.root)
    let s := setFld s Reg.FAB_SWARM Fld.FAB_SWARM_DEVICES ns.length
    .next (setSwarmPhase (emit s (.swarmMap ns ls)) 5)

/-- The ports learn the addresses of their far ends, which end is up, and which links are on the spanning tree. -/
def notePorts (s : State) : State :=
  let w := s.swarm
  let depth := distances w.links w.nodes.length w.root
  let self := ownUid s
  (linksOf w.links self).foldl (fun s e =>
    let a := Reg.FAB_PSTATk e.1
    let onTree := parentOf w.links depth self == some e || parentOf w.links depth e.2.1 == some (e.2.2, self, e.1)
    if portState s e.1 = 2 then
      wr s a (putF Fld.FAB_PSTATk_TREE (bnat onTree) (putF Fld.FAB_PSTATk_UP_REMOTE (bnat (hopUp w.nodes depth self e.2.1))
        (putF Fld.FAB_PSTATk_REMOTE_ADDR (addrOf w.nodes e.2.1) (putF Fld.FAB_PSTATk_REMOTE_VALID 1 (rd s a)))))
    else s) s

/-- The table of a parity for the present links. -/
def writeTable (s : State) (parity : Nat) : List (Nat × Option Route) :=
  let w := s.swarm
  let depth := distances w.links w.nodes.length w.root
  let kept := s.routes.filter (fun e => e.1 / 16384 != parity)
  w.nodes.foldl (fun m n => Sparse.set none m (parity * 16384 + n.addr) (routeFor w.links w.nodes depth (ownUid s) n.uid)) kept

/-- The table of a packet that waits when a new epoch begins: what the device has yet to inject takes the parity of its channel (R374);
a packet in flight keeps its own. DESIGN CHOICE (log entry 79): one sent again under R379 whose own table offers no port that is UP
takes the new one's. -/
def restamp (s : State) (t : Transit) : Transit :=
  let alive := match routeOf s t.pkt with
    | some r => (bitList 16 (r.mask ||| (1 <<< r.escPort))).any (fun k => portState s k == 2)
    | none => true
  if t.inPort.isSome then t
  else if t.resent then (if alive then t else { t with pkt := { t.pkt with ep := epoch s % 2 } })
  else { t with pkt := { t.pkt with ep := stampOf s t.pkt.vc } }

/-- Whether a send or a remote set still waits for its answer. -/
def awaitsAnswer (s : State) (o : Nat × Nat × Nat) : Bool := match startedAt s o.1 o.2.1 o.2.2 with
  | some (_, f) => (match f.waits with
    | .answer _ _ => true
    | _ => false)
  | none => false

/-- The sends and remote sets that wait for their answers. -/
def openAnswers (s : State) : List (Nat × Nat × Nat) :=
  s.ctxs.flatMap (fun c => c.2.cores.flatMap (fun e => match e.2.run with
    | some r => (r.flying.map (fun f => (c.1, e.1, f.id))).filter (awaitsAnswer s)
    | none => []))

/-- The route tables of the new epoch are written and READY begins (R372): the epoch advances, ordered VCs keep the old one,
if there was one, for a while (R374), and what Waggle has in flight runs again (R320). -/
def routesDone (s : State) : State :=
  let e := (epoch s + 1) % 65536
  let first := s.routes.isEmpty
  let s := { s with routes := writeTable s (e % 2), swarm := { s.swarm with
    oldVcs := if first then [] else [0, 5, 7], oldOpen := if first then [] else openAnswers s } }
  let s := notePorts (setSwarmPhase (setFld s Reg.FAB_SWARM Fld.FAB_SWARM_EPOCH e) 6)
  rerunWaggle (pumpFabric { s with fabWait := s.fabWait.map (restamp s) })

/-- Injection on an ordered VC changes over once every packet of it that the device injected under the old epoch has been answered
(R374): on VC5 the sends and remote sets that waited; the packets that the device sends on VC0 and VC7 have no answer. -/
def execEpochSwitch (vc : Nat) (s : State) : Host.Outcome State Fault Refusal :=
  if vc = 5 && s.swarm.oldOpen.any (awaitsAnswer s) then .next s
  else .next { s with swarm := { s.swarm with oldVcs := s.swarm.oldVcs.filter (fun v => v != vc) } }

end Sys2Proof.Machine
end

