-- ==== Sys2Proof/Machine/Clocks.lean ====
section
/-! DEFINITION. ALERT_N (R436, R490), the boot phase (R502, R512) and the clock domains (R395 to R397, R503, R511). -/

namespace Sys2Proof.Machine

/-! ### ALERT_N (R436, R490) -/

/-- The condition of R436: a FATAL record, or a class that ERR_ALERT_MASK names, is sticky. -/
def alertCond (s : State) : Bool :=
  flg s Reg.ERR_STICKY Fld.ERR_STICKY_FATAL
    || decide (fld s Reg.ERR_STICKY Fld.ERR_STICKY_CLASS &&& fld s Reg.ERR_ALERT_MASK Fld.ERR_ALERT_MASK_CLASS ≠ 0)

/-- Whether ALERT_N is asserted: R436, a failed clock domain (R397), a reversed sense line (R491). -/
def alertOn (s : State) : Bool := s.pins.alert || s.pins.clkAlert || s.pins.senseAlert

/-- ALERT_N follows a change from `old`; the I3C target raises an in-band interrupt each time the condition of R436 begins
(R490). -/
def alertSync (old s : State) : State :=
  let c := alertCond s
  let s := { s with pins := { s.pins with alert := c } }
  let s := if c && !old.pins.alert then emit s .inBandInterrupt else s
  if alertOn s = alertOn old then s else emit s (.alertN (alertOn s))

/-! ### Boot phase and fault (R502, R512) -/

def bootPhase (s : State) : Nat := fld s Reg.BOOT_STATUS Fld.BOOT_STATUS_PHASE

/-- A transition of PHASE queues a boot phase event (R512). -/
def setBootPhase (s : State) (v : Nat) : State :=
  let s := setFld s Reg.BOOT_STATUS Fld.BOOT_STATUS_PHASE v
  pushEvent s (.bootPhase (rd s Reg.BOOT_STATUS))

def setBootFault (s : State) (v : Nat) : State := setFld s Reg.BOOT_STATUS Fld.BOOT_STATUS_FAULT v

/-! ### Clock domains (R395, R503, R511) -/

/-- A domain's STATE, and its bits of CLK_SUMMARY (R503). -/
def setClk (s : State) (d v : Nat) : State :=
  let s := setFld s (Reg.CLK_DOM d) Fld.CLK_DOM_STATE v
  setFld (setFld s Reg.CLK_SUMMARY ⟨d, 1⟩ (bnat (v == 2))) Reg.CLK_SUMMARY ⟨32 + d, 1⟩ (bnat (v == 3))

/-- The domains of a start-up stage, A to D as 0 to 3 (R511). -/
def stageDomains (g : Nat) : List Nat :=
  match g with
  | 0 => [22, 23, 24]
  | 1 => [17]
  | 2 => [0, 1, 2, 3, 4, 5, 6, 7]
  | 3 => [8, 9, 10, 11, 12, 13, 14, 15, 16, 18, 19, 20, 21]
  | _ => []

/-- The stage of a domain. -/
def stageOfDomain (d : Nat) : Nat :=
  if d < 8 then 2 else if 22 ≤ d then 0 else if d = 17 then 1 else 3

/-- A stage's domains start to lock. -/
def startStage (s : State) (g : Nat) : State :=
  (stageDomains g).foldl (fun s d => if clkState s d = 0 then setClk s d 1 else s) s

/-- Whether a partition has memory of an HBM stack: pseudo-channels 32·(k mod 2) to 32·(k mod 2) + 31 of die ⌊k ÷ 2⌋. -/
def usesStack (s : State) (p k : Nat) : Bool := (List.range 32).any (fun c => hbmOwned s p (k / 2) (32 * (k % 2) + c))

/-- Whether a partition has second-tier memory on a die. -/
def usesL2 (s : State) (p d : Nat) : Bool := (List.range 64).any (fun g => granuleOwner s (64 * d + g) == some p)

/-- Whether a partition has a core on a die. -/
def usesDie (s : State) (p d : Nat) : Bool := (coresOf s p).any (fun c => dieOf c == d)

/-- Whether a domain serves a core or memory of a partition; KCLK, SECCLK and HUMCLK serve every context (R395, R397). -/
def clkServes (s : State) (p d : Nat) : Bool :=
  if d < 4 then usesDie s p d
  else if d < 8 then usesDie s p (d - 4) || usesStack s p (2 * (d - 4)) || usesStack s p (2 * (d - 4) + 1) || usesL2 s p (d - 4)
  else if d < 16 then usesStack s p (d - 8)
  else if d = 16 then (List.range 4).any (usesL2 s p)
  else decide (22 ≤ d)

/-- A number of relock attempts: the spec gives no count (log entry 2). -/
def drawAttempts (s : State) (d : Nat) : State :=
  setFld { s with free := s.free + 1 } (Reg.CLK_DOM d) Fld.CLK_DOM_ATTEMPTS (min 255 (Config.freeNat s.free))

/-- A LOCKED domain's PLL loses lock: the domain is held in reset while it tries to relock (R397). -/
def execPllLossOfLock (dom : Nat) (s : State) : Host.Outcome State Fault Refusal :=
  if dom < 25 && clkState s dom == 2 then .next (setClk s dom 1) else .next s

/-- The domain has not relocked: FAILED, ALERT_N, CLK_UNLOCK, the contexts it serves FAULTED (R397); in stages C and D, FAULT
5 (R511). -/
def execClkUnlock (dom : Nat) (s : State) : Host.Outcome State Fault Refusal :=
  if dom < 25 && clkState s dom == 1 then
    let old := s
    let s := setClk (drawAttempts s dom) dom 3
    let s := if stageOfDomain dom < 2 then s else setBootFault s 5
    let s := raiseDev s 0x1401 sevFatal dom (fld s (Reg.CLK_DOM dom) Fld.CLK_DOM_ATTEMPTS) 0 0 0
    let s := ((residents s).filter (fun x => clkServes s (getCtx s x).part dom)).foldl faultCtx s
    .next (alertSync old { s with pins := { s.pins with clkAlert := true } })
  else .next s

def bootMode (s : State) : Nat := fld s Reg.PRP_STATUS Fld.PRP_STATUS_BOOT_MODE

/-- Whether every domain of the stages before `g` is LOCKED (R511). -/
def stagesLocked (s : State) (g : Nat) : Bool := (List.range g).all (fun h => (stageDomains h).all (fun d => clkState s d == 2))

/-- Whether the boot has come to the point at which stage `g` starts (R511); under BOOT_MODE 0b01 the host port, and with it stage B,
comes up once the firmware starts (R465). -/
def stageDue (s : State) (g : Nat) : Bool :=
  let ph := bootPhase s
  match g with
  | 0 => true
  | 1 => if bootMode s = 1 then decide (5 ≤ ph ∧ ph ≤ 9) else decide (bootMode s ≠ 3)
  | 2 => decide (5 ≤ ph ∧ ph ≤ 9)
  | _ => decide (6 ≤ ph ∧ ph ≤ 9)

/-- The host port begins to train once ECLK is LOCKED (R442, R459, R511). -/
def ethBegins (s : State) : State :=
  if clkState s 17 = 2 ∧ fld s Reg.ETH_STATUS Fld.ETH_STATUS_STATE = 0 then setFld s Reg.ETH_STATUS Fld.ETH_STATUS_STATE 1 else s

/-- The stages B to D that are due start (R511). -/
def startDue (s : State) : State :=
  ethBegins ([1, 2, 3].foldl (fun s g => if stageDue s g && stagesLocked s g then startStage s g else s) s)

/-- The domain relocks within its 20 µs and leaves reset (R397). -/
def execPllRelock (dom : Nat) (s : State) : Host.Outcome State Fault Refusal :=
  if dom < 25 && clkState s dom == 1 then .next (startDue (setClk (drawAttempts s dom) dom 2)) else .next s

/-- Stage A is LOCKED: the boot ROM begins at the PHASE that BOOT_MODE asks for, or rests with FAULT 3 under 0b11 (R465, R512). -/
def romBegins (s : State) : State :=
  if bootPhase s = 1 ∧ clkState s 17 = 0 then
    match bootMode s with
    | 1 => setBootPhase s 0x0A
    | 3 => setBootFault s 3
    | _ => setBootPhase s 1
  else s

/-- A stage's domains are LOCKED (R511). -/
def execClockStageLocked (stage : Nat) (khz : List (Nat × Nat)) (s : State) : Host.Outcome State Fault Refusal :=
  let ds := stageDomains stage
  if ds.any (fun d => clkState s d == 1) && ds.all (fun d => clkState s d == 1 || clkState s d == 2) then
    let s := ds.foldl (fun s d => setFld (setClk s d 2) (Reg.CLK_DOM d) Fld.CLK_DOM_FREQ_KHZ ((khz.lookup d).getD 0)) s
    .next (startDue (if stage = 0 then romBegins s else s))
  else .next s

end Sys2Proof.Machine
end

