-- ==== Sys2Proof/Machine/EthAddr.lean ====
section
/-! DEFINITION. The host port's addresses and the frames that leave it (R441, R443, R444). -/

namespace Sys2Proof.Machine

/-! ### The device's own addresses (R441, R459) -/

def ownMac (s : State) : Nat := fld s Reg.ETH_MAC Fld.ETH_MAC_MAC

/-- An IPv4 address as a number of 128 bits. -/
def ip4 (a : Nat) : Nat := 0xFFFF00000000 + a % 2 ^ 32

/-- The link-local address: fe80::/64 and the modified EUI-64 of ETH_MAC (R459). -/
def linkLocal (s : State) : Nat :=
  let m := ownMac s
  0xFE80 * 2 ^ 112 + (m / 2 ^ 24 ^^^ 0x020000) * 2 ^ 40 + 0xFFFE * 2 ^ 24 + m % 2 ^ 24

/-- The IPv6 addresses that the registers give the device: link-local, and the global one unless it is zero (R471). -/
def given6 (s : State) : List Nat :=
  let g := (rd s (Reg.ETH_IPV6H 0)).toNat * 2 ^ 64 + (rd s (Reg.ETH_IPV6H 1)).toNat
  linkLocal s :: (if g = 0 then [] else [g])

/-- Those in use: an address found to be another's is not (R441). -/
def own6 (s : State) : List Nat := (given6 s).filter (fun a => !s.eth.dups.contains a)

/-- The IPv4 address, while it is in use (R471). -/
def own4 (s : State) : List Nat :=
  if flg s Reg.ETH_CTL Fld.ETH_CTL_IPV4_EN then [ip4 (fld s Reg.ETH_IPV4 Fld.ETH_IPV4_ADDR)] else []

def ownIp (s : State) (a : Nat) : Bool := (own4 s ++ own6 s).contains a

/-- ff02::1. -/
def allNodes : Nat := 0xFF02 * 2 ^ 112 + 1

/-- The multicast addresses of PTP: of frames (IEEE 1588, and those of its IP groups), 224.0.1.129, 224.0.0.107, ff0x::181, ff02::6b
(PRESUMED, log entry 48). -/
def ptpMacs : List Nat := [0x011B19000000, 0x0180C200000E, 0x01005E000181, 0x01005E00006B, 0x333300000181, 0x33330000006B]
def ptpGroup (a : Nat) : Bool :=
  [ip4 0xE0000181, ip4 0xE000006B, 0xFF02 * 2 ^ 112 + 0x6B].contains a || (a / 2 ^ 116 == 0xFF0 && a % 2 ^ 112 == 0x181)

/-- Whether the port accepts a frame to a MAC address: its own, broadcast, all-nodes, solicited-node, and with PTP_EN those of PTP. -/
def macAccepted (s : State) (dst : Nat) : Bool :=
  [ownMac s, 0xFFFFFFFFFFFF, 0x333300000001].contains dst || (own6 s).any (fun a => dst == 0x3333FF000000 + a % 2 ^ 24)
    || (flg s Reg.HUM_CTL Fld.HUM_CTL_PTP_EN && ptpMacs.contains dst)

/-! ### Frames that leave (R441, R444) -/

/-- Whether the host port is UP (R471), and not held in reset with ECLK (R397). -/
def ethUp (s : State) : Bool := decide (2 ≤ fld s Reg.ETH_STATUS Fld.ETH_STATUS_STATE) && !clkHeld s 17

/-- Whether MACsec is in force (R444). -/
def secOn (s : State) : Bool := flg s Reg.ETH_SEC Fld.ETH_SEC_EN

/-- The SCI of both channels: ETH_MAC, then port identifier 1. -/
def ownSci (s : State) : Nat := ownMac s * 65536 + 1

/-- The last packet number used by a transmit association. -/
def txPn (s : State) (an : Nat) : Nat := (s.eth.txPn.lookup an).getD 0

/-- A SAK is installed for an association and a direction (true: transmit). -/
def hasKey (s : State) (an : Nat) (tx : Bool) : Bool := s.eth.keys.any (fun k => k.1 == an && k.2.1 == tx)

/-- A frame offered under MACsec: it takes the next packet number and leaves under a SecTAG, or is held back and counted; KEY_LOW at the
low-key mark. -/
def secFrame (s : State) : State × Bool :=
  let an := fld s Reg.ETH_SEC Fld.ETH_SEC_TX_AN
  let pn := txPn s an
  if !hasKey s an true || decide (0xFFFFFFFF ≤ pn) then (bump s Reg.ETH_SECCNT Fld.ETH_SECCNT_BLOCKED 1, false)
  else
    let s := { s with eth := { s.eth with txPn := (an, pn + 1) :: s.eth.txPn.filter (fun e => e.1 != an) } }
    let s := emit s (.secTag an (pn + 1) (ownSci s))
    (if pn = 0xFFFFFF00 then pushEvent s (.keyLow an (pn + 1)) else s, true)

/-- `n` frames offered to the host port; whether all of them left. -/
def frameOut : Nat → State → State × Bool
  | 0, s => (s, true)
  | n + 1, s =>
    if !ethUp s then (s, false)
    else if secOn s then
      let (s, a) := secFrame s
      let (s, b) := frameOut n s
      (s, a && b)
    else frameOut n s

/-- Duplicate address detection of an IPv6 address that the device has come to use since the link came up (R441). -/
def probeAddrs (s : State) : State :=
  if ethUp s then
    let s := ((given6 s).filter (fun a => !s.eth.probed.contains a)).foldl (fun s a =>
      let (s, left) := frameOut 1 s
      if left then emit s (.addressProbe a) else s) s
    { s with eth := { s.eth with probed := given6 s, dups := s.eth.dups.filter (fun a => (given6 s).contains a) } }
  else s

end Sys2Proof.Machine
end

