-- ==== Sys2Proof/Machine/Inject.lean ====
section
/-! DEFINITION. The device's own messages enter the fabric (R274, R300, R315, R360, R364, R367, R368, R374): each becomes packets
or Waggle cells that wait for the ports like packets to be forwarded. BEAT_TICK hands them over (log entry 63). -/

namespace Sys2Proof.Machine

/-! ### Packets (R360, R367, R368, R374) -/

/-- HOPS as a sender sets it (R367). -/
def firstHops (s : State) : Nat := max 1 (fld s Reg.FAB_CTL Fld.FAB_CTL_MAX_HOPS)

/-- A packet as its source sends it. -/
def ownPacket (s : State) (vc dest : Nat) (data : List Byte) : Packet :=
  ⟨dest, stampOf s vc, false, (ownAddr s).getD 0, vc, firstHops s, data⟩

/-- Who sends a packet: the partition that injects it, and its group's slot (R312, R313, R365). -/
structure Sender where
  part : Option Nat
  slot : Nat
deriving DecidableEq, Repr

/-- The device itself, and a context. -/
def device : Sender := ⟨none, 0⟩
def ofCtx (s : State) (x : Nat) : Sender := ⟨some (getCtx s x).part, 0⟩

/-- A packet joins those that wait for a port: for its route, or for the port `via`. -/
def handOver (s : State) (o : Sender) (via : Option Nat) (resent : Bool) (p : Packet) : State :=
  { s with fabWait := s.fabWait ++ [⟨s.nextPkt, none, false, false, p, via, o.part, o.slot, resent⟩], nextPkt := s.nextPkt + 1 }

/-- A payload of at most `most` bytes whose layout and length the spec does not state (log entry 63). -/
def openPayload (s : State) (most : Nat) : List Byte × State :=
  drawBytes { s with free := s.free + 1 } (1 + Config.freeNat s.free % most)

/-- A message in payloads of at most 4,344 bytes (R360). -/
def cutPayload (bs : List Byte) : List (List Byte) :=
  (List.range (max 1 (ceilDiv bs.length 4344))).map (fun i => (bs.drop (4344 * i)).take 4344)

/-- Packets to another device's address. -/
def toAddr (s : State) (o : Sender) (vc a : Nat) (parts : List (List Byte)) : State :=
  if ownAddr s = some a then s else parts.foldl (fun s d => handOver s o none false (ownPacket s vc a d)) s

/-- A message of an open payload to an address; a confirmation takes another route than the port lost (R379). -/
def toAddrOpen (s : State) (o : Sender) (resent : Bool) (vc a : Nat) : State :=
  let (d, s1) := openPayload s 4344
  if ownAddr s = some a then s else handOver s1 o none resent (ownPacket s1 vc a d)

/-- A message to the device of a job rank. -/
def toRank (s : State) (o : Sender) (vc r : Nat) (bs : List Byte) : State := match rankAddr s r with
  | some a => toAddr s o vc a (cutPayload bs)
  | none => s

def toRankOpen (s : State) (o : Sender) (vc r : Nat) : State := match rankAddr s r with
  | some a => toAddrOpen s o false vc a
  | none => s

/-- A Waggle cell, or a credit return, for the far end of a port (R357, R364). -/
def toPort (s : State) (vc k : Nat) : State :=
  let (d, s) := openPayload s (if vc = 1 then 56 else 248)
  handOver s device (some k) false (ownPacket s vc (fld s (Reg.FAB_PSTATk k) Fld.FAB_PSTATk_REMOTE_ADDR) d)

/-! ### Chunks on the link (R233, R238, R239, R300) -/

/-- The collective header (R300). -/
def colHeader (sig : Sig) (src stage : Nat) (first : Bool) (elem lateRank lateBeat earlyBeat : Nat) : List Byte :=
  leBytes 8 sig.w0.toNat ++ leBytes 8 sig.w1.toNat ++ leBytes 2 (src % 4096 + 4096 * (stage % 16)) ++ leBytes 1 (bnat first)
    ++ leBytes 1 0 ++ leBytes 5 elem ++ leBytes 2 (lateRank % 4096) ++ leBytes 5 0 ++ leBytes 8 lateBeat ++ leBytes 8 earlyBeat

/-- The reduction fields (R233). -/
def redFields (srcRes rndRes : Nat) (nonfinite : Bool) (chunk count form round part parts mag icrc : Nat) : List Byte :=
  leBytes 4 (srcRes % 2 ^ 31 + 2 ^ 31 * bnat nonfinite) ++ leBytes 4 (rndRes % 2 ^ 31) ++ leBytes 4 chunk ++ leBytes 2 count
    ++ leBytes 1 (form % 4 + 4 * (round % 16)) ++ leBytes 1 (part % 8 + 8 * (parts % 16)) ++ leBytes 4 mag ++ leBytes 4 icrc
    ++ leBytes 8 0

/-- A bulk chunk: header, reduction fields and payload (R300). -/
def chunkBytes (sig : Sig) (src : Nat) (first : Bool) (lateRank lateBeat earlyBeat : Nat) (c : OutChunk) : List Byte :=
  let sums := sig.red == 0 && opCombines sig.op && !c.gather
  let body := if c.cargo.vals.isEmpty then c.data else c.cargo.vals.flatMap (leBytes 8)
  let fields :=
    if sums then redFields c.cargo.srcRes c.cargo.rndRes c.cargo.nonfinite (c.elem / 1024) c.cargo.vals.length 0 c.stage 0 0 0 0
    else leBytes 4 (crc32c body) ++ leBytes 28 0
  colHeader sig src c.stage first c.elem lateRank lateBeat earlyBeat ++ fields ++ body

/-- The code of a form (R233). -/
def formCode : ChunkForm → Nat
  | .dense => 0
  | .sparse => 1
  | .sign => 2

/-- The payload of a gradient chunk: FP32 values, sparse entries (R238), or sign bits (R239). -/
def gradBody (w : GradWire) : List Byte :=
  match w.form with
  | .dense => w.vals.flatMap (fun v => leBytes 4 v.toNat)
  | .sparse => (w.idxs.zip w.vals).flatMap (fun e => leBytes 4 (e.1 % 4096) ++ leBytes 4 e.2.toNat)
  | .sign => (List.range (w.signs.length / 8)).flatMap fun i =>
      leBytes 1 (ofBits ((List.range 8).filter (fun j => w.signs.getD (8 * i + j) false)))

/-- A gradient chunk: header, reduction fields and payload. -/
def gradBytes (sig : Sig) (src : Nat) (first : Bool) (lateRank lateBeat earlyBeat : Nat) (w : GradWire) : List Byte :=
  let count := match w.form with
    | .dense => w.vals.length
    | .sparse => w.idxs.length
    | .sign => w.signs.length
  let icrc := if w.form = .sparse then crc32c (w.idxs.flatMap (fun i => leBytes 4 (i % 4096))) else 0
  colHeader sig src w.round first (w.chunk * 1024) lateRank lateBeat earlyBeat
    ++ redFields w.srcRes w.rndRes w.nonfinite w.chunk count (formCode w.form) w.round w.part w.parts w.mag icrc ++ gradBody w

/-! ### What each message becomes -/

/-- The group of an id with its slot, and the job rank of one of its members. -/
def grpOf (s : State) (gid : Nat) : Option (Nat × Grp) := s.grps.find? (fun e => e.2.valid && e.2.gid == gid)
def memberRank (s : State) (gid m : Nat) : Option Nat := (grpOf s gid).bind (fun e => e.2.members[m]?)

/-- The job rank of the backup device of a member (R252). -/
def backupRank (s : State) (gid m : Nat) : Option Nat :=
  (grpOf s gid).bind (fun e => (reduceOf s e.2.part).bind (fun r => (r.2.backups.find? (fun b => b.1 == m)).map (·.2)))

/-- What a group sends. -/
def ofGroup (s : State) (gid : Nat) : Sender := match grpOf s gid with
  | some e => ⟨some e.2.part, e.1⟩
  | none => device

/-- A stage item's packets, to the device of its position or to that device's backup (R198, R252, R364). -/
def toStage (s : State) (p pos : Nat) (forward copy : Bool) (i : StageItem) : State :=
  match (stageOf s p).bind (fun e => (stageRank e.2 pos copy).bind (rankAddr s)) with
  | some a => toAddr s ⟨some p, 0⟩ (if forward then 4 else 3) a (itemPayloads i)
  | none => s

/-- A credit or a report of a stage queue, to the device that sends the queue its items (R198, R199). -/
def toStageSender (s : State) (p j : Nat) (forward : Bool) : State :=
  match stageOf s p with
  | none => s
  | some (_, g) =>
    let k := g.logical j
    if forward && k == 0 then s
    else match g.ranks[(if forward then k - 1 else k + 1) % g.positions]? with
      | some r => toRankOpen s ⟨some p, 0⟩ 0 r
      | none => s

/-- The tree ports of a group at this device (R315). -/
def groupPorts (s : State) (gid : Nat) : List Nat :=
  match s.trees.find? (fun e => e.2.valid && e.2.gid == gid && (e.2.relay || decide (256 ≤ e.2.local_))) with
  | some (_, v) => (if v.root then [] else [v.up]) ++ bitList 16 v.down
  | none => []

/-- What the device says to a partition's reduction group goes up the group's tree (R318). -/
def upTree (s : State) (p : Nat) : State :=
  match (redSlot s p).bind (fun k => (getGrp s k).tree) with
  | some k => if (getTree s k).root then s else toPort s 1 (getTree s k).up
  | none => s

/-- A message of the device as packets or cells: answers and confirmations on VC0, Waggle on VC1, chunks on VC2, messages and
remote sets on VC5, checkpoint copies on VC6, stage items on VC3 and VC4 (R364). What stays on the device, or whose receiver the spec does not name, makes
none. -/
def injectOut (s : State) (o : Output) : State :=
  match o with
  | .ringMsg r _ m => if r = m.srcRank then s else toRank s (ofCtx s m.srcCtx) 5 r m.bytes
  | .remoteSet x r _ => if r = ownRank s x then s else toRankOpen s (ofCtx s x) 5 r
  | .ringAnswer _ r _ _ _ _ => toRankOpen s device 0 r
  | .setAnswer r _ _ => toRankOpen s device 0 r
  | .bulkChunk gid sig src first lr lb eb c => match memberRank s gid c.dest with
    | some r => toRank s (ofGroup s gid) 2 r (chunkBytes sig src first lr lb eb c)
    | none => s
  | .chunkRetry gid src _ _ => match memberRank s gid src with
    | some r => toRankOpen s device 0 r
    | none => s
  | .stageItem p pos forward copy i => toStage s p pos forward copy i
  | .stageCredit p j forward => toStageSender s p j forward
  | .stageCapped p j forward _ _ => toStageSender s p j forward
  | .gradChunk gid sig src dest first lr lb eb copy w =>
    match (if copy then backupRank s gid dest else memberRank s gid dest) with
    | some r => toRank s (ofGroup s gid) 2 r (gradBytes sig src first lr lb eb w)
    | none => s
  | .stepOr p _ _ => upTree s p
  | .commitVote p _ _ _ _ _ => upTree s p
  | .ckptCopy p _ buddy slot => toRank s ⟨some p, 0⟩ 6 buddy slot
  | .ckptAck _ _ rank => toRankOpen s device 0 rank
  | .wagUp _ k _ _ _ => toPort s 1 k
  | .wagDown _ k _ _ _ => toPort s 1 k
  | .barUp _ k _ => toPort s 1 k
  | .barDown _ k _ => toPort s 1 k
  | .abortNotice gid _ _ _ _ => (groupPorts s gid).foldl (fun s k => toPort s 1 k) s
  | .humCell k _ _ _ => toPort s 1 k
  | .humStamp k => toPort s 1 k
  | .confirmAsk k => toAddrOpen s device true 0 (fld s (Reg.FAB_PSTATk k) Fld.FAB_PSTATk_REMOTE_ADDR)
  | .confirmTell k _ => toAddrOpen s device true 0 (fld s (Reg.FAB_PSTATk k) Fld.FAB_PSTATk_REMOTE_ADDR)
  | .credit k vc _ _ => if vc = 0 then s else toPort s 0 k
  | _ => s

/-- The VC0 flits freed that no unit's trailer has told return in the trailers of idle units (R357, R364). -/
def flushC0 (s : State) : State :=
  (s.ports.map (·.1)).foldl (fun s k =>
    let n := (getPort s k).c0Due
    if n = 0 then s else emit (setPort s k { getPort s k with c0Due := 0 }) (.credit k 0 1 n)) s

/-- What the device has sent since the last beat enters the fabric. -/
def pushOut (s : State) : State :=
  match s.out.drop s.handed with
  | [] => s
  | os => pumpFabric (os.foldl injectOut { s with handed := s.out.length })

end Sys2Proof.Machine
end

