-- ==== Sys2Proof/Machine/Power.lean ====
section
/-! DEFINITION. Rails, AVSBus, telemetry, the throttle and droop (R474 to R493). -/

namespace Sys2Proof.Machine

/-! ### Limits as PWR_CTL gives them (R493) -/

/-- POWER_LIMIT_W: values outside 800 to 2,600 are treated as 2,600. -/
def powerLimit (s : State) : Nat :=
  let v := fld s Reg.PWR_CTL Fld.PWR_CTL_POWER_LIMIT_W
  if 800 ≤ v ∧ v ≤ 2600 then v else 2600

/-- THR_TEMP: values outside 70 to 105 are treated as 105. -/
def thrTemp (s : State) : Nat :=
  let v := fld s Reg.PWR_CTL Fld.PWR_CTL_THR_TEMP
  if 70 ≤ v ∧ v ≤ 105 then v else 105

/-- FLOOR, 4 to 64. -/
def dutyFloor (s : State) : Nat := min 64 (max 4 (fld s Reg.PWR_CTL Fld.PWR_CTL_FLOOR))

/-- OFFSET_MV, signed: values outside −25 to 50 are treated as 0. -/
def offsetMv (s : State) : Int :=
  let v := asSigned 8 (fld s Reg.PWR_AVS Fld.PWR_AVS_OFFSET_MV)
  if -25 ≤ v ∧ v ≤ 50 then v else 0

def setMv (s : State) : Nat := fld s Reg.PWR_AVS Fld.PWR_AVS_SET_MV
def avsHalted (s : State) : Bool := flg s Reg.PWR_AVS Fld.PWR_AVS_HALTED

/-! ### DUTY (R480, R481, R485) -/

/-- DUTY of a die. -/
def dutyOf (s : State) (d : Nat) : Nat := fld s Reg.PWR_DUTY ⟨8 * d, 7⟩

/-- The DUTY of the four dies. -/
def setDuties (s : State) (l : List Nat) : State :=
  l.zipIdx.foldl (fun s e => setFld s Reg.PWR_DUTY ⟨8 * e.2, 7⟩ e.1) s

/-- A die whose temperature sensors are all ignored runs at FLOOR (R491). -/
def dieBlind (s : State) (d : Nat) : Bool := (List.range 16).all (fun i => s.pwr.ignored.contains (16 * d + i))

/-- A die held at FLOOR by a fault (R478, R491). -/
def heldFloor (s : State) (d : Nat) : Bool := s.pwr.floorAll || dieBlind s d

/-- The evaluation of one die from the DUTY it has (R480). -/
def dutyStep (s : State) (pkgW : Nat) (temp : Int) (held : Bool) (duty : Nat) : Nat :=
  let f := dutyFloor s
  if held then f
  else if powerLimit s < pkgW ∨ (thrTemp s : Int) < temp then min 64 (max f (duty - 4))
  else if pkgW + fld s Reg.PWR_CTL Fld.PWR_CTL_HYST_W < powerLimit s ∧ temp < (thrTemp s : Int) - 2 then min 64 (max f (duty + 1))
  else min 64 (max f duty)

/-- The causes of PWR_DUTY.CAUSE that the throttle sees: power, current, temperature (R493). -/
def throttleCause (s : State) (b : BeatInputs) (brake : Bool) : Nat :=
  bnat (decide (powerLimit s < b.pkgW)) + 2 * bnat brake + 4 * bnat (b.dieTemp.any (fun t => decide ((thrTemp s : Int) < t)))

/-- Droop and the fault floor in PWR_DUTY.CAUSE. -/
def causeSync (s : State) : State :=
  let droop := s.pwr.droops.any (fun e => e.2.paused)
  let floor := (List.range 4).any (heldFloor s)
  setFld s Reg.PWR_DUTY ⟨35, 2⟩ (bnat droop + 2 * bnat floor)

/-- A throttle episode begins, goes on or ends (R485). -/
def throttleEpisode (s : State) (cause : Nat) (temps : List Int) : State :=
  let ds := (List.range 4).map (dutyOf s)
  if ds.any (fun d => decide (d < 64)) then
    let s := bump s Reg.PWR_STAT Fld.PWR_STAT_THROTTLE_BEATS 1
    let s := { s with pwr := { s.pwr with lastBelow := beat s } }
    if s.pwr.episode.isSome then s
    else
      let first := ((ds.zipIdx.find? (fun e => decide (e.1 < 64))).map (·.2)).getD 0
      let packed := ds.zipIdx.foldl (fun a e => a + e.1 * 2 ^ (8 * e.2)) 0
      let s := { s with pwr := { s.pwr with episode := some (beat s) } }
      raiseDev s 0x0C02 sevCorrected first cause (toTwos 64 (temps.foldl max (temps.headD 0))) packed (beat s)
  else match s.pwr.episode with
    | some _ => if s.pwr.lastBelow + 1000 ≤ beat s then { s with pwr := { s.pwr with episode := none } } else s
    | none => s

/-- The beats among the last 10,000 above 2,700 A (R481). -/
def oversNow (s : State) (amps : Nat) : List Nat :=
  let l := s.pwr.overs.filter (fun b => decide (beat s < b + 10000))
  if 2700 < amps then l ++ [beat s] else l

/-- THROTTLE_EVALUATION at a beat (R480, R481): the DUTY of every die for the next beat, which is 4 when the current asks for
it; afterwards each die goes on from the DUTY evaluated before. -/
def throttleTick (s : State) (b : BeatInputs) : State :=
  let count := (s.pwr.overs.filter (fun v => decide (beat s < v + 10000))).length
  let brake := decide (3200 < b.amps) || (decide (2700 < b.amps) && decide (1000 ≤ count))
  let base (d : Nat) : Nat := if s.pwr.brake then s.pwr.duty.getD d 64 else dutyOf s d
  let next := (List.range 4).map (fun d => dutyStep s b.pkgW (b.dieTemp.getD d (-40)) (heldFloor s d) (base d))
  let cause := throttleCause s b brake
  let overs := oversNow s b.amps
  let s := { s with pwr := { s.pwr with overs := overs, brake := brake, duty := next } }
  let s := setFld (setDuties s (if brake then [4, 4, 4, 4] else next)) Reg.PWR_DUTY ⟨32, 3⟩ cause
  throttleEpisode (causeSync s) cause b.dieTemp

/-! ### Droop (R482) -/

def setDroop (s : State) (d : Nat) (v : Droop) : State :=
  { s with pwr := { s.pwr with droops := (d, v) :: s.pwr.droops.filter (fun e => e.1 != d) } }

/-- VCORE falls more than 40 mV below SET_MV on a die: a pause of 64 cycles, and one record an episode (R482). -/
def execVcoreDroop (die mv : Nat) (s : State) : Host.Outcome State Fault Refusal :=
  let v := getDroop s die
  if 4 ≤ die ∨ setMv s ≤ mv + 40 ∨ v.paused then .next s
  else
    let s := bump s Reg.PWR_STAT Fld.PWR_STAT_DROOPS 1
    let goesOn := v.start.isSome && decide (beat s < v.last + 1000)
    if goesOn then
      .next (causeSync (setDroop s die { v with paused := true, last := beat s, pauses := v.pauses + 1, lowest := min v.lowest mv }))
    else
      let s := raiseDev s 0x0C01 sevCorrected die mv (setMv s) 1 (beat s)
      .next (causeSync (setDroop s die ⟨true, beat s, some (beat s), 1, mv⟩))

/-- The pause ends and starts resume (R482, R484). -/
def execDroopPauseEnd (die : Nat) (s : State) : Host.Outcome State Fault Refusal :=
  let v := getDroop s die
  if v.paused then .next (causeSync (setDroop s die { v with paused := false })) else .next s

/-! ### Telemetry (R477 to R479, R491) -/

/-- The sensors of a die, of the hub, of the stacks and of the engines (R479). -/
def sensorGroup (i : Nat) : List Nat :=
  if i < 64 then (List.range 16).map (fun k => i / 16 * 16 + k)
  else if i < 68 then [64, 65, 66, 67]
  else []

/-- The readings of sensors that are not ignored. -/
def readingsOf (s : State) (t : TelemetrySample) (ids : List Nat) : List Int :=
  (ids.filter (fun i => !s.pwr.ignored.contains i)).filterMap (fun i => t.sensors.lookup i)

/-- Twice the median of some readings (R491). -/
def median2 (l : List Int) : Int :=
  let v := sortBy (fun x => (x + 100000).toNat) l
  v.getD ((v.length - 1) / 2) 0 + v.getD (v.length / 2) 0

/-- PWR_SENSOR_FAULT (R492). -/
def sensorRecord (s : State) (id cause : Nat) (reading ref : Int) : State :=
  raiseDev s 0x0C04 sevError id cause (toTwos 64 reading) (toTwos 64 ref) (beat s)

/-- A sensor is found faulty and ignored. -/
def ignoreSensor (s : State) (id cause : Nat) (reading ref : Int) : State :=
  sensorRecord { s with pwr := { s.pwr with ignored := s.pwr.ignored ++ [id] } } id cause reading ref

/-- A sensor is tested (R491): outside −40 to 150 °C, or more than 10 °C from the median of its die for 100 beats. -/
def testSensor (t : TelemetrySample) (s : State) (id : Nat) : State :=
  match t.sensors.lookup id with
  | none => s
  | some v =>
    if s.pwr.ignored.contains id then s
    else
      let m := median2 (readingsOf s t (sensorGroup id))
      let off := decide (id < 68) && decide (20 < (2 * v - m).natAbs)
      let since := (s.pwr.apart.lookup id).getD (beat s)
      let rest := s.pwr.apart.filter (fun e => e.1 != id)
      if v < -40 ∨ 150 < v then ignoreSensor s id 1 v (m / 2)
      else if off then
        let s := { s with pwr := { s.pwr with apart := (id, since) :: rest } }
        if since + 100 ≤ beat s then ignoreSensor s id 2 v (m / 2) else s
      else { s with pwr := { s.pwr with apart := rest } }

/-- The sense lines (R491): open when the AVS readback and a die's monitor differ by more than 25 mV for 100 beats; reversed
when a monitor reads above 0.90 V. -/
def testSense (s : State) (t : TelemetrySample) : State :=
  let far := t.monitorMv.zipIdx.find? (fun e => decide (25 < ((e.1 : Int) - (t.vcoreMv : Int)).natAbs))
  let s := match far with
    | none => { s with pwr := { s.pwr with sense := none, senseLogged := false } }
    | some (mv, d) =>
      let since := s.pwr.sense.getD (beat s)
      let s := { s with pwr := { s.pwr with sense := some since } }
      if since + 100 ≤ beat s ∧ !s.pwr.senseLogged then
        sensorRecord { s with pwr := { s.pwr with senseLogged := true } } (80 + d) 3 mv t.vcoreMv
      else s
  match t.monitorMv.zipIdx.find? (fun e => decide (900 < e.1)) with
  | some (mv, d) =>
    if s.pwr.overVolt then s
    else sensorRecord { s with
      pwr := { s.pwr with overVolt := true }
      pins := { s.pins with senseAlert := true } } (80 + d) 4 mv t.vcoreMv
  | none => s

/-- The hottest of some readings, as an unsigned number of °C. -/
def hottest (l : List Int) : Nat := (l.foldl max 0).toNat

/-- Every die at FLOOR while AVSBus writes are halted or a monitor has shown overvoltage. -/
def floorSync (s : State) : State :=
  let s := { s with pwr := { s.pwr with floorAll := avsHalted s || s.pwr.overVolt } }
  let f := dutyFloor s
  let ds := (List.range 4).map (fun d => if heldFloor s d then f else dutyOf s d)
  causeSync (setDuties s ds)

/-- PWR_TEL, PWR_TEMP and PWR_RAIL take the sample (R479, R493). -/
def latchSample (s : State) (t : TelemetrySample) : State :=
  let s := wr s Reg.PWR_TEL (putF Fld.PWR_TEL_VCORE_MV (min 1023 t.vcoreMv) (putF Fld.PWR_TEL_VCORE_A (min 4095 t.vcoreA)
    (putF Fld.PWR_TEL_VCORE_W (min 4095 t.vcoreW) (putF Fld.PWR_TEL_PKG_W (min 4095 t.pkgW) 0))))
  let temp (ids : List Nat) : Nat := min 255 (hottest (readingsOf s t ids))
  let w := (List.range 4).foldl (fun w d => putF (Fld.PWR_TEMP_DIE d) (temp (sensorGroup (16 * d))) w) (0 : Word)
  let w := putF Fld.PWR_TEMP_HUB (temp (sensorGroup 64)) w
  let w := putF Fld.PWR_TEMP_HBM (temp ((List.range 8).map (fun k => 68 + k))) w
  let s := wr s Reg.PWR_TEMP (putF Fld.PWR_TEMP_OPTICS (temp ((List.range 4).map (fun k => 76 + k))) w)
  setFld (setFld s Reg.PWR_RAIL Fld.PWR_RAIL_IN t.railsIn) Reg.PWR_RAIL Fld.PWR_RAIL_SENSORS_FAILED s.pwr.ignored.length

/-- The target voltage (R477): the fused voltage, a term in the hottest die temperature (which the spec does not state; it
comes with the sample) and OFFSET_MV, clamped to 650 to 850 mV. -/
def targetMv (s : State) (tempTerm : Int) : Nat :=
  let v := (fld s Reg.FEATURE_FUSES Fld.FEATURE_FUSES_V_BIN_MV : Int) + tempTerm + offsetMv s
  (max 650 (min 850 v)).toNat

/-- One step of the voltage towards the target: at most 10 mV (R477). -/
def towards (set_ target : Nat) : Nat := if set_ < target then min target (set_ + 10) else max target (set_ - 10)

/-- The AVSBus part of a sample (R477, R478). -/
def avsSample (s : State) (t : TelemetrySample) : State :=
  let target := targetMv s t.tempTermMv
  let s := setFld s Reg.PWR_AVS Fld.PWR_AVS_TARGET_MV target
  if avsHalted s then s
  else
    let s := bump s Reg.PWR_AVS Fld.PWR_AVS_RETRIES (min 3 t.avsFails)
    if 3 ≤ t.avsFails then
      let s := setFld s Reg.PWR_AVS Fld.PWR_AVS_HALTED 1
      raiseDev s 0x0C03 sevFatal 0 t.avsCause t.avsWord (setMv s) t.regStatus
    else if target = setMv s then s
    else
      let v := towards (setMv s) target
      emit (setFld s Reg.PWR_AVS Fld.PWR_AVS_SET_MV v) (.avsWrite v)

/-- Whether a telemetry period has passed since the last sample; 0 is treated as 1 (R479, R493). -/
def sampleDue (s : State) : Bool := match s.pwr.sampled with
  | some b => decide (b + max 1 (fld s Reg.PWR_CTL Fld.PWR_CTL_TEL_BEATS) ≤ beat s)
  | none => true

/-- The hottest reading of the temperature sensors that are not ignored, with the lowest of the sensors that show it (R490). -/
def hottestOf (s : State) (t : TelemetrySample) : Nat × Nat :=
  let l := (((List.range 80).filter (fun i => !s.pwr.ignored.contains i)).filterMap (fun i => (t.sensors.lookup i).map (fun v => (v.toNat, i))))
  l.foldl (fun h v => if h.1 < v.1 then v else h) (l.headD (0, 0))

/-- The Keeper samples the sensors and serves AVSBus every TEL_BEATS beats (R477 to R479); a Keeper held or restarting does not
(R484). -/
def execTelemetrySample (t : TelemetrySample) (s : State) : Host.Outcome State Fault Refusal :=
  if s.keeper.held || s.keeper.restart.isSome || !sampleDue s then .next s
  else
    let old := s
    let s := { s with pwr := { s.pwr with sampled := some (beat s) } }
    let s := if s.pwr.retest then
        { s with
          pwr := { s.pwr with ignored := [], overVolt := false, senseLogged := false, retest := false }
          pins := { s.pins with senseAlert := false } }
      else s
    let s := (List.range 80).foldl (testSensor t) s
    let s := { s with pwr := { s.pwr with hot := hottestOf s t } }
    let s := latchSample (testSense s t) t
    .next (alertSync old (floorSync (avsSample s t)))

/-- AVS_RETRY: AVSBus writes resume after a halt (R478). -/
def execPwrCmdAvsRetry (s : State) : Host.Outcome State Fault Refusal :=
  if avsHalted s then
    let s := setFld s Reg.PWR_AVS Fld.PWR_AVS_HALTED 0
    .next (causeSync { s with pwr := { s.pwr with floorAll := s.pwr.overVolt } })
  else .next s

/-- SENSOR_RETRY: the ignored sensors are tested again at the next sample (R491). -/
def execPwrCmdSensorRetry (s : State) : Host.Outcome State Fault Refusal := .next { s with pwr := { s.pwr with retest := true } }

/-! ### Rails (R491) and the thermal trip (R487) -/

/-- Nominal mV of rails 1 to 7 (R474). -/
def railNominal (r : Nat) : Nat := [750, 850, 1200, 1100, 400, 1800, 500, 3300].getD r 0

/-- A rail 1 to 7 has been outside its tolerance for 1,000 beats, since beat `since` (R491). -/
def execRailOutOfTolerance (rail mv since : Nat) (s : State) : Host.Outcome State Fault Refusal :=
  if 1 ≤ rail ∧ rail ≤ 7 ∧ since + 1000 ≤ beat s then
    let s := setFld (setFld s Reg.PWR_RAIL ⟨rail, 1⟩ 0) Reg.PWR_RAIL ⟨8 + rail, 1⟩ 1
    .next (raiseDev s 0x0C01 sevCorrected (8 + rail) mv (railNominal rail) 0 since)
  else .next s

/-- Every engine stops: what is in flight on a core is abandoned, and no context holds a slice. -/
def haltEngines (s : State) (x : Nat) : State :=
  let c := getCtx s x
  let stop (k : CoreCtx) : CoreCtx := { k with run := k.run.map (fun r => { r with flying := [] }) }
  let s := setCtx s x { c with cores := c.cores.map (fun e => (e.1, stop e.2)) }
  if (getCtx s x).st = .running then dropSlice (setCtxState s x .runnable) x else s

/-- A port goes dark with no record. -/
def darken (s : State) (k : Nat) : State :=
  let v := portDown s k 5
  let v := if portState v k = 1 then setPortState v k 0 else v
  { v with recs := s.recs, recSeq := s.recSeq }

/-- THERMTRIP: every engine and every laser stops and THERMTRIP_N is held low until all rails are removed; no record is
logged (R487). -/
def execThermtrip (die : Nat) (s : State) : Host.Outcome State Fault Refusal :=
  if 4 ≤ die ∨ s.pins.tripped then .next s
  else
    let s := (residents s).foldl haltEngines { s with pins := { s.pins with tripped := true } }
    let s := (List.range 16).foldl darken s
    let off (s : State) (e : Nat) : State :=
      setFld (setFld (setFld s (Reg.FAB_ENG e) Fld.FAB_ENG_SRC_A 0) (Reg.FAB_ENG e) Fld.FAB_ENG_SRC_B 0) (Reg.FAB_ENG e) Fld.FAB_ENG_SRC_C 0
    .next (emit ((List.range 4).foldl off s) (.thermtripN true))

end Sys2Proof.Machine
end

