-- ==== Sys2Proof/Machine/Hum.lean ====
section
/-! DEFINITION. The Hum (R384 to R394, R399): sources, their health and faults, holdover, steps and slews, and the beat
tick. -/

namespace Sys2Proof.Machine

/-! ### Sources (R387, R388) -/

def humSource (s : State) : Nat := fld s Reg.HUM_STATUS Fld.HUM_STATUS_SOURCE
def humLocked (s : State) : Bool := flg s Reg.HUM_STATUS Fld.HUM_STATUS_LOCKED

/-- Whether a source 1 to 3 is enabled. -/
def sourceEnabled (s : State) (src : Nat) : Bool :=
  match src with
  | 1 => flg s Reg.HUM_CTL Fld.HUM_CTL_IN_EN
  | 2 => flg s Reg.HUM_CTL Fld.HUM_CTL_FAB_EN
  | 3 => flg s Reg.HUM_CTL Fld.HUM_CTL_PTP_EN
  | _ => false

/-- The best source that is enabled and healthy. -/
def bestSource (s : State) : Option Nat := ([1, 2, 3].filter (fun k => sourceEnabled s k && s.hum.healthy.contains k)).head?

/-- Whether the beat count may step: no context is resident (R384). -/
def mayStep (s : State) : Bool := !flg s Reg.PLC_STATUS Fld.PLC_STATUS_LOCKED

/-- What is left to slew, in ps, with SLEWING. -/
def setSlew (s : State) (ps : Int) : State :=
  setFld { s with hum := { s.hum with slew := ps } } Reg.HUM_STATUS Fld.HUM_STATUS_SLEWING (bnat (ps != 0))

/-- The device's time advances by `ps` beyond its beats: every source lies so much less ahead. -/
def shiftAhead (s : State) (ps : Int) : State :=
  { s with hum := { s.hum with ahead := s.hum.ahead.map (fun e => (e.1, e.2 - ps)) } }

/-- HUM_BEAT takes a count, as a step (R384). -/
def stepBeat (s : State) (v : Word) : State :=
  if rd s Reg.HUM_BEAT = v then s
  else
    let moved : Int := asSigned 64 (v - rd s Reg.HUM_BEAT).toNat * 1000000
    let s := bump (wr s Reg.HUM_BEAT v) Reg.HUM_STATUS Fld.HUM_STATUS_STEPS 1
    shiftAhead { s with hum := { s.hum with lastCell := v.toNat } } moved

/-- How far a count lies ahead of HUM_BEAT, modulo 2^64, in ns. -/
def aheadNs (s : State) (v : Word) : Int := asSigned 64 (v - rd s Reg.HUM_BEAT).toNat * 1000

/-- The unit takes its beats from a source 1 to 3, or enters holdover (4): SRC_CHANGES counts the move (R388). -/
def moveSource (s : State) (src : Nat) : State :=
  let s := setFld (setFld s Reg.HUM_STATUS Fld.HUM_STATUS_SOURCE src) Reg.HUM_STATUS Fld.HUM_STATUS_LOCKED (bnat (decide (src < 4)))
  let s := setFld s (Reg.CLK_DOM 24) Fld.CLK_DOM_REF (if src = 1 then 5 else 6)
  bump s Reg.HUM_FAULTS Fld.HUM_FAULTS_SRC_CHANGES 1

/-- HUM_HOLDOVER (R391, R398). -/
def holdoverRecord (s : State) (left : Nat) : State :=
  let s := bump s Reg.HUM_FAULTS Fld.HUM_FAULTS_HOLDOVERS 1
  raiseDev s 0x0901 sevCorrected left (beat s) (fld s Reg.HUM_OFFSET Fld.HUM_OFFSET_OFFSET_NS)
    (fld s Reg.HUM_OFFSET Fld.HUM_OFFSET_FREQ_PPB) 0

/-- How far a source's time lies ahead, in ps, where it has given one. -/
def aheadOf (s : State) (src : Nat) : Option Int := s.hum.ahead.lookup src
def setAhead (s : State) (src : Nat) (ps : Int) : State :=
  { s with hum := { s.hum with ahead := (src, ps) :: s.hum.ahead.filter (fun e => e.1 != src) } }

/-- The unit moves to a source: its time is reached by a step of whole beats while no context is resident, and else by slewing (R384,
R388). A source that has given no time yet is followed from its first. -/
def acquire (s : State) (src : Nat) : State :=
  let s := moveSource { s with hum := { s.hum with everLocked := true } } src
  match aheadOf s src with
  | none => s
  | some ps =>
    let n := (ps + 500000) / 1000000
    if mayStep s then setSlew (stepBeat s (rd s Reg.HUM_BEAT + BitVec.ofInt 64 n)) (ps - n * 1000000) else setSlew s ps

/-- The current source has gone: the best healthy source, or holdover (R388, R391), where nothing more is slewed. -/
def leaveSource (s : State) : State :=
  match bestSource s with
  | some k => acquire s k
  | none => moveSource s 4

/-- A source's clean beats. -/
def cleanOf (s : State) (src : Nat) : Nat := (s.hum.clean.lookup src).getD 0
def setClean (s : State) (src n : Nat) : State :=
  { s with hum := { s.hum with clean := (src, n) :: s.hum.clean.filter (fun e => e.1 != src) } }

/-- A source is no longer healthy and its count restarts (R388, R394). -/
def unhealthy (s : State) (src : Nat) : State :=
  setClean { s with hum := { s.hum with
    healthy := s.hum.healthy.filter (· != src), master := if src = 2 then none else s.hum.master } } src 0

/-- HUM_INPUT_FAULT is recorded, and the unit leaves the source if it is current and `bad` (R388, R392). -/
def humFault (s : State) (src cause : Nat) (ppb : Int) (uid : Nat) (bad : Bool) : State :=
  let cur := humSource s
  let s := setFld (bump s Reg.HUM_FAULTS Fld.HUM_FAULTS_IN_FAULTS 1) Reg.HUM_STATUS Fld.HUM_STATUS_LAST_CAUSE cause
  let moves := bad && cur == src
  let s := if bad then unhealthy s src else s
  let s := if moves then leaveSource s else s
  let s := raiseDev s 0x0902 sevCorrected src cause (toTwos 64 ppb) uid (rd s Reg.HUM_STATUS).toNat
  if moves && humSource s == 4 then holdoverRecord s src else s

/-- Whether a cause is one of a source (R392). -/
def causeFits (s : State) (src cause : Nat) : Bool :=
  match cause with
  | 1 | 2 | 3 | 4 | 5 | 6 => src == 1
  | 7 => src == 2 && decide (s.hum.lastCell + 300 ≤ beat s)
  | 8 => src == 2
  | 9 => src == 3
  | 10 => humLocked s && humSource s == src
  | _ => false

/-- An input fault of an enabled source (R392): cause 3 is corrected under AUTO_INVERT; cause 8 is logged alone. While a fault lasts no
beat is clean, and the count of R388 starts at its end (R394). -/
def execHumInputFault (src cause : Nat) (ppb : Int) (seen : FaultSeen) (s : State) : Host.Outcome State Fault Refusal :=
  let ⟨uid, phase⟩ := seen
  if !sourceEnabled s src then .next s
  else if phase = .ends then
    .next (setClean { s with hum := { s.hum with faulty := s.hum.faulty.filter (· != src) } } src 0)
  else if causeFits s src cause then
    if cause = 3 ∧ flg s Reg.HUM_CTL Fld.HUM_CTL_AUTO_INVERT then
      .next (humFault (setFld s Reg.HUM_STATUS Fld.HUM_STATUS_INVERTED 1) src cause ppb 0 false)
    else if cause = 8 then .next (humFault s src cause ppb uid false)
    else
      let s := if phase = .begins ∧ !s.hum.faulty.contains src then { s with hum := { s.hum with faulty := s.hum.faulty ++ [src] } } else s
      .next (humFault s src cause ppb 0 true)
  else .next s

/-- A source has shown no fault for 1,000,000 beats, by the report and by the unit's own count: the unit moves to it if it has priority
over the current one (R388). -/
def execHumSourceHealthy (src cleanBeats : Nat) (s : State) : Host.Outcome State Fault Refusal :=
  if sourceEnabled s src && !s.hum.healthy.contains src && decide (1000000 ≤ min cleanBeats (cleanOf s src)) then
    let s := { s with hum := { s.hum with healthy := s.hum.healthy ++ [src] } }
    if bestSource s = some src then .next (acquire s src) else .next s
  else .next s

/-- A source that is disabled has no health, no fault and no time. -/
def forget (s : State) (src : Nat) : State :=
  let s := unhealthy s src
  { s with hum := { s.hum with
    faulty := s.hum.faulty.filter (· != src), ahead := s.hum.ahead.filter (fun e => e.1 != src) } }

/-- The sources after a write of HUM_CTL: a source disabled loses its health, and the unit leaves it (R387). -/
def humSync (s : State) : State :=
  let off := [1, 2, 3].filter (fun k => !sourceEnabled s k)
  let cur := humSource s
  let s := off.foldl forget s
  if off.contains cur then
    let s := leaveSource s
    if humSource s = 4 then holdoverRecord s cur else s
  else s

/-! ### Offsets (R386, R388, R390) -/

/-- A measured offset from the current source: kept in HUM_OFFSET; FREQ_PPB follows a loop that the spec does not give (log
entry 2). -/
def noteOffset (s : State) (ns : Int) : State :=
  let s := { s with free := s.free + 1 }
  wr s Reg.HUM_OFFSET (putF Fld.HUM_OFFSET_OFFSET_NS (toTwos 32 ns)
    (putF Fld.HUM_OFFSET_FREQ_PPB (Config.freeNat (s.free - 1)) 0))

/-- JUMP_US, at least 1. -/
def jumpUs (s : State) : Nat := max 1 (fld s Reg.HUM_CTL Fld.HUM_CTL_JUMP_US)

/-- A source's time: `count` is the beat that it puts at this moment and `ns` what is left beyond it. Of the current source, a step of its
offset above JUMP_US is a fault and not followed (R390), but for a number that the host has set (R394); the rest is slewed (R386). What
another source says is kept for the move to it. -/
def follow (s : State) (src : Nat) (count : Word) (ns : Int) (asked : Bool) : State :=
  let total := (aheadNs s count + ns) * 1000
  let jump := match aheadOf s src with
    | some o => decide (jumpUs s * 1000000 < (total - o).natAbs)
    | none => false
  let s := setAhead s src total
  if humSource s ≠ src then s
  else
    let s := noteOffset s (total / 1000)
    if !asked && jump then humFault s src 10 0 0 true
    else if asked && mayStep s then setSlew (stepBeat s count) (ns * 1000)
    else setSlew s total

/-- The multiple of 1,000,000 nearest to a count. -/
def nearestPps (v : Nat) : Nat := (v + 500000) / 1000000 * 1000000

/-- A HUM_PPS edge: it marks the beat that NEXT_PPS names, or the nearest multiple of 1,000,000 (R388). -/
def execHumPpsEdge (offsetNs : Int) (s : State) : Host.Outcome State Fault Refusal :=
  if sourceEnabled s 1 then
    let n := s.hum.nextPps
    let s := { s with hum := { s.hum with nextPps := none } }
    .next (follow s 1 (BitVec.ofNat 64 (n.getD (nearestPps (beat s)))) offsetNs n.isSome)
  else .next s

/-- HUM_SET.NEXT_PPS (R388, R394). -/
def execHumSetWrite (v : Word) (s : State) : Host.Outcome State Fault Refusal :=
  .next { s with hum := { s.hum with nextPps := some v.toNat } }

/-- A PTP message of the domain HUM_CTL.PTP_DOMAIN gives the beat number as the PTP time in microseconds (R388). -/
def execPtpMessageArrival (domain : Nat) (time : PtpTime) (s : State) : Host.Outcome State Fault Refusal :=
  if sourceEnabled s 3 && domain == fld s Reg.HUM_CTL Fld.HUM_CTL_PTP_DOMAIN then
    .next (follow s 3 (BitVec.ofNat 64 time.us) time.offsetNs false)
  else .next s

/-! ### The Hum master over the fabric (R388, R389) -/

/-- Whether a port is UP and in the spanning tree. -/
def treePort (s : State) (k : Nat) : Bool := portState s k == 2 && flg s (Reg.FAB_PSTATk k) Fld.FAB_PSTATk_TREE

def treePorts (s : State) : List Nat := selectBelow 16 (treePort s)

/-- This device is the master: it offers itself, holds time from a source of priority 1 or 3, and follows no master of a lower
FAB_UID (R388, R389). -/
def isMaster (s : State) : Bool :=
  flg s Reg.HUM_CTL Fld.HUM_CTL_MASTER && (humSource s == 1 || humSource s == 3) && s.hum.master.isNone

/-- The time of a cell from the master followed is taken and passed on by the other tree ports. -/
def takeCell (s : State) (uid port hops : Nat) (count : Word) (offsetNs : Int) : State :=
  let s := { s with hum := { s.hum with master := some uid, lastCell := beat s } }
  let s := setFld (setFld s Reg.HUM_STATUS Fld.HUM_STATUS_UP_PORT port) Reg.HUM_STATUS Fld.HUM_STATUS_MASTER_HOPS hops
  let s := ((treePorts s).filter (· != port)).foldl (fun s k => emit s (.humCell k count.toNat (hops + 1) uid)) s
  follow s 2 count offsetNs false

/-- A Hum cell arrives by a tree port (R388): a competing master is logged with cause 8, and the lower FAB_UID is followed. -/
def execHumCellArrival (masterUid port hops : Nat) (beat : Word) (offsetNs : Int) (s : State) :
    Host.Outcome State Fault Refusal :=
  if !sourceEnabled s 2 && !flg s Reg.HUM_CTL Fld.HUM_CTL_MASTER || !treePort s port then .next s
  else if isMaster s then
    if masterUid < ownUid s then .next (takeCell (humFault s 2 8 0 masterUid false) masterUid port hops beat offsetNs) else .next s
  else match s.hum.master with
    | none => .next (takeCell s masterUid port hops beat offsetNs)
    | some m =>
      if masterUid = m then .next (takeCell s masterUid port hops beat offsetNs)
      else
        let s := humFault s 2 8 0 masterUid false
        if masterUid < m then .next (takeCell s masterUid port hops beat offsetNs) else .next s

/-- A tree link's delay: half of the round trip less the turnaround; HUM_PATH shows that of the link towards the master. -/
def execHumPathMeasure (port roundTripNs turnaroundNs : Nat) (s : State) : Host.Outcome State Fault Refusal :=
  if treePort s port && s.hum.master.isSome && fld s Reg.HUM_STATUS Fld.HUM_STATUS_UP_PORT == port then
    .next (setFld s Reg.HUM_PATH Fld.HUM_PATH_DELAY_NS ((roundTripNs - turnaroundNs) / 2))
  else .next s

/-! ### The beat tick (R384 to R386, R393) -/

/-- A beat's part of the slew: SLEW_PPM picoseconds (R386). -/
def slewTick (s : State) : State :=
  let n : Int := max 1 (min 1000 (fld s Reg.HUM_CTL Fld.HUM_CTL_SLEW_PPM))
  let v := s.hum.slew
  let part := if 0 < v then min v n else max v (-n)
  if v = 0 then s else shiftAhead (setSlew s (v - part)) part

/-- One more clean beat for the enabled sources without a fault that lasts. -/
def cleanTick (s : State) : State :=
  [1, 2, 3].foldl (fun s k =>
    if sourceEnabled s k && !s.hum.faulty.contains k then setClean s k (min 1000000 (cleanOf s k + 1)) else s) s

/-- Hum cells of a master every 100 beats, and the stamped cells of each tree link every 1,000 (R388). -/
def cellTick (s : State) : State :=
  let b := beat s
  let s := if isMaster s && b % 100 == 0 then (treePorts s).foldl (fun s k => emit s (.humCell k b 1 (ownUid s))) s else s
  if (isMaster s || s.hum.master.isSome) && b % 1000 == 0 then (treePorts s).foldl (fun s k => emit s (.humStamp k)) s else s

/-- HUM_OUT (R393): the rising edges of this beat, ten of them at 10 MHz. -/
def outTick (s : State) : State :=
  match fld s Reg.HUM_CTL Fld.HUM_CTL_OUT_MODE with
  | 1 => emit s (.humOut (beat s) 10)
  | 2 => emit s (.humOut (beat s) 1)
  | 3 => if beat s % 1000000 = 0 then emit s (.humOut (beat s) 1) else s
  | _ => s

/-- What waits for a beat, or for a unit that became free, goes on: reductions in the trees and their namings (R295, R306, R316),
device-started collectives (R295), and votes (R247). -/
def collectiveTick (s : State) : State :=
  let s := (s.grps.map (·.1)).foldl (fun s k => pumpDev (startNaming s k) k) s
  joinAll ((List.range 8).foldl (fun s p => tryVote (startPending s p) p) s)

/-- BEAT_TICK: what the device has sent enters the fabric, HUM_BEAT advances by one, and what is driven by beats acts: the Hum
itself, the throttle, waits, slices and held B.ATs. Beats need HUMCLK. -/
def execBeatTick (b : BeatInputs) (s : State) : Host.Outcome State Fault Refusal :=
  if clkState s 24 = 2 then
    let s := probeAddrs (flushC0 (pushOut s))
    let s := wr s Reg.HUM_BEAT (rd s Reg.HUM_BEAT + 1)
    .next (tickTasks (throttleTick (collectiveTick (outTick (cellTick (cleanTick (slewTick s))))) b))
  else .next s

end Sys2Proof.Machine
end

