-- ==== Sys2Proof/Machine/Registers.lean ====
section
/-! DEFINITION. Reads and stores of control-window registers (R495, R498): selectors and their snapshots, registers that act
on the selected object, and the counts with thresholds. -/

namespace Sys2Proof.Machine

/-! ### Words behind selectors (R498) -/

/-- The 64 bytes of a record (R433). -/
def errBytes (r : ErrRec) : List Byte :=
  let byte2 := r.sev % 4 + 4 * (r.part.getD 0 % 8) + 32 * bnat r.part.isSome + 64 * bnat r.ctx.isSome + 128 * bnat r.core.isSome
  leBytes 2 r.code ++ leBytes 1 byte2 ++ leBytes 1 (r.ctx.getD 0 % 64) ++ leBytes 1 (r.core.getD 0) ++ leBytes 1 r.forager
    ++ leBytes 2 r.seq ++ leBytes 8 (r.pc % 2 ^ 48) ++ leBytes 8 r.obj ++ leBytes 8 r.beat ++ leBytes 8 r.d0 ++ leBytes 8 r.d1
    ++ leBytes 8 r.d2 ++ leBytes 8 r.d3

/-- SYN_FLAG of a flag (R291). -/
def flagWord (s : State) (f : Nat) : Word :=
  let v := getFlag s f
  let n := ((allFlying s).filter (fun e => e.2.2.waits == .flag f)).length
  BitVec.ofNat 64 (bnat v.value + 2 * (v.merges % 256) + 2 ^ 9 * min 127 n)

/-- SYN_BAR of a barrier (R291). -/
def barWord (s : State) (b : Nat) : Word :=
  let v := getBar s b
  BitVec.ofNat 64 (v.g % 2 ^ 32 + 2 ^ 32 * (v.arrived % 65536) + 2 ^ 48 * (v.e % 65536))

/-- WGL_TREE of an entry (R324). -/
def WTree.word (v : WTree) : Word :=
  if !v.valid then 0
  else BitVec.ofNat 64 (1 + 2 * bnat v.root + 4 * (v.up % 16) + 2 ^ 6 * (v.down % 65536) + 2 ^ 22 * (v.depth % 16)
    + 2 ^ 26 * bnat v.relay + 2 ^ 27 * (v.local_ % 512) + 2 ^ 36 * (v.gid % 65536))

/-- FAB_RT of a destination (R383). -/
def routeWord (r : Option Route) : Word :=
  match r with
  | some r => BitVec.ofNat 64 (r.mask % 65536 + 2 ^ 16 * (r.escPort % 16) + 2 ^ 20 * bnat r.isLocal + 2 ^ 21 + 2 ^ 22 * (r.dist % 256))
  | none => 0

/-- FAB_RANK of a job rank (R383). -/
def rankWord (a : Option Nat) : Word :=
  match a with
  | some a => BitVec.ofNat 64 (a % 16384 + 2 ^ 14)
  | none => 0

/-- SRV_MODEL0 and 1 of a model (R417). -/
def modelWords (m : Option SModel) : List Word :=
  match m with
  | some m => [BitVec.ofNat 64 (1 + 2 * (m.st % 4) + 8 * bnat m.pinned + 16 * (m.part % 8) + 2 ^ 16 * (m.layers % 256)
      + 2 ^ 24 * (m.bytes % 2 ^ 40)), BitVec.ofNat 64 m.lastUse]
  | none => [0, 0]

/-- SRV_ST0 to 7 of a stream entry (R406). -/
def streamWords (e : Option Stream) : List Word :=
  match e with
  | some e => [e.st % 8 + 8 * (e.part % 8) + 2 ^ 6 * (e.model % 256) + 2 ^ 14 * (e.cls % 8) + 2 ^ 17 * (e.priority % 16)
        + 2 ^ 21 * bnat e.fellBack + 2 ^ 22 * (e.length % 2 ^ 25),
      e.prompt % 2 ^ 25 + 2 ^ 25 * (e.decLeft % 2 ^ 25), e.request, e.seed, e.tokbuf % 2 ^ 55, e.pmap % 2 ^ 55, e.deadline,
      e.predict].map (BitVec.ofNat 64)
  | none => [0, 0, 0, 0, 0, 0, 0, 0]

/-- YLP_SESS, ADDRH and ADDRL of a session (R472). -/
def sessWords (e : Option Sess) : List Word :=
  match e with
  | some e => [1 + 2 * bnat e.events + 4 * (e.port % 65536), e.addr / 2 ^ 64, e.addr % 2 ^ 64].map (BitVec.ofNat 64)
  | none => [0, 0, 0]

/-- The words of a log slot (R504, R505). -/
def errWords (r : Option ErrRec) : List Word :=
  let bs := match r with
    | some r => errBytes r
    | none => []
  (List.range 8).map (fun i => BitVec.ofNat 64 (leField bs (8 * i) 8))

/-- CDC_FIFO of the host event queue; the spec names no other FIFO, and what the identifiers of others show is a free value
(log entry 2). Its DEPTH of 4,096 is shown modulo the field's range. -/
def fifoWord (s : State) (f : Nat) : Word :=
  if f = fifoHost then BitVec.ofNat 64 (1 + 2 * 3 + 2 ^ 15 * (s.hostQ.length % 4096))
  else BitVec.ofNat 64 (Config.freeNat s.free % 2 ^ 27)

/-- Consecutive registers take words. -/
def setWords (s : State) (a : Nat) (ws : List Word) : State := ws.zipIdx.foldl (fun s e => wr s (a + 8 * e.2) e.1) s

/-- The snapshot that a write to a selector takes of the selected object's RO words (R498). -/
def snapshot (s : State) (a : Nat) : State :=
  if a = Reg.BRD_CELL_SEL then setWords s (Reg.BRD_CELL 0) (getCell s (fld s a Fld.BRD_CELL_SEL_CELL)).words
  else if a = Reg.SYN_FLAG_SEL then wr s Reg.SYN_FLAG (flagWord s (fld s a Fld.SYN_FLAG_SEL_FLAG))
  else if a = Reg.SYN_BAR_SEL then wr s Reg.SYN_BAR (barWord s (fld s a Fld.SYN_BAR_SEL_BARRIER))
  else if a = Reg.MSG_RING_SEL then setWords s (Reg.MSG_RING 0) (getRing s (fld s a Fld.MSG_RING_SEL_RING)).words
  else if a = Reg.COL_GSEL then setWords s (Reg.COL_G 0) (getGrp s (fld s a Fld.COL_GSEL_SLOT)).words
  else if a = Reg.WGL_TREE_SEL then wr s Reg.WGL_TREE (getTree s (fld s a Fld.WGL_TREE_SEL_TREE)).word
  else if a = Reg.FAB_RT_SEL then wr s Reg.FAB_RT (routeWord (routeTo s (fld s a Fld.FAB_RT_SEL_DEST)))
  else if a = Reg.FAB_RANK_SEL then wr s Reg.FAB_RANK (rankWord (Sparse.get none s.ranks (fld s a Fld.FAB_RANK_SEL_RANK)))
  else if a = Reg.SRV_MODEL_SEL then
    setWords s Reg.SRV_MODEL0 (modelWords (Sparse.get none s.models (fld s a Fld.SRV_MODEL_SEL_MODEL)))
  else if a = Reg.SRV_ST_SEL then
    setWords s (Reg.SRV_ST 0) (streamWords (Sparse.get none s.streams (fld s a Fld.SRV_ST_SEL_ENTRY)))
  else if a = Reg.YLP_SESS_SEL then
    setWords s Reg.YLP_SESS (sessWords (Sparse.get none s.sessions (fld s a Fld.YLP_SESS_SEL_SESSION)))
  else if a = Reg.ERR_REC_SEL then setWords s (Reg.ERR_REC 0) (errWords (Sparse.get none s.log (fld s a Fld.ERR_REC_SEL_SLOT)))
  else if a = Reg.CDC_FIFO_SEL then
    let f := fld s a Fld.CDC_FIFO_SEL_FIFO
    wr { s with free := s.free + 1 } Reg.CDC_FIFO (fifoWord s f)
  else s

/-- The selectors. -/
def selectors : List Nat :=
  [Reg.BRD_CELL_SEL, Reg.SYN_FLAG_SEL, Reg.SYN_BAR_SEL, Reg.MSG_RING_SEL, Reg.COL_GSEL, Reg.WGL_TREE_SEL, Reg.FAB_RT_SEL,
   Reg.FAB_RANK_SEL, Reg.SRV_CLASS_SEL, Reg.SRV_MODEL_SEL, Reg.SRV_ST_SEL, Reg.YLP_SESS_SEL, Reg.ERR_REC_SEL, Reg.CDC_FIFO_SEL]

/-! ### Registers that act on the selected object (R498) -/

/-- The class that SRV_CLASS_SEL names: partition × 8 + class. -/
def classKey (s : State) : Nat := fld s Reg.SRV_CLASS_SEL Fld.SRV_CLASS_SEL_PART * 8 + fld s Reg.SRV_CLASS_SEL Fld.SRV_CLASS_SEL_CLASS

/-- The class registers of a partition (R413). -/
def classWord (s : State) (p c : Nat) : Word := Sparse.get 0 s.classes (p * 8 + c)

/-- CORE_STATUS of a core: CONTEXT, RUNNING, IDLE and DEQUE follow the context that holds its partition's slice (R119, R508); with no
slice held they read zero. -/
def coreStatus (s : State) (c : Nat) : Word :=
  let w := rd s (Reg.CORE_STATUS c)
  if getF Fld.CORE_STATUS_PART_VALID w = 1 then
    match (getSlice s (getF Fld.CORE_STATUS_PART w)).ctx with
    | some x =>
      let k := getCore s x (getF Fld.CORE_STATUS_LOGICAL w)
      putF Fld.CORE_STATUS_CONTEXT x (putF Fld.CORE_STATUS_RUNNING (bnat k.run.isSome)
        (putF Fld.CORE_STATUS_IDLE (bnat (k.run.isNone && k.deque.isEmpty)) (putF Fld.CORE_STATUS_DEQUE (min 64 k.deque.length) w)))
    | none => w
  else w

/-- The word that a register holds, onto which a write merges: the fields that a read derives from other state are not in it. -/
def storedReg (s : State) (a : Nat) : Word :=
  if a = Reg.SRV_CLASS then Sparse.get 0 s.classes (classKey s)
  else if a = Reg.CDC_FIFO_CNT then cdcCount s (fld s Reg.CDC_FIFO_SEL Fld.CDC_FIFO_SEL_FIFO)
  else rd s a

/-- What a register reads as (R495). WO fields hold nothing, so a WO register reads zero. -/
def readReg (s : State) (a : Nat) : Word :=
  if a = Reg.SRV_CLASS ∨ a = Reg.CDC_FIFO_CNT then storedReg s a
  else if 0x20000 ≤ a ∧ a < 0x68000 ∧ a % 0x1000 = 0 then coreStatus s (a / 0x1000 - 0x20)
  else if a = Reg.YLP_STAT then putF Fld.YLP_STAT_EVQ_DEPTH (min 4096 s.hostQ.length) (rd s a)
  else if (regDefAt a).isSome then rd s a
  else 0

/-! ### Counts with a threshold (R84, R157) -/

/-- A record of R84 for a crossing that a host write makes. DESIGN CHOICE (log entry 20): no instruction made it, so the record names
none, and details 2 and 3 are 0. -/
def logNumWrite (s : State) (code core count thr key : Nat) : State :=
  setThr (raise s { plainRec code sevInfo core count thr 0 0 with core := some core }) key true

/-- A host write of a count (R84, R157): below its threshold it arms the record again; from below to the threshold or above, it is a
crossing, and logs. -/
def thresholds (old : State) (s : State) (a : Nat) (new : Word) : State :=
  let c := a / 0x1000 - 0x20
  let judge (cnt thr : Fld) (thrReg : Nat) (log : State → Nat → Nat → State) : State :=
    let t := fld s thrReg thr
    let n := getF cnt new
    if n < t then setThr s a false
    else if thrCross old a (fld old a cnt) n t then log s n t else s
  if a = Reg.MEM_ECC_CORR then
    judge Fld.MEM_ECC_CORR_COUNT Fld.MEM_ECC_THR_CORR_THR Reg.MEM_ECC_THR (fun s _ _ => logCorrected s)
  else if 0x20000 ≤ a ∧ a < 0x68000 ∧ a = Reg.BLOCK_LOSS c then
    judge Fld.BLOCK_LOSS_COUNT Fld.NUM_THR_BLOCK_LOSS_THR (Reg.NUM_THR c) (fun s n t => logNumWrite s 0x0103 c n t a)
  else if 0x20000 ≤ a ∧ a < 0x68000 ∧ a = Reg.SAT_COUNT c then
    judge Fld.SAT_COUNT_COUNT Fld.NUM_THR_SAT_THR (Reg.NUM_THR c) (fun s n t => logNumWrite s 0x0104 c n t a)
  else s

/-- The comb store after a register of its page or of the memory page changed: lines that may not stay are written back and gone
(R146). -/
def combSync (s : State) (a : Nat) : State :=
  if a / 0x1000 = 0x15 ∨ a / 0x1000 = 0x16 then combDrop s (fun c => !c.live s) else s

/-- A register takes a word that a host, the Keeper or a configuration entry writes: the store itself, a selector's snapshot,
a count's threshold, and the lines of the comb store. -/
def storeReg (s : State) (a : Nat) (v : Word) : State :=
  if a = Reg.SRV_CLASS then { s with classes := Sparse.set 0 s.classes (classKey s) v }
  else if a = Reg.CDC_FIFO_CNT then
    { s with cdcCnt := Sparse.set 0 s.cdcCnt (fld s Reg.CDC_FIFO_SEL Fld.CDC_FIFO_SEL_FIFO) v }
  else combSync (thresholds s (snapshot (wr s a v) a) a v) a

end Sys2Proof.Machine
end

