-- ==== Sys2Proof/Machine/CfgSet.lean ====
section
/-! DEFINITION. Configuration sets (R54 to R57): objects, the checks of R55 in their order, and the application from reset
values (R56). Cores fall to partitions under R124. -/

namespace Sys2Proof.Machine

/-! ### Objects (R54, R56) -/

/-- The bytes of an uploaded object; a byte that no part brought is 0 (log entry 17). -/
def Upload.bytes (u : Upload) : List Byte :=
  let n := u.parts.foldl (fun n p => max n (p.1 + p.2.length)) 0
  u.parts.foldl (fun bs p => bs.take p.1 ++ p.2 ++ bs.drop (p.1 + p.2.length)) (List.replicate n (0 : Byte))

/-- The configuration objects uploaded, with their indices, in application order: the base, then the overlays in the order of
their first parts (R56). -/
def cfgObjects (s : State) : List (Nat × List Byte) :=
  let us := (s.uploads.filter (fun u => u.kind == 2)).map (fun u => (u.index, u.bytes))
  us.filter (fun u => u.1 == 0) ++ us.filter (fun u => u.1 != 0)

def objKind (bs : List Byte) : Nat := leField bs 0 2
def objCount (bs : List Byte) : Nat := leField bs 4 4

/-- The entries of an object. -/
def objEntries (bs : List Byte) : List RegEntry :=
  (List.range (objCount bs)).map (fun i =>
    let o := 16 + 24 * i
    ⟨leField bs o 8, BitVec.ofNat 64 (leField bs (o + 8) 8), BitVec.ofNat 64 (leField bs (o + 16) 8)⟩)

/-- Every entry in application order, with its object and its place in it. -/
def allEntries (objs : List (Nat × List Byte)) : List (Nat × Nat × RegEntry) :=
  objs.flatMap (fun o => (objEntries o.2).zipIdx.map (fun e => (o.1, e.2, e.1)))

/-! ### Checks 1 to 3 of R55: the reason with object and entry index -/

/-- Check 1 of one object. -/
def headerFault (s : State) (bs : List Byte) : Option Nat :=
  let k := objKind bs
  let n := objCount bs
  if bs.length < 16 ∨ (k ≠ 1 ∧ k ≠ 2) ∨ leField bs 8 8 ≠ 0 ∨ (if k = 1 then 65535 else 4096) < n ∨ bs.length ≠ 16 + 24 * n then some 3
  else if fld s Reg.HERITAGE_LEVEL Fld.HERITAGE_LEVEL_LEVEL < leField bs 2 2 then some 2
  else none

/-- Check 1, in ascending object index. -/
def checkHeaders (s : State) (objs : List (Nat × List Byte)) : Option (Nat × Nat × Nat) :=
  (sortBy (·.1) objs).findSome? (fun o => (headerFault s o.2).map (fun r => (r, o.1, 0)))

/-- Check 2: exactly one base at index 0, overlays elsewhere. -/
def checkComposition (objs : List (Nat × List Byte)) : Option (Nat × Nat × Nat) :=
  if !objs.any (fun o => o.1 == 0) then some (1, 0, 0)
  else ((sortBy (·.1) objs).find? (fun o => objKind o.2 != (if o.1 = 0 then 1 else 2))).map (fun o => (1, o.1, 0))

/-- The bits of a register that a configuration entry may cover: RW, and RWL, which is unlocked while no context is resident. -/
def cfgMask (d : RegDef) : Word :=
  d.fields.foldl (fun m f => if f.acc = .rw ∨ f.acc = .rwl then m ||| maskF ⟨f.lo, f.w⟩ else m) 0

/-- Check 3 of one entry. -/
def entryFault (e : RegEntry) : Option Nat :=
  if e.addr < windowBase ∨ windowEnd ≤ e.addr then some 4
  else match regDefAt ((e.addr - windowBase) / 8 * 8) with
    | none => some 4
    | some d =>
      if e.addr % 8 ≠ 0 then some 9
      else if e.mask &&& ~~~(cfgMask d) ≠ 0 then some 5
      else if e.value &&& ~~~e.mask ≠ 0 then some 6
      else none

/-- Check 3, in application order. -/
def checkEntries (objs : List (Nat × List Byte)) : Option (Nat × Nat × Nat) :=
  (allEntries objs).findSome? (fun e => (entryFault e.2.2).map (fun r => (r, e.1, e.2.1)))

/-! ### Application (R56) -/

/-- A register's word with every configurable field at its reset value. -/
def resetFields (a : Nat) (w : Word) : Word :=
  match regDefAt a with
  | some d => d.fields.foldl (fun w f =>
      if (f.acc = .rw ∨ f.acc = .rwl) ∧ !f.kept ∧ !f.reserved then putF ⟨f.lo, f.w⟩ f.reset w else w) w
  | none => w

/-- Every configurable field at its reset value; counters, selectors and the log pointer keep theirs. -/
def resetConfig (s : State) : State :=
  let regs := (s.regs.map (fun e => (e.1, resetFields e.1 e.2))).filter (fun e => decide (e.2 ≠ resetWord e.1))
  { s with regs := regs, classes := [] }

/-- One entry: register := (register AND NOT MASK) OR VALUE. -/
def applyEntry (s : State) (e : RegEntry) : State :=
  let a := e.addr - windowBase
  storeReg s a ((storedReg s a &&& ~~~e.mask) ||| e.value)

/-- The registers as a set produces them. -/
def applyObjects (s : State) (objs : List (Nat × List Byte)) : State :=
  (allEntries objs).foldl (fun s e => applyEntry s e.2.2) (resetConfig s)

/-! ### Check 4 of R55: the registers that a broken rule concerns -/

/-- The set of a partition on a die, as an interval of pseudo-channels (R141). -/
def hbmSet (s : State) (p d : Nat) : Option (Nat × Nat) :=
  let a := Reg.MEM_HBM_SET p
  let b := fld s a (Fld.MEM_HBM_SET_BASE d)
  if flg s a (Fld.MEM_HBM_SET_EN d) then some (b, b + 2 ^ fld s a (Fld.MEM_HBM_SET_LOG2 d)) else none

def overlaps (a b : Option (Nat × Nat)) : Bool :=
  match a, b with
  | some a, some b => decide (a.1 < b.2) && decide (b.1 < a.2)
  | _, _ => false

/-- The partitions other than `p`. -/
def others (p : Nat) : List Nat := (List.range 8).filter (· != p)

/-- R141. -/
def brokenHbm (s : State) : List Nat :=
  ((List.range 8).filter (fun p => (List.range 4).any (fun d =>
    match hbmSet s p d with
    | none => false
    | some (b, e) => fld s (Reg.MEM_HBM_SET p) (Fld.MEM_HBM_SET_LOG2 d) == 7 || b % (e - b) != 0
        || (others p).any (fun q => overlaps (hbmSet s p d) (hbmSet s q d))))).map Reg.MEM_HBM_SET

/-- R143. -/
def brokenWays (s : State) : List Nat :=
  let cache (p : Nat) : Nat := fld s (Reg.CMB_PART p) Fld.CMB_PART_CACHE_WAYS
  let placed (p : Nat) : Nat := fld s (Reg.CMB_PART p) Fld.CMB_PART_PLACED_WAYS
  ((List.range 8).filter (fun p =>
    decide (cache p &&& placed p ≠ 0)
      || decide ((bitList 16 (cache p)).length < fld s (Reg.CMB_PART p) Fld.CMB_PART_STREAM_WAYS)
      || (others p).any (fun q => decide ((cache p ||| placed p) &&& (cache q ||| placed q) ≠ 0)))).map Reg.CMB_PART

/-- R150: granules of a die without its second tier. -/
def brokenGranules (s : State) : List Nat :=
  ((List.range 16).filter (fun i => (List.range 16).any (fun k =>
    (granuleOwner s (16 * i + k)).isSome && !l2Present s ((16 * i + k) / 64)))).map Reg.MEM_L2OWN

/-- The sum of a field over the partitions. -/
def sumParts (s : State) (r : Nat → Nat) (f : Fld) : Nat := ((List.range 8).map (fun p => fld s (r p) f)).sum

/-- R206. -/
def brokenQuota (s : State) : List Nat :=
  let all := if 256 < sumParts s Reg.BRD_PART Fld.BRD_PART_QUOTA then (List.range 8).map Reg.BRD_PART else []
  all ++ (List.range 8).flatMap (fun p =>
    let r := fld s (Reg.BRD_PART p) Fld.BRD_PART_RESERVE
    if r ≠ 0 ∧ flg s (Reg.PLC_PART p) Fld.PLC_PART_KIND then [Reg.BRD_PART p, Reg.PLC_PART p]
    else if fld s (Reg.BRD_PART p) Fld.BRD_PART_QUOTA < r then [Reg.BRD_PART p] else [])

/-- R242. -/
def brokenBackup (s : State) : List Nat :=
  ((List.range 8).filter (fun p => fld s (Reg.GRD_PART p) Fld.GRD_PART_COMP != 0 && flg s (Reg.GRD_PART p) Fld.GRD_PART_POLICY)).map
    Reg.GRD_PART

/-- R291, R366 and R400: fields that together exceed what there is. -/
def brokenSums (s : State) : List Nat :=
  let syn := 8192 < sumParts s Reg.SYN_PART Fld.SYN_PART_FLAGS ∨ 256 < sumParts s Reg.SYN_PART Fld.SYN_PART_BARRIERS
  let share := sumParts s Reg.FAB_SHARE Fld.FAB_SHARE_SHARE + fld s Reg.FAB_CTL Fld.FAB_CTL_RELAY_SHARE
  (if syn then (List.range 8).map Reg.SYN_PART else [])
    ++ (if 64 < share then Reg.FAB_CTL :: (List.range 8).map Reg.FAB_SHARE else [])
    ++ (if 65536 < sumParts s Reg.SRV_PART Fld.SRV_PART_ENTRIES then (List.range 8).map Reg.SRV_PART else [])

/-- The checkpoint areas: partition, first granule and end (R422). -/
def areas (s : State) : List (Nat × Nat × Nat) :=
  (List.range 8).flatMap (fun p =>
    let a := Reg.CKP_AREA p
    let area (f n : Fld) : List (Nat × Nat × Nat) :=
      if fld s a n = 0 then [] else [(p, fld s a f, fld s a f + fld s a n)]
    area Fld.CKP_AREA_AREA_FIRST Fld.CKP_AREA_AREA_COUNT ++ area Fld.CKP_AREA_WARD_FIRST Fld.CKP_AREA_WARD_COUNT)

/-- R422: an area with an assigned granule, or two areas that overlap. -/
def brokenAreas (s : State) : List Nat :=
  (areas s).zipIdx.flatMap (fun e =>
    let (p, b, t) := e.1
    let taken := (List.range (t - b)).filter (fun i => decide (b + i < 256) && (granuleOwner s (b + i)).isSome)
    let clash := (areas s).zipIdx.any (fun o => o.2 != e.2 && decide (b < o.1.2.2) && decide (o.1.2.1 < t))
    taken.map (fun i => Reg.MEM_L2OWN ((b + i) / 16)) ++ (if clash || !taken.isEmpty then [Reg.CKP_AREA p] else []))

/-- The registers concerned by every rule that the values of a set break. -/
def brokenRegs (s : State) : List Nat :=
  brokenHbm s ++ brokenWays s ++ brokenGranules s ++ brokenQuota s ++ brokenBackup s ++ brokenSums s ++ brokenAreas s

/-- Check 4: the last entry that wrote a register concerned is reported. -/
def checkRules (s : State) (objs : List (Nat × List Byte)) : Option (Nat × Nat × Nat) :=
  let bad := brokenRegs (applyObjects s objs)
  if bad.isEmpty then none
  else match (allEntries objs).reverse.find? (fun e => bad.contains (e.2.2.addr - windowBase)) with
    | some e => some (7, e.1, e.2.1)
    | none => some (7, 0, 0)

/-- The whole of R55: what is reported, if anything. -/
def cfgFault (s : State) (objs : List (Nat × List Byte)) : Option (Nat × Nat × Nat) :=
  (checkHeaders s objs).or ((checkComposition objs).or ((checkEntries objs).or (checkRules s objs)))

/-! ### Cores of the partitions (R124, R508) -/

/-- Take one free core from each die in turn. -/
def spreadTake : Nat → Nat → List Nat → List Nat
  | 0, _, _ => []
  | n + 1, d, free =>
    match [0, 1, 2, 3].findSome? (fun k => (free.find? (fun c => dieOf c == (d + k) % 4)).map (fun c => (c, (d + k + 1) % 4))) with
    | some (c, d') => c :: spreadTake n d' (free.erase c)
    | none => []

/-- The cores that a partition takes from the free ones. -/
def takeCores (s : State) (p : Nat) (free : List Nat) : List Nat :=
  let n := fld s (Reg.PLC_PART p) Fld.PLC_PART_CORES
  if flg s (Reg.PLC_PART p) Fld.PLC_PART_SPREAD then spreadTake n 0 free else free.take n

/-- Partitions take active cores in ascending order, and CORE_STATUS shows it. -/
def assignCores (s : State) : State :=
  let clear (s : State) (c : Nat) : State :=
    setFld (setFld (setFld s (Reg.CORE_STATUS c) Fld.CORE_STATUS_PART 0) (Reg.CORE_STATUS c) Fld.CORE_STATUS_PART_VALID 0)
      (Reg.CORE_STATUS c) Fld.CORE_STATUS_LOGICAL 0
  let s := (List.range 72).foldl clear { s with partCores := [] }
  let one (st : State × List Nat) (p : Nat) : State × List Nat :=
    let cs := takeCores st.1 p st.2
    let show_ (s : State) (e : Nat × Nat) : State :=
      setFld (setFld (setFld s (Reg.CORE_STATUS e.1) Fld.CORE_STATUS_PART p) (Reg.CORE_STATUS e.1) Fld.CORE_STATUS_PART_VALID 1)
        (Reg.CORE_STATUS e.1) Fld.CORE_STATUS_LOGICAL e.2
    (cs.zipIdx.foldl show_ { st.1 with partCores := Sparse.set [] st.1.partCores p cs }, st.2.filter (fun c => !cs.contains c))
  ((List.range 8).foldl one (s, activeCores s)).1

/-! ### CFG_APPLY (R56, R57, R501, R513) -/

/-- A 48-byte digest shown in six registers (R519). -/
def setDigest (s : State) (r : Nat → Nat) (v : BitVec 384) : State :=
  (List.range 6).foldl (fun s i => wr s (r i) (v.extractLsb' (64 * i) 64)) s

/-- An accepted set takes effect: registers, CFG_DIGEST, OVERLAY_LIST, CFG_VALID, cores, and the units that follow their
enables. -/
def acceptCfg (s : State) (objs : List (Nat × List Byte)) : State :=
  let old := s
  let all := objs.flatMap (·.2)
  let s := { applyObjects s objs with cfgSet := all }
  let ovl := (objs.filter (fun o => o.1 != 0)).map (·.1)
  let s := setDigest s Reg.CFG_DIGEST (sha384 all)
  let s := wr s Reg.OVERLAY_LIST (ovl.zipIdx.foldl (fun w e => putF (Fld.OVERLAY_LIST_ORDER e.2) e.1 w)
    (putF Fld.OVERLAY_LIST_COUNT ovl.length 0))
  let s := assignCores (setFld s Reg.BOOT_STATUS Fld.BOOT_STATUS_CFG_VALID 1)
  alertSync old (humSync (fabricSync s))

/-- A rejected set changes no register but BOOT_STATUS: FAULT 2 with what R55 reports. -/
def rejectCfg (s : State) (f : Nat × Nat × Nat) : State :=
  let a := Reg.BOOT_STATUS
  wr s a (putF Fld.BOOT_STATUS_FAULT 2 (putF Fld.BOOT_STATUS_OBJECT f.2.1 (putF Fld.BOOT_STATUS_ENTRY f.2.2
    (putF Fld.BOOT_STATUS_CFG_REASON f.1 (rd s a)))))

/-- Validation and its outcome: whether the set was accepted. -/
def validateCfg (s : State) (objs : List (Nat × List Byte)) : State × Bool :=
  match cfgFault s objs with
  | some f => (rejectCfg s f, false)
  | none => (acceptCfg s objs, true)

end Sys2Proof.Machine
end

