-- ==== Sys2Proof/Machine/Placer.lean ====
section
/-! DEFINITION. The placer (R123 to R130, R152): tiers, addresses, overrides, the digest, and every ground on which a context load
is refused under R128. -/

namespace Sys2Proof.Machine

/-- Details 0 to 2 of a PLC_CAPACITY record (R130). -/
structure Short where
  d0 : Nat
  d1 : Nat
  d2 : Nat
deriving DecidableEq, Repr

/-- A PLC_HINT_OVERRIDE record's object and details (R130). -/
structure Hint where
  obj : Nat
  d0 : Nat
  d1 : Nat
  d2 : Nat
  d3 : Nat
deriving DecidableEq, Repr

/-- What the placer decides for a context: each handle's tier, in the order of R126, its entry, the SCRATCH and deque region of each
logical core, and the overrides made. -/
structure Placement where
  tiers : List (ManHandle × Nat)
  handles : List (Nat × Handle)
  scratch : List Nat
  deques : List Nat
  hints : List Hint
deriving DecidableEq, Repr

/-! ### What a partition holds (R124, R137, R140, R142, R148) -/

/-- Runs that touch become one; the list is ascending. -/
def mergeRuns : List (Nat × Nat) → List (Nat × Nat)
  | [] => []
  | (a, b) :: l => match mergeRuns l with
    | (c, d) :: r => if b = c then (a, d) :: r else (a, b) :: (c, d) :: r
    | [] => [(a, b)]

/-- The partition's storage of a tier on a die, as runs of addresses. -/
def tierRuns (s : State) (p t d : Nat) : List (Nat × Nat) :=
  match t with
  | 0 => ((coresOf s p).filter (fun c => dieOf c == d)).map (fun c =>
      (sramBase + coreOrdinal s c * 0x400000, sramBase + (coreOrdinal s c + 1) * 0x400000))
  | 1 => mergeRuns ((selectBelow 16 (wayPlaced s p)).map (fun w =>
      (combBase + d * 0x2000000 + w * 0x200000, combBase + d * 0x2000000 + (w + 1) * 0x200000)))
  | 2 => match hbmSet s p d with
    | some (b, e) => [((64 * d + b) * 0xA0000000, (64 * d + e) * 0xA0000000)]
    | none => []
  | _ => if l2Present s d then
      mergeRuns ((selectBelow 64 (fun g => granuleOwner s (64 * d + g) == some p)).map (fun g =>
        (l2Base + (64 * d + g) * 0x100000000, l2Base + (64 * d + g + 1) * 0x100000000)))
    else []

/-- The bytes of some runs. -/
def runBytes (l : List (Nat × Nat)) : Nat := (l.map (fun r => r.2 - r.1)).sum

/-- The bytes that a partition holds in a tier. -/
def tierBytes (s : State) (p t : Nat) : Nat := ((List.range 4).map (fun d => runBytes (tierRuns s p t d))).sum

/-- The extents taken (R152): handles, SCRATCH and deque regions of resident contexts, the copies of models and KV pages. -/
def takenExtents (s : State) : List (Nat × Nat) :=
  ((residents s).flatMap (fun x =>
    let c := getCtx s x
    let m := c.man
    c.handles.map (fun e => (e.2.base, e.2.base + e.2.size))
      ++ c.scratch.map (fun a => (a, a + (m.map (·.scratch)).getD 0))
      ++ c.deques.map (fun a => (a, a + (m.map (·.dequeEntries)).getD 0 * 128))))
    ++ (s.models.flatMap (fun e => match e.2 with
      | none => []
      | some m => (m.backing, m.backing + m.bytes) :: (if m.st = 0 then [] else [(m.hot, m.hot + m.bytes)])))
    ++ s.streams.flatMap (fun e => match e.2 with
      | none => []
      | some v => v.pages.map (fun g => (g.addr, g.addr + fld s (Reg.SRV_PAGE v.part) Fld.SRV_PAGE_PAGE_BYTES)))

def alignUp (a : Nat) : Nat := ceilDiv a 4096 * 4096

/-- The lowest free 4 KiB-aligned address of `size` bytes within a run (R152). -/
def fitRun (taken : List (Nat × Nat)) (size : Nat) (r : Nat × Nat) : Option Nat :=
  let ok (a : Nat) : Bool := decide (r.1 ≤ a) && decide (a + size ≤ r.2) && taken.all (fun t => decide (t.2 ≤ a) || decide (a + size ≤ t.1))
  let cands := (alignUp r.1 :: taken.map (fun t => alignUp t.2)).filter ok
  match cands with
  | [] => none
  | a :: l => some (l.foldl min a)

/-- The first run of a list with room. -/
def fitRuns (taken : List (Nat × Nat)) (size : Nat) (l : List (Nat × Nat)) : Option Nat := l.findSome? (fitRun taken size)

/-- The free bytes of some runs. -/
def freeBytes (taken runs : List (Nat × Nat)) : Nat :=
  runBytes runs - (runs.map (fun r => (taken.map (fun t => min t.2 r.2 - max t.1 r.1)).sum)).sum

/-- The dies in the order of R152: the core's own, then the others, lowest first. -/
def diesFrom (d : Nat) : List Nat := d :: [0, 1, 2, 3].filter (· != d)

/-- The place of an extent in a tier: the die of a core first (R152); core SRAM is that core's alone (R126). -/
def placeAt (s : State) (p t c size : Nat) (taken : List (Nat × Nat)) : Option Nat :=
  if t = 0 then fitRuns taken size [(sramBase + coreOrdinal s c * 0x400000, sramBase + (coreOrdinal s c + 1) * 0x400000)]
  else (diesFrom (dieOf c)).findSome? (fun d => fitRuns taken size (tierRuns s p t d))

/-- The room that detail 2 shows where nothing was large enough (R130). -/
def roomAt (s : State) (p t c : Nat) (taken : List (Nat × Nat)) : Nat :=
  if t = 0 then freeBytes taken [(sramBase + coreOrdinal s c * 0x400000, sramBase + (coreOrdinal s c + 1) * 0x400000)]
  else freeBytes taken ((List.range 4).flatMap (tierRuns s p t))

/-! ### Tiers (R126, R127) -/

/-- Descending weight ÷ size, compared exactly; size 0 first; ties in ascending handle number. -/
def handleBefore (a b : ManHandle) : Bool :=
  if a.size = 0 then b.size != 0 || decide (a.h < b.h)
  else if b.size = 0 then false
  else decide (b.weight * a.size < a.weight * b.size) || (a.weight * b.size == b.weight * a.size && decide (a.h < b.h))

def insertHandle (a : ManHandle) : List ManHandle → List ManHandle
  | [] => [a]
  | b :: l => if handleBefore a b then a :: b :: l else b :: insertHandle a l

/-- Pinned handles in ascending number, then the others as R126 ranks them. -/
def handleOrder (m : Manifest) : List ManHandle :=
  sortBy (·.h) (m.handles.filter (·.pin.isSome)) ++ (m.handles.filter (·.pin.isNone)).foldl (fun l h => insertHandle h l) []

/-- The first tier from `t` on whose remaining budget holds `size` bytes. -/
def tierFrom (left : List Nat) (size t : Nat) : Option Nat :=
  ([0, 1, 2, 3].filter (fun k => decide (t ≤ k) && decide (size ≤ left.getD k 0))).head?

/-- Tiers one handle after another, with the budgets left and the overrides of R127. -/
def assignTiers : List Nat → List ManHandle → Except Short (List (ManHandle × Nat) × List Hint)
  | _, [] => .ok ([], [])
  | left, h :: hs =>
    let pin := h.pin.getD 0
    match tierFrom left h.size pin with
    | none => .error ⟨3, h.size, left.getD 3 0⟩
    | some t => match assignTiers (left.set t (left.getD t 0 - h.size)) hs with
      | .error e => .error e
      | .ok (ts, ns) => .ok ((h, t) :: ts, if h.pin.isSome && t != pin then ⟨h.h, 1, pin, t, h.size⟩ :: ns else ns)

/-- A class's core group cut to the partition (R127). -/
def groupHints (n : Nat) (m : Manifest) : List Hint :=
  m.classes.zipIdx.filterMap (fun e => e.1.group.bind (fun g =>
    let c := cutGroup n (some g)
    let last := c.1 + c.2 - 1
    if g = (c.1, last) then none else some ⟨e.2, 2, g.1 + 2 ^ 16 * g.2, c.1 + 2 ^ 16 * last, 0⟩))

/-- The logical core near which a handle lies: home of task 0 of the first class that uses it, or core 0 (R126). -/
def handleCore (s : State) (n : Nat) (m : Manifest) (h : Nat) : Nat :=
  match m.classes.zipIdx.find? (fun e => e.1.uses.contains h) with
  | some (k, c) => homeIn s n c k.block k.count k.group 0
  | none => 0

/-! ### Addresses (R117, R126, R152) -/

/-- The handles in the order of their tiers' choice. -/
def placeHandles (s : State) (p : Nat) (m : Manifest) :
    List (Nat × Nat) → List (ManHandle × Nat) → Except Short (List (Nat × Handle) × List (Nat × Nat))
  | taken, [] => .ok ([], taken)
  | taken, (h, t) :: hs =>
    let c := physCore s p (handleCore s (coresOf s p).length m h.h)
    match placeAt s p t c h.size taken with
    | none => .error ⟨t, h.size, roomAt s p t c taken⟩
    | some a => match placeHandles s p m (if h.size = 0 then taken else (a, a + h.size) :: taken) hs with
      | .error e => .error e
      | .ok (es, tk) => .ok ((h.h, mkHandle a t h.writable h.code (h.pin == some t) h.size) :: es, tk)

/-- A region for each core: its SCRATCH in its SRAM (R40), or its deque region in HBM (R117). -/
def placeRegions (s : State) (p t size : Nat) (short : List (Nat × Nat) → Nat → Short) :
    List (Nat × Nat) → List Nat → Except Short (List Nat × List (Nat × Nat))
  | taken, [] => .ok ([], taken)
  | taken, c :: cs => match placeAt s p t c size taken with
    | none => .error (short taken c)
    | some a => match placeRegions s p t size short (if size = 0 then taken else (a, a + size) :: taken) cs with
      | .error e => .error e
      | .ok (as, tk) => .ok (a :: as, tk)

/-- The launch tasks of each home core, at most (R128). -/
def launchMost (s : State) (n : Nat) (m : Manifest) : Nat :=
  let homes := m.launch.map (fun e => match classOf m e.2 with
    | none => homeIn s n defaultClass false 0 none e.2
    | some (c, k) => homeIn s n c k.block k.count k.group (e.2 - k.first))
  ((List.range n).map (fun l => (homes.filter (· == l)).length)).foldl max 0

/-- The budgets of the contexts of a partition in a tier. -/
def budgetSum (s : State) (p t : Nat) : Nat :=
  ((ctxsOf s p).map (fun x => ((manOf s x).map (fun m => m.budgets.getD t 0)).getD 0)).sum

/-- Cores, contexts and budgets (R128). DESIGN CHOICE (log entry 70): where the budgets together exceed a tier, what was required is
their sum and what was available the bytes that the partition holds there. -/
def capacityCheck (s : State) (p : Nat) (m : Manifest) : Option Short :=
  let total := sumParts s Reg.PLC_PART Fld.PLC_PART_CORES
  let active := fld s Reg.PLC_STATUS Fld.PLC_STATUS_ACTIVE_CORES
  if active < total then some ⟨4, total, active⟩
  else if fld s (Reg.PLC_PART p) Fld.PLC_PART_CORES = 0 then some ⟨4, 1, 0⟩
  else if 8 ≤ (ctxsOf s p).length then some ⟨13, 9, 8⟩
  else ([0, 1, 2, 3].find? (fun t => decide (tierBytes s p t < budgetSum s p t + m.budgets.getD t 0))).map
    (fun t => ⟨t, budgetSum s p t + m.budgets.getD t 0, tierBytes s p t⟩)

/-- The deque entries that the partition's HBM sets still have room for, region by region (R130), up to `n` cores. -/
def dequeRoomLeft (s : State) (p size : Nat) : Nat → List (Nat × Nat) → Nat
  | 0, _ => 0
  | n + 1, taken =>
    match (List.range 4).findSome? (fun d => fitRuns taken size (tierRuns s p 2 d)) with
    | some a => size / 128 + dequeRoomLeft s p size n ((a, a + size) :: taken)
    | none => roomAt s p 2 0 taken / 128

/-- The whole placement of a context (R123). DESIGN CHOICE (log entry 70): the overrides of core groups are recorded before those of
tier pins. -/
def place (s : State) (p : Nat) (m : Manifest) : Except Short Placement :=
  let cs := coresOf s p
  let n := cs.length
  match capacityCheck s p m with
  | some e => .error e
  | none => match assignTiers m.budgets (handleOrder m) with
    | .error e => .error e
    | .ok (ts, ns) =>
      let cap := 64 + m.dequeEntries
      if cap < launchMost s n m then .error ⟨5, launchMost s n m, cap⟩
      else match placeHandles s p m (takenExtents s) ts with
        | .error e => .error e
        | .ok (hs, tk) => match placeRegions s p 0 m.scratch (fun t c => ⟨0, m.scratch, roomAt s p 0 c t⟩) tk cs with
          | .error e => .error e
          | .ok (sc, tk) =>
            match placeRegions s p 2 (m.dequeEntries * 128)
                (fun _ _ => ⟨5, n * m.dequeEntries, dequeRoomLeft s p (m.dequeEntries * 128) n tk⟩) tk cs with
            | .error e => .error e
            | .ok (dq, _) => .ok ⟨ts, hs, sc, dq, groupHints n m ++ ns⟩

/-- The decision list of R129: each handle's number and tier, then each class's index and permutation, the default class last; little
endian. -/
def decisionList (s : State) (n : Nat) (m : Manifest) (ts : List (ManHandle × Nat)) : List Byte :=
  (sortBy (fun e => e.1.h) ts).flatMap (fun e => leBytes 2 e.1.h ++ leBytes 1 e.2)
    ++ (m.classes.zipIdx.map (fun e => (e.2, (cutGroup n e.1.group).2)) ++ [(defaultClass, n)]).flatMap (fun e =>
      leBytes 2 e.1 ++ (homePerm (plcSeed s) e.1 e.2).flatMap (leBytes 2))

/-! ### Other rules that refuse a load under R128 -/

/-- Brood cells (R208). -/
def cellsCheck (s : State) (p : Nat) (m : Manifest) : Option Short :=
  m.stage.bind (fun g =>
    let a := Reg.BRD_PART p
    let reserve := fld s a Fld.BRD_PART_RESERVE
    let room := fld s a Fld.BRD_PART_QUOTA - reserve
    let later := ((g.js.drop 1).map (depth s p g)).sum
    let first := if fillDrain s p then depth s p g 0 else 1
    if reserve < later then some ⟨6, later, reserve⟩ else if room < first then some ⟨6, first, room⟩ else none)

/-- The reduction buffer (R226). -/
def bufferCheck (m : Manifest) : Option Short :=
  m.reduce.bind (fun r =>
    let n := ((m.groups.find? (fun g => g.gid == r.gid)).map (fun g => g.members.length)).getD 1
    let k := Geometry.cube n * 4096
    if r.elems % k = 0 then none else some ⟨7, k, r.elems⟩)

/-- The first flag or barrier of a partition (R258). -/
def firstObject (s : State) (p : Nat) (f : Fld) : Nat := ((List.range p).map (fun q => fld s (Reg.SYN_PART q) f)).sum

/-- The count that would make every named object the partition's own (R258). -/
def neededCount (first : Nat) (named : List Nat) : Nat :=
  if named.any (fun i => decide (i < first)) then 2 ^ 32 - 1 else (named.map (fun i => i + 1 - first)).foldl max 0

/-- Flags and barriers (R258, R269). -/
def flagsCheck (s : State) (p : Nat) (m : Manifest) : Option Short :=
  let fl := (m.flags.filter (fun e => !e.barrier)).map (·.index)
  let bs := m.flags.filter (·.barrier)
  let f0 := firstObject s p Fld.SYN_PART_FLAGS
  let b0 := firstObject s p Fld.SYN_PART_BARRIERS
  let nf := fld s (Reg.SYN_PART p) Fld.SYN_PART_FLAGS
  let nb := fld s (Reg.SYN_PART p) Fld.SYN_PART_BARRIERS
  let wf := neededCount f0 fl
  let wb := neededCount b0 (bs.map (·.index))
  if nf < wf ∨ nb < wb then some ⟨8, wf + 2 ^ 32 * wb, nf + 2 ^ 32 * nb⟩
  else bs.findSome? (fun e => (bs.find? (fun o => o.index == e.index && max 1 o.expect != max 1 e.expect)).map
    (fun o => ⟨8, max 1 e.expect, max 1 o.expect⟩))

/-- The rings that a slot's former context still holds (R279). -/
def ringsOfSlot (s : State) (x : Nat) : List (Nat × Ring) := s.rings.filter (fun e => e.2.valid && e.2.ctx == x)

/-- Rings and combining entries (R272), once the slot's former rings are released (R279). -/
def ringsCheck (s : State) (x : Nat) (m : Manifest) : Option Short :=
  let old := ringsOfSlot s x
  let free := fld s Reg.MSG_POOL Fld.MSG_POOL_RINGS_FREE + old.length
  let tags := fld s Reg.MSG_POOL Fld.MSG_POOL_COMB_FREE + (old.map (fun e => e.2.tags)).sum
  let want := (m.rings.map (fun r => if r.combining then r.combTags else 0)).sum
  if free < m.rings.length then some ⟨9, m.rings.length, free⟩
  else if tags < want then some ⟨9, want, tags⟩
  else m.rings.findSome? (fun r =>
    let size := ((m.handles.find? (fun h => h.h == r.handle)).map (·.size)).getD 0
    let held := getRing s r.ring
    if r.combining && r.expect == 0 then some ⟨9, 1, 0⟩
    else if size < 2 ^ r.log2Size then some ⟨9, 2 ^ r.log2Size, size⟩
    else if held.valid && held.ctx != x then some ⟨9, r.ring, held.ctx⟩
    else none)

/-- Whether this device is a member of a group, or only on its tree. -/
def isMember (g : ManGroup) : Bool := decide (g.rank < g.members.length)

/-- The lowest group slots that hold none (R293). -/
def freeSlots (s : State) : List Nat := selectBelow 64 (fun k => !(getGrp s k).valid)

/-- Collective groups (R293). -/
def groupsCheck (s : State) (m : Manifest) : Option Short :=
  let n := (m.groups.filter isMember).length
  if (freeSlots s).length < n then some ⟨10, n, (freeSlots s).length⟩ else none

/-- The job ranks of a group, and where they lie, as a manifest being loaded gives them (R367): the own rank here. -/
def manUid (s : State) (m : Manifest) (r : Nat) : Nat :=
  match m.ranks with
  | none => ownUid s
  | some (own, table) =>
    if r = own then ownUid s
    else match table[r]?.bind (fun a => s.swarm.nodes.find? (fun n => n.addr == a)) with
      | some n => n.uid
      | none => 2 ^ 64 + r

/-- The trees of a manifest that pass through this device, each with its shape. -/
def treeShapes (s : State) (m : Manifest) : List ((Nat × Option Nat) × TreeShape) :=
  (treesOf m).filterMap (fun t =>
    let ms := ((m.groups.find? (fun g => g.gid == t.1)).map (·.members)).getD []
    (treeShape s (ms.map (manUid s m))).map (fun h => (t, h)))

/-- Waggle trees (R315). -/
def treesCheck (s : State) (m : Manifest) : Option Short :=
  let n := (treeShapes s m).length
  let free := (freeTrees s).length
  if free < n then some ⟨11, n, free⟩ else none

/-- The lengths of the sections that a manifest of `len` bytes adds to a slot (R424). -/
def sectionLens (len : Nat) (m : Manifest) : List Nat :=
  let size (h : Nat) : Nat := ((m.handles.find? (fun e => e.h == h)).map (·.size)).getD 0
  let red := match m.reduce with
    | none => []
    | some r => r.stateHandles.map (fun h => size h / 2) ++ [size r.staging]
  let marked := match m.ckpt with
    | none => []
    | some k => k.handles.map size
  len :: (m.handles.filter (·.code)).map (·.size) ++ red ++ marked

/-- The bytes of a partition's slot with a manifest of `len` bytes beside those resident: the header and the table in whole chunks,
then each section in whole chunks with a CRC each (R424). -/
def slotRoom (s : State) (p len : Nat) (m : Manifest) : Nat :=
  let lens := s.cfgSet.length :: sectionLens len m
    ++ (ctxsOf s p).flatMap (fun x => ((manOf s x).map (sectionLens (getCtx s x).image.length)).getD [])
  ceilDiv (256 + 32 * lens.length) 4096 * 4096 + (lens.map (fun n => ceilDiv n 4096 * 4100)).sum

/-- β of R422: one-to-one over the `n` ranks of the job, no rank its own buddy. -/
def buddiesOk (n : Nat) (k : ManCkpt) : Bool :=
  k.buddyOf.all (fun e => e.1 != e.2 && decide (e.1 < n) && decide (e.2 < n)) && k.buddyOf.length == n
    && decide ((k.buddyOf.map (·.1)).Nodup) && decide ((k.buddyOf.map (·.2)).Nodup)

/-- Checkpoints (R422): β, where the manifest gives one, and the room that a training partition's slot has. Of a breach of β the spec
states no details 1 and 2: free values (log entry 2). -/
def checkpointCheck (s : State) (p len : Nat) (m : Manifest) : Option Short :=
  let n := fld s (Reg.CKP_AREA p) Fld.CKP_AREA_AREA_COUNT * 2 ^ 31
  let jobRanks := (m.ranks.map (·.2.length)).getD 0
  if (m.ckpt.map (fun k => !buddiesOk jobRanks k)).getD false then
    some ⟨12, Config.freeNat s.free % 2 ^ 64, Config.freeNat (s.free + 1) % 2 ^ 64⟩
  else if training s p && decide (n ≠ 0) && decide (n < slotRoom s p len m) then some ⟨12, slotRoom s p len m, n⟩
  else none

/-- The first rule that refuses the load of slot `x`, or the placement. -/
def judgeLoad (s : State) (x p len : Nat) (m : Manifest) : Except Short Placement :=
  match place s p m with
  | .error e => .error e
  | .ok v =>
    match [cellsCheck s p m, bufferCheck m, flagsCheck s p m, ringsCheck s x m, groupsCheck s m, treesCheck s m,
      checkpointCheck s p len m].findSome? id with
    | some e => .error e
    | none => .ok v

end Sys2Proof.Machine
end

