-- ==== Sys2Proof/Machine/Contexts.lean ====
section
/-! DEFINITION. Loading, unloading, saving and restoring contexts (R29, R222, R279, R453, R514). -/

namespace Sys2Proof.Machine

/-- What answers a host request: STATUS (R449), words, bytes. -/
structure Answer where
  status : Nat
  words : List Word
  bytes : List Byte
deriving DecidableEq, Repr

/-- The STATUS codes (R449). -/
def stOk : Nat := 0
def stBusy : Nat := 1
def stBadSession : Nat := 2
def stUnknown : Nat := 3
def stMalformed : Nat := 4
def stBound : Nat := 5
def stPoisoned : Nat := 6
def stRefused : Nat := 7
def stStale : Nat := 8
def stNotYet : Nat := 9
def stDenied : Nat := 10
def stNack : Nat := 11
def stJoinRefused : Nat := 12

/-- A request's outcome: the state, and the answer unless it comes later. -/
abbrev Reply := State × Option Answer

/-- An answer of STATUS alone. -/
def plainAnswer (st : Nat) : Option Answer := some ⟨st, [], []⟩
def okay (s : State) : Reply := (s, plainAnswer stOk)
def denied (s : State) : Reply := (s, plainAnswer stDenied)
def malformed (s : State) : Reply := (s, plainAnswer stMalformed)

/-- REFUSED with the record logged (R449). -/
def refusedWith (s : State) (r : ErrRec) : Reply :=
  (raise s r, some ⟨stRefused, [], errBytes { r with seq := s.recSeq, beat := beat s }⟩)

/-! ### The manifest's layout (R453) -/

/-- The first field of the header at fault, by its offset. -/
def headerField (s : State) (bs : List Byte) : Option Nat :=
  let need (o n : Nat) (ok : Bool) : Option Nat := if decide (bs.length < o + n) || !ok then some o else none
  [need 0 8 (leField bs 0 8 == 0x46494E414D4D4E45), need 8 2 (leField bs 8 2 == 1),
    need 10 2 (decide (leField bs 10 2 ≤ fld s Reg.HERITAGE_LEVEL Fld.HERITAGE_LEVEL_LEVEL)), need 12 2 (decide (leField bs 12 2 < 8)),
    need 14 2 true, need 16 8 (leField bs 16 8 == bs.length), need 24 8 (leField bs 24 8 == 0)].findSome? id

/-- The first section header at fault: offset and section index; `n` sections from offset `o` on, the first of them section `i`. -/
def sectionField (bs : List Byte) : Nat → Nat → Nat → Option (Nat × Nat)
  | 0, o, _ => if o = bs.length then none else some (16, 2 ^ 32 - 1)
  | n + 1, o, i =>
    let bad (k : Nat) : Option (Nat × Nat) := some (o + k, i)
    let count := leField bs (o + 4) 4
    let size := leField bs (o + 8) 4
    if bs.length < o + 16 then bad 0
    else if leField bs o 2 = 0 ∨ 12 < leField bs o 2 then bad 0
    else if leField bs (o + 2) 2 ≠ 0 then bad 2
    else if size % 8 ≠ 0 then bad 8
    else if leField bs (o + 12) 4 ≠ 0 then bad 12
    else if bs.length < o + 16 + count * size then bad 4
    else sectionField bs n (o + 16 + count * size) (i + 1)

/-- The first field of a manifest at fault; `inner` is a fault that the reading of its records finds. -/
def manifestFault (s : State) (bs : List Byte) (inner : Option (Nat × Nat)) : Option (Nat × Nat) :=
  ((headerField s bs).map (fun o => (o, 2 ^ 32 - 1))).or ((sectionField bs (leField bs 14 2) 32 0).or inner)

/-! ### Loading -/

/-- The rings that a slot's former context held are released (R279). -/
def releaseRings (s : State) (x : Nat) : State :=
  (ringsOfSlot s x).foldl (fun s e =>
    let p := Reg.MSG_POOL
    let s := setFld s p Fld.MSG_POOL_RINGS_FREE (fld s p Fld.MSG_POOL_RINGS_FREE + 1)
    let s := setFld s p Fld.MSG_POOL_COMB_FREE (fld s p Fld.MSG_POOL_COMB_FREE + e.2.tags)
    setRing s e.1 { Ring.none with epoch := e.2.epoch }) s

/-- A ring is assigned to a context (R271, R279). -/
def assignRing (x p : Nat) (s : State) (r : ManRing) : State :=
  let tags := if r.combining then r.combTags else 0
  let m := Reg.MSG_POOL
  let s := setFld s m Fld.MSG_POOL_RINGS_FREE (fld s m Fld.MSG_POOL_RINGS_FREE - 1)
  let s := setFld s m Fld.MSG_POOL_COMB_FREE (fld s m Fld.MSG_POOL_COMB_FREE - tags)
  setRing s r.ring { Ring.none with
    valid := true, combining := r.combining, combInt := r.combInt, log2 := r.log2Size, ctx := x, part := p, handlers := r.handlers
    tags := tags, epoch := ((getRing s r.ring).epoch + 1) % 65536, handle := r.handle, expect := r.expect, gFirst := r.groupFirst
    gLast := r.groupLast, hHandle := r.hHandle, hOffset := r.hOffset }

/-- A group takes the lowest free slot (R293, R294). -/
def assignGroup (x p : Nat) (red : Option Nat) (s : State) (g : ManGroup) : State :=
  match freeSlots s with
  | k :: _ => setGrp s k { Grp.none with
      valid := true, part := p, ctx := x, gid := g.gid, rank := g.rank, members := g.members, device := red == some g.gid }
  | [] => s

/-- The job rank table is written whole (R367, R383): a manifest's table takes the place of the former one. -/
def writeRanks (s : State) (m : Manifest) : State :=
  match m.ranks with
  | some (_, table) =>
    { s with ranks := table.zipIdx.foldl (fun t e => Sparse.set none t (e.2 % 16384) (some (e.1 % 16384))) [], pastAddrs := [] }
  | none => s

/-- GRD_ROLE and OPT_PART.GROUP as the manifest gives them, and COMMITS from 0 (R252, R255, R256). -/
def loadReduce (s : State) (p : Nat) (m : Manifest) : State :=
  match m.reduce with
  | none => s
  | some r =>
    let g := m.groups.find? (fun g => g.gid == r.gid)
    let a := Reg.GRD_ROLE p
    let w := putF Fld.GRD_ROLE_RANK ((g.map (·.rank)).getD 0) (putF Fld.GRD_ROLE_SIZE ((g.map (fun g => g.members.length)).getD 1)
      (putF Fld.GRD_ROLE_BACKUPS_LEFT r.backups.length (putF Fld.GRD_ROLE_BACKUP_ROLE (bnat r.backupRole.isSome)
        (putF Fld.GRD_ROLE_SHADOW (r.backupRole.getD 0) 0))))
    let s := wr (wr s a w) (Reg.OPT_COMMITS p) 0
    setFld s (Reg.OPT_PART p) Fld.OPT_PART_GROUP (cutGroup (coresOf s p).length (some (r.groupFirst, r.groupLast))).2

/-- BUDDY, WARD and the drone's role as the manifest gives them (R422, R427, R440). -/
def loadCkpt (s : State) (p : Nat) (m : Manifest) : State :=
  match m.ckpt with
  | none => s
  | some k =>
    let own := (m.ranks.map (·.1)).getD 0
    let a := Reg.CKP_AREA p
    let s := match k.buddyOf.find? (fun e => e.1 == own) with
      | some e => setFld s a Fld.CKP_AREA_BUDDY e.2
      | none => s
    let s := match k.buddyOf.find? (fun e => e.2 == own) with
      | some e => setFld s a Fld.CKP_AREA_WARD e.1
      | none => s
    match k.droneIndex with
    | some i => wr s Reg.CKP_DRONE (putF Fld.CKP_DRONE_ROLE 1 (putF Fld.CKP_DRONE_INDEX i 0))
    | none => s

/-- A training partition starts afresh with the context that declares its stage or its reduction. -/
def freshTrain (s : State) (p : Nat) (m : Manifest) : State :=
  if m.stage.isSome || m.reduce.isSome then setTrain s p Train.idle else s

/-- PLC_STATUS.LOCKED and the boot phase follow the contexts resident (R134, R512). -/
def lockSync (s : State) : State :=
  let on := !(residents s).isEmpty
  let s := setFld s Reg.PLC_STATUS Fld.PLC_STATUS_LOCKED (bnat on)
  if on && bootPhase s == 8 then setBootPhase s 9 else if !on && bootPhase s == 9 then setBootPhase s 8 else s

/-- The overrides are counted and recorded once a load has succeeded (R127). -/
def recordHints (s : State) (x p : Nat) (hs : List Hint) : State :=
  hs.foldl (fun s h =>
    let s := bump s Reg.PLC_OVERRIDES Fld.PLC_OVERRIDES_COUNT 1
    raise s { plainRec 0x1201 sevInfo h.obj h.d0 h.d1 h.d2 h.d3 with part := some p, ctx := some x }) s

/-- The digest of a successful placement (R129). -/
def placeDigest (s : State) (x p : Nat) (m : Manifest) (v : Placement) : State :=
  let s := setDigest s Reg.PLC_DIGEST (sha384 (decisionList s (coresOf s p).length m v.tiers))
  wr s Reg.PLC_DIGEST_CTX (putF Fld.PLC_DIGEST_CTX_CONTEXT x (putF Fld.PLC_DIGEST_CTX_VALID 1 0))

/-- A placed context becomes resident (R29, R39, R257, R260, R271, R293). -/
def installCtx (s : State) (x p : Nat) (bs : List Byte) (m : Manifest) (v : Placement) : State :=
  let s := setCtx s x { Ctx.free with
    st := .loaded, part := p, man := some m, scratch := v.scratch, deques := v.deques, image := bs
    handles := v.handles.foldl (fun t e => Sparse.set ⟨0, 0⟩ t e.1 e.2) []
    flagMap := m.flags.foldl (fun t e => Sparse.set 0 t (e.name % 65536) (mkEntry e.barrier e.index e.remoteOk e.stepScoped)) [] }
  let s := loadFlags s m.flags
  let s := m.rings.foldl (assignRing x p) (releaseRings s x)
  let s := (m.groups.filter isMember).foldl (assignGroup x p (m.reduce.map (·.gid))) s
  let s := (treeShapes s m).foldl assignTree s
  let s := freshTrain (loadCkpt (loadReduce (writeRanks s m) p m) p m) p m
  lockSync (recordHints (placeDigest s x p m v) x p v.hints)

/-- Placement, and the load or its refusal (R128, R453). -/
def placeCtx (s : State) (x p : Nat) (bs : List Byte) (m : Manifest) : Reply :=
  match judgeLoad s x p bs.length m with
  | .error e => refusedWith { s with free := s.free + 2 }
      { plainRec 0x1202 sevError x e.d0 e.d1 e.d2 p with part := some p, ctx := some x }
  | .ok v => okay (installCtx s x p bs m v)

/-- Whether a clock domain that would serve the partition has failed or has not started (R511). -/
def clocksDown (s : State) (p : Nat) : Bool := (List.range 25).any (fun d => clkServes s p d && (clkState s d == 0 || clkState s d == 3))

/-- A Swarm rebuild runs: READY was reached once, and is not now (R373). -/
def rebuilding (s : State) : Bool := decide (epoch s ≠ 0) && swarmPhase s != 6

/-- The offset and the index of the first section of a kind among the `n` sections from offset `o` on, the first of them section `i`. -/
def findSection (bs : List Byte) (kind : Nat) : Nat → Nat → Nat → Nat × Nat
  | 0, o, i => (o, i)
  | n + 1, o, i =>
    if leField bs o 2 = kind then (o, i) else findSection bs kind n (o + 16 + leField bs (o + 4) 4 * leField bs (o + 8) 4) (i + 1)

/-- The deque size that a manifest gives is from 64 to 1,048,576 entries (R117). The field stands behind four tier budgets and the
scratch size, each of 8 bytes, in the record of the section of kind 1 (R453, log entry 81). -/
def dequeFault (bs : List Byte) (m : Manifest) : Option (Nat × Nat) :=
  if 64 ≤ m.dequeEntries ∧ m.dequeEntries ≤ 1048576 then none
  else
    let at_ := findSection bs 1 (leField bs 14 2) 32 0
    some (at_.1 + 16 + 40, at_.2)

/-- CTX_LOAD (R453, R513, R514). A Keeper held in reset loads and unloads nothing (R421). -/
def ctxLoad (s : State) (sess tag x addr len : Nat) (inner : Option (Nat × Nat)) (m : Manifest) : Reply :=
  if 64 ≤ x then malformed s
  else if (getCtx s x).st ≠ .free ∨ bootPhase s < 8 ∨ s.keeper.held then denied s
  else if (firstBad s none addr len).isSome then (s, plainAnswer stBound)
  else if poisoned s addr len then (s, plainAnswer stPoisoned)
  else
    let bs := readBytes s addr len
    match manifestFault s bs (inner.or (dequeFault bs m)) with
    | some (o, sec) => refusedWith s { plainRec codeBound sevError x o sec 0 0 with ctx := some x }
    | none =>
      let p := leField bs 12 2
      if clocksDown s p then denied s
      else if m.ranks.isSome && rebuilding s then ({ s with waitLoads := s.waitLoads ++ [(sess, tag, x, addr, len, m)] }, none)
      else if m.ranks.isSome && !(swarmPhase s == 6 && flg s Reg.FAB_ADDR Fld.FAB_ADDR_VALID) then denied s
      else placeCtx s x p bs m

/-! ### Stop, resume, unload (R29, R222, R279) -/

/-- CTX_STOP. -/
def ctxStop (s : State) (x : Nat) : Reply :=
  if 64 ≤ x then malformed s
  else match (getCtx s x).st with
    | .loaded | .runnable | .running => okay (stopCtx s x)
    | _ => denied s

/-- CTX_RESUME: back to LOADED if stopped from LOADED, else to RUNNABLE. -/
def ctxResume (s : State) (x : Nat) : Reply :=
  if 64 ≤ x then malformed s
  else if (getCtx s x).st = .stopped then okay (setCtxState s x (if (getCtx s x).fromLoaded then .loaded else .runnable))
  else denied s

/-- Cells of a context, of every phase and of its windows. -/
def cellsHeld (s : State) (x : Nat) : List Nat := (s.cells.filter (fun e => e.2.st != .free && e.2.ctx == x)).map (·.1)

/-- Cells held at unload are released, and one record gives their count (R222). -/
def releaseCells (s : State) (x : Nat) : State :=
  let p := (getCtx s x).part
  match cellsHeld s x with
  | [] => s
  | c :: cs =>
    let first := getCell s c
    let n := cs.length + 1
    let s := (c :: cs).foldl (fun s c => setCell s c Cell.free) s
    noteHeld (orphan s p c 3 first.step (orphanWhich first.index first.vstage first.attempt) n) p

/-- Rings of an unloaded context stay in the table as CLOSED (R279). -/
def closeRings (s : State) (x : Nat) : State :=
  (ringsOfSlot s x).foldl (fun s e => setRing s e.1 { e.2 with st := 2, prior := 2, resetBy := none, ops := [], active := [] }) s

/-- Groups and trees of an unloaded context are freed. -/
def freeGroups (s : State) (x : Nat) : State :=
  let gids := ((manOf s x).map (fun m => m.groups.map (·.gid))).getD []
  let bars := ((manOf s x).map (fun m => (treesOf m).filterMap (·.2))).getD []
  let mine (v : WTree) : Bool := gids.contains v.gid && (v.relay || decide (256 ≤ v.local_) || bars.contains v.local_)
  let s := { s with trees := s.trees.filter (fun e => !mine e.2) }
  { s with grps := s.grps.filter (fun e => !(e.2.valid && e.2.ctx == x)) }

/-- The handler tasks of a partition are gone: their chunk buffers are free, and the optimizer is not BUSY (R244, R256). -/
def dropHandlers (s : State) (p : Nat) : State :=
  let s := setFld s (Reg.OPT_PART p) Fld.OPT_PART_BUSY 0
  { s with chunkBufs := s.chunkBufs.filter (fun e => !(coresOf s p).contains e.1) }

/-- What a partition's units hold for an unloaded context goes with it: the stage and exchange it declared, its serving windows. -/
def dropUnits (s : State) (x : Nat) : State :=
  let p := (getCtx s x).part
  match manOf s x with
  | none => s
  | some m =>
    let s := if m.stage.isSome || m.reduce.isSome then dropHandlers (setTrain s p Train.idle) p else s
    if m.models.isSome then
      { s with serv := Sparse.set Serv.none s.serv p
                 { Sparse.get Serv.none s.serv p with wins := [], waiting := [] } }
    else s

/-- CTX_UNLOAD, from FAULTED or STOPPED. -/
def ctxUnload (s : State) (x : Nat) : Reply :=
  if 64 ≤ x then malformed s
  else if s.keeper.held then denied s
  else match (getCtx s x).st with
    | .faulted | .stopped =>
      let s := freeGroups (closeRings (releaseCells s x) x) x
      let s := dropUnits s x
      okay (lockSync (setCtx s x Ctx.free))
    | _ => denied s

/-! ### Save, restore, handles (R39, R453) -/

/-- Whether a context has a collective or an exchange in progress. -/
def collecting (s : State) (x : Nat) : Bool :=
  s.grps.any (fun e => e.2.valid && e.2.ctx == x && (e.2.bulk.isSome || e.2.wag.isSome || !e.2.waiting.isEmpty))
    || ((getTrain s (getCtx s x).part).xch.isSome && ((manOf s x).map (·.reduce.isSome)).getD false)

/-- The objects that a context's map names: physical flags and barriers (R257). -/
def mappedFlags (s : State) (x : Nat) : List Nat :=
  ((getCtx s x).flagMap.filter (fun e => entryValid e.2 && !entryBarrier e.2)).map (fun e => entryIndex e.2)
def mappedBars (s : State) (x : Nat) : List Nat :=
  ((getCtx s x).flagMap.filter (fun e => entryValid e.2 && entryBarrier e.2)).map (fun e => entryIndex e.2)

/-- What an image stands for. -/
def imageOf (s : State) (x : Nat) (bs : List Byte) : Saved :=
  let c := getCtx s x
  { bytes := bs, firmware := digestBytes s Reg.FW_DIGEST, manifest := sha384 c.image, fromLoaded := c.fromLoaded
    cores := c.cores.map (fun e => (e.1, { e.2 with arrays := CoreCtx.none.arrays })), sent := c.sent
    flags := (mappedFlags s x).map (fun f => (f, getFlag s f)), bars := (mappedBars s x).map (fun b => (b, getBar s b))
    rings := ringsOfSlot s x }

/-- The bytes that an image of a context takes: the spec leaves the layout to the device (log entry 10). -/
def imageLen (s : State) (x : Nat) : Nat :=
  Config.imageSize (x + 64 * ((getCtx s x).cores.map (fun e => e.2.deque.length + e.2.held.length
    + (e.2.run.map (fun r => 1 + r.open_.length)).getD 0)).sum)

/-- CTX_SAVE. -/
def ctxSave (s : State) (x addr len : Nat) : Reply :=
  if 64 ≤ x then malformed s
  else if (getCtx s x).st ≠ .stopped ∨ !(cellsHeld s x).isEmpty ∨ collecting s x then denied s
  else if len = 0 then (s, some ⟨stOk, [BitVec.ofNat 64 (imageLen s x)], []⟩)
  else if len < imageLen s x then malformed s
  else if (firstBad s none addr (imageLen s x)).isSome then (s, plainAnswer stBound)
  else
    let (bs, s) := drawBytes s (imageLen s x)
    okay (writeBytes { s with saved := s.saved ++ [imageOf s x bs] } addr bs)

/-- A saved context is put back: its tasks and the state of its objects (R260, R453). It is STOPPED, as it was saved. -/
def putBack (s : State) (x : Nat) (v : Saved) : State :=
  let s := setCtx s x { getCtx s x with st := .stopped, fromLoaded := v.fromLoaded, cores := v.cores, sent := v.sent, launched := true }
  let s := v.flags.foldl (fun s e => setFlag s e.1 e.2) s
  let s := v.bars.foldl (fun s e => setBar s e.1 e.2) s
  v.rings.foldl (fun s e =>
    let r := getRing s e.1
    if r.valid && r.ctx == x then
      setRing s e.1 { r with st := e.2.st, prior := e.2.prior, epoch := e.2.epoch, wptr := e.2.wptr, rptr := e.2.rptr
                             opened := e.2.opened, msgs := e.2.msgs, nextMsg := e.2.nextMsg, closed := e.2.closed
                             dispatched := e.2.dispatched, active := e.2.active }
    else s) s

/-- CTX_RESTORE. -/
def ctxRestore (s : State) (x addr len : Nat) : Reply :=
  if 64 ≤ x then malformed s
  else if (getCtx s x).st ≠ .loaded then denied s
  else if (firstBad s none addr len).isSome then (s, plainAnswer stBound)
  else if poisoned s addr len then (s, plainAnswer stPoisoned)
  else match s.saved.find? (fun v => decide (v.bytes.length ≤ len) && v.bytes == readBytes s addr v.bytes.length) with
    | some v =>
      if v.manifest == sha384 (getCtx s x).image && v.firmware == digestBytes s Reg.FW_DIGEST then okay (putBack s x v)
      else denied s
    | none => denied s

/-- CTX_HANDLES: the two words of each entry. -/
def ctxHandles (s : State) (x first count : Nat) : Reply :=
  if 64 ≤ x ∨ count = 0 ∨ 128 < count ∨ 16384 < first + count then malformed s
  else if (getCtx s x).st = .free then denied s
  else (s, some ⟨stOk, (List.range count).flatMap (fun i => let e := handleOf s x 0 (first + i); [e.w0, e.w1]), []⟩)

/-! ### Restoring a checkpoint slot (R424, R431, R517) -/

/-- Whether a slot is valid at this device for a partition and a rank (R517). -/
def slotValid (s : State) (p rank a size : Nat) : Bool :=
  slotIntact s a size && slotFld s a 32 2 % 16384 == rank && slotFld s a 34 2 % 8 == p
    && readBytes s (a + 40) 48 == digestBytes s Reg.FW_DIGEST && readBytes s (a + 88) 48 == digestBytes s Reg.CFG_DIGEST
    && slotFld s a 136 8 == (rd s Reg.PLC_SEED).toNat

/-- Memory that a restore does not define: the regions of the partition's handles but CODE (R431 step 2). -/
def undefineHandles (s : State) (x : Nat) : State :=
  ((manOf s x).map (fun m => m.handles.filter (fun h => !h.code))).getD [] |>.foldl (fun s h =>
    let (bs, s) := drawBytes s h.size
    writeBytes s (handleOf s x 0 h.h).base bs) s

/-- The sections of a slot go back to their handles, poison and all: state handles into bank 0 (R155, R431 step 2). -/
def putSections (s : State) (a : Nat) : State :=
  (slotTable s a).foldl (fun s e =>
    if e.kind = 4 ∨ e.kind = 5 ∨ e.kind = 6 then
      let b := (handleOf s e.ctx 0 e.handle).base
      carryPoison s (writeBytes s b (readBytes s (a + e.offset) e.len)) (a + e.offset) b e.len
    else s) s

/-- Step 2 of R431 from the slot at `a`: memory, bank, loss scale, STEP, CURSOR and ATTEMPT. -/
def restoreSlot (s : State) (p a : Nat) : State :=
  let step := slotFld s a 8 8
  let cur := slotFld s a 16 8
  let scale := slotFld s a 24 4
  let skips := slotFld s a 28 4
  let s := putSections ((ctxsOf s p).foldl undefineHandles s) a
  let s := setFld s (Reg.OPT_PART p) Fld.OPT_PART_BANK 0
  let s := setFld s (Reg.BRD_LS p) Fld.BRD_LS_SCALE_EXP (scale % 256)
  let s := setFld (setFld s (Reg.BRD_LSSTAT p) Fld.BRD_LSSTAT_CLEAN (scale / 256)) (Reg.BRD_LSSTAT p) Fld.BRD_LSSTAT_SKIPS skips
  let s := setFld (setFld s (Reg.BRD_STEP p) Fld.BRD_STEP_STEP step) (Reg.BRD_STEP p) Fld.BRD_STEP_ATTEMPT 0
  let s := setFld s (Reg.BRD_CURSOR p) Fld.BRD_CURSOR_CURSOR cur
  setTrain s p { getTrain s p with cursor := cur, winSteps := 0, nf := false, orWait := false, fwdHold := false, halt := false, xch := none
                                   gstaged := [], gather := false, wagSince := none }

/-! ### Launch (R453, R517) -/

/-- A context's launch tasks are spawned, and it is RUNNABLE. -/
def launchTasks (s : State) (x : Nat) (args : List Word) : State :=
  let s := setCtx s x { getCtx s x with st := .runnable, launchArgs := args, launched := true }
  (((manOf s x).map (·.launch)).getD []).foldl (fun s e =>
    let h := homeOf s x e.2
    spawnTask s x true ⟨e.1, args, e.2, h.1, h.2, .plain, .none⟩) s

/-- The rollback report: STEP, CURSOR and ATTEMPT to the host (R431, R458). -/
def reportRewind (s : State) (p : Nat) : State :=
  pushEvent s (.rewind p (getTrain s p).cursor (fld s (Reg.BRD_STEP p) Fld.BRD_STEP_STEP) (fld s (Reg.BRD_STEP p) Fld.BRD_STEP_ATTEMPT))

/-- The parameter gather of a restore, unless it waits for READY (R518). -/
def resumeGather (s : State) (p : Nat) : State :=
  match Sparse.get none s.resume p with
  | some r => if rebuilding s then { s with resume := Sparse.set none s.resume p (some { r with waits := true }) }
      else startGather { s with resume := Sparse.set none s.resume p (some { r with waits := false }) } p
  | none => s

/-- The valid own slot of the higher GEN, if any (R517). -/
def resumeFrom (s : State) (p rank : Nat) : Option Nat :=
  let a := Reg.CKP_AREA p
  let n := fld s a Fld.CKP_AREA_AREA_COUNT
  let at_ (k : Nat) : Nat := slotAt (fld s a Fld.CKP_AREA_AREA_FIRST) n k
  let ok (k : Nat) : Bool := slotValid s p rank (at_ k) (n * 2 ^ 31)
  match ok 0, ok 1 with
  | true, true => some (if slotFld s (at_ 0) 0 8 < slotFld s (at_ 1) 0 8 then at_ 1 else at_ 0)
  | true, false => some (at_ 0)
  | false, true => some (at_ 1)
  | false, false => none

/-- WARD_DONE after a resume from generation `gen`: the GEN of a valid ward slot of that generation, or 0 (R517). -/
def wardGen (s : State) (p gen : Nat) : Nat :=
  let a := Reg.CKP_AREA p
  let n := fld s a Fld.CKP_AREA_WARD_COUNT
  let w := slotAt (fld s a Fld.CKP_AREA_WARD_FIRST) n (gen % 2)
  if n ≠ 0 ∧ slotFld s w 0 8 = gen ∧ slotIntact s w (n * 2 ^ 31) ∧ slotFld s w 32 2 % 16384 = fld s a Fld.CKP_AREA_WARD
      ∧ readBytes s (w + 40) 48 = digestBytes s Reg.FW_DIGEST ∧ readBytes s (w + 88) 48 = digestBytes s Reg.CFG_DIGEST
      ∧ slotFld s w 136 8 = (rd s Reg.PLC_SEED).toNat then gen
  else 0

/-- A partition starts at STEP 0 and cursor 0 (R517). -/
def freshStart (s : State) (p : Nat) : State :=
  let s := setFld (setFld s (Reg.BRD_STEP p) Fld.BRD_STEP_STEP 0) (Reg.BRD_STEP p) Fld.BRD_STEP_ATTEMPT 0
  let s := setFld s (Reg.BRD_CURSOR p) Fld.BRD_CURSOR_CURSOR 0
  setTrain s p { getTrain s p with cursor := 0 }

/-- The partition resumes from a slot: it is restored, the generation counted as done, and its launch waits for the gather. -/
def resumePart (s : State) (p x sess tag slot : Nat) (args : List Word) : State :=
  let gen := slotFld s slot 0 8
  let w := wardGen s p gen
  let s := restoreSlot s p slot
  let s := setFld (setDone s p gen (slotFld s slot 8 8) (slotFld s slot 16 8)) (Reg.CKP_STAT p) Fld.CKP_STAT_WARD_DONE w
  let s := setCkpt s p { Ckpt.none with gen := gen, step := fld s (Reg.BRD_STEP p) Fld.BRD_STEP_STEP, beat := beat s, own := gen, acked := gen }
  let s := reportRewind s p
  resumeGather { s with resume := Sparse.set none s.resume p (some ⟨[(x, args)], false, some (sess, tag), false⟩) } p

/-- CTX_LAUNCH. -/
def ctxLaunch (s : State) (sess tag x : Nat) (args : List Word) : Reply :=
  if 64 ≤ x ∨ args.length ≠ 8 then malformed s
  else if (getCtx s x).st ≠ .loaded then denied s
  else
    let p := (getCtx s x).part
    match Sparse.get none s.resume p with
    | some r => okay { s with resume := Sparse.set none s.resume p (some { r with launches := r.launches ++ [(x, args)] }) }
    | none =>
      let first := training s p && (ctxsOf s p).all (fun y => !(getCtx s y).launched)
      if first && fld s (Reg.CKP_AREA p) Fld.CKP_AREA_AREA_COUNT != 0 then
        match resumeFrom s p (ownRank s x) with
        | some slot => (resumePart s p x sess tag slot args, none)
        | none => okay (launchTasks (freshStart s p) x args)
      else okay (launchTasks (if first then freshStart s p else s) x args)

end Sys2Proof.Machine
end

