-- ==== Sys2Proof/Machine/Sessions.lean ====
section
/-! DEFINITION. Yalerern sessions: the frames that leave the host port, replies, EVENT and TOKENS messages, acknowledgements and the
loss of a session (R444 to R448, R456, R458). -/

namespace Sys2Proof.Machine

def getSess (s : State) (n : Nat) : Option Sess := Sparse.get none s.sessions n
def setSess (s : State) (n : Nat) (v : Option Sess) : State := { s with sessions := Sparse.set none s.sessions n v }

/-- The number that SESSION holds where there is none (R445). -/
def noSession : Nat := 0xFFFF

/-- The sessions open, ascending. -/
def openSessions (s : State) : List Nat := (s.sessions.filter (fun e => e.2.isSome)).map (·.1)

/-- The payload bytes of one message to an address (R446). -/
def maxLen (s : State) (addr : Nat) : Nat :=
  let m := fld s Reg.ETH_CTL Fld.ETH_CTL_MTU
  let mtu := if 1280 ≤ m ∧ m ≤ 9194 then m else 1500
  let ip := if addr / 2 ^ 32 = 0xFFFF then 20 else 40
  min 8192 ((mtu - ip - 40) / 64 * 64)

/-- The payload bytes of a message. -/
def TxBody.size : TxBody → Nat
  | .reply _ _ _ ws bs => 8 * ws.length + bs.length
  | .events es => 64 * es.length
  | .tokens rows => 16 * rows.length
  | .hello _ ws cert => 8 * ws.length + cert.length
  | .ack => 0

/-- The messages that a payload takes, on the way to an address (R446). -/
def partsTo (s : State) (addr : Nat) (b : TxBody) : Nat := max 1 (ceilDiv b.size (maxLen s addr))
def partsOf (s : State) (v : Sess) (b : TxBody) : Nat := partsTo s v.addr b

/-! ### Headers (R445, R446, R450) -/

/-- OP and TAG, where the spec gives them. -/
def TxBody.op? : TxBody → Option Nat
  | .reply op .. => some op
  | .events _ => some 0x61
  | .tokens _ => some 0x82
  | .hello .. => some 1
  | .ack => none
def TxBody.tag? : TxBody → Option Nat
  | .reply _ tag .. => some tag
  | .hello tag .. => tag
  | .events _ | .tokens _ | .ack => none

/-- FLAGS and STATUS of a message that no further part follows: a message of the device's own accord is a request. -/
def TxBody.flags : TxBody → Nat
  | .reply .. => 0
  | .events _ | .tokens _ => 1
  | .hello tag .. => bnat tag.isNone
  | .ack => 2
def TxBody.status : TxBody → Nat
  | .reply _ _ st .. => st
  | .events _ | .tokens _ | .hello .. | .ack => 0

/-- The headers of a message's parts: to an address, in a session or none, with the SEQ of its last part, 0 for none, and the ACK. -/
def headsOf (s : State) (n addr : Nat) (b : TxBody) (last ack : Nat) : List YlpHead :=
  let open_ (k m : Nat) : Nat := Config.ylpField k s.out.length % m
  let k := partsTo s addr b
  (List.range k).map (fun i =>
    { flags := b.flags + 4 * bnat (decide (i + 1 < k)), op := b.op?.getD (open_ 2 (2 ^ 16)), session := n, status := b.status
      seq := if last = 0 then 0 else last + 1 + i - k, ack := ack, tag := b.tag?.getD (open_ 1 (2 ^ 32)), credit := open_ 0 1025
      len := min (maxLen s addr) (b.size - i * maxLen s addr) })

/-- A message goes out, if its frames do. -/
def sendOut (s : State) (n addr : Nat) (b : TxBody) (last ack : Nat) : State :=
  let (t, left) := frameOut (partsTo s addr b) s
  if left then emit t (.message (headsOf s n addr b last ack) b) else t

/-- A message of a session goes out, or out again. -/
def transmit (s : State) (n : Nat) (v : Sess) (m : TxMsg) : State := sendOut s n v.addr m.body m.seq v.rx

/-- An acknowledgement without a request or a reply (R448). -/
def sendAck (s : State) (n : Nat) (v : Sess) : State := sendOut s n v.addr .ack 0 v.rx

/-! ### Messages that are kept (R448) -/

/-- The first retransmission interval. -/
def firstRto (s : State) : Nat := max 1 (fld s Reg.YLP_CTL Fld.YLP_CTL_RTO)

/-- A message is kept until the host acknowledges it, and goes out now if the host's CREDIT lets it. Its SEQ is that of its last
part. -/
def sendMsg (s : State) (n : Nat) (b : TxBody) : State :=
  match getSess s n with
  | none => s
  | some v =>
    let parts := partsOf s v b
    let seq := v.tx + parts
    let ok := decide (seq ≤ v.ack + v.credit)
    let m : TxMsg := ⟨seq, ok, beat s, 0, firstRto s, b⟩
    let s := setSess s n (some { v with tx := seq, unacked := v.unacked ++ [m] })
    if ok then transmit s n v m else s

/-- The answer to a request: within a session, a message kept for it; outside, it leaves at once. Answers to a lost session are
discarded. -/
def answer (s : State) (sess op tag : Nat) (a : Answer) : State :=
  let b := TxBody.reply op tag a.status a.words a.bytes
  if sess = noSession then sendOut s sess 0 b 0 0 else sendMsg s sess b

/-- A request's outcome, answered now or later. -/
def settle (sess op tag : Nat) (r : Reply) : State :=
  match r.2 with
  | some a => answer r.1 sess op tag a
  | none => r.1

/-! ### The event queue towards its sessions (R458) -/

/-- An entry leaves once nothing is awaited. -/
def purgeEvents (s : State) : State := { s with hostQ := s.hostQ.filter (fun e => !(e.delivered && e.awaits.isEmpty)) }

/-- A session acknowledges the entries that messages up to `seq` carried. -/
def ackEvents (s : State) (n seq : Nat) : State :=
  purgeEvents { s with hostQ := s.hostQ.map (fun e =>
    if e.sent.any (fun v => v.1 == n && decide (v.2 ≤ seq)) then { e with awaits := e.awaits.filter (· != n) } else e) }

/-- A session no longer counts for any entry. -/
def forgetEvents (s : State) (n : Nat) : State :=
  purgeEvents { s with hostQ := s.hostQ.map (fun e =>
    { e with awaits := e.awaits.filter (· != n), sent := e.sent.filter (fun v => v.1 != n) }) }

/-- The sessions subscribed to events. -/
def subscribers (s : State) : List Nat := (openSessions s).filter (fun n => match getSess s n with
  | some v => v.events
  | none => false)

/-- The entries next for a session, at most 64: those it has not been sent. -/
def dueEvents (s : State) (n : Nat) : List QEntry := (s.hostQ.filter (fun e => !e.sent.any (fun v => v.1 == n))).take 64

/-- The first `k` entries that session `n` has not been sent are marked as carried by its message `seq`; an entry delivered for the
first time awaits every session then subscribed. -/
def markSent (subs : List Nat) (n seq : Nat) : Nat → List QEntry → List QEntry
  | 0, q => q
  | _, [] => []
  | k + 1, e :: q =>
    if e.sent.any (fun v => v.1 == n) then e :: markSent subs n seq (k + 1) q
    else { e with delivered := true, awaits := if e.delivered then e.awaits else subs, sent := (n, seq) :: e.sent }
      :: markSent subs n seq k q

/-- An EVENT message to one session. -/
def sendEvents (subs : List Nat) (s : State) (n : Nat) : State :=
  match dueEvents s n, getSess s n with
  | [], _ => s
  | _, none => s
  | es, some v =>
    let b := TxBody.events (es.map (·.ev))
    let seq := v.tx + partsOf s v b
    if v.ack + v.credit < seq then s
    else sendMsg { s with hostQ := markSent subs n seq es.length s.hostQ } n b

/-- EVENT: the queue's entries go to every subscribed session (R458). -/
def execEvent (s : State) : Host.Outcome State Fault Refusal := .next ((subscribers s).foldl (sendEvents (subscribers s)) s)

/-! ### Acknowledgements (R448) -/

/-- Messages that the host's CREDIT now lets go out. -/
def releaseHeld (s : State) (n : Nat) : State :=
  match getSess s n with
  | none => s
  | some v =>
    let go (m : TxMsg) : Bool := !m.sent && decide (m.seq ≤ v.ack + v.credit)
    let out := v.unacked.filter go
    let s := setSess s n (some { v with unacked := v.unacked.map (fun m => if go m then { m with sent := true, at_ := beat s } else m) })
    out.foldl (fun s m => transmit s n v m) s

/-- ACK and CREDIT of a message from the host. -/
def takeAck (s : State) (n ack credit : Nat) : State :=
  match getSess s n with
  | none => s
  | some v =>
    let a := max v.ack (min ack v.tx)
    let s := setSess s n (some { v with ack := a, credit := credit, unacked := v.unacked.filter (fun m => decide (a < m.seq)), heard := beat s })
    releaseHeld (ackEvents s n a) n

/-- A message from the host has come now. -/
def hearFrom (s : State) (n : Nat) : State :=
  match getSess s n with
  | none => s
  | some v => setSess s n (some { v with heard := beat s })

/-! ### The loss of a session (R448, R470) -/

/-- A session ends: it is freed, its subscription and token deliveries end, and answers still to come for it are discarded. -/
def endSession (s : State) (n : Nat) : State :=
  let s := forgetEvents (setSess s n none) n
  { s with
    waitLoads := s.waitLoads.map (fun w => if w.1 = n then (noSession + 1, w.2) else w)
    streams := s.streams.map (fun e => (e.1, e.2.map (fun v => if v.sess = n then { v with sess := noSession } else v)))
    resume := s.resume.map (fun e => (e.1, e.2.map (fun r => { r with reply := r.reply.filter (fun q => q.1 != n) })))
    prp := { s.prp with verifying := s.prp.verifying.map (fun q => q.map (fun q => if q.1 = n then (noSession + 1, q.2) else q)) } }

/-- YLP_SESSION_LOST. -/
def loseSession (s : State) (n cause : Nat) : State :=
  match getSess s n with
  | none => s
  | some v =>
    let s := bump s Reg.YLP_STAT Fld.YLP_STAT_LOST 1
    let waiting := (s.waitLoads.filter (fun w => w.1 == n)).length
      + (s.resume.filter (fun e => match e.2 with
          | some r => (r.reply.map (·.1)) == some n
          | none => false)).length
    endSession (raiseDev s 0x0A03 sevError n cause (v.addr % 2 ^ 64) waiting v.ack) n

/-- YLP_IDLE_TIMEOUT: no message has come for the idle limit (R448). -/
def execYlpIdleTimeout (sess : Nat) (s : State) : Host.Outcome State Fault Refusal :=
  match getSess s sess with
  | some v => if v.heard + max 1 (fld s Reg.YLP_IDLE Fld.YLP_IDLE_BEATS) ≤ beat s then .next (loseSession s sess 2) else .next s
  | none => .next s

/-- YLP_RETRANSMIT_TIMEOUT: one message is sent again, the interval doubled, or the session is lost (R448). -/
def execYlpRetransmitTimeout (sess seq : Nat) (s : State) : Host.Outcome State Fault Refusal :=
  match getSess s sess with
  | none => .next s
  | some v => match v.unacked.find? (fun m => m.seq == seq && m.sent && decide (m.at_ + m.interval ≤ beat s)) with
    | none => .next s
    | some m =>
      if max 1 (fld s Reg.YLP_CTL Fld.YLP_CTL_RETRIES) ≤ m.tries then .next (loseSession s sess 1)
      else
        let m' := { m with at_ := beat s, tries := m.tries + 1, interval := 2 * m.interval }
        let s := bump s Reg.YLP_STAT2 Fld.YLP_STAT2_RETX 1
        let s := setSess s sess (some { v with unacked := v.unacked.map (fun w => if w.seq = seq then m' else w) })
        .next (transmit s sess v m')

end Sys2Proof.Machine
end

