-- ==== Sys2Proof/Machine/Loss.lean ====
section
/-! DEFINITION. The takeover of lost ranks, rollback, the end of a parameter gather, the Keeper's watchdog, and the loads and resumes
that wait for READY (R248, R372, R420, R421, R428 to R432, R514, R518). -/

namespace Sys2Proof.Machine

/-! ### The agreement (R428) -/

/-- β(r) as a manifest of the job gives it (R422). -/
def buddyRank (s : State) (r : Nat) : Option Nat :=
  (jobCtxs s).findSome? (fun x => ((manOf s x).bind (·.ckpt)).bind (fun k => (k.buddyOf.find? (fun e => e.1 == r)).map (·.2)))

/-- The largest value that a device without a say contributes. -/
def noSay : Nat := 2 ^ 64 - 1

/-- What this device contributes to the target: the smaller of DONE and WARD_DONE over the job's partitions; a drone, 2^64 − 1. -/
def targetSay (s : State) : Nat :=
  if waitingDrone s then noSay else ((jobParts s).map (fun p => min (fld s (Reg.CKP_STAT p) Fld.CKP_STAT_DONE) (fld s (Reg.CKP_STAT p) Fld.CKP_STAT_WARD_DONE))).foldl min noSay

/-- What this device contributes to the choice of a drone: its list index while it is an IDLE drone. -/
def droneSay (s : State) : Nat :=
  if flg s Reg.CKP_DRONE Fld.CKP_DRONE_ROLE && droneState s == 0 then fld s Reg.CKP_DRONE Fld.CKP_DRONE_INDEX else noSay

/-- The takeover fails (R428): CKP_FAIL for each of the job's partitions here, and the contexts stay STOPPED. -/
def failTakeover (s : State) (cause rank : Nat) : State :=
  let t := getTakeover s
  let ps := selectBelow 8 (fun p => (jobCtxs s).any (fun x => (getCtx s x).part = p))
  let s := ps.foldl (fun s p =>
    setPhase (raisePart s p 0x1001 sevFatal p cause (t.kstar.getD 0) rank (fld s (Reg.BRD_STEP p) Fld.BRD_STEP_STEP)) p 0) s
  { s with takeover := some { t with agreeing := false, agreed := [], chosen := [], kstar := none } }

/-- The lost ranks for which no drone is chosen yet, ascending. -/
def unchosen (t : Takeover) : List Nat := t.agreed.filter (fun r => !t.chosen.any (fun c => c.1 == r))

/-- Step 1 returns a rank, or 2^14 when none is left. -/
def lostResult (s : State) (t : Takeover) (r : Nat) : State :=
  if 16384 ≤ r then emit { s with takeover := some t } (.agreement .target (targetSay s))
  else
    let t := { t with agreed := t.agreed ++ [r], known := if t.known.contains r then t.known else t.known ++ [r] }
    emit { s with takeover := some t } (.agreement .lostRank (nextLost t))

/-- Step 2 returns K*; the takeover fails if it is 0 or a lost rank's buddy is lost too. -/
def targetResult (s : State) (t : Takeover) (k : Nat) : State :=
  let t := { t with kstar := some k }
  let s := { s with takeover := some t }
  if k = 0 then failTakeover s 4 (t.agreed.headD 0)
  else match t.agreed.find? (fun r => match buddyRank s r with
      | some b => t.agreed.contains b
      | none => false) with
    | some r => failTakeover s 2 r
    | none => emit s (.agreement .drone (droneSay s))

/-- Step 3 returns the drone for the next lost rank. Where none is left, every drone failed (cause 5) if some did and none of those
chosen stands (R428, R439). -/
def droneResult (s : State) (t : Takeover) (i : Nat) : State :=
  match unchosen t with
  | [] => s
  | r :: more =>
    if noSay ≤ i then failTakeover { s with takeover := some t } (if t.failed.isEmpty || !t.chosen.isEmpty then 3 else 5) r
    else
      let s := if droneSay s = i then setDroneState s 1 else s
      let s := { s with takeover := some { t with chosen := t.chosen ++ [(r, i)] } }
      if more.isEmpty then s else emit s (.agreement .drone (droneSay s))

/-- TAKEOVER_AGREEMENT_RESULT (R428): one of the reductions that WGL_STAT counts (R324). -/
def execTakeoverAgreementResult (x : Nat) (step : TakeoverStep) (result : Nat) (s : State) : Host.Outcome State Fault Refusal :=
  match s.takeover with
  | none => .next s
  | some t =>
    if !t.agreeing || !(jobCtxs s).contains x || t.kstar.isSome != (step == .drone) then .next s
    else
      let s := bump s Reg.WGL_STAT Fld.WGL_STAT_REDUCTIONS 1
      .next (match step with
        | .lostRank => lostResult s t result
        | .target => targetResult s t result
        | .drone => droneResult s t result)

/-! ### The drone (R429) -/

/-- A configuration set cut into the objects that it holds: the base, then its overlays in their order (R54, R424). -/
def splitSet : Nat → Nat → List Byte → List (Nat × List Byte)
  | 0, _, _ => []
  | n + 1, i, bs =>
    if bs.length < 16 then []
    else
      let len := 16 + 24 * objCount bs
      (i, bs.take len) :: splitSet n (i + 1) (bs.drop len)

/-- The sections of one kind in a slot held in memory, with their bytes. -/
def slotSections (s : State) (a kind : Nat) : List (SlotEntry × List Byte) :=
  ((slotTable s a).filter (fun e => e.kind == kind)).map (fun e => (e, readBytes s (a + e.offset) e.len))

/-- Step 3 is run again without a drone that has failed (R429, R432). -/
def withoutDrone (s : State) (i : Nat) : State :=
  let s := rechoose { s with takeover := some { getTakeover s with failed := (getTakeover s).failed ++ [i] } }
  emit s (.agreement .drone (droneSay s))

/-- The drone could not take the rank: it is FAILED (R429). -/
def droneFails (s : State) (p : Nat) : State :=
  withoutDrone (setPhase (setDroneState s 3) p 0) (fld s Reg.CKP_DRONE Fld.CKP_DRONE_INDEX)

/-- One context of a slot is loaded from its manifest (R429 step 3). -/
def loadFromSlot (a p : Nat) (acc : Option State × State) (e : Nat × Manifest) : Option State × State :=
  match acc.1 with
  | none => acc
  | some s =>
    let bs := ((slotSections s a 2).find? (fun v => v.1.ctx == e.1)).map (·.2) |>.getD []
    match judgeLoad s e.1 p bs.length e.2 with
    | .error r => (none, raise acc.2 { plainRec 0x1202 sevError e.1 r.d0 r.d1 r.d2 p with part := some p, ctx := some e.1 })
    | .ok v => (some (installCtx s e.1 p bs e.2 v), acc.2)

/-- The contexts of its own that a drone has for the job: the one with which it waits, and those it loaded for an earlier choice. -/
def droneCtxs (s : State) : List Nat :=
  (jobCtxs s).filter (fun x => (droneIndex s x).isSome || (getTakeover s).ctxs.contains x)

/-- A drone's own contexts of the job make room: they are no longer resident. -/
def leaveDrone (s : State) : State :=
  lockSync ((droneCtxs s).foldl (fun s x => setCtx (dropUnits (freeGroups (closeRings s x) x) x) x Ctx.free) s)

/-- The drone's Keeper (R429): the slot into its own area, its checks, configuration, seed, contexts and CODE; none where a check or a
load fails, or another context is resident (R57), with the state that has recorded why. -/
def droneLoad (s : State) (rank : Nat) (slot : List Byte) (mans : List (Nat × Manifest)) : Option State × State :=
  let k := ((getTakeover s).kstar.getD 0)
  let p := leField slot 34 2 % 8
  let count := fld s (Reg.CKP_AREA p) Fld.CKP_AREA_AREA_COUNT
  let a := slotAt (fld s (Reg.CKP_AREA p) Fld.CKP_AREA_AREA_FIRST) count (k % 2)
  let s := setPhase s p 5
  match firstOut s none [(a, slot.length)] with
  | some b => (none, refusePartAccess s p b)
  | none =>
    let s := storeBytes s a slot
    if !slotIntact s a slot.length || slotFld s a 0 8 != k || slotFld s a 32 2 % 16384 != rank then (none, raiseCkp s p 1 k rank)
    else if readBytes s (a + 40) 48 ≠ digestBytes s Reg.FW_DIGEST then (none, s)
    else
      let set_ := ((slotSections s a 1).head?.map (·.2)).getD []
      let seed := slotFld s a 136 8
      let gone := leaveDrone s
      if !(residents gone).isEmpty then (none, s)
      else match validateCfg gone (splitSet 9 0 set_) with
      | (r, false) => (none, wr s Reg.BOOT_STATUS (rd r Reg.BOOT_STATUS))
      | (t, true) =>
        match mans.foldl (loadFromSlot a p) (some (wr t Reg.PLC_SEED (BitVec.ofNat 64 seed)), s) with
        | (none, r) => (none, r)
        | (some t, _) =>
          (some ((slotSections t a 3).foldl (fun t e => storeBytes t (handleOf t e.1.ctx 0 e.1.handle).base e.2) t), s)

/-- The drone is ACTIVE (R429). -/
def droneActive (s : State) (d : DroneTake) (k : Nat) : State :=
  let s := setFld (setDroneState s 2) Reg.CKP_DRONE Fld.CKP_DRONE_TOOK d.rank
  let s := setFld (setFld s Reg.CKP_DRONE Fld.CKP_DRONE_ROLE 1) Reg.CKP_DRONE Fld.CKP_DRONE_INDEX d.index
  let s := bump s Reg.CKP_COUNT Fld.CKP_COUNT_TAKEOVERS 1
  raiseDev s 0x1002 sevCorrected d.rank d.index k d.step (d.oldAddr % 16384 + 2 ^ 16 * (d.newAddr % 16384))

/-- Every chosen drone has loaded: the rank table names them, every group of the job takes a new generation, and a drone is ACTIVE
(R294, R429). -/
def ranksTaken (s : State) : State :=
  let t := getTakeover s
  let s := { s with takeover := some { t with agreeing := false, agreed := [], chosen := [], loaded := [], mine := none } }
  let s := t.loaded.foldl (fun s e => moveRank s e.1 (some (e.2 % 16384))) s
  let s := (jobParts s).foldl newGeneration s
  match t.mine with
  | some d => droneActive s d (t.kstar.getD 0)
  | none => s

/-- The drone of a rank has loaded; the last of them settles the rank table. -/
def rankLoaded (s : State) (rank newAddr : Nat) : State :=
  let t := getTakeover s
  let t := { t with loaded := t.loaded.filter (fun e => e.1 != rank) ++ [(rank, newAddr)] }
  let s := { s with takeover := some t }
  if t.agreed.all (fun r => t.loaded.any (fun e => e.1 == r)) then ranksTaken s else s

/-- What this device loaded as a drone is its own, and its contexts have the arguments of their original host launch, where they were
launched (R431 step 4). -/
def keepLoad (s : State) (d : DroneTake) (args : List (Nat × List Word)) : State :=
  let xs := jobTraining s
  let s := args.foldl (fun s e => if xs.contains e.1 then
    setCtx s e.1 { getCtx s e.1 with launchArgs := e.2, launched := true } else s) s
  { s with takeover := some { getTakeover s with mine := some d, ctxs := xs } }

/-- Whether a rank that this device holds is given to another address (R430). -/
def outcast (s : State) (rank newAddr : Nat) : Bool := (ownRanks s).contains rank && some (newAddr % 16384) != ownAddr s

/-- A device that finds a rank table without it stops the job's training contexts (R430). -/
def leaveJob (s : State) (rank newAddr : Nat) : State :=
  (jobTraining s).foldl stopCtx (moveRank s rank (some (newAddr % 16384)))

/-- CKP_DRONE_TAKEOVER: the drone chosen for a lost rank loads it, or is told elsewhere to have loaded or to have failed (R429, R430,
R432). A Keeper held in reset loads nothing (R421). -/
def execCkpDroneTakeover (x rank oldAddr newAddr : Nat) (slot : List Byte) (read : DroneRead) (s : State) :
    Host.Outcome State Fault Refusal :=
  let ⟨mans, args, failed⟩ := read
  if !failed && outcast s rank newAddr then .next (leaveJob s rank newAddr)
  else
    let t := getTakeover s
    match t.chosen.find? (fun c => c.1 == rank) with
    | none => .next s
    | some (_, i) =>
      if !t.agreeing || !(jobCtxs s).contains x then .next s
      else if flg s Reg.CKP_DRONE Fld.CKP_DRONE_ROLE && fld s Reg.CKP_DRONE Fld.CKP_DRONE_INDEX == i && droneState s == 1 then
        if s.keeper.held || t.mine.isSome then .next s
        else match droneLoad s rank slot mans with
          | (some s', _) => .next (rankLoaded (keepLoad s' ⟨rank, i, leField slot 8 8, oldAddr, newAddr⟩ args) rank newAddr)
          | (none, s') => .next (droneFails s' (leField slot 34 2 % 8))
      else .next (if failed then withoutDrone s i else rankLoaded s rank newAddr)

/-! ### Rollback (R431) -/

/-- A ring reset under R280 with every handler task gone. -/
def rollbackRing (s : State) (num : Nat) : State :=
  let r := getRing s num
  let s := if r.st = 3 then setRing s num { r with st := r.prior } else s
  let s := beginReset s num none
  setRing s num { getRing s num with wptr := 0, rptr := 0, dispatched := 0, st := (getRing s num).prior, active := [], resetBy := none, ops := [] }

/-- Every task of a context goes, its handler tasks with their chunks, and its flags, barriers and rings return to their load state
(R431 step 1). -/
def clearCtx (s : State) (x : Nat) : State :=
  let s := dropHandlers (setCtx s x { getCtx s x with cores := [] }) (getCtx s x).part
  let s := loadFlags s (((manOf s x).map (·.flags)).getD [])
  (ringsOfSlot s x).foldl (fun s e => rollbackRing s e.1) s

/-- Copies that a drone among the buddy and the ward needs (R431): BUSY until each is acknowledged. -/
def recopy (s : State) (p : Nat) (lost : List Nat) : State :=
  let k := { getCkpt s p with
    bgBuddy := lost.contains (buddyOf s p)
    bgWard := fld s (Reg.CKP_AREA p) Fld.CKP_AREA_WARD_COUNT != 0 && lost.contains (wardOf s p) }
  if k.bgBuddy || k.bgWard then sendCopy (setCkpt s p k) p else s

/-- Whether a rollback launches a context again: it had been launched, and is not FAULTED, a state that only the host ends (R419,
R431). -/
def relaunches (s : State) (x : Nat) : Bool := (getCtx s x).launched && (getCtx s x).st != .faulted

/-- The state of a partition's checkpoints after a rollback to generation `k`: complete, and its ward's too unless this device has
just taken the rank and keeps no copy yet (R431, R440). -/
def rolledBack (s : State) (p k : Nat) (lost : List Nat) : State :=
  let a := ownSlot s p k
  let s := setDone s p k (slotFld s a 8 8) (slotFld s a 16 8)
  let s := setFld s (Reg.CKP_STAT p) Fld.CKP_STAT_WARD_DONE (if lost.contains (partRank s p) then 0 else k)
  setCkpt s p { Ckpt.none with gen := k, step := fld s (Reg.BRD_STEP p) Fld.BRD_STEP_STEP, beat := beat s, own := k, acked := k }

/-- ROLLBACK_RESTORE of one partition, once the takeover is agreed and every drone has loaded (R431). -/
def execRollbackRestore (p : Nat) (s : State) : Host.Outcome State Fault Refusal :=
  let t := getTakeover s
  match t.kstar with
  | none => .next s
  | some k =>
    if t.agreeing || !t.agreed.isEmpty || !(jobParts s).contains p || t.restored.contains p || s.keeper.held then .next s
    else
      let xs := (jobTraining s).filter (fun x => (getCtx s x).part == p)
      let launches := (xs.filter (relaunches s)).map (fun x => (x, (getCtx s x).launchArgs))
      let s := xs.foldl clearCtx (discardStage s p)
      let s := setPhase (restoreSlot s p (ownSlot s p k)) p 4
      let s := recopy (rolledBack s p k t.known) p t.known
      .next (resumeGather { s with resume := Sparse.set none s.resume p (some ⟨launches, true, none, false⟩) } p)

/-! ### The end of the gather (R248, R431, R517) -/

/-- A partition that resumed launches its contexts; a rollback is counted and reported, and the takeover ends with the last. -/
def finishResume (s : State) (p : Nat) : State :=
  match Sparse.get none s.resume p with
  | none => s
  | some r =>
    let s := { s with resume := Sparse.set none s.resume p none }
    let s := r.launches.foldl (fun s e => if r.rollback && !relaunches s e.1 then s else launchTasks s e.1 e.2) (setPhase s p 0)
    let s := match r.reply with
      | some (n, tag) => answer s n 0x41 tag ⟨stOk, [], []⟩
      | none => s
    if r.rollback then
      let s := reportRewind (bump s Reg.CKP_COUNT Fld.CKP_COUNT_ROLLBACKS 1) p
      let t := { getTakeover s with restored := (getTakeover s).restored ++ [p] }
      { s with takeover := if (jobParts s).all (fun q => t.restored.contains q) then none else some t }
    else s

/-- A partition that registers no reduction has nothing to gather: its resume ends at once. -/
def finishIdle (s : State) (p : Nat) : State :=
  match Sparse.get none s.resume p with
  | some r => if !r.waits && ((redSlot s p).isNone || (reduceOf s p).isNone) then finishResume s p else s
  | none => s

/-- PARAMETER_GATHER_COMPLETE (R248). -/
def execParameterGatherComplete (p : Nat) (s : State) : Host.Outcome State Fault Refusal :=
  match gatherDone s p with
  | some s => .next (finishResume s p)
  | none => .next (finishIdle s p)

/-! ### READY (R372, R514, R518) -/

/-- The loads that waited for READY are executed in their order (R514). -/
def runLoads (s : State) : State :=
  s.waitLoads.foldl (fun s w =>
    settle w.1 0x40 w.2.1 (ctxLoad s w.1 w.2.1 w.2.2.1 w.2.2.2.1 w.2.2.2.2.1 none w.2.2.2.2.2)) { s with waitLoads := [] }

/-- The gathers that waited for READY begin (R518). -/
def runGathers (s : State) : State :=
  (List.range 8).foldl (fun s p => match Sparse.get none s.resume p with
    | some r => if r.waits then finishIdle (resumeGather s p) p else s
    | none => s) s

/-- SWARM_ROUTES_DONE (R372). -/
def execSwarmRoutesDone (s : State) : Host.Outcome State Fault Refusal :=
  if swarmPhase s = 5 then .next (runGathers (runLoads (routesDone s))) else .next s

/-! ### The Keeper's watchdog (R420, R421) -/

/-- KPR_WATCHDOG: the KCLK domain restarts at a first expiry; a second within 1,000,000 beats holds the Keeper in reset. -/
def execKprWatchdog (pc activity : Nat) (s : State) : Host.Outcome State Fault Refusal :=
  if s.keeper.held then .next s
  else
    let s := bump s Reg.KPR_WDOG Fld.KPR_WDOG_EXPIRIES 1
    let again := match s.keeper.expired with
      | some b => decide (beat s ≤ b + 1000000)
      | none => false
    if again then
      .next (raiseDev { s with keeper := { s.keeper with held := true, restart := none } } 0x1501 sevFatal 0
        (fld s Reg.KPR_WDOG Fld.KPR_WDOG_EXPIRIES) pc activity (beat s))
    else .next { s with keeper := ⟨some (beat s), some (pc, activity, beat s), false⟩ }

/-- The takeover or rollback in progress ends with CKP_FAIL, cause 6; the job's training contexts stay STOPPED (R420). -/
def abandonTakeover (s : State) : State :=
  let busy := match s.takeover with
    | some t => t.agreeing || t.kstar.isSome
    | none => false
  if busy then
    let s := failTakeover s 6 ((getTakeover s).known.headD 0)
    { s with resume := s.resume.filter (fun e => match e.2 with
        | some r => !r.rollback
        | none => false) }
  else s

/-- KEEPER_RESTART_DONE: the expiry is logged, and the work in progress is resolved (R420). -/
def execKeeperRestartDone (s : State) : Host.Outcome State Fault Refusal :=
  match s.keeper.restart with
  | none => .next s
  | some (pc, act, b) =>
    let s := { s with keeper := { s.keeper with restart := none } }
    let s := setFld s Reg.BOOT_CAUSE Fld.BOOT_CAUSE_KEEPER_RESTART 1
    let s := raiseDev s 0x1501 sevCorrected 0 (fld s Reg.KPR_WDOG Fld.KPR_WDOG_EXPIRIES) pc act b
    let ph := swarmPhase s
    let s := if ph ≠ 0 ∧ ph ≠ 6 then setSwarmPhase s 2 else s
    let s := { s with models := s.models.map (fun e => (e.1, e.2.map (fun m => if m.st = 1 then { m with st := 0 } else m))) }
    .next (abandonTakeover s)

end Sys2Proof.Machine
end

