-- ==== Sys2Proof/WellFormed.lean ====
section
/-! DEFINITION. Well-formed terms: the ranges of the numbers a command names, and the Cynal words that an encoding exists for
(R43 and the encoding tables: an operand the operation does not use is zero). -/

namespace Sys2Proof

/-! ### Commands -/

/-- A context slot (R25). -/
def okCtx (x : Nat) : Bool := decide (x < 64)
/-- A logical core of a partition (R124, R500). -/
def okCore (l : Nat) : Bool := decide (l < 72)
/-- A partition (R17). -/
def okPart (p : Nat) : Bool := decide (p < 8)
/-- A fabric port (R353). -/
def okPort (k : Nat) : Bool := decide (k < 16)
/-- A brood cell (R201). -/
def okCell (c : Nat) : Bool := decide (c < 256)
/-- A virtual stage (R197). -/
def okVstage (j : Nat) : Bool := decide (j < 4)
/-- A die (R4). -/
def okDie (d : Nat) : Bool := decide (d < 4)
/-- A clock domain (R511). -/
def okDomain (d : Nat) : Bool := decide (d < 25)
/-- A ring number (R271). -/
def okRing (n : Nat) : Bool := decide (n < 32768)
/-- An entry of the tree table (R323). -/
def okTree (n : Nat) : Bool := decide (n < 1024)
/-- A 16-bit name: of a flag or barrier (R257), or of a FIFO (R506). -/
def okName (n : Nat) : Bool := decide (n < 65536)
/-- A job rank (R262). -/
def okRank (r : Nat) : Bool := decide (r < 16384)
/-- A model id (R403). -/
def okModel (m : Nat) : Bool := decide (m < 256)
/-- A stream entry (R406). -/
def okEntry (e : Nat) : Bool := decide (e < 65536)
/-- A byte address of a register of the control window (R494). -/
def okRegAddr (a : Nat) : Bool := decide (a % 8 = 0)
/-- A session: open sessions are numbered below 256 (R446). -/
def okSess (n : Nat) : Bool := decide (n < 256)
/-- Entries that fit one REG_WR (R451): at least one. -/
def okEntries (l : List RegEntry) : Bool := !l.isEmpty

/-- A command whose numbers lie in the ranges that the device has for them. -/
def Instr.wf : Instr → Bool
  | .instructionFetch x l _ | .kEnd x l | .taskEndComplete x l | .kSpawn x l | .kBr x l | .kAlu x l | .kAlui x l | .kMovi x l
  | .kCmp x l | .kLd x l _ | .kSt x l | .kId x l | .kTd x l | .kTcpy x l | .kTrd x l | .kCtxEvent x l | .kCtxStop x l
  | .kNop x l | .bRd x l | .bAt x l | .engineQueueStart x l _ | .waitTimeout x l _ | .heldSpawnRelease x l
  | .foragerSteal x l => okCtx x && okCore l
  | .tokenPost x l _ | .aLdw x l _ _ | .aSwp x l _ | .aMul x l _ _ | .aMult x l _ _ | .aDrn x l _ | .vAdd x l _ _
  | .vSub x l _ _ | .vMul x l _ _ | .vDiv x l _ _ | .vFma x l _ _ | .vMax x l _ _ | .vMin x l _ _ | .vAdds x l _ _
  | .vMuls x l _ _ | .vAxpy x l _ _ | .vSqrt x l _ _ | .vRsqrt x l _ _ | .vExp x l _ _ | .vLog x l _ _ | .vSilu x l _ _
  | .vCvt x l _ _ | .vRed x l _ _ | .mCpy x l _ _ | .mGth x l _ _ | .mSct x l _ _ | .mTrn x l _ _ | .mFil x l _ | .sSet x l _
  | .sClr x l _ | .sWait x l _ | .sBar x l _ | .sBwait x l _ | .qSend x l _ _ | .qAck x l _ | .qOpen x l _ | .qClose x l _
  | .qReset x l _ | .cBulk x l _ _ | .cWred x l _
  | .sendAnswerArrival x l _ _ _ => okCtx x && okCore l
  | .sliceEnd p | .sliceStart p | .stepEndOrResult p _ | .gradientChunkArrival p _ | .handlerChunkDelivery p _ | .grdLate p _ _
  | .commitVoteResult p _ _ _ _ _ | .parameterGatherComplete p | .snapshotDone p | .wardCopyArrival p _ _ _ _
  | .ckpFail p _ | .waggleTimeout p | .windowOpen p | .windowItemArrival p _ _
  | .windowClose p _ | .rollbackRestore p | .ckpCmdTakeover p | .cmbFlushDone p => okPart p
  | .checkpointAckArrival p ⟨_, r⟩ | .ckpCmdDeclare p r => okPart p && okRank r
  | .inboundItemCapped p _ i => okPart p && okVstage i.vstage
  | .outboundCappedReport p j _ _ | .forwardAdmission p j | .backwardAdmission p j | .accumulateAdmission p j =>
    okPart p && okVstage j
  | .hbmRowRepair e _ => decide (e < 64)
  | .patrolScrubRead _ => true
  | .cmbFlush mask => decide (mask < 256)
  | .cellHoldLimit c => okCell c
  | .remoteSetArrival r x n => okRank r && okCtx x && okName n
  | .waggleBarrierEntry t k _ => okTree t && okPort k
  | .waggleBarrierRelease t _ => okTree t
  | .ringMessageArrival n _ _ | .combinedMessagePlace n _ | .handlerDispatch n | .ringResetComplete n => okRing n
  | .cdcPtrMismatch f _ _ _ | .cdcGap f _ _ => okName f
  | .bulkChunkArrival _ _ | .abortNoticeArrival _ _ _ _ _ | .abortNaming _ _ _ _ _ | .colTimeout _ _ _
  | .collectiveComplete _ => true
  | .waggleContributionArrival t k _ _ _ => okTree t && okPort k
  | .waggleResultArrival t _ _ _ => okTree t
  | .linkUnitReceive k _ | .escapeWaitExpiry k _ | .laneFailure k _ _ _ | .confirmRequestArrival k
  | .confirmAnswerArrival k _ | .confirmTimeout k | .receiveDarkTimeout k | .lightDetected k | .portTrainingDone k _
  | .fabPctlRetrain k | .humPathMeasure k _ _ => okPort k
  | .humCellArrival _ k _ _ _ => okPort k
  | .laserSourceFailure e _ _ => okDie e
  | .fabCmdStart | .swarmLinksEnd _ | .swarmElectQuiet _ _ _ _ | .swarmCensusDone _ _ | .swarmAssignDone _ _
  | .swarmRoutesDone => true
  | .epochSwitch vc => decide (vc < 8)
  | .beatTick _ | .humPpsEdge _ | .ptpMessageArrival _ _ | .humSetWrite _ => true
  | .humSourceHealthy n _ | .humInputFault n _ _ _ => decide (n < 4)
  | .pllLossOfLock d | .clkUnlock d | .pllRelock d => okDomain d
  | .clockStageLocked n _ => decide (n < 7)
  | .modelLoadComplete m => okModel m
  | .srvDeadlineMiss e => okEntry e
  | .kprWatchdog _ _ | .keeperRestartDone | .errorRecordArrival | .pwrCmdAvsRetry | .pwrCmdSensorRetry | .ethCmdRetrain
  | .ethSecEnableWrite _ | .errLogRdWrite _ => true
  | .lossNoticeArrival x _ _ | .takeoverAgreementResult x _ _ => okCtx x
  | .ckpDroneTakeover x r _ _ _ _ => okCtx x && okRank r
  | .selectorWrite a _ | .registerWrite a _ _ => okRegAddr a
  | .ethLinkDown c _ => decide (c = 1) || decide (c = 2)
  | .ethModeTimeout | .ethLinkUp | .ethFrameReceive _ | .ylpMessageReceive _ | .hello | .discover _ | .event => true
  | .ethFallback400g g _ => decide (g < 2)
  | .ylpRetransmitTimeout n _ | .ylpIdleTimeout n | .closeSess n _ | .regRd n _ _ | .memRd n _ _ _ _
  | .memWr n _ _ _ _ | .upload n _ _ _ _ _ | .bootGo n _ | .cfgApply n _ | .ctxLoad n _ _ _ _ _ _ | .ctxLaunch n _ _ _
  | .ctxStop n _ _ | .ctxResume n _ _ | .ctxUnload n _ _ | .ctxSave n _ _ _ _ | .ctxRestore n _ _ _ _
  | .ctxHandles n _ _ _ _ | .doorbell n _ _ _ | .ringSend n _ _ _ _ | .events n _ _ | .input n _ _ _ _ _ _ | .join n _ _
  | .cancel n _ _ | .model n _ _ | .attest n _ _ _ | .keyInstall n _ _ _ _ _ | .prpRevoke n _ _ _ _ _ _ _ | .prpSvnCommit n _
  | .prpDebugChallenge n _ | .prpDebugResponse n _ _ _ _ _ _ => okSess n
  | .regWr n _ l => okSess n && okEntries l
  | .openSess _ _ _ _ | .imageVerificationDone | .selfTestDone _ | .memoryTrainingDone _ => true
  | .i3cSetdasa a | .i3cEntdaa a => decide (a < 128)
  | .i3cRecoveryData d => decide (1 ≤ d.length) && decide (d.length ≤ 255)
  | .i3cDiscardStaged | .i3cBootGo | .resetNFall | .pwrOkFall _ | .telemetrySample _ | .jtagInstruction _ _ => true
  | .resetRelease m => decide (m < 4)
  | .railOutOfTolerance r _ _ => decide (1 ≤ r) && decide (r ≤ 7)
  | .vcoreDroop d _ | .droopPauseEnd d | .thermtrip d => okDie d

/-! ### Cynal words -/

/-- Operations with a source B (R182). -/
def VOp.usesB : VOp → Bool
  | .add | .sub | .mul | .div | .fma | .max | .min | .axpy => true
  | _ => false

/-- Operations with the scalar s (R182). -/
def VOp.usesS : VOp → Bool
  | .adds | .muls | .axpy => true
  | _ => false

/-- The compute types of an operation (R181). -/
def VOp.allows (op : VOp) (ct : CType) : Bool :=
  match op, ct with
  | _, .fp32 => true
  | .rsqrt, _ | .exp, _ | .log, _ | .silu, _ | .cvt, _ => false
  | _, .fp64 => true
  | .div, .int32 | .fma, .int32 | .axpy, .int32 | .sqrt, .int32 => false
  | _, .int32 => true

/-- A.LDW uses its weight descriptor, MASK, the selects and GC (R171, R173). -/
def AOps.wfLdw (o : AOps) : Bool :=
  o.td == 0 && o.ta == 0 && o.rnd == .rne && !o.sat && !o.defer && !o.strm && o.gt == 0

/-- A.SWP uses MASK alone (R171, R175). -/
def AOps.wfSwp (o : AOps) : Bool :=
  o.td == 0 && o.ta == 0 && o.tw == 0 && o.nsel == 0 && o.ksel == 0 && o.rnd == .rne && !o.sat && !o.defer && !o.strm
    && o.gc == 0 && o.gt == 0

/-- A product without STRM uses no weight descriptor; a deferred one no destination, rounding or GT (R171, R178). -/
def AOps.wfMul (o : AOps) : Bool :=
  (o.strm || o.tw == 0) && (!o.defer || (o.td == 0 && o.rnd == .rne && !o.sat && o.gt == 0))

/-- A drain without its second destination uses no field of it (R178). -/
def DrnOps.wf (o : DrnOps) : Bool := o.en1 || (o.td1 == 0 && o.rnd1 == .rne && !o.sat1)

/-- The operands an operation of the vector family uses (R182). -/
def VOps.wf (op : VOp) (o : VOps) : Bool :=
  op.allows o.ct && (op.usesB || !o.gselB) && (!o.gselA || o.ta == 0) && ((op.usesB && !o.gselB) || o.tb == 0)
    && (op == .fma || o.tc == 0) && (op.usesB || !o.bcb) && (op == .red || o.rf == .sum) && (op.usesS || o.gs == 0)

/-- A Cynal instruction that an encoding exists for. -/
def CInstr.wf : CInstr → Bool
  | .kEnd | .kNop | .qAck | .kAlu _ _ _ _ | .kMovi _ _ _ | .kCmp _ _ _ _ | .kLd _ _ _ | .kSt _ _ _ | .kTcpy _ _
  | .kCtxEvent _ | .kCtxStop _ | .qOpen _ _ | .qClose _ _ | .qReset _ _ | .cBulk _ _ _ _ | .bRd _ => true
  | .kSpawn _ ga _ _ => decide (ga.val + 7 ≤ 63)
  | .kBr ofs => decide (-(2 ^ 31) ≤ ofs) && decide (ofs < 2 ^ 31)
  | .kAlui _ _ _ imm => imm == (imm.setWidth 26).signExtend 64
  | .kId _ sel => decide (sel ≤ 10)
  | .kTd _ fld add _ => decide (fld ≤ 13) && (!add || (decide (3 ≤ fld) && decide (fld ≤ 9)))
  | .kTrd _ _ fld => decide (fld ≤ 13)
  | .aLdw o => o.wfLdw
  | .aSwp o => o.wfSwp
  | .aMul o | .aMult o => o.wfMul
  | .aDrn o => o.wf
  | .v op o => VOps.wf op o
  | .mCpy o => o.ti == 0 && !o.acc && o.gf == 0
  | .mGth o => !o.acc && o.gf == 0
  | .mSct o => !o.strm && o.gf == 0
  | .mTrn o => o.ti == 0 && !o.q && !o.acc && o.gf == 0
  | .mFil o => o.ts == 0 && o.ti == 0 && !o.strm && !o.acc
  | .sSet name _ remote gr gs => okName name && (remote || (gr == 0 && gs == 0))
  | .sClr name _ => okName name
  | .sWait name _ _ soft _ gs => okName name && (soft || gs == 0)
  | .sBar name _ split soft gt gs _ => okName name && (!split || (!soft && gt == 0)) && (soft || gs == 0)
  | .sBwait name _ soft _ gs _ => okName name && (soft || gs == 0)
  | .qSend _ slots _ _ => decide (slots < 32)
  | .cWred ga gd cnt red type _ _ _ =>
    decide (cnt < 8) && decide (ga.val + cnt ≤ 64) && decide (gd.val + cnt ≤ 64)
      && ((decide (red ≤ 2) && (type == 0x00 || type == 0x10)) || (decide (red ≤ 4) && (type == 0x0F || type == 0x1F)))
  | .bAt _ imm => decide (imm < 2 ^ 24)

/-- A Cynal word with its header fields in their ranges (R43). -/
def CWord.wf (w : CWord) : Bool := decide (w.wait < 32) && decide (w.post < 32) && w.instr.wf

end Sys2Proof
end

