-- ==== Sys2Proof/Machine/Serving.lean ====
section
/-! DEFINITION. Serving (R160 to R162, R400 to R415, R456): the model cache, the stream table, pages, step windows, the deadline
monitor, and the joins, cancels and model requests of the host. -/

namespace Sys2Proof.Machine

/-! ### The tables -/

def getStream (s : State) (e : Nat) : Option Stream := Sparse.get none s.streams e
def setStream (s : State) (e : Nat) (v : Option Stream) : State := { s with streams := Sparse.set none s.streams e v }
def getModel (s : State) (m : Nat) : Option SModel := Sparse.get none s.models m
def setModel (s : State) (m : Nat) (v : Option SModel) : State := { s with models := Sparse.set none s.models m v }
def getServ (s : State) (p : Nat) : Serv := Sparse.get Serv.none s.serv p
def setServ (s : State) (p : Nat) (v : Serv) : State := { s with serv := Sparse.set Serv.none s.serv p v }

/-- The serving context of a partition: the one whose manifest declares a model table (R400). -/
def servCtx (s : State) (p : Nat) : Option Nat :=
  if training s p then none else (ctxsOf s p).find? (fun x => ((manOf s x).bind (·.models)).isSome)

/-- The models of a serving context. -/
def manModels (s : State) (x : Nat) : List ManModel := ((manOf s x).bind (·.models)).getD []

/-- Whether this device is the head of a model, or of some model of a serving partition (R401), and whether it is its last stage. -/
def headOf (s : State) (x m : Nat) : Bool := (manModels s x).any (fun v => v.model == m && v.head)
def isHead (s : State) (x : Nat) : Bool := (manModels s x).any (·.head)
def lastOf (s : State) (x m : Nat) : Bool := (manModels s x).any (fun v => v.model == m && v.last)

/-- The stream entries of a partition with their numbers. -/
def streamsOf (s : State) (p : Nat) : List (Nat × Stream) :=
  s.streams.filterMap (fun e => e.2.bind (fun v => if v.part = p then some (e.1, v) else none))

/-- The entries whose models have this device as their head. -/
def headStreams (s : State) (x p : Nat) : List (Nat × Stream) := (streamsOf s p).filter (fun e => headOf s x e.2.model)

/-- The layers of a sequence's model on this device. -/
def layersOf (s : State) (v : Stream) : Nat := max 1 (((getModel s v.model).map (·.layers)).getD 1)

/-- SRV_PARTn (R417). -/
def chunkTokens (s : State) (p : Nat) : Nat := max 1 (fld s (Reg.SRV_PART p) Fld.SRV_PART_CHUNK)
def winBeats (s : State) (p : Nat) : Nat := max 1 (fld s (Reg.SRV_PART p) Fld.SRV_PART_WIN_BEATS)
def tokensMax (s : State) (p : Nat) : Nat := max 1 (fld s (Reg.SRV_PART p) Fld.SRV_PART_TOKENS_MAX)

/-! ### Page frames (R160 to R162, R402, R408) -/

def pageBytes (s : State) (p : Nat) : Nat := max 4096 (fld s (Reg.SRV_PAGE p) Fld.SRV_PAGE_PAGE_BYTES)

/-- The free gaps of a run, ascending; `taken` is sorted by its starts. -/
def gapsFrom : Nat → Nat → List (Nat × Nat) → List (Nat × Nat)
  | a, e, [] => if a < e then [(a, e)] else []
  | a, e, (b, c) :: l =>
    if e ≤ b then (if a < e then [(a, e)] else [])
    else (if a < b then [(a, b)] else []) ++ gapsFrom (max a c) e l

/-- The frames of a page that fit in the gaps of a tier (true: the second tier). -/
def ownFrames (s : State) (p : Nat) (l2 : Bool) : Nat :=
  let taken := sortBy (fun (t : Nat × Nat) => t.1) (takenExtents s)
  let runs := (List.range 4).flatMap (tierRuns s p (if l2 then 3 else 2))
  ((runs.flatMap (fun r => gapsFrom r.1 r.2 taken)).map (fun g => (g.2 - alignUp g.1) / alignUp (pageBytes s p))).sum

/-- The pages that the head counts as free in a tier: its own, and the least that any stage has reported, less those granted since
(R402). -/
def freeFrames (s : State) (p : Nat) (l2 : Bool) : Nat :=
  let v := getServ s p
  let granted := (v.granted.filter (fun g => g.2 == l2)).length
  v.reports.foldl (fun n r => min n ((if l2 then r.l2 else r.hbm) - granted)) (ownFrames s p l2)

/-- SRV_POOLn shows the free pages (R417). -/
def poolSync (s : State) (p : Nat) : State :=
  let a := Reg.SRV_POOL p
  setFld (setFld s a Fld.SRV_POOL_HBM_FREE (min (2 ^ 24 - 1) (freeFrames s p false))) a Fld.SRV_POOL_L2_FREE
    (min (2 ^ 24 - 1) (freeFrames s p true))

/-- The lowest free frame of a tier. -/
def frameAt (s : State) (p : Nat) (l2 : Bool) : Option Nat :=
  (List.range 4).findSome? (fun d => fitRuns (takenExtents s) (alignUp (pageBytes s p)) (tierRuns s p (if l2 then 3 else 2) d))

/-- The device address of entry `idx` of a sequence's page map (R162). -/
def pmapAddr (s : State) (x : Nat) (v : Stream) (idx : Nat) : Nat :=
  (handleOf s x 0 (v.pmap % 16384)).base + v.pmap / 16384 + 8 * idx

/-- A page entry (R161). -/
def pageEntry (g : KvPage) (fill : Nat) : Nat := 1 + 2 * bnat g.l2 + 4 * min 64 fill + g.addr / 4096 % 2 ^ 44 * 4096

/-- The positions of page index `idx` that are written when `n` positions are. -/
def fillOf (l idx n : Nat) : Nat := min 64 (n - 64 * (idx / l))

/-- A page's entry is written to the map. -/
def writePage (s : State) (x : Nat) (v : Stream) (g : KvPage) (fill : Nat) : State :=
  storeBytes s (pmapAddr s x v g.idx) (leBytes 8 (pageEntry g fill))

/-- The tier of the next page of a layer: HBM below HBM_CAP, or with no cap (R408). -/
def nextTier (s : State) (v : Stream) (idx : Nat) : Bool :=
  let l := layersOf s v
  let cap := fld s (Reg.SRV_PAGE v.part) Fld.SRV_PAGE_HBM_CAP
  let held := (v.pages.filter (fun g => !g.l2 && g.idx % l == idx % l)).length
  decide (cap ≠ 0) && decide (cap ≤ held)

/-- A page granted at the boundary of the next window (R402). -/
def noteGranted (s : State) (p : Nat) (l2 : Bool) : State :=
  let v := getServ s p
  setServ s p { v with granted := v.granted ++ [(v.next, l2)] }

/-- One page for a sequence, if its tier has one free. -/
def allocPage (x e : Nat) (s : State) (idx : Nat) : Option State :=
  match getStream s e with
  | none => none
  | some v =>
    let l2 := nextTier s v idx
    if freeFrames s v.part l2 = 0 then none
    else match frameAt s v.part l2 with
      | none => none
      | some a =>
        let g : KvPage := ⟨idx, l2, a⟩
        some (writePage (noteGranted (setStream s e (some { v with pages := v.pages ++ [g] })) v.part l2) x v g 0)

/-- Pages one after another; none of them if one is missing. -/
def allocPages (x e : Nat) : List Nat → State → Option State
  | [], s => some s
  | i :: is, s => match allocPage x e s i with
    | some s => allocPages x e is s
    | none => none

/-- The page indices of positions 0 to n − 1 that a sequence does not hold. -/
def missingPages (s : State) (v : Stream) (n : Nat) : List Nat :=
  (List.range (ceilDiv n 64 * layersOf s v)).filter (fun i => !v.pages.any (fun g => g.idx == i))

/-- Every page of a sequence is freed. -/
def freePages (s : State) (x e : Nat) : State :=
  match getStream s e with
  | none => s
  | some v =>
    let s := v.pages.foldl (fun s g => storeBytes s (pmapAddr s x v g.idx) (leBytes 8 0)) s
    setStream s e (some { v with pages := [] })

/-- Memory copied as it is, poison and all (R153). -/
def copyMem (s : State) (src dst n : Nat) : State :=
  let bytes := s.mem.filter (fun c => decide (src ≤ c.1) && decide (c.1 < src + n))
  let kept := s.mem.filter (fun c => !(decide (dst ≤ c.1) && decide (c.1 < dst + n)))
  let bad := (s.poison.filter (fun u => u.2 && decide (src ≤ u.1 * 64) && decide (u.1 * 64 < src + n))).map (fun u => (u.1 * 64 - src + dst) / 64)
  let clean := s.poison.filter (fun u => !(decide (dst ≤ u.1 * 64) && decide (u.1 * 64 < dst + n)))
  { s with mem := bytes.foldl (fun m c => Sparse.set (0 : Byte) m (c.1 - src + dst) c.2) kept
           poison := bad.foldl (fun p u => Sparse.set false p u true) clean }

/-- Pages move to the other tier, the first `k` that lie in tier `from_`: contents unchanged (R153, R408). -/
def movePages (x e : Nat) (from_ : Bool) : List KvPage → State → Option State
  | [], s => some s
  | g :: gs, s =>
    if g.l2 != from_ then movePages x e from_ gs s
    else match getStream s e with
      | none => none
      | some v =>
        if freeFrames s v.part (!from_) = 0 then none
        else match frameAt s v.part (!from_) with
          | none => none
          | some a =>
            let g' : KvPage := ⟨g.idx, !from_, a⟩
            let s := noteGranted (copyMem s g.addr a (pageBytes s v.part)) v.part (!from_)
            let s := setStream s e (some { v with pages := v.pages.map (fun h => if h.idx = g.idx then g' else h) })
            movePages x e from_ gs (writePage s x v g' (fillOf (layersOf s v) g.idx v.length))

/-! ### The deadline monitor (R413, R414) -/

/-- PREDICT of an entry now (R413). -/
def predictOf (s : State) (v : Stream) : Nat :=
  let t := Reg.SRV_TIME v.part
  beat s + ceilDiv (v.prompt - v.length) (chunkTokens s v.part) * fld s t Fld.SRV_TIME_WIN_PERIOD + v.decLeft * fld s t Fld.SRV_TIME_ROUND_TRIP

/-- An entry as the head updates it. -/
def touch (s : State) (e : Nat) (v : Stream) : State := setStream s e (some { v with predict := predictOf s v })

/-- SRV_DEADLINE_MISS, once per sequence. -/
def noteMiss (s : State) (e : Nat) : State :=
  match getStream s e with
  | none => s
  | some v =>
    if v.deadline ≠ 0 ∧ v.deadline < beat s ∧ !v.missed ∧ v.st ≠ 6 then
      let s := setStream s e (some { v with missed := true })
      let s := bump s (Reg.SRV_DL v.part) Fld.SRV_DL_MISSES 1
      raisePart s v.part 0x0E01 sevInfo e v.request v.deadline (beat s) v.decLeft
    else s

/-- SRV_DEADLINE_MISS as the beat passes a deadline (R414). -/
def execSrvDeadlineMiss (entry : Nat) (s : State) : Host.Outcome State Fault Refusal := .next (noteMiss s entry)

/-- A sequence moves to its class's fallback model (R414). -/
def tryFallback (x : Nat) (s : State) (e : Nat) : State :=
  match getStream s e with
  | none => s
  | some v =>
    let w := classWord s v.part v.cls
    let policy := getF Fld.SRV_CLASS_POLICY w
    let to_ := getF Fld.SRV_CLASS_FALLBACK w
    let may := decide (policy = 2) || (decide (policy = 1) && decide (v.emitted = 0))
    if v.st ≠ 6 ∧ !v.flying ∧ v.deadline ≠ 0 ∧ v.deadline < v.predict ∧ beat s ≤ v.deadline ∧ !v.fellBack
        ∧ getF Fld.SRV_CLASS_FB_VALID w = 1 ∧ may then
      let s := freePages s x e
      let n := max v.length v.redo
      let s := touch s e { v with pages := [], model := to_, fellBack := true, st := 5, length := n, prompt := n + v.emitted }
      let s := bump s (Reg.SRV_DL v.part) Fld.SRV_DL_FALLBACKS 1
      raisePart s v.part 0x0E02 sevInfo e v.request (v.model % 256 + 2 ^ 8 * (to_ % 256) + 2 ^ 16 * policy) v.predict v.deadline
    else s

/-! ### The model cache (R403, R404) -/

/-- Models with a row in a window in flight at this device, or in one that waits here. -/
def modelFlying (s : State) (p m : Nat) : Bool :=
  (getServ s p).wins.any (fun w => w.rows.any (fun r => r.row.model == m))
    || (getServ s p).waiting.any (fun w => w.2.any (fun r => r.model == m))

/-- The models of a partition. -/
def modelsOf (s : State) (p : Nat) : List (Nat × SModel) :=
  s.models.filterMap (fun e => e.2.bind (fun m => if m.part = p then some (e.1, m) else none))

/-- The sequences that wait for a model: every entry of it but those leaving. -/
def waitersOf (s : State) (p m : Nat) : List Stream :=
  ((streamsOf s p).map (·.2)).filter (fun v => v.model == m && v.st != 6)

/-- The bytes of the HOT and LOADING models of a partition. -/
def hotBytes (s : State) (p : Nat) : Nat := (((modelsOf s p).filter (fun e => e.2.st != 0)).map (fun e => e.2.bytes)).sum

/-- The place of a hot copy: the partition's HBM, then its placed ways. -/
def hotPlace (s : State) (p n : Nat) : Option Nat :=
  [2, 1].findSome? (fun t => (List.range 4).findSome? (fun d => fitRuns (takenExtents s) n (tierRuns s p t d)))

/-- The T registers whose handles an instruction refers to. -/
def tregsOf : CInstr → List TReg
  | .kLd _ t _ | .kSt _ t _ | .qSend t _ _ _ => [t]
  | .aLdw o => [o.tw]
  | .aMul o | .aMult o => [o.ta] ++ (if o.strm then [o.tw] else []) ++ (if o.defer then [] else [o.td])
  | .aDrn o => [o.td0] ++ (if o.en1 then [o.td1] else [])
  | .v op o => [o.td] ++ (if o.gselA then [] else [o.ta]) ++ (if op.usesB && !o.gselB then [o.tb] else [])
    ++ (if op == .fma then [o.tc] else [])
  | .mCpy o | .mTrn o => [o.td, o.ts]
  | .mGth o | .mSct o => [o.td, o.ts, o.ti]
  | .mFil o => [o.td]
  | .cBulk td ts _ _ => [td, ts]
  | _ => []

/-- Whether an issued instruction of the partition's contexts refers to a handle whose region begins in an extent, or a running task
was fetched from it: the extent does not move then (R42). -/
def regionBusy (s : State) (p a n : Nat) : Bool :=
  let inside (b : Nat) : Bool := decide (a ≤ b) && decide (b < a + n)
  (ctxsOf s p).any (fun x => (getCtx s x).cores.any (fun e => match e.2.run with
    | some r => inside r.base
        || r.open_.any (fun f => (tregsOf f.op.instr).any (fun t => inside (handleOf s x e.1 (f.regs.getT t).handle).base))
    | none => false))

/-- Handles of the partition's contexts that lie in a model's copy follow it to the other (R42). -/
def moveHandles (s : State) (p from_ to_ n tier : Nat) : State :=
  (ctxsOf s p).foldl (fun s x =>
    let c := getCtx s x
    setCtx s x { c with handles := c.handles.map (fun e =>
      let b := e.2.base
      if from_ ≤ b ∧ b < from_ + n then (e.1, { e.2 with w0 := putF ⟨0, 56⟩ (b - from_ + to_) (putF ⟨56, 2⟩ tier e.2.w0) }) else e) }) s

/-- An eviction: COLD, its hot copy freed, nothing written back (R404). -/
def evict (s : State) (p m : Nat) : State :=
  match getModel s m with
  | none => s
  | some v => setModel (moveHandles s p v.hot v.backing v.bytes 3) m (some { v with st := 0 })

/-- Evictions in ascending LAST_USE until a model fits, if it ever does. -/
def makeRoom (s : State) (p need : Nat) : List Nat → Option State
  | [] => if hotBytes s p + need ≤ fld s (Reg.SRV_MC p) Fld.SRV_MC_HOT_BYTES ∧ (hotPlace s p need).isSome then some s else none
  | m :: ms =>
    if hotBytes s p + need ≤ fld s (Reg.SRV_MC p) Fld.SRV_MC_HOT_BYTES ∧ (hotPlace s p need).isSome then some s
    else makeRoom (evict s p m) p need ms

/-- The models that may be evicted, in their order. -/
def evictable (s : State) (p : Nat) : List Nat :=
  (sortBy (fun (e : Nat × SModel) => e.2.lastUse * 256 + e.1)
    ((modelsOf s p).filter (fun e =>
      e.2.st == 2 && !e.2.pinned && !modelFlying s p e.1 && !regionBusy s p e.2.hot e.2.bytes))).map (·.1)

/-- One load candidate. -/
def tryLoad (p : Nat) (s : State) (m : Nat) : State :=
  match getModel s m with
  | none => s
  | some v => match makeRoom s p v.bytes (evictable s p) with
    | none => s
    | some s => match hotPlace s p v.bytes with
      | none => s
      | some a => setModel s m (some { v with st := 1, hot := a })

/-- The load candidates at a boundary: COLD models waited for, by the highest priority waiting, then the lower id. -/
def loadCandidates (s : State) (p : Nat) : List Nat :=
  let cold := (modelsOf s p).filter (fun e => e.2.st == 0 && !(waitersOf s p e.1).isEmpty)
  (sortBy (fun (e : Nat × SModel) =>
    (15 - ((waitersOf s p e.1).map (·.priority)).foldl max 0) * 256 + e.1) cold).map (·.1)

/-! ### Cells of a window (R206, R409, R410) -/

/-- The free cells of the table, lowest first, up to the partition's quota. -/
def servCells (s : State) (p : Nat) : List Nat :=
  (selectBelow 256 (fun c => (getCell s c).st = .free)).take (fld s (Reg.BRD_PART p) Fld.BRD_PART_QUOTA - (cellsOf s p).length)

/-- The cells of a window are released. -/
def releaseWin (s : State) (p : Nat) (w : Win) : State :=
  noteHeld (w.rows.foldl (fun s r => setCell s r.cell Cell.free) s) p

/-- Whether some task bound to window `w` is left in a context. -/
def windowTasks (s : State) (x p w : Nat) : Bool :=
  (getCtx s x).cores.any (fun e =>
    let mine (t : Task) : Bool := t.bound == .window p w
    e.2.deque.any mine || e.2.held.any (fun h => mine h.2) || (e.2.run.map (fun r => mine r.task)).getD false)

/-- A row of the batch list (R409). -/
def rowBytes64 (r : WinRow) : List Byte :=
  let b := r.row
  let flags := b.first % 2 ^ 24 + 2 ^ 24 * bnat b.prefill + 2 ^ 25 * bnat b.emits + 2 ^ 26 * bnat b.recompute
  leBytes 2 b.entry ++ leBytes 1 r.cell ++ leBytes 1 b.model ++ leBytes 4 flags ++ leBytes 4 b.tokens ++ leBytes 4 0 ++ leBytes 8 b.request
    ++ leBytes 8 b.pmap ++ leBytes 8 b.tokbuf ++ leBytes 8 b.seed ++ leBytes 16 0

/-- The base of the handle in which a serving context's manifest puts its batch list, or its output records. -/
def servBase (s : State) (x : Nat) (out : Bool) : Nat :=
  match manOf s x with
  | some m => (handleOf s x 0 (if out then m.outHandle else m.batchHandle)).base
  | none => 0

/-- What the tasks of a window are bound to: its number, and whose it is. -/
def winKey (w : Nat) (own : Bool) : Nat := 2 * w + bnat (!own)

/-- The window entry task of one model (R410). -/
def spawnWindow (x p w : Nat) (own : Bool) (rows : List WinRow) (s : State) (m : Nat) : State :=
  match (manModels s x).find? (fun v => v.model == m) with
  | none => s
  | some v =>
    let first := (rows.takeWhile (fun r => r.row.model != m)).length
    let mine := rows.filter (fun r => r.row.model == m)
    let args := [w, first, mine.length, (mine.map (fun r => r.row.tokens)).sum, m, 16 * first, 0, 0].map (BitVec.ofNat 64)
    let h := homeDevice s x v.cls m
    spawnTask s x true { entry := v.entry, args := args, tid := 0, home := h.1, group := h.2, kind := .plain, bound := .window p (winKey w own) }

/-- A window is admitted at a device: cells, batch list, and one task for each model present (R409, R410); without a task it is complete
at once. -/
def admitWindow (s : State) (x p w : Nat) (own : Bool) (rows : List BatchRow) : State :=
  let rs : List WinRow := (rows.zip (servCells s p)).map (fun e => ⟨e.1, e.2⟩)
  let s := rs.foldl (fun s r => setCell s r.cell { Cell.free with
    st := .serving, part := p, ctx := x, index := r.row.entry, step := w, beat := beat s }) s
  let s := noteHeld s p
  let s := rs.zipIdx.foldl (fun s e => storeBytes s (servBase s x false + 64 * e.2) (rowBytes64 e.1)) s
  let models := (rs.map (fun r => r.row.model)).eraseDups
  let s := models.foldl (fun s m => match getModel s m with
    | some q => setModel s m (some { q with lastUse := beat s })
    | none => s) s
  let s := models.foldl (spawnWindow x p w own rs) s
  let v := getServ s p
  setServ s p { v with wins := v.wins ++ [⟨w, own, rs, beat s, !windowTasks s x p (winKey w own)⟩] }

/-! ### A window at its head (R407, R408) -/

/-- Step 1: entries leaving with no row in flight. -/
def takeLeave (x : Nat) (s : State) (e : Nat) : State :=
  match getStream s e with
  | some v => if v.st = 6 ∧ !v.flying then setStream (freePages s x e) e none else s
  | none => s

/-- The order of admissions: priority, then SWAPPED and RECOMPUTE first, then request id. -/
def admitKey (v : Stream) : Nat := (15 - v.priority) * 2 ^ 65 + (if v.st = 1 then 2 ^ 64 else 0) + v.request

/-- One admission to READY; none when it does not fit. -/
def admitOne (s : State) (x e : Nat) (v : Stream) : Option State :=
  match v.st with
  | 1 =>
    (allocPages x e (missingPages s v v.prompt) s).map (fun s =>
      let d := getF Fld.SRV_CLASS_DEADLINE (classWord s v.part v.cls)
      match getStream s e with
      | some v => touch s e { v with st := 2, deadline := if d = 0 then 0 else v.joined + d }
      | none => s)
  | 4 =>
    (movePages x e true (v.pages.filter (fun g => g.l2 && !nextTier s v g.idx)) s).map (fun s =>
      match getStream s e with
      | some v => touch s e { v with st := 2 }
      | none => s)
  | _ =>
    (allocPages x e (missingPages s v v.length) s).map (fun s =>
      match getStream s e with
      | some v => touch s e { v with st := 2, redo := max v.redo v.length, length := 0 }
      | none => s)

/-- Step 2: admissions in order while pages and cells last; the first that does not fit defers all after it. Answers the number
deferred. -/
def admitAll (x : Nat) : Nat → List (Nat × Stream) → State → State × Nat
  | _, [], s => (s, 0)
  | cells, (e, v) :: l, s =>
    if ((getModel s v.model).map (fun m => m.st)).getD 0 ≠ 2 then admitAll x cells l s
    else if cells = 0 then (s, l.length + 1)
    else match admitOne s x e v with
      | some s => admitAll x (cells - 1) l s
      | none => (s, l.length + 1)

/-- The positions that a sequence's next row covers. -/
def nextRow (s : State) (v : Stream) : Nat :=
  if v.length < v.redo then min (chunkTokens s v.part) (v.redo - v.length)
  else if v.length < v.prompt then min (chunkTokens s v.part) (v.prompt - v.length) else 1

/-- The victim of a preemption: the lowest priority, then the highest request id, among READY and SWAPPED sequences with pages and no
row in flight. -/
def victimOf (s : State) (x p : Nat) : Option (Nat × Stream) :=
  (sortBy (fun (e : Nat × Stream) => e.2.priority * 2 ^ 64 + (2 ^ 64 - 1 - e.2.request))
    ((headStreams s x p).filter (fun e => (e.2.st == 2 || e.2.st == 4) && !e.2.pages.isEmpty && !e.2.flying))).head?

/-- A victim loses its pages: swapped to the second tier, or to be computed again up to the length that it had (R408, R412, R416). -/
def preempt (s : State) (x e : Nat) (v : Stream) (needL2 : Bool) (needer : Nat) : State :=
  let p := v.part
  let hbm := (v.pages.filter (fun g => !g.l2)).length
  let swap : Option State :=
    if !flg s (Reg.SRV_PART p) Fld.SRV_PART_PREEMPT && !needL2 && decide (hbm ≤ freeFrames s p true) && decide (hbm ≠ 0) then
      movePages x e false v.pages s
    else none
  let s' := match swap with
    | some t => (match getStream t e with
      | some w => touch t e { w with st := 4 }
      | none => t)
    | none => touch (freePages s x e) e { v with pages := [], st := 5, length := max v.length v.redo }
  let l2 := if swap.isSome then 0 else v.pages.length - hbm
  let s' := bump s' (Reg.SRV_STAT p) Fld.SRV_STAT_PREEMPTS 1
  raisePart s' p 0x0E03 sevInfo e v.request (if swap.isSome then 1 else 2) (hbm + 2 ^ 32 * l2) needer

/-- Step 3 for one sequence: the pages that its next row lacks, preempting until they are found, no victim remains, or the sequence is
itself the victim. `n` bounds the preemptions. -/
def giveDecode (x e : Nat) : Nat → State → State
  | 0, s => s
  | n + 1, s =>
    match getStream s e with
    | none => s
    | some v =>
      if v.st ≠ 2 ∨ v.flying then s
      else
        let need := missingPages s v (v.length + nextRow s v)
        match allocPages x e need s with
        | some t => t
        | none =>
          let l2 := (need.head?.map (nextTier s v)).getD false
          match victimOf s x v.part with
          | none => s
          | some (k, q) => giveDecode x e n (preempt s x k q l2 e)

/-- Step 4: the order of the window's rows. -/
def composeKey (v : Stream) : Nat :=
  (15 - v.priority) * 2 ^ 65 + (if v.length < v.redo ∨ v.length < v.prompt then 2 ^ 64 else 0) + v.request

/-- The row of a sequence (R408, R409). -/
def rowOf (s : State) (e : Nat) (v : Stream) : BatchRow :=
  let n := nextRow s v
  let again := decide (v.length < v.redo)
  let pre := again || decide (v.length < v.prompt)
  ⟨e, v.model, v.length, pre, !again && (!pre || decide (v.length + n = v.prompt)), again, n, v.request, v.pmap, v.tokbuf, v.seed⟩

/-- Rows while cells last and the tokens stay within TOKENS_MAX. -/
def compose (s : State) : Nat → Nat → List (Nat × Stream) → List BatchRow
  | _, _, [] => []
  | cells, room, (e, v) :: l =>
    let r := rowOf s e v
    if cells = 0 ∨ room < r.tokens then []
    else if !(missingPages s v (v.length + r.tokens)).isEmpty || ((getModel s v.model).map (fun m => m.st)).getD 0 != 2 then compose s cells room l
    else r :: compose s (cells - 1) (room - r.tokens) l

/-- WIN_PERIOD: the mean of the beats between the last 16 openings, newest first (R413). -/
def meanPeriod (l : List Nat) : Nat := if l.length < 2 then 0 else (l.headD 0 - l.getLastD 0) / (l.length - 1)

/-- The opening is counted (R407, R413). -/
def noteOpening (s : State) (p : Nat) : State :=
  let v := getServ s p
  let late := match v.opens with
    | o :: _ => decide (o + winBeats s p < beat s)
    | [] => false
  let opens := (beat s :: v.opens).take 16
  let s := bump s (Reg.SRV_STAT p) Fld.SRV_STAT_WINDOWS 1
  let s := if late then bump s (Reg.SRV_STAT p) Fld.SRV_STAT_OVERRUNS 1 else s
  setFld (setServ s p { v with opens := opens, next := v.next + 1 }) (Reg.SRV_TIME p) Fld.SRV_TIME_WIN_PERIOD (min (2 ^ 32 - 1) (meanPeriod opens))

/-- The boundary up to the composition: loads, leaves, deadlines, fallbacks, admissions, decode pages (R404, R408, R414). -/
def boundary (s : State) (x p : Nat) : State :=
  let s := (loadCandidates s p).foldl (tryLoad p) s
  let s := ((headStreams s x p).map (·.1)).foldl (takeLeave x) s
  let s := ((headStreams s x p).map (·.1)).foldl noteMiss s
  let s := ((headStreams s x p).map (·.1)).foldl (tryFallback x) s
  let queue := sortBy (fun (e : Nat × Stream) => admitKey e.2) ((headStreams s x p).filter (fun e => e.2.st == 1 || e.2.st == 4 || e.2.st == 5))
  let (s, n) := admitAll x (servCells s p).length queue s
  let s := setFld s (Reg.SRV_POOL p) Fld.SRV_POOL_DEFERRED (min 65535 n)
  let ready := sortBy (fun (e : Nat × Stream) => (15 - e.2.priority) * 2 ^ 64 + e.2.request)
    ((headStreams s x p).filter (fun e => e.2.st == 2 && !e.2.flying))
  (ready.map (·.1)).foldl (fun s e => giveDecode x e (2 * (streamsOf s p).length + 2) s) s

/-- The rows of the window, by model and then as composed. -/
def windowRows (s : State) (x p : Nat) : List BatchRow :=
  let ready := sortBy (fun (e : Nat × Stream) => composeKey e.2) ((headStreams s x p).filter (fun e => e.2.st == 2 && !e.2.flying))
  sortBy (fun (r : BatchRow) => r.model) (compose s (servCells s p).length (tokensMax s p) ready)

/-- Whether the head may open its next window now (R407). -/
def mayOpen (s : State) (x p : Nat) : Bool :=
  isHead s x && ctxAdmits s x && decide (beat s % winBeats s p = 0) && (getServ s p).wins.all (fun w => !w.own || w.done)
    && ((getServ s p).opens.head? != some (beat s))

/-- WINDOW_OPEN (R408). -/
def execWindowOpen (p : Nat) (s : State) : Host.Outcome State Fault Refusal :=
  match servCtx s p with
  | none => .next s
  | some x =>
    if !mayOpen s x p then .next s
    else
      let w := (getServ s p).next
      let s := boundary s x p
      let rows := windowRows s x p
      let s := rows.foldl (fun s r => match getStream s r.entry with
        | some v => touch s r.entry { v with st := 3, flying := true }
        | none => s) s
      let s := noteOpening s p
      let s := if (manModels s x).any (fun m => decide (1 < m.devices)) then emit s (.window p w rows) else s
      .next (poolSync (admitWindow s x p w true rows) p)

/-! ### A window at another stage (R401, R409, R410) -/

/-- A row's entry at a stage that is not the head: the same entry, of which only W0 and W5 are kept (R406), with the pages that its
positions need. -/
def stageRow (x p : Nat) (s : State) (r : BatchRow) : State :=
  let s := if r.first = 0 then freePages s x r.entry else s
  let pages := ((getStream s r.entry).map (·.pages)).getD []
  let v : Stream :=
    { st := 3, part := p, model := r.model, cls := 0, priority := 0, fellBack := false, length := r.first, prompt := 0, decLeft := 0
      request := 0, seed := 0, tokbuf := 0, pmap := r.pmap, deadline := 0, predict := 0, emitted := 0
      sess := noSession, flying := true, cancelled := false, missed := false, joined := 0, redo := 0, pages := pages }
  let s := setStream s r.entry (some v)
  (missingPages s v (r.first + r.tokens)).foldl (fun s i => (allocPage x r.entry s i).getD s) s

/-- A stage loads the models that its waiting windows need, by ascending id (R404). -/
def stageLoads (s : State) (p : Nat) : State :=
  let ms := (((getServ s p).waiting.flatMap (fun w => w.2.map (·.model))).eraseDups).filter
    (fun m => ((getModel s m).map (·.st)) == some 0)
  (sortBy (fun (m : Nat) => m) ms).foldl (tryLoad p) s

/-- The oldest window that waits is admitted once its rows have cells and its models are HOT (R404, R410). -/
def admitNext (s : State) (x p : Nat) : Option State :=
  let v := getServ s p
  match v.waiting with
  | [] => none
  | (w, rows) :: more =>
    let hot (m : Nat) : Bool := match getModel s m with
      | some q => q.st == 2
      | none => true
    if rows.length ≤ (servCells s p).length ∧ rows.all (fun r => hot r.model) then
      some (admitWindow (rows.foldl (stageRow x p) (setServ s p { v with waiting := more })) x p w false rows)
    else none

/-- An output record of the serving context: token and END. -/
def recordAt (s : State) (x i : Nat) : OutRecord :=
  let a := servBase s x true + 16 * i
  ⟨i, ofLeBytes (readBytes s a 4), (readByte s (a + 4)).getLsbD 0⟩

/-- A window completes at a stage that is not the head: cells released, FILL set, and the item returned with the stage's free pages and,
from the last stage, the output records (R401, R402, R410). Poisoned records are never returned, and the context is FAULTED (R155). -/
def stageDone (s : State) (x p : Nat) (q : Win) : State :=
  let v := getServ s p
  let s := releaseWin (setServ s p { v with wins := v.wins.filter (fun w => w.own || w.num != q.num) }) p q
  let s := q.rows.foldl (fun s r => match getStream s r.row.entry with
    | some e =>
      let n := r.row.first + r.row.tokens
      let s := setStream s r.row.entry (some { e with length := n, flying := false, st := 2 })
      (e.pages.filter (fun g => decide (64 * (g.idx / layersOf s e) < n))).foldl
        (fun s g => writePage s x e g (fillOf (layersOf s e) g.idx n)) s
    | none => s) s
  let out := (q.rows.zipIdx.filter (fun e => e.1.row.emits && lastOf s x e.1.row.model)).map (·.2)
  if out.any (fun i => poisoned s (servBase s x true + 16 * i) 16) then faultCtx s x
  else
    let s := out.foldl (fun s i => combTouch s false false (servBase s x true + 16 * i) 16) s
    emit s (.windowDone p q.num ⟨ownFrames s p false, ownFrames s p true⟩ (out.map (recordAt s x)))

/-- The windows of a stage complete in the order opened (R407). -/
def completeStages (x p : Nat) : Nat → State → State
  | 0, s => s
  | n + 1, s => match ((getServ s p).wins.filter (fun w => !w.own)).head? with
    | some q => if q.done then completeStages x p n (stageDone s x p q) else s
    | none => s

/-- What a stage can do now: complete, load, admit. `n` bounds the windows admitted. -/
def stageGo (x p : Nat) : Nat → State → State
  | 0, s => s
  | n + 1, s =>
    let s := stageLoads (completeStages x p ((getServ s p).wins.length) s) p
    match admitNext s x p with
    | some s => stageGo x p n s
    | none => s

/-- The same for every window that waits. -/
def runStage (s : State) (x p : Nat) : State := poolSync (stageGo x p ((getServ s p).waiting.length + 1) s) p

/-- WINDOW_ITEM_ARRIVAL: a stage that is not the head takes a window, and passes it on if it is not the last. -/
def execWindowItemArrival (p w : Nat) (rows : List BatchRow) (s : State) : Host.Outcome State Fault Refusal :=
  match servCtx s p with
  | none => .next s
  | some x =>
    if rows.any (fun r => headOf s x r.model) ∨ (rows.isEmpty ∧ isHead s x) then .next s
    else
      let v := getServ s p
      let s := setServ s p { v with waiting := v.waiting ++ [(w, rows)] }
      let ends := if rows.isEmpty then (manModels s x).any (·.last) else rows.all (fun r => lastOf s x r.model)
      .next (runStage (if ends then s else emit s (.window p w rows)) x p)

/-- MODEL_LOAD_COMPLETE: the hot copy is whole, and the model is HOT; the copy waits for instructions that refer to the model (R42). -/
def execModelLoadComplete (m : Nat) (s : State) : Host.Outcome State Fault Refusal :=
  match getModel s m with
  | some v =>
    if v.st = 1 ∧ !s.keeper.held ∧ !regionBusy s v.part v.backing v.bytes then
      let s := copyMem s v.backing v.hot v.bytes
      let s := moveHandles s v.part v.backing v.hot v.bytes (tierOf v.hot)
      let s := bump (setModel s m (some { v with st := 2 })) (Reg.SRV_MC v.part) Fld.SRV_MC_LOADS 1
      .next (match servCtx s v.part with
        | some x => runStage s x v.part
        | none => s)
    else .next s
  | none => .next s

/-! ### The end of a window (R410, R411) -/

/-- A window's tasks have all ended at this device: the head waits for its output, another stage completes it (R402, R410). -/
def windowEnded (s : State) (p key : Nat) : State :=
  match servCtx s p with
  | none => s
  | some x =>
    let v := getServ s p
    let s := setServ s p { v with wins := v.wins.map (fun q => if winKey q.num q.own = key then { q with done := true } else q) }
    if key % 2 = 0 then s else runStage s x p

/-- The output record of row `i`: from this device's memory where it is the model's last stage, else as it came back; none where it has
not come back. -/
def outOf (s : State) (x i m : Nat) (records : List OutRecord) : Option OutRecord :=
  if lastOf s x m then some (recordAt s x i) else records.find? (fun o => o.row == i)

/-- One row at window close: its entry after it, and the token it delivers (R411). A poisoned record is no token: it is not written, and the
context is FAULTED (R155). -/
def closeRow (s : State) (x : Nat) (w : Win) (records : List OutRecord) (i : Nat) (r : WinRow) :
    State × List (Nat × Nat × Nat × Bool × Nat) :=
  let b := r.row
  match getStream s b.entry with
  | none => (s, [])
  | some v =>
    let n := b.first + b.tokens
    let l := layersOf s v
    let bad := lastOf s x b.model && b.emits && poisoned s (servBase s x true + 16 * i) 16
    let out := if b.emits then outOf s x i b.model records else none
    let s := (v.pages.filter (fun g => decide (64 * (g.idx / l) < n))).foldl (fun s g => writePage s x v g (fillOf l g.idx n)) s
    if v.cancelled then (touch s b.entry { v with st := 6, flying := false }, [])
    else if bad then (touch (faultCtx s x) b.entry { v with st := 2, flying := false }, [])
    else match out with
    | some o =>
      let s := if lastOf s x b.model then combTouch s false false (servBase s x true + 16 * i) 16 else s
      let dec := v.decLeft - 1
      let tb := (handleOf s x 0 (v.tokbuf % 16384)).base + v.tokbuf / 16384 + 4 * n
      let s := storeBytes s tb (leBytes 4 o.token)
      let s := setServ s v.part { getServ s v.part with trips := ((beat s - w.opened) :: (getServ s v.part).trips).take 256 }
      let ended := o.last || decide (dec = 0)
      (touch s b.entry { v with st := if ended then 6 else 2, flying := false, length := n, decLeft := dec, emitted := v.emitted + 1 },
        [(v.sess, v.request, n, o.last, o.token)])
    | none => (touch s b.entry { v with st := 2, flying := false, length := n }, [])

/-- The rows of a window in their order. -/
def closeRows (x : Nat) (w : Win) (records : List OutRecord) : Nat → List WinRow → State → State × List (Nat × Nat × Nat × Bool × Nat)
  | _, [], s => (s, [])
  | i, r :: rs, s =>
    let (s, a) := closeRow s x w records i r
    let (s, b) := closeRows x w records (i + 1) rs s
    (s, a ++ b)

/-- TOKENS: one message to each session that made a join whose sequence emitted (R456). -/
def sendTokens (s : State) (l : List (Nat × Nat × Nat × Bool × Nat)) : State :=
  ((l.map (·.1)).eraseDups).foldl (fun s n =>
    sendMsg s n (.tokens ((l.filter (fun e => e.1 == n)).map (·.2)))) s

/-- ROUND_TRIP: the mean over the last 256 rows that emitted (R413). -/
def meanTrip (l : List Nat) : Nat := if l.isEmpty then 0 else l.sum / l.length

/-- Whether the output of a window has come back whole: a record for each row that emits a token (R411). -/
def outputBack (s : State) (x : Nat) (w : Win) (records : List OutRecord) : Bool :=
  w.rows.zipIdx.all (fun e => !e.1.row.emits || (outOf s x e.2 e.1.row.model records).isSome)

/-- WINDOW_CLOSE: the output of the oldest window has come back to the head, with the stages' reports (R402, R411). What has been granted
at the boundaries of later windows stays counted. -/
def execWindowClose (p : Nat) (back : WindowReturn) (s : State) : Host.Outcome State Fault Refusal :=
  let ⟨reports, records⟩ := back
  match servCtx s p with
  | none => .next s
  | some x =>
    let v := getServ s p
    match v.wins.filter (·.own) with
    | [] => .next s
    | w :: _ =>
      if !w.done || !outputBack s x w records then .next s
      else
        let s := releaseWin (setServ s p { v with
          wins := v.wins.filter (fun q => !q.own || q.num != w.num), reports := reports
          granted := v.granted.filter (fun g => decide (w.num < g.1)) }) p w
        let (s, out) := closeRows x w records 0 w.rows s
        let s := setFld s (Reg.SRV_TIME p) Fld.SRV_TIME_ROUND_TRIP (min (2 ^ 32 - 1) (meanTrip (getServ s p).trips))
        .next (poolSync (sendTokens s out) p)

/-! ### Requests of the host (R403, R405, R415, R456) -/

/-- The entries of a partition: those that follow the entries of the partitions below it. -/
def entriesOf (s : State) (p : Nat) : List Nat :=
  let n (q : Nat) : Nat := fld s (Reg.SRV_PART q) Fld.SRV_PART_ENTRIES
  let first := ((List.range p).map n).sum
  (List.range (n p)).map (fun i => first + i)

/-- The reason for which the head refuses a join (R405, R456). -/
def joinRefused (s : State) (x : Nat) (j : JoinReq) : Option Nat :=
  let total := j.prompt + j.newTokens
  let tok := handleOf s x 0 j.tokHandle
  let pm := handleOf s x 0 j.pmHandle
  match getModel s j.model with
  | none => some 1
  | some m =>
    if m.part ≠ j.part ∨ !(manModels s x).any (fun v => v.model == j.model && v.head) then some 1
    else if j.tokBytes < 4 * total ∨ !tok.valid ∨ tok.size < j.tokOffset + 4 * total then some 2
    else if j.pmEntries < ceilDiv total 64 * m.layers ∨ !pm.valid ∨ pm.size < j.pmOffset + 8 * (ceilDiv total 64 * m.layers) then some 3
    else if 16777216 < total then some 4
    else if (entriesOf s j.part).all (fun e => (getStream s e).isSome) then some 5
    else none

/-- JOIN. -/
def joinStream (s : State) (sess : Nat) (j : JoinReq) : Reply :=
  if 8 ≤ j.part ∨ 256 ≤ j.model ∨ 8 ≤ j.cls ∨ 16 ≤ j.priority ∨ 2 ^ 64 ≤ j.request ∨ 2 ^ 64 ≤ j.seed then malformed s
  else match servCtx s j.part with
    | none => denied s
    | some x => match joinRefused s x j with
      | some r => (s, some ⟨stJoinRefused, [BitVec.ofNat 64 r], []⟩)
      | none => match (entriesOf s j.part).find? (fun e => (getStream s e).isNone) with
        | none => (s, some ⟨stJoinRefused, [5], []⟩)
        | some e =>
          let v : Stream :=
            { st := 1, part := j.part, model := j.model, cls := j.cls, priority := j.priority, fellBack := false, length := 0
              prompt := j.prompt, decLeft := j.newTokens, request := j.request, seed := j.seed
              tokbuf := j.tokHandle % 16384 + 16384 * j.tokOffset, pmap := j.pmHandle % 16384 + 16384 * j.pmOffset, deadline := 0
              predict := 0, emitted := 0, sess := sess, flying := false, cancelled := false, missed := false, joined := beat s
              redo := 0, pages := [] }
          (setStream s e (some v), some ⟨stOk, [BitVec.ofNat 64 e], []⟩)

/-- CANCEL: the entry is LEAVING; with a row in flight it leaves once the row is back (R408, R415). -/
def cancelStream (s : State) (request : Nat) : Reply :=
  match s.streams.find? (fun e => match e.2 with
    | some v => v.request == request && v.st != 6 && !v.cancelled
    | none => false) with
  | some (e, some v) => okay (setStream s e (some { v with st := 6, cancelled := v.flying }))
  | _ => denied s

/-- MODEL: register, unregister or pin. -/
def modelReq (s : State) (m : ModelReq) : Reply :=
  match m with
  | .register id part backing bytes layers pinned =>
    if 256 ≤ id ∨ 8 ≤ part ∨ 2 ^ 40 ≤ bytes ∨ 256 ≤ layers then malformed s
    else if (getModel s id).isSome ∨ training s part then denied s
    else if !(decide (l2Base ≤ backing) && decide (backing + bytes ≤ l2End)) ∨ (firstBad s (some part) backing bytes).isSome then
      (s, plainAnswer stBound)
    else okay (setModel s id (some ⟨part, layers, bytes, backing, pinned, 0, 0, 0⟩))
  | .unregister id =>
    match getModel s id with
    | none => denied s
    | some v =>
      if modelFlying s v.part id || (streamsOf s v.part).any (fun e => e.2.model == id) || regionBusy s v.part v.hot v.bytes then denied s
      else okay (setModel (if v.st = 2 then evict s v.part id else s) id none)
  | .pin id on =>
    match getModel s id with
    | none => denied s
    | some v => okay (setModel s id (some { v with pinned := on }))

end Sys2Proof.Machine
end

