-- ==== Sys2Proof/Machine/TaskEnd.lean ====
section
/-! DEFINITION. The end of a task (R48, R114, R202, R278, R410). -/

namespace Sys2Proof.Machine

/-- What the end of a task means for the message or the chunk that it handled. -/
def kindEnded (s : State) (x l : Nat) (r : Running) : State :=
  match r.task.kind with
  | .plain => s
  | .ringHandler ring m epoch => handlerEnded s ring m epoch r.acked
  | .optHandler p c => handlerDone s x l p c

/-- What it means for the cell or the window that it is bound to. -/
def boundEnded (s : State) (x : Nat) (b : Bound) : State :=
  match b with
  | .none => s
  | .cell c => cellTaskEnded s c
  | .window p w => if windowTasks s x p w then s else windowEnded s p w

/-- Whether a core's task has executed K.END and every instruction that it issued has completed (R48). -/
def taskOver (r : Running) : Bool := r.ended && r.quiet && r.seq.isNone

/-- The task leaves its core with whatever posts it has not consumed, and the forager takes the next (R48, R114). -/
def endTask (s : State) (x l : Nat) (r : Running) : State :=
  dispatchCore (boundEnded (kindEnded (setRun s x l none) x l r) x r.task.bound) x l

/-- TASK_END_COMPLETE (R114). -/
def execTaskEndComplete (x l : Nat) (s : State) : Host.Outcome State Fault Refusal :=
  match getRun s x l with
  | some r => .next (if taskOver r && runningCtx s x then endTask s x l r else s)
  | none => .next s

end Sys2Proof.Machine
end

