-- ==== Sys2Proof/Machine/Trust.lean ====
section
/-! DEFINITION. Propolis (R459 to R468): firmware images and their verification, the commands of PRP_CMD, keys and the attestation
report. The algorithms stand in Sha, Curve, Lms and KeyWrap; the part's secrets and its key generation are constants of Config (log
entry 9). -/

namespace Sys2Proof.Machine

/-! ### The staged image (R450, R460, R465) -/

/-- The image that UPLOAD or the I3C target has staged. -/
def stagedImage (s : State) : List Byte := ((s.uploads.find? (fun u => u.kind == 1)).map Upload.bytes).getD []

/-- Nothing is staged. -/
def dropImage (s : State) : State := { s with uploads := s.uploads.filter (fun u => u.kind != 1) }

def imgSvn (b : List Byte) : Nat := leField b 12 1
def imgEcdsa (b : List Byte) : Nat := leField b 13 1 % 8
def imgLms (b : List Byte) : Nat := leField b 13 1 / 16 % 8
def imgBodyLen (b : List Byte) : Nat := leField b 16 4
def imgHeader (b : List Byte) : List Byte := b.take 4096
def imgBody (b : List Byte) : List Byte := (b.drop 4096).take (imgBodyLen b)
def imgBlock (b : List Byte) : List Byte := b.drop (4096 + imgBodyLen b)
def imgSigned (b : List Byte) : List Byte := b.take (4096 + imgBodyLen b)
def sliceOf (b : List Byte) (o n : Nat) : List Byte := (b.drop o).take n
def allZero (b : List Byte) : Bool := b.all (· == 0)

/-- Check 1 of R461: MAGIC, FORMAT, reserved bytes, lengths, MIN_HERITAGE, and the ranges that R460 gives SVN and ENTRY. -/
def imgFormatOk (s : State) (b : List Byte) : Bool :=
  let n := imgBodyLen b
  decide (sliceOf b 0 8 = [0x45, 0x4E, 0x4D, 0x36, 0x34, 0x30, 0x38, 0x46])
    && leField b 8 2 == 1 && decide (leField b 10 2 ≤ fld s Reg.HERITAGE_LEVEL Fld.HERITAGE_LEVEL_LEVEL)
    && leField b 13 1 &&& 0x88 == 0 && leField b 14 2 == 0 && allZero (sliceOf b 228 3868)
    && decide (n % 4096 = 0) && decide (n ≤ 33546240) && decide (b.length = 4096 + n + 2768) && decide (b.length ≤ 33554432)
    && decide (imgSvn b ≤ 64) && decide (leField b 20 4 < n)

/-- F: the security-version fuses blown (R461). -/
def svnFused (s : State) : Nat := s.prp.svn

/-- Whether a signing slot is revoked (R462). -/
def slotRevoked (s : State) (lms : Bool) (k : Nat) : Bool := (if lms then s.prp.lmsRev else s.prp.ecdsaRev).testBit k

/-- The hash that a slot's fuses hold (R462). -/
def fusedHash (lms : Bool) (k : Nat) : BitVec 384 := sha384 (Config.slotKey lms k)

/-- Whether a slot signed a statement (R463, R466). -/
def slotVerify (lms : Bool) (k : Nat) (msg sig : List Byte) : Bool :=
  if lms then lmsVerify (Config.slotKey lms k) msg sig else ecdsaVerify (Config.slotKey lms k) msg sig

/-- Checks 3 and 4 of R461 for one scheme: the cause, if it fails. -/
def slotCause (s : State) (lms : Bool) (k : Nat) (pub msg sig : List Byte) : Option Nat :=
  if slotRevoked s lms k then some 2
  else if sha384 pub ≠ fusedHash lms k then some 3
  else if !(if lms then lmsVerify pub msg sig else ecdsaVerify pub msg sig) then some 4
  else none

/-- The records of R461 and R470. -/
def ecdsaRec (s : State) (b : List Byte) (cause : Nat) : ErrRec := plainRec 0x0B01 sevFatal (imgEcdsa b) cause (leField b 0 8) (bootMode s) 0
def lmsRec (s : State) (b : List Byte) (cause : Nat) : ErrRec := plainRec 0x0B02 sevFatal (imgLms b) cause (leField b 0 8) (bootMode s) 0
def rollbackRec (s : State) (b : List Byte) : ErrRec := plainRec 0x0B03 sevFatal (imgSvn b) (svnFused s) (leField b 0 8) 0 0

/-- The records that verification logs, in the order of R461; none when every step passes. Checks 3 and 4 are both made. -/
def verifyImage (s : State) (b : List Byte) : List ErrRec :=
  if !imgFormatOk s b then [ecdsaRec s b 1]
  else if imgSvn b < svnFused s then [rollbackRec s b]
  else
    let h := imgHeader b
    let k := imgBlock b
    let e := slotCause s false (imgEcdsa b) (sliceOf b 24 96) h (sliceOf k 0 96)
    let l := slotCause s true (imgLms b) (sliceOf b 120 60) h (sliceOf k 96 2672)
    let bad := (e.map (ecdsaRec s b)).toList ++ (l.map (lmsRec s b)).toList
    if !bad.isEmpty then bad
    else if leBytes 48 (sha384 (imgBody b)).toNat ≠ sliceOf b 180 48 then [ecdsaRec s b 5]
    else []

/-! ### Keys (R467) -/

def bytes48 (v : BitVec 384) : List Byte := leBytes 48 v.toNat

/-- The DeviceID key. -/
def cdiRom : BitVec 384 := hmac384 Config.uds Config.bootRomDigest
def deviceKey : BitVec 384 := Config.keyGen cdiRom

/-- M of R467 for an image. -/
def measureOf (s : State) (digest : BitVec 384) (svn : Nat) : BitVec 384 :=
  sha384 (bytes48 digest ++ leBytes 1 svn ++ leBytes 1 (svnFused s) ++ leBytes 1 (bootMode s)
    ++ leBytes 1 (fld s Reg.PRP_STATUS Fld.PRP_STATUS_DEBUG))

/-- The alias key of a boot. -/
def aliasFor (m nonce : BitVec 384) : BitVec 384 :=
  Config.keyGen (hmac384 (bytes48 (hmac384 (bytes48 cdiRom) (bytes48 m))) (bytes48 nonce))

/-! ### The challenge nonce (R466, R473) -/

def prpNonce (s : State) : List Byte := (List.range 6).flatMap (fun i => leBytes 8 (rd s (Reg.PRP_NONCE i)).toNat)

/-- No challenge is open: PRP_NONCE reads zero. -/
def closeChallenge (s : State) : State := setDigest { s with prp := { s.prp with challenge := false } } Reg.PRP_NONCE 0

/-- A fresh nonce from the true random generator. -/
def openChallenge (s : State) : State :=
  setDigest { s with prp := { s.prp with challenge := true }, free := s.free + 1 } Reg.PRP_NONCE (Config.random384 s.free)

/-! ### BOOT_GO (R461, R512) -/

/-- Whether a boot of this device has passed BOOT_GO. -/
def booted (s : State) : Bool := flg s Reg.PRP_STATUS Fld.PRP_STATUS_IMAGE_OK

/-- Verification starts; any challenge ends (R466). `who` is the session and tag to answer, none for I3C. -/
def startVerify (s : State) (who : Option (Nat × Nat)) : State :=
  let s := closeChallenge (setBootPhase s 4)
  { s with prp := { s.prp with verifying := some who } }

/-- BOOT_GO: PHASE 0x03 only (R512). -/
def bootGo (s : State) (sess tag : Nat) : Reply :=
  if bootPhase s = 3 then (startVerify s (some (sess, tag)), none) else denied s

/-- The image is accepted: loaded into hub SRAM and write-locked, the alias key derived, the firmware started (R459, R467, R512). -/
def acceptImage (s : State) (b : List Byte) : State :=
  let digest := sha384 (imgSigned b)
  let nonce := Config.random384 s.free
  let m := measureOf s digest (imgSvn b)
  let prp := { s.prp with verifying := none, image := b, bootNonce := nonce, measure := m, aliasKey := aliasFor m nonce }
  let s := dropImage { s with free := s.free + 1, prp := prp }
  let r := Reg.PRP_STATUS
  let s := setFld (setFld s r Fld.PRP_STATUS_IMAGE_OK 1) r Fld.PRP_STATUS_LOCKED 1
  let s := setFld (setFld (setFld s r Fld.PRP_STATUS_SVN_IMAGE (imgSvn b)) r Fld.PRP_STATUS_ECDSA_SLOT (imgEcdsa b)) r Fld.PRP_STATUS_LMS_SLOT (imgLms b)
  startDue (setBootPhase (setDigest s Reg.FW_DIGEST digest) 5)

/-- The image is rejected and discarded; FAULT 1, and the boot ROM waits for another (R461, R512). -/
def rejectImage (s : State) (rs : List ErrRec) : State :=
  let s := dropImage { s with prp := { s.prp with verifying := none } }
  let s := rs.foldl raise s
  setBootPhase (setBootFault s 1) (if bootMode s = 1 then 0x0A else 3)

/-- A record as it is logged now, for the payload of REFUSED (R449). -/
def loggedAs (s : State) (r : ErrRec) : List Byte := errBytes { r with seq := s.recSeq, beat := beat s }

/-- IMAGE_VERIFICATION_DONE (R461). Where both signatures fail, REFUSED carries the record logged first. -/
def execImageVerificationDone (s : State) : Host.Outcome State Fault Refusal :=
  match s.prp.verifying with
  | none => .next s
  | some who =>
    let b := stagedImage s
    let (s', a) := match verifyImage s b with
      | [] => (acceptImage s b, (⟨stOk, [], []⟩ : Answer))
      | r :: rs => (rejectImage s (r :: rs), ⟨stRefused, [], loggedAs s r⟩)
    match who with
    | some (sess, tag) => .next (answer s' sess 0x31 tag a)
    | none => .next s'

/-! ### PRP_CMD (R463 to R466) -/

/-- PRP_STATUS shows the fuses. -/
def fuseSync (s : State) : State :=
  let r := Reg.PRP_STATUS
  setFld (setFld (setFld s r Fld.PRP_STATUS_SVN_FUSED s.prp.svn) r Fld.PRP_STATUS_ECDSA_REVOKED s.prp.ecdsaRev) r
    Fld.PRP_STATUS_LMS_REVOKED s.prp.lmsRev

/-- A statement is signed by one unrevoked slot of each scheme. -/
def dualSigned (s : State) (msg : List Byte) (e l : Nat) (sigE sigL : List Byte) : Bool :=
  !slotRevoked s false e && !slotRevoked s true l && slotVerify false e msg sigE && slotVerify true l msg sigL

def uidBytes (s : State) : List Byte := leBytes 8 (rd s Reg.FAB_UID).toNat

/-- The slots of a scheme that are not revoked. -/
def slotsLeft (s : State) (lms : Bool) : List Nat := selectBelow 8 (fun k => !slotRevoked s lms k)

/-- The statement of REVOKE: FAB_UID, "REVOKE", scheme, slot, the PRP nonce. -/
def revokeMsg (s : State) (lms : Bool) (k : Nat) : List Byte :=
  uidBytes s ++ [0x52, 0x45, 0x56, 0x4F, 0x4B, 0x45] ++ leBytes 1 (bnat lms) ++ leBytes 1 k ++ prpNonce s

/-- PRP_CMD REVOKE (R463). -/
def prpRevoke (s : State) (lms : Bool) (k e l : Nat) (sigE sigL : List Byte) : Reply :=
  if 8 ≤ k ∨ 8 ≤ e ∨ 8 ≤ l then malformed s
  else if (if lms then l else e) = k ∨ dualSigned s (revokeMsg s lms k) e l sigE sigL = false then denied s
  else if slotsLeft s lms = [k] then denied s
  else okay (fuseSync { s with prp := if lms then { s.prp with lmsRev := s.prp.lmsRev ||| 1 <<< k }
                                      else { s.prp with ecdsaRev := s.prp.ecdsaRev ||| 1 <<< k } })

/-- PRP_CMD SVN_COMMIT (R464). -/
def prpSvnCommit (s : State) : Reply :=
  if booted s then okay (fuseSync { s with prp := { s.prp with svn := max s.prp.svn (fld s Reg.PRP_STATUS Fld.PRP_STATUS_SVN_IMAGE) } })
  else denied s

/-- Whether debug may be unlocked: BOOT_MODE 0b10, before BOOT_GO (R465, R466). -/
def debugOpen (s : State) : Bool := bootMode s == 2 && decide (bootPhase s ≤ 3) && !booted s

/-- PRP_CMD DEBUG_CHALLENGE (R466). -/
def prpChallenge (s : State) : Reply :=
  if debugOpen s then
    let s := openChallenge s
    (s, some ⟨stOk, [], prpNonce s⟩)
  else denied s

/-- A debug response: valid within the open challenge and under both signatures. The nonce ends either way (R466). -/
def debugResponse (s : State) (scope e l : Nat) (sigE sigL : List Byte) : State × Bool :=
  let msg := uidBytes s ++ prpNonce s ++ leBytes 1 scope
  let ok := debugOpen s && s.prp.challenge && dualSigned s msg e l sigE sigL
  let s := closeChallenge s
  if ok then (setFld s Reg.PRP_STATUS Fld.PRP_STATUS_DEBUG scope, true) else (setFld s Reg.PRP_STATUS Fld.PRP_STATUS_DEBUG_DENIED 1, false)

/-- PRP_CMD DEBUG_RESPONSE (R466). -/
def prpResponse (s : State) (scope e l : Nat) (sigE sigL : List Byte) : Reply :=
  if 8 ≤ scope ∨ 8 ≤ e ∨ 8 ≤ l then malformed s
  else
    let (s, ok) := debugResponse s scope e l sigE sigL
    if ok then okay s else denied s

/-! ### Attestation (R468) and KEY_INSTALL (R444) -/

def digestOf (s : State) (r : Nat → Nat) : List Byte := (List.range 6).flatMap (fun i => leBytes 8 (rd s (r i)).toNat)

/-- PLC_DIGEST of the context named, or zero (R129). -/
def plcDigestOf (s : State) (c : Option Nat) : List Byte :=
  match c with
  | none => List.replicate 48 0
  | some x =>
    if flg s Reg.PLC_DIGEST_CTX Fld.PLC_DIGEST_CTX_VALID && fld s Reg.PLC_DIGEST_CTX Fld.PLC_DIGEST_CTX_CONTEXT == x then digestOf s Reg.PLC_DIGEST
    else List.replicate 48 0

/-- Bytes 0 to 255 of the report. -/
def reportBody (s : State) (nonce : List Byte) (c : Option Nat) : List Byte :=
  nonce ++ uidBytes s ++ leBytes 8 (rd s Reg.DEV_ID).toNat ++ leBytes 8 (rd s Reg.STEPPING).toNat
    ++ leBytes 8 (rd s Reg.HERITAGE_LEVEL).toNat ++ digestOf s Reg.FW_DIGEST ++ digestOf s Reg.CFG_DIGEST ++ plcDigestOf s c
    ++ leBytes 1 (fld s Reg.PRP_STATUS Fld.PRP_STATUS_SVN_IMAGE) ++ leBytes 1 (svnFused s) ++ leBytes 1 (bootMode s)
    ++ leBytes 1 (fld s Reg.PRP_STATUS Fld.PRP_STATUS_DEBUG) ++ leBytes 1 (fld s Reg.OVERLAY_LIST Fld.OVERLAY_LIST_COUNT)
    ++ leBytes 1 (c.getD 0) ++ leBytes 2 0 ++ leBytes 8 (rd s Reg.HUM_BEAT).toNat ++ leBytes 16 0

/-- The alias key, M and the SHA-384 of the boot nonce; before a BOOT_GO has succeeded the spec states none of them. -/
def aliasNow (s : State) : BitVec 384 × BitVec 384 × BitVec 384 × State :=
  if booted s then (s.prp.aliasKey, s.prp.measure, sha384 (bytes48 s.prp.bootNonce), s)
  else (Config.random384 s.free, Config.random384 (s.free + 1), Config.random384 (s.free + 2), { s with free := s.free + 3 })

/-- ATTEST (R468): the report, the alias certificate, the identity certificate. -/
def attest (s : State) (nonce : List Byte) (c : Option Nat) : Reply :=
  if nonce.length ≠ 48 ∨ 64 ≤ c.getD 0 then malformed s
  else
    let body := reportBody s nonce c
    let (key, m, nonceHash, s) := aliasNow s
    let cert := Config.aliasCert deviceKey (publicKey key) m nonceHash
    (s, some ⟨stOk, [], body ++ Config.ecdsaSign key body ++ cert ++ Config.identityCert⟩)

/-- KEY_INSTALL: the SAK of an association and a direction, its packet numbers from the start (R444). -/
def keyInstall (s : State) (an : Nat) (tx : Bool) (hostKey wrapped : List Byte) : Reply :=
  if 2 ≤ an ∨ hostKey.length ≠ 96 ∨ wrapped.length ≠ 40 then malformed s
  else match unwrapSak s.prp.aliasKey hostKey wrapped with
    | none => denied s
    | some k =>
      let e := s.eth
      let keys := (an, tx, k) :: e.keys.filter (fun v => !(v.1 == an && v.2.1 == tx))
      let e := if tx then { e with keys := keys, txPn := e.txPn.filter (fun v => v.1 != an) }
        else { e with keys := keys, rxPn := e.rxPn.filter (fun v => v.1 != an) }
      okay { s with eth := e }

end Sys2Proof.Machine
end

