-- ==== Sys2Proof/Machine/EthLink.lean ====
section
/-! DEFINITION. The host port's link (R441 to R444, R470), the frames that it lets in, and HELLO (R450, R459). -/

namespace Sys2Proof.Machine

/-! ### The link (R442) -/

def ethState (s : State) : Nat := fld s Reg.ETH_STATUS Fld.ETH_STATUS_STATE

/-- The port trains from the first mode. -/
def ethTrain (s : State) : State :=
  setFld { s with eth := { s.eth with mode := 0, lostAt := beat s, probed := [], dups := [] } } Reg.ETH_STATUS Fld.ETH_STATUS_STATE 1

/-- The lanes of the active group, by bit. -/
def activeLanes (s : State) : Nat := if ethState s = 3 then 0xF <<< (4 * fld s Reg.ETH_STATUS Fld.ETH_STATUS_GROUP) else 0xFF

/-- ETH_LINK_DOWN: a lane of the active group has lost lock (cause 1), or its FEC has reported more than 16 uncorrectable codewords in
a millisecond (cause 2). The port leaves UP and begins its training cycle (R442, R470). -/
def execEthLinkDown (cause : Nat) (report : LaneReport) (s : State) : Host.Outcome State Fault Refusal :=
  let ⟨lanes, codewords⟩ := report
  if ethUp s ∧ (cause = 1 ∧ lanes &&& activeLanes s ≠ 0 ∨ cause = 2 ∧ 16 < codewords) then
    let r := Reg.ETH_STATUS
    let s := raiseDev s 0x0A01 sevError 0 cause (lanes % 256) (beat s - s.eth.upAt) (rd s r).toNat
    let s := bump s Reg.ETH_CNT Fld.ETH_CNT_LINK_DOWNS 1
    let lost (k : Nat) : Bool := cause == 1 && lanes.testBit k
    let s := setFld s r Fld.ETH_STATUS_LANES_OK (ofBits ((bitList 8 (fld s r Fld.ETH_STATUS_LANES_OK)).filter (fun k => !lost k)))
    .next (ethTrain { s with eth := { s.eth with failed := lanes % 256 } })
  else .next s

/-- ETH_MODE_TIMEOUT: the next mode is tried (R442). -/
def execEthModeTimeout (s : State) : Host.Outcome State Fault Refusal :=
  if ethState s = 1 then .next { s with eth := { s.eth with mode := (s.eth.mode + 1) % 3 } } else .next s

/-- The port is UP; the first time, the boot ROM goes on to announce the device (R512). -/
def ethComesUp (s : State) (st group lanes : Nat) : State :=
  let r := Reg.ETH_STATUS
  let s := setFld (setFld (setFld s r Fld.ETH_STATUS_STATE st) r Fld.ETH_STATUS_GROUP group) r Fld.ETH_STATUS_LANES_OK lanes
  let s := { s with eth := { s.eth with upAt := beat s } }
  if bootPhase s = 1 then setBootPhase s 2 else s

/-- ETH_LINK_UP: 800GBASE-DR8 comes up (R442). -/
def execEthLinkUp (s : State) : Host.Outcome State Fault Refusal :=
  if ethState s = 1 ∧ s.eth.mode = 0 then .next (ethComesUp s 2 0 0xFF) else .next s

/-- ETH_FALLBACK_400G: 400GBASE-DR4 comes up on one lane group (R442, R470). -/
def execEthFallback400g (group lanesFailed : Nat) (s : State) : Host.Outcome State Fault Refusal :=
  if ethState s = 1 ∧ group < 2 ∧ s.eth.mode = group + 1 then
    let s := raiseDev s 0x0A02 sevCorrected group (lanesFailed % 256) (beat s - s.eth.lostAt) 0 0
    let s := bump s Reg.ETH_CNT Fld.ETH_CNT_FALLBACKS 1
    .next (ethComesUp { s with eth := { s.eth with failed := lanesFailed % 256 } } 3 group (0xF <<< (4 * group)))
  else .next s

/-- A write of ETH_CMD.RETRAIN: the port leaves fallback and trains from 800GBASE-DR8 (R442, R471). -/
def ethRetrain (s : State) : State := if ethState s = 3 then ethTrain s else s

/-- ETH_CMD_RETRAIN. -/
def execEthCmdRetrain (s : State) : Host.Outcome State Fault Refusal := .next (ethRetrain s)

/-- MACsec is in force, or no longer, from the next frame on (R444). -/
def secSwitch (s : State) (on : Bool) : State :=
  setFld (setFld s Reg.ETH_SEC Fld.ETH_SEC_EN (bnat on)) Reg.ETH_STATUS Fld.ETH_STATUS_SEC_ACTIVE (bnat on)

/-- ETH_SEC_ENABLE_WRITE. -/
def execEthSecEnableWrite (on : Bool) (s : State) : Host.Outcome State Fault Refusal := .next (secSwitch s on)

/-! ### Frames from the host (R441, R444) -/

/-- The highest packet number received on an association. -/
def rxPn (s : State) (an : Nat) : Nat := (s.eth.rxPn.lookup an).getD 0

/-- The SAK of an association and a direction. -/
def sakOf (s : State) (an : Nat) (tx : Bool) : Option (List Byte) :=
  (s.eth.keys.find? (fun k => k.1 == an && k.2.1 == tx)).map (fun k => leBytes 32 k.2.2.toNat)

/-- AN of a SecTAG, and whether it announces an SCI and encrypted data. -/
def tagAn (t : SecTag) : Nat := t.octet % 4
def tagHasSci (t : SecTag) : Bool := t.octet.testBit 5
def tagEncrypted (t : SecTag) : Bool := t.octet.testBit 3

/-- The addresses and the SecTAG as bytes (IEEE 802.1AE). -/
def secHeader (f : EthFrame) (t : SecTag) : List Byte :=
  beBytes 6 f.dst ++ beBytes 6 f.src ++ [0x88, 0xE5] ++ beBytes 1 t.octet ++ beBytes 1 t.sl ++ beBytes 4 t.pn
    ++ (if tagHasSci t then beBytes 8 t.sci else [])

/-- Whether the check value of a frame is that of its association's SAK: GCM-AES-256 with the SCI and the packet number as the IV. -/
def secVerifies (s : State) (f : EthFrame) (t : SecTag) : Bool :=
  match sakOf s (tagAn t) false with
  | none => false
  | some key =>
    let h := secHeader f t
    t.icv == gcmTag key (beBytes 8 (ownSci s) ++ beBytes 4 t.pn) (if tagEncrypted t then h else h ++ t.data) (if tagEncrypted t then t.data else [])

/-- Whether a SecTAG is valid: version 0, an association the channel has, its SCI where it carries one, a packet number of 32 bits. -/
def secTagValid (s : State) (t : SecTag) : Bool :=
  decide (t.octet < 128) && decide (tagAn t < 2) && (!tagHasSci t || t.sci == ownSci s) && decide (0 < t.pn) && decide (t.pn < 2 ^ 32)

/-- Whether a frame passes MACsec: a valid SecTAG, verified, inside the replay window. -/
def secAdmits (s : State) (f : EthFrame) : Bool :=
  match f.sec with
  | some t => secTagValid s t && secVerifies s f t && decide (rxPn s (tagAn t) < t.pn + fld s Reg.ETH_SEC Fld.ETH_SEC_REPLAY)
  | none => false

/-- The packet number of a frame taken. -/
def notePn (s : State) (f : EthFrame) : State :=
  match f.sec with
  | some t =>
    { s with eth := { s.eth with rxPn := (tagAn t, max t.pn (rxPn s (tagAn t))) :: s.eth.rxPn.filter (fun v => v.1 != tagAn t) } }
  | none => s

/-- Whether the port takes what a frame carries: Yalerern to its port and an address of its own or all nodes, PTP while PTP_EN is 1,
ARP, NDP, and echo requests to its own addresses. -/
def bodyFits (s : State) : EthBody → Bool
  | .udp d p _ => p == fld s Reg.YLP_CTL Fld.YLP_CTL_PORT && (ownIp s d || d == allNodes)
  | .ptp none => flg s Reg.HUM_CTL Fld.HUM_CTL_PTP_EN
  | .ptp (some (d, p)) => flg s Reg.HUM_CTL Fld.HUM_CTL_PTP_EN && (p == 319 || p == 320) && (ownIp s d || ptpGroup d)
  | .arp _ | .solicit _ | .advert _ => true
  | .echo d => ownIp s d
  | .other => false

/-- Whether a frame uses only what R441 supports. -/
def frameFits (s : State) (f : EthFrame) : Bool :=
  let vlan := if flg s Reg.ETH_CTL Fld.ETH_CTL_VLAN_EN then decide (f.vlan = some (fld s Reg.ETH_CTL Fld.ETH_CTL_VLAN_ID)) else f.vlan.isNone
  macAccepted s f.dst && decide (64 ≤ f.len) && decide (f.len ≤ 9216) && vlan && f.checksumOk && !f.fragment && bodyFits s f.body
    && (secOn s || f.sec.isNone)

/-- A frame arrives: what it leaves of the counters, and whether it goes on. -/
def admitFrame (s : State) (f : EthFrame) : State × Bool :=
  if !ethUp s then (s, false)
  else if secOn s && !secAdmits s f then (bump s Reg.ETH_SECCNT Fld.ETH_SECCNT_DROPPED 1, false)
  else
    let s := if secOn s then notePn s f else s
    if frameFits s f then (s, true) else (bump s Reg.ETH_CNT Fld.ETH_CNT_DROPPED 1, false)

/-- ARP, NDP and echo requests for the device's own addresses are answered (R443). -/
def answerFrame (s : State) (echo forUs : Bool) : State :=
  if forUs then
    let (s, left) := frameOut 1 s
    if left then emit s (.answered echo) else s
  else s

/-- Another device advertises an address: one of the device's own is a duplicate, and not in use (R441, log entry 82). -/
def noteAdvert (s : State) (a : Nat) : State :=
  if (own6 s).contains a then { s with eth := { s.eth with dups := a :: s.eth.dups } } else s

/-! ### HELLO (R450, R459) -/

def helloWords (s : State) : List Word :=
  [rd s Reg.DEV_ID, rd s Reg.STEPPING, rd s Reg.HERITAGE_LEVEL, rd s Reg.FAB_UID, rd s Reg.ETH_MAC, rd s Reg.BOOT_STATUS]

/-- HELLO leaves, in parts. -/
def sendHello (s : State) (tag : Option Nat) : State :=
  sendOut s noSession 0 (.hello tag (helloWords s) Config.identityCert) 0 0

/-- Whether 1,000,000 beats have passed since the last HELLO that announced the device. -/
def helloDue (s : State) : Bool := match s.eth.helloAt with
  | some b => decide (b + 1000000 ≤ beat s)
  | none => true

/-- HELLO: the boot ROM announces the device every 1,000,000 beats until a session is opened (R459). -/
def execHello (s : State) : Host.Outcome State Fault Refusal :=
  if bootPhase s = 2 ∧ openSessions s = [] ∧ helloDue s then
    .next (sendHello { s with eth := { s.eth with helloAt := some (beat s) } } none)
  else .next s

/-- DISCOVER is answered by HELLO (R450). -/
def execDiscover (tag : Nat) (s : State) : Host.Outcome State Fault Refusal := .next (sendHello s (some tag))

end Sys2Proof.Machine
end

