-- ==== Sys2Proof/Machine/MemUnits.lean ====
section
/-! DEFINITION. The memory units that act by themselves: HBM row repair, the patrol scrub and the comb-store flush (R140,
R146, R158, R159). -/

namespace Sys2Proof.Machine

/-- The device address of byte `q` of pseudo-channel `pc` (R140). -/
def pcAddr (s : State) (pc q : Nat) : Nat :=
  let d := pc / 64
  let v := hbmSetOf s d (pc % 64)
  0x2800000000 * d + v.1 * 0xA0000000 + ((q / 4096) * v.2 + (pc % 64 - v.1)) * 4096 + q % 4096

/-- The partition that owns a pseudo-channel. -/
def pcOwner (s : State) (pc : Nat) : Option Nat := (selectBelow 8 (fun p => hbmOwned s p (pc / 64) (pc % 64))).head?

/-- A pseudo-channel owned by no partition with a resident context (R158). -/
def pcFree (s : State) (pc : Nat) : Bool :=
  match pcOwner s pc with
  | some p => (ctxsOf s p).isEmpty
  | none => true

/-- The Keeper repairs a listed row (R158): zero is written to the replacement row. -/
def execHbmRowRepair (e : Nat) (resource : Bool) (s : State) : Host.Outcome State Fault Refusal :=
  let a := Reg.MEM_PPR_LIST e
  let pc := fld s a Fld.MEM_PPR_LIST_PC
  if e < 64 && flg s Reg.MEM_PPR_CTL Fld.MEM_PPR_CTL_AUTO && flg s a Fld.MEM_PPR_LIST_VALID && !flg s a Fld.MEM_PPR_LIST_DONE
      && !flg s a Fld.MEM_PPR_LIST_FAILED && pcFree s pc then
    if resource then
      let q := Config.rowPlace (fld s a Fld.MEM_PPR_LIST_BANK) (fld s a Fld.MEM_PPR_LIST_ROW) % (0xA0000000 / 1024) * 1024
      .next (setFld (writeBytes s (pcAddr s pc q) (List.replicate 1024 0)) a Fld.MEM_PPR_LIST_DONE 1)
    else .next (setFld s a Fld.MEM_PPR_LIST_FAILED 1)
  else .next s

/-- A patrol read meets an error in its memory (R157, R159). -/
def execPatrolScrubRead (ecc : EccEvent) (s : State) : Host.Outcome State Fault Refusal :=
  let on := if ecc.addr < hbmEnd then flg s Reg.MEM_SCRUB Fld.MEM_SCRUB_HBM_EN
    else decide (l2Base ≤ ecc.addr) && decide (ecc.addr < l2End) && flg s Reg.MEM_SCRUB Fld.MEM_SCRUB_L2_EN
  if on then .next (eccMemory 0 s ecc) else .next s

/-- A flush of the partitions in a mask (R146): their lines are written back and invalidated, and BUSY stays until CMB_FLUSH_DONE.
DESIGN CHOICE (log entry 11): the lines go as the flush begins. -/
def startFlush (s : State) (mask : Nat) : State :=
  setFld (combDrop s (fun c => mask.testBit c.part)) Reg.CMB_STATUS Fld.CMB_STATUS_BUSY
    (fld s Reg.CMB_STATUS Fld.CMB_STATUS_BUSY ||| (mask % 256))

def execCmbFlush (mask : Nat) (s : State) : Host.Outcome State Fault Refusal := .next (startFlush s mask)

/-- A partition's flush is done (R146). -/
def execCmbFlushDone (p : Nat) (s : State) : Host.Outcome State Fault Refusal :=
  let b := fld s Reg.CMB_STATUS Fld.CMB_STATUS_BUSY
  .next (setFld s Reg.CMB_STATUS Fld.CMB_STATUS_BUSY (ofBits ((bitList 8 b).filter (· != p))))

end Sys2Proof.Machine
end

