-- ==== Sys2Proof/Machine/RegWrite.lean ====
section
/-! DEFINITION. Writes of control-window registers by access type (R451, R495, R497, R498), what a write sets off, and the error log
(R433 to R437, R504, R505). -/

namespace Sys2Proof.Machine

/-! ### One write (R451, R495) -/

/-- PLC_STATUS.LOCKED. -/
def regsLocked (s : State) : Bool := flg s Reg.PLC_STATUS Fld.PLC_STATUS_LOCKED

/-- A field of a register as a write of `value` under `mask` leaves it (R495). -/
def writeField (locked : Bool) (mask value : Word) (w : Word) (f : FieldDef) : Word :=
  let m := maskF ⟨f.lo, f.w⟩ &&& mask
  if f.reserved then w
  else match f.acc with
    | .rw => (w &&& ~~~m) ||| (value &&& m)
    | .rwl => if locked then w else (w &&& ~~~m) ||| (value &&& m)
    | .w1c => w &&& ~~~(value &&& m)
    | .ro | .wo => w

/-- A register as a write leaves it. -/
def writeWord (locked : Bool) (d : RegDef) (mask value old : Word) : Word := d.fields.foldl (writeField locked mask value) old

/-- The reserved bits of a register. -/
def reservedMask (d : RegDef) : Word := d.fields.foldl (fun m f => if f.reserved then m ||| maskF ⟨f.lo, f.w⟩ else m) 0

/-- A command's effect, as part of another's. -/
def effectOf (s : State) (o : Host.Outcome State Fault Refusal) : State :=
  match o with
  | .next t => t
  | _ => s

/-- The fields of a WO register act as their descriptions state. -/
def writeActions (s : State) (a : Nat) (v : Word) : State :=
  if a = Reg.HUM_SET then effectOf s (execHumSetWrite v s)
  else if a = Reg.PWR_CMD then
    let s := if bitOf 0 v then effectOf s (execPwrCmdAvsRetry s) else s
    if bitOf 1 v then effectOf s (execPwrCmdSensorRetry s) else s
  else if a = Reg.ETH_CMD then (if bitOf 0 v then ethRetrain s else s)
  else if a = Reg.FAB_CMD then (if bitOf 0 v then effectOf s (execFabCmdStart s) else s)
  else if a = Reg.CMB_FLUSH then startFlush s (bitsOf 7 0 v)
  else if a = Reg.CKP_CMD then
    let p := bitsOf 4 2 v
    let s := if bitOf 0 v then effectOf s (execCkpCmdDeclare p (bitsOf 18 5 v) s) else s
    if bitOf 1 v then effectOf s (execCkpCmdTakeover p s) else s
  else match (List.range 16).find? (fun k => Reg.FAB_PCTLk k == a) with
    | some k => if bitOf 2 v then effectOf s (execFabPctlRetrain k s) else s
    | none => s

/-- The units that follow a page's fields. -/
def writeFollows (old : State) (a : Nat) (s : State) : State :=
  let page := a / 0x1000
  if page = 0x03 then humSync s
  else if page = 0x06 then (if a = Reg.ETH_SEC then secSwitch s (flg s Reg.ETH_SEC Fld.ETH_SEC_EN) else s)
  else if 0x08 ≤ page ∧ page ≤ 0x0B then fabricSync s
  else if page = 0x17 then alertSync old s
  else s

/-- Whether a value may be written to ERR_LOG_RD: it does not pass ERR_LOG_WR, and does not step back (R505). -/
def logRdOk (s : State) (v : Nat) : Bool :=
  let n := fld s Reg.ERR_LOG_WR Fld.ERR_LOG_WR_COUNT
  let unread := (n + 2 ^ 32 - fld s Reg.ERR_LOG_RD Fld.ERR_LOG_RD_COUNT) % 2 ^ 32
  decide ((n + 2 ^ 32 - v % 2 ^ 32) % 2 ^ 32 ≤ unread)

/-- Whether a register is a counter of a core that is RETIRED or SPARE, which stays at its reset value (R507, log entry 85). -/
def idleCounter (s : State) (a : Nat) : Bool :=
  let c := a / 0x1000 - 0x20
  decide (0x20000 ≤ a) && decide (a < 0x68000) && (a == Reg.BLOCK_LOSS c || a == Reg.SAT_COUNT c)
    && fld s (Reg.CORE_STATUS c) Fld.CORE_STATUS_STATE != 0

/-- The store: ERR_LOG_RD only under R505; clearing EXC_SITE.VALID clears the whole register and EXC_SITE_PC (R85). -/
def writeStore (s : State) (a : Nat) (mask value new : Word) : State :=
  let c := a / 0x1000 - 0x20
  if a = Reg.ERR_LOG_RD then (if logRdOk s (getF Fld.ERR_LOG_RD_COUNT new) then storeReg s a new else s)
  else if 0x20 ≤ a / 0x1000 ∧ a = Reg.EXC_SITE c ∧ bitOf 63 (mask &&& value) then wr (wr s a 0) (Reg.EXC_SITE_PC c) 0
  else if idleCounter s a then s
  else storeReg s a new

/-- A write of a register by the host or the Keeper; reserved space takes none (R497). -/
def writeReg (s : State) (a : Nat) (mask value : Word) : State :=
  match regDefAt a with
  | none => s
  | some d =>
    let new := writeWord (regsLocked s) d mask value (storedReg s a)
    writeActions (writeFollows s a (writeStore s a mask value new)) a (mask &&& value)

/-- REGISTER_WRITE: `addr` is the register's offset in the control window. -/
def execRegisterWrite (addr : Nat) (mask value : Word) (s : State) : Host.Outcome State Fault Refusal := .next (writeReg s addr mask value)

/-- SELECTOR_WRITE (R498). -/
def execSelectorWrite (addr : Nat) (v : Word) (s : State) : Host.Outcome State Fault Refusal :=
  if selectors.contains addr then .next (writeReg s addr (~~~0) v) else .next s

/-- ERR_LOG_RD_WRITE (R505). -/
def execErrLogRdWrite (v : Nat) (s : State) : Host.Outcome State Fault Refusal :=
  .next (writeReg s Reg.ERR_LOG_RD (~~~0) (BitVec.ofNat 64 (v % 2 ^ 32)))

/-! ### The error log (R435 to R437) -/

/-- ERR_STICKY takes a record's class, and FATAL (R436); its severity is counted (R504). -/
def noteRecord (s : State) (r : ErrRec) : State :=
  let c := r.code / 256 % 32
  let s := if 1 ≤ c ∧ c ≤ 21 then setFld s Reg.ERR_STICKY ⟨c, 1⟩ 1 else s
  let s := if r.sev = 3 then setFld s Reg.ERR_STICKY Fld.ERR_STICKY_FATAL 1 else s
  bump s Reg.ERR_SEV_CNT ⟨16 * (r.sev % 4), 16⟩ 1

/-- Records of a code logged in the block of 1,000 beats of a record (R437). -/
def loggedInBlock (s : State) (r : ErrRec) : Nat := Sparse.get 0 s.logRate (r.code + 65536 * (r.beat / 1000))

/-- Whether a record is suppressed (R437). -/
def suppressed (s : State) (r : ErrRec) : Bool :=
  let n := fld s Reg.ERR_RATE Fld.ERR_RATE_LIMIT
  decide (n ≠ 0) && decide (r.sev ≠ 3) && decide (n ≤ loggedInBlock s r)

/-- Whether 4,096 records are unread (R505). -/
def logFull (s : State) : Bool :=
  decide ((fld s Reg.ERR_LOG_WR Fld.ERR_LOG_WR_COUNT + 2 ^ 32 - fld s Reg.ERR_LOG_RD Fld.ERR_LOG_RD_COUNT) % 2 ^ 32 = 4096)

/-- A record is stored in the next slot, or dropped (R435, R505). -/
def storeRecord (s : State) (r : ErrRec) : State :=
  if logFull s then bump s Reg.ERR_LOST Fld.ERR_LOST_COUNT 1
  else
    let n := fld s Reg.ERR_LOG_WR Fld.ERR_LOG_WR_COUNT
    let rate := Sparse.set 0 s.logRate (r.code + 65536 * (r.beat / 1000)) (loggedInBlock s r + 1)
    bumpMod { s with log := Sparse.set none s.log (n % 4096) (some r), logRate := rate } Reg.ERR_LOG_WR Fld.ERR_LOG_WR_COUNT 1

/-- Whether a record's class is placed on the host event queue (R435). -/
def hostWants (s : State) (r : ErrRec) : Bool := (fld s Reg.ERR_HOST_MASK ⟨0, 22⟩).testBit (r.code / 256)

/-- A record reaches the log (R435 to R437). -/
def takeRecord (s : State) (r : ErrRec) : State :=
  let old := s
  let s := alertSync old (noteRecord s r)
  if suppressed s r then bump s Reg.ERR_SUPPRESSED Fld.ERR_SUPPRESSED_COUNT 1
  else
    let s := storeRecord s r
    if hostWants s r then pushEvent s (.record r) else s

/-- ERROR_RECORD_ARRIVAL: the first record on its way. -/
def execErrorRecordArrival (s : State) : Host.Outcome State Fault Refusal :=
  match s.recs with
  | [] => .next s
  | r :: rs => .next (takeRecord { s with recs := rs } r)

end Sys2Proof.Machine
end

