-- ==== Sys2Proof/Machine/HostOps.lean ====
section
/-! DEFINITION. The operations of the host (R447 to R458): the executor that the rows and the messages share, and the rows. -/

namespace Sys2Proof.Machine

/-! ### Sessions (R447, R450, R459) -/

/-- Opens session `n` for an address. -/
def openAs (s : State) (n addr port : Nat) : State :=
  let s := setSess s n (some { addr := addr, port := port, events := false, rx := 0, tx := 0, ack := 0, credit := 1024, unacked := [], heard := beat s })
  let s := bump s Reg.YLP_STAT Fld.YLP_STAT_OPENED 1
  if n = 0 ∧ bootPhase s = 2 then setBootPhase s 3 else s

/-- OPEN: the lowest free session; before the firmware runs only session 0. -/
def openReq (s : State) (addr port : Nat) (secured : Bool) : Reply :=
  if flg s Reg.YLP_CTL Fld.YLP_CTL_REQUIRE_SEC && !secured then denied s
  else match (selectBelow (if booted s then 256 else 1) (fun n => (getSess s n).isNone)).head? with
    | none => (s, plainAnswer stBusy)
    | some n => (openAs s n addr port, some ⟨stOk, [BitVec.ofNat 64 n], []⟩)

/-- CLOSE: answered, then the session is freed. -/
def closeReq (s : State) (sess tag : Nat) : Reply := (endSession (answer s sess 0x04 tag ⟨stOk, [], []⟩) sess, none)

/-- EVENTS: subscribe or unsubscribe (R458). -/
def eventsReq (s : State) (sess : Nat) (on : Bool) : Reply :=
  match getSess s sess with
  | none => (s, plainAnswer stBadSession)
  | some v =>
    let s := setSess s sess (some { v with events := on })
    okay (if on then s else forgetEvents s sess)

/-! ### Registers and memory (R451, R452) -/

/-- Whether an address is that of a 64-bit register's place in the control window. -/
def regAddrOk (a : Nat) : Bool := decide (windowBase ≤ a) && decide (a < windowEnd) && decide (a % 8 = 0)

/-- SRV_POOLn shows what is free when it is read (R417). -/
def poolsNow (s : State) (addrs : List Nat) : State :=
  (List.range 8).foldl (fun s p => if addrs.contains (windowBase + Reg.SRV_POOL p) then poolSync s p else s) s

/-- REG_RD; before the firmware runs, of the ID, KPR and PRP pages only (R450). -/
def regRdReq (s : State) (addrs : List Nat) : Reply :=
  if addrs = [] ∨ 64 < addrs.length then malformed s
  else if addrs.any (fun a => !regAddrOk a) then (s, plainAnswer stBound)
  else if !booted s && addrs.any (fun a => decide (3 ≤ (a - windowBase) / 0x1000)) then denied s
  else
    let s := poolsNow s addrs
    (s, some ⟨stOk, addrs.map (fun a => readReg s (a - windowBase)), []⟩)

/-- What is wrong with an entry of REG_WR (R451). -/
def entryStatus (e : RegEntry) : Option Nat :=
  if !regAddrOk e.addr then some stBound
  else match regDefAt (e.addr - windowBase) with
    | none => none
    | some d => if e.value &&& ~~~e.mask ≠ 0 ∨ e.value &&& reservedMask d ≠ 0 then some stMalformed else none

/-- REG_WR: validated whole, then each entry in order (R451). -/
def regWrReq (s : State) (es : List RegEntry) : Reply :=
  if es = [] ∨ 64 < es.length then malformed s
  else match es.findSome? entryStatus with
    | some st => (s, plainAnswer st)
    | none => okay (es.foldl (fun s e => writeReg s (e.addr - windowBase) e.mask e.value) s)

/-- The length that a memory window takes at most (R446, R452). -/
def windowLen (s : State) (sess : Nat) : Nat := maxLen s (((getSess s sess).map (·.addr)).getD 0)

/-- MEM_RD (R452). -/
def memRdReq (s : State) (sess addr len : Nat) (ecc : List EccEvent) : Reply :=
  if len = 0 ∨ windowLen s sess < len then malformed s
  else if (firstBad s none addr len).isSome then (s, plainAnswer stBound)
  else
    let s := combTouch (eccApply s 0 addr len ecc) false false addr len
    if poisoned s addr len then (s, plainAnswer stPoisoned) else (s, some ⟨stOk, [], readBytes s addr len⟩)

/-- MEM_WR (R452). -/
def memWrReq (s : State) (sess addr : Nat) (data : List Byte) (ecc : List EccEvent) : Reply :=
  if data = [] ∨ windowLen s sess < data.length then malformed s
  else if (firstBad s none addr data.length).isSome then (s, plainAnswer stBound)
  else okay (storeBytes (eccApply s 0 addr data.length ecc) addr data)

/-! ### Uploads and the configuration (R55 to R57, R450, R513) -/

/-- A part joins an object; the first part of an index fixes the object's place (R56). -/
def addPart (us : List Upload) (kind index offset : Nat) (data : List Byte) : List Upload :=
  if us.any (fun u => u.kind == kind && u.index == index) then
    us.map (fun u => if u.kind = kind ∧ u.index = index then { u with parts := u.parts ++ [(offset, data)] } else u)
  else us ++ [⟨kind, index, [(offset, data)]⟩]

/-- UPLOAD. -/
def uploadReq (s : State) (kind index offset : Nat) (data : List Byte) : Reply :=
  if (kind ≠ 1 ∧ kind ≠ 2) ∨ 8 < index ∨ 33554432 < offset + data.length then malformed s
  else if kind = 2 ∧ !booted s then denied s
  else okay { s with uploads := addPart s.uploads kind (if kind = 1 then 0 else index) offset data }

/-- CFG_APPLY: DENIED below PHASE 0x07, in PHASE 0x09, and while a context is resident, before any validation (R57, R513). A set
that is validated leaves no object uploaded (R56). -/
def cfgApplyReq (s : State) : Reply :=
  let ph := bootPhase s
  if (ph ≠ 7 ∧ ph ≠ 8) ∨ residents s ≠ [] ∨ s.keeper.held then denied s
  else
    let (s, ok) := validateCfg s (cfgObjects s)
    let s := { s with uploads := s.uploads.filter (fun u => u.kind != 2) }
    if ok then okay (setBootPhase s 8) else (s, plainAnswer stRefused)

/-! ### Flags, rings and input (R454, R457) -/

/-- NACK with its reason (R449). -/
def nackWith (s : State) (reason : Nat) : Reply := (s, some ⟨stNack, [BitVec.ofNat 64 reason], []⟩)

/-- DOORBELL: a host set under R261. -/
def doorbellReq (s : State) (x name : Nat) : Reply :=
  if 64 ≤ x ∨ 65536 ≤ name then malformed s
  else if (getCtx s x).st = .free then denied s
  else
    let e := flagEntry s x name
    if entryValid e && !entryBarrier e then okay (setFlagName s x name 4 0) else nackWith s noHandler

/-- The message that RING_SEND presents: SRC the device's own rank and context 0x3F (R273, R457). -/
def hostMsg (s : State) (ring epoch : Nat) (bs : List Byte) : RingMsg :=
  let n := bs.length / 32
  let rank := ownRank s (getRing s ring).ctx
  let seq := (s.ringSends + 1) % 2 ^ 32
  { srcRank := rank, srcCtx := 0x3F, epoch := epoch, kind := 1, seq := seq, reservedClear := decide (leField bs 28 4 = 0), slots := n
    bytes := leBytes 2 (1 + 16 * n) ++ leBytes 2 epoch ++ (bs.drop 4).take 4 ++ leBytes 4 (rank % 16384 + 16384 * 0x3F)
      ++ leBytes 4 seq ++ bs.drop 16 }

/-- RING_SEND. -/
def ringSendReq (s : State) (ring epoch : Nat) (bs : List Byte) : Reply :=
  if 32768 ≤ ring ∨ 65536 ≤ epoch ∨ bs.length % 32 ≠ 0 ∨ bs.length = 0 ∨ 512 < bs.length then malformed s
  else
    let m := hostMsg s ring epoch bs
    let (s, reason) := ringArrive { s with ringSends := m.seq } ring m true
    if reason = 0 then okay s else nackWith s reason

/-- How far the parts received reach from the item's start without a hole; `l` is sorted by offset. -/
def coveredTo : Nat → List (Nat × List Byte) → Nat
  | n, [] => n
  | n, p :: l => coveredTo (if p.1 ≤ n then max n (p.1 + p.2.length) else n) l

/-- Whether an item's parts cover it. -/
def InPart.whole (v : InPart) : Bool := decide (v.total ≤ coveredTo 0 (sortBy (·.1) v.got))

/-- An item's bytes. -/
def InPart.bytes (v : InPart) : List Byte := (Upload.bytes ⟨0, 0, v.got⟩).take v.total

/-- Whole items are capped in cursor order, each with the header that the device sets (R200, R454). -/
def capInputs (p x : Nat) (g : ManStage) : Nat → State → State
  | 0, s => s
  | n + 1, s =>
    let t := getTrain s p
    match t.inputs.find? (fun v => v.cursor == t.cursor && v.whole) with
    | none => s
    | some v =>
      let m := max 1 g.mbPerStep
      let i : StageItem := ⟨v.cursor / m, attemptNo s p, v.cursor % m, 0, v.bytes⟩
      let s := setTrain s p { t with cursor := t.cursor + 1, inputs := t.inputs.filter (fun w => w.cursor != v.cursor) }
      capInputs p x g n (capItem s p x g true i)

/-- A part joins the item of its cursor. -/
def addInput (l : List InPart) (cursor total offset : Nat) (data : List Byte) : List InPart :=
  if l.any (fun v => v.cursor == cursor) then l.map (fun v => if v.cursor = cursor then { v with got := v.got ++ [(offset, data)] } else v)
  else l ++ [⟨cursor, total, [(offset, data)]⟩]

/-- The free inbound forward slots of logical stage 0 (R454). -/
def inputRoom (s : State) (p : Nat) (g : ManStage) (v : ManVStage) : Nat := v.inFwd.slots - (inTaken s p g 0 true).length

/-- INPUT (R454). -/
def inputReq (s : State) (p cursor offset total : Nat) (data : List Byte) : Reply :=
  if 8 ≤ p then malformed s
  else match stageOf s p with
    | none => denied s
    | some (x, g) => match g.pos, g.vstages with
      | 0, v :: _ =>
        let t := getTrain s p
        if v.inFwd.slotBytes < total ∨ total < offset + data.length then malformed s
        else if cursor < t.cursor then (s, plainAnswer stStale)
        else if t.cursor + inputRoom s p g v ≤ cursor then (s, plainAnswer stNotYet)
        else if t.inputs.any (fun w => w.cursor == cursor && w.total != total) then malformed s
        else
          let s := setTrain s p { t with inputs := addInput t.inputs cursor total offset data }
          okay (checkExhausted (capInputs p x g 256 s) p)
      | _, _ => denied s

/-! ### The executor (R449, R450) -/

/-- What a request is answered where the boot phase does not admit it: only operations marked ROM before BOOT_GO succeeds (R450);
CFG_APPLY and CTX_LOAD are DENIED by PHASE (R513). -/
def phaseGate (s : State) (r : HostReq) : Option Nat :=
  if booted s then none
  else match r with
    | .discover | .openSess .. | .closeSess | .regRd _ | .upload .. | .bootGo | .events _ | .attest .. | .prpRevoke .. | .prpSvnCommit
    | .prpDebugChallenge | .prpDebugResponse .. => none
    | .cfgApply | .ctxLoad .. => some stDenied
    | _ => some stUnknown

/-- CTX_LAUNCH, and the end of a resume that has nothing to gather. -/
def launchReq (s : State) (sess tag x : Nat) (args : List Word) : Reply :=
  let (s, a) := ctxLaunch s sess tag x args
  (finishIdle s (getCtx s x).part, a)

/-- A request of an open session, or one outside sessions. -/
def runReq (s : State) (sess tag : Nat) (r : HostReq) : Reply :=
  match r with
  | .discover => (sendHello s (some tag), none)
  | .openSess addr port secured => openReq s addr port secured
  | .closeSess => closeReq s sess tag
  | .regRd addrs => regRdReq s addrs
  | .regWr es => regWrReq s es
  | .memRd addr len ecc => memRdReq s sess addr len ecc
  | .memWr addr data ecc => memWrReq s sess addr data ecc
  | .upload kind index offset data => uploadReq s kind index offset data
  | .bootGo => bootGo s sess tag
  | .cfgApply => cfgApplyReq s
  | .ctxLoad slot addr len bad man => ctxLoad s sess tag slot addr len bad man
  | .ctxLaunch slot args => launchReq s sess tag slot args
  | .ctxStop slot => ctxStop s slot
  | .ctxResume slot => ctxResume s slot
  | .ctxUnload slot => ctxUnload s slot
  | .ctxSave slot addr len => ctxSave s slot addr len
  | .ctxRestore slot addr len => ctxRestore s slot addr len
  | .ctxHandles slot first count => ctxHandles s slot first count
  | .doorbell slot name => doorbellReq s slot name
  | .ringSend ring epoch bs => ringSendReq s ring epoch bs
  | .events on => eventsReq s sess on
  | .input p cursor offset total data => inputReq s p cursor offset total data
  | .join j => joinStream s sess j
  | .cancel request => cancelStream s request
  | .model m => modelReq s m
  | .attest nonce c => attest s nonce c
  | .keyInstall an tx hostKey wrapped => keyInstall s an tx hostKey wrapped
  | .prpRevoke lms slot e l sigE sigL => prpRevoke s lms slot e l sigE sigL
  | .prpSvnCommit => prpSvnCommit s
  | .prpDebugChallenge => prpChallenge s
  | .prpDebugResponse scope e l sigE sigL => prpResponse s scope e l sigE sigL

/-- The OP of a request (R450). -/
def reqOp : HostReq → Nat
  | .discover => 0x02
  | .openSess .. => 0x03
  | .closeSess => 0x04
  | .regRd _ => 0x10
  | .regWr _ => 0x11
  | .memRd .. => 0x20
  | .memWr .. => 0x21
  | .upload .. => 0x30
  | .bootGo => 0x31
  | .cfgApply => 0x32
  | .ctxLoad .. => 0x40
  | .ctxLaunch .. => 0x41
  | .ctxStop _ => 0x42
  | .ctxResume _ => 0x43
  | .ctxUnload _ => 0x44
  | .ctxSave .. => 0x45
  | .ctxRestore .. => 0x46
  | .ctxHandles .. => 0x47
  | .doorbell .. => 0x50
  | .ringSend .. => 0x51
  | .events _ => 0x60
  | .input .. => 0x70
  | .join _ => 0x80
  | .cancel _ => 0x81
  | .model _ => 0x83
  | .attest .. => 0x90
  | .keyInstall .. => 0x91
  | .prpRevoke .. | .prpSvnCommit | .prpDebugChallenge | .prpDebugResponse .. => 0xA0

/-- A request within the phase that admits it. -/
def hostExec (s : State) (sess tag : Nat) (r : HostReq) : Reply :=
  match phaseGate s r with
  | some st => (s, plainAnswer st)
  | none => runReq s sess tag r

/-- Whether a session's last request is still to be answered (R449): a load that waits, a launch that restores, a verification. -/
def sessBusy (s : State) (n : Nat) : Bool :=
  s.waitLoads.any (fun w => w.1 == n)
    || s.resume.any (fun e => ((e.2.bind (·.reply)).map (·.1)) == some n)
    || ((s.prp.verifying.bind id).map (·.1)) == some n

/-- A request as a row: nothing comes while the port is not UP; of an unknown session it is answered BAD_SESSION; while an earlier one
of its session executes, it is not delivered (R449). A request is a message from the host (R448). -/
def hostRow (s : State) (sess tag : Nat) (r : HostReq) : Host.Outcome State Fault Refusal :=
  if !ethUp s then .next s
  else if (getSess s sess).isNone then .next (answer s noSession (reqOp r) tag ⟨stBadSession, [], []⟩)
  else if sessBusy s sess then .next s
  else
    let q := hostExec s sess tag r
    .next (settle sess (reqOp r) tag (hearFrom q.1 sess, q.2))

/-! ### The rows -/

/-- OPEN (R447): its answer carries no session. -/
def execOpenSess (addr port : Nat) (secured : Bool) (tag : Nat) (s : State) : Host.Outcome State Fault Refusal :=
  .next (if ethUp s then settle noSession 0x03 tag (openReq s addr port secured) else s)

def execCloseSess (sess tag : Nat) (s : State) : Host.Outcome State Fault Refusal := hostRow s sess tag .closeSess
def execRegRd (sess tag : Nat) (addrs : List Nat) (s : State) : Host.Outcome State Fault Refusal := hostRow s sess tag (.regRd addrs)
def execRegWr (sess tag : Nat) (entries : List RegEntry) (s : State) : Host.Outcome State Fault Refusal := hostRow s sess tag (.regWr entries)
def execMemRd (sess tag addr len : Nat) (ecc : List EccEvent) (s : State) : Host.Outcome State Fault Refusal :=
  hostRow s sess tag (.memRd addr len ecc)
def execMemWr (sess tag addr : Nat) (data : List Byte) (ecc : List EccEvent) (s : State) : Host.Outcome State Fault Refusal :=
  hostRow s sess tag (.memWr addr data ecc)
def execUpload (sess tag kind index offset : Nat) (data : List Byte) (s : State) : Host.Outcome State Fault Refusal :=
  hostRow s sess tag (.upload kind index offset data)
def execBootGo (sess tag : Nat) (s : State) : Host.Outcome State Fault Refusal := hostRow s sess tag .bootGo
def execCfgApply (sess tag : Nat) (s : State) : Host.Outcome State Fault Refusal := hostRow s sess tag .cfgApply
def execCtxLoad (sess tag slot addr len : Nat) (badField : Option (Nat × Nat)) (man : Manifest) (s : State) : Host.Outcome State Fault Refusal :=
  hostRow s sess tag (.ctxLoad slot addr len badField man)
def execCtxLaunch (sess tag slot : Nat) (args : List Word) (s : State) : Host.Outcome State Fault Refusal :=
  hostRow s sess tag (.ctxLaunch slot args)
def execCtxStop (sess tag slot : Nat) (s : State) : Host.Outcome State Fault Refusal := hostRow s sess tag (.ctxStop slot)
def execCtxResume (sess tag slot : Nat) (s : State) : Host.Outcome State Fault Refusal := hostRow s sess tag (.ctxResume slot)
def execCtxUnload (sess tag slot : Nat) (s : State) : Host.Outcome State Fault Refusal := hostRow s sess tag (.ctxUnload slot)
def execCtxSave (sess tag slot addr len : Nat) (s : State) : Host.Outcome State Fault Refusal := hostRow s sess tag (.ctxSave slot addr len)
def execCtxRestore (sess tag slot addr len : Nat) (s : State) : Host.Outcome State Fault Refusal :=
  hostRow s sess tag (.ctxRestore slot addr len)
def execCtxHandles (sess tag slot first count : Nat) (s : State) : Host.Outcome State Fault Refusal :=
  hostRow s sess tag (.ctxHandles slot first count)
def execDoorbell (sess tag slot name : Nat) (s : State) : Host.Outcome State Fault Refusal := hostRow s sess tag (.doorbell slot name)
def execRingSend (sess tag ring epoch : Nat) (bytes : List Byte) (s : State) : Host.Outcome State Fault Refusal :=
  hostRow s sess tag (.ringSend ring epoch bytes)
def execEvents (sess tag : Nat) (on : Bool) (s : State) : Host.Outcome State Fault Refusal := hostRow s sess tag (.events on)
def execInput (sess tag part cursor offset total : Nat) (data : List Byte) (s : State) : Host.Outcome State Fault Refusal :=
  hostRow s sess tag (.input part cursor offset total data)
def execJoin (sess tag : Nat) (j : JoinReq) (s : State) : Host.Outcome State Fault Refusal := hostRow s sess tag (.join j)
def execCancel (sess tag request : Nat) (s : State) : Host.Outcome State Fault Refusal := hostRow s sess tag (.cancel request)
def execModel (sess tag : Nat) (m : ModelReq) (s : State) : Host.Outcome State Fault Refusal := hostRow s sess tag (.model m)
def execAttest (sess tag : Nat) (nonce : List Byte) (ctx : Option Nat) (s : State) : Host.Outcome State Fault Refusal :=
  hostRow s sess tag (.attest nonce ctx)
def execKeyInstall (sess tag an : Nat) (tx : Bool) (hostKey wrapped : List Byte) (s : State) : Host.Outcome State Fault Refusal :=
  hostRow s sess tag (.keyInstall an tx hostKey wrapped)
def execPrpRevoke (sess tag : Nat) (lms : Bool) (slot ecdsaSlot lmsSlot : Nat) (sigE sigL : List Byte) (s : State) :
    Host.Outcome State Fault Refusal :=
  hostRow s sess tag (.prpRevoke lms slot ecdsaSlot lmsSlot sigE sigL)
def execPrpSvnCommit (sess tag : Nat) (s : State) : Host.Outcome State Fault Refusal := hostRow s sess tag .prpSvnCommit
def execPrpDebugChallenge (sess tag : Nat) (s : State) : Host.Outcome State Fault Refusal := hostRow s sess tag .prpDebugChallenge
def execPrpDebugResponse (sess tag scope ecdsaSlot lmsSlot : Nat) (sigE sigL : List Byte) (s : State) : Host.Outcome State Fault Refusal :=
  hostRow s sess tag (.prpDebugResponse scope ecdsaSlot lmsSlot sigE sigL)

end Sys2Proof.Machine
end

