-- ==== Sys2Proof/Machine/Delivery.lean ====
section
/-! DEFINITION. Frames and Yalerern messages as they arrive (R441 to R449). -/

namespace Sys2Proof.Machine

/-! ### The header of a message (R445) -/

def isReq (m : YlpMsg) : Bool := m.flags.testBit 0
def ackOnly (m : YlpMsg) : Bool := m.flags.testBit 1
def more (m : YlpMsg) : Bool := m.flags.testBit 2

/-- The 32 bytes of a header, with a CRC. -/
def ylpHeader (m : YlpMsg) (crc : Nat) : List Byte :=
  leBytes 1 m.ver ++ leBytes 1 m.flags ++ leBytes 2 m.op ++ leBytes 2 m.session ++ leBytes 2 m.status ++ leBytes 4 m.seq ++ leBytes 4 m.ack
    ++ leBytes 4 m.tag ++ leBytes 2 m.credit ++ leBytes 2 m.payload.length ++ leBytes 4 m.zero ++ leBytes 4 crc

/-- Whether a message passes: VER 1, no reserved field set, and the CRC of the header, with its own field zero, and the payload. -/
def wellFormed (m : YlpMsg) : Bool :=
  m.ver == 1 && decide (m.flags < 8) && m.zero == 0 && m.crc == crc32c (ylpHeader m 0 ++ m.payload)

/-! ### Messages -/

/-- A message outside sessions: DISCOVER and OPEN; anything else names no session (R445, R449). `sec` says, for a frame, whether
MACsec protected it. -/
def sessionless (s : State) (sec : Option Bool) (m : YlpMsg) : State :=
  match m.req with
  | some .discover => sendHello s (some m.tag)
  | some (.openSess _ _ protectedReq) =>
    let r := openReq s m.addr m.port (sec.getD protectedReq)
    let s := settle noSession m.op m.tag r
    match r.2 with
    | some ⟨0, [w], _⟩ => match getSess s w.toNat with
      | some v => setSess s w.toNat (some { v with credit := m.credit })
      | none => s
    | _ => s
  | some _ => answer s noSession m.op m.tag ⟨stBadSession, [], []⟩
  | none => answer s noSession m.op m.tag ⟨stUnknown, [], []⟩

/-- A duplicate is acknowledged without being delivered again, and the reply kept for it is sent again (R448). -/
def duplicate (s : State) (v : Sess) (m : YlpMsg) : State :=
  let kept := v.unacked.filter (fun k => k.sent && (match k.body with
    | .reply _ tag .. => tag == m.tag
    | _ => false))
  sendAck (kept.foldl (fun s k => transmit s m.session v k) s) m.session v

/-- A request is delivered, and executes with its last part (R446, R448). -/
def deliver (s : State) (v : Sess) (m : YlpMsg) : State :=
  let v := { v with rx := m.seq }
  let s := setSess s m.session (some v)
  if more m || !isReq m then sendAck s m.session v
  else match m.req with
  | none => answer s m.session m.op m.tag ⟨stUnknown, [], []⟩
  | some .discover | some (.openSess ..) => answer s m.session m.op m.tag ⟨stMalformed, [], []⟩
  | some r => settle m.session m.op m.tag (hostExec s m.session m.tag r)

/-- A message of a session: from its own address only, in SEQ order, each once (R447, R448). -/
def inSession (s : State) (m : YlpMsg) : State :=
  match getSess s m.session with
  | none => if ackOnly m then s else answer s noSession m.op m.tag ⟨stBadSession, [], []⟩
  | some v =>
    if v.addr ≠ m.addr ∨ v.port ≠ m.port then (if ackOnly m then s else answer s noSession m.op m.tag ⟨stBadSession, [], []⟩)
    else
      let s := takeAck s m.session m.ack m.credit
      match getSess s m.session with
      | none => s
      | some v =>
        if ackOnly m then s
        else if m.seq ≤ v.rx then duplicate s v m
        else if m.seq = v.rx + 1 ∧ sessBusy s m.session = false then deliver s v m
        else s

/-- A message that fails its check is dropped and counted (R445). -/
def receiveMsg (s : State) (sec : Option Bool) (m : YlpMsg) : State :=
  if !wellFormed m then bump s Reg.YLP_STAT2 Fld.YLP_STAT2_BAD 1
  else if m.session = noSession then (if ackOnly m || !isReq m then s else sessionless s sec m)
  else inSession s m

/-- YLP_MESSAGE_RECEIVE (R448). -/
def execYlpMessageReceive (m : YlpMsg) (s : State) : Host.Outcome State Fault Refusal :=
  .next (if ethUp s then receiveMsg s none m else s)

/-- ETH_FRAME_RECEIVE (R441): a PTP frame goes on to the Hum unit, where PTP_MESSAGE_ARRIVAL is its event. -/
def execEthFrameReceive (f : EthFrame) (s : State) : Host.Outcome State Fault Refusal :=
  let r := admitFrame s f
  if r.2 then
    match f.body with
    | .udp _ _ m => .next (receiveMsg r.1 (some (secOn r.1)) m)
    | .arp a => .next (answerFrame r.1 false ((own4 r.1).contains a))
    | .solicit a => .next (answerFrame r.1 false ((own6 r.1).contains a))
    | .advert a => .next (noteAdvert r.1 a)
    | .echo a => .next (answerFrame r.1 true (ownIp r.1 a))
    | .ptp _ | .other => .next r.1
  else .next r.1

end Sys2Proof.Machine
end

