-- ==== Sys2Proof/Machine/Boot.lean ====
section
/-! DEFINITION. Self-test and memory training (R110 to R112, R131, R150), the I3C target (R465, R490), resets (R475, R496, R510) and
the test access port (R466, R490). -/

namespace Sys2Proof.Machine

/-! ### Self-test (R110 to R112, R131, R508) -/

/-- Faulty columns and K rows that a core's test found in array `a`. -/
def faultsOf (t : CoreTest) (a : Nat) : Nat × Nat := t.arrays.getD a (0, 0)

/-- An array that needs more than 4 spare columns or K rows is retired (R111). The part has none engaged by fuses (log entry 1). -/
def arrayRetired (t : CoreTest) (a : Nat) : Bool := decide (4 < (faultsOf t a).1) || decide (4 < (faultsOf t a).2)

/-- A core that fails, or that holds a retired array, is retired. -/
def coreRetired (t : CoreTest) : Bool := !t.passed || (List.range 4).any (arrayRetired t)

/-- ARR_SPARE_MAP's fields of one array; what a retired array has engaged is a free value, as the spec states none (log entry 2). -/
def spareMap (c : Nat) (t : CoreTest) (s : State) (a : Nat) : State :=
  let r := Reg.ARR_SPARE_MAP c
  let put (s : State) (col row ret : Nat) : State := setFld (setFld (setFld s r ⟨16 * a + 6, 3⟩ col) r ⟨16 * a + 9, 3⟩ row) r ⟨16 * a + 12, 1⟩ ret
  if arrayRetired t a then
    put { s with free := s.free + 2 } (Config.freeNat s.free % 5) (Config.freeNat (s.free + 1) % 5) 1
  else put s (faultsOf t a).1 (faultsOf t a).2 0

/-- One record for each retired array (R111). -/
def spareRecord (c : Nat) (t : CoreTest) (s : State) (a : Nat) : State :=
  if arrayRetired t a then
    raiseDev s 0x0202 sevCorrected c a (faultsOf t a).1 (faultsOf t a).2 (rd s (Reg.ARR_SPARE_MAP c)).toNat
  else s

/-- A core's test result in its page. -/
def noteTest (s : State) (t : CoreTest) : State :=
  let s := (List.range 4).foldl (spareMap t.core t) s
  (List.range 4).foldl (spareRecord t.core t) s

/-- The states of a die's 18 cores: 16 active and 2 spare by fuses, retired ones out, and each retired active core replaced by the
lowest-numbered spare left on its die (R131; log entry 1). -/
def dieStates (retired : List Nat) (d : Nat) : List (Nat × Nat) :=
  let bad (i : Nat) : Bool := retired.contains (18 * d + i)
  let spares := [16, 17].filter (fun i => !bad i)
  let used := spares.take ((List.range 16).filter bad).length
  (List.range 18).map (fun i => (18 * d + i, if bad i then 2 else if i < 16 ∨ used.contains i then 0 else 1))

/-- The core map after self-test (R131, R134, R508). -/
def mapCores (s : State) (retired : List Nat) : State :=
  let m := (List.range 4).flatMap (dieStates retired)
  let n (k : Nat) : Nat := (m.filter (fun e => e.2 == k)).length
  let s := m.foldl (fun s e => setFld (setFld s (Reg.PLC_CORE_MAP (e.1 / 32)) ⟨2 * (e.1 % 32), 2⟩ e.2) (Reg.CORE_STATUS e.1) Fld.CORE_STATUS_STATE e.2) s
  let s := ((m.filter (fun e => e.2 == 0)).zipIdx).foldl (fun s e => setFld s (Reg.CORE_STATUS e.1.1) Fld.CORE_STATUS_ORDINAL e.2) s
  let r := Reg.PLC_STATUS
  setFld (setFld (setFld s r Fld.PLC_STATUS_ACTIVE_CORES (n 0)) r Fld.PLC_STATUS_SPARES_LEFT (n 1)) r Fld.PLC_STATUS_RETIRED (n 2)

/-- SELF_TEST_DONE: PHASE 0x05 to 0x06 (R512). A core that the list does not name has passed. -/
def execSelfTestDone (cores : List CoreTest) (s : State) : Host.Outcome State Fault Refusal :=
  if bootPhase s = 5 then
    let ts := cores.filter (fun t => decide (t.core < 72))
    let s := mapCores (ts.foldl noteTest s) ((ts.filter coreRetired).map (·.core))
    .next (startDue (setBootPhase s 6))
  else .next s

/-- MEMORY_TRAINING_DONE: PHASE 0x06 to 0x07, with FAULT 4 if a package failed (R150, R502, R512). -/
def execMemoryTrainingDone (trained : Nat) (s : State) : Host.Outcome State Fault Refusal :=
  if bootPhase s = 6 then
    let ok := trained % 65536
    let failed := 65535 - ok
    let r := Reg.MEM_L2_STATUS
    let s := setFld (setFld s r Fld.MEM_L2_STATUS_TRAINED ok) r Fld.MEM_L2_STATUS_FAILED failed
    .next (setBootPhase (if failed = 0 then s else setBootFault s 4) 7)
  else .next s

/-! ### The I3C target (R465, R490) -/

/-- I3C_SETDASA: the dynamic address given to static address 0x2A. -/
def execI3cSetdasa (addr : Nat) (s : State) : Host.Outcome State Fault Refusal :=
  if s.pins.i3c.isNone then .next { s with pins := { s.pins with i3c := some (addr % 128) } } else .next s

/-- The provisional ID (R490). -/
def provisionalId (s : State) : Nat := Config.mipiId % 2 ^ 15 * 2 ^ 33 + 0x6408 * 2 ^ 16 + (rd s Reg.FAB_UID).toNat % 2 ^ 16

/-- I3C_ENTDAA: a target without a dynamic address takes part with its provisional ID. -/
def execI3cEntdaa (addr : Nat) (s : State) : Host.Outcome State Fault Refusal :=
  if s.pins.i3c.isNone then .next (emit { s with pins := { s.pins with i3c := some (addr % 128) } } (.i3cId (provisionalId s))) else .next s

/-- What a private read of a byte answers, in every boot phase (R490): the table's contents, zero elsewhere. No row of the table is a
private read, and none changes the device. -/
def i3cRead (s : State) (offset : Nat) : Byte :=
  let status := bnat (alertOn s) + 2 * bnat s.pwr.episode.isSome + 4 * bnat (avsHalted s)
  (leBytes 8 (rd s Reg.DEV_ID).toNat ++ leBytes 8 (rd s Reg.FAB_UID).toNat
    ++ leBytes 1 (min 255 s.pwr.hot.1) ++ leBytes 1 s.pwr.hot.2 ++ leBytes 1 status ++ leBytes 1 (bootPhase s)
    ++ leBytes 4 (rd s Reg.ERR_STICKY).toNat).getD offset 0

/-- Whether an image is awaited over I3C: BOOT_MODE 0b01, PHASE 0x0A (R465, R512). -/
def recovering (s : State) : Bool := bootMode s == 1 && bootPhase s == 0x0A

/-- I3C_RECOVERY_DATA: appended to the staging. -/
def execI3cRecoveryData (data : List Byte) (s : State) : Host.Outcome State Fault Refusal :=
  if recovering s ∧ 1 ≤ data.length ∧ data.length ≤ 255 then
    .next { s with uploads := addPart s.uploads 1 0 (stagedImage s).length data }
  else .next s

/-- I3C_DISCARD_STAGED. -/
def execI3cDiscardStaged (s : State) : Host.Outcome State Fault Refusal := .next (if recovering s then dropImage s else s)

/-- I3C_BOOT_GO. -/
def execI3cBootGo (s : State) : Host.Outcome State Fault Refusal := .next (if recovering s then startVerify s none else s)

/-! ### Resets (R475, R487, R496, R510) -/

/-- Device reset: every register and all state as after power-on, but for the fuses (R475, R496). THERMTRIP_N stays asserted until all
rails are removed (R487). What has left the device, the commands that wait and the numbering of free values are not the device's. -/
def deviceReset (s : State) (cause : Nat) (railsGone : Bool) : State :=
  let prp := { Propolis.none with svn := s.prp.svn, ecdsaRev := s.prp.ecdsaRev, lmsRev := s.prp.lmsRev }
  let r := { State.reset with pending := s.pending, free := s.free, out := s.out, handed := s.out.length, saved := s.saved, prp := prp }
  let r := wr (fuseSync r) Reg.BOOT_CAUSE (BitVec.ofNat 64 cause)
  let r := { r with pins := { r.pins with tripped := s.pins.tripped && !railsGone } }
  let r := if alertOn s then emit r (.alertN false) else r
  if s.pins.tripped && railsGone then emit r (.thermtripN false) else r

/-- RESET_N_FALL. -/
def execResetNFall (s : State) : Host.Outcome State Fault Refusal := .next (if s.pins.resetN then deviceReset s 2 false else s)

/-- PWR_OK_FALL: the device holds itself in reset; the next start is from power-on if a rail was lost (R475, R501). -/
def execPwrOkFall (railLost : Bool) (s : State) : Host.Outcome State Fault Refusal :=
  let r := deviceReset s (if railLost then 1 else 4) railLost
  .next { r with pins := { r.pins with pwrOk := false } }

/-- RESET_RELEASE: RESET_N rises with PWR_OK high; BOOT_MODE is sampled and stage A starts (R510, R511), and the source that lights the
host port is on (R354). Nothing starts while THERMTRIP_N is held (R487). -/
def execResetRelease (bootMode : Nat) (s : State) : Host.Outcome State Fault Refusal :=
  if s.pins.resetN ∨ s.pins.tripped then .next s
  else
    let s := (List.range 4).foldl laserSync { s with pins := { s.pins with resetN := true, pwrOk := true } }
    .next (startStage (setFld s Reg.PRP_STATUS Fld.PRP_STATUS_BOOT_MODE bootMode) 0)

/-! ### The test access port (R466, R490) -/

/-- IDCODE (R490). -/
def idcode (s : State) : Nat :=
  fld s Reg.STEPPING Fld.STEPPING_MAJOR % 16 * 2 ^ 28 + 0x6408 * 2 ^ 12 + Config.jedecId % 2 ^ 11 * 2 + 1

/-- JTAG_INSTRUCTION. The spec gives the instructions no codes; here 1 is IDCODE, 2 and 3 the challenge and the response of R466 through
the data register of Propolis, and every other one boundary scan or bypass, which leaves the device's state alone (log entry 18). -/
def execJtagInstruction (ir : Nat) (dr : List Byte) (s : State) : Host.Outcome State Fault Refusal :=
  match ir with
  | 1 => .next (emit s (.jtag (leBytes 4 (idcode s))))
  | 2 =>
    if debugOpen s then
      let s := openChallenge s
      .next (emit s (.jtag (prpNonce s)))
    else .next s
  | 3 => .next (debugResponse s (leField dr 0 1 % 8) (leField dr 1 1 % 8) (leField dr 2 1 % 8) (sliceOf dr 3 96) (dr.drop 99)).1
  | _ => .next s

end Sys2Proof.Machine
end

