-- ==== Sys2Proof/Machine/Cdc.lean ====
section
/-! DEFINITION. Forced resets and gaps of the FIFOs between clock domains (R284 to R286, R506). -/

namespace Sys2Proof.Machine

/-- The writing and reading domains that an identifier names (R506). -/
def fifoWriter (f : Nat) : Nat := f % 32
def fifoReader (f : Nat) : Nat := f / 32 % 32

/-- What a credited FIFO's reset does to an instruction or a transfer with an item in it: it stops as for poisoned data, and its
context becomes FAULTED (R155, R285). -/
def stopVictim (s : State) (v : CdcVictim) : State :=
  match v with
  | .started x l id => match getRun s x l with
    | some r => match r.inFlight id with
      | some f => faultInstr (abandonFlight s x l id) x l f.pc
      | none => s
    | none => s
  | .held x l => match getRun s x l with
    | some r => match r.seq with
      | some f => faultInstr (setRun s x l (some { r with seq := none })) x l f.pc
      | none => s
    | none => s
  | .transfer x => faultCtx s x

/-- A FIFO of the model whose contents State holds: the host event queue, and the records on their way to the error log. -/
def fifoItems (s : State) (fifo items : Nat) (errPath : Bool) : Nat :=
  if fifo = fifoHost then s.hostQ.length else if errPath then s.recs.length else items

/-- The gap marker that a lossy FIFO's reset leaves (R285, R286). -/
def resetLossy (s : State) (fifo items : Nat) (errPath : Bool) : State :=
  if items = 0 then s
  else if fifo = fifoHost then countGap { s with hostQ := [⟨.gap items (beat s), false, [], []⟩] } fifo items false
  else if errPath then countGap { s with recs := [] } fifo items true
  else countGap s fifo items false

/-- The pointer copies of a FIFO of class `cls` disagree: it resets to empty, with `items` items discarded (R284, R285). The FIFO
that carries records to the error log is lossy (log entry 71). -/
def execCdcPtrMismatch (fifo cls items : Nat) (loss : CdcLoss) (s : State) : Host.Outcome State Fault Refusal :=
  let ⟨errPath, victims⟩ := loss
  let c := if fifo = fifoHost ∨ errPath then 3 else cls
  let n := fifoItems s fifo items errPath
  let w := cdcCount s fifo
  let w := putF Fld.CDC_FIFO_CNT_MISMATCH (satAdd 32 (getF Fld.CDC_FIFO_CNT_MISMATCH w) 1) w
  let s := bump { s with cdcCnt := Sparse.set 0 s.cdcCnt fifo w } Reg.CDC_STAT Fld.CDC_STAT_MISMATCHES 1
  let s := if c = 3 then resetLossy s fifo n errPath else s
  let s := raiseDev s 0x0F01 (if c = 2 then sevError else sevCorrected) fifo (fifoWriter fifo) (fifoReader fifo) n c
  .next (if c = 2 then victims.foldl stopVictim s else s)

/-- An item arrives at a full lossy FIFO and is dropped (R286): counted in the unread marker, or, when there is none, in a new
one. `errPath` names the FIFO that carries records to the error log: the record that arrived last is the item. -/
def execCdcGap (fifo : Nat) (fresh errPath : Bool) (s : State) : Host.Outcome State Fault Refusal :=
  if fifo = fifoHost then .next (if (s.hostQ.filter (fun q => !q.isGap)).length < 4095 then s else dropEvent s)
  else
    let s := if errPath then { s with recs := s.recs.dropLast } else s
    .next (if fresh then countGap s fifo 1 errPath else s)

end Sys2Proof.Machine
end

