-- ==== Sys2Proof/Machine/Dispatch.lean ====
section
/-! DEFINITION. The meaning of a command: one arm for each row of the table. -/

namespace Sys2Proof.Machine

def exec (i : Instr) (s : State) : Host.Outcome State Fault Refusal :=
  match i with
  | .instructionFetch x l ecc => Sys2Proof.Machine.execInstructionFetch x l ecc s
  | .engineQueueStart x l q => Sys2Proof.Machine.execEngineQueueStart x l q s
  | .tokenPost x l id => Sys2Proof.Machine.execTokenPost x l id s
  | .kEnd x l => Sys2Proof.Machine.execKEnd x l s
  | .taskEndComplete x l => Sys2Proof.Machine.execTaskEndComplete x l s
  | .kSpawn x l => Sys2Proof.Machine.execKSpawn x l s
  | .kBr x l => Sys2Proof.Machine.execKBr x l s
  | .kAlu x l => Sys2Proof.Machine.execKAlu x l s
  | .kAlui x l => Sys2Proof.Machine.execKAlui x l s
  | .kMovi x l => Sys2Proof.Machine.execKMovi x l s
  | .kCmp x l => Sys2Proof.Machine.execKCmp x l s
  | .kLd x l ecc => Sys2Proof.Machine.execKLd x l ecc s
  | .kSt x l => Sys2Proof.Machine.execKSt x l s
  | .kId x l => Sys2Proof.Machine.execKId x l s
  | .kTd x l => Sys2Proof.Machine.execKTd x l s
  | .kTcpy x l => Sys2Proof.Machine.execKTcpy x l s
  | .kTrd x l => Sys2Proof.Machine.execKTrd x l s
  | .kCtxEvent x l => Sys2Proof.Machine.execKCtxEvent x l s
  | .kCtxStop x l => Sys2Proof.Machine.execKCtxStop x l s
  | .kNop x l => Sys2Proof.Machine.execKNop x l s
  | .aLdw x l id ecc => Sys2Proof.Machine.execALdw x l id ecc s
  | .aSwp x l id => Sys2Proof.Machine.execASwp x l id s
  | .aMul x l id ecc => Sys2Proof.Machine.execAMul x l id ecc s
  | .aMult x l id ecc => Sys2Proof.Machine.execAMult x l id ecc s
  | .aDrn x l id => Sys2Proof.Machine.execADrn x l id s
  | .vAdd x l id ecc => Sys2Proof.Machine.execVAdd x l id ecc s
  | .vSub x l id ecc => Sys2Proof.Machine.execVSub x l id ecc s
  | .vMul x l id ecc => Sys2Proof.Machine.execVMul x l id ecc s
  | .vDiv x l id ecc => Sys2Proof.Machine.execVDiv x l id ecc s
  | .vFma x l id ecc => Sys2Proof.Machine.execVFma x l id ecc s
  | .vMax x l id ecc => Sys2Proof.Machine.execVMax x l id ecc s
  | .vMin x l id ecc => Sys2Proof.Machine.execVMin x l id ecc s
  | .vAdds x l id ecc => Sys2Proof.Machine.execVAdds x l id ecc s
  | .vMuls x l id ecc => Sys2Proof.Machine.execVMuls x l id ecc s
  | .vAxpy x l id ecc => Sys2Proof.Machine.execVAxpy x l id ecc s
  | .vSqrt x l id ecc => Sys2Proof.Machine.execVSqrt x l id ecc s
  | .vRsqrt x l id ecc => Sys2Proof.Machine.execVRsqrt x l id ecc s
  | .vExp x l id ecc => Sys2Proof.Machine.execVExp x l id ecc s
  | .vLog x l id ecc => Sys2Proof.Machine.execVLog x l id ecc s
  | .vSilu x l id ecc => Sys2Proof.Machine.execVSilu x l id ecc s
  | .vCvt x l id ecc => Sys2Proof.Machine.execVCvt x l id ecc s
  | .vRed x l id ecc => Sys2Proof.Machine.execVRed x l id ecc s
  | .mCpy x l id ecc => Sys2Proof.Machine.execMCpy x l id ecc s
  | .mGth x l id ecc => Sys2Proof.Machine.execMGth x l id ecc s
  | .mSct x l id ecc => Sys2Proof.Machine.execMSct x l id ecc s
  | .mTrn x l id ecc => Sys2Proof.Machine.execMTrn x l id ecc s
  | .mFil x l id => Sys2Proof.Machine.execMFil x l id s
  | .sSet x l id => Sys2Proof.Machine.execSSet x l id s
  | .sClr x l id => Sys2Proof.Machine.execSClr x l id s
  | .sWait x l id => Sys2Proof.Machine.execSWait x l id s
  | .sBar x l id => Sys2Proof.Machine.execSBar x l id s
  | .sBwait x l id => Sys2Proof.Machine.execSBwait x l id s
  | .qSend x l id ecc => Sys2Proof.Machine.execQSend x l id ecc s
  | .qAck x l id => Sys2Proof.Machine.execQAck x l id s
  | .qOpen x l id => Sys2Proof.Machine.execQOpen x l id s
  | .qClose x l id => Sys2Proof.Machine.execQClose x l id s
  | .qReset x l id => Sys2Proof.Machine.execQReset x l id s
  | .cBulk x l id ecc => Sys2Proof.Machine.execCBulk x l id ecc s
  | .cWred x l id => Sys2Proof.Machine.execCWred x l id s
  | .bRd x l => Sys2Proof.Machine.execBRd x l s
  | .bAt x l => Sys2Proof.Machine.execBAt x l s
  | .sliceEnd p => Sys2Proof.Machine.execSliceEnd p s
  | .sliceStart p => Sys2Proof.Machine.execSliceStart p s
  | .foragerSteal x thief => Sys2Proof.Machine.execForagerSteal x thief s
  | .heldSpawnRelease x l => Sys2Proof.Machine.execHeldSpawnRelease x l s
  | .hbmRowRepair e resource => Sys2Proof.Machine.execHbmRowRepair e resource s
  | .patrolScrubRead ecc => Sys2Proof.Machine.execPatrolScrubRead ecc s
  | .cmbFlush mask => Sys2Proof.Machine.execCmbFlush mask s
  | .cmbFlushDone p => Sys2Proof.Machine.execCmbFlushDone p s
  | .inboundItemCapped p forward item => Sys2Proof.Machine.execInboundItemCapped p forward item s
  | .outboundCappedReport p j flow report => Sys2Proof.Machine.execOutboundCappedReport p j flow report s
  | .forwardAdmission p j => Sys2Proof.Machine.execForwardAdmission p j s
  | .backwardAdmission p j => Sys2Proof.Machine.execBackwardAdmission p j s
  | .accumulateAdmission p j => Sys2Proof.Machine.execAccumulateAdmission p j s
  | .cellHoldLimit cell => Sys2Proof.Machine.execCellHoldLimit cell s
  | .stepEndOrResult p orResult => Sys2Proof.Machine.execStepEndOrResult p orResult s
  | .gradientChunkArrival p c => Sys2Proof.Machine.execGradientChunkArrival p c s
  | .handlerChunkDelivery p c => Sys2Proof.Machine.execHandlerChunkDelivery p c s
  | .grdLate p rank round => Sys2Proof.Machine.execGrdLate p rank round s
  | .commitVoteResult p halt rpt nfx due busy => Sys2Proof.Machine.execCommitVoteResult p halt rpt nfx due busy s
  | .parameterGatherComplete p => Sys2Proof.Machine.execParameterGatherComplete p s
  | .snapshotDone p => Sys2Proof.Machine.execSnapshotDone p s
  | .wardCopyArrival p gen rank slot crcOk => Sys2Proof.Machine.execWardCopyArrival p gen rank slot crcOk s
  | .checkpointAckArrival p ack => Sys2Proof.Machine.execCheckpointAckArrival p ack s
  | .ckpFail p cause => Sys2Proof.Machine.execCkpFail p cause s
  | .remoteSetArrival rank x name => Sys2Proof.Machine.execRemoteSetArrival rank x name s
  | .waitTimeout x l w => Sys2Proof.Machine.execWaitTimeout x l w s
  | .waggleBarrierEntry tree port gen => Sys2Proof.Machine.execWaggleBarrierEntry tree port gen s
  | .waggleBarrierRelease tree gen => Sys2Proof.Machine.execWaggleBarrierRelease tree gen s
  | .ringMessageArrival ring m intact => Sys2Proof.Machine.execRingMessageArrival ring m intact s
  | .combinedMessagePlace ring tag => Sys2Proof.Machine.execCombinedMessagePlace ring tag s
  | .handlerDispatch ring => Sys2Proof.Machine.execHandlerDispatch ring s
  | .sendAnswerArrival x l id reason epoch => Sys2Proof.Machine.execSendAnswerArrival x l id reason epoch s
  | .ringResetComplete ring => Sys2Proof.Machine.execRingResetComplete ring s
  | .cdcPtrMismatch fifo cls items loss => Sys2Proof.Machine.execCdcPtrMismatch fifo cls items loss s
  | .cdcGap fifo fresh errPath => Sys2Proof.Machine.execCdcGap fifo fresh errPath s
  | .bulkChunkArrival slot c => Sys2Proof.Machine.execBulkChunkArrival slot c s
  | .abortNoticeArrival slot gen seq waggle reason => Sys2Proof.Machine.execAbortNoticeArrival slot gen seq waggle reason s
  | .abortNaming slot rankA sigA rankB sigB => Sys2Proof.Machine.execAbortNaming slot rankA sigA rankB sigB s
  | .colTimeout slot awaited stage => Sys2Proof.Machine.execColTimeout slot awaited stage s
  | .collectiveComplete slot => Sys2Proof.Machine.execCollectiveComplete slot s
  | .waggleContributionArrival tree port sig vals bad => Sys2Proof.Machine.execWaggleContributionArrival tree port sig vals bad s
  | .waggleResultArrival tree sig vals bad => Sys2Proof.Machine.execWaggleResultArrival tree sig vals bad s
  | .waggleTimeout p => Sys2Proof.Machine.execWaggleTimeout p s
  | .linkUnitReceive port u => Sys2Proof.Machine.execLinkUnitReceive port u s
  | .escapeWaitExpiry port pkt => Sys2Proof.Machine.execEscapeWaitExpiry port pkt s
  | .laneFailure port lane cause codewords => Sys2Proof.Machine.execLaneFailure port lane cause codewords s
  | .laserSourceFailure engine source microwatts => Sys2Proof.Machine.execLaserSourceFailure engine source microwatts s
  | .confirmRequestArrival port => Sys2Proof.Machine.execConfirmRequestArrival port s
  | .confirmAnswerArrival port lseq => Sys2Proof.Machine.execConfirmAnswerArrival port lseq s
  | .confirmTimeout port => Sys2Proof.Machine.execConfirmTimeout port s
  | .receiveDarkTimeout port => Sys2Proof.Machine.execReceiveDarkTimeout port s
  | .lightDetected port => Sys2Proof.Machine.execLightDetected port s
  | .portTrainingDone port t => Sys2Proof.Machine.execPortTrainingDone port t s
  | .fabPctlRetrain port => Sys2Proof.Machine.execFabPctlRetrain port s
  | .fabCmdStart => Sys2Proof.Machine.execFabCmdStart s
  | .swarmLinksEnd elapsedMs => Sys2Proof.Machine.execSwarmLinksEnd elapsedMs s
  | .swarmElectQuiet ports roots distances quietBeats => Sys2Proof.Machine.execSwarmElectQuiet ports roots distances quietBeats s
  | .swarmCensusDone nodes links => Sys2Proof.Machine.execSwarmCensusDone nodes links s
  | .swarmAssignDone nodes links => Sys2Proof.Machine.execSwarmAssignDone nodes links s
  | .swarmRoutesDone => Sys2Proof.Machine.execSwarmRoutesDone s
  | .epochSwitch vc => Sys2Proof.Machine.execEpochSwitch vc s
  | .beatTick b => Sys2Proof.Machine.execBeatTick b s
  | .humSourceHealthy src cleanBeats => Sys2Proof.Machine.execHumSourceHealthy src cleanBeats s
  | .humInputFault src cause ppb seen => Sys2Proof.Machine.execHumInputFault src cause ppb seen s
  | .humPpsEdge offsetNs => Sys2Proof.Machine.execHumPpsEdge offsetNs s
  | .humCellArrival masterUid port hops beat offsetNs => Sys2Proof.Machine.execHumCellArrival masterUid port hops beat offsetNs s
  | .humPathMeasure port roundTripNs turnaroundNs => Sys2Proof.Machine.execHumPathMeasure port roundTripNs turnaroundNs s
  | .ptpMessageArrival domain time => Sys2Proof.Machine.execPtpMessageArrival domain time s
  | .humSetWrite v => Sys2Proof.Machine.execHumSetWrite v s
  | .pllLossOfLock dom => Sys2Proof.Machine.execPllLossOfLock dom s
  | .clkUnlock dom => Sys2Proof.Machine.execClkUnlock dom s
  | .clockStageLocked stage khz => Sys2Proof.Machine.execClockStageLocked stage khz s
  | .windowOpen p => Sys2Proof.Machine.execWindowOpen p s
  | .modelLoadComplete m => Sys2Proof.Machine.execModelLoadComplete m s
  | .windowItemArrival p w rows => Sys2Proof.Machine.execWindowItemArrival p w rows s
  | .windowClose p back => Sys2Proof.Machine.execWindowClose p back s
  | .srvDeadlineMiss entry => Sys2Proof.Machine.execSrvDeadlineMiss entry s
  | .kprWatchdog pc activity => Sys2Proof.Machine.execKprWatchdog pc activity s
  | .lossNoticeArrival x ranks takeover => Sys2Proof.Machine.execLossNoticeArrival x ranks takeover s
  | .takeoverAgreementResult x step result => Sys2Proof.Machine.execTakeoverAgreementResult x step result s
  | .ckpDroneTakeover x rank oldAddr newAddr slot read => Sys2Proof.Machine.execCkpDroneTakeover x rank oldAddr newAddr slot read s
  | .rollbackRestore p => Sys2Proof.Machine.execRollbackRestore p s
  | .errorRecordArrival => Sys2Proof.Machine.execErrorRecordArrival s
  | .errLogRdWrite v => Sys2Proof.Machine.execErrLogRdWrite v s
  | .selectorWrite addr v => Sys2Proof.Machine.execSelectorWrite addr v s
  | .registerWrite addr mask value => Sys2Proof.Machine.execRegisterWrite addr mask value s
  | .pwrCmdAvsRetry => Sys2Proof.Machine.execPwrCmdAvsRetry s
  | .pwrCmdSensorRetry => Sys2Proof.Machine.execPwrCmdSensorRetry s
  | .ckpCmdDeclare p rank => Sys2Proof.Machine.execCkpCmdDeclare p rank s
  | .ckpCmdTakeover p => Sys2Proof.Machine.execCkpCmdTakeover p s
  | .ethCmdRetrain => Sys2Proof.Machine.execEthCmdRetrain s
  | .ethSecEnableWrite on => Sys2Proof.Machine.execEthSecEnableWrite on s
  | .ethLinkDown cause report => Sys2Proof.Machine.execEthLinkDown cause report s
  | .ethModeTimeout => Sys2Proof.Machine.execEthModeTimeout s
  | .ethFallback400g group lanesFailed => Sys2Proof.Machine.execEthFallback400g group lanesFailed s
  | .ethFrameReceive f => Sys2Proof.Machine.execEthFrameReceive f s
  | .ylpMessageReceive m => Sys2Proof.Machine.execYlpMessageReceive m s
  | .ylpRetransmitTimeout sess seq => Sys2Proof.Machine.execYlpRetransmitTimeout sess seq s
  | .ylpIdleTimeout sess => Sys2Proof.Machine.execYlpIdleTimeout sess s
  | .hello => Sys2Proof.Machine.execHello s
  | .discover tag => Sys2Proof.Machine.execDiscover tag s
  | .openSess addr port secured tag => Sys2Proof.Machine.execOpenSess addr port secured tag s
  | .closeSess sess tag => Sys2Proof.Machine.execCloseSess sess tag s
  | .regRd sess tag addrs => Sys2Proof.Machine.execRegRd sess tag addrs s
  | .regWr sess tag entries => Sys2Proof.Machine.execRegWr sess tag entries s
  | .memRd sess tag addr len ecc => Sys2Proof.Machine.execMemRd sess tag addr len ecc s
  | .memWr sess tag addr data ecc => Sys2Proof.Machine.execMemWr sess tag addr data ecc s
  | .upload sess tag kind index offset data => Sys2Proof.Machine.execUpload sess tag kind index offset data s
  | .bootGo sess tag => Sys2Proof.Machine.execBootGo sess tag s
  | .imageVerificationDone => Sys2Proof.Machine.execImageVerificationDone s
  | .selfTestDone cores => Sys2Proof.Machine.execSelfTestDone cores s
  | .memoryTrainingDone trained => Sys2Proof.Machine.execMemoryTrainingDone trained s
  | .cfgApply sess tag => Sys2Proof.Machine.execCfgApply sess tag s
  | .ctxLoad sess tag slot addr len badField man => Sys2Proof.Machine.execCtxLoad sess tag slot addr len badField man s
  | .ctxLaunch sess tag slot args => Sys2Proof.Machine.execCtxLaunch sess tag slot args s
  | .ctxStop sess tag slot => Sys2Proof.Machine.execCtxStop sess tag slot s
  | .ctxResume sess tag slot => Sys2Proof.Machine.execCtxResume sess tag slot s
  | .ctxUnload sess tag slot => Sys2Proof.Machine.execCtxUnload sess tag slot s
  | .ctxSave sess tag slot addr len => Sys2Proof.Machine.execCtxSave sess tag slot addr len s
  | .ctxRestore sess tag slot addr len => Sys2Proof.Machine.execCtxRestore sess tag slot addr len s
  | .ctxHandles sess tag slot first count => Sys2Proof.Machine.execCtxHandles sess tag slot first count s
  | .doorbell sess tag slot name => Sys2Proof.Machine.execDoorbell sess tag slot name s
  | .ringSend sess tag ring epoch bytes => Sys2Proof.Machine.execRingSend sess tag ring epoch bytes s
  | .events sess tag on => Sys2Proof.Machine.execEvents sess tag on s
  | .event => Sys2Proof.Machine.execEvent s
  | .input sess tag part cursor offset total data => Sys2Proof.Machine.execInput sess tag part cursor offset total data s
  | .join sess tag j => Sys2Proof.Machine.execJoin sess tag j s
  | .cancel sess tag request => Sys2Proof.Machine.execCancel sess tag request s
  | .model sess tag m => Sys2Proof.Machine.execModel sess tag m s
  | .attest sess tag nonce ctx => Sys2Proof.Machine.execAttest sess tag nonce ctx s
  | .keyInstall sess tag an tx hostKey wrapped => Sys2Proof.Machine.execKeyInstall sess tag an tx hostKey wrapped s
  | .prpRevoke sess tag lms slot ecdsaSlot lmsSlot sigE sigL => Sys2Proof.Machine.execPrpRevoke sess tag lms slot ecdsaSlot lmsSlot sigE sigL s
  | .prpSvnCommit sess tag => Sys2Proof.Machine.execPrpSvnCommit sess tag s
  | .prpDebugChallenge sess tag => Sys2Proof.Machine.execPrpDebugChallenge sess tag s
  | .prpDebugResponse sess tag scope ecdsaSlot lmsSlot sigE sigL => Sys2Proof.Machine.execPrpDebugResponse sess tag scope ecdsaSlot lmsSlot sigE sigL s
  | .i3cSetdasa addr => Sys2Proof.Machine.execI3cSetdasa addr s
  | .i3cEntdaa addr => Sys2Proof.Machine.execI3cEntdaa addr s
  | .i3cRecoveryData data => Sys2Proof.Machine.execI3cRecoveryData data s
  | .i3cDiscardStaged => Sys2Proof.Machine.execI3cDiscardStaged s
  | .i3cBootGo => Sys2Proof.Machine.execI3cBootGo s
  | .resetRelease bootMode => Sys2Proof.Machine.execResetRelease bootMode s
  | .pwrOkFall railLost => Sys2Proof.Machine.execPwrOkFall railLost s
  | .telemetrySample t => Sys2Proof.Machine.execTelemetrySample t s
  | .railOutOfTolerance rail mv since => Sys2Proof.Machine.execRailOutOfTolerance rail mv since s
  | .vcoreDroop die mv => Sys2Proof.Machine.execVcoreDroop die mv s
  | .droopPauseEnd die => Sys2Proof.Machine.execDroopPauseEnd die s
  | .thermtrip die => Sys2Proof.Machine.execThermtrip die s
  | .ethLinkUp => Sys2Proof.Machine.execEthLinkUp s
  | .resetNFall => Sys2Proof.Machine.execResetNFall s
  | .pllRelock dom => Sys2Proof.Machine.execPllRelock dom s
  | .keeperRestartDone => Sys2Proof.Machine.execKeeperRestartDone s
  | .jtagInstruction ir dr => Sys2Proof.Machine.execJtagInstruction ir dr s

end Sys2Proof.Machine
end

