-- ==== Sys2Proof/Safety.lean ====
section
/-! DEFINITION. What claims about the device are stated in: the canonical form of memory, what a command leaves as it was, and
when an instruction of a running task stands where its command can act on it. -/

namespace Sys2Proof.Machine

/-- Device memory in its canonical form: addresses strictly rising, no entry equal to what an unlisted address reads as. -/
def Memory.wf (m : List Host.Cell) : Bool := Sparse.wf (0 : Byte) m

/-- The state's memory is in its canonical form. -/
def MemoryOk (s : State) : Prop := Memory.wf s.mem = true

/-! ### Frames -/

/-- Every byte of memory reads as before. -/
def SameBytes (s t : State) : Prop := ∀ a, readByte t a = readByte s a

/-- Every byte of memory outside `[lo, lo + n)` reads as before. -/
def SameBytesOutside (s t : State) (lo n : Nat) : Prop := ∀ a, ¬(lo ≤ a ∧ a < lo + n) → readByte t a = readByte s a

/-- Every register of the control window but those listed reads as before. -/
def SameRegsBut (s t : State) (l : List Nat) : Prop := ∀ a, a ∉ l → rd t a = rd s a

/-- The field `f` of the register at `a` reads `v`, and the register's other bits read as before. -/
def OnlyField (s t : State) (a : Nat) (f : Fld) (v : Nat) : Prop :=
  fld t a f = v ∧ ∀ i, (i < f.lo ∨ f.lo + f.w ≤ i) → (rd t a).getLsbD i = (rd s a).getLsbD i

/-- A step that changes the task running on core `l` of context `x` and nothing else. -/
def OnlyTask (s t : State) (x l : Nat) : Prop := t = setRun s x l (getRun t x l)

/-! ### Instructions -/

/-- The sequencer of core `l` of the running context `x` holds the live instruction `i`, whose token is there (R46, R326). -/
def Held (s : State) (x l : Nat) (r : Running) (f : Flight) (i : CInstr) : Prop :=
  seqAt s x l = some (r, f) ∧ f.op.instr = i ∧ f.live = true

/-- The instruction `i` with number `id` has started on core `l` of context `x` and has not executed (R48). -/
def Started (s : State) (x l id : Nat) (r : Running) (f : Flight) (i : CInstr) : Prop :=
  startedAt s x l id = some (r, f) ∧ f.op.instr = i

/-- The value of a token counter once a satisfied wait on `w` has consumed one post and a post on `p` has been made (R48);
token 0 neither waits nor posts. -/
def tokenAfter (w p k n : Nat) : Nat :=
  if k = 0 then n else (if p = k then (if w = k then n - 1 else n) + 1 else if w = k then n - 1 else n)

/-- What the sequencer's own instruction leaves of the running task: its wait consumed and its post made, the sequencer free,
the next instruction at `pc`; whatever else the task has, except its registers, as it was. -/
def Stepped (r r' : Running) (f : Flight) (pc : Nat) : Prop :=
  r' = { r with regs := r'.regs, tokens := r'.tokens, seq := none, pc := pc }
    ∧ ∀ k, k < 32 → r'.token k = tokenAfter f.op.wait f.op.post k (r.token k)

/-- The same, for an instruction that posts nothing. -/
def SteppedNoPost (r r' : Running) (f : Flight) (pc : Nat) : Prop :=
  r' = { r with tokens := r'.tokens, seq := none, pc := pc }
    ∧ ∀ k, k < 32 → r'.token k = tokenAfter f.op.wait 0 k (r.token k)

/-- A task as it starts (R31, R336): at its entry, its arguments in g1 to g8, every other scalar register zero, null
descriptors, false predicates but p0, no tokens, nothing issued. -/
def StartedTask (s : State) (x l : Nat) (q : Running) (t : Task) : Prop :=
  q = Running.begin_ t (handleOf s x l (entryHandle t.entry)).base (handleOf s x l (entryHandle t.entry)).size
    ∧ q.pc = (handleOf s x l (entryHandle t.entry)).base + entryOffset t.entry
    ∧ (∀ g : GReg, q.regs.getG g = if 1 ≤ g.val ∧ g.val ≤ 8 then t.args.getD (g.val - 1) 0 else 0)
    ∧ (∀ d : TReg, q.regs.getT d = Desc.null) ∧ (∀ p : PReg, q.regs.getP p = decide (p = 0)) ∧ ∀ k, q.token k = 0

/-- Predicate and descriptor registers as they were. -/
def SameOthers (a b : TaskRegs) : Prop := (∀ p, b.getP p = a.getP p) ∧ ∀ t, b.getT t = a.getT t

/-- A write of `v` to the scalar register `gd` (R31): g0 reads zero whatever is written; the rest as they were. -/
def WroteG (a b : TaskRegs) (gd : GReg) (v : Word) : Prop :=
  (∀ g, b.getG g = if g = 0 then 0 else if g = gd then v else a.getG g) ∧ SameOthers a b

/-- Of the contexts, only the task running on core `l` of context `x` differs. -/
def OnlyTaskCtxs (s t : State) (x l : Nat) : Prop := t.ctxs = (setRun s x l (getRun t x l)).ctxs

/-- A step that changes core `l` of context `x` (its deque, its held spawns, its task, its register sets) and nothing else. -/
def OnlyCore (s t : State) (x l : Nat) : Prop := t = setCore s x l (getCore t x l)

/-- A context that nothing names but its state word stays as it was, and every other context is untouched. -/
def OnlyCtxState (s t : State) (x : Nat) (st : CtxState) : Prop :=
  getCtx t x = { getCtx s x with st := st } ∧ ∀ y, y ≠ x → getCtx t y = getCtx s y

/-- Two fields of a descriptor (R33, R335) that share no bit. -/
def fldsApart (m n : Nat) : Prop :=
  (descFld m).1 ≠ (descFld n).1 ∨ (descFld m).2.lo + (descFld m).2.w ≤ (descFld n).2.lo
    ∨ (descFld n).2.lo + (descFld n).2.w ≤ (descFld m).2.lo

/-- The integer or bit-wise meaning of the functions of R330, modulo 2^64; a shift count is the low 6 bits of the second
operand. -/
def aluValue (fn : AluFn) (a b : Word) : Word :=
  match fn with
  | .add => BitVec.ofNat 64 (a.toNat + b.toNat)
  | .sub => BitVec.ofInt 64 (a.toInt - b.toInt)
  | .mul => BitVec.ofNat 64 (a.toNat * b.toNat)
  | .and => BitVec.ofNat 64 (a.toNat &&& b.toNat)
  | .or => BitVec.ofNat 64 (a.toNat ||| b.toNat)
  | .xor => BitVec.ofNat 64 (a.toNat ^^^ b.toNat)
  | .shl => BitVec.ofNat 64 (a.toNat * 2 ^ (b.toNat % 64))
  | .shr => BitVec.ofNat 64 (a.toNat / 2 ^ (b.toNat % 64))
  | .sra => BitVec.ofInt 64 (a.toInt / 2 ^ (b.toNat % 64))
  | .min => BitVec.ofInt 64 (min a.toInt b.toInt)
  | .max => BitVec.ofInt 64 (max a.toInt b.toInt)
  | .minu => BitVec.ofNat 64 (min a.toNat b.toNat)
  | .maxu => BitVec.ofNat 64 (max a.toNat b.toNat)

/-- The conditions of R330 as comparisons of integers, signed or unsigned. -/
def cmpHolds (cc : CmpCc) (a b : Word) : Prop :=
  match cc with
  | .eq => a = b
  | .ne => a ≠ b
  | .lt => a.toInt < b.toInt
  | .le => a.toInt ≤ b.toInt
  | .gt => b.toInt < a.toInt
  | .ge => b.toInt ≤ a.toInt
  | .ltu => a.toNat < b.toNat
  | .leu => a.toNat ≤ b.toNat
  | .gtu => b.toNat < a.toNat
  | .geu => b.toNat ≤ a.toNat

/-- The instruction `id` of core `l` has executed and awaits its post (R48). -/
def Executed (t : State) (x l id : Nat) : Prop := ∃ r f, getRun t x l = some r ∧ r.inFlight id = some f ∧ f.stage = .executed

/-- The instruction `id` of core `l` has completed (R48, R327): it is no longer in flight, its token is posted, the task's
registers are `g`; whatever else the task has is as it was in `r`. -/
def Completed (t : State) (x l id : Nat) (r : Running) (f : Flight) (g : TaskRegs) : Prop :=
  ∃ q, getRun t x l = some q
    ∧ q = { r with flying := r.flying.filter (fun e => e.id != id), tokens := q.tokens, regs := g }
    ∧ ∀ k, k < 32 → q.token k = tokenAfter 0 f.postTok k (r.token k)

/-- The instruction `id` of core `l` waits for `w` (R328). -/
def Waits (t : State) (x l id : Nat) (w : CommWait) : Prop := ∃ r f, startedAt t x l id = some (r, f) ∧ f.waits = w

/-- Of the flags, only `b` differs. -/
def OnlyFlag (s t : State) (b : Nat) (v : FlagSt) : Prop := getFlag t b = v ∧ ∀ c, c ≠ b → getFlag t c = getFlag s c

/-- Of the barriers, only `b` differs. -/
def OnlyBar (s t : State) (b : Nat) (v : BarSt) : Prop := getBar t b = v ∧ ∀ c, c ≠ b → getBar t c = getBar s c

/-- Of the rings, only `n` differs. -/
def OnlyRing (s t : State) (n : Nat) (v : Ring) : Prop := getRing t n = v ∧ ∀ m, m ≠ n → getRing t m = getRing s m

/-- No entry that waits for a collective group could enter it now (R295). -/
def NoneReady (s : State) : Prop := ∀ k, (getGrp s k).waiting.find? (fun e => !(getGrp s k).busy e.1) = none

/-- Of the groups, only `k` differs. -/
def OnlyGrp (s t : State) (k : Nat) : Prop := ∀ j, j ≠ k → getGrp t j = getGrp s j

/-- Registers written one after another (R327). -/
def wroteAll (g : TaskRegs) (ws : List (GReg × Word)) : TaskRegs := ws.foldl (fun g w => g.setG w.1 w.2) g

/-! ### Rows that an engine writes -/

/-- The command that executes a vector instruction of operation `op` (R181). -/
def vCommand (op : VOp) (x l id : Nat) (ecc : List EccEvent) : Instr :=
  match op with
  | .add => .vAdd x l id ecc | .sub => .vSub x l id ecc | .mul => .vMul x l id ecc | .div => .vDiv x l id ecc
  | .fma => .vFma x l id ecc | .max => .vMax x l id ecc | .min => .vMin x l id ecc | .adds => .vAdds x l id ecc
  | .muls => .vMuls x l id ecc | .axpy => .vAxpy x l id ecc | .sqrt => .vSqrt x l id ecc | .rsqrt => .vRsqrt x l id ecc
  | .exp => .vExp x l id ecc | .log => .vLog x l id ecc | .silu => .vSilu x l id ecc | .cvt => .vCvt x l id ecc
  | .red => .vRed x l id ecc

/-- The registers of a core that count and site exceptions (R82 to R85). -/
def numRegs (s : State) (x l : Nat) : List Nat :=
  let c := physCore s (getCtx s x).part l
  [Reg.EXC_STICKY c, Reg.BLOCK_LOSS c, Reg.SAT_COUNT c, Reg.EXC_SITE c, Reg.EXC_SITE_PC c]

/-- Whether a write of row `o` through descriptor `d` of a region at `base` writes the byte at `a` (R36, R173). -/
def rowHits (base : Nat) (d : Desc) (o : RowOut) (a : Nat) : Prop :=
  (d.rowAddr base o.row ≤ a ∧ a < d.rowAddr base o.row + o.data.length)
    ∨ ((d.rowPlane base o.row).1 ≤ a ∧ a < (d.rowPlane base o.row).1 + o.scales.length)

/-- Memory after these rows, in their order, were written through `d`, and every byte that none of them writes as it was. -/
def WroteRows (s t : State) (x l : Nat) (d : Desc) (rows : List RowOut) : Prop :=
  t.mem = (rows.foldl (writeRow (handleOf s x l d.handle).base d) s).mem
    ∧ ∀ a, (∀ o ∈ rows, ¬ rowHits (handleOf s x l d.handle).base d o a) → readByte t a = readByte s a

/-- Rows of a descriptor that share no byte (R37). -/
def rowsApart (d : Desc) (base : Nat) : Prop :=
  ∀ i j, i < d.rows → j < d.rows → i ≠ j →
    d.rowAddr base i + d.rowLen ≤ d.rowAddr base j ∨ d.rowAddr base j + d.rowLen ≤ d.rowAddr base i

/-! ### Registers -/

/-- A bit of a field as a write leaves it (R495): `m` and `v` are the mask's and the value's bit. -/
def writtenBit (f : FieldDef) (locked old m v : Bool) : Bool :=
  if f.reserved then old
  else match f.acc with
    | .rw => if m then v else old
    | .rwl => if m && !locked then v else old
    | .w1c => old && !(m && v)
    | .ro | .wo => old

/-- The fields of a register lie within it and share no bit (R495). -/
def FieldsApart (d : RegDef) : Prop :=
  (∀ f, f ∈ d.fields → f.lo + f.w ≤ 64) ∧ d.fields.Pairwise (fun f g => f.lo + f.w ≤ g.lo ∨ g.lo + g.w ≤ f.lo)

/-- A register that no unit follows and whose write commands nothing: the pages HUM, ETH, the ports', FAB, SWM and ERR, the selectors,
what stands behind them, the command registers and EXC_SITE have statements of their own. -/
def plainReg (a : Nat) : Prop :=
  ¬(a / 0x1000 = 0x03 ∨ a / 0x1000 = 0x06 ∨ (0x08 ≤ a / 0x1000 ∧ a / 0x1000 ≤ 0x0B) ∨ a / 0x1000 = 0x17) ∧ a ∉ selectors
    ∧ a ≠ Reg.SRV_CLASS ∧ a ≠ Reg.CDC_FIFO_CNT ∧ a ≠ Reg.PWR_CMD ∧ a ≠ Reg.CMB_FLUSH ∧ a ≠ Reg.CKP_CMD
    ∧ ∀ c, c < 72 → a ≠ Reg.EXC_SITE c

/-- The selectors with their fields, and the words of what they select where those stand (R498). -/
def shownBy (s : State) (v : Word) : List (Nat × Fld × Nat × List Word) :=
  let n (f : Fld) : Nat := getF f v
  [(Reg.BRD_CELL_SEL, Fld.BRD_CELL_SEL_CELL, Reg.BRD_CELL 0, (getCell s (n Fld.BRD_CELL_SEL_CELL)).words),
   (Reg.SYN_FLAG_SEL, Fld.SYN_FLAG_SEL_FLAG, Reg.SYN_FLAG, [flagWord s (n Fld.SYN_FLAG_SEL_FLAG)]),
   (Reg.SYN_BAR_SEL, Fld.SYN_BAR_SEL_BARRIER, Reg.SYN_BAR, [barWord s (n Fld.SYN_BAR_SEL_BARRIER)]),
   (Reg.MSG_RING_SEL, Fld.MSG_RING_SEL_RING, Reg.MSG_RING 0, (getRing s (n Fld.MSG_RING_SEL_RING)).words),
   (Reg.COL_GSEL, Fld.COL_GSEL_SLOT, Reg.COL_G 0, (getGrp s (n Fld.COL_GSEL_SLOT)).words),
   (Reg.WGL_TREE_SEL, Fld.WGL_TREE_SEL_TREE, Reg.WGL_TREE, [(getTree s (n Fld.WGL_TREE_SEL_TREE)).word]),
   (Reg.SRV_MODEL_SEL, Fld.SRV_MODEL_SEL_MODEL, Reg.SRV_MODEL0, modelWords (getModel s (n Fld.SRV_MODEL_SEL_MODEL))),
   (Reg.SRV_ST_SEL, Fld.SRV_ST_SEL_ENTRY, Reg.SRV_ST 0, streamWords (getStream s (n Fld.SRV_ST_SEL_ENTRY))),
   (Reg.YLP_SESS_SEL, Fld.YLP_SESS_SEL_SESSION, Reg.YLP_SESS, sessWords (getSess s (n Fld.YLP_SESS_SEL_SESSION))),
   (Reg.SRV_CLASS_SEL, Fld.SRV_CLASS_SEL_CLASS, 0, []),
   (Reg.CDC_FIFO_SEL, Fld.CDC_FIFO_SEL_FIFO, 0, [])]

/-! ### Requests of the host -/

/-- A request that its session can bring (R447, R449): the host port is UP, the session open, its last request answered. -/
def Asked (s : State) (sess : Nat) : Prop := ethUp s = true ∧ (getSess s sess).isSome = true ∧ sessBusy s sess = false

/-- The requests of a session as rows: session and tag. -/
def requestOf (i : Instr) : Option (Nat × Nat) :=
  match i with
  | .closeSess n t | .regRd n t _ | .regWr n t _ | .memRd n t _ _ _ | .memWr n t _ _ _ | .upload n t _ _ _ _ | .bootGo n t | .cfgApply n t
  | .ctxLoad n t _ _ _ _ _ | .ctxLaunch n t _ _ | .ctxStop n t _ | .ctxResume n t _ | .ctxUnload n t _ | .ctxSave n t _ _ _
  | .ctxRestore n t _ _ _ | .ctxHandles n t _ _ _ | .doorbell n t _ _ | .ringSend n t _ _ _ | .events n t _ | .input n t _ _ _ _ _
  | .join n t _ | .cancel n t _ | .model n t _ | .attest n t _ _ | .keyInstall n t _ _ _ _ | .prpRevoke n t _ _ _ _ _ _ | .prpSvnCommit n t
  | .prpDebugChallenge n t | .prpDebugResponse n t _ _ _ _ _ => some (n, t)
  | _ => none

/-- The requests that the boot ROM does not know (R450). -/
def firmwareOnly (i : Instr) : Prop :=
  match i with
  | .regWr .. | .memRd .. | .memWr .. | .ctxLaunch .. | .ctxStop .. | .ctxResume .. | .ctxUnload .. | .ctxSave .. | .ctxRestore .. | .ctxHandles ..
  | .doorbell .. | .ringSend .. | .input .. | .join .. | .cancel .. | .model .. | .keyInstall .. => True
  | _ => False

/-- The OP of a request (R450). -/
def opOf (i : Instr) : Nat :=
  match i with
  | .closeSess .. => 0x04 | .regRd .. => 0x10 | .regWr .. => 0x11 | .memRd .. => 0x20 | .memWr .. => 0x21 | .upload .. => 0x30
  | .bootGo .. => 0x31 | .cfgApply .. => 0x32 | .ctxLoad .. => 0x40 | .ctxLaunch .. => 0x41 | .ctxStop .. => 0x42
  | .ctxResume .. => 0x43 | .ctxUnload .. => 0x44 | .ctxSave .. => 0x45 | .ctxRestore .. => 0x46 | .ctxHandles .. => 0x47
  | .doorbell .. => 0x50 | .ringSend .. => 0x51 | .events .. => 0x60 | .input .. => 0x70 | .join .. => 0x80 | .cancel .. => 0x81
  | .model .. => 0x83 | .attest .. => 0x90 | .keyInstall .. => 0x91
  | .prpRevoke .. | .prpSvnCommit .. | .prpDebugChallenge .. | .prpDebugResponse .. => 0xA0
  | _ => 0

/-- A request of session `n` has been heard, and is answered (R448). -/
def served (s : State) (n op tag : Nat) (a : Answer) : State := answer (hearFrom s n) n op tag a

/-- What leaves outside sessions: an answer of words alone, and HELLO (R445, R447, R450). -/
def bare (s : State) (op tag st : Nat) (ws : List Word) : Output :=
  .message (headsOf s noSession 0 (.reply op tag st ws []) 0 0) (.reply op tag st ws [])
def helloOut (s : State) (tag : Option Nat) : Output :=
  let b := TxBody.hello tag (helloWords s) Config.identityCert
  .message (headsOf s noSession 0 b 0 0) b

/-- An ACK_ONLY message of session `n`, with its ACK (R448). -/
def ackOut (s : State) (n : Nat) (v : Sess) (ack : Nat) : Output := .message (headsOf s n v.addr .ack 0 ack) .ack

end Sys2Proof.Machine
end

