-- ==== Sys2Proof/Certificates/Slice0/Obligations.lean ====
section
/-! DEFINITION. The statements about the device, for the provers: one definition each, named in OBLIGATIONS.json. -/

open Sys2Proof Sys2Proof.Machine

/-- A step is the command at the front of the queue, executed on the state with the rest of the queue; with none waiting the
block idles (log entry 12). -/
def Obligations.StepRunsTheFront : Prop :=
  (∀ (s : State) (c : Instr) (cs : List Instr), s.pending = c :: cs → step s = exec c { s with pending := cs })
  ∧ ∀ s : State, s.pending = [] → step s = .next s

/-- Every command is answered by a next state, in every state: no command faults or is refused (log entry 6). -/
def Obligations.EveryCommandAnswers : Prop := ∀ (c : Instr) (s : State), ∃ t, exec c s = .next t

/-- Memory stays in its canonical form through every step. -/
def Obligations.StepKeepsMemoryCanonical : Prop := ∀ s t : State, MemoryOk s → step s = .next t → MemoryOk t

/-- Memory is in its canonical form at reset. State.reset (R31, R260, R269, R458, R496): every register that neither the fuses
nor the design nor the reset itself sets (log entry 1) reads its reset value in every field; no context, flag, barrier wait,
ring, session, record or event is there; what memory reads then is the model's choice (log entry 3). -/
def Obligations.ResetHolds : Prop :=
  (MemoryOk State.reset)
  ∧
  ((∀ a d, regDefAt a = some d → a ∉ resetRegs.map (·.1) → ∀ f, f ∈ d.fields → fld State.reset a ⟨f.lo, f.w⟩ = f.reset)
   ∧ (∀ x, getCtx State.reset x = Ctx.free) ∧ (∀ f, getFlag State.reset f = FlagSt.off) ∧ (∀ b, (getBar State.reset b).g = 0)
   ∧ (∀ n, (getRing State.reset n).valid = false) ∧ (∀ k, (getGrp State.reset k).valid = false) ∧ (∀ c, getCell State.reset c = Cell.free)
   ∧ (∀ n, getSess State.reset n = none) ∧ State.reset.recs = [] ∧ State.reset.log = [] ∧ State.reset.hostQ = []
   ∧ State.reset.pending = [] ∧ bootPhase State.reset = 1 ∧ booted State.reset = false ∧ ∀ a, readByte State.reset a = 0)

/-- Decoding the encoding of a well-formed word gives the word back. -/
def Obligations.CynalRoundTrip : Prop := ∀ w : CWord, w.wf = true → decodeCynal (encodeCynal w) = some w

/-- No two words mean the same: a word that decodes is the encoding of what it decodes to. -/
def Obligations.CynalOneWordEach : Prop := ∀ (w : Word) (c : CWord), decodeCynal w = some c → encodeCynal c = w

/-- Words written out from the encoding tables decode to the instructions that they stand for (R43, R44, R165, R171, R182, R191,
R329, R338, R343, R346, R351); the C.BULK and the S.WAIT are the spec's own. Reserved opcodes and bits decode to nothing. -/
def Obligations.CynalWords : Prop :=
  decodeCynal 0x6800C0C8A2C00000 = some ⟨0, 3, false, 0, .cBulk 3 2 10 11⟩
  ∧ decodeCynal 0x5A10404000C80000 = some ⟨2, 1, false, 0, .sWait 0x1000 12 true false 0 0⟩
  ∧ decodeCynal 0x0F282C0000000000 = some ⟨5, 0, true, 3, .kNop⟩
  ∧ decodeCynal 0x080000521C000000 = some ⟨0, 0, false, 0, .kLd 5 2 7⟩
  ∧ decodeCynal 0x03000000FFFFFFFF = some ⟨0, 0, false, 0, .kBr (-1)⟩
  ∧ decodeCynal 0 = none
  ∧ decodeCynal 0x5000010400000000 = some ⟨0, 0, false, 0, .mCpy ⟨4, 1, 0, false, false, false, 0⟩⟩
  ∧ decodeCynal 0x34000048D2800090
      = some ⟨0, 0, false, 0, .v .fma ⟨1, 2, 3, 4, .sr, true, .fp32, false, false, false, .sum, 0, 9⟩⟩
  ∧ decodeCynal 0x20000001BE40A000 = some ⟨0, 0, false, 0, .aLdw ⟨0, 0, 6, 15, 2, 1, .rne, false, false, false, 20, 0⟩⟩
  ∧ decodeCynal 0x6000008641200000 = some ⟨0, 0, false, 0, .qSend 2 3 8 9⟩
  ∧ decodeCynal 0x7000003000000000 = some ⟨0, 0, false, 0, .bRd 3⟩
  ∧ decodeCynal 0x1000000000000000 = none ∧ decodeCynal 0x7200000000000000 = none ∧ decodeCynal 0x6A00000000000000 = none
  ∧ decodeCynal 0x0100000000000001 = none ∧ decodeCynal 0x0F00000000000001 = none

/-- K.ALU and K.ALUI (R330). K.CMP writes one predicate (R329, R330). The codes of FN and CC (R330): a word of K.ALU, K.ALUI or
K.CMP decodes to the function or the condition of its code; the codes marked "—" are reserved. -/
def Obligations.AluResults : Prop :=
  ((∀ (s : State) (x l : Nat) (r : Running) (f : Flight) (fn : AluFn) (gd ga gb : GReg), Held s x l r f (.kAlu fn gd ga gb) →
     ∃ t r', exec (.kAlu x l) s = .next t ∧ OnlyTask s t x l ∧ getRun t x l = some r' ∧ Stepped r r' f (f.pc + 8)
       ∧ WroteG r.regs r'.regs gd (aluValue fn (f.regs.getG ga) (f.regs.getG gb)))
   ∧ ∀ (s : State) (x l : Nat) (r : Running) (f : Flight) (fn : AluFn) (gd ga : GReg) (imm : Word),
     Held s x l r f (.kAlui fn gd ga imm) →
     ∃ t r', exec (.kAlui x l) s = .next t ∧ OnlyTask s t x l ∧ getRun t x l = some r' ∧ Stepped r r' f (f.pc + 8)
       ∧ WroteG r.regs r'.regs gd (aluValue fn (f.regs.getG ga) imm))
  ∧
  (∀ (s : State) (x l : Nat) (r : Running) (f : Flight) (pd : PReg) (cc : CmpCc) (ga gb : GReg),
     Held s x l r f (.kCmp pd cc ga gb) →
     ∃ t r', exec (.kCmp x l) s = .next t ∧ OnlyTask s t x l ∧ getRun t x l = some r' ∧ Stepped r r' f (f.pc + 8)
       ∧ (∀ p, r'.regs.getP p = true ↔
           if p = 0 then True else if p = pd then cmpHolds cc (f.regs.getG ga) (f.regs.getG gb) else r.regs.getP p = true)
       ∧ (∀ g, r'.regs.getG g = r.regs.getG g) ∧ ∀ d, r'.regs.getT d = r.regs.getT d)
  ∧
  ((∀ (n : Nat) (d a b : GReg), n < 16 →
     decodeCynal (BitVec.ofNat 64 (0x04 * 2 ^ 56 + n * 2 ^ 38 + d.val * 2 ^ 32 + a.val * 2 ^ 26 + b.val * 2 ^ 20))
       = ([.add, .sub, .mul, .and, .or, .xor, .shl, .shr, .sra, .min, .max, .minu, .maxu] : List AluFn)[n]?.map
           (fun fn => ⟨0, 0, false, 0, .kAlu fn d a b⟩))
   ∧ (∀ (n i : Nat) (d a : GReg), n < 16 → i < 2 ^ 26 →
     decodeCynal (BitVec.ofNat 64 (0x05 * 2 ^ 56 + n * 2 ^ 38 + d.val * 2 ^ 32 + a.val * 2 ^ 26 + i))
       = ([.add, .sub, .mul, .and, .or, .xor, .shl, .shr, .sra, .min, .max, .minu, .maxu] : List AluFn)[n]?.map
           (fun fn => ⟨0, 0, false, 0, .kAlui fn d a (BitVec.ofInt 64 (if i < 2 ^ 25 then i else (i : Int) - 2 ^ 26))⟩))
   ∧ ∀ (n : Nat) (p : PReg) (a b : GReg), n < 16 →
     decodeCynal (BitVec.ofNat 64 (0x07 * 2 ^ 56 + p.val * 2 ^ 39 + n * 2 ^ 35 + a.val * 2 ^ 29 + b.val * 2 ^ 23))
       = ([.eq, .ne, .lt, .le, .gt, .ge, .ltu, .leu, .gtu, .geu] : List CmpCc)[n]?.map
           (fun cc => ⟨0, 0, false, 0, .kCmp p cc a b⟩))

/-- K.MOVI, K.ID, K.TRD and B.RD write one scalar register (R329, R334, R335, R351). K.TCPY and K.TD write one descriptor (R329,
R335). -/
def Obligations.ScalarAndDescriptorResults : Prop :=
  ((∀ (s : State) (x l : Nat) (r : Running) (f : Flight) (gd : GReg) (hi : Bool) (imm : BitVec 32),
     Held s x l r f (.kMovi gd hi imm) →
     ∃ t r' v, exec (.kMovi x l) s = .next t ∧ OnlyTask s t x l ∧ getRun t x l = some r' ∧ Stepped r r' f (f.pc + 8)
       ∧ WroteG r.regs r'.regs gd v
       ∧ v.toNat = if hi then imm.toNat * 2 ^ 32 + (r.regs.getG gd).toNat % 2 ^ 32 else imm.toNat)
   ∧ (∀ (s : State) (x l : Nat) (r : Running) (f : Flight) (gd : GReg) (sel : Nat), Held s x l r f (.kId gd sel) →
     ∃ t r', exec (.kId x l) s = .next t ∧ OnlyTask s t x l ∧ getRun t x l = some r' ∧ Stepped r r' f (f.pc + 8)
       ∧ WroteG r.regs r'.regs gd (BitVec.ofNat 64 (identity s x r sel)))
   ∧ (∀ (s : State) (x l : Nat) (r : Running) (f : Flight) (gd : GReg) (ts : TReg) (n : Nat), Held s x l r f (.kTrd gd ts n) →
     ∃ t r', exec (.kTrd x l) s = .next t ∧ OnlyTask s t x l ∧ getRun t x l = some r' ∧ Stepped r r' f (f.pc + 8)
       ∧ WroteG r.regs r'.regs gd (BitVec.ofNat 64 ((f.regs.getT ts).getFld n)))
   ∧ ∀ (s : State) (x l : Nat) (r : Running) (f : Flight) (gd : GReg), Held s x l r f (.bRd gd) →
     ∃ t r', exec (.bRd x l) s = .next t ∧ OnlyTask s t x l ∧ getRun t x l = some r' ∧ Stepped r r' f (f.pc + 8)
       ∧ WroteG r.regs r'.regs gd (rd s Reg.HUM_BEAT))
  ∧
  ((∀ (s : State) (x l : Nat) (r : Running) (f : Flight) (td ts : TReg), Held s x l r f (.kTcpy td ts) →
     ∃ t r', exec (.kTcpy x l) s = .next t ∧ OnlyTask s t x l ∧ getRun t x l = some r' ∧ Stepped r r' f (f.pc + 8)
       ∧ (∀ d, r'.regs.getT d = if d = td then f.regs.getT ts else r.regs.getT d)
       ∧ (∀ g, r'.regs.getG g = r.regs.getG g) ∧ ∀ p, r'.regs.getP p = r.regs.getP p)
   ∧ ∀ (s : State) (x l : Nat) (r : Running) (f : Flight) (td : TReg) (n : Nat) (add : Bool) (ga : GReg) (v : Nat),
     Held s x l r f (.kTd td n add ga) → n < 14 → v < 2 ^ (descFld n).2.w →
     (v : Int) = (if add then ((f.regs.getT td).getFld n : Int) + asSigned 64 (f.regs.getG ga).toNat else (f.regs.getG ga).toNat) →
     ∃ t r', exec (.kTd x l) s = .next t ∧ OnlyTask s t x l ∧ getRun t x l = some r' ∧ Stepped r r' f (f.pc + 8)
       ∧ (r'.regs.getT td).getFld n = v
       ∧ (∀ m, m < 14 → fldsApart m n → (r'.regs.getT td).getFld m = (f.regs.getT td).getFld m)
       ∧ (∀ d, d ≠ td → r'.regs.getT d = r.regs.getT d)
       ∧ (∀ g, r'.regs.getG g = r.regs.getG g) ∧ ∀ p, r'.regs.getP p = r.regs.getP p)

/-- K.NOP, K.BR, K.END and B.AT write no register (R331, R332, R329, R351): the first three complete at once, B.AT once the beat
has come, and before that it holds the sequencer. An instruction whose predicate is false, or whose effective count is zero, has
no effect but its wait and its post (R46 steps 2 and 4): the sequencer's own instructions. -/
def Obligations.ControlResults : Prop :=
  ((∀ (s : State) (x l : Nat) (r : Running) (f : Flight), Held s x l r f .kNop →
     ∃ t r', exec (.kNop x l) s = .next t ∧ OnlyTask s t x l ∧ getRun t x l = some r' ∧ Stepped r r' f (f.pc + 8)
       ∧ r'.regs = r.regs)
   ∧ (∀ (s : State) (x l : Nat) (r : Running) (f : Flight) (ofs : Int), Held s x l r f (.kBr ofs) →
     0 ≤ (f.pc : Int) + 8 * ofs →
     ∃ t r' pc, exec (.kBr x l) s = .next t ∧ OnlyTask s t x l ∧ getRun t x l = some r' ∧ Stepped r r' f pc
       ∧ (pc : Int) = f.pc + 8 * ofs ∧ r'.regs = r.regs)
   ∧ (∀ (s : State) (x l : Nat) (r : Running) (f : Flight), Held s x l r f .kEnd →
     ∃ t r', exec (.kEnd x l) s = .next t ∧ OnlyTask s t x l ∧ getRun t x l = some { r' with ended := true }
       ∧ SteppedNoPost r r' f r.pc)
   ∧ ∀ (s : State) (x l : Nat) (r : Running) (f : Flight) (ga : GReg) (imm : Nat), Held s x l r f (.bAt ga imm) →
     (((f.regs.getG ga).toNat + imm) % 2 ^ 64 ≤ (rd s Reg.HUM_BEAT).toNat →
       ∃ t r', exec (.bAt x l) s = .next t ∧ OnlyTask s t x l ∧ getRun t x l = some r' ∧ Stepped r r' f (f.pc + 8)
         ∧ r'.regs = r.regs)
     ∧ ((rd s Reg.HUM_BEAT).toNat < ((f.regs.getG ga).toNat + imm) % 2 ^ 64 → exec (.bAt x l) s = .next s))
  ∧
  (∀ (s : State) (x l : Nat) (r : Running) (f : Flight), seqAt s x l = some (r, f) → f.live = false →
     ∀ c : Instr,
       ((c = .kEnd x l ∧ f.op.instr = .kEnd) ∨ (c = .kNop x l ∧ f.op.instr = .kNop)
         ∨ (c = .kBr x l ∧ ∃ o, f.op.instr = .kBr o) ∨ (c = .kAlu x l ∧ ∃ fn a b d, f.op.instr = .kAlu fn d a b)
         ∨ (c = .kAlui x l ∧ ∃ fn a d i, f.op.instr = .kAlui fn d a i) ∨ (c = .kMovi x l ∧ ∃ d h i, f.op.instr = .kMovi d h i)
         ∨ (c = .kCmp x l ∧ ∃ p cc a b, f.op.instr = .kCmp p cc a b) ∨ ((∃ ecc, c = .kLd x l ecc) ∧ ∃ d u b, f.op.instr = .kLd d u b)
         ∨ (c = .kSt x l ∧ ∃ a d b, f.op.instr = .kSt a d b) ∨ (c = .kId x l ∧ ∃ d n, f.op.instr = .kId d n)
         ∨ (c = .kTd x l ∧ ∃ d n a g, f.op.instr = .kTd d n a g) ∨ (c = .kTcpy x l ∧ ∃ d u, f.op.instr = .kTcpy d u)
         ∨ (c = .kTrd x l ∧ ∃ d u n, f.op.instr = .kTrd d u n) ∨ (c = .kSpawn x l ∧ ∃ e a i b, f.op.instr = .kSpawn e a i b)
         ∨ (c = .kCtxEvent x l ∧ ∃ a, f.op.instr = .kCtxEvent a) ∨ (c = .kCtxStop x l ∧ ∃ a, f.op.instr = .kCtxStop a)
         ∨ (c = .bRd x l ∧ ∃ d, f.op.instr = .bRd d) ∨ (c = .bAt x l ∧ ∃ a i, f.op.instr = .bAt a i)) →
       ∃ t r', exec c s = .next t ∧ OnlyTask s t x l ∧ getRun t x l = some r' ∧ Stepped r r' f (f.pc + 8) ∧ r'.regs = r.regs)

/-- K.ST stores the eight bytes of a register, least significant first, at the address that its descriptor and its index
register give (R333, R519), and nothing elsewhere in memory. K.LD loads the eight bytes at that address into a register (R333,
R519), with memory as it was; where the bytes are poisoned it loads nothing and its context faults (R155, R30). -/
def Obligations.ScalarMemoryResults : Prop :=
  (∀ (s : State) (x l : Nat) (r : Running) (f : Flight) (ga gb : GReg) (td : TReg), Held s x l r f (.kSt ga td gb) →
     ∃ t r' a, exec (.kSt x l) s = .next t ∧ getRun t x l = some r' ∧ Stepped r r' f (f.pc + 8) ∧ r'.regs = r.regs
       ∧ a = (handleOf s x l (f.regs.getT td).handle).base + (f.regs.getT td).offset + (f.regs.getG gb).toNat
       ∧ (∀ i, i < 8 → readByte t (a + i) = BitVec.ofNat 8 ((f.regs.getG ga).toNat / 2 ^ (8 * i)))
       ∧ SameBytesOutside s t a 8
       ∧ OnlyTaskCtxs s t x l
       ∧ (∀ q, (∀ p, ownerAt s a = some p ∨ ownerAt s (a + 7) = some p → q ≠ Reg.CMB_HIT p) → rd t q = rd s q)
       ∧ t = { s with ctxs := t.ctxs, mem := t.mem, poison := t.poison, regs := t.regs, comb := t.comb, free := t.free })
  ∧
  (∀ (s : State) (x l : Nat) (r : Running) (f : Flight) (gd gb : GReg) (ts : TReg) (ecc : List EccEvent) (a : Nat),
     Held s x l r f (.kLd gd ts gb) →
     a = (handleOf s x l (f.regs.getT ts).handle).base + (f.regs.getT ts).offset + (f.regs.getG gb).toNat →
     (poisoned (eccApply s (f.regs.getT ts).handle a 8 ecc) a 8 = false →
       ∃ t r' v, exec (.kLd x l ecc) s = .next t ∧ getRun t x l = some r' ∧ Stepped r r' f (f.pc + 8)
         ∧ WroteG r.regs r'.regs gd v ∧ (∀ i, i < 8 → BitVec.ofNat 8 (v.toNat / 2 ^ (8 * i)) = readByte s (a + i))
         ∧ SameBytes s t ∧ OnlyTaskCtxs s t x l)
     ∧ (poisoned (eccApply s (f.regs.getT ts).handle a 8 ecc) a 8 = true → r.task.kind = .plain →
       ∃ t r', exec (.kLd x l ecc) s = .next t ∧ (getCtx t x).st = .faulted ∧ getRun t x l = some r'
         ∧ r' = { r with seq := none } ∧ SameBytes s t))

/-- K.SPAWN pushes a task onto the near end of its home core's deque (R336, R117, R118), where an idle core takes it at once
(R114); with no room it is refused (R117). K.CTX EVENT places a program event on the host event queue and goes on; K.CTX STOP
places it and stops the context without a post (R337). -/
def Obligations.SpawnAndContextResults : Prop :=
  (∀ (s : State) (x l : Nat) (r : Running) (f : Flight) (ge ga gi : GReg) (bind : Bool) (k : Task),
     Held s x l r f (.kSpawn ge ga gi bind) → k = spawnedTask s x r f.regs ge ga gi bind →
     k.entry = f.regs.getG ge ∧ k.args.length = 8 ∧ (∀ i, i < 8 → k.args[i]? = some (f.regs.getN (ga.val + i)))
     ∧ k.tid = (f.regs.getG gi).toNat % 2 ^ 32 ∧ (k.home, k.group) = homeOf s x k.tid
     ∧ k.bound = (if bind then r.task.bound else .none)
     ∧ (dequeRoom s x k.home = true → (getRun s x k.home).isSome →
         ∃ t r', exec (.kSpawn x l) s = .next t ∧ getRun t x l = some r' ∧ Stepped r r' f (f.pc + 8) ∧ r'.regs = r.regs
           ∧ (getCore t x k.home).deque = k :: (getCore s x k.home).deque
           ∧ (∀ m, m ≠ k.home → (getCore t x m).deque = (getCore s x m).deque)
           ∧ (∀ c, k.bound = .cell c → (getCell t c).tasks = (getCell s c).tasks + 1)
           ∧ t = { s with ctxs := t.ctxs, cells := t.cells })
     ∧ (dequeRoom s x k.home = true → getRun s x k.home = none → entryCheck s x k.home k.entry = none →
         ∃ t r' q, exec (.kSpawn x l) s = .next t ∧ getRun t x l = some r' ∧ Stepped r r' f (f.pc + 8) ∧ r'.regs = r.regs
           ∧ getRun t x k.home = some q ∧ StartedTask s x k.home q k
           ∧ (getCore t x k.home).deque = (getCore s x k.home).deque)
     ∧ (dequeRoom s x k.home = false → r.task.kind = .plain →
         ∃ t e, exec (.kSpawn x l) s = .next t ∧ (getCtx t x).st = .faulted ∧ t.recs = s.recs ++ [e] ∧ e.code = 0x0303
           ∧ e.ctx = some x ∧ e.pc = f.pc ∧ e.d0 = f.word.toNat ∧ e.d1 = 5))
  ∧
  ((∀ (s : State) (x l : Nat) (r : Running) (f : Flight) (ga : GReg), Held s x l r f (.kCtxEvent ga) →
     (s.hostQ.filter (fun q => !q.isGap)).length < 4095 →
     ∃ t r', exec (.kCtxEvent x l) s = .next t ∧ getRun t x l = some r' ∧ Stepped r r' f (f.pc + 8) ∧ r'.regs = r.regs
       ∧ t.hostQ = s.hostQ ++ [⟨.program x (physCore s (getCtx s x).part l) f.pc (f.regs.getG ga), false, [], []⟩]
       ∧ OnlyTaskCtxs s t x l ∧ t = { s with ctxs := t.ctxs, hostQ := t.hostQ })
   ∧ ∀ (s : State) (x l : Nat) (r : Running) (f : Flight) (ga : GReg), Held s x l r f (.kCtxStop ga) →
     (s.hostQ.filter (fun q => !q.isGap)).length < 4095 →
     ∃ t r', exec (.kCtxStop x l) s = .next t ∧ getRun t x l = some r' ∧ SteppedNoPost r r' f (f.pc + 8)
       ∧ t.hostQ = s.hostQ ++ [⟨.program x (physCore s (getCtx s x).part l) f.pc (f.regs.getG ga), false, [], []⟩]
       ∧ (getCtx t x).st = .stopped ∧ (getCtx t x).fromLoaded = false
       ∧ (∀ y, y ≠ x → getCtx t y = getCtx s y)
       ∧ ((getSlice s (getCtx s x).part).ctx = some x → (getSlice t (getCtx s x).part).ctx = none)
       ∧ t = { s with ctxs := t.ctxs, hostQ := t.hostQ, slices := t.slices })

/-- INSTRUCTION_FETCH: the word at the program counter is read, decoded and checked, and goes to the sequencer or to the tail of
its engine's queue, with the registers as they are now (R43, R45, R46, R32). A word that no row of the encoding tables allows is
refused with RESERVED_OPCODE at step 1, and its context faults (R46, R47, R521). ENGINE_QUEUE_START: the head of an engine's
queue, its token there, starts: it leaves the queue, its wait is consumed, and it is in flight; one without effect completes at
once with its post (R45, R46, R48). An A.LDW makes its shadow sets LOADING (R102). TOKEN_POST: an instruction that has executed
leaves the flight list and posts its token (R48). -/
def Obligations.IssueStartAndPost : Prop :=
  (∀ (s m : State) (x l : Nat) (r : Running) (w : CWord) (live : Bool) (ecc : List EccEvent), getRun s x l = some r →
     runningCtx s x = true → m = fetchMeet s r ecc →
     coreHeld s x l = false → r.seq = none → r.ended = false → r.poisonStop = false → r.pc + 8 ≤ r.base + r.size →
     poisoned m r.pc 8 = false → decodeCynal (wordAt s r.pc) = some w →
     (∀ o, w.instr = .aMul o ∨ w.instr = .aMult o → o.defer = false) → judge s x l r w = .goes live →
     r.postRoom w.post = true →
     (engineOf w.instr = none →
       ∃ t f, exec (.instructionFetch x l ecc) s = .next t ∧ OnlyTask m t x l
         ∧ getRun t x l = some { r with seq := some f, nextId := r.nextId + 1 }
         ∧ f.id = r.nextId ∧ f.pc = r.pc ∧ f.op = w ∧ f.live = live ∧ f.regs = r.regs ∧ f.stage = .issued)
     ∧ (∀ q, engineOf w.instr = some q → (r.queue q).length < 32 →
       ∃ t r' f, exec (.instructionFetch x l ecc) s = .next t ∧ OnlyTask m t x l ∧ getRun t x l = some r'
         ∧ r'.queue q = r.queue q ++ [f] ∧ (∀ p, p ≠ q → r'.queue p = r.queue p) ∧ r'.pc = r.pc + 8
         ∧ r'.nextId = r.nextId + 1 ∧ r'.regs = r.regs ∧ r'.tokens = r.tokens ∧ r'.flying = r.flying ∧ r'.seq = none
         ∧ f.id = r.nextId ∧ f.pc = r.pc ∧ f.op = w ∧ f.live = live ∧ f.regs = r.regs ∧ f.stage = .issued)
     ∧ (∀ q, engineOf w.instr = some q → 32 ≤ (r.queue q).length → exec (.instructionFetch x l ecc) s = .next m))
  ∧
  (∀ (s m : State) (x l : Nat) (r : Running) (ecc : List EccEvent), getRun s x l = some r → runningCtx s x = true →
     m = fetchMeet s r ecc → coreHeld s x l = false → r.seq = none → r.ended = false → r.poisonStop = false → r.pc + 8 ≤ r.base + r.size →
     poisoned m r.pc 8 = false → decodeCynal (wordAt s r.pc) = none → r.task.kind = .plain →
     ∃ t e, exec (.instructionFetch x l ecc) s = .next t ∧ t.recs = m.recs ++ [e] ∧ e.code = 0x1101 ∧ e.sev = 2
       ∧ e.ctx = some x ∧ e.forager = l ∧ e.pc = r.pc ∧ e.d0 = (wordAt s r.pc).toNat ∧ e.d1 = 1
       ∧ (getCtx t x).st = .faulted ∧ getRun t x l = some r ∧ SameBytes s t ∧ t.regs = m.regs
       ∧ t = { m with recs := t.recs, recSeq := t.recSeq, ctxs := t.ctxs, slices := t.slices })
  ∧
  (∀ (s : State) (x l : Nat) (q : EngineQ) (r : Running) (f : Flight) (fs : List Flight), getRun s x l = some r →
     r.queue q = f :: fs → runningCtx s x = true → engineHeld s x l q = false → r.ready f.op.wait = true →
     (q = .comm → commRoom s x r f = true) →
     (f.live = true → (q = .array → arrStart (getCore s x l) r f = .starts) →
       ∃ t r', exec (.engineQueueStart x l q) s = .next t ∧ OnlyCore s t x l ∧ getRun t x l = some r'
         ∧ (r'.queue q).map (·.id) = fs.map (·.id) ∧ (∀ p, p ≠ q → r'.queue p = r.queue p)
         ∧ r'.flying = r.flying ++ [{ f with stage := .started }] ∧ r'.regs = r.regs ∧ r'.seq = r.seq ∧ r'.pc = r.pc
         ∧ (∀ k, k < 32 → r'.token k = tokenAfter f.op.wait 0 k (r.token k))
         ∧ (getCore t x l).deque = (getCore s x l).deque
         ∧ ((∀ o, f.op.instr ≠ .aLdw o) → (getCore t x l).arrays = (getCore s x l).arrays)
         ∧ (∀ o, f.op.instr = .aLdw o → ∀ a, a < (getCore s x l).arrays.length → o.mask.val.testBit a = true →
             (arrSets (getCore t x l) a).shadow.st = .loading
               ∧ (arrSets (getCore t x l) a).active = (arrSets (getCore s x l) a).active))
     ∧ (f.live = false → r.poisonStop = false →
       ∃ t r', exec (.engineQueueStart x l q) s = .next t ∧ OnlyTask s t x l ∧ getRun t x l = some r'
         ∧ (r'.queue q).map (·.id) = fs.map (·.id) ∧ r'.flying = r.flying ∧ r'.regs = r.regs
         ∧ ∀ k, k < 32 → r'.token k = tokenAfter f.op.wait f.postTok k (r.token k)))
  ∧
  (∀ (s : State) (x l id : Nat) (r : Running) (f : Flight), getRun s x l = some r → r.inFlight id = some f →
     f.stage = .executed → r.poisonStop = false →
     ∃ t r', exec (.tokenPost x l id) s = .next t ∧ OnlyTask s t x l ∧ getRun t x l = some r'
       ∧ r' = { r with flying := r.flying.filter (fun g => g.id != id), tokens := r'.tokens }
       ∧ ∀ k, k < 32 → r'.token k = tokenAfter 0 f.postTok k (r.token k))

/-- TASK_END_COMPLETE: a task whose K.END has executed and whose instructions have all completed leaves its core, what it
handled and what it was bound to learn of it, and the forager takes the task at the near end of the deque (R48, R114, R118).
FORAGER_STEAL: an idle core with an empty deque takes the task nearest the far end that it may take, from the first core in its
probe order that has one, and PLC_STEALS counts it (R119, R120); a slice whose beats have run out ends before the task starts,
which then stands at the near end of the thief's deque (R121; log entry 69). HELD_SPAWN_RELEASE: the oldest spawn held for want
of room is pushed onto its end of the deque once there is room (R203). SLICE_END and SLICE_START: at its last beat a context
gives its partition's slice up and is RUNNABLE again; the next RUNNABLE context in ascending order after the one served last
takes it, RUNNING, for PLC_SLICE beats (R27, R29). -/
def Obligations.TasksAndSlices : Prop :=
  (∀ (s : State) (x l : Nat) (r : Running), getRun s x l = some r → r.ended = true → r.quiet = true → r.seq = none →
     runningCtx s x = true →
     exec (.taskEndComplete x l) s
         = .next (dispatchCore (boundEnded (kindEnded (setRun s x l none) x l r) x r.task.bound) x l)
     ∧ (r.task.kind = .plain → r.task.bound = .none → (getCore s x l).deque = [] →
       ∃ t, exec (.taskEndComplete x l) s = .next t ∧ getRun t x l = none ∧ OnlyTask s t x l)
     ∧ (∀ k ks, r.task.kind = .plain → r.task.bound = .none → (getCore s x l).deque = k :: ks →
       entryCheck s x l k.entry = none →
       ∃ t q, exec (.taskEndComplete x l) s = .next t ∧ getRun t x l = some q ∧ StartedTask s x l q k
         ∧ (getCore t x l).deque = ks ∧ ∀ m, m ≠ l → getCore t x m = getCore s x m)
     ∧ (∀ c, r.task.kind = .plain → r.task.bound = .cell c →
       exec (.taskEndComplete x l) s = .next (dispatchCore (cellTaskEnded (setRun s x l none) c) x l)))
  ∧
  (∀ (s : State) (x thief v : Nat) (k : Task) (d : List Task), flg s Reg.PLC_CTL Fld.PLC_CTL_STEAL = true →
     runningCtx s x = true → getRun s x thief = none → (getCore s x thief).deque = [] →
     thief < (coresOf s (getCtx s x).part).length →
     (probeOrder s x thief).findSome? (fun v => (takeFar thief (getCore s x v).deque).map (fun e => (v, e.1, e.2)))
       = some (v, k, d) →
     entryCheck s x thief k.entry = none →
     ∃ t, exec (.foragerSteal x thief) s = .next t ∧ v ≠ thief ∧ (getCore t x v).deque = d
       ∧ ((getSlice s (getCtx s x).part).left ≠ 0 →
         ∃ q, getRun t x thief = some q ∧ StartedTask s x thief q k ∧ (getCore t x thief).deque = [])
       ∧ ((getSlice s (getCtx s x).part).left = 0 →
         getRun t x thief = none ∧ (getCore t x thief).deque = [k] ∧ SameBytes s t)
       ∧ SameRegsBut s t [Reg.PLC_STEALS (getCtx s x).part]
       ∧ (let p := (getCtx s x).part
          let near := decide (dieOf (physCore s p v) = dieOf (physCore s p thief))
          fld t (Reg.PLC_STEALS p) Fld.PLC_STEALS_SAME_DIE
              = satAdd 32 (fld s (Reg.PLC_STEALS p) Fld.PLC_STEALS_SAME_DIE) (if near then 1 else 0)
            ∧ fld t (Reg.PLC_STEALS p) Fld.PLC_STEALS_CROSS_DIE
              = satAdd 32 (fld s (Reg.PLC_STEALS p) Fld.PLC_STEALS_CROSS_DIE) (if near then 0 else 1)))
  ∧
  (∀ (s : State) (x l : Nat) (near : Bool) (k : Task) (hs : List (Bool × Task)), (getCore s x l).held = (near, k) :: hs →
     dequeRoom s x l = true →
     ((getRun s x l).isSome →
       ∃ t, exec (.heldSpawnRelease x l) s = .next t ∧ OnlyCore s t x l ∧ (getCore t x l).held = hs
         ∧ (getCore t x l).deque = (if near then k :: (getCore s x l).deque else (getCore s x l).deque ++ [k])
         ∧ getRun t x l = getRun s x l ∧ (getCore t x l).arrays = (getCore s x l).arrays)
     ∧ (getRun s x l = none → (getCore s x l).deque = [] → runningCtx s x = true → entryCheck s x l k.entry = none →
       ∃ t q, exec (.heldSpawnRelease x l) s = .next t ∧ getRun t x l = some q ∧ StartedTask s x l q k
         ∧ (getCore t x l).held = hs ∧ (getCore t x l).deque = []))
  ∧
  ((∀ (s : State) (p x : Nat), (getSlice s p).ctx = some x → (getSlice s p).left = 0 →
     ∃ t, exec (.sliceEnd p) s = .next t ∧ getSlice t p = ⟨none, 0, x⟩ ∧ OnlyCtxState s t x .runnable
       ∧ (∀ q, q ≠ p → getSlice t q = getSlice s q) ∧ t = { s with ctxs := t.ctxs, slices := t.slices })
   ∧ ∀ (s : State) (p x : Nat), (getSlice s p).ctx = none → nextCtx s p = some x → s.pins.tripped = false →
     exec (.sliceStart p) s = .next (startSlice s p x)
     ∧ (idleCtx s x = true →
       ∃ t, exec (.sliceStart p) s = .next t ∧ (getCtx t x).st = .running
         ∧ getSlice t p = ⟨some x, max 1 (fld s (Reg.PLC_SLICE x) Fld.PLC_SLICE_BEATS), x⟩
         ∧ (∀ y, y ≠ x → getCtx t y = getCtx s y) ∧ (∀ q, q ≠ p → getSlice t q = getSlice s q)
         ∧ t = { s with ctxs := t.ctxs, slices := t.slices }))

/-- V.ADD, V.SUB, V.MUL, V.DIV, V.FMA, V.MAX, V.MIN, V.ADDS, V.MULS, V.AXPY, V.SQRT, V.RSQRT, V.EXP, V.LOG, V.SILU, V.CVT and
V.RED (vCommand names the command of each): a started vector instruction whose sources hold no poison writes every row of its
destination, the row computed and cast by its operation, and awaits its post; no other byte of memory changes, and of the
registers only the exception state of its core (R181 to R189, R82 to R88, R155). Where poison stops it, the context faults, the
instruction leaves without a post, and only rows before the first poisoned one have been written (R155, R30); how many is a free
value (log entry 7). -/
def Obligations.VectorResults : Prop :=
  (∀ (s m : State) (x l id : Nat) (r : Running) (f : Flight) (op : VOp) (o : VOps) (ecc : List EccEvent),
     Started s x l id r f (.v op o) → m = vMeet s x l f op o ecc → vPoison m x l f op o = none →
     ∃ t, exec (vCommand op x l id ecc) s = .next t ∧ Executed t x l id ∧ OnlyTaskCtxs s t x l
       ∧ WroteRows s t x l (f.regs.getT o.td) ((List.range (f.regs.getT o.td).rows).map fun n =>
           (vRowOut s x l f op o ((chunkOf s x l r.task.kind).getD []) n).cast.out (f.regs.getT o.td).format n)
       ∧ SameRegsBut m t (numRegs s x l)
       ∧ t = { m with ctxs := t.ctxs, mem := t.mem, poison := t.poison, train := t.train, regs := t.regs, recs := t.recs,
                      recSeq := t.recSeq, thrLogged := t.thrLogged })
  ∧
  (∀ (s : State) (x l id : Nat) (r : Running) (f : Flight) (op : VOp) (o : VOps) (ecc : List EccEvent) (k : Nat),
     Started s x l id r f (.v op o) → runningCtx s x = true → r.task.kind = .plain →
     vPoison (vMeet s x l f op o ecc) x l f op o = some k →
     ∃ t n, exec (vCommand op x l id ecc) s = .next t ∧ n ≤ k ∧ (getCtx t x).st = .faulted
       ∧ (∃ q, getRun t x l = some q ∧ q.inFlight id = none ∧ q.tokens = r.tokens)
       ∧ ∀ a, (∀ j, j < n → ¬ rowHits (handleOf s x l (f.regs.getT o.td).handle).base (f.regs.getT o.td)
           ((vRowOut s x l f op o ((chunkOf s x l r.task.kind).getD []) j).cast.out (f.regs.getT o.td).format j) a) →
           readByte t a = readByte s a)

/-- A.LDW loads the shadow sets of its arrays, A.SWP exchanges shadow and active (R101 to R103); nothing else changes. A.MUL and
A.MULT (R96, R100, R106, R107): a product over the resident set, or over weights streamed with it, writes every output row,
accumulated and cast, and awaits its post; a deferred one keeps its accumulators for A.DRN; nothing else in memory changes.
A.DRN writes the accumulators of the product issued with it into one destination, or two, and the pair awaits its post (R100,
R178, R179). -/
def Obligations.ArrayResults : Prop :=
  ((∀ (s : State) (x l id : Nat) (r : Running) (f : Flight) (o : AOps) (ecc : List EccEvent), Started s x l id r f (.aLdw o) →
     (let m := ldwMeet s x l f o ecc
      let tw := f.regs.getT o.tw
      let c := arrCount (f.regs.getG o.gc)
      let n := arrN o
      let k := arrK o ((arrKmax tw.format).getD 0)
      let q : LoadRec := ⟨(getCtx s x).loads, tw, o.nsel.val, o.ksel.val, c.nq * n, c.kq * k⟩
      (weightPoisoned m (handleOf s x l tw.handle).base tw (c.nq * n) n (c.kq * k) k = false →
         ∃ t, exec (.aLdw x l id ecc) s = .next t ∧ Executed t x l id
           ∧ (∀ a, a < (getCore s x l).arrays.length →
               arrSets (getCore t x l) a
                 = if o.mask.val.testBit a then ⟨(arrSets (getCore s x l) a).active, ⟨.ready, some q, loadCols s x l q⟩⟩
                   else arrSets (getCore s x l) a)
           ∧ (getCore t x l).deque = (getCore s x l).deque ∧ (∀ i, i ≠ l → getCore t x i = getCore s x i)
           ∧ (∀ y, y ≠ x → getCtx t y = getCtx s y) ∧ t = { m with ctxs := t.ctxs })
      ∧ (weightPoisoned m (handleOf s x l tw.handle).base tw (c.nq * n) n (c.kq * k) k = true → runningCtx s x = true →
         r.task.kind = .plain →
         ∃ t, exec (.aLdw x l id ecc) s = .next t ∧ (getCtx t x).st = .faulted
           ∧ ∀ a, a < (getCore s x l).arrays.length → o.mask.val.testBit a = true →
               arrSets (getCore t x l) a = ⟨(arrSets (getCore s x l) a).active, ⟨.empty, none, []⟩⟩)))
   ∧ ∀ (s : State) (x l id : Nat) (r : Running) (f : Flight) (o : AOps), Started s x l id r f (.aSwp o) →
     ∃ t, exec (.aSwp x l id) s = .next t ∧ Executed t x l id ∧ OnlyCore s t x l
       ∧ (∀ a, a < (getCore s x l).arrays.length →
           arrSets (getCore t x l) a
             = if o.mask.val.testBit a then ⟨(arrSets (getCore s x l) a).shadow, (arrSets (getCore s x l) a).active⟩
               else arrSets (getCore s x l) a)
       ∧ (getCore t x l).deque = (getCore s x l).deque)
  ∧
  (∀ (s : State) (x l id : Nat) (r : Running) (f : Flight) (o : AOps) (mult : Bool) (c : Instr) (i : CInstr)
     (ecc : List EccEvent) (m : State),
     ((mult = false ∧ c = .aMul x l id ecc ∧ i = .aMul o) ∨ (mult = true ∧ c = .aMult x l id ecc ∧ i = .aMult o)) →
     Started s x l id r f i → m = prodMeet s x l mult f o ecc → prodPoison m x l mult f o = none →
     (o.defer = false →
       ∃ t, exec c s = .next t ∧ Executed t x l id
         ∧ WroteRows s t x l (f.regs.getT o.td)
             ((prodRows s x l mult f o (f.regs.getT o.ta).rows).zipIdx.map fun (a, n) =>
               (drainRow (ftzOf s x) (seedOf s x) (f.regs.getT o.ta).scaleNum
                 ((prodRec s x l mult f o).elim (.fin false 1 0) (fun q => q.desc.scaleNum))
                 ⟨f.regs.getT o.td, o.rnd, o.sat, (f.regs.getG o.gt).toNat⟩ n a).out (f.regs.getT o.td).format n)
         ∧ SameRegsBut m t (numRegs s x l)
         ∧ (o.strm = false → OnlyTaskCtxs s t x l)
         ∧ t = { m with ctxs := t.ctxs, mem := t.mem, poison := t.poison, train := t.train, regs := t.regs, recs := t.recs,
                        recSeq := t.recSeq, thrLogged := t.thrLogged })
     ∧ (o.defer = true → f.acc = [] →
       ∃ t q, exec c s = .next t ∧ startedAt t x l id
           = some (q, { f with acc := prodRows s x l mult f o (f.regs.getT o.ta).rows })
         ∧ q.tokens = r.tokens ∧ t = { m with ctxs := t.ctxs }))
  ∧
  (∀ (s : State) (x l id : Nat) (r : Running) (f : Flight) (o : AOps) (dw : Word) (w : CWord) (q : DrnOps) (i : CInstr),
     (i = .aMul o ∨ i = .aMult o) → Started s x l id r f i → f.drn = some (dw, w) → w.instr = .aDrn q →
     f.acc ≠ [] →
     (let row (td : Desc) (rnd : Rnd) (sat : Bool) (tid : Nat) (e : AccRow × Nat) : RowOut :=
        (drainRow (ftzOf s x) (seedOf s x) (f.regs.getT o.ta).scaleNum
          (((arrSets (getCore s x l) ((arrMask o.mask).headD 0)).active.loaded).elim (.fin false 1 0) (fun q => q.desc.scaleNum))
          ⟨td, rnd, sat, tid⟩ e.2 e.1).out td.format e.2
      let rows0 := f.acc.zipIdx.map (row (f.regs.getT q.td0) q.rnd0 q.sat0 (f.regs.getG q.gt).toNat)
      let rows1 := f.acc.zipIdx.map (row (f.regs.getT q.td1) q.rnd1 q.sat1 (((f.regs.getG q.gt).toNat + 1) % 2 ^ 64))
      ∃ t, exec (.aDrn x l id) s = .next t ∧ Executed t x l id ∧ OnlyTaskCtxs s t x l
        ∧ (q.en1 = false → WroteRows s t x l (f.regs.getT q.td0) rows0)
        ∧ (q.en1 = true → ∃ m, WroteRows s m x l (f.regs.getT q.td0) rows0 ∧ WroteRows m t x l (f.regs.getT q.td1) rows1
            ∧ m = { s with mem := m.mem, poison := m.poison, train := m.train })
        ∧ SameRegsBut (drnMeet s x l f q) t (numRegs s x l)
        ∧ t = { drnMeet s x l f q with
            ctxs := t.ctxs, mem := t.mem, poison := t.poison, train := t.train, regs := t.regs, recs := t.recs,
            recSeq := t.recSeq, thrLogged := t.thrLogged }))

/-- The moves: M.CPY copies each row, M.GTH row index[r] of its source to row r, M.SCT row r of its source to row index[r],
M.TRN element (j, i) to element (i, j), M.FIL the low bits of a register everywhere (R192 to R195). Each writes its
destination's rows and nothing elsewhere, and awaits its post. M.CPY byte by byte: where the destination's rows share no byte
(R37) and no source row is poisoned, every byte of every row of a format without scale plane reads after the move what the
source's byte read before it (R192). M.SCT with ACC adds in FP32 (R194): a scatter of one row into one row leaves the sums of
the two rows' elements, each rounded once to nearest even, with subnormals flushed where the context says so. -/
def Obligations.MoveResults : Prop :=
  ((∀ (s m : State) (x l id : Nat) (r : Running) (f : Flight) (o : MOps) (ecc : List EccEvent), Started s x l id r f (.mCpy o) →
     m = mMeet s x l f ecc →
     (∀ n, n < (f.regs.getT o.td).rows → rowPoisoned m (handleOf s x l (f.regs.getT o.ts).handle).base (f.regs.getT o.ts) n = false) →
     ∃ t, exec (.mCpy x l id ecc) s = .next t ∧ Executed t x l id ∧ OnlyTaskCtxs s t x l
       ∧ WroteRows s t x l (f.regs.getT o.td) ((List.range (f.regs.getT o.td).rows).map fun n =>
           copyRow s (handleOf s x l (f.regs.getT o.ts).handle).base (f.regs.getT o.ts) n n)
       ∧ t = { m with ctxs := t.ctxs, mem := t.mem, poison := t.poison, train := t.train })
   ∧ (∀ (s m : State) (x l id : Nat) (r : Running) (f : Flight) (o : MOps) (ecc : List EccEvent), Started s x l id r f (.mGth o) →
     m = mMeet s x l f ecc →
     rowPoisoned m (handleOf s x l (f.regs.getT o.ti).handle).base (f.regs.getT o.ti) 0 = false →
     (∀ i ∈ indices s x l (f.regs.getT o.ti), 0 ≤ i ∧ i < (f.regs.getT o.ts).rows) →
     (∀ n, n < (f.regs.getT o.td).rows → rowPoisoned m (handleOf s x l (f.regs.getT o.ts).handle).base (f.regs.getT o.ts)
         ((indices s x l (f.regs.getT o.ti)).getD n 0).toNat = false) →
     ∃ t, exec (.mGth x l id ecc) s = .next t ∧ Executed t x l id ∧ OnlyTaskCtxs s t x l
       ∧ WroteRows s t x l (f.regs.getT o.td) ((indices s x l (f.regs.getT o.ti)).zipIdx.map fun (i, n) =>
           copyRow s (handleOf s x l (f.regs.getT o.ts).handle).base (f.regs.getT o.ts) i.toNat n)
       ∧ t = { m with ctxs := t.ctxs, mem := t.mem, poison := t.poison, train := t.train })
   ∧ (∀ (s m : State) (x l id : Nat) (r : Running) (f : Flight) (o : MOps) (ecc : List EccEvent), Started s x l id r f (.mSct o) →
     m = mMeet s x l f ecc → o.acc = false → rowPoisoned m (handleOf s x l (f.regs.getT o.ti).handle).base (f.regs.getT o.ti) 0 = false →
     (∀ i ∈ indices s x l (f.regs.getT o.ti), 0 ≤ i ∧ i < (f.regs.getT o.td).rows) →
     (∀ n, n < (f.regs.getT o.ts).rows → rowPoisoned m (handleOf s x l (f.regs.getT o.ts).handle).base (f.regs.getT o.ts) n = false) →
     ∃ t, exec (.mSct x l id ecc) s = .next t ∧ Executed t x l id ∧ OnlyTaskCtxs s t x l
       ∧ WroteRows s t x l (f.regs.getT o.td) ((indices s x l (f.regs.getT o.ti)).zipIdx.map fun (i, n) =>
           copyRow s (handleOf s x l (f.regs.getT o.ts).handle).base (f.regs.getT o.ts) n i.toNat)
       ∧ t = { m with ctxs := t.ctxs, mem := t.mem, poison := t.poison, train := t.train })
   ∧ (∀ (s m : State) (x l id : Nat) (r : Running) (f : Flight) (o : MOps) (ecc : List EccEvent), Started s x l id r f (.mTrn o) →
     m = mMeet s x l f ecc →
     (∀ n, n < (f.regs.getT o.td).rows → ∀ j, j < (f.regs.getT o.ts).dim1 →
       rowPoisoned m (handleOf s x l (f.regs.getT o.ts).handle).base (f.regs.getT o.ts)
         (n / (f.regs.getT o.td).dim1 * (f.regs.getT o.ts).dim1 + j) = false) →
     ∃ t, exec (.mTrn x l id ecc) s = .next t ∧ Executed t x l id ∧ OnlyTaskCtxs s t x l
       ∧ WroteRows s t x l (f.regs.getT o.td) ((List.range (f.regs.getT o.td).dim2).flatMap fun p =>
           (List.range (f.regs.getT o.td).dim1).map fun i => ⟨p * (f.regs.getT o.td).dim1 + i,
             packRow (f.regs.getT o.td).format ((List.range (f.regs.getT o.ts).dim1).map fun j =>
               (rowCodes s (handleOf s x l (f.regs.getT o.ts).handle).base (f.regs.getT o.ts)
                 (p * (f.regs.getT o.ts).dim1 + j)).getD i 0), []⟩)
       ∧ t = { m with ctxs := t.ctxs, mem := t.mem, poison := t.poison, train := t.train })
   ∧ ∀ (s m : State) (x l id : Nat) (r : Running) (f : Flight) (o : MOps), Started s x l id r f (.mFil o) →
     m = mMeet s x l f [] →
     ∃ t, exec (.mFil x l id) s = .next t ∧ Executed t x l id ∧ OnlyTaskCtxs s t x l
       ∧ WroteRows s t x l (f.regs.getT o.td) ((List.range (f.regs.getT o.td).rows).map fun n => ⟨n,
           packRow (f.regs.getT o.td).format (List.replicate (f.regs.getT o.td).dim0
             ((f.regs.getG o.gf).toNat % 2 ^ fmtBits (f.regs.getT o.td).format)), []⟩)
       ∧ t = { m with ctxs := t.ctxs, mem := t.mem, poison := t.poison, train := t.train })
  ∧
  (∀ (s : State) (x l id : Nat) (r : Running) (f : Flight) (o : MOps) (n j : Nat), Started s x l id r f (.mCpy o) →
     (let d := f.regs.getT o.td
      let c := f.regs.getT o.ts
      let db := (handleOf s x l d.handle).base
      let cb := (handleOf s x l c.handle).base
      rowsApart d db → fmtMx d.format = false → c.format = d.format → c.dim0 = d.dim0 →
      (∀ m, m < d.rows → rowPoisoned s cb c m = false) → n < d.rows → j < d.rowLen →
      ∃ t, exec (.mCpy x l id []) s = .next t ∧ readByte t (d.rowAddr db n + j) = readByte s (c.rowAddr cb n + j)))
  ∧
  (∀ (s : State) (x l id : Nat) (r : Running) (f : Flight) (o : MOps) (i : Int), Started s x l id r f (.mSct o) →
     (let d := f.regs.getT o.td
      let c := f.regs.getT o.ts
      let ti := f.regs.getT o.ti
      let db := (handleOf s x l d.handle).base
      let cb := (handleOf s x l c.handle).base
      o.acc = true → d.format = 0 → c.rows = 1 → indices s x l ti = [i] → 0 ≤ i → i < d.rows →
      rowPoisoned s (handleOf s x l ti.handle).base ti 0 = false → rowPoisoned s cb c 0 = false →
      rowPoisoned s db d i.toNat = false →
      ∃ t, exec (.mSct x l id []) s = .next t ∧ Executed t x l id
        ∧ WroteRows s t x l d [⟨i.toNat, packRow 0 (((rowCodes s db d i.toNat).zip (rowCodes s cb c 0)).map fun (u, v) =>
            (sctAdd (ftzOf s x) u v).1), []⟩]
        ∧ SameRegsBut (mMeet s x l f []) t (numRegs s x l)))

/-- S.CLR and a local S.SET (R261, R264): a clear makes the flag 0; a set of a flag that is 0 makes it 1, one of a flag that is
1 is merged and counted; with no wait on the flag, both complete at once. A set wakes every KEEP wait on the flag and then the
CONSUME wait that began first, which takes the flag back to 0 (R264): the waits woken are no longer in flight. S.WAIT (R263,
R264, R266): on a flag that is 0 it waits; on one that is 1, with no other wait there, it completes at once, a CONSUME wait
taking the flag back to 0, a SOFT one writing status 0. A remote set that finds a flag for remote use sets it and is answered 0;
another is answered NO_HANDLER with a SYN_UNMAPPED record and sets nothing (R262). -/
def Obligations.FlagResults : Prop :=
  ((∀ (s : State) (x l id : Nat) (r : Running) (f : Flight) (name : Nat) (gx : GReg), Started s x l id r f (.sClr name gx) →
     r.poisonStop = false →
     (let b := entryIndex (flagEntry s x (sName f.regs name gx))
      ∃ t, exec (.sClr x l id) s = .next t ∧ Completed t x l id r f r.regs
        ∧ OnlyFlag s t b { getFlag s b with value := false } ∧ OnlyTaskCtxs s t x l
        ∧ t = { s with ctxs := t.ctxs, flags := t.flags }))
   ∧ ∀ (s : State) (x l id : Nat) (r : Running) (f : Flight) (name : Nat) (gx gr gs : GReg),
     Started s x l id r f (.sSet name gx false gr gs) → f.waits = .none → r.poisonStop = false →
     (let b := entryIndex (flagEntry s x (sName f.regs name gx))
      let p := (getCtx s x).part
      liveWaits s (waitsOn b false) = [] → liveWaits s (waitsOn b true) = [] →
      ((getFlag s b).value = false →
        ∃ t, exec (.sSet x l id) s = .next t ∧ Completed t x l id r f r.regs
          ∧ OnlyFlag s t b { getFlag s b with value := true } ∧ OnlyTaskCtxs s t x l
          ∧ t = { s with ctxs := t.ctxs, flags := t.flags })
      ∧ ((getFlag s b).value = true →
        ∃ t, exec (.sSet x l id) s = .next t ∧ Completed t x l id r f r.regs
          ∧ OnlyFlag s t b ⟨true, satAdd 8 (getFlag s b).merges 1⟩ ∧ OnlyTaskCtxs s t x l
          ∧ OnlyField s t (Reg.SYN_STAT p) Fld.SYN_STAT_OVERSIGNALS
              (satAdd Fld.SYN_STAT_OVERSIGNALS.w (fld s (Reg.SYN_STAT p) Fld.SYN_STAT_OVERSIGNALS) 1)
          ∧ SameRegsBut s t [Reg.SYN_STAT p]
          ∧ (flg s (Reg.SYN_PART p) Fld.SYN_PART_OVERSIGNAL_EN = false → t.recs = s.recs)
          ∧ t = { s with ctxs := t.ctxs, flags := t.flags, regs := t.regs, recs := t.recs, recSeq := t.recSeq })))
  ∧
  (∀ (s : State) (x l id : Nat) (r : Running) (f : Flight) (name : Nat) (gx gr gs : GReg) (e : Nat × Nat × Flight)
     (es : List (Nat × Nat × Flight)),
     Started s x l id r f (.sSet name gx false gr gs) → f.waits = .none → r.poisonStop = false →
     (let b := entryIndex (flagEntry s x (sName f.regs name gx))
      (getFlag s b).value = false → liveWaits s (waitsOn b false) = [] → liveWaits s (waitsOn b true) = e :: es →
      (∀ q, getRun s e.1 e.2.1 = some q → q.poisonStop = false) →
      ∃ t, exec (.sSet x l id) s = .next t ∧ OnlyFlag s t b { getFlag s b with value := false }
        ∧ (∀ q, getRun t e.1 e.2.1 = some q → q.inFlight e.2.2.id = none)
        ∧ (∀ q, getRun t x l = some q → q.inFlight id = none)
        ∧ t = { s with ctxs := t.ctxs, flags := t.flags }))
  ∧
  (∀ (s : State) (x l id : Nat) (r : Running) (f : Flight) (name : Nat) (gx gt gs : GReg) (consume soft : Bool),
     Started s x l id r f (.sWait name gx consume soft gt gs) → f.waits = .none → r.poisonStop = false → runningCtx s x = true →
     (let b := entryIndex (flagEntry s x (sName f.regs name gx))
      ((getFlag s b).value = false →
        ∃ t, exec (.sWait x l id) s = .next t ∧ Waits t x l id (.flag b) ∧ OnlyTaskCtxs s t x l
          ∧ t = { s with ctxs := t.ctxs, waitSeq := s.waitSeq + 1 })
      ∧ ((getFlag s b).value = true → liveWaits s (waitsOn b false) = [] → liveWaits s (waitsOn b true) = [] →
        ∃ t, exec (.sWait x l id) s = .next t
          ∧ Completed t x l id r f (if soft then r.regs.setG gs 0 else r.regs)
          ∧ OnlyFlag s t b { getFlag s b with value := !consume } ∧ OnlyTaskCtxs s t x l
          ∧ t = { s with ctxs := t.ctxs, flags := t.flags, waitSeq := s.waitSeq + 1 })))
  ∧
  (∀ (s : State) (rank x name : Nat),
     (let e := flagEntry s x name
      let n := name % 65536
      (residentIn s x = true → entryValid e = true → entryBarrier e = false → entryRemote e = true →
        (getFlag s (entryIndex (flagEntry s x n))).value = false →
        liveWaits s (waitsOn (entryIndex (flagEntry s x n)) false) = [] →
        liveWaits s (waitsOn (entryIndex (flagEntry s x n)) true) = [] →
        ∃ t, exec (.remoteSetArrival rank x name) s = .next t
          ∧ OnlyFlag s t (entryIndex e) { getFlag s (entryIndex e) with value := true }
          ∧ t.out = s.out ++ [.setAnswer rank n 0] ∧ t = { s with flags := t.flags, out := t.out })
      ∧ ((residentIn s x = false ∨ entryValid e = false ∨ entryBarrier e = true ∨ entryRemote e = false) →
        ∃ t c, exec (.remoteSetArrival rank x name) s = .next t ∧ t.out = s.out ++ [.setAnswer rank n 7]
          ∧ t.recs = s.recs ++ [c] ∧ c.code = 0x0402 ∧ c.sev = 2 ∧ c.obj = n ∧ c.d0 = 4 ∧ c.d1 = rank
          ∧ t = { s with recs := t.recs, recSeq := t.recSeq, out := t.out })))

/-- S.BAR (R269, R270, R342) of a barrier that spans no other device: an entry that is not the last counts; a SPLIT one
completes, another waits for the generation it entered; the last entry releases the generation, and every wait for it is woken;
an entry for the generation after next is refused with SYN_BARRIER_OVERRUN. S.BWAIT (R270): it completes once its participant's
last generation is released, and waits for it before that. The barrier trees (R319): a node that has all entries for a
generation passes one up its tree, or, at the root, releases it; a release goes down every child port and, where the node is a
participant's, releases its barrier; an entry for the generation after next is logged. -/
def Obligations.BarrierResults : Prop :=
  (∀ (s : State) (x l id : Nat) (r : Running) (f : Flight) (name : Nat) (gx gt gs gi : GReg) (split soft : Bool),
     Started s x l id r f (.sBar name gx split soft gt gs gi) → f.waits = .none → r.poisonStop = false → runningCtx s x = true →
     (let b := entryIndex (flagEntry s x (sName f.regs name gx))
      let i := (f.regs.getG gi).toNat % 65536
      let v := getBar s b
      let n := Sparse.get 0 v.gens i
      barTree s b = none → v.up = false →
      (n = v.g → v.arrived + 1 ≠ v.e → liveWaits s (waitsBar b v.g) = [] →
        ∃ t, exec (.sBar x l id) s = .next t
          ∧ OnlyBar s t b { v with arrived := v.arrived + 1, gens := Sparse.set 0 v.gens i (n + 1) }
          ∧ (split = true → Completed t x l id r f r.regs) ∧ (split = false → Waits t x l id (.barrier b (v.g + 1) i))
          ∧ OnlyTaskCtxs s t x l ∧ t = { s with ctxs := t.ctxs, bars := t.bars, waitSeq := t.waitSeq })
      ∧ (n = v.g → v.arrived + 1 = v.e → (∀ y m q, getRun s y m = some q → q.poisonStop = false) →
        ∃ t, exec (.sBar x l id) s = .next t
          ∧ OnlyBar s t b { v with g := v.g + 1, arrived := 0, gens := Sparse.set 0 v.gens i (n + 1) }
          ∧ (∀ q, getRun t x l = some q → q.inFlight id = none)
          ∧ (∀ e ∈ liveWaits s (waitsBar b (v.g + 1)), ∀ q, getRun t e.1 e.2.1 = some q → q.inFlight e.2.2.id = none)
          ∧ t = { s with ctxs := t.ctxs, bars := t.bars, waitSeq := t.waitSeq })
      ∧ (n ≠ v.g → r.task.kind = .plain →
        ∃ t e, exec (.sBar x l id) s = .next t ∧ t.recs = s.recs ++ [e] ∧ e.code = 0x0404 ∧ e.obj = b ∧ e.d0 = i ∧ e.d1 = n + 1
          ∧ e.d2 = v.g ∧ e.d3 = sName f.regs name gx ∧ (getCtx t x).st = .faulted ∧ t.bars = s.bars)))
  ∧
  (∀ (s : State) (x l id : Nat) (r : Running) (f : Flight) (name : Nat) (gx gt gs gi : GReg) (soft : Bool),
     Started s x l id r f (.sBwait name gx soft gt gs gi) → f.waits = .none → r.poisonStop = false → runningCtx s x = true →
     (let b := entryIndex (flagEntry s x (sName f.regs name gx))
      let i := (f.regs.getG gi).toNat % 65536
      let v := getBar s b
      liveWaits s (waitsBar b v.g) = [] →
      (Sparse.get 0 v.gens i ≤ v.g →
        ∃ t, exec (.sBwait x l id) s = .next t ∧ Completed t x l id r f (if soft then r.regs.setG gs 0 else r.regs)
          ∧ OnlyTaskCtxs s t x l ∧ t = { s with ctxs := t.ctxs, waitSeq := s.waitSeq + 1 })
      ∧ (v.g < Sparse.get 0 v.gens i →
        ∃ t, exec (.sBwait x l id) s = .next t ∧ Waits t x l id (.barrier b (Sparse.get 0 v.gens i) i)
          ∧ OnlyTaskCtxs s t x l ∧ t = { s with ctxs := t.ctxs, waitSeq := s.waitSeq + 1 })))
  ∧
  ((∀ (s : State) (k port gen : Nat), (getTree s k).valid = true → (getTree s k).down.testBit port = true →
     (let v := getTree s k
      let v' : WTree := { v with entries := if v.entries.contains (some port, gen) then v.entries else v.entries ++ [(some port, gen)] }
      (gen = v.released + 1 → enteredAll v' gen = false →
        ∃ t, exec (.waggleBarrierEntry k port gen) s = .next t ∧ getTree t k = v' ∧ t = { s with trees := t.trees })
      ∧ (gen = v.released + 1 → enteredAll v' gen = true → v.root = false →
        ∃ t, exec (.waggleBarrierEntry k port gen) s = .next t ∧ getTree t k = v' ∧ t.out = s.out ++ [.barUp k v.up gen]
          ∧ t = { s with trees := t.trees, out := t.out })
      ∧ (gen = v.released + 1 → enteredAll v' gen = true → v.root = true → v.relay = true →
        ∃ t, exec (.waggleBarrierEntry k port gen) s = .next t ∧ (getTree t k).released = gen
          ∧ t.out = s.out ++ (bitList 16 v.down).map (fun p => .barDown k p gen)
          ∧ t = { s with trees := t.trees, out := t.out, regs := t.regs })
      ∧ (gen = v.released + 2 →
        ∃ t c, exec (.waggleBarrierEntry k port gen) s = .next t ∧ t.recs = s.recs ++ [c] ∧ c.code = 0x0404 ∧ c.obj = v.local_
          ∧ c.d1 = gen ∧ c.d2 = v.released ∧ t = { s with recs := t.recs, recSeq := t.recSeq })))
   ∧ ∀ (s : State) (k gen : Nat), (getTree s k).valid = true → (getTree s k).root = false → gen = (getTree s k).released + 1 →
     ((getTree s k).relay = true →
       ∃ t, exec (.waggleBarrierRelease k gen) s = .next t ∧ (getTree t k).released = gen
         ∧ t.out = s.out ++ (bitList 16 (getTree s k).down).map (fun p => .barDown k p gen)
         ∧ OnlyField s t Reg.WGL_RELAY Fld.WGL_RELAY_RELAYED
             (satAdd Fld.WGL_RELAY_RELAYED.w (fld s Reg.WGL_RELAY Fld.WGL_RELAY_RELAYED) 1)
         ∧ SameRegsBut s t [Reg.WGL_RELAY] ∧ t = { s with trees := t.trees, out := t.out, regs := t.regs })
     ∧ ((getTree s k).relay = false → liveWaits s (waitsBar (getTree s k).local_ ((getBar s (getTree s k).local_).g + 1)) = [] →
       ∃ t, exec (.waggleBarrierRelease k gen) s = .next t ∧ (getTree t k).released = gen
         ∧ t.out = s.out ++ (bitList 16 (getTree s k).down).map (fun p => .barDown k p gen)
         ∧ OnlyBar s t (getTree s k).local_ { getBar s (getTree s k).local_ with
             g := (getBar s (getTree s k).local_).g + 1, arrived := 0, up := false }
         ∧ OnlyField s t Reg.WGL_STAT Fld.WGL_STAT_BARRIERS
             (satAdd Fld.WGL_STAT_BARRIERS.w (fld s Reg.WGL_STAT Fld.WGL_STAT_BARRIERS) 1)
         ∧ SameRegsBut s t [Reg.WGL_STAT] ∧ t = { s with trees := t.trees, bars := t.bars, out := t.out, regs := t.regs }))

/-- Q.SEND (R274, R344): the message leaves for the device of its rank, under the context's next SEQ, and the instruction waits
for its answer; to a rank that the device cannot translate it completes with NO_HANDLER at once; the answer, when it comes,
completes it with reason and epoch in its status register. Q.ACK consumes the message that its handler task handles, once, and
completes (R278): the message is marked consumed and RPTR advances over what lies consumed before it. Q.OPEN, Q.CLOSE and
Q.RESET (R345, R279, R280): OPEN and CLOSE set the ring's state and complete with its EPOCH and state; a reset makes EPOCH one
greater, empties the ring, counts the messages lost, and waits until the started handlers have ended; then the ring starts again
at 0 in its earlier state and the instruction completes. On a ring that is resetting all three wait. RING_RESET_COMPLETE (R280
step 5): with no operation waiting behind it, the ring starts again at 0 in the state it had, and the Q.RESET completes. -/
def Obligations.RingResults : Prop :=
  ((∀ (s m : State) (x l id : Nat) (r : Running) (f : Flight) (ts : TReg) (slots : Nat) (gr gs : GReg) (ecc : List EccEvent),
     Started s x l id r f (.qSend ts slots gr gs) → f.waits = .none → r.poisonStop = false → m = sendMeet s x l f ts ecc →
     rowPoisoned m (handleOf s x l (f.regs.getT ts).handle).base (f.regs.getT ts) 0 = false →
     (let w := f.regs.getG gr
      (rankAt s x (bitsOf 29 16 w) = .nowhere →
        ∃ t, exec (.qSend x l id ecc) s = .next t ∧ Completed t x l id r f (r.regs.setG gs 7) ∧ OnlyTask m t x l)
      ∧ (rankAt s x (bitsOf 29 16 w) ≠ .nowhere →
        ∃ t v, exec (.qSend x l id ecc) s = .next t ∧ t.out = s.out ++ [.ringMsg (bitsOf 29 16 w) (bitsOf 14 0 w) v]
          ∧ v.epoch = bitsOf 47 32 w ∧ v.srcRank = ownRank s x ∧ v.srcCtx = x ∧ v.slots = slots ∧ v.kind = 1
          ∧ v.seq = ((getCtx s x).sent + 1) % 2 ^ 32 ∧ (getCtx t x).sent = v.seq
          ∧ Waits t x l id (.answer (bitsOf 29 16 w) (bitsOf 14 0 w)) ∧ (∀ y, y ≠ x → getCtx t y = getCtx s y)
          ∧ t = { m with ctxs := t.ctxs, out := t.out, waitSeq := s.waitSeq + 1 })))
   ∧ ∀ (s : State) (x l id reason epoch rk rg : Nat) (r : Running) (f : Flight) (i : CInstr) (gs : GReg),
     ((∃ ts n gr, i = .qSend ts n gr gs) ∨ ∃ n gx b gr, i = .sSet n gx b gr gs) → Started s x l id r f i →
     f.waits = .answer rk rg → r.poisonStop = false →
     ∃ t, exec (.sendAnswerArrival x l id reason epoch) s = .next t ∧ OnlyTask s t x l
       ∧ Completed t x l id r f (r.regs.setG gs
           (BitVec.ofNat 64 (reason % 16 + (if reason = 7 then 0 else epoch % 65536) * 16))))
  ∧
  (∀ (s : State) (x l id n m e : Nat) (r : Running) (f : Flight), Started s x l id r f .qAck →
     r.task.kind = .ringHandler n m e → r.poisonStop = false →
     (r.acked = false → (getRing s n).epoch = e → (getRing s n).st ≠ 3 →
       ∃ t, exec (.qAck x l id) s = .next t ∧ Completed t x l id { r with acked := true } f r.regs
         ∧ OnlyRing s t n (Ring.advance { getRing s n with
             msgs := (getRing s n).msgs.map (fun v => if v.id = m then { v with consumed := true } else v) })
         ∧ OnlyTaskCtxs s t x l ∧ t = { s with ctxs := t.ctxs, rings := t.rings })
     ∧ ((r.acked = true ∨ (getRing s n).epoch ≠ e) →
       ∃ t, exec (.qAck x l id) s = .next t ∧ Completed t x l id { r with acked := true } f r.regs ∧ OnlyTask s t x l))
  ∧
  (∀ (s : State) (x l id : Nat) (r : Running) (f : Flight) (gr gs : GReg) (c : Instr) (i : CInstr) (op : RingOp),
     ((c = .qOpen x l id ∧ i = .qOpen gr gs ∧ op = .open_) ∨ (c = .qClose x l id ∧ i = .qClose gr gs ∧ op = .close)
       ∨ (c = .qReset x l id ∧ i = .qReset gr gs ∧ op = .reset)) →
     Started s x l id r f i → f.waits = .none → r.poisonStop = false →
     (let n := bitsOf 14 0 (f.regs.getG gr)
      let v := getRing s n
      (v.st ≠ 3 → op ≠ .reset →
        ∃ t, exec c s = .next t ∧ OnlyRing s t n { v with st := if op = .open_ then 1 else 2 }
          ∧ Completed t x l id r f (r.regs.setG gs
              (BitVec.ofNat 64 (v.epoch % 65536 + 65536 * (if op = .open_ then 1 else 2))))
          ∧ OnlyTaskCtxs s t x l ∧ t = { s with ctxs := t.ctxs, rings := t.rings })
      ∧ (v.st ≠ 3 → op = .reset → v.ctx = x →
        ∃ t, exec c s = .next t ∧ Waits t x l id (.ringReset n) ∧ (getRing t n).epoch = (v.epoch + 1) % 65536
          ∧ (getRing t n).st = 3 ∧ (getRing t n).prior = v.st ∧ (getRing t n).msgs = [] ∧ (getRing t n).opened = []
          ∧ (getRing t n).closed = [] ∧ (getRing t n).resetBy = some (x, l, id)
          ∧ (∀ m, m ≠ n → getRing t m = getRing s m) ∧ (∀ y, y ≠ x → getCtx t y = getCtx s y)
          ∧ t = { s with ctxs := t.ctxs, rings := t.rings, regs := t.regs, recs := t.recs, recSeq := t.recSeq })
      ∧ (v.st = 3 →
        ∃ t, exec c s = .next t ∧ Waits t x l id (.ringReset n) ∧ OnlyRing s t n { v with ops := v.ops ++ [(x, l, id, op)] }
          ∧ OnlyTaskCtxs s t x l ∧ t = { s with ctxs := t.ctxs, rings := t.rings })))
  ∧
  (∀ (s : State) (n x l id : Nat) (r : Running) (f : Flight) (gr gs : GReg), (getRing s n).valid = true → (getRing s n).st = 3 →
     (getRing s n).active = [] → (getRing s n).ops = [] → (getRing s n).resetBy = some (x, l, id) →
     Started s x l id r f (.qReset gr gs) → r.poisonStop = false →
     ∃ t, exec (.ringResetComplete n) s = .next t
       ∧ OnlyRing s t n { getRing s n with wptr := 0, rptr := 0, dispatched := 0, st := (getRing s n).prior, resetBy := none }
       ∧ Completed t x l id r f (r.regs.setG gs
           (BitVec.ofNat 64 ((getRing s n).epoch % 65536 + 65536 * (getRing s n).prior)))
       ∧ OnlyTaskCtxs s t x l ∧ t = { s with ctxs := t.ctxs, rings := t.rings })

/-- RING_MESSAGE_ARRIVAL (R275 to R277): a message that the ring refuses is answered with the first reason that applies, changes
the ring in nothing and is counted; one that it takes, intact and without a wrap, fills its slots from WPTR on, is capped and
answered 0; one whose slots lie outside the partition's memory is answered BOUND (R138; log entry 72). COMBINED_MESSAGE_PLACE
and HANDLER_DISPATCH (R281, R277, R203): a closed combining entry is placed once there is room; the first capped message not yet
dispatched gets its handler task, at the near end of its home core's deque. -/
def Obligations.RingArrivals : Prop :=
  (∀ (s : State) (n : Nat) (m : RingMsg) (intact : Bool),
     (let v := getRing s n
      let ep := if v.valid then v.epoch else 0
      (judgeMsg s v m ≠ 0 →
        ∃ t, exec (.ringMessageArrival n m intact) s = .next t
          ∧ t.out = s.out ++ [.ringAnswer n m.srcRank m.srcCtx m.seq (judgeMsg s v m) ep]
          ∧ (v.valid = true → OnlyField s t (Reg.MSG_STAT v.part) Fld.MSG_STAT_NACKED
              (satAdd Fld.MSG_STAT_NACKED.w (fld s (Reg.MSG_STAT v.part) Fld.MSG_STAT_NACKED) 1)
              ∧ SameRegsBut s t [Reg.MSG_STAT v.part])
          ∧ (v.valid = false → t.regs = s.regs) ∧ t = { s with out := t.out, regs := t.regs })
      ∧ (v.valid = false → judgeMsg s v m = 7)
      ∧ (v.valid = true → (v.st = 0 ∨ v.st = 3 ∨ ringCtxUp s v = false) → judgeMsg s v m = 2)
      ∧ (v.valid = true → v.st = 2 → ringCtxUp s v = true → judgeMsg s v m = 3)
      ∧ (v.valid = true → v.st = 1 → ringCtxUp s v = true → m.epoch % 65536 ≠ v.epoch → judgeMsg s v m = 4)
      ∧ (judgeMsg s v m = 0 → msgBad s v m = none → v.combining = false → intact = true → v.fit m.slots = some 0 →
        m.bytes.length = 32 * m.slots → 1 ≤ m.slots →
        ∃ t, exec (.ringMessageArrival n m intact) s = .next t
          ∧ t.out = s.out ++ [.ringAnswer n m.srcRank m.srcCtx m.seq 0 ep]
          ∧ OnlyRing s t n (Ring.advance { v with
              wptr := v.wptr + m.slots, nextMsg := v.nextMsg + 1,
              msgs := v.msgs ++ [⟨v.nextMsg, v.wptr % v.size, m.slots,
                some ⟨1, msgTag m, msgSrc m, msgData m, msgLen m⟩, .capped, false⟩] })
          ∧ (∀ i, i < 32 * (m.slots - 1) →
              readByte t (slotAddr s v (v.wptr % v.size) + 32 + i) = m.bytes.getD (32 + i) 0)
          ∧ SameBytesOutside s t (slotAddr s v (v.wptr % v.size)) (32 * m.slots)
          ∧ t = { s with out := t.out, regs := t.regs, rings := t.rings, mem := t.mem, poison := t.poison, comb := t.comb,
                         free := t.free })
      ∧ (∀ a, judgeMsg s v m = 0 → msgBad s v m = some a →
        ∃ t e, exec (.ringMessageArrival n m intact) s = .next t
          ∧ t.out = s.out ++ [.ringAnswer n m.srcRank m.srcCtx m.seq 6 ep] ∧ t.recs = s.recs ++ [e] ∧ e.code = 0x0303
          ∧ e.ctx = some v.ctx ∧ e.d2 = a
          ∧ t = { s with out := t.out, regs := t.regs, recs := t.recs, recSeq := t.recSeq })))
  ∧
  ((∀ (s : State) (n tag : Nat) (e : CombEntry), (getRing s n).closed.find? (fun e => e.tag == tag) = some e →
     (getRing s n).valid = true → (getRing s n).st ≠ 3 → (getRing s n).fit (1 + ceilDiv e.len 32) = some 0 →
     slotsBad s (getRing s n) (1 + ceilDiv e.len 32) = none →
     (let v := getRing s n
      let k := 1 + ceilDiv e.len 32
      ∃ t, exec (.combinedMessagePlace n tag) s = .next t
        ∧ OnlyRing s t n (Ring.advance { v with
            closed := v.closed.erase e, wptr := v.wptr + k, nextMsg := v.nextMsg + 1,
            msgs := v.msgs ++ [⟨v.nextMsg, v.wptr % v.size, k, some ⟨3, e.tag, e.count, 0, e.len⟩, .capped, false⟩] })
        ∧ t = { s with rings := t.rings, mem := t.mem, poison := t.poison, comb := t.comb, free := t.free, regs := t.regs,
                       recs := t.recs, recSeq := t.recSeq }))
   ∧ ∀ (s : State) (n : Nat) (m : RMsg) (h : MsgHdr), (getRing s n).nextDue = some (m, h) →
     (let v := getRing s n
      let k := handlerTask s n v m h
      v.valid = true → v.st ≠ 3 → ((getCtx s v.ctx).st = .runnable ∨ (getCtx s v.ctx).st = .running) →
      v.active.length < v.handlers → dequeRoom s v.ctx k.home = true → (getCore s v.ctx k.home).held = [] →
      (getRun s v.ctx k.home).isSome →
      ∃ t, exec (.handlerDispatch n) s = .next t ∧ (getCore t v.ctx k.home).deque = k :: (getCore s v.ctx k.home).deque
        ∧ k.kind = .ringHandler n m.id v.epoch
        ∧ OnlyRing s t n { v with
            msgs := v.msgs.map (fun u => if u.id = m.id then { u with stage := MsgStage.spawned } else u),
            dispatched := v.dispatched + 1, active := v.active ++ [m.id] }
        ∧ (∀ y, y ≠ v.ctx → getCtx t y = getCtx s y) ∧ t = { s with rings := t.rings, ctxs := t.ctxs }))

/-- CDC_PTR_MISMATCH and CDC_GAP (R284 to R286): a forced reset is counted and logged; a lossy FIFO that loses items counts a
gap and logs it, the host event queue keeping a gap marker; a new item dropped at a full FIFO is counted too. -/
def Obligations.FifoResetsAndGaps : Prop :=
  (∀ (s : State) (fifo cls items : Nat), fifo ≠ 0x0236 → cls ≠ 2 → cls ≠ 3 →
    ∃ t e, exec (.cdcPtrMismatch fifo cls items ⟨false, []⟩) s = .next t ∧ t.recs = s.recs ++ [e] ∧ e.code = 0x0F01 ∧ e.sev = 1
      ∧ e.obj = fifo ∧ e.d0 = fifo % 32 ∧ e.d1 = fifo / 32 % 32 ∧ e.d2 = items ∧ e.d3 = cls
      ∧ OnlyField s t Reg.CDC_STAT Fld.CDC_STAT_MISMATCHES
          (satAdd Fld.CDC_STAT_MISMATCHES.w (fld s Reg.CDC_STAT Fld.CDC_STAT_MISMATCHES) 1)
      ∧ SameRegsBut s t [Reg.CDC_STAT]
      ∧ getF Fld.CDC_FIFO_CNT_MISMATCH (cdcCount t fifo) = satAdd 32 (getF Fld.CDC_FIFO_CNT_MISMATCH (cdcCount s fifo)) 1
      ∧ t = { s with recs := t.recs, recSeq := t.recSeq, regs := t.regs, cdcCnt := t.cdcCnt })
  ∧ (∀ (s : State) (victims : List CdcVictim) (cls items : Nat) (err : Bool), s.hostQ ≠ [] →
    ∃ t q b, exec (.cdcPtrMismatch 0x0236 cls items ⟨err, victims⟩) s = .next t ∧ t.hostQ = [q] ∧ q.ev = .gap s.hostQ.length b
      ∧ b = (rd s Reg.HUM_BEAT).toNat ∧ t.ctxs = s.ctxs ∧ t.mem = s.mem)
  ∧ (∀ (s : State) (victims : List CdcVictim) (fifo cls items : Nat), fifo ≠ 0x0236 →
    ∃ t e, exec (.cdcPtrMismatch fifo cls items ⟨true, victims⟩) s = .next t ∧ t.recs = [e] ∧ e.code = 0x0F01 ∧ e.sev = 1
      ∧ e.d2 = s.recs.length ∧ e.d3 = 3 ∧ t.ctxs = s.ctxs ∧ t.mem = s.mem)
  ∧ (∀ (s : State) (fifo : Nat) (fresh : Bool), fifo ≠ 0x0236 →
    ∃ t, exec (.cdcGap fifo fresh true) s = .next t ∧ t.recs = s.recs.dropLast)
  ∧ (∀ (s : State) (fifo : Nat), fifo ≠ 0x0236 →
    (∃ t e, exec (.cdcGap fifo true false) s = .next t ∧ t.recs = s.recs ++ [e] ∧ e.code = 0x0F02 ∧ e.sev = 0 ∧ e.obj = fifo
      ∧ e.d0 = 1 ∧ e.d1 = (rd s Reg.HUM_BEAT).toNat
      ∧ OnlyField s t Reg.CDC_STAT Fld.CDC_STAT_GAPS (satAdd Fld.CDC_STAT_GAPS.w (fld s Reg.CDC_STAT Fld.CDC_STAT_GAPS) 1)
      ∧ SameRegsBut s t [Reg.CDC_STAT])
    ∧ exec (.cdcGap fifo false false) s = .next s)
  ∧ ∀ (s : State) (fresh err : Bool), 4095 ≤ (s.hostQ.filter (fun q => !q.isGap)).length → s.hostQ.any (·.isGap) = true →
    ∃ t, exec (.cdcGap 0x0236 fresh err) s = .next t ∧ t.hostQ = s.hostQ.map (fun q => if q.isGap then q.oneMore else q)
      ∧ t = { s with hostQ := t.hostQ }

/-- C.BULK starts (R295, R306, R309, R328): in its turn, in a group that runs a collective, it waits, of which waits the engine
holds 16; in a POISONED group it takes its number and completes with the reason; otherwise it enters under the group's next
sequence number, with the signature that its control word and descriptors give. C.WRED starts (R295, R316, R350): it waits for
its group, completes with the reason in a POISONED one, or enters under the next Waggle sequence number, its scalars going to
its tree. -/
def Obligations.CollectiveEntries : Prop :=
  (∀ (s m : State) (x l id k : Nat) (r : Running) (f : Flight) (td ts : TReg) (gc gs : GReg) (ecc : List EccEvent),
     Started s x l id r f (.cBulk td ts gc gs) → f.waits = .none → r.poisonStop = false → NoneReady s →
     colTurn r id = true → m = bulkMeet s x l f ecc → grpSlot s x (ctlGroup (f.regs.getG gc)) = some k →
     (let g := getGrp s k
      let w := f.regs.getG gc
      (g.busy false = true → waitingEntries s < 16 →
        ∃ t, exec (.cBulk x l id ecc) s = .next t ∧ Waits t x l id (.collective k 0)
          ∧ getGrp t k = { g with waiting := g.waiting ++ [(false, x, l, id)] } ∧ OnlyGrp s t k ∧ OnlyTaskCtxs s t x l
          ∧ t = { m with ctxs := t.ctxs, grps := t.grps })
      ∧ (g.busy false = true → 16 ≤ waitingEntries s → exec (.cBulk x l id ecc) s = .next m)
      ∧ (g.busy false = false → g.st = 3 →
        ∃ t, exec (.cBulk x l id ecc) s = .next t ∧ Completed t x l id r f (r.regs.setG gs (BitVec.ofNat 64 g.poison))
          ∧ getGrp t k = { g with seq := (g.seq + 1) % 2 ^ 32 } ∧ OnlyGrp s t k ∧ OnlyTaskCtxs s t x l
          ∧ OnlyField s t (Reg.COL_STAT g.part) Fld.COL_STAT_ABORTED
              (satAdd Fld.COL_STAT_ABORTED.w (fld s (Reg.COL_STAT g.part) Fld.COL_STAT_ABORTED) 1)
          ∧ SameRegsBut m t [Reg.COL_STAT g.part]
          ∧ t = { m with ctxs := t.ctxs, grps := t.grps, regs := t.regs })
      ∧ (g.busy false = false → g.st ≠ 3 → g.noticeOf false g.seq = none → g.staged = [] → 2 ≤ g.members.length →
        g.rank < g.members.length →
        (let u := bulkUses (ctlOp w) (ctlRoot w) (some g)
         (u.1 = some true →
           tensorPoisoned m (f.regs.getT ts, (handleOf s x l (f.regs.getT ts).handle).base) = false) →
         ∃ t b, exec (.cBulk x l id ecc) s = .next t ∧ (getGrp t k).bulk = some b ∧ b.owner = some (x, l, id)
           ∧ b.sig = mkSig g.gid g.gen g.seq (ctlOp w) (ctlRed w) (bulkType u (f.regs.getT ts) (f.regs.getT td)) (ctlRoot w)
               (bulkCount (ctlOp w) u (f.regs.getT ts) (f.regs.getT td))
           ∧ (getGrp t k).seq = (g.seq + 1) % 2 ^ 32 ∧ (getGrp t k).wseq = g.wseq ∧ Waits t x l id (.collective k g.seq)
           ∧ OnlyGrp s t k ∧ OnlyTaskCtxs s t x l))))
  ∧
  (∀ (s : State) (x l id k : Nat) (r : Running) (f : Flight) (ga gd gg gt gs : GReg) (cnt red type : Nat),
     Started s x l id r f (.cWred ga gd cnt red type gg gt gs) → f.waits = .none → r.poisonStop = false → NoneReady s →
     colTurn r id = true → grpSlot s x (bitsOf 15 0 (f.regs.getG gg)) = some k →
     (let g := getGrp s k
      (g.busy true = true → waitingEntries s < 16 →
        ∃ t, exec (.cWred x l id) s = .next t ∧ Waits t x l id (.collective k 0)
          ∧ getGrp t k = { g with waiting := g.waiting ++ [(true, x, l, id)] } ∧ OnlyGrp s t k ∧ OnlyTaskCtxs s t x l
          ∧ t = { s with ctxs := t.ctxs, grps := t.grps })
      ∧ (g.busy true = true → 16 ≤ waitingEntries s → exec (.cWred x l id) s = .next s)
      ∧ (g.busy true = false → g.st = 3 →
        ∃ t, exec (.cWred x l id) s = .next t ∧ Completed t x l id r f (r.regs.setG gs (BitVec.ofNat 64 g.poison))
          ∧ getGrp t k = { g with wseq := (g.wseq + 1) % 2 ^ 32 } ∧ OnlyGrp s t k ∧ OnlyTaskCtxs s t x l)
      ∧ (g.busy true = false → g.st ≠ 3 → g.noticeOf true g.wseq = none →
        (let sig := mkSig g.gid g.gen g.wseq 5 red type 0 cnt
         let vs := (List.range cnt).map (fun i => scalarWire red type (f.regs.getN (ga.val + i)))
         (g.tree = none →
           ∃ t, exec (.cWred x l id) s = .next t ∧ Waits t x l id (.collective k g.wseq)
             ∧ getGrp t k = { g with
                 wag := some ⟨.instr x l id, sig, vs.map (·.1), vs.map (·.2), none⟩, wseq := (g.wseq + 1) % 2 ^ 32, st := 1 }
             ∧ OnlyGrp s t k ∧ OnlyTaskCtxs s t x l)
         ∧ (∀ n, g.tree = some n → (getTree s n).contribs = [] → (getTree s n).relay = false →
             bitList 16 (getTree s n).down ≠ [] →
           ∃ t, exec (.cWred x l id) s = .next t ∧ Waits t x l id (.collective k g.wseq)
             ∧ (getTree t n).contribs = [(none, sig, vs.map (·.1), vs.map (·.2))]
             ∧ (getGrp t k).wseq = (g.wseq + 1) % 2 ^ 32 ∧ OnlyGrp s t k ∧ OnlyTaskCtxs s t x l)))))

/-- BULK_CHUNK_ARRIVAL (R302, R304, R306, R311): a chunk of an older generation is counted stale and dropped; one of a sequence
number not yet entered is held; one whose signature differs aborts the collective over the group's tree, and the naming of the
two signatures begins with the least of the ranks; a chunk that fails its link check is asked for again while retries remain; a
chunk that agrees and passes its checks is taken. COLLECTIVE_COMPLETE (R309): a program's bulk collective that has sent, heard
and written everything ends with status 0 but for SIG_LOST and OVERFLOW, and is counted. ABORT_NOTICE_ARRIVAL, ABORT_NAMING and
COL_TIMEOUT in a group of a program's collectives (R306, R307, R309): a notice of MISMATCH waits for the naming, whose end, with
what its reductions have named or else with what the command names, logs both signatures and poisons the group; any other reason
ends the collective with its code; a member that hears nothing for COL_CTL.TMO beats logs COL_TIMEOUT, sends the notice and ends
with TIMEOUT. -/
def Obligations.CollectiveFlow : Prop :=
  (∀ (s : State) (k : Nat) (c : BulkChunk),
     (let g := getGrp s k
      g.valid = true → g.gid = c.sig.gid → g.waiting = [] →
      (c.sig.gen < g.gen →
        ∃ t, exec (.bulkChunkArrival k c) s = .next t
          ∧ OnlyField s t (Reg.COL_STALE g.part) Fld.COL_STALE_STALE
              (satAdd Fld.COL_STALE_STALE.w (fld s (Reg.COL_STALE g.part) Fld.COL_STALE_STALE) 1)
          ∧ SameRegsBut s t [Reg.COL_STALE g.part] ∧ t = { s with regs := t.regs })
      ∧ ((g.gen < c.sig.gen ∨ (g.gen = c.sig.gen ∧ g.st ≠ 3 ∧ g.aborting = none ∧ g.bulk = none ∧ g.seq ≤ c.sig.seq)) →
        ∃ t, exec (.bulkChunkArrival k c) s = .next t ∧ getGrp t k = { g with staged := g.staged ++ [c] } ∧ OnlyGrp s t k
          ∧ t = { s with grps := t.grps })
      ∧ (∀ b, g.gen = c.sig.gen → g.st ≠ 3 → g.aborting = none → g.bulk = some b → c.sig.seq = b.sig.seq →
        (c.first = true → c.sig ≠ b.sig → g.naming = none →
          ∃ t n v w, exec (.bulkChunkArrival k c) s = .next t
            ∧ t.out = s.out ++ [.abortNotice g.gid g.gen b.sig.seq false .mismatch]
            ∧ (getGrp t k).aborting = some (false, b.sig.seq, .mismatch, n) ∧ n = (rd s Reg.HUM_BEAT).toNat
            ∧ (getGrp t k).naming = some v ∧ v.step = 0 ∧ v.wag = some w ∧ w.vals = [(g.rank : Int)]
            ∧ w.sig = mkSig g.gid g.gen g.wseq 5 2 0x0F 0 1 ∧ (getGrp t k).wseq = (g.wseq + 1) % 2 ^ 32
            ∧ OnlyGrp s t k ∧ t = { s with grps := t.grps, trees := t.trees, out := t.out })
        ∧ (¬(c.first = true ∧ c.sig ≠ b.sig) → combiningStage b.sig.op c = false → c.crcOk = false →
            Sparse.get 0 b.tries (c.src * 2 ^ 45 + (bnat c.gather * 16 + c.stage) * 2 ^ 40 + c.elem)
              < fld s Reg.COL_CTL Fld.COL_CTL_RETRIES →
          ∃ t, exec (.bulkChunkArrival k c) s = .next t ∧ t.out = s.out ++ [.chunkRetry g.gid c.src c.stage c.elem]
            ∧ OnlyField s t (Reg.COL_STALE g.part) Fld.COL_STALE_RETRIED
                (satAdd Fld.COL_STALE_RETRIED.w (fld s (Reg.COL_STALE g.part) Fld.COL_STALE_RETRIED) 1)
            ∧ SameRegsBut s t [Reg.COL_STALE g.part] ∧ OnlyGrp s t k
            ∧ t = { s with grps := t.grps, out := t.out, regs := t.regs })
        ∧ (¬(c.first = true ∧ c.sig ≠ b.sig) → c.data = [] → c.vals = [] → c.crcOk = true → b.failed = none →
          ∃ t b', exec (.bulkChunkArrival k c) s = .next t ∧ (getGrp t k).bulk = some b' ∧ b'.sig = b.sig
            ∧ b'.last = (rd s Reg.HUM_BEAT).toNat ∧ (c.first = true → (c.gather, c.stage) ∈ b'.heard)))))
  ∧
  (∀ (s : State) (k x l id : Nat) (b : Bulk) (r : Running) (f : Flight) (td ts : TReg) (gc gs : GReg),
     (getGrp s k).bulk = some b → b.owner = some (x, l, id) → (getGrp s k).valid = true → (getGrp s k).aborting = none →
     b.done (grpGeo s (getGrp s k) b.sig) = true → (getGrp s k).waiting = [] → (getGrp s k).device = false → Started s x l id r f (.cBulk td ts gc gs) →
     r.poisonStop = false →
     ∃ t, exec (.collectiveComplete k) s = .next t ∧ (getGrp t k).bulk = none ∧ OnlyGrp s t k
       ∧ Completed t x l id r f (r.regs.setG gs (BitVec.ofNat 64 (16 * bnat b.sigLost + 32 * bnat b.overflow)))
       ∧ OnlyTaskCtxs s t x l
       ∧ OnlyField s t (Reg.COL_STAT (getGrp s k).part) Fld.COL_STAT_COMPLETED
           (satAdd Fld.COL_STAT_COMPLETED.w (fld s (Reg.COL_STAT (getGrp s k).part) Fld.COL_STAT_COMPLETED) 1)
       ∧ SameRegsBut s t [Reg.COL_STAT (getGrp s k).part]
       ∧ t = { s with ctxs := t.ctxs, grps := t.grps, regs := t.regs })
  ∧
  (∀ (s : State) (k x l id : Nat) (b : Bulk) (r : Running) (f : Flight) (td ts : TReg) (gc gs : GReg),
     (let g := getGrp s k
      g.valid = true → g.device = false → g.waiting = [] → g.bulk = some b → b.owner = some (x, l, id) →
      Started s x l id r f (.cBulk td ts gc gs) → r.poisonStop = false → g.st ≠ 3 →
      (∀ why, g.aborting = none → why ≠ .mismatch → g.wag = none →
        ∃ t, exec (.abortNoticeArrival k g.gen b.sig.seq false why) s = .next t ∧ (getGrp t k).bulk = none
          ∧ (getGrp t k).abortValid = true ∧ (getGrp t k).abortReason = reasonCode why
          ∧ (getGrp t k).st = (if why = .memberLost then 3 else 0)
          ∧ Completed t x l id r f (r.regs.setG gs
              (BitVec.ofNat 64 (reasonCode why + 16 * bnat b.sigLost + 32 * bnat b.overflow)))
          ∧ OnlyGrp s t k ∧ OnlyTaskCtxs s t x l ∧ SameRegsBut s t [Reg.COL_STAT g.part])
      ∧ (g.aborting = none →
        ∃ t n, exec (.abortNoticeArrival k g.gen b.sig.seq false .mismatch) s = .next t
          ∧ (getGrp t k).aborting = some (false, b.sig.seq, .mismatch, n) ∧ OnlyGrp s t k ∧ t = { s with grps := t.grps, trees := t.trees })
      ∧ (∀ n ra rb sa sb v wa wb va vb, g.aborting = some (false, b.sig.seq, .mismatch, n) →
        ((g.naming = some v ∧ v.step = 4 ∧ (ra, sa, rb, sb) = (v.rankA, v.sigA, v.rankB, v.sigB))
          ∨ (((g.naming = some v ∧ v.step ≠ 4)
              ∨ (g.naming = none ∧ n + max 1 (fld s Reg.COL_CTL Fld.COL_CTL_TMO) ≤ (rd s Reg.HUM_BEAT).toNat))
            ∧ (ra, sa, rb, sb) = (wa, va, wb, vb))) →
        ∃ t e, exec (.abortNaming k wa va wb vb) s = .next t ∧ t.recs = s.recs ++ [e] ∧ e.code = 0x0601
          ∧ e.obj = ra % 4096 + 4096 * (rb % 4096) ∧ e.d0 = sa.w0.toNat ∧ e.d1 = sa.w1.toNat ∧ e.d2 = sb.w0.toNat
          ∧ e.d3 = sb.w1.toNat ∧ (getGrp t k).st = 3 ∧ (getGrp t k).bulk = none ∧ (getGrp t k).abortReason = 1
          ∧ Completed t x l id r f (r.regs.setG gs (BitVec.ofNat 64 (1 + 16 * bnat b.sigLost + 32 * bnat b.overflow)))
          ∧ OnlyGrp s t k ∧ OnlyTaskCtxs s t x l)
      ∧ (∀ awaited stage st, g.aborting = none → g.wag = none → b.done (grpGeo s g b.sig) = false →
        st ∈ (grpGeo s g b.sig).mine → st.2 = stage → (grpGeo s g b.sig).partner st = some awaited → st ∉ b.heard →
        b.beat + max 1 (fld s Reg.COL_CTL Fld.COL_CTL_TMO) ≤ (rd s Reg.HUM_BEAT).toNat →
        ∃ t e, exec (.colTimeout k awaited stage) s = .next t ∧ t.recs = s.recs ++ [e] ∧ e.code = 0x0603 ∧ e.obj = g.gid
          ∧ e.d0 = awaited ∧ e.d1 = stage % 16 ∧ e.d3 = b.sig.seq
          ∧ t.out = s.out ++ [.abortNotice g.gid g.gen b.sig.seq false .timeout] ∧ (getGrp t k).bulk = none
          ∧ Completed t x l id r f (r.regs.setG gs (BitVec.ofNat 64 (3 + 16 * bnat b.sigLost + 32 * bnat b.overflow))))))

/-- Waggle contributions and results (R316, R317, R318): a node that lacks an input holds what has come; one that has them all
sends the combination up its tree, or, at the root, the result down every child port; unlike signatures abort the reduction; a
relay passes a result on. WAIT_TIMEOUT and WAGGLE_TIMEOUT (R265, R266, R320, R350): a SOFT flag or barrier wait that expires
completes with status 1; any other faults its context with SYN_TIMEOUT; each is counted; a device-started Waggle operation that
does not return is counted in WGL_FAULT and stops its partition's contexts (log entry 73), one that its tree carries once
COL_TIMEOUT is logged and a notice sent. -/
def Obligations.WaggleAndTimeouts : Prop :=
  ((∀ (s : State) (n port : Nat) (sig : Sig) (vals : List Int) (bad : List Bool), NoneReady s →
     (let v := getTree s n
      let ins := (bitList 16 v.down).map (fun p => (v.contribs.filter (fun c => c.1 != some port)
        ++ [(some port, sig, vals, bad)]).find? (fun c => c.1 == some p))
      v.valid = true → v.down.testBit port = true → port < 16 → v.relay = true →
      ((∃ o ∈ ins, o = none) →
        ∃ t, exec (.waggleContributionArrival n port sig vals bad) s = .next t
          ∧ (getTree t n).contribs = v.contribs.filter (fun c => c.1 != some port) ++ [(some port, sig, vals, bad)]
          ∧ t = { s with trees := t.trees })
      ∧ ((∀ o ∈ ins, ∃ c, o = some c ∧ c.2.1 = sig) →
        (let sum := wagCombine sig.red (ins.filterMap (fun o => o.map (fun c => c.2.2)))
         ∃ t, exec (.waggleContributionArrival n port sig vals bad) s = .next t ∧ (getTree t n).contribs = []
           ∧ (v.root = false → t.out = s.out ++ [.wagUp n v.up sig sum.1 sum.2] ∧ t = { s with trees := t.trees, out := t.out })
           ∧ (v.root = true → t.out = s.out ++ (bitList 16 v.down).map (fun p => .wagDown n p sig sum.1 sum.2)
               ∧ t = { s with trees := t.trees, out := t.out, regs := t.regs })))
      ∧ ((∀ o ∈ ins, o ≠ none) → (∃ o ∈ ins, ∃ c, o = some c ∧ c.2.1 ≠ sig) →
        ∃ t g q, exec (.waggleContributionArrival n port sig vals bad) s = .next t ∧ (getTree t n).contribs = []
          ∧ (∃ e, t.out = s.out ++ [.abortNotice e g q true .mismatch])
          ∧ OnlyField s t Reg.WGL_FAULT Fld.WGL_FAULT_MISMATCH
              (satAdd Fld.WGL_FAULT_MISMATCH.w (fld s Reg.WGL_FAULT Fld.WGL_FAULT_MISMATCH) 1))))
   ∧ (∀ (s : State) (n : Nat) (sig : Sig) (vals : List Int) (bad : List Bool), NoneReady s → (getTree s n).valid = true →
     (getTree s n).root = false → (getTree s n).relay = true →
     ∃ t, exec (.waggleResultArrival n sig vals bad) s = .next t
       ∧ t.out = s.out ++ (bitList 16 (getTree s n).down).map (fun p => .wagDown n p sig vals bad)
       ∧ OnlyField s t Reg.WGL_RELAY Fld.WGL_RELAY_RELAYED
           (satAdd Fld.WGL_RELAY_RELAYED.w (fld s Reg.WGL_RELAY Fld.WGL_RELAY_RELAYED) 1)
       ∧ SameRegsBut s t [Reg.WGL_RELAY] ∧ t = { s with out := t.out, regs := t.regs })
   ∧ ∀ (s : State) (n k x l id : Nat) (sig : Sig) (vals : List Int) (bad : List Bool) (w : Wag) (r : Running) (f : Flight)
     (ga gd gg gt gs : GReg) (cnt red type : Nat), NoneReady s → (getTree s n).valid = true → (getTree s n).root = false →
     (getTree s n).relay = false → (getTree s n).local_ = 256 + k → (getGrp s k).wag = some w → w.sig = sig →
     w.owner = .instr x l id → w.result = none → (getGrp s k).naming = none → (getGrp s k).devWags = [] →
     (getGrp s k).aborting = none → (getGrp s k).waiting = [] →
     Started s x l id r f (.cWred ga gd cnt red type gg gt gs) → r.poisonStop = false →
     (let rs := (vals.zip bad).map (fun v => scalarResult sig.red sig.type v.1 v.2)
      ∃ t, exec (.waggleResultArrival n sig vals bad) s = .next t ∧ (getGrp t k).wag = none
        ∧ Completed t x l id r f (wroteAll r.regs (rs.zipIdx.map (fun e => (Fin.ofNat 64 (gd.val + e.2), e.1.1))
            ++ [(gs, BitVec.ofNat 64 (32 * bnat (rs.any (·.2))))]))
        ∧ OnlyTaskCtxs s t x l))
  ∧
  ((∀ (s : State) (x l id b : Nat) (r : Running) (f : Flight) (name : Nat) (gx gt gs : GReg) (consume soft : Bool),
     Started s x l id r f (.sWait name gx consume soft gt gs) → f.waits = .flag b → runningCtx s x = true → r.poisonStop = false →
     timeoutOf s x (f.regs.getG gt) ≤ f.ticks →
     (soft = true →
       ∃ t, exec (.waitTimeout x l (.inFlight id)) s = .next t ∧ Completed t x l id r f (r.regs.setG gs 1)
         ∧ OnlyTaskCtxs s t x l
         ∧ OnlyField s t (Reg.SYN_STAT (getCtx s x).part) Fld.SYN_STAT_TIMEOUTS
             (satAdd Fld.SYN_STAT_TIMEOUTS.w (fld s (Reg.SYN_STAT (getCtx s x).part) Fld.SYN_STAT_TIMEOUTS) 1)
         ∧ SameRegsBut s t [Reg.SYN_STAT (getCtx s x).part] ∧ t = { s with ctxs := t.ctxs, regs := t.regs })
     ∧ (soft = false → r.task.kind = .plain →
       ∃ t e, exec (.waitTimeout x l (.inFlight id)) s = .next t ∧ t.recs = s.recs ++ [e] ∧ e.code = 0x0401 ∧ e.obj = b
         ∧ e.d0 = 1 ∧ e.d1 = sName f.regs name gx ∧ e.d2 = timeoutOf s x (f.regs.getG gt) ∧ (getCtx t x).st = .faulted
         ∧ ∀ q, getRun t x l = some q → q.inFlight id = none ∧ q.tokens = r.tokens))
   ∧ (∀ (s : State) (x l : Nat) (r : Running) (f : Flight), getRun s x l = some r → r.seq = some f → runningCtx s x = true →
     r.ready f.op.wait = false → timeoutOf s x 0 ≤ f.ticks → r.task.kind = .plain →
     ∃ t e, exec (.waitTimeout x l .sequencer) s = .next t ∧ t.recs = s.recs ++ [e] ∧ e.code = 0x0401 ∧ e.obj = f.op.wait
       ∧ e.d0 = 3 ∧ e.d2 = timeoutOf s x 0 ∧ (getCtx t x).st = .faulted)
   ∧ (∀ (s : State) (p b : Nat), (getTrain s p).wagSince = some b → redSlot s p = none → (∀ k, (getGrp s k).naming = none) →
     b + max 1 (fld s Reg.COL_CTL Fld.COL_CTL_TMO) ≤ (rd s Reg.HUM_BEAT).toNat →
     ∃ t, exec (.waggleTimeout p) s = .next t
       ∧ getTrain t p = { getTrain s p with wagSince := none, xch := none, halt := false }
       ∧ OnlyField s t Reg.WGL_FAULT Fld.WGL_FAULT_TIMEOUT
           (satAdd Fld.WGL_FAULT_TIMEOUT.w (fld s Reg.WGL_FAULT Fld.WGL_FAULT_TIMEOUT) 1)
       ∧ SameRegsBut s t [Reg.WGL_FAULT]
       ∧ (∀ x, (getCtx s x).part = p → (getCtx s x).st = .running → (getCtx t x).st = .stopped)
       ∧ t = { s with train := t.train, regs := t.regs, ctxs := t.ctxs, slices := t.slices })
   ∧ ∀ (s : State) (p b k : Nat) (w : Wag), (getTrain s p).wagSince = some b → redSlot s p = some k →
     (∀ k, (getGrp s k).naming = none) →
     b + max 1 (fld s Reg.COL_CTL Fld.COL_CTL_TMO) ≤ (rd s Reg.HUM_BEAT).toNat → (getTrain s p).xch = none →
     (getTrain s p).startDue = none →
     (let g := getGrp s k
      g.wag = some w → w.owner = .stepOr → g.aborting = none → g.devWags = [] → g.waiting = [] → g.st ≠ 3 →
      ∃ t e, exec (.waggleTimeout p) s = .next t ∧ t.recs = s.recs ++ [e] ∧ e.code = 0x0603 ∧ e.obj = g.gid ∧ e.d3 = w.sig.seq
        ∧ t.out = s.out ++ [.abortNotice g.gid g.gen w.sig.seq true .timeout] ∧ (getGrp t k).wag = none
        ∧ (getGrp t k).abortReason = 3 ∧ (getTrain t p).wagSince = none
        ∧ (∀ x, (getCtx s x).part = p → (getCtx s x).st = .running → (getCtx t x).st = .stopped)))

/-- What the accesses of an instruction meet, whatever it then does with the data (R151, R155 to R158, R164). Where the comb
store holds no line, every error that lies in bytes it reads and that its memory reports (the second tier only what its link
protection sees, R151) is counted, corrected or uncorrectable, and an uncorrectable one poisons its unit. An error in a held
line is counted as corrected in a clean line and as uncorrectable in a dirty one (R156). Nothing loses its poison, no byte
changes, and of the registers only the error counters, the repair list and the hit counters change; with no error and the comb
store off nothing does. HBM_ROW_REPAIR (R158): with AUTO 1, the Keeper repairs a listed row of a pseudo-channel that is free.
With a resource left, zero is written to the replacement row and DONE set; without one FAILED is set and nothing else changes.
PATROL_SCRUB_READ (R151, R157, R159): a corrected error is counted; an uncorrectable one of HBM, or a failed transfer over the
second tier's link, is counted and logged, and its unit is poisoned; an error inside a package of the second tier is not told;
no byte changes. CMB_FLUSH and CMB_FLUSH_DONE (R146): the lines of the partitions that the mask names are written back and
invalidated, and BUSY shows the partitions whose flush is under way. One access to a line of cacheable memory (R144, R145): a
line that is held is hit, counted and becomes the most recently used, dirty after a write; one that is not is counted as a miss
and, with a way open, held from then on. -/
def Obligations.MemoryCare : Prop :=
  (∀ (s m : State) (x l : Nat) (strm : Bool) (ts : List Touch) (ds : List Desc) (ecc : List EccEvent),
     m = meet s x l strm ts ds ecc →
     (let hits := ecc.filter (fun e => ts.any (fun t => t.hit e))
      let l2 (e : EccEvent) : Bool := decide (l2Base ≤ e.addr) && decide (e.addr < l2End)
      let linked := flg s Reg.MEM_L2_CTL Fld.MEM_L2_CTL_LINK_ECC
      let bad (e : EccEvent) : Bool := decide (e.kind = .uncorrectable) && !l2 e || decide (e.kind = .linkFailed) && l2 e && linked
      let good (e : EccEvent) : Bool := decide (e.kind = .corrected) && (!l2 e || linked)
      (s.comb = [] →
        fld m Reg.MEM_ECC_CORR Fld.MEM_ECC_CORR_COUNT
            = satAdd 48 (fld s Reg.MEM_ECC_CORR Fld.MEM_ECC_CORR_COUNT) (hits.filter good).length
        ∧ fld m Reg.MEM_ECC_UNCORR Fld.MEM_ECC_UNCORR_COUNT
            = satAdd 48 (fld s Reg.MEM_ECC_UNCORR Fld.MEM_ECC_UNCORR_COUNT) (hits.filter bad).length
        ∧ ∀ e ∈ hits, bad e = true → poisoned m (e.addr / 64 * 64) 64 = true)
      ∧ (∀ e c, ecc = [e] → hits = [e] → combHeld s e.addr = some c → e.kind = .lineUncorrectable →
        (c.dirty = false → fld m Reg.MEM_ECC_CORR Fld.MEM_ECC_CORR_COUNT
            = satAdd 48 (fld s Reg.MEM_ECC_CORR Fld.MEM_ECC_CORR_COUNT) 1 ∧ m.poison = s.poison)
        ∧ (c.dirty = true → fld m Reg.MEM_ECC_UNCORR Fld.MEM_ECC_UNCORR_COUNT
              = satAdd 48 (fld s Reg.MEM_ECC_UNCORR Fld.MEM_ECC_UNCORR_COUNT) 1
            ∧ poisoned m (e.addr / 64 * 64) 64 = true))
      ∧ (∀ a n, poisoned s a n = true → poisoned m a n = true)
      ∧ SameRegsBut s m ([Reg.MEM_ECC_CORR, Reg.MEM_ECC_UNCORR] ++ (List.range 64).map Reg.MEM_PPR_LIST
          ++ (List.range 8).map Reg.CMB_HIT)
      ∧ m = { s with regs := m.regs, poison := m.poison, comb := m.comb, recs := m.recs, recSeq := m.recSeq,
                     thrLogged := m.thrLogged, lastCorr := m.lastCorr, rowErrs := m.rowErrs, free := m.free }
      ∧ (ecc = [] → flg s Reg.CMB_CTL Fld.CMB_CTL_ENABLE = false → m = s)))
  ∧
  (∀ (s : State) (e : Nat),
     (let a := Reg.MEM_PPR_LIST e
      let pc := fld s a Fld.MEM_PPR_LIST_PC
      let q := Config.rowPlace (fld s a Fld.MEM_PPR_LIST_BANK) (fld s a Fld.MEM_PPR_LIST_ROW) % (0xA0000000 / 1024) * 1024
      e < 64 → fld s Reg.MEM_PPR_CTL Fld.MEM_PPR_CTL_AUTO = 1 → fld s a Fld.MEM_PPR_LIST_VALID = 1 →
      fld s a Fld.MEM_PPR_LIST_DONE = 0 → fld s a Fld.MEM_PPR_LIST_FAILED = 0 → pcFree s pc = true →
      (∃ t, exec (.hbmRowRepair e true) s = .next t ∧ OnlyField s t a Fld.MEM_PPR_LIST_DONE 1 ∧ SameRegsBut s t [a]
         ∧ (∀ i, i < 1024 → readByte t (pcAddr s pc q + i) = 0) ∧ SameBytesOutside s t (pcAddr s pc q) 1024
         ∧ t = { s with regs := t.regs, mem := t.mem, poison := t.poison })
      ∧ ∃ t, exec (.hbmRowRepair e false) s = .next t ∧ OnlyField s t a Fld.MEM_PPR_LIST_FAILED 1 ∧ SameRegsBut s t [a]
         ∧ t = { s with regs := t.regs }))
  ∧
  (∀ (s : State) (ecc : EccEvent),
     (let hbm := ecc.addr < hbmEnd ∧ fld s Reg.MEM_SCRUB Fld.MEM_SCRUB_HBM_EN = 1
      let l2 := hbmEnd ≤ ecc.addr ∧ l2Base ≤ ecc.addr ∧ ecc.addr < l2End ∧ fld s Reg.MEM_SCRUB Fld.MEM_SCRUB_L2_EN = 1
      let linked := fld s Reg.MEM_L2_CTL Fld.MEM_L2_CTL_LINK_ECC = 1
      (ecc.kind = .corrected → (hbm ∨ (l2 ∧ linked)) →
        ∃ t, exec (.patrolScrubRead ecc) s = .next t
          ∧ OnlyField s t Reg.MEM_ECC_CORR Fld.MEM_ECC_CORR_COUNT
              (satAdd Fld.MEM_ECC_CORR_COUNT.w (fld s Reg.MEM_ECC_CORR Fld.MEM_ECC_CORR_COUNT) 1)
          ∧ SameRegsBut s t (Reg.MEM_ECC_CORR :: (List.range 64).map Reg.MEM_PPR_LIST)
          ∧ t = { s with regs := t.regs, recs := t.recs, recSeq := t.recSeq, thrLogged := t.thrLogged, lastCorr := t.lastCorr,
                         rowErrs := t.rowErrs })
      ∧ (((ecc.kind = .uncorrectable ∧ hbm) ∨ (ecc.kind = .linkFailed ∧ l2 ∧ linked)) →
        ∃ t r, exec (.patrolScrubRead ecc) s = .next t ∧ t.recs = s.recs ++ [r] ∧ r.code = 0x0302 ∧ r.sev = 2
          ∧ r.obj = tierOf ecc.addr ∧ r.d0 = ecc.addr / 64 * 64 ∧ r.d1 = 0 ∧ r.d2 = memLoc s ecc.addr
          ∧ r.d3 = (if ecc.addr < hbmEnd then ecc.rowBank else 0)
          ∧ OnlyField s t Reg.MEM_ECC_UNCORR Fld.MEM_ECC_UNCORR_COUNT
              (satAdd Fld.MEM_ECC_UNCORR_COUNT.w (fld s Reg.MEM_ECC_UNCORR Fld.MEM_ECC_UNCORR_COUNT) 1)
          ∧ SameRegsBut s t (Reg.MEM_ECC_UNCORR :: (List.range 64).map Reg.MEM_PPR_LIST)
          ∧ poisoned t ecc.addr 1 = true
          ∧ t = { s with regs := t.regs, recs := t.recs, recSeq := t.recSeq, poison := t.poison })
      ∧ (ecc.kind = .uncorrectable → l2 → exec (.patrolScrubRead ecc) s = .next s)))
  ∧
  ((∀ (s : State) (mask : Nat),
     ∃ t, exec (.cmbFlush mask) s = .next t ∧ SameRegsBut s t [Reg.CMB_STATUS] ∧ t = { s with regs := t.regs, comb := t.comb }
       ∧ t.comb = s.comb.filter (fun c => !mask.testBit c.part)
       ∧ ∀ p, p < 8 → (fld t Reg.CMB_STATUS Fld.CMB_STATUS_BUSY).testBit p
           = ((fld s Reg.CMB_STATUS Fld.CMB_STATUS_BUSY).testBit p || mask.testBit p))
   ∧ ∀ (s : State) (p : Nat),
     ∃ t, exec (.cmbFlushDone p) s = .next t ∧ SameRegsBut s t [Reg.CMB_STATUS] ∧ t = { s with regs := t.regs }
       ∧ ∀ q, q < 8 → (fld t Reg.CMB_STATUS Fld.CMB_STATUS_BUSY).testBit q
           = (decide (q ≠ p) && (fld s Reg.CMB_STATUS Fld.CMB_STATUS_BUSY).testBit q))
  ∧
  (∀ (s : State) (write strm : Bool) (line p : Nat), ownerAt s (line * 256) = some p →
     combCaches s p (decide (line * 256 < hbmEnd)) = true →
     (let t := combAccess write strm s line
      (∀ c, s.comb.find? (fun c => c.line == line) = some c →
        t.comb.head? = some { c with dirty := c.dirty || write }
        ∧ fld t (Reg.CMB_HIT p) Fld.CMB_HIT_HITS = satAdd Fld.CMB_HIT_HITS.w (fld s (Reg.CMB_HIT p) Fld.CMB_HIT_HITS) 1)
      ∧ (s.comb.find? (fun c => c.line == line) = none →
        fld t (Reg.CMB_HIT p) Fld.CMB_HIT_MISSES = satAdd Fld.CMB_HIT_MISSES.w (fld s (Reg.CMB_HIT p) Fld.CMB_HIT_MISSES) 1
        ∧ (strm = false → combWays s p ≠ [] → ∃ w, w ∈ combWays s p ∧ t.comb.head? = some ⟨line, p, w, write⟩)
        ∧ (strm = true → fld s (Reg.CMB_PART p) Fld.CMB_PART_STREAM_WAYS = 0 → t.comb = s.comb))
      ∧ t = { s with regs := t.regs, comb := t.comb }))

/-- INBOUND_ITEM_CAPPED (R198, R223): an item of an earlier attempt is dropped, its credit returned and counted in STALE; a
forward item of an earlier step is dropped uncounted (log entry 64); any other lies at the lowest free slot of its queue, last
in the queue, and its sender hears that it is capped; one whose slot lies outside the partition's memory is refused (R136, R138;
log entry 72). OUTBOUND_CAPPED_REPORT (R198, R199, R252): the outbound slot of a phase that is over is free again, and the
credits returned may be spent once more; a backup's report frees no slot; an item that waits leaves against a credit. -/
def Obligations.StageQueues : Prop :=
  ((∀ (s : State) (p x : Nat) (g : ManStage) (mv : ManVStage) (forward : Bool) (i : StageItem),
     stageOf s p = some (x, g) → g.vstages[i.vstage]? = some mv → (forward = true → g.logical i.vstage ≠ 0) →
     (forward = false → g.isLast i.vstage = false) → i.attempt < attemptNo s p →
     ∃ t, exec (.inboundItemCapped p forward i) s = .next t ∧ t.out = s.out ++ [.stageCredit p i.vstage forward]
       ∧ OnlyField s t (Reg.BRD_USE p) Fld.BRD_USE_STALE
           (satAdd Fld.BRD_USE_STALE.w (fld s (Reg.BRD_USE p) Fld.BRD_USE_STALE) 1)
       ∧ SameRegsBut s t [Reg.BRD_USE p] ∧ t = { s with out := t.out, regs := t.regs })
   ∧ (∀ (s : State) (p x : Nat) (g : ManStage) (mv : ManVStage) (i : StageItem),
     stageOf s p = some (x, g) → g.vstages[i.vstage]? = some mv → g.logical i.vstage ≠ 0 → attemptNo s p ≤ i.attempt →
     i.step < stepNo s p →
     ∃ t, exec (.inboundItemCapped p true i) s = .next t ∧ t.out = s.out ++ [.stageCredit p i.vstage true]
       ∧ t = { s with out := t.out })
   ∧ (∀ (s : State) (p x k : Nat) (g : ManStage) (mv : ManVStage) (forward : Bool) (i : StageItem),
     stageOf s p = some (x, g) → g.vstages[i.vstage]? = some mv → (forward = true → g.logical i.vstage ≠ 0) →
     (forward = false → g.isLast i.vstage = false) → attemptNo s p ≤ i.attempt → (forward = true → stepNo s p ≤ i.step) →
     i.vstage < (getTrain s p).vs.length → lowestFree (mv.inQ forward).slots (inTaken s p g i.vstage forward) = some k →
     (let q := mv.inQ forward
      let lo := (handleOf s x 0 q.handle).base + k * q.slotBytes
      let v := getVs s p i.vstage
      (firstBad s (some p) lo (min q.slotBytes i.data.length) = none →
        ∃ t, exec (.inboundItemCapped p forward i) s = .next t
          ∧ t.out = s.out ++ [.stageCapped p i.vstage forward i.step i.index]
          ∧ (∀ n, n < min q.slotBytes i.data.length → readByte t (lo + n) = i.data.getD n 0)
          ∧ SameBytesOutside s t lo (min q.slotBytes i.data.length)
          ∧ getVs t p i.vstage = (if forward then { v with inF := v.inF ++ [⟨i.step, i.attempt, i.index, k⟩] }
              else { v with inB := v.inB ++ [⟨i.step, i.attempt, i.index, k⟩] })
          ∧ (∀ j, j ≠ i.vstage → getVs t p j = getVs s p j) ∧ (∀ r, r ≠ p → getTrain t r = getTrain s r)
          ∧ SameRegsBut s t (Reg.BRD_USE p :: (List.range 8).map Reg.CMB_HIT)
          ∧ t = { s with mem := t.mem, poison := t.poison, comb := t.comb, free := t.free, train := t.train, regs := t.regs,
                         out := t.out, recs := t.recs, recSeq := t.recSeq })
      ∧ (∀ b, firstBad s (some p) lo (min q.slotBytes i.data.length) = some b →
        ∃ t e es, exec (.inboundItemCapped p forward i) s = .next t ∧ t.recs = s.recs ++ e :: es ∧ e.code = 0x0303
          ∧ e.ctx = some x ∧ e.d2 = b ∧ SameBytes s t ∧ t.out = s.out))))
  ∧
  ((∀ (s : State) (p j slot credits : Nat) (forward : Bool), j < (getTrain s p).vs.length →
     (∀ k, (getVs s p k).sendF = [] ∧ (getVs s p k).sendB = []) →
     (∀ e, e ∈ cellsAt s p j → ¬(e.2.outSlot = slot ∧ e.2.st = (if forward then .forward else .backward))) →
     (let v := getVs s p j
      ∃ t, exec (.outboundCappedReport p j ⟨forward, false⟩ ⟨slot, credits⟩) s = .next t
        ∧ getVs t p j = (if forward then { v with owedF := v.owedF - credits, outF := v.outF.filter (· != slot) }
            else { v with owedB := v.owedB - credits, outB := v.outB.filter (· != slot) })
        ∧ (∀ i, i ≠ j → getVs t p i = getVs s p i) ∧ (∀ r, r ≠ p → getTrain t r = getTrain s r)
        ∧ SameRegsBut s t [Reg.BRD_USE p]
        ∧ t = { s with train := t.train, regs := t.regs, recs := t.recs, recSeq := t.recSeq }))
   ∧ (∀ (s : State) (p j slot credits : Nat) (forward : Bool), j < (getTrain s p).vs.length →
     (∀ k, (getVs s p k).sendF = [] ∧ (getVs s p k).sendB = []) →
     (let v := getVs s p j
      ∃ t, exec (.outboundCappedReport p j ⟨forward, true⟩ ⟨slot, credits⟩) s = .next t
        ∧ getVs t p j = (if forward then { v with copyF := v.copyF - credits } else { v with copyB := v.copyB - credits })
        ∧ (∀ i, i ≠ j → getVs t p i = getVs s p i) ∧ SameRegsBut s t [Reg.BRD_USE p]))
   ∧ ∀ (s : State) (p x j slot credits : Nat) (g : ManStage) (o : OutItem), stageOf s p = some (x, g) → j < g.vstages.length →
     j < (getTrain s p).vs.length → flg s (Reg.GRD_ROLE p) Fld.GRD_ROLE_BACKUP_ROLE = false →
     (∀ k, (getVs s p k).sendB = []) → (∀ k, k ≠ j → (getVs s p k).sendF = []) → (getVs s p j).sendF = [o] → o.main = true →
     o.copy = false → (getVs s p j).owedF - credits < sendSlots g j true →
     ∃ t, exec (.outboundCappedReport p j ⟨true, false⟩ ⟨slot, credits⟩) s = .next t
       ∧ t.out = s.out ++ [.stageItem p o.pos true false o.item] ∧ (getVs t p j).sendF = []
       ∧ (getVs t p j).owedF = (getVs s p j).owedF - credits + 1)

/-- FORWARD_ADMISSION (R200, R201, R205, R210): the first item of the inbound queue leaves it, takes the lowest free cell and
the lowest free stash and outbound slots, and its entry task is given to its home core. BACKWARD_ADMISSION (R201, R211, R222):
the first inbound gradient finds its stashed cell, which enters BACKWARD and whose backward task is given to its home core; at
the last stage the next cell whose forward is complete turns; a gradient that no cell awaits is logged as an orphan and its
credit returned. ACCUMULATE_ADMISSION (R214, R215): the cell whose turn it is, of the lowest micro-batch among the stages, gets
its accumulate task; the first micro-batch of an accumulation window overwrites. CELL_HOLD_LIMIT (R222) logs a cell held too
long, once. -/
def Obligations.StageAdmissions : Prop :=
  (∀ (s : State) (p x j c : Nat) (g : ManStage) (mv : ManVStage) (i : InItem) (rest : List InItem),
     stageOf s p = some (x, g) → g.vstages[j]? = some mv → (getVs s p j).inF = i :: rest → freeCell s = some c →
     j < (getTrain s p).vs.length → fwdReady s p x g j = true → anyAcc s p x g = false →
     (bFirst s p = true → anyBwd s p x g 0 = false) → anyFwd s p x g (j + 1) = false →
     (let v := getVs s p j
      let stash := (lowestFree 256 v.stash).getD 0
      let out := if g.isLast j then none else lowestFree mv.outFwd.slots v.outF
      let cell : Cell :=
        { st := .forward, part := p, ctx := x, vstage := j, slot := stash, index := i.index, step := i.step, attempt := attemptNo s p,
          tasks := 1, inSlot := i.slot, outSlot := out.getD 0, beat := beat s, admitted := false, orphanLogged := false }
      ∃ t, exec (.forwardAdmission p j) s = .next t
        ∧ getVs t p j = { v with inF := rest, stash := v.stash ++ [stash], outF := v.outF ++ out.toList }
        ∧ getCell t c = cell ∧ (∀ d, d ≠ c → getCell t d = getCell s d)
        ∧ t.ctxs = (spawnEntry s x c cell mv.fwdEntry mv.fwdClass (nearEnd s p true)
            (entryArgs s p g c cell (i.slot * mv.inFwd.slotBytes) ((out.map (· * mv.outFwd.slotBytes)).getD 0) 0 false)).ctxs
        ∧ fld t (Reg.BRD_USE p) Fld.BRD_USE_HELD = (cellsOf t p).length % 2 ^ Fld.BRD_USE_HELD.w
        ∧ (∀ k, k ≠ j → getVs t p k = getVs s p k) ∧ (∀ r, r ≠ p → getTrain t r = getTrain s r)))
  ∧
  (∀ (s : State) (p x j : Nat) (g : ManStage) (mv : ManVStage), stageOf s p = some (x, g) → g.vstages[j]? = some mv →
     j < (getTrain s p).vs.length → bwdReady s p x g j = true → anyAcc s p x g = false →
     (bFirst s p = false → anyFwd s p x g 0 = false) → anyBwd s p x g (j + 1) = false →
     (let v := getVs s p j
      let out := if g.logical j = 0 then none else lowestFree mv.outBwd.slots v.outB
      (∀ i rest c cell, g.isLast j = false → v.inB = i :: rest → cellKey s p x j i = some (c, cell) →
        (let cell' := { cell with st := .backward, tasks := 1, inSlot := i.slot, outSlot := out.getD 0 }
         ∃ t, exec (.backwardAdmission p j) s = .next t ∧ getCell t c = cell' ∧ (∀ d, d ≠ c → getCell t d = getCell s d)
           ∧ getVs t p j = { v with inB := rest, outB := v.outB ++ out.toList }
           ∧ t.ctxs = (spawnEntry s x c cell' mv.bwdEntry mv.bwdClass true
               (entryArgs s p g c cell' (i.slot * mv.inBwd.slotBytes) ((out.map (· * mv.outBwd.slotBytes)).getD 0) 0 false)).ctxs))
      ∧ (∀ c cell, g.isLast j = true → turnNext s p x g j = some (c, cell) →
        ∃ t cell', exec (.backwardAdmission p j) s = .next t ∧ getCell t c = cell' ∧ cell'.st = .backward ∧ cell'.tasks = 1
          ∧ cell'.index = cell.index ∧ cell'.step = cell.step ∧ cell'.slot = cell.slot ∧ cell'.outSlot = out.getD 0
          ∧ (∀ d, d ≠ c → getCell t d = getCell s d) ∧ getVs t p j = { v with outB := v.outB ++ out.toList })
      ∧ ∀ i rest, g.isLast j = false → v.inB = i :: rest → cellKey s p x j i = none →
        ∃ t r, exec (.backwardAdmission p j) s = .next t ∧ t.recs = s.recs ++ [r] ∧ r.code = 0x0D02 ∧ r.d0 = 1 ∧ r.d1 = i.step
          ∧ t.out = s.out ++ [.stageCredit p j false] ∧ getVs t p j = { v with inB := rest }
          ∧ OnlyField s t (Reg.BRD_ORPHAN p) Fld.BRD_ORPHAN_COUNT
              (satAdd Fld.BRD_ORPHAN_COUNT.w (fld s (Reg.BRD_ORPHAN p) Fld.BRD_ORPHAN_COUNT) 1)
          ∧ SameRegsBut s t [Reg.BRD_ORPHAN p]
          ∧ t = { s with train := t.train, out := t.out, regs := t.regs, recs := t.recs, recSeq := t.recSeq }))
  ∧
  ((∀ (s : State) (p x j c : Nat) (g : ManStage) (mv : ManVStage) (cell : Cell), stageOf s p = some (x, g) →
     g.vstages[j]? = some mv → accNext s p x j = some (c, cell) →
     (∀ k d, k < g.vstages.length → accNext s p x k = some d → cell.index ≤ d.2.index) →
     (let cell' := { cell with tasks := 1, admitted := true, inSlot := 0, outSlot := 0 }
      ∃ t, exec (.accumulateAdmission p j) s = .next t ∧ getCell t c = cell' ∧ (∀ d, d ≠ c → getCell t d = getCell s d)
        ∧ t.ctxs = (spawnEntry s x c cell' mv.accEntry mv.accClass true
            (entryArgs s p g c cell' 0 0 0 (cell.index == 0 && (getTrain s p).winSteps == 0))).ctxs
        ∧ t.train = s.train ∧ t.regs = s.regs))
   ∧ ∀ (s : State) (n : Nat),
     (let c := getCell s n
      let lim := fld s (Reg.BRD_ORPHAN c.part) Fld.BRD_ORPHAN_LIMIT
      c.st ≠ .free → c.st ≠ .serving → lim ≠ 0 → c.orphanLogged = false → c.beat + lim * 1000 ≤ beat s →
      ∃ t r, exec (.cellHoldLimit n) s = .next t ∧ getCell t n = { c with orphanLogged := true }
        ∧ (∀ d, d ≠ n → getCell t d = getCell s d) ∧ t.recs = s.recs ++ [r] ∧ r.code = 0x0D02 ∧ r.obj = n ∧ r.d0 = 2
        ∧ r.d1 = c.step
        ∧ OnlyField s t (Reg.BRD_ORPHAN c.part) Fld.BRD_ORPHAN_COUNT
            (satAdd Fld.BRD_ORPHAN_COUNT.w (fld s (Reg.BRD_ORPHAN c.part) Fld.BRD_ORPHAN_COUNT) 1)
        ∧ SameRegsBut s t [Reg.BRD_ORPHAN c.part]
        ∧ t = { s with cells := t.cells, regs := t.regs, recs := t.recs, recSeq := t.recSeq }))

/-- STEP_END_OR_RESULT (R216, R217, R219): the OR that the group's tree has brought, or else the operand. A true result skips
the accumulation window (the scale goes down, the skip is counted, the gate opens); a false one counts a clean step (the scale
may go up) and opens the gate, or, at the window's end, starts the exchange; without a reduction the window ends there.
COMMIT_VOTE_RESULT (R223, R246, R247, R260, R423): the flags that the group's tree has brought, or else the operands. HALT stops
the partition's contexts; REPEAT discards the window's cells, takes STEP back and raises ATTEMPT, and tells the host; NONFINITE
skips; else the bank flips, the commit is counted, a generation may begin, and the parameter gather starts. No byte of memory
changes before the gather. -/
def Obligations.StepEnds : Prop :=
  (∀ (s : State) (p : Nat) (b : Bool), (getTrain s p).orWait = true → (getTrain s p).xch = none → (getTrain s p).gather = false →
     (getTrain s p).startDue = none → (∀ k, redSlot s p = some k → (getGrp s k).devWags = []) →
     (let o := ((devTake s p .stepOr).2.map (fun v => decide (v.headD 0 ≠ 0))).getD b
      let ls := Reg.BRD_LS p
      let st := Reg.BRD_LSSTAT p
      let e := asSigned 8 (fld s ls Fld.BRD_LS_SCALE_EXP)
      let en := fld s ls Fld.BRD_LS_LS_EN = 1
      let c := (fld s st Fld.BRD_LSSTAT_CLEAN + 1) % 2 ^ 24
      let grow := en ∧ c = max 1 (fld s ls Fld.BRD_LS_GROWTH_STEPS)
      let regs := [Reg.WGL_STAT, Reg.BRD_STEP p, ls, st, Reg.BRD_USE p]
      (o = true → ∃ t, exec (.stepEndOrResult p b) s = .next t ∧ fld t (Reg.BRD_STEP p) Fld.BRD_STEP_NF_LAST = 1
         ∧ stepNo t p = stepNo s p ∧ attemptNo t p = 0
         ∧ asSigned 8 (fld t ls Fld.BRD_LS_SCALE_EXP) = (if en ∧ -126 < e then e - 1 else e)
         ∧ fld t st Fld.BRD_LSSTAT_CLEAN = 0
         ∧ fld t st Fld.BRD_LSSTAT_SKIPS = satAdd Fld.BRD_LSSTAT_SKIPS.w (fld s st Fld.BRD_LSSTAT_SKIPS) 1
         ∧ (getTrain t p).orWait = false ∧ (getTrain t p).fwdHold = false ∧ (getTrain t p).winSteps = 0
         ∧ (∀ r, r ≠ p → getTrain t r = getTrain s r) ∧ SameRegsBut s t regs
         ∧ t = { s with regs := t.regs, train := t.train, recs := t.recs, recSeq := t.recSeq, grps := t.grps })
      ∧ (o = false → ((getTrain s p).winSteps + 1 < accumSteps s p ∨ redSlot s p = none ∨ reduceOf s p = none) →
         ∃ t, exec (.stepEndOrResult p b) s = .next t ∧ fld t (Reg.BRD_STEP p) Fld.BRD_STEP_NF_LAST = 0
           ∧ stepNo t p = stepNo s p
           ∧ asSigned 8 (fld t ls Fld.BRD_LS_SCALE_EXP) = (if grow ∧ e < 127 then e + 1 else e)
           ∧ fld t st Fld.BRD_LSSTAT_CLEAN = (if grow then 0 else c)
           ∧ fld t st Fld.BRD_LSSTAT_SKIPS = fld s st Fld.BRD_LSSTAT_SKIPS
           ∧ (getTrain t p).orWait = false ∧ (getTrain t p).fwdHold = false
           ∧ (if (getTrain s p).winSteps + 1 < accumSteps s p then
               attemptNo t p = attemptNo s p ∧ (getTrain t p).winSteps = (getTrain s p).winSteps + 1
             else attemptNo t p = 0 ∧ (getTrain t p).winSteps = 0)
           ∧ (∀ r, r ≠ p → getTrain t r = getTrain s r) ∧ SameRegsBut s t regs
           ∧ t = { s with regs := t.regs, train := t.train, recs := t.recs, recSeq := t.recSeq, grps := t.grps })
      ∧ (o = false → accumSteps s p ≤ (getTrain s p).winSteps + 1 → (redSlot s p).isSome = true → (reduceOf s p).isSome = true →
         ∃ u, exec (.stepEndOrResult p b) s = .next (startExchange u p) ∧ fld u (Reg.BRD_STEP p) Fld.BRD_STEP_NF_LAST = 0
           ∧ getTrain u p = { getTrain s p with winSteps := (getTrain s p).winSteps + 1, wagSince := none }
           ∧ (∀ r, r ≠ p → getTrain u r = getTrain s r) ∧ SameRegsBut s u [Reg.WGL_STAT, Reg.BRD_STEP p]
           ∧ u = { s with regs := u.regs, train := u.train, grps := u.grps })))
  ∧
  (∀ (s : State) (p : Nat) (e : Xch) (hh rr nn dd bb : Bool), (getTrain s p).xch = some e → e.voted = true → e.promoted = [] →
     (getTrain s p).fenced = false → (getTrain s p).ckpt.retry = false →
     (∀ k, redSlot s p = some k → (getGrp s k).devWags = []) →
     (let v := (devTake s p .vote).2
      let nfx := (v.map (fun w => decide (w.headD 0 ≠ 0))).getD nn
      let rpt := (v.map (fun w => decide (w.getD 1 0 ≠ 0))).getD rr
      let halt := (v.map (fun w => decide (w.getD 2 0 ≠ 0))).getD hh
      let due := (v.map (fun w => (w.getD 3 0).toNat.testBit 0)).getD dd
      let busy := (v.map (fun w => (w.getD 3 0).toNat.testBit 1)).getD bb
      let run := exec (.commitVoteResult p hh rr nn dd bb) s
      (halt = true → ∃ t, run = .next t ∧ SameBytes s t ∧ (getTrain t p).xch = none
         ∧ ∀ x, (getCtx t x).st = (if x ∈ ctxsOf s p ∧ ((getCtx s x).st = .loaded ∨ (getCtx s x).st = .runnable
             ∨ (getCtx s x).st = .running) then .stopped else (getCtx s x).st))
      ∧ (halt = false → rpt = true → (s.hostQ.filter (fun q => !q.isGap)).length < 4095 →
         ∃ t, run = .next t ∧ SameBytes s t
           ∧ stepNo t p = stepNo s p - (getTrain s p).winSteps ∧ attemptNo t p = (attemptNo s p + 1) % 256
           ∧ (getTrain t p).winSteps = 0 ∧ (getTrain t p).xch = none ∧ (getTrain t p).orWait = false
           ∧ (∀ c, (getCell t c).part = p → (getCell t c).st = .free ∨ (getCell t c).st = .serving)
           ∧ (∀ x m f, x ∈ ctxsOf s p → manOf s x = some m → f ∈ m.flags → f.stepScoped = true → f.barrier = false →
               getFlag t f.index = FlagSt.off)
           ∧ fld t (Reg.GRD_FAULT p) Fld.GRD_FAULT_REPEATS
               = satAdd Fld.GRD_FAULT_REPEATS.w (fld s (Reg.GRD_FAULT p) Fld.GRD_FAULT_REPEATS) 1
           ∧ t.hostQ = s.hostQ ++ [⟨.rewind p (rd t (Reg.BRD_CURSOR p)).toNat (stepNo t p) (attemptNo t p), false, [], []⟩])
      ∧ (halt = false → rpt = false → nfx = true →
         ∃ t, run = .next t ∧ SameBytes s t ∧ bankOf t p = bankOf s p
           ∧ fld t (Reg.BRD_STEP p) Fld.BRD_STEP_NF_LAST = 1 ∧ attemptNo t p = 0 ∧ (getTrain t p).orWait = false
           ∧ (getTrain t p).winSteps = 0 ∧ t.ctxs = s.ctxs
           ∧ fld t (Reg.BRD_LSSTAT p) Fld.BRD_LSSTAT_SKIPS
               = satAdd Fld.BRD_LSSTAT_SKIPS.w (fld s (Reg.BRD_LSSTAT p) Fld.BRD_LSSTAT_SKIPS) 1)
      ∧ (halt = false → rpt = false → nfx = false →
         ∃ u, run = .next (startGather u p) ∧ SameBytes s u
           ∧ u.ctxs = s.ctxs ∧ bankOf u p = 1 - bankOf s p
           ∧ fld u (Reg.OPT_COMMITS p) Fld.OPT_COMMITS_COMMITS
               = satAdd Fld.OPT_COMMITS_COMMITS.w (fld s (Reg.OPT_COMMITS p) Fld.OPT_COMMITS_COMMITS) 1
           ∧ fld u (Reg.OPT_LAST p) Fld.OPT_LAST_STEP = xchStep s p
           ∧ fld u (Reg.OPT_LAST p) Fld.OPT_LAST_ATTEMPT = attemptNo s p
           ∧ attemptNo u p = 0 ∧ (getTrain u p).winSteps = 0 ∧ (getTrain u p).xch = none
           ∧ (if due = true ∧ busy = false ∧ fld s (Reg.CKP_AREA p) Fld.CKP_AREA_AREA_COUNT ≠ 0 then
               (getCkpt u p).gen = (getCkpt s p).gen + 1 ∧ (getCkpt u p).snap = true ∧ (getCkpt u p).step = stepNo s p
             else getCkpt u p = getCkpt s p))))

/-- PARAMETER_GATHER_COMPLETE (R217, R248, R425): a gather that is complete at this device frees its group, opens the step gate
and lets a snapshot that is due begin. HANDLER_CHUNK_DELIVERY (R244): a ready chunk enters the chunk buffer of its core, at most
four at a time, and its handler task is given to that core. -/
def Obligations.GathersAndHandlers : Prop :=
  (∀ (s : State) (p slot : Nat) (b : Bulk), redSlot s p = some slot → (getGrp s slot).bulk = some b →
     (getTrain s p).gather = true → (getGrp s slot).aborting = none → b.owner = none →
     b.done (grpGeo s (getGrp s slot) b.sig) = true → (getGrp s slot).waiting = [] → Sparse.get none s.resume p = none →
     ∃ t, exec (.parameterGatherComplete p) s = .next t ∧ getGrp t slot = ({ getGrp s slot with bulk := none }).settle
       ∧ OnlyGrp s t slot ∧ (getTrain t p).gather = false ∧ (getTrain t p).orWait = false ∧ (getTrain t p).fwdHold = false
       ∧ (∀ r, r ≠ p → getTrain t r = getTrain s r)
       ∧ ((getCkpt s p).snap = true → fld t (Reg.CKP_LAST p) Fld.CKP_LAST_PHASE = 1)
       ∧ fld t (Reg.COL_STAT p) Fld.COL_STAT_COMPLETED
           = satAdd Fld.COL_STAT_COMPLETED.w (fld s (Reg.COL_STAT p) Fld.COL_STAT_COMPLETED) 1
       ∧ SameRegsBut s t [Reg.COL_STAT p, Reg.CKP_LAST p, Reg.BRD_USE p]
       ∧ t = { s with grps := t.grps, train := t.train, regs := t.regs, recs := t.recs, recSeq := t.recSeq })
  ∧
  (∀ (s : State) (p c slot x : Nat) (r : ManReduce) (b : Bulk) (e : Xch) (v : ReadyChunk), redSlot s p = some slot →
     reduceOf s p = some (x, r) → (getGrp s slot).bulk = some b → (getTrain s p).xch = some e →
     e.ready.find? (fun v => v.c == c) = some v → b.agreed = true → e.aborted = false → (getGrp s slot).aborting = none →
     (getCkpt s p).snap = false →
     (let hg := handlerGroup s p r
      let l := hg.1 + c % max 1 hg.2
      let core := physCore s p l
      let task : Task := { entry := r.entry, args := handlerArgs s p (gflow s p slot e.comp b.sig) (getGrp s slot).members.length v,
                           tid := 0, home := l, group := some (l, l), kind := .optHandler p c, bound := .none }
      (Sparse.get [] s.chunkBufs core).length < 4 → (getCore s x l).held = [] → dequeRoom s x l = true →
      (getRun s x l).isSome = true →
      ∃ t e', exec (.handlerChunkDelivery p c) s = .next t ∧ (getTrain t p).xch = some e' ∧ e'.delivered = e.delivered ++ [c]
        ∧ e'.ready = e.ready.filter (· != v) ∧ e'.nfx = (e.nfx || v.nonfinite)
        ∧ Sparse.get [] t.chunkBufs core = Sparse.get [] s.chunkBufs core ++ [(p, c, v.vals)]
        ∧ (∀ k, k ≠ core → Sparse.get [] t.chunkBufs k = Sparse.get [] s.chunkBufs k)
        ∧ getCore t x l = { getCore s x l with deque := task :: (getCore s x l).deque }
        ∧ (∀ y, y ≠ x → getCtx t y = getCtx s y)
        ∧ fld t (Reg.OPT_CHUNKS p) Fld.OPT_CHUNKS_DISPATCHED
            = satAdd Fld.OPT_CHUNKS_DISPATCHED.w (fld s (Reg.OPT_CHUNKS p) Fld.OPT_CHUNKS_DISPATCHED) 1
        ∧ OnlyField s t (Reg.OPT_PART p) Fld.OPT_PART_BUSY 1 ∧ SameRegsBut s t [Reg.OPT_CHUNKS p, Reg.OPT_PART p]
        ∧ t = { s with train := t.train, chunkBufs := t.chunkBufs, ctxs := t.ctxs, regs := t.regs }))

/-- GRADIENT_CHUNK_ARRIVAL (R234, R236, R304): a chunk of the exchange in progress is checked; one that fails is counted and
logged with the check, and the exchange aborts to be repeated; one that passes is counted and taken into the flow. GRD_LATE
(R249 to R252): a member whose first chunk of a round is late is logged once with the action: its backup is taken where the
policy gives it one, else the exchange aborts to be repeated; the late member itself is fenced. -/
def Obligations.GradientExchange : Prop :=
  (∀ (s : State) (p slot : Nat) (c : GradChunk) (b : Bulk) (e : Xch), redSlot s p = some slot → (getGrp s slot).gid = c.sig.gid →
     c.sig.gen = (getGrp s slot).gen → (getGrp s slot).st ≠ 3 → (getGrp s slot).aborting = none →
     (getGrp s slot).bulk = some b → (getTrain s p).xch = some e → e.aborted = false → c.sig = b.sig → c.backup = false →
     c.src ∉ e.promoted → c.wire ≠ blankWire c.wire.round → (c.wire.round, c.wire.chunk, c.wire.part) ∉ e.got →
     ((gradCheck e c).1 ≠ 0 →
       ∃ u r, exec (.gradientChunkArrival p c) s = .next (afterAbort (detectAbort u slot false b.sig.seq .check) slot)
         ∧ u.recs = s.recs ++ [r] ∧ r.code = 0x0702 ∧ r.sev = 1 ∧ r.obj = (getGrp s slot).gid ∧ r.d0 = c.wire.chunk
         ∧ r.d1 = (gradCheck e c).1 ∧ r.d2 = (gradCheck e c).2.1 % 2 ^ 31 + 2 ^ 32 * ((gradCheck e c).2.2 % 2 ^ 31)
         ∧ OnlyField s u (Reg.GRD_FAULT p) Fld.GRD_FAULT_RESIDUE
             (satAdd Fld.GRD_FAULT_RESIDUE.w (fld s (Reg.GRD_FAULT p) Fld.GRD_FAULT_RESIDUE) 1)
         ∧ SameRegsBut s u [Reg.GRD_FAULT p] ∧ (∀ r, getTrain u r = getTrain s r)
         ∧ u = { s with regs := u.regs, recs := u.recs, recSeq := u.recSeq, train := u.train })
     ∧ ((gradCheck e c).1 = 0 →
       (let k := gradUnit e.comp c.wire
        let mine (v : Nat × Nat × GradWire) : Bool := v.1 == c.wire.round && v.2.1 == k
        let all := (e.pieces.filter mine).map (·.2.2) ++ [c.wire]
        let e1 := { e with got := e.got ++ [(c.wire.round, c.wire.chunk, c.wire.part)] }
        ∃ u, exec (.gradientChunkArrival p c) s = .next (afterAbort (gradProgress u p slot) slot)
          ∧ fld u (Reg.GRD_CHUNKS p) Fld.GRD_CHUNKS_CHECKED
              = satAdd Fld.GRD_CHUNKS_CHECKED.w (fld s (Reg.GRD_CHUNKS p) Fld.GRD_CHUNKS_CHECKED) 1
          ∧ SameRegsBut s u [Reg.GRD_CHUNKS p, Reg.GRD_CROSS p] ∧ OnlyGrp s u slot
          ∧ (∀ r, r ≠ p → getTrain u r = getTrain s r) ∧ u = { s with regs := u.regs, grps := u.grps, train := u.train }
          ∧ (all.length < gradWhole e.comp c.wire →
              (getTrain u p).xch = some { e1 with pieces := e.pieces ++ [(c.wire.round, k, c.wire)] })
          ∧ (gradWhole e.comp c.wire ≤ all.length →
              (getTrain u p).xch = some (Xch.takeUnit { e1 with pieces := e.pieces.filter (fun v => !mine v) }
                (gflow s p slot e.comp b.sig) c.wire.round k (assemble e.comp all)).1))))
  ∧
  ((∀ (s : State) (p rank round : Nat), (redSlot s p).isSome = true → fld s (Reg.GRD_ROLE p) Fld.GRD_ROLE_RANK = rank →
     fld s (Reg.GRD_ROLE p) Fld.GRD_ROLE_BACKUP_ROLE = 0 →
     ∃ t, exec (.grdLate p rank round) s = .next t ∧ getTrain t p = { getTrain s p with fenced := true }
       ∧ (∀ q, q ≠ p → getTrain t q = getTrain s q) ∧ t = { s with train := t.train })
   ∧ ∀ (s : State) (p rank round slot w : Nat) (b : Bulk) (e : Xch), redSlot s p = some slot → (getTrain s p).xch = some e →
     (getGrp s slot).bulk = some b →
     ¬(fld s (Reg.GRD_ROLE p) Fld.GRD_ROLE_BACKUP_ROLE = 1 ∧ fld s (Reg.GRD_ROLE p) Fld.GRD_ROLE_SHADOW = rank) →
     fld s (Reg.GRD_ROLE p) Fld.GRD_ROLE_RANK ≠ rank → lateBy s p rank round = some w →
     ∃ u r, u.recs = s.recs ++ [r] ∧ r.code = 0x0701 ∧ r.sev = 1 ∧ r.d0 = rank ∧ r.d1 = round ∧ r.d3 = w
       ∧ OnlyField s u (Reg.GRD_FAULT p) Fld.GRD_FAULT_LATE
           (satAdd Fld.GRD_FAULT_LATE.w (fld s (Reg.GRD_FAULT p) Fld.GRD_FAULT_LATE) 1)
       ∧ SameRegsBut s u [Reg.GRD_FAULT p] ∧ u = { s with regs := u.regs, recs := u.recs, recSeq := u.recSeq, train := u.train }
       ∧ (∀ q, q ≠ p → getTrain u q = getTrain s q)
       ∧ (if fld s (Reg.GRD_PART p) Fld.GRD_PART_POLICY = 1 ∧ hasBackup s p rank = true ∧ e.promoted = [] then
           r.d2 = 2 ∧ exec (.grdLate p rank round) s = .next u ∧ (getTrain u p).xch = some (promote e rank (beat s) [round])
         else r.d2 = (if exhausted s p then 3 else 1) ∧ getTrain u p = getTrain s p
           ∧ exec (.grdLate p rank round) s = .next (afterAbort (detectAbort u slot false b.sig.seq .check) slot)))

/-- SNAPSHOT_DONE and WARD_COPY_ARRIVAL (R424 to R426, R431): the snapshot is the slot's bytes in the partition's own slot, and
its copy leaves for the buddy; the buddy writes an intact copy into its ward slot and acknowledges it, a drone that has taken a
rank the copy of that rank's slot into its own; a copy that is not intact is only logged. A slot in memory that is not there is
refused. CHECKPOINT_ACK_ARRIVAL and CKP_FAIL (R425, R426, R431, R438): the buddy's acknowledgement of the generation under way
completes it, those of copies made in the background after a rollback only settle them; a copy that failed its CRC, or was not
acknowledged in time, is logged and made again. -/
def Obligations.Checkpoints : Prop :=
  ((∀ (s : State) (p : Nat), (getCkpt s p).snap = true → (getTrain s p).gather = false →
     (let k := getCkpt s p
      let bs := slotBytes s p k.gen k.step k.cursor
      let a := ownSlot s p k.gen
      (firstOut s none [(a, bs.length)] = none → s.poison = [] → (k.bgBuddy = true ∨ k.acked ≠ k.gen) → k.bgWard = false →
        ∃ t copy, exec (.snapshotDone p) s = .next t ∧ (∀ i, i < bs.length → readByte t (a + i) = bs.getD i 0)
          ∧ SameBytesOutside s t a bs.length ∧ t.out = s.out ++ [.ckptCopy p k.gen (buddyOf s p) copy]
          ∧ getTrain t p = { getTrain s p with
              ckpt := { k with snap := false, own := k.gen, copyAt := some (beat s), retry := false } }
          ∧ (∀ r, r ≠ p → getTrain t r = getTrain s r) ∧ OnlyField s t (Reg.CKP_LAST p) Fld.CKP_LAST_PHASE 2
          ∧ SameRegsBut s t (Reg.CKP_LAST p :: (List.range 8).map Reg.CMB_HIT)
          ∧ t = { s with mem := t.mem, poison := t.poison, out := t.out, train := t.train, regs := t.regs, comb := t.comb,
                         free := t.free })
      ∧ ∀ b, firstOut s none [(a, bs.length)] = some b →
        ∃ t r, exec (.snapshotDone p) s = .next t ∧ t.recs = s.recs ++ [r] ∧ r.code = 0x0303 ∧ r.sev = 2 ∧ r.part = some p
          ∧ r.d2 = b ∧ getTrain t p = { getTrain s p with ckpt := { k with snap := false } }
          ∧ (∀ q, q ≠ p → getTrain t q = getTrain s q) ∧ t = { s with recs := t.recs, recSeq := t.recSeq, train := t.train }))
   ∧ (∀ (s : State) (p gen rank : Nat) (slot : List Byte) (crcOk : Bool), fld s Reg.CKP_DRONE Fld.CKP_DRONE_STATE ≠ 2 →
     fld s (Reg.CKP_AREA p) Fld.CKP_AREA_WARD_COUNT ≠ 0 → fld s (Reg.CKP_AREA p) Fld.CKP_AREA_WARD = rank →
     (let a := wardSlot s p gen
      let good := crcOk && slotIntact (storeBytes s a slot) a slot.length
      (firstOut s none [(a, slot.length)] = none → good = true →
        ∃ t, exec (.wardCopyArrival p gen rank slot crcOk) s = .next t
          ∧ (∀ i, i < slot.length → readByte t (a + i) = slot.getD i 0)
          ∧ SameBytesOutside s t a slot.length ∧ t.out = s.out ++ [.ckptAck p gen rank]
          ∧ OnlyField s t (Reg.CKP_STAT p) Fld.CKP_STAT_WARD_DONE (gen % 2 ^ 32)
          ∧ SameRegsBut s t (Reg.CKP_STAT p :: (List.range 8).map Reg.CMB_HIT)
          ∧ t = { s with mem := t.mem, poison := t.poison, out := t.out, regs := t.regs, comb := t.comb, free := t.free })
      ∧ (firstOut s none [(a, slot.length)] = none → good = false →
        ∃ t r, exec (.wardCopyArrival p gen rank slot crcOk) s = .next t ∧ t.recs = s.recs ++ [r] ∧ r.code = 0x1001
          ∧ r.sev = (if inTakeover s then 3 else 2) ∧ r.obj = p ∧ r.d0 = 1 ∧ r.d1 = gen ∧ r.d2 = rank ∧ r.d3 = stepNo s p
          ∧ t = { s with recs := t.recs, recSeq := t.recSeq })
      ∧ ∀ b, firstOut s none [(a, slot.length)] = some b →
        ∃ t r, exec (.wardCopyArrival p gen rank slot crcOk) s = .next t ∧ t.recs = s.recs ++ [r] ∧ r.code = 0x0303 ∧ r.sev = 2
          ∧ r.part = some p ∧ r.d2 = b ∧ t = { s with recs := t.recs, recSeq := t.recSeq }))
   ∧ ∀ (s : State) (p gen rank : Nat) (slot : List Byte), ownCopy s p slot = true → buddyOf s p = rank →
     fld s (Reg.CKP_AREA p) Fld.CKP_AREA_AREA_COUNT ≠ 0 → firstOut s none [(ownSlot s p gen, slot.length)] = none →
     slotIntact (storeBytes s (ownSlot s p gen) slot) (ownSlot s p gen) slot.length = true →
     ∃ t, exec (.wardCopyArrival p gen rank slot true) s = .next t
       ∧ (∀ i, i < slot.length → readByte t (ownSlot s p gen + i) = slot.getD i 0)
       ∧ SameBytesOutside s t (ownSlot s p gen) slot.length ∧ t.out = s.out ++ [.ckptAck p gen rank]
       ∧ SameRegsBut s t ((List.range 8).map Reg.CMB_HIT)
       ∧ t = { s with mem := t.mem, poison := t.poison, out := t.out, regs := t.regs, comb := t.comb, free := t.free })
  ∧
  ((∀ (s : State) (p gen : Nat), (getCkpt s p).own = gen → (getCkpt s p).copyAt ≠ none → (getCkpt s p).bgBuddy = false →
     (getCkpt s p).bgWard = false → (getCkpt s p).acked ≠ gen → (getCkpt s p).gen = gen → gen ≠ 0 →
     ∃ t, exec (.checkpointAckArrival p ⟨gen, buddyOf s p⟩) s = .next t
       ∧ getTrain t p = { getTrain s p with ckpt := { getCkpt s p with copyAt := none, acked := gen } }
       ∧ (∀ r, r ≠ p → getTrain t r = getTrain s r)
       ∧ fld t (Reg.CKP_STAT p) Fld.CKP_STAT_DONE = gen % 2 ^ 32
       ∧ fld t (Reg.CKP_LAST p) Fld.CKP_LAST_STEP = (getCkpt s p).step % 2 ^ 48
       ∧ fld t (Reg.CKP_LAST p) Fld.CKP_LAST_PHASE = 0
       ∧ fld t (Reg.CKP_CURSOR p) Fld.CKP_CURSOR_CURSOR = (getCkpt s p).cursor % 2 ^ 64
       ∧ OnlyField s t Reg.CKP_COUNT Fld.CKP_COUNT_CHECKPOINTS
           (satAdd Fld.CKP_COUNT_CHECKPOINTS.w (fld s Reg.CKP_COUNT Fld.CKP_COUNT_CHECKPOINTS) 1)
       ∧ SameRegsBut s t [Reg.CKP_STAT p, Reg.CKP_LAST p, Reg.CKP_CURSOR p, Reg.CKP_COUNT]
       ∧ t = { s with train := t.train, regs := t.regs })
   ∧ (∀ (s : State) (p gen rank : Nat) (buddy : Bool), (getCkpt s p).own = gen → (getCkpt s p).acked = gen →
     (getCkpt s p).copyAt ≠ none →
     (if buddy then rank = buddyOf s p ∧ (getCkpt s p).bgBuddy = true
       else rank = wardOf s p ∧ (getCkpt s p).bgWard = true ∧ ¬(rank = buddyOf s p ∧ (getCkpt s p).bgBuddy = true)) →
     ∃ t, exec (.checkpointAckArrival p ⟨gen, rank⟩) s = .next t
       ∧ (getCkpt t p).bgBuddy = (if buddy then false else (getCkpt s p).bgBuddy)
       ∧ (getCkpt t p).bgWard = (if buddy then (getCkpt s p).bgWard else false)
       ∧ (getCkpt t p).copyAt = (if (if buddy then (getCkpt s p).bgWard else (getCkpt s p).bgBuddy) then (getCkpt s p).copyAt else none)
       ∧ getTrain t p = { getTrain s p with ckpt := { getCkpt s p with
           bgBuddy := (getCkpt t p).bgBuddy, bgWard := (getCkpt t p).bgWard, copyAt := (getCkpt t p).copyAt } }
       ∧ (∀ r, r ≠ p → getTrain t r = getTrain s r) ∧ t = { s with train := t.train })
   ∧ ∀ (s : State) (p cause b : Nat), (getCkpt s p).copyAt = some b →
     (cause = 1 ∨ (cause = 7 ∧ b + max 1 (fld s Reg.COL_CTL Fld.COL_CTL_TMO) ≤ beat s)) →
     ∃ t r, exec (.ckpFail p cause) s = .next t ∧ t.recs = s.recs ++ [r] ∧ r.code = 0x1001
       ∧ r.sev = (if inTakeover s then 3 else 2) ∧ r.obj = p ∧ r.d0 = cause ∧ r.d1 = (getCkpt s p).own
       ∧ r.d2 = (if (getCkpt s p).buddyOwes then buddyOf s p else wardOf s p)
       ∧ getTrain t p = { getTrain s p with ckpt := { getCkpt s p with copyAt := none, retry := true } }
       ∧ (∀ q, q ≠ p → getTrain t q = getTrain s q) ∧ t = { s with recs := t.recs, recSeq := t.recSeq, train := t.train })

/-- LINK_UNIT_RECEIVE (R360 to R363): on an UP port, with nothing waiting, a unit that fails its CRC is counted and answered by
a NAK; one out of order by a NAK, unless the port already discards; one in order is acknowledged and joins its packet; an
acknowledgement releases the units up to it, and a NAK has every unit after it sent again. -/
def Obligations.LinkUnits : Prop :=
  ∀ (s : State) (k : Nat) (u : LinkUnit), k < 16 → portState s k = 2 → portHeld s k = false → s.fabWait = [] →
    (let p := getPort s k
     let rx := satAdd Fld.FAB_PRXk_UNITS.w (fld s (Reg.FAB_PRXk k) Fld.FAB_PRXk_UNITS) 1
     (u.idle = false → u.lcrcOk = false →
       ∃ t, exec (.linkUnitReceive k u) s = .next t ∧ getPort t k = { p with dropping := true }
         ∧ (∀ j, j ≠ k → getPort t j = getPort s j) ∧ t.out = s.out ++ [.trailer k p.lastIn true]
         ∧ OnlyField s t (Reg.FAB_PERRk k) Fld.FAB_PERRk_CRC_ERR
             (satAdd Fld.FAB_PERRk_CRC_ERR.w (fld s (Reg.FAB_PERRk k) Fld.FAB_PERRk_CRC_ERR) 1)
         ∧ fld t (Reg.FAB_PRXk k) Fld.FAB_PRXk_UNITS = rx ∧ SameRegsBut s t [Reg.FAB_PRXk k, Reg.FAB_PERRk k]
         ∧ t = { s with ports := t.ports, out := t.out, regs := t.regs })
     ∧ (u.lcrcOk = true → u.nak = false → u.c0 = false → (∀ e, e ∈ p.retry → e.lseq ≠ u.lack % 4096) → u.idle = false →
       (u.lseq ≠ (p.lastIn + 1) % 4096 → p.dropping = false →
         ∃ t, exec (.linkUnitReceive k u) s = .next t ∧ getPort t k = { p with dropping := true }
           ∧ (∀ j, j ≠ k → getPort t j = getPort s j) ∧ t.out = s.out ++ [.trailer k p.lastIn true]
           ∧ OnlyField s t (Reg.FAB_PRXk k) Fld.FAB_PRXk_UNITS rx ∧ SameRegsBut s t [Reg.FAB_PRXk k]
           ∧ t = { s with ports := t.ports, out := t.out, regs := t.regs })
       ∧ (u.lseq = (p.lastIn + 1) % 4096 → u.ident = none → u.credit = none → u.last = false →
         (let old := (p.partIn.find? (fun e => e.vc == u.vc && e.cls == u.cls)).getD ⟨u.vc, u.cls, 0, false, []⟩
          ∃ t, exec (.linkUnitReceive k u) s = .next t
            ∧ getPort t k = { p with
                lastIn := u.lseq, dropping := false
                partIn := p.partIn.filter (fun e => e.vc != u.vc || e.cls != u.cls)
                  ++ [{ old with units := old.units + 1, psn := old.psn || u.psn, body := old.body ++ u.body }] }
            ∧ (∀ j, j ≠ k → getPort t j = getPort s j) ∧ t.out = s.out ++ [.trailer k u.lseq false]
            ∧ OnlyField s t (Reg.FAB_PRXk k) Fld.FAB_PRXk_UNITS rx ∧ SameRegsBut s t [Reg.FAB_PRXk k]
            ∧ t = { s with ports := t.ports, out := t.out, regs := t.regs })))
     ∧ (∀ pre e post, u.lcrcOk = true → u.idle = true → u.nak = false → u.c0 = false → p.retry = pre ++ e :: post →
         e.lseq = u.lack % 4096 → (∀ v, v ∈ pre → v.lseq ≠ u.lack % 4096) →
         ∃ t, exec (.linkUnitReceive k u) s = .next t
           ∧ getPort t k = { p with
               retry := post, sent := p.sent.filter (fun t => post.any (fun u => u.pkt == t.id)) }
           ∧ (∀ j, j ≠ k → getPort t j = getPort s j) ∧ t = { s with ports := t.ports })
     ∧ (u.lcrcOk = true → u.idle = true → u.nak = true → u.c0 = false → p.retry ≠ [] →
         (∀ e, e ∈ p.retry → e.lseq ≠ u.lack % 4096 ∧ e.resends < 16) →
         ∃ t, exec (.linkUnitReceive k u) s = .next t
           ∧ getPort t k = { p with retry := p.retry.map (fun (v : TxUnit) => { v with resends := v.resends + 1 }) }
           ∧ (∀ j, j ≠ k → getPort t j = getPort s j) ∧ t.out = s.out ++ [.resent k (ackedSeq p) p.retry.length]
           ∧ OnlyField s t (Reg.FAB_PERRk k) Fld.FAB_PERRk_REPLAYS
               (satAdd Fld.FAB_PERRk_REPLAYS.w (fld s (Reg.FAB_PERRk k) Fld.FAB_PERRk_REPLAYS) p.retry.length)
           ∧ fld t (Reg.FAB_PTXk k) Fld.FAB_PTXk_UNITS
               = satAdd Fld.FAB_PTXk_UNITS.w (fld s (Reg.FAB_PTXk k) Fld.FAB_PTXk_UNITS) p.retry.length
           ∧ SameRegsBut s t [Reg.FAB_PERRk k, Reg.FAB_PTXk k]
           ∧ t = { s with ports := t.ports, out := t.out, regs := t.regs }))

/-- LANE_FAILURE and LASER_SOURCE_FAILURE (R377, R378): a spare lane takes the place of a failed one, or the port goes down with
cause 3; source C takes the place of a failed source, or the ports that it lit go down with cause 5; so do those that source C
lit when it fails itself. PORT_TRAINING_DONE, RECEIVE_DARK_TIMEOUT, LIGHT_DETECTED and FAB_PCTL_RETRAIN (R356, R375, R376,
R379): a port that sees its remote on eight lanes and is seen by it comes UP afresh; one that sees nothing stays DOWN with a
record; a dark group lowers to safety pulses, light ends them and trains the port again, unless it went down by loss: that takes
a retrain. -/
def Obligations.PortsAndLasers : Prop :=
  ((∀ (s : State) (k lane cw : Nat), k < 16 → portState s k = 2 → lane < 8 → lane ∉ (getPort s k).lanesFailed →
     (fld s (Reg.FAB_PCTLk k) Fld.FAB_PCTLk_SPARE_EN = 1 → fld s (Reg.FAB_PSTATk k) Fld.FAB_PSTATk_SPARE_USED = 0 →
       8 ∉ (getPort s k).lanesFailed → (getPort s k).retry = [] →
       ∃ t r, exec (.laneFailure k lane 1 cw) s = .next t ∧ t.recs = s.recs ++ [r] ∧ r.code = 0x0801 ∧ r.sev = 1 ∧ r.obj = k
         ∧ r.d0 = lane ∧ r.d1 = 1 ∧ r.d2 = cw
         ∧ OnlyField s t (Reg.FAB_PSTATk k) Fld.FAB_PSTATk_SPARE_USED 1 ∧ SameRegsBut s t [Reg.FAB_PSTATk k]
         ∧ getPort t k = { getPort s k with lanesFailed := (getPort s k).lanesFailed ++ [lane] }
         ∧ (∀ j, j ≠ k → getPort t j = getPort s j)
         ∧ t = { s with ports := t.ports, regs := t.regs, recs := t.recs, recSeq := t.recSeq })
     ∧ (fld s (Reg.FAB_PSTATk k) Fld.FAB_PSTATk_SPARE_USED = 1 →
       ∃ t, exec (.laneFailure k lane 1 cw) s = .next t ∧ portState t k = 0
         ∧ fld t (Reg.FAB_PSTATk k) Fld.FAB_PSTATk_CAUSE = 3 ∧ (getPort t k).retry = [] ∧ (getPort t k).partIn = []
         ∧ (∀ j, j ≠ k → getPort t j = getPort s j) ∧ SameRegsBut s t [Reg.FAB_PSTATk k, Reg.FAB_SWARM]
         ∧ t = { s with ports := t.ports, regs := t.regs, recs := t.recs, recSeq := t.recSeq, out := t.out, swarm := t.swarm }))
   ∧ (∀ (s : State) (e b uw : Nat), e < 4 → b < 2 →
     (let a := Reg.FAB_ENG e
      let f := if b = 1 then Fld.FAB_ENG_SRC_B else Fld.FAB_ENG_SRC_A
      fld s a f = 1 →
      (fld s a Fld.FAB_ENG_SRC_C = 3 → (∀ k, k ∈ lasersPorts e b → (getPort s k).retry = []) →
        ∃ t r, exec (.laserSourceFailure e b uw) s = .next t ∧ t.recs = s.recs ++ [r] ∧ r.code = 0x0805 ∧ r.sev = 1 ∧ r.obj = e
          ∧ r.d0 = b ∧ r.d2 = uw ∧ fld t a f = 2 ∧ fld t a Fld.FAB_ENG_SRC_C = 1
          ∧ fld t a Fld.FAB_ENG_C_FOR = 1 + b ∧ SameRegsBut s t [a]
          ∧ t = { s with regs := t.regs, recs := t.recs, recSeq := t.recSeq })
      ∧ (fld s a Fld.FAB_ENG_SRC_C ≠ 3 →
        ∃ t, exec (.laserSourceFailure e b uw) s = .next t ∧ OnlyField s t a f 2
          ∧ ∀ k, k < 16 → portState t k = (if k ∈ lasersPorts e b ∧ portState s k = 2 then 0 else portState s k)
              ∧ (k ∈ lasersPorts e b → portState s k = 2 → fld t (Reg.FAB_PSTATk k) Fld.FAB_PSTATk_CAUSE = 5))))
   ∧ ∀ (s : State) (e uw : Nat), e < 4 →
     (let a := Reg.FAB_ENG e
      let c := fld s a Fld.FAB_ENG_C_FOR
      let dark := if c = 1 ∨ c = 2 then lasersPorts e (c - 1) else []
      (fld s a Fld.FAB_ENG_SRC_C = 1 ∨ fld s a Fld.FAB_ENG_SRC_C = 3) →
      ∃ t, exec (.laserSourceFailure e 2 uw) s = .next t ∧ fld t a Fld.FAB_ENG_SRC_C = 2 ∧ fld t a Fld.FAB_ENG_C_FOR = 0
        ∧ fld t a Fld.FAB_ENG_SRC_A = fld s a Fld.FAB_ENG_SRC_A ∧ fld t a Fld.FAB_ENG_SRC_B = fld s a Fld.FAB_ENG_SRC_B
        ∧ ∀ k, k < 16 → portState t k = (if k ∈ dark ∧ portState s k = 2 then 0 else portState s k)
            ∧ (k ∈ dark → portState s k = 2 → fld t (Reg.FAB_PSTATk k) Fld.FAB_PSTATk_CAUSE = 5)))
  ∧
  ((∀ (s : State) (k : Nat) (tr : TrainResult) (r : Nat × Nat), k < 16 → portState s k = 1 → portHeld s k = false → s.fabWait = [] →
     mainRemote tr.lanes = some r →
     8 ≤ (tr.lanes.filter (fun v => v.map (fun v => (v.uid, v.port)) == some r)).length → tr.remoteReportsUs = true →
     r.1 ≠ ownUid s →
     ∃ t, exec (.portTrainingDone k tr) s = .next t ∧ portState t k = 2
       ∧ getPort t k = (getPort s k).afresh (missingLanes tr.lanes r)
       ∧ fld t (Reg.FAB_PSTATk k) Fld.FAB_PSTATk_SPARE_USED
           = (if missingLanes tr.lanes r ≠ [] ∧ 8 ∉ missingLanes tr.lanes r then 1 else 0)
       ∧ rd t (Reg.FAB_PIDk k) = BitVec.ofNat 64 r.1 ∧ rd t (Reg.FAB_LMAPk k) = laneMap tr.lanes r
       ∧ fld t (Reg.FAB_PSTATk k) Fld.FAB_PSTATk_REMOTE_VALID = 1 ∧ (∀ j, j ≠ k → getPort t j = getPort s j)
       ∧ SameRegsBut s t [Reg.FAB_PIDk k, Reg.FAB_LMAPk k, Reg.FAB_PSTATk k, Reg.FAB_SWARM]
       ∧ t = { s with ports := t.ports, regs := t.regs, recs := t.recs, recSeq := t.recSeq, swarm := t.swarm })
   ∧ (∀ (s : State) (k : Nat) (tr : TrainResult), k < 16 → portState s k = 1 → portHeld s k = false → mainRemote tr.lanes = none →
     ∃ t r, exec (.portTrainingDone k tr) s = .next t ∧ t.recs = s.recs ++ [r] ∧ r.code = 0x0803 ∧ r.obj = k
       ∧ r.d0 = (if tr.ownLit && portLit s k then 1 else 5) ∧ portState t k = 0
       ∧ SameRegsBut s t [Reg.FAB_LMAPk k, Reg.FAB_PSTATk k]
       ∧ t = { s with regs := t.regs, recs := t.recs, recSeq := t.recSeq })
   ∧ ∀ (s : State) (k : Nat), k < 16 → portEnabled s k = true →
     (∃ t, exec (.receiveDarkTimeout k) s = .next t ∧ (getPort t k).pulses = true ∧ t.out.getLast? = some (.pulses k)
       ∧ portState t k = (if portState s k = 2 then 0 else portState s k) ∧ (∀ j, j ≠ k → getPort t j = getPort s j))
     ∧ (∃ t, exec (.lightDetected k) s = .next t ∧ getPort t k = { getPort s k with pulses := false }
       ∧ (let trains := portState s k = 0 ∧ (getPort s k).wentDown = false
          portState t k = (if trains then 1 else portState s k)
            ∧ t.out = (if trains then s.out ++ [.identity k (ownUid s)] else s.out))
       ∧ (∀ j, j ≠ k → getPort t j = getPort s j) ∧ SameRegsBut s t [Reg.FAB_PSTATk k, Reg.FAB_PTXk k]
       ∧ t = { s with ports := t.ports, regs := t.regs, out := t.out })
     ∧ (portState s k = 0 → (getPort s k).wentDown = true →
       ∃ t, exec (.fabPctlRetrain k) s = .next t ∧ OnlyField s t (Reg.FAB_PSTATk k) Fld.FAB_PSTATk_STATE 1
         ∧ OnlyField s t (Reg.FAB_PTXk k) Fld.FAB_PTXk_UNITS (satAdd Fld.FAB_PTXk_UNITS.w (fld s (Reg.FAB_PTXk k) Fld.FAB_PTXk_UNITS) 1)
         ∧ SameRegsBut s t [Reg.FAB_PSTATk k, Reg.FAB_PTXk k] ∧ getPort t k = (getPort s k).afresh []
         ∧ (∀ j, j ≠ k → getPort t j = getPort s j) ∧ t.out = s.out ++ [.identity k (ownUid s)]
         ∧ t = { s with ports := t.ports, regs := t.regs, out := t.out }))

/-- CONFIRM_REQUEST_ARRIVAL, CONFIRM_ANSWER_ARRIVAL and CONFIRM_TIMEOUT (R379): the last unit received in order is told; the
packets that the far end did not have are sent again ahead of later ones; without an answer they are lost, counted and logged.
ESCAPE_WAIT_EXPIRY (R369): an adaptive packet that has waited takes the escape class; where the escape port takes it, it leaves
by that port. -/
def Obligations.HeldPackets : Prop :=
  ((∀ (s : State) (k : Nat), k < 16 →
     ∃ t, exec (.confirmRequestArrival k) s = .next t ∧ t.out.getLast? = some (.confirmTell k (getPort s k).lastIn)
       ∧ (portState s k ≠ 2 → t = { s with out := s.out ++ [.confirmTell k (getPort s k).lastIn] })
       ∧ (portState s k = 2 → portState t k = 0 ∧ fld t (Reg.FAB_PSTATk k) Fld.FAB_PSTATk_CAUSE = 6))
   ∧ (∀ (s : State) (k lseq : Nat), k < 16 → (getPort s k).confirmBy ≠ none →
     (let p := getPort s k
      let rest := p.held.filter (fun e => decide ((lseq % 4096 + 4096 - p.heldBase) % 4096 < e.2))
      ∃ u r, exec (.confirmAnswerArrival k lseq) s = .next (pumpFabric u) ∧ u.recs = s.recs ++ [r] ∧ r.code = 0x0803
        ∧ r.obj = k ∧ r.d0 = fld s (Reg.FAB_PSTATk k) Fld.FAB_PSTATk_CAUSE ∧ r.d2 = p.unitsHeld ∧ r.d3 = rest.length
        ∧ u.fabWait = rest.map (fun e => { e.1 with inPort := none, resent := true }) ++ s.fabWait
        ∧ getPort u k = { p with held := [], confirmBy := none } ∧ (∀ j, j ≠ k → getPort u j = getPort s j)
        ∧ u = { s with ports := u.ports, recs := u.recs, recSeq := u.recSeq, fabWait := u.fabWait }))
   ∧ ∀ (s : State) (k d : Nat) (h : Transit × Nat) (hs : List (Transit × Nat)), (getPort s k).confirmBy = some d →
     (getPort s k).held = h :: hs → d ≤ beat s →
     ∃ t r q, exec (.confirmTimeout k) s = .next t ∧ t.recs = s.recs ++ [r, q] ∧ r.code = 0x0804 ∧ r.d0 = 3
       ∧ r.d2 = hs.length + 1 ∧ q.code = 0x0803 ∧ q.obj = k
       ∧ OnlyField s t (Reg.FAB_PDROPk k) Fld.FAB_PDROPk_LOST
           (satAdd Fld.FAB_PDROPk_LOST.w (fld s (Reg.FAB_PDROPk k) Fld.FAB_PDROPk_LOST) (hs.length + 1))
       ∧ SameRegsBut s t [Reg.FAB_PDROPk k] ∧ getPort t k = { getPort s k with held := [], confirmBy := none }
       ∧ (∀ j, j ≠ k → getPort t j = getPort s j)
       ∧ t = { s with ports := t.ports, regs := t.regs, recs := t.recs, recSeq := t.recSeq })
  ∧
  (∀ (s : State) (k id : Nat),
     (∃ u, exec (.escapeWaitExpiry k id) s = .next (pumpFabric u) ∧ u = { s with fabWait := u.fabWait }
       ∧ u.fabWait = s.fabWait.map (fun t => if t.id = id ∧ t.inPort.getD k = k ∧ adaptiveVc t.pkt.vc = true
           then { t with pkt := { t.pkt with esc := true } } else t))
     ∧ ∀ (w : Transit) (r : Route), s.fabWait = [w] → w.via = none → w.id = id → w.inPort.getD k = k → adaptiveVc w.pkt.vc = true →
       routeOf s w.pkt = some r → r.isLocal = false → ¬(w.inPort.isSome = true ∧ w.pkt.hops = 0) →
       portTakes s (escapePort s r w.resent) true { w.pkt with esc := true } = true →
       ∃ t p tr, exec (.escapeWaitExpiry k id) s = .next t ∧ t.fabWait = [] ∧ t.out.getLast? = some (.packet (escapePort s r w.resent) true w.psn p tr)
         ∧ p.data = w.pkt.data ∧ p.dest = w.pkt.dest ∧ p.src = w.pkt.src ∧ p.esc = true
         ∧ p.hops = (if w.inPort.isSome then w.pkt.hops - 1 else w.pkt.hops) ∧ SameBytes s t)

/-- Swarm (R372 to R374): FAB_CMD.START begins LINKS; ELECT, CENSUS, ASSIGN and ROUTES follow each other, and READY brings the
next epoch with its route table. EPOCH_SWITCH changes an ordered VC over. -/
def Obligations.SwarmPhases : Prop :=
  (∀ (s : State), (swarmPhase s = 0 ∨ swarmPhase s = 6) → s.keeper.held = false →
    ∃ t, exec .fabCmdStart s = .next t ∧ OnlyField s t Reg.FAB_SWARM Fld.FAB_SWARM_PHASE 1
      ∧ SameRegsBut s t [Reg.FAB_SWARM] ∧ t = { s with regs := t.regs, swarm := { s.swarm with began := beat s } })
  ∧ (∀ (s : State) (ms : Nat), swarmPhase s = 1 → (100 ≤ ms ∨ ∀ k, k < 16 → portState s k ≠ 1) →
    ∃ t, exec (.swarmLinksEnd ms) s = .next t ∧ OnlyField s t Reg.FAB_SWARM Fld.FAB_SWARM_PHASE 2
      ∧ SameRegsBut s t [Reg.FAB_SWARM] ∧ t = { s with regs := t.regs, swarm := { s.swarm with began := beat s } })
  ∧ (∀ (s : State) (ports roots dists : List Nat) (root depth parent quiet : Nat), swarmPhase s = 2 → 64 ≤ quiet →
    electRoot s (offersOf ports roots dists) = some (root, depth, parent) →
    (flg s Reg.FAB_CTL Fld.FAB_CTL_ROOT_ELIGIBLE = true → root ≤ ownUid s)
    ∧ (∀ o, o ∈ offersOf ports roots dists → o.port < 16 → portState s o.port = 2 → root ≤ o.root)
    ∧ ∃ t, exec (.swarmElectQuiet ports roots dists quiet) s = .next t ∧ swarmPhase t = 3
      ∧ fld t Reg.FAB_ADDR Fld.FAB_ADDR_ROOT = (if root = ownUid s then 1 else 0)
      ∧ fld t Reg.FAB_ADDR Fld.FAB_ADDR_DEPTH = depth % 2 ^ Fld.FAB_ADDR_DEPTH.w
      ∧ SameRegsBut s t [Reg.FAB_SWARM, Reg.FAB_ADDR] ∧ t.out = s.out ++ [.swarmCandidate root depth]
      ∧ t = { s with regs := t.regs, out := t.out, swarm := { s.swarm with root := root, parent := parent, depth := depth } })
  ∧ (∀ (s : State) (nodes : List (Nat × Option Nat)) (links : List SwarmLink), swarmPhase s = 3 →
    (let ns := nodes.filter (fun n => n.1 != ownUid s) ++ [(ownUid s, ownAddr s)]
     let ls := links ++ (ownCensus s).2.filter (fun l => !links.any (sameLink l))
     ∃ t, exec (.swarmCensusDone nodes links) s = .next t ∧ OnlyField s t Reg.FAB_SWARM Fld.FAB_SWARM_PHASE 4
       ∧ SameRegsBut s t [Reg.FAB_SWARM]
       ∧ t.out = (if fld s Reg.FAB_ADDR Fld.FAB_ADDR_ROOT = 1 then s.out else s.out ++ [.swarmCensus ns ls])
       ∧ t = { s with regs := t.regs, out := t.out, swarm := { s.swarm with census := ns, links := ls } }))
  ∧ (∀ (s : State) (nodes : List SwarmNode) (links : List SwarmLink), swarmPhase s = 4 →
    (let root := fld s Reg.FAB_ADDR Fld.FAB_ADDR_ROOT = 1
     let ns := if root then assignAddresses s.swarm.census else nodes
     let ls := if root then s.swarm.links else links
     ∃ t, exec (.swarmAssignDone nodes links) s = .next t ∧ swarmPhase t = 5
       ∧ t.swarm = { s.swarm with nodes := ns, links := ls }
       ∧ fld t Reg.FAB_SWARM Fld.FAB_SWARM_DEVICES = ns.length % 2 ^ Fld.FAB_SWARM_DEVICES.w
       ∧ (∀ n, ns.find? (fun n => n.uid == ownUid s) = some n →
           ownAddr t = some (n.addr % 2 ^ Fld.FAB_ADDR_ADDR.w))
       ∧ (ns.find? (fun n => n.uid == ownUid s) = none → ownAddr t = none)
       ∧ t.out = s.out ++ [.swarmMap ns ls] ∧ SameRegsBut s t [Reg.FAB_SWARM, Reg.FAB_ADDR]
       ∧ t = { s with regs := t.regs, swarm := t.swarm, out := t.out }))
  ∧ (∀ (s : State), swarmPhase s = 5 → s.fabWait = [] → s.waitLoads = [] → s.resume = [] → s.trees = [] → residents s = [] →
    (∀ p, (getTrain s p).wagSince = none) →
    ∃ t, exec .swarmRoutesDone s = .next t ∧ swarmPhase t = 6 ∧ epoch t = (epoch s + 1) % 65536
      ∧ t.routes = writeTable s ((epoch s + 1) % 65536 % 2)
      ∧ t.swarm = { s.swarm with oldVcs := if s.routes = [] then [] else [0, 5, 7], oldOpen := if s.routes = [] then [] else openAnswers s }
      ∧ SameRegsBut s t (Reg.FAB_SWARM :: (linksOf s.swarm.links (ownUid s)).map (fun e => Reg.FAB_PSTATk e.1))
      ∧ t = { s with regs := t.regs, swarm := t.swarm, routes := t.routes })
  ∧ ∀ (s : State) (vc : Nat),
    ∃ t, exec (.epochSwitch vc) s = .next t ∧ t = { s with swarm := t.swarm }
      ∧ t.swarm = { s.swarm with oldVcs := t.swarm.oldVcs }
      ∧ ∀ v, v ∈ t.swarm.oldVcs ↔ v ∈ s.swarm.oldVcs ∧ (v ≠ vc ∨ (vc = 5 ∧ s.swarm.oldOpen.any (awaitsAnswer s) = true))

/-- PLL_LOSS_OF_LOCK, PLL_RELOCK, CLK_UNLOCK and CLOCK_STAGE_LOCKED (R395, R397, R503, R511): the STATE of a domain, what its
failure does to the contexts it serves, and the frequencies of a stage that locks. -/
def Obligations.ClockDomains : Prop :=
  (∀ (s : State) (d : Nat), d < 25 →
    (clkState s d = 2 →
      ∃ t, exec (.pllLossOfLock d) s = .next t ∧ OnlyField s t (Reg.CLK_DOM d) Fld.CLK_DOM_STATE 1
        ∧ fld t Reg.CLK_SUMMARY ⟨d, 1⟩ = 0 ∧ SameRegsBut s t [Reg.CLK_DOM d, Reg.CLK_SUMMARY] ∧ t = { s with regs := t.regs })
    ∧ (clkState s d = 1 →
      (∃ t, exec (.pllRelock d) s = .next t ∧ clkState t d = 2 ∧ fld t Reg.CLK_SUMMARY ⟨d, 1⟩ = 1
        ∧ (∀ e, e < 25 → clkState s e ≠ 0 → e ≠ d → clkState t e = clkState s e)
        ∧ t = { s with regs := t.regs, free := s.free + 1 })
      ∧ ∃ t r, exec (.clkUnlock d) s = .next t ∧ clkState t d = 3 ∧ fld t Reg.CLK_SUMMARY ⟨32 + d, 1⟩ = 1
        ∧ t.recs = s.recs ++ [r] ∧ r.code = 0x1401 ∧ r.sev = 3 ∧ r.obj = d ∧ t.pins.clkAlert = true
        ∧ (2 ≤ stageOfDomain d → fld t Reg.BOOT_STATUS Fld.BOOT_STATUS_FAULT = 5)
        ∧ SameRegsBut s t [Reg.CLK_DOM d, Reg.CLK_SUMMARY, Reg.BOOT_STATUS] ∧ SameBytes s t
        ∧ ∀ x, (getCtx t x).st = (if residentIn s x = true ∧ clkServes s (getCtx s x).part d = true then .faulted
            else (getCtx s x).st)))
  ∧ ∀ (s : State) (g : Nat) (khz : List (Nat × Nat)), (∃ d, d ∈ stageDomains g ∧ clkState s d = 1) →
    (∀ d, d ∈ stageDomains g → clkState s d = 1 ∨ clkState s d = 2) →
    ∃ t, exec (.clockStageLocked g khz) s = .next t ∧ SameBytes s t ∧ t.ctxs = s.ctxs
      ∧ ∀ d, d ∈ stageDomains g → clkState t d = 2
        ∧ fld t (Reg.CLK_DOM d) Fld.CLK_DOM_FREQ_KHZ = ((khz.lookup d).getD 0) % 2 ^ Fld.CLK_DOM_FREQ_KHZ.w

/-- BEAT_TICK (R384, R386, R441, R480, R481): with HUMCLK LOCKED, and nothing sent since the last beat, HUM_BEAT goes up by one
and the slew comes nearer 0 by SLEW_PPM ps; then every die takes its DUTY for the next beat, 4 where the current asks for it,
before the tasks see the beat. A remote set sent since the last beat enters the fabric as a VC5 packet for the rank's device, by
the escape port of the route of its own epoch, with HOPS as FAB_CTL.MAX_HOPS says (R364, R367, R368, R374). While the host port
is UP, an IPv6 address not yet in use is probed first. -/
def Obligations.BeatTicks : Prop :=
  (∀ (s : State) (b : BeatInputs), clkState s 24 = 2 → s.out.length ≤ s.handed → (ethUp s = true → s.eth.probed = given6 s) →
    (let n : Int := max 1 (min 1000 (fld s Reg.HUM_CTL Fld.HUM_CTL_SLEW_PPM))
     let v := s.hum.slew
     ∃ u, exec (.beatTick b) s = .next (tickTasks (throttleTick (collectiveTick u) b)) ∧ rd u Reg.HUM_BEAT = rd s Reg.HUM_BEAT + 1
       ∧ u.hum.slew = (if 0 < v then max 0 (v - n) else min 0 (v + n)) ∧ u.hum.healthy = s.hum.healthy
       ∧ SameRegsBut s u [Reg.HUM_BEAT, Reg.HUM_STATUS]
       ∧ u = { s with regs := u.regs, hum := u.hum, out := u.out, ports := u.ports, eth := u.eth }
       ∧ (let high := (s.pwr.overs.filter (fun v => decide (beat u < v + 10000))).length
          let brake := 3200 < b.amps ∨ (2700 < b.amps ∧ 1000 ≤ high)
          ∀ d, d < 4 → dutyOf (throttleTick (collectiveTick u) b) d = (if brake then 4
            else dutyStep s b.pkgW (b.dieTemp.getD d (-40)) (heldFloor s d)
              (if s.pwr.brake then s.pwr.duty.getD d 64 else dutyOf s d)))))
  ∧ (∀ (s : State) (b : BeatInputs) (x r n a : Nat) (rt : Route), clkState s 24 = 2 → s.out.drop s.handed = [.remoteSet x r n] →
    s.fabWait = [] → r ≠ ownRank s x → rankAddr s r = some a → ownAddr s ≠ some a →
    Sparse.get none s.routes (stampOf s 5 * 16384 + a) = some rt → rt.isLocal = false → portState s rt.escPort = 2 →
    portHeld s rt.escPort = false → 17 ≤ creditsOf s rt.escPort 5 true → (getPort s rt.escPort).retry.length + 17 ≤ 1024 →
    ∃ u p tr, exec (.beatTick b) s = .next (tickTasks (throttleTick (collectiveTick u) b))
      ∧ .packet rt.escPort true false p tr ∈ u.out
      ∧ p.vc = 5 ∧ p.dest = a ∧ p.src = (ownAddr s).getD 0 ∧ p.hops = max 1 (fld s Reg.FAB_CTL Fld.FAB_CTL_MAX_HOPS)
      ∧ p.ep = stampOf s 5 ∧ p.esc = false ∧ u.fabWait = [] ∧ u.handed = s.out.length)
  ∧ ∀ (s : State) (b : BeatInputs), clkState s 24 = 2 → s.out.length ≤ s.handed → ethUp s = true → secOn s = false →
    ∃ u, exec (.beatTick b) s = .next (tickTasks (throttleTick (collectiveTick u) b)) ∧ u.eth.probed = given6 s
      ∧ ∀ a, a ∈ given6 s → a ∉ s.eth.probed → .addressProbe a ∈ u.out

/-- HUM_SOURCE_HEALTHY and HUM_INPUT_FAULT (R388, R391, R392, R394): a source that has shown no fault for 1,000,000 beats is
taken if no better one is healthy, its time reached by a step of whole beats while nothing is resident and by slewing otherwise;
a fault is logged and, from the current source, moves the unit to the next healthy one or to holdover; a source's clean beats
count from the end of its fault. HUM_PPS_EDGE, HUM_SET_WRITE and PTP_MESSAGE_ARRIVAL (R388, R390, R394): an edge marks the beat
that NEXT_PPS names, or the nearest multiple of 1,000,000; an offset of the current source that has not stepped by more than
JUMP_US is slewed, and HUM_OFFSET shows it; one that has is a fault of cause 10. The time of another source is kept for the move
to it. HUM_CELL_ARRIVAL and HUM_PATH_MEASURE (R388, R389): a device that follows no master follows the one whose cell comes by a
tree port, and passes the cell on by its other tree ports; the delay of the link towards the master is half the round trip. -/
def Obligations.HumUnit : Prop :=
  ((∀ (s : State) (src clean : Nat), sourceEnabled s src = true → src ∉ s.hum.healthy → 1000000 ≤ cleanOf s src → 1000000 ≤ clean →
     (let best := ∀ k, k < src → ¬(sourceEnabled s k = true ∧ k ∈ s.hum.healthy)
      ∃ t, exec (.humSourceHealthy src clean) s = .next t ∧ t.hum.healthy = s.hum.healthy ++ [src]
        ∧ (¬best → t = { s with hum := { s.hum with healthy := s.hum.healthy ++ [src] } })
        ∧ (best → humSource t = src ∧ fld t Reg.HUM_STATUS Fld.HUM_STATUS_LOCKED = 1
          ∧ fld t Reg.HUM_FAULTS Fld.HUM_FAULTS_SRC_CHANGES
              = satAdd Fld.HUM_FAULTS_SRC_CHANGES.w (fld s Reg.HUM_FAULTS Fld.HUM_FAULTS_SRC_CHANGES) 1
          ∧ (∀ ps, aheadOf s src = some ps → mayStep s = true →
              rd t Reg.HUM_BEAT = rd s Reg.HUM_BEAT + BitVec.ofInt 64 ((ps + 500000) / 1000000)
              ∧ t.hum.slew = ps - (ps + 500000) / 1000000 * 1000000)
          ∧ (∀ ps, aheadOf s src = some ps → mayStep s = false → rd t Reg.HUM_BEAT = rd s Reg.HUM_BEAT ∧ t.hum.slew = ps)
          ∧ (aheadOf s src = none → rd t Reg.HUM_BEAT = rd s Reg.HUM_BEAT ∧ t.hum.slew = s.hum.slew)
          ∧ SameRegsBut s t [Reg.HUM_STATUS, Reg.HUM_FAULTS, Reg.HUM_BEAT, Reg.CLK_DOM 24]
          ∧ t = { s with regs := t.regs, hum := t.hum })))
   ∧ (∀ (s : State) (src cause uid : Nat) (ppb : Int), sourceEnabled s src = true →
     ∃ t, exec (.humInputFault src cause ppb ⟨uid, .ends⟩) s = .next t ∧ cleanOf t src = 0
       ∧ t = { s with hum := { s.hum with clean := t.hum.clean, faulty := s.hum.faulty.filter (· != src) } })
   ∧ ∀ (s : State) (src cause uid : Nat) (ppb : Int) (phase : FaultPhase), sourceEnabled s src = true →
     causeFits s src cause = true → phase ≠ .ends →
     (cause ≠ 8 → ¬(cause = 3 ∧ fld s Reg.HUM_CTL Fld.HUM_CTL_AUTO_INVERT = 1) →
       ∃ t r rest, exec (.humInputFault src cause ppb ⟨uid, phase⟩) s = .next t ∧ t.recs = s.recs ++ r :: rest ∧ r.code = 0x0902
         ∧ r.sev = 1 ∧ r.obj = src ∧ r.d0 = cause ∧ src ∉ t.hum.healthy ∧ cleanOf t src = 0
         ∧ (phase = .begins → src ∈ t.hum.faulty) ∧ (phase = .momentary → t.hum.faulty = s.hum.faulty)
         ∧ fld t Reg.HUM_STATUS Fld.HUM_STATUS_LAST_CAUSE = cause
         ∧ fld t Reg.HUM_FAULTS Fld.HUM_FAULTS_IN_FAULTS
             = satAdd Fld.HUM_FAULTS_IN_FAULTS.w (fld s Reg.HUM_FAULTS Fld.HUM_FAULTS_IN_FAULTS) 1
         ∧ humSource t = (if humSource s = src then
             (([1, 2, 3].filter (fun k => k != src && sourceEnabled s k && s.hum.healthy.contains k)).head?).getD 4
           else humSource s)
         ∧ SameRegsBut s t [Reg.HUM_STATUS, Reg.HUM_FAULTS, Reg.HUM_BEAT, Reg.CLK_DOM 24]
         ∧ t = { s with regs := t.regs, hum := t.hum, recs := t.recs, recSeq := t.recSeq })
     ∧ (cause = 8 → ∃ t r, exec (.humInputFault src cause ppb ⟨uid, phase⟩) s = .next t ∧ t.recs = s.recs ++ [r] ∧ r.code = 0x0902
         ∧ r.d0 = 8 ∧ r.d2 = uid ∧ humSource t = humSource s ∧ t.hum = s.hum
         ∧ SameRegsBut s t [Reg.HUM_STATUS, Reg.HUM_FAULTS])
     ∧ (cause = 3 → fld s Reg.HUM_CTL Fld.HUM_CTL_AUTO_INVERT = 1 →
       ∃ t, exec (.humInputFault src cause ppb ⟨uid, phase⟩) s = .next t ∧ fld t Reg.HUM_STATUS Fld.HUM_STATUS_INVERTED = 1
         ∧ humSource t = humSource s ∧ t.hum = s.hum ∧ SameRegsBut s t [Reg.HUM_STATUS, Reg.HUM_FAULTS]))
  ∧
  ((∀ (s : State) (v : Word), ∃ t, exec (.humSetWrite v) s = .next t
     ∧ t = { s with hum := { s.hum with nextPps := some v.toNat } })
   ∧ (∀ (s : State) (ns : Int), sourceEnabled s 1 = true → s.hum.nextPps = none →
     (let total := aheadNs s (BitVec.ofNat 64 (nearestPps (beat s))) + ns
      let kept := (1, total * 1000) :: s.hum.ahead.filter (fun e => e.1 != 1)
      (humSource s ≠ 1 → ∃ t, exec (.humPpsEdge ns) s = .next t ∧ t = { s with hum := { s.hum with ahead := kept } })
      ∧ (humSource s = 1 → (∀ o, aheadOf s 1 = some o → (total * 1000 - o).natAbs ≤ jumpUs s * 1000000) →
        ∃ t, exec (.humPpsEdge ns) s = .next t ∧ t.hum = { s.hum with slew := total * 1000, ahead := kept }
          ∧ fld t Reg.HUM_OFFSET Fld.HUM_OFFSET_OFFSET_NS = toTwos 32 total
          ∧ SameRegsBut s t [Reg.HUM_OFFSET, Reg.HUM_STATUS] ∧ t = { s with regs := t.regs, hum := t.hum, free := s.free + 1 })
      ∧ (∀ o, humSource s = 1 → aheadOf s 1 = some o → jumpUs s * 1000000 < (total * 1000 - o).natAbs →
        ∃ t r rest, exec (.humPpsEdge ns) s = .next t ∧ t.recs = s.recs ++ r :: rest ∧ r.code = 0x0902 ∧ r.obj = 1 ∧ r.d0 = 10
          ∧ 1 ∉ t.hum.healthy ∧ humSource t ≠ 1)))
   ∧ (∀ (s : State) (ns : Int) (n : Nat), sourceEnabled s 1 = true → humSource s = 1 → s.hum.nextPps = some n → n < 2 ^ 64 →
     mayStep s = true →
       ∃ t, exec (.humPpsEdge ns) s = .next t ∧ beat t = n ∧ t.hum.slew = ns * 1000 ∧ t.hum.nextPps = none
         ∧ SameRegsBut s t [Reg.HUM_OFFSET, Reg.HUM_STATUS, Reg.HUM_BEAT]
         ∧ t = { s with regs := t.regs, hum := t.hum, free := s.free + 1 })
   ∧ ∀ (s : State) (us : Nat) (ns : Int), sourceEnabled s 3 = true →
     (let dom := fld s Reg.HUM_CTL Fld.HUM_CTL_PTP_DOMAIN
      let total := aheadNs s (BitVec.ofNat 64 us) + ns
      let kept := (3, total * 1000) :: s.hum.ahead.filter (fun e => e.1 != 3)
      (∀ d, d ≠ dom → ∃ t, exec (.ptpMessageArrival d ⟨us, ns⟩) s = .next t ∧ t = s)
      ∧ (humSource s ≠ 3 → ∃ t, exec (.ptpMessageArrival dom ⟨us, ns⟩) s = .next t ∧ t = { s with hum := { s.hum with ahead := kept } })
      ∧ (humSource s = 3 → (∀ o, aheadOf s 3 = some o → (total * 1000 - o).natAbs ≤ jumpUs s * 1000000) →
        ∃ t, exec (.ptpMessageArrival dom ⟨us, ns⟩) s = .next t ∧ t.hum = { s.hum with slew := total * 1000, ahead := kept }
          ∧ fld t Reg.HUM_OFFSET Fld.HUM_OFFSET_OFFSET_NS = toTwos 32 total
          ∧ SameRegsBut s t [Reg.HUM_OFFSET, Reg.HUM_STATUS] ∧ t = { s with regs := t.regs, hum := t.hum, free := s.free + 1 })))
  ∧
  ((∀ (s : State) (uid k hops : Nat) (count : Word) (ns : Int), sourceEnabled s 2 = true → treePort s k = true →
     isMaster s = false → s.hum.master = none → humSource s ≠ 2 → k < 16 →
     ∃ t, exec (.humCellArrival uid k hops count ns) s = .next t
       ∧ t.hum = { s.hum with
           master := some uid, lastCell := beat s
           ahead := (2, (aheadNs s count + ns) * 1000) :: s.hum.ahead.filter (fun e => e.1 != 2) }
       ∧ t.out = s.out ++ ((treePorts s).filter (· != k)).map (fun j => .humCell j count.toNat (hops + 1) uid)
       ∧ fld t Reg.HUM_STATUS Fld.HUM_STATUS_UP_PORT = k
       ∧ fld t Reg.HUM_STATUS Fld.HUM_STATUS_MASTER_HOPS = hops % 2 ^ Fld.HUM_STATUS_MASTER_HOPS.w
       ∧ SameRegsBut s t [Reg.HUM_STATUS] ∧ t = { s with regs := t.regs, hum := t.hum, out := t.out })
   ∧ ∀ (s : State) (k rt ta : Nat), treePort s k = true → s.hum.master ≠ none → fld s Reg.HUM_STATUS Fld.HUM_STATUS_UP_PORT = k →
     ∃ t, exec (.humPathMeasure k rt ta) s = .next t
       ∧ OnlyField s t Reg.HUM_PATH Fld.HUM_PATH_DELAY_NS ((rt - ta) / 2 % 2 ^ 32)
       ∧ SameRegsBut s t [Reg.HUM_PATH] ∧ t = { s with regs := t.regs })

/-- VCORE_DROOP and DROOP_PAUSE_END (R482, R484): a droop of more than 40 mV pauses its die; the first of an episode is logged,
a later one counted; the pause ends. TELEMETRY_SAMPLE, PWR_CMD.AVS_RETRY and PWR_CMD.SENSOR_RETRY (R477 to R479, R491): the
sample stands in PWR_TEL, the voltage goes towards its target by at most 10 mV, no more often than every TEL_BEATS beats; three
failed transfers halt AVSBus with a FATAL record; a retry ends the halt. -/
def Obligations.PowerControl : Prop :=
  ((∀ (s : State) (d mv : Nat), d < 4 → mv + 40 < setMv s → (getDroop s d).paused = false →
     (let v := getDroop s d
      let goesOn := v.start ≠ none ∧ beat s < v.last + 1000
      ∃ t, exec (.vcoreDroop d mv) s = .next t
        ∧ OnlyField s t Reg.PWR_STAT Fld.PWR_STAT_DROOPS (satAdd Fld.PWR_STAT_DROOPS.w (fld s Reg.PWR_STAT Fld.PWR_STAT_DROOPS) 1)
        ∧ fld t Reg.PWR_DUTY ⟨35, 1⟩ = 1 ∧ (∀ e, dutyOf t e = dutyOf s e ∨ 4 ≤ e)
        ∧ SameRegsBut s t [Reg.PWR_STAT, Reg.PWR_DUTY] ∧ (∀ e, e ≠ d → getDroop t e = getDroop s e)
        ∧ (goesOn → getDroop t d = ⟨true, beat s, v.start, v.pauses + 1, min v.lowest mv⟩
          ∧ t = { s with regs := t.regs, pwr := t.pwr })
        ∧ (¬goesOn → getDroop t d = ⟨true, beat s, some (beat s), 1, mv⟩
          ∧ t = { s with regs := t.regs, pwr := t.pwr, recs := t.recs, recSeq := t.recSeq }
          ∧ ∃ r, t.recs = s.recs ++ [r] ∧ r.code = 0x0C01 ∧ r.sev = 1 ∧ r.obj = d ∧ r.d0 = mv ∧ r.d1 = setMv s)))
   ∧ ∀ (s : State) (d : Nat), (getDroop s d).paused = true →
     ∃ t, exec (.droopPauseEnd d) s = .next t ∧ getDroop t d = { getDroop s d with paused := false }
       ∧ (∀ e, e ≠ d → getDroop t e = getDroop s e) ∧ SameRegsBut s t [Reg.PWR_DUTY] ∧ t = { s with regs := t.regs, pwr := t.pwr })
  ∧
  ((∀ (s : State) (smp : TelemetrySample), sampleDue s = false → ∃ t, exec (.telemetrySample smp) s = .next t ∧ t = s)
   ∧ (∀ (s : State) (smp : TelemetrySample), s.keeper.held = false → s.keeper.restart = none → sampleDue s = true →
     (let target := (max 650 (min 850 ((fld s Reg.FEATURE_FUSES Fld.FEATURE_FUSES_V_BIN_MV : Int) + smp.tempTermMv
        + offsetMv s))).toNat
      ∃ t, exec (.telemetrySample smp) s = .next t
        ∧ fld t Reg.PWR_TEL Fld.PWR_TEL_VCORE_MV = min 1023 smp.vcoreMv ∧ fld t Reg.PWR_TEL Fld.PWR_TEL_VCORE_A = min 4095 smp.vcoreA
        ∧ fld t Reg.PWR_TEL Fld.PWR_TEL_VCORE_W = min 4095 smp.vcoreW ∧ fld t Reg.PWR_TEL Fld.PWR_TEL_PKG_W = min 4095 smp.pkgW
        ∧ fld t Reg.PWR_AVS Fld.PWR_AVS_TARGET_MV = target
        ∧ (avsHalted s = true → setMv t = setMv s)
        ∧ (avsHalted s = false → 3 ≤ smp.avsFails → avsHalted t = true ∧ setMv t = setMv s
          ∧ ∃ r, r ∈ t.recs ∧ r.code = 0x0C03 ∧ r.sev = 3 ∧ r.d0 = smp.avsCause)
        ∧ (avsHalted s = false → smp.avsFails < 3 → avsHalted t = false
          ∧ setMv t = (if setMv s < target then min target (setMv s + 10) else max target (setMv s - 10)))
        ∧ SameRegsBut s t [Reg.PWR_AVS, Reg.PWR_TEL, Reg.PWR_TEMP, Reg.PWR_RAIL, Reg.PWR_DUTY] ∧ SameBytes s t ∧ t.ctxs = s.ctxs))
   ∧ ∀ s : State,
     (avsHalted s = true →
       ∃ t, exec .pwrCmdAvsRetry s = .next t ∧ OnlyField s t Reg.PWR_AVS Fld.PWR_AVS_HALTED 0
         ∧ SameRegsBut s t [Reg.PWR_AVS, Reg.PWR_DUTY]
         ∧ t = { s with regs := t.regs, pwr := { s.pwr with floorAll := s.pwr.overVolt } })
     ∧ ∃ t, exec .pwrCmdSensorRetry s = .next t ∧ t = { s with pwr := { s.pwr with retest := true } })

/-- RAIL_OUT_OF_TOLERANCE and THERMTRIP (R487, R491): a rail outside its tolerance for 1,000 beats shows in PWR_RAIL and is
logged; a thermal trip stops every engine, every port and every laser and logs nothing. -/
def Obligations.RailsAndTrip : Prop :=
  (∀ (s : State) (rail mv since : Nat), 1 ≤ rail → rail ≤ 7 → since + 1000 ≤ beat s →
    ∃ t r, exec (.railOutOfTolerance rail mv since) s = .next t ∧ fld t Reg.PWR_RAIL ⟨rail, 1⟩ = 0
      ∧ fld t Reg.PWR_RAIL ⟨8 + rail, 1⟩ = 1 ∧ (∀ i, i ≠ rail → i ≠ 8 + rail →
        (rd t Reg.PWR_RAIL).getLsbD i = (rd s Reg.PWR_RAIL).getLsbD i)
      ∧ SameRegsBut s t [Reg.PWR_RAIL] ∧ t.recs = s.recs ++ [r] ∧ r.code = 0x0C01 ∧ r.sev = 1 ∧ r.obj = 8 + rail ∧ r.d0 = mv
      ∧ t = { s with regs := t.regs, recs := t.recs, recSeq := t.recSeq })
  ∧ ∀ (s : State) (d : Nat), d < 4 → s.pins.tripped = false →
    ∃ t, exec (.thermtrip d) s = .next t ∧ t.pins.tripped = true ∧ t.out.getLast? = some (.thermtripN true)
      ∧ t.recs = s.recs ∧ SameBytes s t ∧ (∀ x, (getCtx t x).st ≠ .running)
      ∧ (∀ k, k < 16 → portState t k = 0 ∨ portState t k = 3)
      ∧ ∀ e, e < 4 → fld t (Reg.FAB_ENG e) Fld.FAB_ENG_SRC_A = 0 ∧ fld t (Reg.FAB_ENG e) Fld.FAB_ENG_SRC_B = 0
          ∧ fld t (Reg.FAB_ENG e) Fld.FAB_ENG_SRC_C = 0

/-- WINDOW_OPEN (R407 to R409): at its boundary the head composes the next window of the sequences that are READY and admits it:
its rows take cells, and the window and its number are in flight. WINDOW_ITEM_ARRIVAL and WINDOW_CLOSE (R401, R404, R409 to
R411): another stage whose windows all still run admits a window that finds its cells and its models HOT, or keeps it waiting,
and passes it on unless it is the last; at its head a window whose output is back gives its cells back, and the token of a
sequence that emitted is written to its token buffer. -/
def Obligations.ServingWindows : Prop :=
  (∀ (s : State) (p x : Nat), servCtx s p = some x → mayOpen s x p = true →
     ∃ t rs d, exec (.windowOpen p) s = .next t ∧ rs.map (·.row) = windowRows (boundary s x p) x p
       ∧ (getServ t p).wins = (getServ s p).wins ++ [⟨(getServ s p).next, true, rs, beat s, d⟩]
       ∧ (getServ t p).next = (getServ s p).next + 1 ∧ (getServ t p).opens.head? = some (beat s)
       ∧ (∀ r, r ∈ rs → (getCell t r.cell).st = .serving ∧ (getCell t r.cell).part = p ∧ (getCell t r.cell).ctx = x)
       ∧ ((∃ m, m ∈ manModels s x ∧ 1 < m.devices) →
           Output.window p (getServ s p).next (windowRows (boundary s x p) x p) ∈ t.out)
       ∧ fld t (Reg.SRV_STAT p) Fld.SRV_STAT_WINDOWS
           = satAdd Fld.SRV_STAT_WINDOWS.w (fld s (Reg.SRV_STAT p) Fld.SRV_STAT_WINDOWS) 1)
  ∧
  ((∀ (s : State) (p x w : Nat) (rows : List BatchRow), servCtx s p = some x → (∀ r, r ∈ rows → headOf s x r.model = false) →
     (rows ≠ [] ∨ isHead s x = false) → (getServ s p).waiting = [] → (∀ q, q ∈ (getServ s p).wins → q.own = true ∨ q.done = false) →
     (∀ r v, r ∈ rows → getModel s r.model = some v → v.st = 2) →
     (rows.length ≤ (servCells s p).length →
       ∃ u rs d, exec (.windowItemArrival p w rows) s = .next (poolSync (stageGo x p 1 u) p) ∧ rs.map (·.row) = rows
         ∧ (getServ u p).waiting = []
         ∧ (getServ u p).wins = (getServ s p).wins ++ [⟨w, false, rs, beat s, d⟩]
         ∧ (∀ r, r ∈ rs → (getCell u r.cell).st = .serving)
         ∧ ((if rows = [] then ∀ m, m ∈ manModels s x → m.last = false else ∃ r, r ∈ rows ∧ lastOf s x r.model = false) →
             Output.window p w rows ∈ u.out))
     ∧ ((servCells s p).length < rows.length →
       ∃ t, exec (.windowItemArrival p w rows) s = .next t ∧ (getServ t p).waiting = [(w, rows)]
         ∧ (getServ t p).wins = (getServ s p).wins ∧ t.cells = s.cells ∧ SameBytes s t ∧ t.ctxs = s.ctxs))
   ∧ ∀ (s : State) (p x : Nat) (reports : List PageReport) (records : List OutRecord) (w : Win), servCtx s p = some x →
     ((getServ s p).wins.filter (·.own)).head? = some w → w.done = true → outputBack s x w records = true →
     (∃ t, exec (.windowClose p ⟨reports, records⟩) s = .next t
       ∧ (getServ t p).wins = (getServ s p).wins.filter (fun q => !q.own || q.num != w.num) ∧ (getServ t p).reports = reports
       ∧ (∀ r, r ∈ w.rows → getCell t r.cell = Cell.free)
       ∧ (getServ t p).granted = (getServ s p).granted.filter (fun g => decide (w.num < g.1)))
     ∧ ∀ (r : WinRow) (v : Stream) (o : OutRecord), w.rows = [r] → getStream s r.row.entry = some v → v.cancelled = false →
       r.row.emits = true → outOf s x 0 r.row.model records = some o →
       (lastOf s x r.row.model = true → poisoned s (servBase s x true) 16 = false) →
       (let n := r.row.first + r.row.tokens
        let tb := (handleOf s x 0 (v.tokbuf % 16384)).base + v.tokbuf / 16384 + 4 * n
        ∃ t v', exec (.windowClose p ⟨reports, records⟩) s = .next t ∧ getStream t r.row.entry = some v' ∧ v'.length = n
          ∧ v'.decLeft = v.decLeft - 1 ∧ v'.emitted = v.emitted + 1 ∧ v'.flying = false
          ∧ v'.st = (if o.last = true ∨ v.decLeft - 1 = 0 then 6 else 2)
          ∧ ∀ i, i < 4 → readByte t (tb + i) = (leBytes 4 o.token).getD i 0))

/-- MODEL_LOAD_COMPLETE and SRV_DEADLINE_MISS (R42, R403, R404, R414): a loaded model is HOT and its bytes stand in the hot
copy, unless an issued instruction refers to it; a missed deadline is counted and logged once per sequence. KPR_WATCHDOG and
KEEPER_RESTART_DONE (R420, R421): a first expiry restarts the Keeper; one within 1,000,000 beats of it holds the Keeper in
reset; the restart over, the expiry is logged, loads of models are given up and Swarm begins again from ELECT. -/
def Obligations.ModelsAndKeeper : Prop :=
  ((∀ (s : State) (m : Nat) (v : SModel), getModel s m = some v → v.st = 1 → s.keeper.held = false → MemoryOk s →
     (regionBusy s v.part v.backing v.bytes = true → ∃ t, exec (.modelLoadComplete m) s = .next t ∧ t = s)
     ∧ (regionBusy s v.part v.backing v.bytes = false →
       ∃ u, exec (.modelLoadComplete m) s = .next (match servCtx s v.part with
           | some x => runStage u x v.part
           | none => u)
         ∧ getModel u m = some { v with st := 2 }
         ∧ (∀ n, n ≠ m → getModel u n = getModel s n) ∧ (∀ i, i < v.bytes → readByte u (v.hot + i) = readByte s (v.backing + i))
         ∧ SameBytesOutside s u v.hot v.bytes
         ∧ OnlyField s u (Reg.SRV_MC v.part) Fld.SRV_MC_LOADS
             (satAdd Fld.SRV_MC_LOADS.w (fld s (Reg.SRV_MC v.part) Fld.SRV_MC_LOADS) 1)
         ∧ SameRegsBut s u [Reg.SRV_MC v.part]
         ∧ u = { s with mem := u.mem, poison := u.poison, ctxs := u.ctxs, models := u.models, regs := u.regs }))
   ∧ ∀ (s : State) (e : Nat) (v : Stream), getStream s e = some v → v.deadline ≠ 0 → v.deadline < beat s → v.missed = false →
     v.st ≠ 6 →
     ∃ t r, exec (.srvDeadlineMiss e) s = .next t ∧ getStream t e = some { v with missed := true }
       ∧ (∀ n, n ≠ e → getStream t n = getStream s n) ∧ t.recs = s.recs ++ [r] ∧ r.code = 0x0E01 ∧ r.sev = 0 ∧ r.obj = e
       ∧ r.d0 = v.request ∧ r.d1 = v.deadline
       ∧ OnlyField s t (Reg.SRV_DL v.part) Fld.SRV_DL_MISSES
           (satAdd Fld.SRV_DL_MISSES.w (fld s (Reg.SRV_DL v.part) Fld.SRV_DL_MISSES) 1)
       ∧ SameRegsBut s t [Reg.SRV_DL v.part]
       ∧ t = { s with streams := t.streams, regs := t.regs, recs := t.recs, recSeq := t.recSeq })
  ∧
  ((∀ (s : State) (pc act : Nat), s.keeper.held = false →
     (let n := satAdd Fld.KPR_WDOG_EXPIRIES.w (fld s Reg.KPR_WDOG Fld.KPR_WDOG_EXPIRIES) 1
      ((∀ b, s.keeper.expired = some b → b + 1000000 < beat s) →
        ∃ t, exec (.kprWatchdog pc act) s = .next t ∧ t.keeper = ⟨some (beat s), some (pc, act, beat s), false⟩
          ∧ OnlyField s t Reg.KPR_WDOG Fld.KPR_WDOG_EXPIRIES n ∧ SameRegsBut s t [Reg.KPR_WDOG]
          ∧ t = { s with keeper := t.keeper, regs := t.regs })
      ∧ ∀ b, s.keeper.expired = some b → beat s ≤ b + 1000000 →
        ∃ t r, exec (.kprWatchdog pc act) s = .next t ∧ t.keeper = { s.keeper with held := true, restart := none }
          ∧ t.recs = s.recs ++ [r] ∧ r.code = 0x1501 ∧ r.sev = 3 ∧ r.d0 = n ∧ r.d1 = pc
          ∧ OnlyField s t Reg.KPR_WDOG Fld.KPR_WDOG_EXPIRIES n ∧ SameRegsBut s t [Reg.KPR_WDOG]
          ∧ t = { s with keeper := t.keeper, regs := t.regs, recs := t.recs, recSeq := t.recSeq }))
   ∧ ∀ (s : State) (pc act b : Nat), s.keeper.restart = some (pc, act, b) → s.takeover = none →
     ∃ t r, exec .keeperRestartDone s = .next t ∧ t.keeper = { s.keeper with restart := none }
       ∧ t.recs = s.recs ++ [r] ∧ r.code = 0x1501 ∧ r.sev = 1 ∧ r.d0 = fld s Reg.KPR_WDOG Fld.KPR_WDOG_EXPIRIES ∧ r.d1 = pc
       ∧ r.d2 = act ∧ r.d3 = b ∧ fld t Reg.BOOT_CAUSE Fld.BOOT_CAUSE_KEEPER_RESTART = 1
       ∧ swarmPhase t = (if swarmPhase s ≠ 0 ∧ swarmPhase s ≠ 6 then 2 else swarmPhase s)
       ∧ (∀ m v, getModel t m = some v → v.st ≠ 1) ∧ SameRegsBut s t [Reg.BOOT_CAUSE, Reg.FAB_SWARM]
       ∧ t = { s with keeper := t.keeper, regs := t.regs, recs := t.recs, recSeq := t.recSeq, models := t.models })

/-- LOSS_NOTICE_ARRIVAL, CKP_CMD.DECLARE and CKP_CMD.TAKEOVER (R427, R430, R432): the notice goes onward, the job's training
contexts stop, and the agreement begins under AUTO or on the host's word; a declared rank is logged and made known.
TAKEOVER_AGREEMENT_RESULT (R324, R428): the lost ranks are agreed one by one, then the generation, then a drone for each rank;
the drone whose index is chosen leaves IDLE. Each result is counted; without a generation the takeover fails. -/
def Obligations.LossAndAgreement : Prop :=
  ((∀ (s : State) (x : Nat) (ranks : List Nat) (tk : Bool), (manOf s x).isSome = true →
     exec (.lossNoticeArrival x ranks tk) s = .next (lossHere (emit s (.lossNotice ranks tk)) ranks tk)
     ∧ ((∀ e, e ∈ s.grps → e.2.bulk = none ∧ e.2.wag = none ∧ e.2.aborting = none ∧ ∀ r, r ∈ ranks → r ∉ e.2.members) →
       (let old := getTakeover s
        let fresh := ranks.filter (fun r => !old.known.contains r)
        let named := ∃ r, r ∈ ownRanks s ∧ r ∈ ranks
        let begins := ¬named ∧ ((autoTakeover s = true ∧ (fresh ≠ [] ∨ old.agreeing = false)) ∨ tk = true ∨ (inTakeover s = true ∧ fresh ≠ []))
        ∃ t, exec (.lossNoticeArrival x ranks tk) s = .next t ∧ (getTakeover t).known = old.known ++ fresh
          ∧ (begins → (getTakeover t).agreeing = true ∧ (getTakeover t).agreed = [] ∧ (getTakeover t).kstar = none
            ∧ (getTakeover t).chosen = [] ∧ (getTakeover t).restored = []
            ∧ droneState t = (if droneState s = 1 then 0 else droneState s)
            ∧ t.out = s.out ++ [.lossNotice ranks tk, .agreement .lostRank (nextLost (getTakeover t))])
          ∧ (¬begins → (getTakeover t).agreeing = old.agreeing ∧ t.out = s.out ++ [.lossNotice ranks tk])
          ∧ (∀ y, (getCtx t y).st = (if y ∈ jobTraining s ∧ ((getCtx s y).st = .loaded ∨ (getCtx s y).st = .runnable
              ∨ (getCtx s y).st = .running) then .stopped else (getCtx s y).st))
          ∧ SameRegsBut s t (Reg.CKP_DRONE :: (List.range 8).map Reg.CKP_LAST)
          ∧ t = { s with ctxs := t.ctxs, slices := t.slices, train := t.train, takeover := t.takeover, regs := t.regs,
                         out := t.out, grps := t.grps, resume := t.resume })))
   ∧ (∀ (s : State) (p r x : Nat), x ∈ jobCtxs s → (getCtx s x).part = p → r < 16384 → r ∉ (getTakeover s).known →
     otherGroups s [r] = [] →
     ∃ u q, exec (.ckpCmdDeclare p r) s = .next (lossHere u [r] false) ∧ u.recs = s.recs ++ [q] ∧ q.code = 0x0604
       ∧ q.sev = 2 ∧ u.out = s.out ++ [.lossNotice [r] false] ∧ u = { s with recs := u.recs, recSeq := u.recSeq, out := u.out })
   ∧ ∀ (s : State) (p x : Nat), x ∈ jobCtxs s → (getCtx s x).part = p → fld s (Reg.CKP_PART p) Fld.CKP_PART_AUTO = 0 →
     (getTakeover s).known ≠ [] →
     ∃ u, exec (.ckpCmdTakeover p) s = .next (lossHere u (getTakeover s).known true)
       ∧ u = { s with out := s.out ++ [.lossNotice (getTakeover s).known true] })
  ∧
  (∀ (s : State) (x r : Nat) (t : Takeover), s.takeover = some t → t.agreeing = true → x ∈ jobCtxs s →
     (let counted (u : State) : Prop := OnlyField s u Reg.WGL_STAT Fld.WGL_STAT_REDUCTIONS
        (satAdd Fld.WGL_STAT_REDUCTIONS.w (fld s Reg.WGL_STAT Fld.WGL_STAT_REDUCTIONS) 1)
      (t.kstar = none →
        (r < 16384 →
          ∃ u t', exec (.takeoverAgreementResult x .lostRank r) s = .next u ∧ u.takeover = some t' ∧ t'.agreed = t.agreed ++ [r]
            ∧ r ∈ t'.known ∧ (∀ k, k ∈ t.known → k ∈ t'.known) ∧ u.out = s.out ++ [.agreement .lostRank (nextLost t')]
            ∧ counted u ∧ SameRegsBut s u [Reg.WGL_STAT] ∧ u = { s with takeover := u.takeover, out := u.out, regs := u.regs })
        ∧ (16384 ≤ r →
          ∃ u, exec (.takeoverAgreementResult x .lostRank r) s = .next u ∧ counted u ∧ SameRegsBut s u [Reg.WGL_STAT]
            ∧ u = { s with out := s.out ++ [.agreement .target (targetSay s)], regs := u.regs })
        ∧ (r ≠ 0 → (∀ a b, a ∈ t.agreed → buddyRank s a = some b → b ∉ t.agreed) →
          ∃ u, exec (.takeoverAgreementResult x .target r) s = .next u ∧ counted u ∧ SameRegsBut s u [Reg.WGL_STAT]
            ∧ u = { s with
                takeover := some { t with kstar := some r }, out := s.out ++ [.agreement .drone (droneSay s)], regs := u.regs })
        ∧ ((getCtx s x).part < 8 → ∃ u, exec (.takeoverAgreementResult x .target 0) s = .next u ∧ counted u
            ∧ u.takeover = some { t with kstar := none, agreeing := false, agreed := [], chosen := [] }
            ∧ (∃ q, q ∈ u.recs ∧ q.code = 0x1001 ∧ q.sev = 3 ∧ q.d0 = 4) ∧ SameBytes s u ∧ u.ctxs = s.ctxs))
      ∧ (t.kstar ≠ none → ∀ a more, unchosen t = a :: more → r < noSay →
        ∃ u, exec (.takeoverAgreementResult x .drone r) s = .next u
          ∧ u.takeover = some { t with chosen := t.chosen ++ [(a, r)] }
          ∧ droneState u = (if droneSay s = r then 1 else droneState s)
          ∧ u.out = (if more = [] then s.out else s.out ++ [.agreement .drone (droneSay u)]) ∧ counted u
          ∧ SameRegsBut s u [Reg.WGL_STAT, Reg.CKP_DRONE]
          ∧ u = { s with regs := u.regs, takeover := u.takeover, out := u.out })))

/-- CKP_DRONE_TAKEOVER and ROLLBACK_RESTORE (R294, R429 to R431): a drone that has loaded the slot and one told to have loaded
count; once all have, the rank tables name the drones, the groups take a new generation, and the drone here is ACTIVE and logs
the takeover. One that could not load is FAILED, and the choice is made again. A device whose own rank another takes stops. A
rollback puts back the checkpoint's STEP, CURSOR and bank, with ATTEMPT 0, and its contexts wait for the gather. -/
def Obligations.DronesAndRollback : Prop :=
  (∀ (s : State) (x rank oldA newA : Nat) (slot : List Byte) (mans : List (Nat × Manifest)) (args : List (Nat × List Word)),
    outcast s rank newA = true →
    ∃ u, exec (.ckpDroneTakeover x rank oldA newA slot ⟨mans, args, false⟩) s = .next u
      ∧ (∀ j, Sparse.get none u.ranks j = (if j = rank then some (newA % 16384) else Sparse.get none s.ranks j))
      ∧ (∀ y, (getCtx u y).st = (if y ∈ jobTraining s ∧ ((getCtx s y).st = .loaded ∨ (getCtx s y).st = .runnable
          ∨ (getCtx s y).st = .running) then .stopped else (getCtx s y).st))
      ∧ u = { s with ranks := u.ranks, pastAddrs := u.pastAddrs, ctxs := u.ctxs, slices := u.slices })
  ∧ (∀ (s : State) (x rank oldA newA i k : Nat) (slot : List Byte) (mans : List (Nat × Manifest)) (args : List (Nat × List Word))
      (t : Takeover), s.takeover = some t → t.chosen.find? (fun c => c.1 == rank) = some (rank, i) → t.kstar = some k →
    t.agreeing = true → x ∈ jobCtxs s → outcast s rank newA = false →
    (let here := fld s Reg.CKP_DRONE Fld.CKP_DRONE_ROLE = 1 ∧ fld s Reg.CKP_DRONE Fld.CKP_DRONE_INDEX = i ∧ droneState s = 1
     let run (failed : Bool) := exec (.ckpDroneTakeover x rank oldA newA slot ⟨mans, args, failed⟩) s
     let all (v : Takeover) : Prop := ∀ r, r ∈ v.agreed → r = rank ∨ ∃ e, e ∈ v.loaded ∧ e.1 = r
     (¬here → ¬all t →
       ∃ u, run false = .next u ∧ u = { s with
         takeover := some { t with loaded := t.loaded.filter (fun e => e.1 != rank) ++ [(rank, newA)] } })
     ∧ (¬here → all t → t.mine = none →
       ∃ u, run false = .next u ∧ Sparse.get none u.ranks rank = some (newA % 16384)
         ∧ (∀ j, j ≠ rank → (∀ e, e ∈ t.loaded → e.1 ≠ j) → Sparse.get none u.ranks j = Sparse.get none s.ranks j)
         ∧ u.takeover = some { t with agreeing := false, agreed := [], chosen := [], loaded := [], mine := none }
         ∧ (∀ g, (getGrp s g).valid = true → (getGrp s g).part ∈ jobParts s → (getGrp u g).gen = ((getGrp s g).gen + 1) % 65536)
         ∧ u = { s with ranks := u.ranks, pastAddrs := u.pastAddrs, takeover := u.takeover, grps := u.grps, trees := u.trees,
                        train := u.train })
     ∧ (¬here → ∃ u, run true = .next u
         ∧ u.takeover = some { t with failed := t.failed ++ [i], chosen := [], loaded := [], mine := none }
         ∧ droneState u = (if droneState s = 1 then 0 else droneState s)
         ∧ u.out = s.out ++ [.agreement .drone (droneSay u)] ∧ SameRegsBut s u [Reg.CKP_DRONE]
         ∧ u = { s with regs := u.regs, takeover := u.takeover, out := u.out })
     ∧ (here → s.keeper.held = false → t.mine = none →
       (∀ s' q, droneLoad s rank slot mans = (some s', q) → s'.takeover = some t → all t →
         ∃ u r, run false = .next u ∧ droneState u = 2
           ∧ fld u Reg.CKP_DRONE Fld.CKP_DRONE_TOOK = rank % 2 ^ 14 ∧ Sparse.get none u.ranks rank = some (newA % 16384)
           ∧ u.recs = s'.recs ++ [r] ∧ r.code = 0x1002 ∧ r.sev = 1 ∧ r.obj = rank ∧ r.d0 = i ∧ r.d1 = k
           ∧ fld u Reg.CKP_COUNT Fld.CKP_COUNT_TAKEOVERS
               = satAdd Fld.CKP_COUNT_TAKEOVERS.w (fld s' Reg.CKP_COUNT Fld.CKP_COUNT_TAKEOVERS) 1 ∧ SameBytes s' u)
       ∧ (∀ s' q, droneLoad s rank slot mans = (some s', q) → s'.takeover = some t → ¬all t →
         ∃ u d, run false = .next u ∧ (getTakeover u).mine = some d ∧ d.rank = rank ∧ d.index = i ∧ u.ranks = s'.ranks
           ∧ (getTakeover u).loaded = t.loaded.filter (fun e => e.1 != rank) ++ [(rank, newA)]
           ∧ u = { s' with ctxs := u.ctxs, takeover := u.takeover })
       ∧ ∀ s', droneLoad s rank slot mans = (none, s') →
         ∃ u, run false = .next u ∧ droneState u = 3
           ∧ (getTakeover u).failed = (getTakeover s').failed ++ [fld s' Reg.CKP_DRONE Fld.CKP_DRONE_INDEX]
           ∧ u.out = s'.out ++ [.agreement .drone (droneSay u)]
           ∧ SameRegsBut s' u [Reg.CKP_DRONE, Reg.CKP_LAST (leField slot 34 2 % 8)]
           ∧ u = { s' with regs := u.regs, out := u.out, takeover := u.takeover })))
  ∧ ∀ (s : State) (p k : Nat) (t : Takeover), s.takeover = some t → t.kstar = some k → t.agreeing = false → t.agreed = [] →
    p ∈ jobParts s → p ∉ t.restored → s.keeper.held = false →
    (let a := ownSlot s p k
     ∃ u, exec (.rollbackRestore p) s = .next (resumeGather u p) ∧ stepNo u p = slotFld s a 8 8 % 2 ^ 48 ∧ attemptNo u p = 0
       ∧ bankOf u p = 0 ∧ fld u (Reg.BRD_CURSOR p) Fld.BRD_CURSOR_CURSOR = slotFld s a 16 8 % 2 ^ 64
       ∧ fld u (Reg.CKP_LAST p) Fld.CKP_LAST_PHASE = 4 ∧ fld u (Reg.CKP_STAT p) Fld.CKP_STAT_DONE = k % 2 ^ 32
       ∧ (getCkpt u p).gen = k ∧ (getCkpt u p).own = k ∧ (getCkpt u p).acked = k
       ∧ ∃ l, Sparse.get none u.resume p = some ⟨l, true, none, false⟩
         ∧ ∀ e, e ∈ l → e.1 ∈ jobTraining s ∧ (getCtx s e.1).part = p ∧ (getCtx s e.1).launched = true
             ∧ (getCtx s e.1).st ≠ .faulted ∧ e.2 = (getCtx s e.1).launchArgs)

/-- REGISTER_WRITE (R451, R495, R497): every bit of a register's fields is as its access type gives it under the mask; no other
register changes, and beside them only what a count's threshold logs (R84, R157) and the lines that the comb store may no longer
hold (R146). Reserved space takes no write, nor does a counter of a core that is RETIRED or SPARE (R507); clearing
EXC_SITE.VALID clears the site whole (R85). Reserved space (R497): it reads zero and takes no write; REG_WR accepts an entry
there whatever its VALUE, and refuses one that sets a bit in a reserved field of a register; a configuration object that
addresses either is rejected. -/
def Obligations.RegisterWrites : Prop :=
  ((∀ (s : State) (a : Nat) (d : RegDef) (m v : Word), regDefAt a = some d → plainReg a → idleCounter s a = false →
     FieldsApart d ∧
     ∃ t, exec (.registerWrite a m v) s = .next t ∧ SameRegsBut s t [a]
       ∧ (∀ f, f ∈ d.fields → ∀ i, f.lo ≤ i → i < f.lo + f.w →
           (rd t a).getLsbD i = writtenBit f (regsLocked s) ((rd s a).getLsbD i) (m.getLsbD i) (v.getLsbD i))
       ∧ t = { s with regs := t.regs, thrLogged := t.thrLogged, recs := t.recs, recSeq := t.recSeq, comb := t.comb }
       ∧ (a ≠ Reg.MEM_ECC_CORR → (∀ c, c < 72 → a ≠ Reg.BLOCK_LOSS c ∧ a ≠ Reg.SAT_COUNT c) → t.recs = s.recs ∧ t.thrLogged = s.thrLogged)
       ∧ (a / 0x1000 ≠ 0x15 → a / 0x1000 ≠ 0x16 → t.comb = s.comb))
   ∧ (∀ (s : State) (a : Nat) (m v : Word), regDefAt a = none ∨ idleCounter s a = true → exec (.registerWrite a m v) s = .next s)
   ∧ ∀ (s : State) (c : Nat) (m v : Word), c < 72 → m.getLsbD 63 = true → v.getLsbD 63 = true →
     ∃ t, exec (.registerWrite (Reg.EXC_SITE c) m v) s = .next t ∧ rd t (Reg.EXC_SITE c) = 0 ∧ rd t (Reg.EXC_SITE_PC c) = 0
       ∧ SameRegsBut s t [Reg.EXC_SITE c, Reg.EXC_SITE_PC c] ∧ t = { s with regs := t.regs })
  ∧
  ((∀ (s : State) (a : Nat) (m v : Word), regDefAt a = none →
     readReg s a = 0 ∧ writeReg s a m v = s
     ∧ (a % 8 = 0 → windowBase + a < windowEnd →
       entryStatus ⟨windowBase + a, m, v⟩ = none ∧ entryFault ⟨windowBase + a, m, v⟩ = some 4))
   ∧ ∀ (a i : Nat) (d : RegDef) (f : FieldDef) (m v : Word), regDefAt a = some d → f ∈ d.fields → f.reserved = true → f.lo ≤ i →
     i < f.lo + f.w → v.getLsbD i = true → a % 8 = 0 → windowBase + a < windowEnd →
     entryStatus ⟨windowBase + a, m, v⟩ = some 4 ∧ entryFault ⟨windowBase + a, m, v⟩ ≠ none)

/-- SELECTOR_WRITE and ERR_LOG_RD_WRITE (R498, R505): a selector takes the value and the words of the object selected stand in
the registers behind it; the read pointer advances to a value between itself and the write pointer and to no other.
ERROR_RECORD_ARRIVAL (R435 to R437, R504, R505): the oldest record generated makes its class sticky and is counted by severity;
it is suppressed, or dropped by a full log, or stored in the next slot; a class that the mask names goes to the host. -/
def Obligations.SelectorsAndErrorLog : Prop :=
  ((∀ (s : State) (v : Word) (e : Nat × Fld × Nat × List Word), e ∈ shownBy s v →
     ∃ t, exec (.selectorWrite e.1 v) s = .next t ∧ fld t e.1 e.2.1 = getF e.2.1 v
       ∧ (∀ i, i < e.2.2.2.length → rd t (e.2.2.1 + 8 * i) = e.2.2.2.getD i 0)
       ∧ (e.1 ≠ Reg.CDC_FIFO_SEL → SameRegsBut s t (e.1 :: (List.range e.2.2.2.length).map (fun i => e.2.2.1 + 8 * i)))
       ∧ (e.1 = Reg.CDC_FIFO_SEL → SameRegsBut s t [e.1, Reg.CDC_FIFO])
       ∧ t = { s with regs := t.regs, free := t.free })
   ∧ (∀ (s : State) (v : Word),
     (∃ t, exec (.selectorWrite Reg.FAB_RT_SEL v) s = .next t ∧ rd t Reg.FAB_RT = routeWord (routeTo s (getF Fld.FAB_RT_SEL_DEST v)))
     ∧ (∃ t, exec (.selectorWrite Reg.FAB_RANK_SEL v) s = .next t
       ∧ rd t Reg.FAB_RANK = rankWord (Sparse.get none s.ranks (getF Fld.FAB_RANK_SEL_RANK v)))
     ∧ (∃ t, exec (.selectorWrite Reg.ERR_REC_SEL v) s = .next t ∧ ∀ i, i < 8 →
       rd t (Reg.ERR_REC i) = (errWords (Sparse.get none s.log (getF Fld.ERR_REC_SEL_SLOT v))).getD i 0)
     ∧ ∀ a, a ∉ selectors → exec (.selectorWrite a v) s = .next s)
   ∧ ∀ (s : State) (v : Nat),
     (let n := fld s Reg.ERR_LOG_WR Fld.ERR_LOG_WR_COUNT
      let o := fld s Reg.ERR_LOG_RD Fld.ERR_LOG_RD_COUNT
      let ok := (n + 2 ^ 32 - v % 2 ^ 32) % 2 ^ 32 ≤ (n + 2 ^ 32 - o) % 2 ^ 32
      ∃ t, exec (.errLogRdWrite v) s = .next t ∧ (ok → OnlyField s t Reg.ERR_LOG_RD Fld.ERR_LOG_RD_COUNT (v % 2 ^ 32))
        ∧ (¬ok → t.regs = s.regs) ∧ SameRegsBut s t [Reg.ERR_LOG_RD] ∧ t = { s with regs := t.regs, pins := t.pins, out := t.out }))
  ∧
  (∀ (s : State) (r : ErrRec) (rs : List ErrRec), s.recs = r :: rs →
     (let c := r.code / 256 % 32
      let lim := fld s Reg.ERR_RATE Fld.ERR_RATE_LIMIT
      let cut := lim ≠ 0 ∧ r.sev ≠ 3 ∧ lim ≤ loggedInBlock s r
      let n := fld s Reg.ERR_LOG_WR Fld.ERR_LOG_WR_COUNT
      let wants := (fld s Reg.ERR_HOST_MASK ⟨0, 22⟩).testBit (r.code / 256) = true
      let sev : Fld := ⟨16 * (r.sev % 4), 16⟩
      ∃ t, exec .errorRecordArrival s = .next t
        ∧ (1 ≤ c → c ≤ 21 → fld t Reg.ERR_STICKY ⟨c, 1⟩ = 1)
        ∧ (r.sev = 3 → fld t Reg.ERR_STICKY Fld.ERR_STICKY_FATAL = 1)
        ∧ fld t Reg.ERR_SEV_CNT sev = satAdd 16 (fld s Reg.ERR_SEV_CNT sev) 1
        ∧ (cut → t.log = s.log ∧ t.hostQ = s.hostQ ∧ t.recs = rs
          ∧ fld t Reg.ERR_SUPPRESSED Fld.ERR_SUPPRESSED_COUNT
              = satAdd Fld.ERR_SUPPRESSED_COUNT.w (fld s Reg.ERR_SUPPRESSED Fld.ERR_SUPPRESSED_COUNT) 1
          ∧ SameRegsBut s t [Reg.ERR_STICKY, Reg.ERR_SEV_CNT, Reg.ERR_SUPPRESSED])
        ∧ (¬cut → (¬wants ∨ (s.hostQ.filter (fun q => !q.isGap)).length < 4095) →
          (logFull s = true → t.log = s.log
            ∧ fld t Reg.ERR_LOST Fld.ERR_LOST_COUNT = satAdd Fld.ERR_LOST_COUNT.w (fld s Reg.ERR_LOST Fld.ERR_LOST_COUNT) 1
            ∧ SameRegsBut s t [Reg.ERR_STICKY, Reg.ERR_SEV_CNT, Reg.ERR_LOST])
          ∧ (logFull s = false → Sparse.get none t.log (n % 4096) = some r
            ∧ (∀ k, k ≠ n % 4096 → Sparse.get none t.log k = Sparse.get none s.log k)
            ∧ fld t Reg.ERR_LOG_WR Fld.ERR_LOG_WR_COUNT = (n + 1) % 2 ^ 32
            ∧ SameRegsBut s t [Reg.ERR_STICKY, Reg.ERR_SEV_CNT, Reg.ERR_LOG_WR])
          ∧ t.hostQ = s.hostQ ++ (if wants then [⟨.record r, false, [], []⟩] else [])
          ∧ t = { s with recs := rs, regs := t.regs, log := t.log, logRate := t.logRate, hostQ := t.hostQ, pins := t.pins,
                         out := t.out })))

/-- ETH_LINK_DOWN, ETH_MODE_TIMEOUT, ETH_LINK_UP, ETH_FALLBACK_400G, ETH_CMD_RETRAIN and ETH_SEC_ENABLE_WRITE (R442, R444, R470,
R471): a port whose active lanes lose lock, or whose FEC fails, goes down, is logged and trains from 800GBASE-DR8, and no other
report takes it down; the modes are tried in turn; the port comes up in the one that trains; a retrain leaves the fallback;
MACsec follows its enable. ETH_FRAME_RECEIVE (R441, R443, R444): with the port UP, a frame that MACsec does not admit, or that
uses what the port does not support, is dropped and counted; ARP, NDP and echo requests for the device's own addresses are
answered; an address of its own that another device advertises is no longer used; a Yalerern message is taken; an admitted
packet number is kept. -/
def Obligations.HostPort : Prop :=
  ((∀ (s : State) (cause lanes words : Nat), ethUp s = true → ¬(cause = 1 ∧ lanes &&& activeLanes s ≠ 0 ∨ cause = 2 ∧ 16 < words) →
     exec (.ethLinkDown cause ⟨lanes, words⟩) s = .next s)
   ∧ (∀ (s : State) (cause lanes words : Nat), ethUp s = true → (cause = 1 ∧ lanes &&& activeLanes s ≠ 0 ∨ cause = 2 ∧ 16 < words) →
     ∃ t r, exec (.ethLinkDown cause ⟨lanes, words⟩) s = .next t ∧ ethState t = 1
       ∧ t.eth = { s.eth with mode := 0, lostAt := beat s, failed := lanes % 256, probed := [], dups := [] } ∧ t.recs = s.recs ++ [r] ∧ r.code = 0x0A01
       ∧ r.sev = 2 ∧ r.d0 = cause ∧ r.d1 = lanes % 256 ∧ r.d2 = beat s - s.eth.upAt
       ∧ (∀ k, k < 8 → (fld t Reg.ETH_STATUS Fld.ETH_STATUS_LANES_OK).testBit k
           = ((fld s Reg.ETH_STATUS Fld.ETH_STATUS_LANES_OK).testBit k && !(cause == 1 && lanes.testBit k)))
       ∧ OnlyField s t Reg.ETH_CNT Fld.ETH_CNT_LINK_DOWNS
           (satAdd Fld.ETH_CNT_LINK_DOWNS.w (fld s Reg.ETH_CNT Fld.ETH_CNT_LINK_DOWNS) 1)
       ∧ SameRegsBut s t [Reg.ETH_CNT, Reg.ETH_STATUS] ∧ t = { s with eth := t.eth, regs := t.regs, recs := t.recs, recSeq := t.recSeq })
   ∧ (∀ s : State, ethState s = 1 →
     exec .ethModeTimeout s = .next { s with eth := { s.eth with mode := (s.eth.mode + 1) % 3 } })
   ∧ (∀ s : State, ethState s = 1 → s.eth.mode = 0 →
     ∃ t, exec .ethLinkUp s = .next t ∧ ethState t = 2 ∧ fld t Reg.ETH_STATUS Fld.ETH_STATUS_LANES_OK = 255
       ∧ t.eth = { s.eth with upAt := beat s } ∧ bootPhase t = (if bootPhase s = 1 then 2 else bootPhase s)
       ∧ SameRegsBut s t [Reg.ETH_STATUS, Reg.BOOT_STATUS, Reg.CDC_STAT]
       ∧ (bootPhase s ≠ 1 → t = { s with eth := t.eth, regs := t.regs }))
   ∧ (∀ (s : State) (g lanes : Nat), ethState s = 1 → g < 2 → s.eth.mode = g + 1 → bootPhase s ≠ 1 →
     ∃ t r, exec (.ethFallback400g g lanes) s = .next t ∧ ethState t = 3 ∧ fld t Reg.ETH_STATUS Fld.ETH_STATUS_GROUP = g
       ∧ fld t Reg.ETH_STATUS Fld.ETH_STATUS_LANES_OK = 15 * 16 ^ g ∧ t.recs = s.recs ++ [r] ∧ r.code = 0x0A02 ∧ r.sev = 1
       ∧ r.obj = g ∧ r.d0 = lanes % 256 ∧ r.d1 = beat s - s.eth.lostAt
       ∧ OnlyField s t Reg.ETH_CNT Fld.ETH_CNT_FALLBACKS
           (satAdd Fld.ETH_CNT_FALLBACKS.w (fld s Reg.ETH_CNT Fld.ETH_CNT_FALLBACKS) 1)
       ∧ SameRegsBut s t [Reg.ETH_CNT, Reg.ETH_STATUS] ∧ t = { s with eth := t.eth, regs := t.regs, recs := t.recs, recSeq := t.recSeq })
   ∧ (∀ s : State, ethState s = 3 →
     ∃ t, exec .ethCmdRetrain s = .next t ∧ OnlyField s t Reg.ETH_STATUS Fld.ETH_STATUS_STATE 1 ∧ SameRegsBut s t [Reg.ETH_STATUS]
       ∧ t.eth = { s.eth with mode := 0, lostAt := beat s, probed := [], dups := [] } ∧ t = { s with eth := t.eth, regs := t.regs })
   ∧ ∀ (s : State) (on : Bool),
     ∃ t, exec (.ethSecEnableWrite on) s = .next t ∧ OnlyField s t Reg.ETH_SEC Fld.ETH_SEC_EN (bnat on)
       ∧ OnlyField s t Reg.ETH_STATUS Fld.ETH_STATUS_SEC_ACTIVE (bnat on) ∧ SameRegsBut s t [Reg.ETH_SEC, Reg.ETH_STATUS]
       ∧ t = { s with regs := t.regs })
  ∧
  (∀ (s : State) (f : EthFrame), ethUp s = true →
     (secOn s = true → secAdmits s f = false →
       ∃ t, exec (.ethFrameReceive f) s = .next t ∧ OnlyField s t Reg.ETH_SECCNT Fld.ETH_SECCNT_DROPPED
           (satAdd Fld.ETH_SECCNT_DROPPED.w (fld s Reg.ETH_SECCNT Fld.ETH_SECCNT_DROPPED) 1)
         ∧ SameRegsBut s t [Reg.ETH_SECCNT] ∧ t = { s with regs := t.regs })
     ∧ (secOn s = false → frameFits s f = false →
       ∃ t, exec (.ethFrameReceive f) s = .next t ∧ OnlyField s t Reg.ETH_CNT Fld.ETH_CNT_DROPPED
           (satAdd Fld.ETH_CNT_DROPPED.w (fld s Reg.ETH_CNT Fld.ETH_CNT_DROPPED) 1)
         ∧ SameRegsBut s t [Reg.ETH_CNT] ∧ t = { s with regs := t.regs })
     ∧ (secOn s = false → frameFits s f = true →
       (∀ d p m, f.body = .udp d p m → p = fld s Reg.YLP_CTL Fld.YLP_CTL_PORT ∧ (ownIp s d = true ∨ d = allNodes)
         ∧ exec (.ethFrameReceive f) s = .next (receiveMsg s (some false) m)
         ∧ (m.session ≠ noSession → exec (.ethFrameReceive f) s = exec (.ylpMessageReceive m) s))
       ∧ (∀ a, f.body = .arp a →
           exec (.ethFrameReceive f) s = .next (if a ∈ own4 s then { s with out := s.out ++ [.answered false] } else s))
       ∧ (∀ a, f.body = .solicit a →
           exec (.ethFrameReceive f) s = .next (if a ∈ own6 s then { s with out := s.out ++ [.answered false] } else s))
       ∧ (∀ a, f.body = .advert a →
           exec (.ethFrameReceive f) s = .next (if a ∈ own6 s then { s with eth := { s.eth with dups := a :: s.eth.dups } } else s))
       ∧ (∀ a, f.body = .echo a →
           ownIp s a = true ∧ exec (.ethFrameReceive f) s = .next { s with out := s.out ++ [.answered true] })
       ∧ (∀ d, f.body = .ptp d → exec (.ethFrameReceive f) s = .next s))
     ∧ ∀ tag d, secOn s = true → secAdmits s f = true → f.sec = some tag → frameFits s f = true → f.body = .ptp d →
       tag.octet < 128 ∧ tagAn tag < 2 ∧ rxPn s (tagAn tag) < tag.pn + fld s Reg.ETH_SEC Fld.ETH_SEC_REPLAY ∧ secVerifies s f tag = true
       ∧ ∃ t, exec (.ethFrameReceive f) s = .next t ∧ rxPn t (tagAn tag) = max tag.pn (rxPn s (tagAn tag))
         ∧ (∀ k, k ≠ tagAn tag → rxPn t k = rxPn s k) ∧ t.eth = { s.eth with rxPn := t.eth.rxPn } ∧ t = { s with eth := t.eth })

/-- YLP_MESSAGE_RECEIVE (R445 to R449): a message that fails its check is dropped and counted; one of an unknown session is
answered BAD_SESSION, a bare acknowledgement not at all; acknowledgement and credit are taken; a duplicate is acknowledged and
not delivered again; one that leaves a gap is not delivered; a part that more follow is acknowledged; the next request in order
is executed once, and its answer is the request's. -/
def Obligations.SessionMessages : Prop :=
  ∀ (s : State) (m : YlpMsg), ethUp s = true →
    (wellFormed m = false →
      ∃ t, exec (.ylpMessageReceive m) s = .next t ∧ OnlyField s t Reg.YLP_STAT2 Fld.YLP_STAT2_BAD
          (satAdd Fld.YLP_STAT2_BAD.w (fld s Reg.YLP_STAT2 Fld.YLP_STAT2_BAD) 1)
        ∧ SameRegsBut s t [Reg.YLP_STAT2] ∧ t = { s with regs := t.regs })
    ∧ (wellFormed m = true → m.session ≠ noSession → getSess s m.session = none →
      (ackOnly m = true → exec (.ylpMessageReceive m) s = .next s)
      ∧ (ackOnly m = false → secOn s = false →
        exec (.ylpMessageReceive m) s = .next { s with out := s.out ++ [bare s m.op m.tag 2 []] }))
    ∧ ∀ v, wellFormed m = true → m.session ≠ noSession → getSess s m.session = some v → v.addr = m.addr → v.port = m.port →
      (∀ w, w ∈ v.unacked → w.sent = true) → s.hostQ = [] →
      (let a := max v.ack (min m.ack v.tx)
       let v' := { v with ack := a, credit := m.credit, heard := beat s, unacked := v.unacked.filter (fun w => decide (a < w.seq)) }
       (ackOnly m = true →
         ∃ t, exec (.ylpMessageReceive m) s = .next t ∧ getSess t m.session = some v'
           ∧ (∀ n, n ≠ m.session → getSess t n = getSess s n) ∧ t = { s with sessions := t.sessions })
       ∧ (ackOnly m = false → m.seq ≤ v.rx → v'.unacked = [] → secOn s = false →
         ∃ t, exec (.ylpMessageReceive m) s = .next t ∧ getSess t m.session = some v' ∧ t.out = s.out ++ [ackOut s m.session v v.rx]
           ∧ (∀ n, n ≠ m.session → getSess t n = getSess s n) ∧ t = { s with sessions := t.sessions, out := t.out })
       ∧ (ackOnly m = false → v.rx + 1 < m.seq →
         ∃ t, exec (.ylpMessageReceive m) s = .next t ∧ getSess t m.session = some v'
           ∧ (∀ n, n ≠ m.session → getSess t n = getSess s n) ∧ t = { s with sessions := t.sessions })
       ∧ (ackOnly m = false → m.seq = v.rx + 1 → sessBusy s m.session = false →
         ∃ u, getSess u m.session = some { v' with rx := m.seq } ∧ (∀ n, n ≠ m.session → getSess u n = getSess s n)
           ∧ u = { s with sessions := u.sessions }
           ∧ ((more m = true ∨ isReq m = false) → secOn s = false →
             exec (.ylpMessageReceive m) s = .next { u with out := s.out ++ [ackOut s m.session v m.seq] })
           ∧ (more m = false → isReq m = true →
             (m.req = none → exec (.ylpMessageReceive m) s = .next (answer u m.session m.op m.tag ⟨3, [], []⟩))
             ∧ ((m.req = some .discover ∨ ∃ b c d, m.req = some (.openSess b c d)) →
               exec (.ylpMessageReceive m) s = .next (answer u m.session m.op m.tag ⟨4, [], []⟩))
             ∧ ∀ q, m.req = some q → q ≠ .discover → (∀ b c d, q ≠ .openSess b c d) →
               exec (.ylpMessageReceive m) s = .next (settle m.session m.op m.tag (hostExec u m.session m.tag q)))))

/-- OPEN, CLOSE, HELLO, DISCOVER and EVENT (R447, R450, R458, R459): a session takes the lowest free number and is announced, or
OPEN is answered BUSY or DENIED; a closed session is free; the device is announced; the queue's entries go to a subscribed
session. YLP_RETRANSMIT_TIMEOUT and YLP_IDLE_TIMEOUT (R448, R470): a message whose interval is over is sent again with the
interval doubled, until the retries are used up; a session lost, by that or by silence, is counted, logged and freed. -/
def Obligations.SessionsOpenCloseAndTimeOut : Prop :=
  ((∀ (s : State) (addr port tag : Nat) (sec : Bool), ethUp s = true → secOn s = false →
     (let room := if booted s then 256 else 1
      let need := flg s Reg.YLP_CTL Fld.YLP_CTL_REQUIRE_SEC
      (need = true → sec = false →
        exec (.openSess addr port sec tag) s = .next { s with out := s.out ++ [bare s 0x03 tag 10 []] })
      ∧ ((need = false ∨ sec = true) → (∀ n, n < room → (getSess s n).isSome = true) →
        exec (.openSess addr port sec tag) s = .next { s with out := s.out ++ [bare s 0x03 tag 1 []] })
      ∧ ∀ n, (need = false ∨ sec = true) → n < room → getSess s n = none → (∀ k, k < n → (getSess s k).isSome = true) →
        ∃ t, exec (.openSess addr port sec tag) s = .next t ∧ t.out = s.out ++ [bare s 0x03 tag 0 [BitVec.ofNat 64 n]]
          ∧ (∃ v, getSess t n = some v ∧ v.addr = addr ∧ v.port = port ∧ v.events = false ∧ v.rx = 0 ∧ v.tx = 0 ∧ v.unacked = [])
          ∧ (∀ k, k ≠ n → getSess t k = getSess s k)
          ∧ bootPhase t = (if n = 0 ∧ bootPhase s = 2 then 3 else bootPhase s)
          ∧ fld t Reg.YLP_STAT Fld.YLP_STAT_OPENED = satAdd Fld.YLP_STAT_OPENED.w (fld s Reg.YLP_STAT Fld.YLP_STAT_OPENED) 1
          ∧ SameRegsBut s t [Reg.YLP_STAT, Reg.BOOT_STATUS, Reg.CDC_STAT]))
   ∧ (∀ (s : State) (n tag : Nat), Asked s n → n < 256 →
     ∃ t, exec (.closeSess n tag) s = .next t ∧ getSess t n = none ∧ (∀ k, k ≠ n → getSess t k = getSess s k)
       ∧ (∀ e, e ∈ t.hostQ → n ∉ e.awaits) ∧ (∀ w, w ∈ t.waitLoads → w.1 ≠ n))
   ∧ (∀ (s : State) (tag : Nat), ethUp s = true → secOn s = false →
     exec (.discover tag) s = .next { s with out := s.out ++ [helloOut s (some tag)] }
     ∧ (bootPhase s = 2 → openSessions s = [] → (∀ b, s.eth.helloAt = some b → b + 1000000 ≤ beat s) →
       exec .hello s = .next { s with eth := { s.eth with helloAt := some (beat s) }
                                      out := s.out ++ [helloOut s none] })
     ∧ (∀ b, s.eth.helloAt = some b → beat s < b + 1000000 → exec .hello s = .next s))
   ∧ ∀ (s : State),
     (subscribers s = [] → exec .event s = .next s)
     ∧ ∀ n v, subscribers s = [n] → getSess s n = some v → dueEvents s n ≠ [] → ethUp s = true → secOn s = false →
       (let es := (dueEvents s n).map (·.ev)
        let seq := v.tx + partsOf s v (.events es)
        seq ≤ v.ack + v.credit →
        ∃ t, exec .event s = .next t ∧ t.out = s.out ++ [.message (headsOf s n v.addr (.events es) seq v.rx) (.events es)]
          ∧ (∃ m, getSess t n = some { v with tx := seq, unacked := v.unacked ++ [m] } ∧ m.seq = seq ∧ m.body = .events es)
          ∧ dueEvents t n = ((s.hostQ.filter (fun e => !e.sent.any (fun v => v.1 == n))).drop 64).take 64
          ∧ t.hostQ.map (·.ev) = s.hostQ.map (·.ev) ∧ (∀ k, k ≠ n → getSess t k = getSess s k)
          ∧ t = { s with hostQ := t.hostQ, sessions := t.sessions, out := t.out }))
  ∧
  (∀ (s : State) (n : Nat) (v : Sess), n < 256 → getSess s n = some v →
     (∀ seq m, v.unacked.find? (fun m => m.seq == seq && m.sent && decide (m.at_ + m.interval ≤ beat s)) = some m →
       (m.tries < max 1 (fld s Reg.YLP_CTL Fld.YLP_CTL_RETRIES) → ethUp s = true → secOn s = false →
         (let m' := { m with at_ := beat s, tries := m.tries + 1, interval := 2 * m.interval }
          ∃ t, exec (.ylpRetransmitTimeout n seq) s = .next t ∧ t.out = s.out ++ [.message (headsOf s n v.addr m.body m.seq v.rx) m.body]
            ∧ getSess t n = some { v with unacked := v.unacked.map (fun w => if w.seq = seq then m' else w) }
            ∧ (∀ k, k ≠ n → getSess t k = getSess s k)
            ∧ OnlyField s t Reg.YLP_STAT2 Fld.YLP_STAT2_RETX
                (satAdd Fld.YLP_STAT2_RETX.w (fld s Reg.YLP_STAT2 Fld.YLP_STAT2_RETX) 1)
            ∧ SameRegsBut s t [Reg.YLP_STAT2] ∧ t = { s with sessions := t.sessions, regs := t.regs, out := t.out }))
       ∧ (max 1 (fld s Reg.YLP_CTL Fld.YLP_CTL_RETRIES) ≤ m.tries →
         ∃ t r, exec (.ylpRetransmitTimeout n seq) s = .next t ∧ getSess t n = none ∧ (∀ k, k ≠ n → getSess t k = getSess s k)
           ∧ t.recs = s.recs ++ [r] ∧ r.code = 0x0A03 ∧ r.sev = 2 ∧ r.obj = n ∧ r.d0 = 1 ∧ r.d3 = v.ack
           ∧ OnlyField s t Reg.YLP_STAT Fld.YLP_STAT_LOST
               (satAdd Fld.YLP_STAT_LOST.w (fld s Reg.YLP_STAT Fld.YLP_STAT_LOST) 1)
           ∧ SameRegsBut s t [Reg.YLP_STAT] ∧ SameBytes s t))
     ∧ (v.heard + max 1 (fld s Reg.YLP_IDLE Fld.YLP_IDLE_BEATS) ≤ beat s →
       ∃ t r, exec (.ylpIdleTimeout n) s = .next t ∧ getSess t n = none ∧ (∀ k, k ≠ n → getSess t k = getSess s k)
         ∧ t.recs = s.recs ++ [r] ∧ r.code = 0x0A03 ∧ r.obj = n ∧ r.d0 = 2 ∧ r.d3 = v.ack
         ∧ (∀ e x, e ∈ t.streams → e.2 = some x → x.sess ≠ n) ∧ SameRegsBut s t [Reg.YLP_STAT] ∧ SameBytes s t)
     ∧ (beat s < v.heard + max 1 (fld s Reg.YLP_IDLE Fld.YLP_IDLE_BEATS) → exec (.ylpIdleTimeout n) s = .next s))

/-- Every request of a session (R445 to R450, R513): nothing comes while the port is down; one of an unknown session is answered
BAD_SESSION; before BOOT_GO has succeeded the boot ROM answers the firmware's operations UNKNOWN_OP and CFG_APPLY and CTX_LOAD
DENIED. A request shows that the host is there. An answer leaves as a message that is kept until acknowledged, if the host's
credit allows, in parts under one TAG that the next SEQs number, MORE set in all but the last. -/
def Obligations.RequestsAndAnswers : Prop :=
  (∀ (s : State) (i : Instr) (n tag : Nat), requestOf i = some (n, tag) →
    (ethUp s = false → exec i s = .next s)
    ∧ (ethUp s = true → getSess s n = none → exec i s = .next (answer s noSession (opOf i) tag ⟨2, [], []⟩))
    ∧ (Asked s n → booted s = false → firmwareOnly i → exec i s = .next (served s n (opOf i) tag ⟨3, [], []⟩))
    ∧ (Asked s n → booted s = false → i = .cfgApply n tag → exec i s = .next (served s n 0x32 tag ⟨10, [], []⟩)))
  ∧ ∀ (s : State) (n op tag : Nat) (a : Answer) (v : Sess), n ≠ noSession → getSess s n = some v → ethUp s = true → secOn s = false →
    (let b := TxBody.reply op tag a.status a.words a.bytes
     let seq := v.tx + partsOf s v b
     let t := served s n op tag a
     let heads := headsOf s n v.addr b seq v.rx
     (∃ m, getSess t n = some { v with heard := beat s, tx := seq, unacked := v.unacked ++ [m] } ∧ m.seq = seq ∧ m.body = b)
     ∧ (∀ k, k ≠ n → getSess t k = getSess s k)
     ∧ t = { s with sessions := t.sessions, out := s.out ++ (if seq ≤ v.ack + v.credit then [.message heads b] else []) }
     ∧ heads.length = partsOf s v b ∧ (heads.map (·.len)).sum = 8 * a.words.length + a.bytes.length
     ∧ ∀ i h, heads[i]? = some h → h.op = op ∧ h.session = n ∧ h.status = a.status ∧ h.seq = v.tx + 1 + i ∧ h.ack = v.rx ∧ h.tag = tag
       ∧ h.credit ≤ 1024 ∧ h.len ≤ maxLen s v.addr ∧ h.flags = if i + 1 < partsOf s v b then 4 else 0)

/-- REG_RD, REG_WR, MEM_RD, MEM_WR and UPLOAD (R417, R446, R450 to R452): registers are read and written in order, all or none,
the pools' free pages counted as they are read; device memory within the length of a message is read and written, poison and
bounds answered; an upload's part joins its object. -/
def Obligations.WindowRequests : Prop :=
  (∀ (s : State) (n tag : Nat) (l : List Nat), Asked s n → l ≠ [] → l.length ≤ 64 →
    ((∀ a, a ∈ l → windowBase ≤ a ∧ a < windowEnd ∧ a % 8 = 0) →
      (booted s = true ∨ ∀ a, a ∈ l → (a - windowBase) / 0x1000 < 3) →
      ∃ u, exec (.regRd n tag l) s = .next (served u n 0x10 tag ⟨0, l.map (fun a => readReg u (a - windowBase)), []⟩)
        ∧ SameRegsBut s u ((List.range 8).map Reg.SRV_POOL) ∧ u = { s with regs := u.regs }
        ∧ ((∀ p, p < 8 → windowBase + Reg.SRV_POOL p ∉ l) → u = s)
        ∧ (∀ p, p < 8 → windowBase + Reg.SRV_POOL p ∈ l →
          fld u (Reg.SRV_POOL p) Fld.SRV_POOL_HBM_FREE = min (2 ^ 24 - 1) (freeFrames s p false)
            ∧ fld u (Reg.SRV_POOL p) Fld.SRV_POOL_L2_FREE = min (2 ^ 24 - 1) (freeFrames s p true)))
    ∧ ((∃ a, a ∈ l ∧ ¬(windowBase ≤ a ∧ a < windowEnd ∧ a % 8 = 0)) →
      exec (.regRd n tag l) s = .next (served s n 0x10 tag ⟨5, [], []⟩)))
  ∧ (∀ (s : State) (n tag : Nat) (l : List RegEntry), Asked s n → booted s = true → l ≠ [] → l.length ≤ 64 →
    ((∀ e, e ∈ l → entryStatus e = none) →
      ∃ u, exec (.regWr n tag l) s = .next (served u n 0x11 tag ⟨0, [], []⟩)
        ∧ u = l.foldl (fun s e => writeReg s (e.addr - windowBase) e.mask e.value) s)
    ∧ ∀ st, l.findSome? entryStatus = some st → exec (.regWr n tag l) s = .next (served s n 0x11 tag ⟨st, [], []⟩))
  ∧ (∀ (s : State) (n tag a len : Nat), Asked s n → booted s = true → 1 ≤ len → len ≤ windowLen s n →
    ((firstBad s none a len).isSome = true → exec (.memRd n tag a len []) s = .next (served s n 0x20 tag ⟨5, [], []⟩))
    ∧ (firstBad s none a len = none →
      (poisoned s a len = true →
        ∃ u, exec (.memRd n tag a len []) s = .next (served u n 0x20 tag ⟨6, [], []⟩) ∧ u = { s with regs := u.regs, free := u.free, comb := u.comb })
      ∧ (poisoned s a len = false →
        ∃ u bs, exec (.memRd n tag a len []) s = .next (served u n 0x20 tag ⟨0, [], bs⟩) ∧ bs.length = len
          ∧ (∀ i, i < len → bs.getD i 0 = readByte s (a + i))
          ∧ u = { s with regs := u.regs, free := u.free, comb := u.comb })))
  ∧ (∀ (s : State) (n tag a : Nat) (d : List Byte), Asked s n → booted s = true → d ≠ [] → d.length ≤ windowLen s n →
    firstBad s none a d.length = none →
    ∃ u, exec (.memWr n tag a d []) s = .next (served u n 0x21 tag ⟨0, [], []⟩) ∧ (∀ i, i < d.length → readByte u (a + i) = d.getD i 0)
      ∧ SameBytesOutside s u a d.length ∧ u = { s with mem := u.mem, poison := u.poison, regs := u.regs, free := u.free, comb := u.comb })
  ∧ ∀ (s : State) (n tag kind index offset : Nat) (d : List Byte), Asked s n → (kind = 1 ∨ (kind = 2 ∧ booted s = true)) →
    index ≤ 8 → offset + d.length ≤ 33554432 →
    (let k := if kind = 1 then 0 else index
     ∃ u, exec (.upload n tag kind index offset d) s = .next (served u n 0x30 tag ⟨0, [], []⟩) ∧ u = { s with uploads := u.uploads }
       ∧ ((∀ e, e ∈ s.uploads → ¬(e.kind = kind ∧ e.index = k)) → u.uploads = s.uploads ++ [⟨kind, k, [(offset, d)]⟩])
       ∧ ((∃ e, e ∈ s.uploads ∧ e.kind = kind ∧ e.index = k) →
         u.uploads = s.uploads.map (fun e => if e.kind = kind ∧ e.index = k then { e with parts := e.parts ++ [(offset, d)] } else e)))

/-- CFG_APPLY (R55 to R57, R513): refused by phase, residents and the Keeper before any check; an accepted set shows its digest,
its validity and PHASE 0x08; a rejected one changes no register but BOOT_STATUS, which says why. CFG_APPLY below PHASE 0x07 and
in PHASE 0x09, and CTX_LOAD below PHASE 0x08 (R513): DENIED, with no register changed. -/
def Obligations.ConfigurationSets : Prop :=
  (∀ (s : State) (n tag : Nat), Asked s n → booted s = true →
     (let objs := cfgObjects s
      let ok := (bootPhase s = 7 ∨ bootPhase s = 8) ∧ residents s = [] ∧ s.keeper.held = false
      (¬ok → exec (.cfgApply n tag) s = .next (served s n 0x32 tag ⟨10, [], []⟩))
      ∧ (ok → ∀ f, cfgFault s objs = some f →
        ∃ u, exec (.cfgApply n tag) s = .next (served u n 0x32 tag ⟨7, [], []⟩)
          ∧ fld u Reg.BOOT_STATUS Fld.BOOT_STATUS_FAULT = 2 ∧ fld u Reg.BOOT_STATUS Fld.BOOT_STATUS_CFG_REASON = f.1 % 16
          ∧ fld u Reg.BOOT_STATUS Fld.BOOT_STATUS_OBJECT = f.2.1 % 16
          ∧ fld u Reg.BOOT_STATUS Fld.BOOT_STATUS_ENTRY = f.2.2 % 65536
          ∧ bootPhase u = bootPhase s ∧ SameRegsBut s u [Reg.BOOT_STATUS]
          ∧ u = { s with regs := u.regs, uploads := s.uploads.filter (fun o => o.kind != 2) })
      ∧ (ok → cfgFault s objs = none →
        ∃ u, exec (.cfgApply n tag) s = .next (served u n 0x32 tag ⟨0, [], []⟩) ∧ bootPhase u = 8
          ∧ fld u Reg.BOOT_STATUS Fld.BOOT_STATUS_CFG_VALID = 1 ∧ u.cfgSet = objs.flatMap (·.2)
          ∧ (∀ i, i < 6 → rd u (Reg.CFG_DIGEST i) = (sha384 (objs.flatMap (·.2))).extractLsb' (64 * i) 64)
          ∧ fld u Reg.OVERLAY_LIST Fld.OVERLAY_LIST_COUNT = (objs.filter (fun o => o.1 != 0)).length % 16
          ∧ u.uploads = s.uploads.filter (fun o => o.kind != 2) ∧ SameBytes s u ∧ u.ctxs = s.ctxs)))
  ∧
  (∀ (s : State) (n tag : Nat), Asked s n →
     ((bootPhase s < 7 ∨ bootPhase s = 9) → exec (.cfgApply n tag) s = .next (served s n 0x32 tag ⟨10, [], []⟩))
     ∧ ∀ (x a len : Nat) (bad : Option (Nat × Nat)) (man : Manifest), x < 64 → bootPhase s < 8 →
       exec (.ctxLoad n tag x a len bad man) s = .next (served s n 0x40 tag ⟨10, [], []⟩))

/-- CTX_LOAD, CTX_UNLOAD and CTX_HANDLES (R29, R39, R117, R128, R222, R260, R279, R453): a manifest that fits and that the
placer accepts makes its context LOADED with its flags clear; one that the placer refuses is answered with its record; an
unloaded slot is FREE, its cells free and its rings CLOSED; the handle table is shown. -/
def Obligations.ContextLoading : Prop :=
  (∀ (s : State) (n tag x a len : Nat) (man : Manifest), Asked s n → booted s = true → x < 64 → (getCtx s x).st = .free →
    8 ≤ bootPhase s → s.keeper.held = false → firstBad s none a len = none → poisoned s a len = false →
    manifestFault s (readBytes s a len) (dequeFault (readBytes s a len) man) = none → man.ranks = none →
    (let bs := readBytes s a len
     let p := leField bs 12 2
     clocksDown s p = false →
     (∀ e, judgeLoad s x p len man = .error e →
       ∃ u bs' r, exec (.ctxLoad n tag x a len none man) s = .next (served u n 0x40 tag ⟨7, [], bs'⟩) ∧ u.recs = s.recs ++ [r]
         ∧ bs' = errBytes r ∧ r.code = 0x1202 ∧ r.sev = 2 ∧ r.obj = x ∧ r.d0 = e.d0 ∧ r.d1 = e.d1 ∧ r.d2 = e.d2
         ∧ r.part = some p ∧ r.ctx = some x ∧ u = { s with recs := u.recs, recSeq := u.recSeq, free := u.free })
     ∧ ∀ v, judgeLoad s x p len man = .ok v →
       ∃ u, exec (.ctxLoad n tag x a len none man) s = .next (served u n 0x40 tag ⟨0, [], []⟩)
         ∧ (getCtx u x).st = .loaded ∧ (getCtx u x).part = p ∧ (getCtx u x).man = some man ∧ (getCtx u x).image = bs
         ∧ (∀ y, y ≠ x → getCtx u y = getCtx s y) ∧ flg u Reg.PLC_STATUS Fld.PLC_STATUS_LOCKED = true
         ∧ (∀ f, f ∈ man.flags → f.barrier = false → getFlag u f.index = FlagSt.off)
         ∧ bootPhase u = (if bootPhase s = 8 then 9 else bootPhase s) ∧ SameBytes s u))
  ∧ (∀ (s : State) (n tag x : Nat), Asked s n → booted s = true → x < 64 → s.keeper.held = false →
    ((getCtx s x).st = .faulted ∨ (getCtx s x).st = .stopped) →
    ∃ u, exec (.ctxUnload n tag x) s = .next (served u n 0x44 tag ⟨0, [], []⟩) ∧ getCtx u x = Ctx.free
      ∧ (∀ y, y ≠ x → getCtx u y = getCtx s y) ∧ (∀ c, c ∈ cellsHeld s x → getCell u c = Cell.free)
      ∧ (∀ r, r ∈ ringsOfSlot s x → (getRing u r.1).st = 2 ∧ (getRing u r.1).ops = [])
      ∧ (residents u = [] → flg u Reg.PLC_STATUS Fld.PLC_STATUS_LOCKED = false)
      ∧ SameBytes s u)
  ∧ ∀ (s : State) (n tag x first count : Nat), Asked s n → booted s = true → x < 64 → (getCtx s x).st ≠ .free → 1 ≤ count → count ≤ 128 →
    first + count ≤ 16384 →
    ∃ ws, exec (.ctxHandles n tag x first count) s = .next (served s n 0x47 tag ⟨0, ws, []⟩) ∧ ws.length = 2 * count
      ∧ ∀ i, i < count → ws.getD (2 * i) 0 = (handleOf s x 0 (first + i)).w0 ∧ ws.getD (2 * i + 1) 0 = (handleOf s x 0 (first + i)).w1

/-- CTX_LAUNCH, CTX_STOP, CTX_RESUME, CTX_SAVE and CTX_RESTORE (R29, R453, R517): a LOADED context becomes RUNNABLE with its
launch tasks spawned; a stop and a resume go back where the context was; a save writes an image of a stopped context that a
restore of the same manifest under the same firmware puts back. -/
def Obligations.ContextRuns : Prop :=
  (∀ (s : State) (n tag x : Nat) (args : List Word), Asked s n → booted s = true → x < 64 → args.length = 8 →
    (getCtx s x).st = .loaded → Sparse.get none s.resume (getCtx s x).part = none → training s (getCtx s x).part = false →
    ∃ u, exec (.ctxLaunch n tag x args) s = .next (served u n 0x41 tag ⟨0, [], []⟩) ∧ u = launchTasks s x args
      ∧ (getCtx u x).st = .runnable ∧ (getCtx u x).launchArgs = args ∧ (getCtx u x).launched = true
      ∧ (∀ y, y ≠ x → getCtx u y = getCtx s y)
      ∧ ∀ man e, (getCtx s x).man = some man → man.launch = [e] → (getCore s x (homeOf s x e.2).1).held = [] →
        dequeRoom s x (homeOf s x e.2).1 = true →
        (getCore u x (homeOf s x e.2).1).deque
          = ⟨e.1, args, e.2, (homeOf s x e.2).1, (homeOf s x e.2).2, .plain, .none⟩ :: (getCore s x (homeOf s x e.2).1).deque)
  ∧ (∀ (s : State) (n tag x : Nat), Asked s n → booted s = true → x < 64 →
    (((getCtx s x).st = .loaded ∨ (getCtx s x).st = .runnable ∨ (getCtx s x).st = .running) →
      ∃ u, exec (.ctxStop n tag x) s = .next (served u n 0x42 tag ⟨0, [], []⟩)
        ∧ getCtx u x = { getCtx s x with st := .stopped, fromLoaded := decide ((getCtx s x).st = .loaded) }
        ∧ (∀ y, y ≠ x → getCtx u y = getCtx s y) ∧ u = { s with ctxs := u.ctxs, slices := u.slices })
    ∧ ((getCtx s x).st = .stopped →
      ∃ u, exec (.ctxResume n tag x) s = .next (served u n 0x43 tag ⟨0, [], []⟩)
        ∧ getCtx u x = { getCtx s x with st := if (getCtx s x).fromLoaded then .loaded else .runnable }
        ∧ (∀ y, y ≠ x → getCtx u y = getCtx s y) ∧ u = { s with ctxs := u.ctxs })
    ∧ ((getCtx s x).st ≠ .stopped → exec (.ctxResume n tag x) s = .next (served s n 0x43 tag ⟨10, [], []⟩)))
  ∧ (∀ (s : State) (n tag x a len : Nat), Asked s n → booted s = true → x < 64 → (getCtx s x).st = .stopped → cellsHeld s x = [] →
    collecting s x = false →
    exec (.ctxSave n tag x a 0) s = .next (served s n 0x45 tag ⟨0, [BitVec.ofNat 64 (imageLen s x)], []⟩)
    ∧ (0 < len → imageLen s x ≤ len → firstBad s none a (imageLen s x) = none →
      ∃ u bs, exec (.ctxSave n tag x a len) s = .next (served u n 0x45 tag ⟨0, [], []⟩) ∧ bs.length = imageLen s x
        ∧ u.saved = s.saved ++ [imageOf s x bs] ∧ (∀ i, i < imageLen s x → readByte u (a + i) = bs.getD i 0)
        ∧ SameBytesOutside s u a (imageLen s x)
        ∧ u = { s with saved := u.saved, mem := u.mem, poison := u.poison, free := u.free }))
  ∧ ∀ (s : State) (n tag x a len : Nat) (v : Saved), Asked s n → booted s = true → x < 64 → (getCtx s x).st = .loaded →
    firstBad s none a len = none → poisoned s a len = false → s.saved = [v] → v.bytes.length ≤ len →
    v.bytes = readBytes s a v.bytes.length →
    ((v.manifest = sha384 (getCtx s x).image ∧ v.firmware = digestBytes s Reg.FW_DIGEST) →
      ∃ u, exec (.ctxRestore n tag x a len) s = .next (served u n 0x46 tag ⟨0, [], []⟩)
        ∧ getCtx u x = { getCtx s x with st := .stopped, fromLoaded := v.fromLoaded, cores := v.cores, sent := v.sent, launched := true }
        ∧ (∀ y, y ≠ x → getCtx u y = getCtx s y) ∧ (∀ f w, v.flags = [(f, w)] → getFlag u f = w)
        ∧ u = { s with ctxs := u.ctxs, flags := u.flags, bars := u.bars, rings := u.rings })
    ∧ (v.firmware ≠ digestBytes s Reg.FW_DIGEST → exec (.ctxRestore n tag x a len) s = .next (served s n 0x46 tag ⟨10, [], []⟩))

/-- DOORBELL, RING_SEND, EVENTS and INPUT (R261, R273, R454, R457, R458): a doorbell sets the flag that a name maps to; a
message is presented to a ring and its refusal told; a session subscribes; a part of an input item is kept, or told stale or not
yet. JOIN, CANCEL and MODEL (R401, R403, R405, R406, R415): an accepted sequence takes the partition's lowest free stream entry;
a cancelled one finishes at once, or after its row is back; models are registered in a free id, pinned, and unregistered. -/
def Obligations.SignalsInputAndServing : Prop :=
  ((∀ (s : State) (n tag x name : Nat), Asked s n → booted s = true → x < 64 → name < 65536 → (getCtx s x).st ≠ .free →
     (let e := flagEntry s x name
      let b := entryIndex e
      ((entryValid e = false ∨ entryBarrier e = true) →
        exec (.doorbell n tag x name) s = .next (served s n 0x50 tag ⟨11, [BitVec.ofNat 64 noHandler], []⟩))
      ∧ (entryValid e = true → entryBarrier e = false → (getFlag s b).value = false → liveWaits s (waitsOn b false) = [] →
        liveWaits s (waitsOn b true) = [] →
        ∃ u, exec (.doorbell n tag x name) s = .next (served u n 0x50 tag ⟨0, [], []⟩)
          ∧ OnlyFlag s u b { getFlag s b with value := true } ∧ u = { s with flags := u.flags })))
   ∧ (∀ (s : State) (n tag ring ep : Nat) (bs : List Byte), Asked s n → booted s = true → ring < 32768 → ep < 65536 →
     bs.length % 32 = 0 → 0 < bs.length → bs.length ≤ 512 →
     (let m := hostMsg s ring ep bs
      let r := judgeMsg s (getRing s ring) m
      m.srcCtx = 0x3F ∧ m.epoch = ep ∧ m.slots = bs.length / 32 ∧ m.seq = (s.ringSends + 1) % 2 ^ 32
      ∧ (r ≠ 0 →
        ∃ u, exec (.ringSend n tag ring ep bs) s = .next (served u n 0x51 tag ⟨11, [BitVec.ofNat 64 r], []⟩)
          ∧ u = { s with ringSends := m.seq, regs := u.regs })
      ∧ (∀ b, r = 0 → msgBad s (getRing s ring) m = some b →
        ∃ u, exec (.ringSend n tag ring ep bs) s = .next (served u n 0x51 tag ⟨11, [6], []⟩)
          ∧ u = { refuseAccess { s with ringSends := m.seq } (getRing s ring).ctx b with regs := u.regs })
      ∧ (r = 0 → msgBad s (getRing s ring) m = none →
        ∃ u, exec (.ringSend n tag ring ep bs) s = .next (served u n 0x51 tag ⟨0, [], []⟩)
          ∧ u = (ringArrive { s with ringSends := m.seq } ring m true).1 ∧ u.ringSends = m.seq)))
   ∧ (∀ (s : State) (n tag : Nat) (v : Sess), Asked s n → getSess s n = some v →
     (∃ u, exec (.events n tag true) s = .next (served u n 0x60 tag ⟨0, [], []⟩) ∧ getSess u n = some { v with events := true }
       ∧ (∀ k, k ≠ n → getSess u k = getSess s k) ∧ u = { s with sessions := u.sessions })
     ∧ ∃ u, exec (.events n tag false) s = .next (served u n 0x60 tag ⟨0, [], []⟩) ∧ getSess u n = some { v with events := false }
       ∧ (∀ k, k ≠ n → getSess u k = getSess s k) ∧ (∀ e, e ∈ u.hostQ → n ∉ e.awaits)
       ∧ u = { s with sessions := u.sessions, hostQ := u.hostQ })
   ∧ ∀ (s : State) (n tag p cur off total x : Nat) (d : List Byte) (g : ManStage) (w : ManVStage) (ws : List ManVStage),
     Asked s n → booted s = true → p < 8 → stageOf s p = some (x, g) → g.pos = 0 → g.vstages = w :: ws → total ≤ w.inFwd.slotBytes →
     off + d.length ≤ total →
     (let t := getTrain s p
      let room := t.cursor + inputRoom s p g w
      (cur < t.cursor → exec (.input n tag p cur off total d) s = .next (served s n 0x70 tag ⟨8, [], []⟩))
      ∧ (t.cursor ≤ cur → room ≤ cur → exec (.input n tag p cur off total d) s = .next (served s n 0x70 tag ⟨9, [], []⟩))
      ∧ (t.cursor < cur → cur < room → (∀ i, i ∈ t.inputs → i.cursor ≠ cur ∧ i.cursor ≠ t.cursor) →
        ∃ u, exec (.input n tag p cur off total d) s = .next (served (checkExhausted u p) n 0x70 tag ⟨0, [], []⟩)
          ∧ (getTrain u p).inputs = t.inputs ++ [⟨cur, total, [(off, d)]⟩] ∧ (getTrain u p).cursor = t.cursor
          ∧ u = { s with train := u.train })))
  ∧
  ((∀ (s : State) (n tag x e : Nat) (j : JoinReq), Asked s n → booted s = true → j.part < 8 → j.model < 256 → j.cls < 8 → j.priority < 16 →
     j.request < 2 ^ 64 → j.seed < 2 ^ 64 → servCtx s j.part = some x →
     (∀ r, joinRefused s x j = some r → exec (.join n tag j) s = .next (served s n 0x80 tag ⟨12, [BitVec.ofNat 64 r], []⟩))
     ∧ (joinRefused s x j = none → (entriesOf s j.part).find? (fun e => (getStream s e).isNone) = some e →
       ∃ u v, exec (.join n tag j) s = .next (served u n 0x80 tag ⟨0, [BitVec.ofNat 64 e], []⟩) ∧ getStream u e = some v
         ∧ v.st = 1 ∧ v.part = j.part ∧ v.model = j.model ∧ v.cls = j.cls ∧ v.request = j.request ∧ v.prompt = j.prompt
         ∧ v.decLeft = j.newTokens ∧ v.seed = j.seed ∧ v.sess = n ∧ v.length = 0
         ∧ (∀ k, k ≠ e → getStream u k = getStream s k) ∧ u = { s with streams := u.streams }))
   ∧ (∀ (s : State) (n tag req e : Nat) (v : Stream), Asked s n → booted s = true → s.streams = [(e, some v)] →
     (v.request = req → v.st ≠ 6 → v.cancelled = false →
       ∃ u, exec (.cancel n tag req) s = .next (served u n 0x81 tag ⟨0, [], []⟩)
         ∧ getStream u e = some { v with st := 6, cancelled := v.flying } ∧ u = { s with streams := u.streams })
     ∧ (v.request ≠ req → exec (.cancel n tag req) s = .next (served s n 0x81 tag ⟨10, [], []⟩)))
   ∧ ∀ (s : State) (n tag id : Nat), Asked s n → booted s = true →
     (∀ p a bytes layers pin, id < 256 → p < 8 → bytes < 2 ^ 40 → layers < 256 → getModel s id = none → training s p = false → l2Base ≤ a →
       a + bytes ≤ l2End → firstBad s (some p) a bytes = none →
       ∃ u, exec (.model n tag (.register id p a bytes layers pin)) s = .next (served u n 0x83 tag ⟨0, [], []⟩)
         ∧ getModel u id = some ⟨p, layers, bytes, a, pin, 0, 0, 0⟩ ∧ (∀ k, k ≠ id → getModel u k = getModel s k)
         ∧ u = { s with models := u.models })
     ∧ (∀ v on, getModel s id = some v →
       ∃ u, exec (.model n tag (.pin id on)) s = .next (served u n 0x83 tag ⟨0, [], []⟩) ∧ getModel u id = some { v with pinned := on }
         ∧ (∀ k, k ≠ id → getModel u k = getModel s k) ∧ u = { s with models := u.models })
     ∧ (∀ v, getModel s id = some v → modelFlying s v.part id = false → (∀ e, e ∈ streamsOf s v.part → e.2.model ≠ id) →
       regionBusy s v.part v.hot v.bytes = false →
       ∃ u, exec (.model n tag (.unregister id)) s = .next (served u n 0x83 tag ⟨0, [], []⟩) ∧ getModel u id = none
         ∧ ∀ k, k ≠ id → getModel u k = getModel s k)
     ∧ (getModel s id = none → exec (.model n tag (.unregister id)) s = .next (served s n 0x83 tag ⟨10, [], []⟩)))

/-- BOOT_GO, I3C_BOOT_GO and IMAGE_VERIFICATION_DONE (R459 to R461, R465, R467, R512): verification starts in its phase alone;
an image that passes every check is locked and measured, and the firmware starts; one that fails is discarded and its first
record told. -/
def Obligations.ImageVerification : Prop :=
  (∀ (s : State) (n tag : Nat), Asked s n →
    (bootPhase s = 3 →
      ∃ u, exec (.bootGo n tag) s = .next u ∧ u.prp = { s.prp with verifying := some (some (n, tag)), challenge := false }
        ∧ bootPhase u = 4 ∧ (∀ i, i < 6 → rd u (Reg.PRP_NONCE i) = 0) ∧ u.uploads = s.uploads)
    ∧ (bootPhase s ≠ 3 → exec (.bootGo n tag) s = .next (served s n 0x31 tag ⟨10, [], []⟩)))
  ∧ (∀ s : State, recovering s = true →
    ∃ u, exec .i3cBootGo s = .next u ∧ u.prp = { s.prp with verifying := some none, challenge := false } ∧ bootPhase u = 4)
  ∧ ∀ (s : State) (who : Option (Nat × Nat)), s.prp.verifying = some who →
    (let b := stagedImage s
     let digest := sha384 (imgSigned b)
     let told (u : State) (a : Answer) : State := match who with
       | some (n, tag) => answer u n 0x31 tag a
       | none => u
     (verifyImage s b = [] →
       ∃ u, exec .imageVerificationDone s = .next (told u ⟨0, [], []⟩) ∧ booted u = true ∧ bootPhase u = 5
         ∧ fld u Reg.PRP_STATUS Fld.PRP_STATUS_LOCKED = 1 ∧ fld u Reg.PRP_STATUS Fld.PRP_STATUS_SVN_IMAGE = imgSvn b % 128
         ∧ u.prp.image = b ∧ u.prp.verifying = none ∧ u.prp.bootNonce = Config.random384 s.free
         ∧ u.prp.measure = measureOf s digest (imgSvn b) ∧ u.prp.aliasKey = aliasFor u.prp.measure u.prp.bootNonce
         ∧ (∀ i, i < 6 → rd u (Reg.FW_DIGEST i) = digest.extractLsb' (64 * i) 64) ∧ (∀ o, o ∈ u.uploads → o.kind ≠ 1)
         ∧ ((s.hostQ.filter (fun q => !q.isGap)).length < 4095 → u.recs = s.recs) ∧ SameBytes s u)
     ∧ ∀ r rs, verifyImage s b = r :: rs →
       ∃ u bs, exec .imageVerificationDone s = .next (told u ⟨7, [], bs⟩) ∧ booted u = booted s
         ∧ bootPhase u = (if bootMode s = 1 then 10 else 3) ∧ fld u Reg.BOOT_STATUS Fld.BOOT_STATUS_FAULT = 1
         ∧ u.prp = { s.prp with verifying := none } ∧ (∀ o, o ∈ u.uploads → o.kind ≠ 1)
         ∧ ((s.hostQ.filter (fun q => !q.isGap)).length < 4095 → u.recs.length = s.recs.length + (r :: rs).length)
         ∧ u.recs[s.recs.length]? = some { r with seq := s.recSeq, beat := beat s }
         ∧ bs = errBytes { r with seq := s.recSeq, beat := beat s } ∧ SameBytes s u)

/-- PRP_CMD_REVOKE, PRP_CMD_SVN_COMMIT, PRP_CMD_DEBUG_CHALLENGE, PRP_CMD_DEBUG_RESPONSE (R463 to R466): a doubly signed
statement blows one slot's fuse, never the last; the running image's version is committed; a challenge gives a nonce that one
valid response, and any response at all, uses up. ATTEST and KEY_INSTALL (R444, R467, R468): the report shows the nonce, the
digests and versions, and ends with the alias key's signature and both certificates; a key that unwraps is installed for its
association and direction, from its first packet number. What verification reports, check by check (R461, R462, R464): the
format, the security version against the fuses, the slots with their keys and signatures, the body's digest. -/
def Obligations.TrustCommands : Prop :=
  ((∀ (s : State) (n tag k e l : Nat) (lms : Bool) (sigE sigL : List Byte), Asked s n → k < 8 → e < 8 → l < 8 →
     (let signed := dualSigned s (revokeMsg s lms k) e l sigE sigL
      let own := if lms then l else e
      ((own = k ∨ signed = false ∨ slotsLeft s lms = [k]) →
        exec (.prpRevoke n tag lms k e l sigE sigL) s = .next (served s n 0xA0 tag ⟨10, [], []⟩))
      ∧ (own ≠ k → signed = true → slotsLeft s lms ≠ [k] →
        ∃ u, exec (.prpRevoke n tag lms k e l sigE sigL) s = .next (served u n 0xA0 tag ⟨0, [], []⟩)
          ∧ u.prp = (if lms then { s.prp with lmsRev := s.prp.lmsRev ||| 2 ^ k } else { s.prp with ecdsaRev := s.prp.ecdsaRev ||| 2 ^ k })
          ∧ slotRevoked u lms k = true ∧ (∀ j, j ≠ k → slotRevoked u lms j = slotRevoked s lms j)
          ∧ SameRegsBut s u [Reg.PRP_STATUS] ∧ u = { s with prp := u.prp, regs := u.regs })))
   ∧ (∀ (s : State) (n tag : Nat), Asked s n →
     (booted s = true →
       ∃ u, exec (.prpSvnCommit n tag) s = .next (served u n 0xA0 tag ⟨0, [], []⟩)
         ∧ u.prp = { s.prp with svn := max s.prp.svn (fld s Reg.PRP_STATUS Fld.PRP_STATUS_SVN_IMAGE) }
         ∧ fld u Reg.PRP_STATUS Fld.PRP_STATUS_SVN_FUSED = u.prp.svn % 128
         ∧ SameRegsBut s u [Reg.PRP_STATUS] ∧ u = { s with prp := u.prp, regs := u.regs })
     ∧ (booted s = false → exec (.prpSvnCommit n tag) s = .next (served s n 0xA0 tag ⟨10, [], []⟩)))
   ∧ ∀ (s : State) (n tag : Nat), Asked s n →
     (debugOpen s = true →
       ∃ u, exec (.prpDebugChallenge n tag) s = .next (served u n 0xA0 tag ⟨0, [], prpNonce u⟩) ∧ u.prp = { s.prp with challenge := true }
         ∧ (∀ i, i < 6 → rd u (Reg.PRP_NONCE i) = (Config.random384 s.free).extractLsb' (64 * i) 64)
         ∧ u = { s with prp := u.prp, regs := u.regs, free := s.free + 1 })
     ∧ (debugOpen s = false → exec (.prpDebugChallenge n tag) s = .next (served s n 0xA0 tag ⟨10, [], []⟩))
     ∧ ∀ (scope e l : Nat) (sigE sigL : List Byte), scope < 8 → e < 8 → l < 8 →
       (let ok := debugOpen s = true ∧ s.prp.challenge = true
          ∧ dualSigned s (uidBytes s ++ prpNonce s ++ leBytes 1 scope) e l sigE sigL = true
        ∃ u, exec (.prpDebugResponse n tag scope e l sigE sigL) s = .next (served u n 0xA0 tag ⟨if ok then 0 else 10, [], []⟩)
          ∧ u.prp = { s.prp with challenge := false } ∧ (∀ i, i < 6 → rd u (Reg.PRP_NONCE i) = 0)
          ∧ (ok → fld u Reg.PRP_STATUS Fld.PRP_STATUS_DEBUG = scope)
          ∧ (¬ok → fld u Reg.PRP_STATUS Fld.PRP_STATUS_DEBUG_DENIED = 1
            ∧ fld u Reg.PRP_STATUS Fld.PRP_STATUS_DEBUG = fld s Reg.PRP_STATUS Fld.PRP_STATUS_DEBUG)
          ∧ u = { s with prp := u.prp, regs := u.regs }))
  ∧
  ((∀ (s : State) (n tag : Nat) (nonce : List Byte) (c : Option Nat), Asked s n → nonce.length = 48 → c.getD 0 < 64 → booted s = true →
     (let body := reportBody s nonce c
      body.length = 256 ∧ body.take 48 = nonce
      ∧ exec (.attest n tag nonce c) s = .next (served s n 0x90 tag ⟨0, [], body ++ Config.ecdsaSign s.prp.aliasKey body
          ++ Config.aliasCert deviceKey (publicKey s.prp.aliasKey) s.prp.measure (sha384 (bytes48 s.prp.bootNonce))
          ++ Config.identityCert⟩)))
   ∧ ∀ (s : State) (n tag an : Nat) (tx : Bool) (hk w : List Byte), Asked s n → booted s = true → an < 2 → hk.length = 96 → w.length = 40 →
     (unwrapSak s.prp.aliasKey hk w = none → exec (.keyInstall n tag an tx hk w) s = .next (served s n 0x91 tag ⟨10, [], []⟩))
     ∧ ∀ k, unwrapSak s.prp.aliasKey hk w = some k →
       ∃ u, exec (.keyInstall n tag an tx hk w) s = .next (served u n 0x91 tag ⟨0, [], []⟩) ∧ hasKey u an tx = true
         ∧ (an, tx, k) ∈ u.eth.keys ∧ (∀ e, e ∈ u.eth.keys → e.1 = an → e.2.1 = tx → e.2.2 = k)
         ∧ (∀ e, (e.1 ≠ an ∨ e.2.1 ≠ tx) → (e ∈ u.eth.keys ↔ e ∈ s.eth.keys))
         ∧ (tx = true → txPn u an = 0) ∧ (tx = false → rxPn u an = 0) ∧ u = { s with eth := u.eth })
  ∧
  (∀ (s : State) (b : List Byte),
     (imgFormatOk s b = false → verifyImage s b = [ecdsaRec s b 1])
     ∧ (imgFormatOk s b = true → imgSvn b < s.prp.svn → verifyImage s b = [rollbackRec s b])
     ∧ (imgFormatOk s b = true → s.prp.svn ≤ imgSvn b →
       (s.prp.ecdsaRev.testBit (imgEcdsa b) = true → s.prp.lmsRev.testBit (imgLms b) = true →
         verifyImage s b = [ecdsaRec s b 2, lmsRec s b 2])
       ∧ (s.prp.ecdsaRev.testBit (imgEcdsa b) = false → s.prp.lmsRev.testBit (imgLms b) = false →
         sha384 (sliceOf b 24 96) = fusedHash false (imgEcdsa b) →
         sha384 (sliceOf b 120 60) = fusedHash true (imgLms b) →
         (let e := ecdsaVerify (sliceOf b 24 96) (imgHeader b) (sliceOf (imgBlock b) 0 96)
          let l := lmsVerify (sliceOf b 120 60) (imgHeader b) (sliceOf (imgBlock b) 96 2672)
          let d := leBytes 48 (sha384 (imgBody b)).toNat
          (e = true → l = true → d = sliceOf b 180 48 → verifyImage s b = [])
          ∧ (e = true → l = true → d ≠ sliceOf b 180 48 → verifyImage s b = [ecdsaRec s b 5])
          ∧ (e = false → l = true → verifyImage s b = [ecdsaRec s b 4]) ∧ (e = true → l = false → verifyImage s b = [lmsRec s b 4])
          ∧ (e = false → l = false → verifyImage s b = [ecdsaRec s b 4, lmsRec s b 4])))))

/-- SELF_TEST_DONE and MEMORY_TRAINING_DONE (R110 to R112, R131, R150, R502, R508, R512): the cores that pass are active, the
first 16 of each die before its spares, and each retired array is logged; then the packages trained are shown, with FAULT 4 if
one failed. The I3C target and JTAG_INSTRUCTION (R465, R466, R490): an address is taken once; an image for recovery is staged
and discarded in its phase alone; IDCODE shows the part, and the challenge of R466 runs through the data register. The numbers
of the JTAG instructions are the model's choice (log entry 18). -/
def Obligations.SelfTestAndBoard : Prop :=
  ((∀ s : State, bootPhase s = 5 →
     ∃ t, exec (.selfTestDone []) s = .next t ∧ bootPhase t = 6 ∧ fld t Reg.PLC_STATUS Fld.PLC_STATUS_ACTIVE_CORES = 64
       ∧ fld t Reg.PLC_STATUS Fld.PLC_STATUS_SPARES_LEFT = 8 ∧ fld t Reg.PLC_STATUS Fld.PLC_STATUS_RETIRED = 0
       ∧ (∀ c, c < 72 → fld t (Reg.CORE_STATUS c) Fld.CORE_STATUS_STATE = if c % 18 < 16 then 0 else 1)
       ∧ (∀ c, c < 72 → c % 18 < 16 → fld t (Reg.CORE_STATUS c) Fld.CORE_STATUS_ORDINAL = 16 * (c / 18) + c % 18) ∧ SameBytes s t)
   ∧ (∀ (s : State) (c : Nat), bootPhase s = 5 → c < 72 → c % 18 < 16 → (s.hostQ.filter (fun q => !q.isGap)).length < 4095 →
     ∃ t r, exec (.selfTestDone [⟨c, true, [(5, 0), (0, 0), (0, 0), (0, 0)]⟩]) s = .next t ∧ t.recs = s.recs ++ [r] ∧ r.code = 0x0202
       ∧ r.sev = 1 ∧ r.obj = c ∧ r.d0 = 0 ∧ r.d1 = 5 ∧ r.d2 = 0 ∧ fld t (Reg.CORE_STATUS c) Fld.CORE_STATUS_STATE = 2
       ∧ fld t (Reg.CORE_STATUS (18 * (c / 18) + 16)) Fld.CORE_STATUS_STATE = 0
       ∧ fld t Reg.PLC_STATUS Fld.PLC_STATUS_ACTIVE_CORES = 64 ∧ fld t Reg.PLC_STATUS Fld.PLC_STATUS_SPARES_LEFT = 7
       ∧ fld t Reg.PLC_STATUS Fld.PLC_STATUS_RETIRED = 1)
   ∧ ∀ (s : State) (n : Nat), bootPhase s = 6 →
     ∃ t, exec (.memoryTrainingDone n) s = .next t ∧ bootPhase t = 7
       ∧ fld t Reg.MEM_L2_STATUS Fld.MEM_L2_STATUS_TRAINED = n % 65536
       ∧ fld t Reg.MEM_L2_STATUS Fld.MEM_L2_STATUS_FAILED = 65535 - n % 65536
       ∧ fld t Reg.BOOT_STATUS Fld.BOOT_STATUS_FAULT
           = (if n % 65536 = 65535 then fld s Reg.BOOT_STATUS Fld.BOOT_STATUS_FAULT else 4)
       ∧ SameRegsBut s t [Reg.MEM_L2_STATUS, Reg.BOOT_STATUS, Reg.CDC_STAT] ∧ SameBytes s t)
  ∧
  ((∀ (s : State) (a : Nat),
     (s.pins.i3c = none →
       exec (.i3cSetdasa a) s = .next { s with pins := { s.pins with i3c := some (a % 128) } }
       ∧ exec (.i3cEntdaa a) s = .next { s with pins := { s.pins with i3c := some (a % 128) }
                                                out := s.out ++ [.i3cId (provisionalId s)] })
     ∧ (s.pins.i3c ≠ none → exec (.i3cSetdasa a) s = .next s ∧ exec (.i3cEntdaa a) s = .next s))
   ∧ (∀ (s : State) (d : List Byte), recovering s = true → 1 ≤ d.length → d.length ≤ 255 →
     (∃ u, exec (.i3cRecoveryData d) s = .next u ∧ u = { s with uploads := u.uploads }
       ∧ ((∀ o, o ∈ s.uploads → o.kind ≠ 1) → u.uploads = s.uploads ++ [⟨1, 0, [(0, d)]⟩])
       ∧ (∀ o, s.uploads = [o] → o.kind = 1 → o.index = 0 → u.uploads = [{ o with parts := o.parts ++ [(o.bytes.length, d)] }]))
     ∧ exec .i3cDiscardStaged s = .next { s with uploads := s.uploads.filter (fun u => u.kind != 1) })
   ∧ (∀ (s : State) (d : List Byte), recovering s = false →
     exec (.i3cRecoveryData d) s = .next s ∧ exec .i3cDiscardStaged s = .next s ∧ exec .i3cBootGo s = .next s)
   ∧ ∀ (s : State) (ir : Nat) (dr : List Byte),
     exec (.jtagInstruction 1 dr) s = .next { s with out := s.out ++ [.jtag (leBytes 4 (idcode s))] }
     ∧ idcode s % 2 = 1 ∧ idcode s / 4096 % 65536 = 0x6408 ∧ idcode s / 2 ^ 28 = fld s Reg.STEPPING Fld.STEPPING_MAJOR % 16
     ∧ (debugOpen s = true →
       ∃ u, exec (.jtagInstruction 2 dr) s = .next u ∧ u.prp = { s.prp with challenge := true } ∧ u.out = s.out ++ [.jtag (prpNonce u)]
         ∧ u = { s with prp := u.prp, regs := u.regs, free := s.free + 1, out := u.out })
     ∧ (∃ u, exec (.jtagInstruction 3 dr) s = .next u ∧ u.prp = { s.prp with challenge := false }
       ∧ (debugOpen s = false → fld u Reg.PRP_STATUS Fld.PRP_STATUS_DEBUG_DENIED = 1) ∧ u = { s with prp := u.prp, regs := u.regs })
     ∧ (3 < ir → exec (.jtagInstruction ir dr) s = .next s))

/-- RESET_N_FALL, PWR_OK_FALL and RESET_RELEASE (R465, R475, R487, R496, R510, R511): a reset leaves every register at its reset
value but BOOT_CAUSE and the fuses' view, memory and contexts as after power-on, the fuses as blown; a release samples BOOT_MODE
and starts stage A. -/
def Obligations.Resets : Prop :=
  (∀ (s : State) (lost : Bool),
    (let gone (t : State) (cause : Nat) : Prop :=
       fld t Reg.BOOT_CAUSE ⟨0, 64⟩ = cause ∧ SameRegsBut State.reset t [Reg.BOOT_CAUSE, Reg.PRP_STATUS]
         ∧ fld t Reg.PRP_STATUS Fld.PRP_STATUS_SVN_FUSED = s.prp.svn % 128 ∧ booted t = false ∧ t.prp.svn = s.prp.svn
         ∧ t.prp.ecdsaRev = s.prp.ecdsaRev ∧ t.prp.lmsRev = s.prp.lmsRev ∧ t.mem = [] ∧ t.ctxs = [] ∧ t.sessions = [] ∧ t.uploads = []
         ∧ t.hostQ = [] ∧ t.recs = [] ∧ t.log = [] ∧ t.rings = [] ∧ t.pins.resetN = false ∧ t.pins.i3c = none ∧ t.pending = s.pending
     (s.pins.resetN = true →
       ∃ t, exec .resetNFall s = .next t ∧ gone t 2 ∧ t.pins.tripped = s.pins.tripped)
     ∧ (s.pins.resetN = false → exec .resetNFall s = .next s)
     ∧ ∃ t, exec (.pwrOkFall lost) s = .next t ∧ gone t (if lost then 1 else 4) ∧ t.pins.pwrOk = false
         ∧ t.pins.tripped = (s.pins.tripped && !lost)))
  ∧ ∀ (s : State) (mode : Nat),
    ((s.pins.resetN = true ∨ s.pins.tripped = true) → exec (.resetRelease mode) s = .next s)
    ∧ (s.pins.resetN = false → s.pins.tripped = false →
      ∃ t, exec (.resetRelease mode) s = .next t ∧ t.pins = { s.pins with resetN := true, pwrOk := true }
        ∧ bootMode t = mode % 4 ∧ bootPhase t = bootPhase s
        ∧ (∀ d, d ∈ stageDomains 0 → clkState t d = if clkState s d = 0 then 1 else clkState s d)
        ∧ (∀ d, d < 25 → d ∉ stageDomains 0 → clkState t d = clkState s d) ∧ t = { s with pins := t.pins, regs := t.regs })
end

