-- ==== Sys2Proof/Laws/Sparse.lean ====
section
/-! SUPPORT. Sparse tables: what a read finds after a write, and that a write keeps the canonical form. -/

namespace Sys2Proof.Machine

variable {α : Type} {d : α}

@[simp] theorem Sparse.get_nil (d : α) (k : Nat) : Sparse.get d [] k = d := rfl

theorem Sparse.get_erase_same (m : List (Nat × α)) (k : Nat) : Sparse.get d (Sparse.erase k m) k = d := by
  induction m with
  | nil => rfl
  | cons e m ih =>
    obtain ⟨j, u⟩ := e
    by_cases h : j = k
    · simpa [Sparse.erase, h] using ih
    · simpa [Sparse.erase, h, Sparse.get] using ih

theorem Sparse.get_erase_other (m : List (Nat × α)) {k j : Nat} (h : j ≠ k) :
    Sparse.get d (Sparse.erase k m) j = Sparse.get d m j := by
  induction m with
  | nil => rfl
  | cons e m ih =>
    obtain ⟨i, u⟩ := e
    by_cases hi : i = k
    · subst hi
      simp [Sparse.erase, Sparse.get, ih, Ne.symm h]
    · simp [Sparse.erase, hi, Sparse.get, ih]

theorem Sparse.get_insert_other (m : List (Nat × α)) {k j : Nat} (v : α) (h : j ≠ k) :
    Sparse.get d (Sparse.insert k v m) j = Sparse.get d m j := by
  induction m with
  | nil => simp [Sparse.insert, Sparse.get, Ne.symm h]
  | cons e m ih =>
    obtain ⟨i, u⟩ := e
    by_cases hi : k < i
    · simp [Sparse.insert, hi, Sparse.get, Ne.symm h]
    · simp [Sparse.insert, hi, Sparse.get, ih]

theorem Sparse.get_insert_same (m : List (Nat × α)) (k : Nat) (v : α) :
    Sparse.get d (Sparse.insert k v (Sparse.erase k m)) k = v := by
  induction m with
  | nil => simp [Sparse.erase, Sparse.insert, Sparse.get]
  | cons e m ih =>
    obtain ⟨i, u⟩ := e
    by_cases hi : i = k
    · simpa [Sparse.erase, hi] using ih
    · by_cases hk : k < i
      · simp [Sparse.erase, hi, Sparse.insert, hk, Sparse.get]
      · simpa [Sparse.erase, hi, Sparse.insert, hk, Sparse.get] using ih

/-! ### A second write at one key -/

theorem Sparse.erase_erase (m : List (Nat × α)) (k : Nat) : Sparse.erase k (Sparse.erase k m) = Sparse.erase k m := by
  induction m with
  | nil => rfl
  | cons e m ih =>
    obtain ⟨j, u⟩ := e
    by_cases h : j = k
    · simpa [Sparse.erase, h] using ih
    · simp [Sparse.erase, h, ih]

theorem Sparse.erase_insert (m : List (Nat × α)) (k : Nat) (v : α) :
    Sparse.erase k (Sparse.insert k v (Sparse.erase k m)) = Sparse.erase k m := by
  induction m with
  | nil => simp [Sparse.erase, Sparse.insert]
  | cons e m ih =>
    obtain ⟨j, u⟩ := e
    by_cases h : j = k
    · simpa [Sparse.erase, h] using ih
    · by_cases hk : k < j
      · simp [Sparse.erase, h, Sparse.insert, hk, Sparse.erase_erase]
      · simp [Sparse.erase, h, Sparse.insert, hk, ih]

variable [DecidableEq α]

@[simp] theorem Sparse.get_set_same (m : List (Nat × α)) (k : Nat) (v : α) : Sparse.get d (Sparse.set d m k v) k = v := by
  unfold Sparse.set
  split
  · rename_i h
    rw [Sparse.get_erase_same, h]
  · exact Sparse.get_insert_same m k v

theorem Sparse.get_set_other (m : List (Nat × α)) {k j : Nat} (v : α) (h : j ≠ k) :
    Sparse.get d (Sparse.set d m k v) j = Sparse.get d m j := by
  unfold Sparse.set
  split
  · exact Sparse.get_erase_other m h
  · rw [Sparse.get_insert_other _ v h, Sparse.get_erase_other m h]

theorem Sparse.get_set (m : List (Nat × α)) (k j : Nat) (v : α) :
    Sparse.get d (Sparse.set d m k v) j = if j = k then v else Sparse.get d m j := by
  split
  · rename_i h
    rw [h, Sparse.get_set_same]
  · exact Sparse.get_set_other m v ‹_›

/-! ### The canonical form -/

theorem Sparse.wfFrom_mono (m : List (Nat × α)) {b c : Nat} (h : b ≤ c) (w : Sparse.wfFrom d c m = true) :
    Sparse.wfFrom d b m = true := by
  cases m with
  | nil => rfl
  | cons e m =>
    obtain ⟨k, v⟩ := e
    simp only [Sparse.wfFrom, Bool.and_eq_true, decide_eq_true_eq] at w ⊢
    exact ⟨⟨by omega, w.1.2⟩, w.2⟩

theorem Sparse.wfFrom_erase (m : List (Nat × α)) (k b : Nat) (w : Sparse.wfFrom d b m = true) :
    Sparse.wfFrom d b (Sparse.erase k m) = true := by
  induction m generalizing b with
  | nil => rfl
  | cons e m ih =>
    obtain ⟨j, u⟩ := e
    simp only [Sparse.wfFrom, Bool.and_eq_true, decide_eq_true_eq] at w
    by_cases h : j = k
    · simp only [Sparse.erase, h, if_true]
      exact ih b (Sparse.wfFrom_mono m (by omega) w.2)
    · simp only [Sparse.erase, h, if_false, Sparse.wfFrom, Bool.and_eq_true, decide_eq_true_eq]
      exact ⟨w.1, ih _ w.2⟩

theorem Sparse.wfFrom_insert (m : List (Nat × α)) (k b : Nat) (v : α) (hv : v ≠ d) (hb : b ≤ k)
    (hk : Sparse.get d m k = d) (w : Sparse.wfFrom d b m = true) : Sparse.wfFrom d b (Sparse.insert k v m) = true := by
  induction m generalizing b with
  | nil => simp [Sparse.insert, Sparse.wfFrom, hv, hb]
  | cons e m ih =>
    obtain ⟨j, u⟩ := e
    simp only [Sparse.wfFrom, Bool.and_eq_true, decide_eq_true_eq, Bool.not_eq_true', decide_eq_false_iff_not] at w
    by_cases h : k < j
    · simp only [Sparse.insert, h, if_true, Sparse.wfFrom, Bool.and_eq_true, decide_eq_true_eq, Bool.not_eq_true',
        decide_eq_false_iff_not]
      exact ⟨⟨hb, hv⟩, ⟨by omega, w.1.2⟩, w.2⟩
    · have hjk : j ≠ k := by
        intro he
        simp [Sparse.get, he] at hk
        exact w.1.2 hk
      have hk' : Sparse.get d m k = d := by simpa [Sparse.get, hjk] using hk
      simp only [Sparse.insert, h, if_false, Sparse.wfFrom, Bool.and_eq_true, decide_eq_true_eq, Bool.not_eq_true',
        decide_eq_false_iff_not]
      exact ⟨w.1, ih _ (by omega) hk' w.2⟩

/-- A write keeps the canonical form. -/
theorem Sparse.wf_set (m : List (Nat × α)) (k : Nat) (v : α) (w : Sparse.wf d m = true) :
    Sparse.wf d (Sparse.set d m k v) = true := by
  unfold Sparse.set Sparse.wf
  split
  · exact Sparse.wfFrom_erase m k 0 w
  · exact Sparse.wfFrom_insert _ k 0 v ‹_› (Nat.zero_le _) (Sparse.get_erase_same m k) (Sparse.wfFrom_erase m k 0 w)

/-- Of two writes at one key the second stands. -/
@[simp] theorem Sparse.set_set (m : List (Nat × α)) (k : Nat) (v w : α) :
    Sparse.set d (Sparse.set d m k v) k w = Sparse.set d m k w := by
  have h : Sparse.erase k (Sparse.set d m k v) = Sparse.erase k m := by
    unfold Sparse.set
    split
    · exact Sparse.erase_erase m k
    · exact Sparse.erase_insert m k v
  have e (n : List (Nat × α)) (u : α) : Sparse.set d n k u = if u = d then Sparse.erase k n else Sparse.insert k u (Sparse.erase k n) := rfl
  rw [e, h, e m w]

theorem Sparse.wf_nil : Sparse.wf d ([] : List (Nat × α)) = true := rfl

end Sys2Proof.Machine
end

