-- ==== Sys2Proof/Laws/State.lean ====
section
/-! SUPPORT. Each named update of the state and each field: what the update leaves as it was, true by rfl, so that no later
proof unfolds a record update. The field that an update changes is spoken of in Laws/Sparse.lean and Laws/Tables.lean. -/

namespace Sys2Proof.Machine

variable (s : State)

@[simp] theorem wr_pending (a : Nat) (w : Word) : (wr s a w).pending = s.pending := rfl
@[simp] theorem wr_free (a : Nat) (w : Word) : (wr s a w).free = s.free := rfl
@[simp] theorem wr_out (a : Nat) (w : Word) : (wr s a w).out = s.out := rfl
@[simp] theorem wr_mem (a : Nat) (w : Word) : (wr s a w).mem = s.mem := rfl
@[simp] theorem wr_poison (a : Nat) (w : Word) : (wr s a w).poison = s.poison := rfl
@[simp] theorem wr_comb (a : Nat) (w : Word) : (wr s a w).comb = s.comb := rfl
@[simp] theorem wr_lastCorr (a : Nat) (w : Word) : (wr s a w).lastCorr = s.lastCorr := rfl
@[simp] theorem wr_ctxs (a : Nat) (w : Word) : (wr s a w).ctxs = s.ctxs := rfl
@[simp] theorem wr_slices (a : Nat) (w : Word) : (wr s a w).slices = s.slices := rfl
@[simp] theorem wr_partCores (a : Nat) (w : Word) : (wr s a w).partCores = s.partCores := rfl
@[simp] theorem wr_chunkBufs (a : Nat) (w : Word) : (wr s a w).chunkBufs = s.chunkBufs := rfl
@[simp] theorem wr_train (a : Nat) (w : Word) : (wr s a w).train = s.train := rfl
@[simp] theorem wr_recs (a : Nat) (w : Word) : (wr s a w).recs = s.recs := rfl
@[simp] theorem wr_recSeq (a : Nat) (w : Word) : (wr s a w).recSeq = s.recSeq := rfl
@[simp] theorem wr_log (a : Nat) (w : Word) : (wr s a w).log = s.log := rfl
@[simp] theorem wr_logRate (a : Nat) (w : Word) : (wr s a w).logRate = s.logRate := rfl
@[simp] theorem wr_thrLogged (a : Nat) (w : Word) : (wr s a w).thrLogged = s.thrLogged := rfl
@[simp] theorem wr_rowErrs (a : Nat) (w : Word) : (wr s a w).rowErrs = s.rowErrs := rfl
@[simp] theorem wr_flags (a : Nat) (w : Word) : (wr s a w).flags = s.flags := rfl
@[simp] theorem wr_bars (a : Nat) (w : Word) : (wr s a w).bars = s.bars := rfl
@[simp] theorem wr_waitSeq (a : Nat) (w : Word) : (wr s a w).waitSeq = s.waitSeq := rfl
@[simp] theorem wr_rings (a : Nat) (w : Word) : (wr s a w).rings = s.rings := rfl
@[simp] theorem wr_grps (a : Nat) (w : Word) : (wr s a w).grps = s.grps := rfl
@[simp] theorem wr_trees (a : Nat) (w : Word) : (wr s a w).trees = s.trees := rfl
@[simp] theorem wr_cells (a : Nat) (w : Word) : (wr s a w).cells = s.cells := rfl
@[simp] theorem wr_ringSends (a : Nat) (w : Word) : (wr s a w).ringSends = s.ringSends := rfl
@[simp] theorem wr_hostQ (a : Nat) (w : Word) : (wr s a w).hostQ = s.hostQ := rfl
@[simp] theorem wr_cdcCnt (a : Nat) (w : Word) : (wr s a w).cdcCnt = s.cdcCnt := rfl
@[simp] theorem wr_cfgSet (a : Nat) (w : Word) : (wr s a w).cfgSet = s.cfgSet := rfl
@[simp] theorem wr_routes (a : Nat) (w : Word) : (wr s a w).routes = s.routes := rfl
@[simp] theorem wr_ranks (a : Nat) (w : Word) : (wr s a w).ranks = s.ranks := rfl
@[simp] theorem wr_pastAddrs (a : Nat) (w : Word) : (wr s a w).pastAddrs = s.pastAddrs := rfl
@[simp] theorem wr_ports (a : Nat) (w : Word) : (wr s a w).ports = s.ports := rfl
@[simp] theorem wr_fabWait (a : Nat) (w : Word) : (wr s a w).fabWait = s.fabWait := rfl
@[simp] theorem wr_nextPkt (a : Nat) (w : Word) : (wr s a w).nextPkt = s.nextPkt := rfl
@[simp] theorem wr_handed (a : Nat) (w : Word) : (wr s a w).handed = s.handed := rfl
@[simp] theorem wr_swarm (a : Nat) (w : Word) : (wr s a w).swarm = s.swarm := rfl
@[simp] theorem wr_hum (a : Nat) (w : Word) : (wr s a w).hum = s.hum := rfl
@[simp] theorem wr_pwr (a : Nat) (w : Word) : (wr s a w).pwr = s.pwr := rfl
@[simp] theorem wr_models (a : Nat) (w : Word) : (wr s a w).models = s.models := rfl
@[simp] theorem wr_streams (a : Nat) (w : Word) : (wr s a w).streams = s.streams := rfl
@[simp] theorem wr_serv (a : Nat) (w : Word) : (wr s a w).serv = s.serv := rfl
@[simp] theorem wr_classes (a : Nat) (w : Word) : (wr s a w).classes = s.classes := rfl
@[simp] theorem wr_eth (a : Nat) (w : Word) : (wr s a w).eth = s.eth := rfl
@[simp] theorem wr_sessions (a : Nat) (w : Word) : (wr s a w).sessions = s.sessions := rfl
@[simp] theorem wr_uploads (a : Nat) (w : Word) : (wr s a w).uploads = s.uploads := rfl
@[simp] theorem wr_waitLoads (a : Nat) (w : Word) : (wr s a w).waitLoads = s.waitLoads := rfl
@[simp] theorem wr_prp (a : Nat) (w : Word) : (wr s a w).prp = s.prp := rfl
@[simp] theorem wr_keeper (a : Nat) (w : Word) : (wr s a w).keeper = s.keeper := rfl
@[simp] theorem wr_pins (a : Nat) (w : Word) : (wr s a w).pins = s.pins := rfl
@[simp] theorem wr_takeover (a : Nat) (w : Word) : (wr s a w).takeover = s.takeover := rfl
@[simp] theorem wr_resume (a : Nat) (w : Word) : (wr s a w).resume = s.resume := rfl
@[simp] theorem wr_saved (a : Nat) (w : Word) : (wr s a w).saved = s.saved := rfl

@[simp] theorem setFld_pending (a : Nat) (f : Fld) (v : Nat) : (setFld s a f v).pending = s.pending := rfl
@[simp] theorem setFld_free (a : Nat) (f : Fld) (v : Nat) : (setFld s a f v).free = s.free := rfl
@[simp] theorem setFld_out (a : Nat) (f : Fld) (v : Nat) : (setFld s a f v).out = s.out := rfl
@[simp] theorem setFld_mem (a : Nat) (f : Fld) (v : Nat) : (setFld s a f v).mem = s.mem := rfl
@[simp] theorem setFld_poison (a : Nat) (f : Fld) (v : Nat) : (setFld s a f v).poison = s.poison := rfl
@[simp] theorem setFld_comb (a : Nat) (f : Fld) (v : Nat) : (setFld s a f v).comb = s.comb := rfl
@[simp] theorem setFld_lastCorr (a : Nat) (f : Fld) (v : Nat) : (setFld s a f v).lastCorr = s.lastCorr := rfl
@[simp] theorem setFld_ctxs (a : Nat) (f : Fld) (v : Nat) : (setFld s a f v).ctxs = s.ctxs := rfl
@[simp] theorem setFld_slices (a : Nat) (f : Fld) (v : Nat) : (setFld s a f v).slices = s.slices := rfl
@[simp] theorem setFld_partCores (a : Nat) (f : Fld) (v : Nat) : (setFld s a f v).partCores = s.partCores := rfl
@[simp] theorem setFld_chunkBufs (a : Nat) (f : Fld) (v : Nat) : (setFld s a f v).chunkBufs = s.chunkBufs := rfl
@[simp] theorem setFld_train (a : Nat) (f : Fld) (v : Nat) : (setFld s a f v).train = s.train := rfl
@[simp] theorem setFld_recs (a : Nat) (f : Fld) (v : Nat) : (setFld s a f v).recs = s.recs := rfl
@[simp] theorem setFld_recSeq (a : Nat) (f : Fld) (v : Nat) : (setFld s a f v).recSeq = s.recSeq := rfl
@[simp] theorem setFld_log (a : Nat) (f : Fld) (v : Nat) : (setFld s a f v).log = s.log := rfl
@[simp] theorem setFld_logRate (a : Nat) (f : Fld) (v : Nat) : (setFld s a f v).logRate = s.logRate := rfl
@[simp] theorem setFld_thrLogged (a : Nat) (f : Fld) (v : Nat) : (setFld s a f v).thrLogged = s.thrLogged := rfl
@[simp] theorem setFld_rowErrs (a : Nat) (f : Fld) (v : Nat) : (setFld s a f v).rowErrs = s.rowErrs := rfl
@[simp] theorem setFld_flags (a : Nat) (f : Fld) (v : Nat) : (setFld s a f v).flags = s.flags := rfl
@[simp] theorem setFld_bars (a : Nat) (f : Fld) (v : Nat) : (setFld s a f v).bars = s.bars := rfl
@[simp] theorem setFld_waitSeq (a : Nat) (f : Fld) (v : Nat) : (setFld s a f v).waitSeq = s.waitSeq := rfl
@[simp] theorem setFld_rings (a : Nat) (f : Fld) (v : Nat) : (setFld s a f v).rings = s.rings := rfl
@[simp] theorem setFld_grps (a : Nat) (f : Fld) (v : Nat) : (setFld s a f v).grps = s.grps := rfl
@[simp] theorem setFld_trees (a : Nat) (f : Fld) (v : Nat) : (setFld s a f v).trees = s.trees := rfl
@[simp] theorem setFld_cells (a : Nat) (f : Fld) (v : Nat) : (setFld s a f v).cells = s.cells := rfl
@[simp] theorem setFld_ringSends (a : Nat) (f : Fld) (v : Nat) : (setFld s a f v).ringSends = s.ringSends := rfl
@[simp] theorem setFld_hostQ (a : Nat) (f : Fld) (v : Nat) : (setFld s a f v).hostQ = s.hostQ := rfl
@[simp] theorem setFld_cdcCnt (a : Nat) (f : Fld) (v : Nat) : (setFld s a f v).cdcCnt = s.cdcCnt := rfl
@[simp] theorem setFld_cfgSet (a : Nat) (f : Fld) (v : Nat) : (setFld s a f v).cfgSet = s.cfgSet := rfl
@[simp] theorem setFld_routes (a : Nat) (f : Fld) (v : Nat) : (setFld s a f v).routes = s.routes := rfl
@[simp] theorem setFld_ranks (a : Nat) (f : Fld) (v : Nat) : (setFld s a f v).ranks = s.ranks := rfl
@[simp] theorem setFld_pastAddrs (a : Nat) (f : Fld) (v : Nat) : (setFld s a f v).pastAddrs = s.pastAddrs := rfl
@[simp] theorem setFld_ports (a : Nat) (f : Fld) (v : Nat) : (setFld s a f v).ports = s.ports := rfl
@[simp] theorem setFld_fabWait (a : Nat) (f : Fld) (v : Nat) : (setFld s a f v).fabWait = s.fabWait := rfl
@[simp] theorem setFld_nextPkt (a : Nat) (f : Fld) (v : Nat) : (setFld s a f v).nextPkt = s.nextPkt := rfl
@[simp] theorem setFld_handed (a : Nat) (f : Fld) (v : Nat) : (setFld s a f v).handed = s.handed := rfl
@[simp] theorem setFld_swarm (a : Nat) (f : Fld) (v : Nat) : (setFld s a f v).swarm = s.swarm := rfl
@[simp] theorem setFld_hum (a : Nat) (f : Fld) (v : Nat) : (setFld s a f v).hum = s.hum := rfl
@[simp] theorem setFld_pwr (a : Nat) (f : Fld) (v : Nat) : (setFld s a f v).pwr = s.pwr := rfl
@[simp] theorem setFld_models (a : Nat) (f : Fld) (v : Nat) : (setFld s a f v).models = s.models := rfl
@[simp] theorem setFld_streams (a : Nat) (f : Fld) (v : Nat) : (setFld s a f v).streams = s.streams := rfl
@[simp] theorem setFld_serv (a : Nat) (f : Fld) (v : Nat) : (setFld s a f v).serv = s.serv := rfl
@[simp] theorem setFld_classes (a : Nat) (f : Fld) (v : Nat) : (setFld s a f v).classes = s.classes := rfl
@[simp] theorem setFld_eth (a : Nat) (f : Fld) (v : Nat) : (setFld s a f v).eth = s.eth := rfl
@[simp] theorem setFld_sessions (a : Nat) (f : Fld) (v : Nat) : (setFld s a f v).sessions = s.sessions := rfl
@[simp] theorem setFld_uploads (a : Nat) (f : Fld) (v : Nat) : (setFld s a f v).uploads = s.uploads := rfl
@[simp] theorem setFld_waitLoads (a : Nat) (f : Fld) (v : Nat) : (setFld s a f v).waitLoads = s.waitLoads := rfl
@[simp] theorem setFld_prp (a : Nat) (f : Fld) (v : Nat) : (setFld s a f v).prp = s.prp := rfl
@[simp] theorem setFld_keeper (a : Nat) (f : Fld) (v : Nat) : (setFld s a f v).keeper = s.keeper := rfl
@[simp] theorem setFld_pins (a : Nat) (f : Fld) (v : Nat) : (setFld s a f v).pins = s.pins := rfl
@[simp] theorem setFld_takeover (a : Nat) (f : Fld) (v : Nat) : (setFld s a f v).takeover = s.takeover := rfl
@[simp] theorem setFld_resume (a : Nat) (f : Fld) (v : Nat) : (setFld s a f v).resume = s.resume := rfl
@[simp] theorem setFld_saved (a : Nat) (f : Fld) (v : Nat) : (setFld s a f v).saved = s.saved := rfl

@[simp] theorem bump_pending (a : Nat) (f : Fld) (n : Nat) : (bump s a f n).pending = s.pending := rfl
@[simp] theorem bump_free (a : Nat) (f : Fld) (n : Nat) : (bump s a f n).free = s.free := rfl
@[simp] theorem bump_out (a : Nat) (f : Fld) (n : Nat) : (bump s a f n).out = s.out := rfl
@[simp] theorem bump_mem (a : Nat) (f : Fld) (n : Nat) : (bump s a f n).mem = s.mem := rfl
@[simp] theorem bump_poison (a : Nat) (f : Fld) (n : Nat) : (bump s a f n).poison = s.poison := rfl
@[simp] theorem bump_comb (a : Nat) (f : Fld) (n : Nat) : (bump s a f n).comb = s.comb := rfl
@[simp] theorem bump_lastCorr (a : Nat) (f : Fld) (n : Nat) : (bump s a f n).lastCorr = s.lastCorr := rfl
@[simp] theorem bump_ctxs (a : Nat) (f : Fld) (n : Nat) : (bump s a f n).ctxs = s.ctxs := rfl
@[simp] theorem bump_slices (a : Nat) (f : Fld) (n : Nat) : (bump s a f n).slices = s.slices := rfl
@[simp] theorem bump_partCores (a : Nat) (f : Fld) (n : Nat) : (bump s a f n).partCores = s.partCores := rfl
@[simp] theorem bump_chunkBufs (a : Nat) (f : Fld) (n : Nat) : (bump s a f n).chunkBufs = s.chunkBufs := rfl
@[simp] theorem bump_train (a : Nat) (f : Fld) (n : Nat) : (bump s a f n).train = s.train := rfl
@[simp] theorem bump_recs (a : Nat) (f : Fld) (n : Nat) : (bump s a f n).recs = s.recs := rfl
@[simp] theorem bump_recSeq (a : Nat) (f : Fld) (n : Nat) : (bump s a f n).recSeq = s.recSeq := rfl
@[simp] theorem bump_log (a : Nat) (f : Fld) (n : Nat) : (bump s a f n).log = s.log := rfl
@[simp] theorem bump_logRate (a : Nat) (f : Fld) (n : Nat) : (bump s a f n).logRate = s.logRate := rfl
@[simp] theorem bump_thrLogged (a : Nat) (f : Fld) (n : Nat) : (bump s a f n).thrLogged = s.thrLogged := rfl
@[simp] theorem bump_rowErrs (a : Nat) (f : Fld) (n : Nat) : (bump s a f n).rowErrs = s.rowErrs := rfl
@[simp] theorem bump_flags (a : Nat) (f : Fld) (n : Nat) : (bump s a f n).flags = s.flags := rfl
@[simp] theorem bump_bars (a : Nat) (f : Fld) (n : Nat) : (bump s a f n).bars = s.bars := rfl
@[simp] theorem bump_waitSeq (a : Nat) (f : Fld) (n : Nat) : (bump s a f n).waitSeq = s.waitSeq := rfl
@[simp] theorem bump_rings (a : Nat) (f : Fld) (n : Nat) : (bump s a f n).rings = s.rings := rfl
@[simp] theorem bump_grps (a : Nat) (f : Fld) (n : Nat) : (bump s a f n).grps = s.grps := rfl
@[simp] theorem bump_trees (a : Nat) (f : Fld) (n : Nat) : (bump s a f n).trees = s.trees := rfl
@[simp] theorem bump_cells (a : Nat) (f : Fld) (n : Nat) : (bump s a f n).cells = s.cells := rfl
@[simp] theorem bump_ringSends (a : Nat) (f : Fld) (n : Nat) : (bump s a f n).ringSends = s.ringSends := rfl
@[simp] theorem bump_hostQ (a : Nat) (f : Fld) (n : Nat) : (bump s a f n).hostQ = s.hostQ := rfl
@[simp] theorem bump_cdcCnt (a : Nat) (f : Fld) (n : Nat) : (bump s a f n).cdcCnt = s.cdcCnt := rfl
@[simp] theorem bump_cfgSet (a : Nat) (f : Fld) (n : Nat) : (bump s a f n).cfgSet = s.cfgSet := rfl
@[simp] theorem bump_routes (a : Nat) (f : Fld) (n : Nat) : (bump s a f n).routes = s.routes := rfl
@[simp] theorem bump_ranks (a : Nat) (f : Fld) (n : Nat) : (bump s a f n).ranks = s.ranks := rfl
@[simp] theorem bump_pastAddrs (a : Nat) (f : Fld) (n : Nat) : (bump s a f n).pastAddrs = s.pastAddrs := rfl
@[simp] theorem bump_ports (a : Nat) (f : Fld) (n : Nat) : (bump s a f n).ports = s.ports := rfl
@[simp] theorem bump_fabWait (a : Nat) (f : Fld) (n : Nat) : (bump s a f n).fabWait = s.fabWait := rfl
@[simp] theorem bump_nextPkt (a : Nat) (f : Fld) (n : Nat) : (bump s a f n).nextPkt = s.nextPkt := rfl
@[simp] theorem bump_handed (a : Nat) (f : Fld) (n : Nat) : (bump s a f n).handed = s.handed := rfl
@[simp] theorem bump_swarm (a : Nat) (f : Fld) (n : Nat) : (bump s a f n).swarm = s.swarm := rfl
@[simp] theorem bump_hum (a : Nat) (f : Fld) (n : Nat) : (bump s a f n).hum = s.hum := rfl
@[simp] theorem bump_pwr (a : Nat) (f : Fld) (n : Nat) : (bump s a f n).pwr = s.pwr := rfl
@[simp] theorem bump_models (a : Nat) (f : Fld) (n : Nat) : (bump s a f n).models = s.models := rfl
@[simp] theorem bump_streams (a : Nat) (f : Fld) (n : Nat) : (bump s a f n).streams = s.streams := rfl
@[simp] theorem bump_serv (a : Nat) (f : Fld) (n : Nat) : (bump s a f n).serv = s.serv := rfl
@[simp] theorem bump_classes (a : Nat) (f : Fld) (n : Nat) : (bump s a f n).classes = s.classes := rfl
@[simp] theorem bump_eth (a : Nat) (f : Fld) (n : Nat) : (bump s a f n).eth = s.eth := rfl
@[simp] theorem bump_sessions (a : Nat) (f : Fld) (n : Nat) : (bump s a f n).sessions = s.sessions := rfl
@[simp] theorem bump_uploads (a : Nat) (f : Fld) (n : Nat) : (bump s a f n).uploads = s.uploads := rfl
@[simp] theorem bump_waitLoads (a : Nat) (f : Fld) (n : Nat) : (bump s a f n).waitLoads = s.waitLoads := rfl
@[simp] theorem bump_prp (a : Nat) (f : Fld) (n : Nat) : (bump s a f n).prp = s.prp := rfl
@[simp] theorem bump_keeper (a : Nat) (f : Fld) (n : Nat) : (bump s a f n).keeper = s.keeper := rfl
@[simp] theorem bump_pins (a : Nat) (f : Fld) (n : Nat) : (bump s a f n).pins = s.pins := rfl
@[simp] theorem bump_takeover (a : Nat) (f : Fld) (n : Nat) : (bump s a f n).takeover = s.takeover := rfl
@[simp] theorem bump_resume (a : Nat) (f : Fld) (n : Nat) : (bump s a f n).resume = s.resume := rfl
@[simp] theorem bump_saved (a : Nat) (f : Fld) (n : Nat) : (bump s a f n).saved = s.saved := rfl

@[simp] theorem setCtx_pending (x : Nat) (c : Ctx) : (setCtx s x c).pending = s.pending := rfl
@[simp] theorem setCtx_free (x : Nat) (c : Ctx) : (setCtx s x c).free = s.free := rfl
@[simp] theorem setCtx_out (x : Nat) (c : Ctx) : (setCtx s x c).out = s.out := rfl
@[simp] theorem setCtx_regs (x : Nat) (c : Ctx) : (setCtx s x c).regs = s.regs := rfl
@[simp] theorem setCtx_mem (x : Nat) (c : Ctx) : (setCtx s x c).mem = s.mem := rfl
@[simp] theorem setCtx_poison (x : Nat) (c : Ctx) : (setCtx s x c).poison = s.poison := rfl
@[simp] theorem setCtx_comb (x : Nat) (c : Ctx) : (setCtx s x c).comb = s.comb := rfl
@[simp] theorem setCtx_lastCorr (x : Nat) (c : Ctx) : (setCtx s x c).lastCorr = s.lastCorr := rfl
@[simp] theorem setCtx_slices (x : Nat) (c : Ctx) : (setCtx s x c).slices = s.slices := rfl
@[simp] theorem setCtx_partCores (x : Nat) (c : Ctx) : (setCtx s x c).partCores = s.partCores := rfl
@[simp] theorem setCtx_chunkBufs (x : Nat) (c : Ctx) : (setCtx s x c).chunkBufs = s.chunkBufs := rfl
@[simp] theorem setCtx_train (x : Nat) (c : Ctx) : (setCtx s x c).train = s.train := rfl
@[simp] theorem setCtx_recs (x : Nat) (c : Ctx) : (setCtx s x c).recs = s.recs := rfl
@[simp] theorem setCtx_recSeq (x : Nat) (c : Ctx) : (setCtx s x c).recSeq = s.recSeq := rfl
@[simp] theorem setCtx_log (x : Nat) (c : Ctx) : (setCtx s x c).log = s.log := rfl
@[simp] theorem setCtx_logRate (x : Nat) (c : Ctx) : (setCtx s x c).logRate = s.logRate := rfl
@[simp] theorem setCtx_thrLogged (x : Nat) (c : Ctx) : (setCtx s x c).thrLogged = s.thrLogged := rfl
@[simp] theorem setCtx_rowErrs (x : Nat) (c : Ctx) : (setCtx s x c).rowErrs = s.rowErrs := rfl
@[simp] theorem setCtx_flags (x : Nat) (c : Ctx) : (setCtx s x c).flags = s.flags := rfl
@[simp] theorem setCtx_bars (x : Nat) (c : Ctx) : (setCtx s x c).bars = s.bars := rfl
@[simp] theorem setCtx_waitSeq (x : Nat) (c : Ctx) : (setCtx s x c).waitSeq = s.waitSeq := rfl
@[simp] theorem setCtx_rings (x : Nat) (c : Ctx) : (setCtx s x c).rings = s.rings := rfl
@[simp] theorem setCtx_grps (x : Nat) (c : Ctx) : (setCtx s x c).grps = s.grps := rfl
@[simp] theorem setCtx_trees (x : Nat) (c : Ctx) : (setCtx s x c).trees = s.trees := rfl
@[simp] theorem setCtx_cells (x : Nat) (c : Ctx) : (setCtx s x c).cells = s.cells := rfl
@[simp] theorem setCtx_ringSends (x : Nat) (c : Ctx) : (setCtx s x c).ringSends = s.ringSends := rfl
@[simp] theorem setCtx_hostQ (x : Nat) (c : Ctx) : (setCtx s x c).hostQ = s.hostQ := rfl
@[simp] theorem setCtx_cdcCnt (x : Nat) (c : Ctx) : (setCtx s x c).cdcCnt = s.cdcCnt := rfl
@[simp] theorem setCtx_cfgSet (x : Nat) (c : Ctx) : (setCtx s x c).cfgSet = s.cfgSet := rfl
@[simp] theorem setCtx_routes (x : Nat) (c : Ctx) : (setCtx s x c).routes = s.routes := rfl
@[simp] theorem setCtx_ranks (x : Nat) (c : Ctx) : (setCtx s x c).ranks = s.ranks := rfl
@[simp] theorem setCtx_pastAddrs (x : Nat) (c : Ctx) : (setCtx s x c).pastAddrs = s.pastAddrs := rfl
@[simp] theorem setCtx_ports (x : Nat) (c : Ctx) : (setCtx s x c).ports = s.ports := rfl
@[simp] theorem setCtx_fabWait (x : Nat) (c : Ctx) : (setCtx s x c).fabWait = s.fabWait := rfl
@[simp] theorem setCtx_nextPkt (x : Nat) (c : Ctx) : (setCtx s x c).nextPkt = s.nextPkt := rfl
@[simp] theorem setCtx_handed (x : Nat) (c : Ctx) : (setCtx s x c).handed = s.handed := rfl
@[simp] theorem setCtx_swarm (x : Nat) (c : Ctx) : (setCtx s x c).swarm = s.swarm := rfl
@[simp] theorem setCtx_hum (x : Nat) (c : Ctx) : (setCtx s x c).hum = s.hum := rfl
@[simp] theorem setCtx_pwr (x : Nat) (c : Ctx) : (setCtx s x c).pwr = s.pwr := rfl
@[simp] theorem setCtx_models (x : Nat) (c : Ctx) : (setCtx s x c).models = s.models := rfl
@[simp] theorem setCtx_streams (x : Nat) (c : Ctx) : (setCtx s x c).streams = s.streams := rfl
@[simp] theorem setCtx_serv (x : Nat) (c : Ctx) : (setCtx s x c).serv = s.serv := rfl
@[simp] theorem setCtx_classes (x : Nat) (c : Ctx) : (setCtx s x c).classes = s.classes := rfl
@[simp] theorem setCtx_eth (x : Nat) (c : Ctx) : (setCtx s x c).eth = s.eth := rfl
@[simp] theorem setCtx_sessions (x : Nat) (c : Ctx) : (setCtx s x c).sessions = s.sessions := rfl
@[simp] theorem setCtx_uploads (x : Nat) (c : Ctx) : (setCtx s x c).uploads = s.uploads := rfl
@[simp] theorem setCtx_waitLoads (x : Nat) (c : Ctx) : (setCtx s x c).waitLoads = s.waitLoads := rfl
@[simp] theorem setCtx_prp (x : Nat) (c : Ctx) : (setCtx s x c).prp = s.prp := rfl
@[simp] theorem setCtx_keeper (x : Nat) (c : Ctx) : (setCtx s x c).keeper = s.keeper := rfl
@[simp] theorem setCtx_pins (x : Nat) (c : Ctx) : (setCtx s x c).pins = s.pins := rfl
@[simp] theorem setCtx_takeover (x : Nat) (c : Ctx) : (setCtx s x c).takeover = s.takeover := rfl
@[simp] theorem setCtx_resume (x : Nat) (c : Ctx) : (setCtx s x c).resume = s.resume := rfl
@[simp] theorem setCtx_saved (x : Nat) (c : Ctx) : (setCtx s x c).saved = s.saved := rfl

@[simp] theorem setCore_pending (x l : Nat) (k : CoreCtx) : (setCore s x l k).pending = s.pending := rfl
@[simp] theorem setCore_free (x l : Nat) (k : CoreCtx) : (setCore s x l k).free = s.free := rfl
@[simp] theorem setCore_out (x l : Nat) (k : CoreCtx) : (setCore s x l k).out = s.out := rfl
@[simp] theorem setCore_regs (x l : Nat) (k : CoreCtx) : (setCore s x l k).regs = s.regs := rfl
@[simp] theorem setCore_mem (x l : Nat) (k : CoreCtx) : (setCore s x l k).mem = s.mem := rfl
@[simp] theorem setCore_poison (x l : Nat) (k : CoreCtx) : (setCore s x l k).poison = s.poison := rfl
@[simp] theorem setCore_comb (x l : Nat) (k : CoreCtx) : (setCore s x l k).comb = s.comb := rfl
@[simp] theorem setCore_lastCorr (x l : Nat) (k : CoreCtx) : (setCore s x l k).lastCorr = s.lastCorr := rfl
@[simp] theorem setCore_slices (x l : Nat) (k : CoreCtx) : (setCore s x l k).slices = s.slices := rfl
@[simp] theorem setCore_partCores (x l : Nat) (k : CoreCtx) : (setCore s x l k).partCores = s.partCores := rfl
@[simp] theorem setCore_chunkBufs (x l : Nat) (k : CoreCtx) : (setCore s x l k).chunkBufs = s.chunkBufs := rfl
@[simp] theorem setCore_train (x l : Nat) (k : CoreCtx) : (setCore s x l k).train = s.train := rfl
@[simp] theorem setCore_recs (x l : Nat) (k : CoreCtx) : (setCore s x l k).recs = s.recs := rfl
@[simp] theorem setCore_recSeq (x l : Nat) (k : CoreCtx) : (setCore s x l k).recSeq = s.recSeq := rfl
@[simp] theorem setCore_log (x l : Nat) (k : CoreCtx) : (setCore s x l k).log = s.log := rfl
@[simp] theorem setCore_logRate (x l : Nat) (k : CoreCtx) : (setCore s x l k).logRate = s.logRate := rfl
@[simp] theorem setCore_thrLogged (x l : Nat) (k : CoreCtx) : (setCore s x l k).thrLogged = s.thrLogged := rfl
@[simp] theorem setCore_rowErrs (x l : Nat) (k : CoreCtx) : (setCore s x l k).rowErrs = s.rowErrs := rfl
@[simp] theorem setCore_flags (x l : Nat) (k : CoreCtx) : (setCore s x l k).flags = s.flags := rfl
@[simp] theorem setCore_bars (x l : Nat) (k : CoreCtx) : (setCore s x l k).bars = s.bars := rfl
@[simp] theorem setCore_waitSeq (x l : Nat) (k : CoreCtx) : (setCore s x l k).waitSeq = s.waitSeq := rfl
@[simp] theorem setCore_rings (x l : Nat) (k : CoreCtx) : (setCore s x l k).rings = s.rings := rfl
@[simp] theorem setCore_grps (x l : Nat) (k : CoreCtx) : (setCore s x l k).grps = s.grps := rfl
@[simp] theorem setCore_trees (x l : Nat) (k : CoreCtx) : (setCore s x l k).trees = s.trees := rfl
@[simp] theorem setCore_cells (x l : Nat) (k : CoreCtx) : (setCore s x l k).cells = s.cells := rfl
@[simp] theorem setCore_ringSends (x l : Nat) (k : CoreCtx) : (setCore s x l k).ringSends = s.ringSends := rfl
@[simp] theorem setCore_hostQ (x l : Nat) (k : CoreCtx) : (setCore s x l k).hostQ = s.hostQ := rfl
@[simp] theorem setCore_cdcCnt (x l : Nat) (k : CoreCtx) : (setCore s x l k).cdcCnt = s.cdcCnt := rfl
@[simp] theorem setCore_cfgSet (x l : Nat) (k : CoreCtx) : (setCore s x l k).cfgSet = s.cfgSet := rfl
@[simp] theorem setCore_routes (x l : Nat) (k : CoreCtx) : (setCore s x l k).routes = s.routes := rfl
@[simp] theorem setCore_ranks (x l : Nat) (k : CoreCtx) : (setCore s x l k).ranks = s.ranks := rfl
@[simp] theorem setCore_pastAddrs (x l : Nat) (k : CoreCtx) : (setCore s x l k).pastAddrs = s.pastAddrs := rfl
@[simp] theorem setCore_ports (x l : Nat) (k : CoreCtx) : (setCore s x l k).ports = s.ports := rfl
@[simp] theorem setCore_fabWait (x l : Nat) (k : CoreCtx) : (setCore s x l k).fabWait = s.fabWait := rfl
@[simp] theorem setCore_nextPkt (x l : Nat) (k : CoreCtx) : (setCore s x l k).nextPkt = s.nextPkt := rfl
@[simp] theorem setCore_handed (x l : Nat) (k : CoreCtx) : (setCore s x l k).handed = s.handed := rfl
@[simp] theorem setCore_swarm (x l : Nat) (k : CoreCtx) : (setCore s x l k).swarm = s.swarm := rfl
@[simp] theorem setCore_hum (x l : Nat) (k : CoreCtx) : (setCore s x l k).hum = s.hum := rfl
@[simp] theorem setCore_pwr (x l : Nat) (k : CoreCtx) : (setCore s x l k).pwr = s.pwr := rfl
@[simp] theorem setCore_models (x l : Nat) (k : CoreCtx) : (setCore s x l k).models = s.models := rfl
@[simp] theorem setCore_streams (x l : Nat) (k : CoreCtx) : (setCore s x l k).streams = s.streams := rfl
@[simp] theorem setCore_serv (x l : Nat) (k : CoreCtx) : (setCore s x l k).serv = s.serv := rfl
@[simp] theorem setCore_classes (x l : Nat) (k : CoreCtx) : (setCore s x l k).classes = s.classes := rfl
@[simp] theorem setCore_eth (x l : Nat) (k : CoreCtx) : (setCore s x l k).eth = s.eth := rfl
@[simp] theorem setCore_sessions (x l : Nat) (k : CoreCtx) : (setCore s x l k).sessions = s.sessions := rfl
@[simp] theorem setCore_uploads (x l : Nat) (k : CoreCtx) : (setCore s x l k).uploads = s.uploads := rfl
@[simp] theorem setCore_waitLoads (x l : Nat) (k : CoreCtx) : (setCore s x l k).waitLoads = s.waitLoads := rfl
@[simp] theorem setCore_prp (x l : Nat) (k : CoreCtx) : (setCore s x l k).prp = s.prp := rfl
@[simp] theorem setCore_keeper (x l : Nat) (k : CoreCtx) : (setCore s x l k).keeper = s.keeper := rfl
@[simp] theorem setCore_pins (x l : Nat) (k : CoreCtx) : (setCore s x l k).pins = s.pins := rfl
@[simp] theorem setCore_takeover (x l : Nat) (k : CoreCtx) : (setCore s x l k).takeover = s.takeover := rfl
@[simp] theorem setCore_resume (x l : Nat) (k : CoreCtx) : (setCore s x l k).resume = s.resume := rfl
@[simp] theorem setCore_saved (x l : Nat) (k : CoreCtx) : (setCore s x l k).saved = s.saved := rfl

@[simp] theorem setRun_pending (x l : Nat) (r : Option Running) : (setRun s x l r).pending = s.pending := rfl
@[simp] theorem setRun_free (x l : Nat) (r : Option Running) : (setRun s x l r).free = s.free := rfl
@[simp] theorem setRun_out (x l : Nat) (r : Option Running) : (setRun s x l r).out = s.out := rfl
@[simp] theorem setRun_regs (x l : Nat) (r : Option Running) : (setRun s x l r).regs = s.regs := rfl
@[simp] theorem setRun_mem (x l : Nat) (r : Option Running) : (setRun s x l r).mem = s.mem := rfl
@[simp] theorem setRun_poison (x l : Nat) (r : Option Running) : (setRun s x l r).poison = s.poison := rfl
@[simp] theorem setRun_comb (x l : Nat) (r : Option Running) : (setRun s x l r).comb = s.comb := rfl
@[simp] theorem setRun_lastCorr (x l : Nat) (r : Option Running) : (setRun s x l r).lastCorr = s.lastCorr := rfl
@[simp] theorem setRun_slices (x l : Nat) (r : Option Running) : (setRun s x l r).slices = s.slices := rfl
@[simp] theorem setRun_partCores (x l : Nat) (r : Option Running) : (setRun s x l r).partCores = s.partCores := rfl
@[simp] theorem setRun_chunkBufs (x l : Nat) (r : Option Running) : (setRun s x l r).chunkBufs = s.chunkBufs := rfl
@[simp] theorem setRun_train (x l : Nat) (r : Option Running) : (setRun s x l r).train = s.train := rfl
@[simp] theorem setRun_recs (x l : Nat) (r : Option Running) : (setRun s x l r).recs = s.recs := rfl
@[simp] theorem setRun_recSeq (x l : Nat) (r : Option Running) : (setRun s x l r).recSeq = s.recSeq := rfl
@[simp] theorem setRun_log (x l : Nat) (r : Option Running) : (setRun s x l r).log = s.log := rfl
@[simp] theorem setRun_logRate (x l : Nat) (r : Option Running) : (setRun s x l r).logRate = s.logRate := rfl
@[simp] theorem setRun_thrLogged (x l : Nat) (r : Option Running) : (setRun s x l r).thrLogged = s.thrLogged := rfl
@[simp] theorem setRun_rowErrs (x l : Nat) (r : Option Running) : (setRun s x l r).rowErrs = s.rowErrs := rfl
@[simp] theorem setRun_flags (x l : Nat) (r : Option Running) : (setRun s x l r).flags = s.flags := rfl
@[simp] theorem setRun_bars (x l : Nat) (r : Option Running) : (setRun s x l r).bars = s.bars := rfl
@[simp] theorem setRun_waitSeq (x l : Nat) (r : Option Running) : (setRun s x l r).waitSeq = s.waitSeq := rfl
@[simp] theorem setRun_rings (x l : Nat) (r : Option Running) : (setRun s x l r).rings = s.rings := rfl
@[simp] theorem setRun_grps (x l : Nat) (r : Option Running) : (setRun s x l r).grps = s.grps := rfl
@[simp] theorem setRun_trees (x l : Nat) (r : Option Running) : (setRun s x l r).trees = s.trees := rfl
@[simp] theorem setRun_cells (x l : Nat) (r : Option Running) : (setRun s x l r).cells = s.cells := rfl
@[simp] theorem setRun_ringSends (x l : Nat) (r : Option Running) : (setRun s x l r).ringSends = s.ringSends := rfl
@[simp] theorem setRun_hostQ (x l : Nat) (r : Option Running) : (setRun s x l r).hostQ = s.hostQ := rfl
@[simp] theorem setRun_cdcCnt (x l : Nat) (r : Option Running) : (setRun s x l r).cdcCnt = s.cdcCnt := rfl
@[simp] theorem setRun_cfgSet (x l : Nat) (r : Option Running) : (setRun s x l r).cfgSet = s.cfgSet := rfl
@[simp] theorem setRun_routes (x l : Nat) (r : Option Running) : (setRun s x l r).routes = s.routes := rfl
@[simp] theorem setRun_ranks (x l : Nat) (r : Option Running) : (setRun s x l r).ranks = s.ranks := rfl
@[simp] theorem setRun_pastAddrs (x l : Nat) (r : Option Running) : (setRun s x l r).pastAddrs = s.pastAddrs := rfl
@[simp] theorem setRun_ports (x l : Nat) (r : Option Running) : (setRun s x l r).ports = s.ports := rfl
@[simp] theorem setRun_fabWait (x l : Nat) (r : Option Running) : (setRun s x l r).fabWait = s.fabWait := rfl
@[simp] theorem setRun_nextPkt (x l : Nat) (r : Option Running) : (setRun s x l r).nextPkt = s.nextPkt := rfl
@[simp] theorem setRun_handed (x l : Nat) (r : Option Running) : (setRun s x l r).handed = s.handed := rfl
@[simp] theorem setRun_swarm (x l : Nat) (r : Option Running) : (setRun s x l r).swarm = s.swarm := rfl
@[simp] theorem setRun_hum (x l : Nat) (r : Option Running) : (setRun s x l r).hum = s.hum := rfl
@[simp] theorem setRun_pwr (x l : Nat) (r : Option Running) : (setRun s x l r).pwr = s.pwr := rfl
@[simp] theorem setRun_models (x l : Nat) (r : Option Running) : (setRun s x l r).models = s.models := rfl
@[simp] theorem setRun_streams (x l : Nat) (r : Option Running) : (setRun s x l r).streams = s.streams := rfl
@[simp] theorem setRun_serv (x l : Nat) (r : Option Running) : (setRun s x l r).serv = s.serv := rfl
@[simp] theorem setRun_classes (x l : Nat) (r : Option Running) : (setRun s x l r).classes = s.classes := rfl
@[simp] theorem setRun_eth (x l : Nat) (r : Option Running) : (setRun s x l r).eth = s.eth := rfl
@[simp] theorem setRun_sessions (x l : Nat) (r : Option Running) : (setRun s x l r).sessions = s.sessions := rfl
@[simp] theorem setRun_uploads (x l : Nat) (r : Option Running) : (setRun s x l r).uploads = s.uploads := rfl
@[simp] theorem setRun_waitLoads (x l : Nat) (r : Option Running) : (setRun s x l r).waitLoads = s.waitLoads := rfl
@[simp] theorem setRun_prp (x l : Nat) (r : Option Running) : (setRun s x l r).prp = s.prp := rfl
@[simp] theorem setRun_keeper (x l : Nat) (r : Option Running) : (setRun s x l r).keeper = s.keeper := rfl
@[simp] theorem setRun_pins (x l : Nat) (r : Option Running) : (setRun s x l r).pins = s.pins := rfl
@[simp] theorem setRun_takeover (x l : Nat) (r : Option Running) : (setRun s x l r).takeover = s.takeover := rfl
@[simp] theorem setRun_resume (x l : Nat) (r : Option Running) : (setRun s x l r).resume = s.resume := rfl
@[simp] theorem setRun_saved (x l : Nat) (r : Option Running) : (setRun s x l r).saved = s.saved := rfl

@[simp] theorem setSlice_pending (p : Nat) (v : Slice) : (setSlice s p v).pending = s.pending := rfl
@[simp] theorem setSlice_free (p : Nat) (v : Slice) : (setSlice s p v).free = s.free := rfl
@[simp] theorem setSlice_out (p : Nat) (v : Slice) : (setSlice s p v).out = s.out := rfl
@[simp] theorem setSlice_regs (p : Nat) (v : Slice) : (setSlice s p v).regs = s.regs := rfl
@[simp] theorem setSlice_mem (p : Nat) (v : Slice) : (setSlice s p v).mem = s.mem := rfl
@[simp] theorem setSlice_poison (p : Nat) (v : Slice) : (setSlice s p v).poison = s.poison := rfl
@[simp] theorem setSlice_comb (p : Nat) (v : Slice) : (setSlice s p v).comb = s.comb := rfl
@[simp] theorem setSlice_lastCorr (p : Nat) (v : Slice) : (setSlice s p v).lastCorr = s.lastCorr := rfl
@[simp] theorem setSlice_ctxs (p : Nat) (v : Slice) : (setSlice s p v).ctxs = s.ctxs := rfl
@[simp] theorem setSlice_partCores (p : Nat) (v : Slice) : (setSlice s p v).partCores = s.partCores := rfl
@[simp] theorem setSlice_chunkBufs (p : Nat) (v : Slice) : (setSlice s p v).chunkBufs = s.chunkBufs := rfl
@[simp] theorem setSlice_train (p : Nat) (v : Slice) : (setSlice s p v).train = s.train := rfl
@[simp] theorem setSlice_recs (p : Nat) (v : Slice) : (setSlice s p v).recs = s.recs := rfl
@[simp] theorem setSlice_recSeq (p : Nat) (v : Slice) : (setSlice s p v).recSeq = s.recSeq := rfl
@[simp] theorem setSlice_log (p : Nat) (v : Slice) : (setSlice s p v).log = s.log := rfl
@[simp] theorem setSlice_logRate (p : Nat) (v : Slice) : (setSlice s p v).logRate = s.logRate := rfl
@[simp] theorem setSlice_thrLogged (p : Nat) (v : Slice) : (setSlice s p v).thrLogged = s.thrLogged := rfl
@[simp] theorem setSlice_rowErrs (p : Nat) (v : Slice) : (setSlice s p v).rowErrs = s.rowErrs := rfl
@[simp] theorem setSlice_flags (p : Nat) (v : Slice) : (setSlice s p v).flags = s.flags := rfl
@[simp] theorem setSlice_bars (p : Nat) (v : Slice) : (setSlice s p v).bars = s.bars := rfl
@[simp] theorem setSlice_waitSeq (p : Nat) (v : Slice) : (setSlice s p v).waitSeq = s.waitSeq := rfl
@[simp] theorem setSlice_rings (p : Nat) (v : Slice) : (setSlice s p v).rings = s.rings := rfl
@[simp] theorem setSlice_grps (p : Nat) (v : Slice) : (setSlice s p v).grps = s.grps := rfl
@[simp] theorem setSlice_trees (p : Nat) (v : Slice) : (setSlice s p v).trees = s.trees := rfl
@[simp] theorem setSlice_cells (p : Nat) (v : Slice) : (setSlice s p v).cells = s.cells := rfl
@[simp] theorem setSlice_ringSends (p : Nat) (v : Slice) : (setSlice s p v).ringSends = s.ringSends := rfl
@[simp] theorem setSlice_hostQ (p : Nat) (v : Slice) : (setSlice s p v).hostQ = s.hostQ := rfl
@[simp] theorem setSlice_cdcCnt (p : Nat) (v : Slice) : (setSlice s p v).cdcCnt = s.cdcCnt := rfl
@[simp] theorem setSlice_cfgSet (p : Nat) (v : Slice) : (setSlice s p v).cfgSet = s.cfgSet := rfl
@[simp] theorem setSlice_routes (p : Nat) (v : Slice) : (setSlice s p v).routes = s.routes := rfl
@[simp] theorem setSlice_ranks (p : Nat) (v : Slice) : (setSlice s p v).ranks = s.ranks := rfl
@[simp] theorem setSlice_pastAddrs (p : Nat) (v : Slice) : (setSlice s p v).pastAddrs = s.pastAddrs := rfl
@[simp] theorem setSlice_ports (p : Nat) (v : Slice) : (setSlice s p v).ports = s.ports := rfl
@[simp] theorem setSlice_fabWait (p : Nat) (v : Slice) : (setSlice s p v).fabWait = s.fabWait := rfl
@[simp] theorem setSlice_nextPkt (p : Nat) (v : Slice) : (setSlice s p v).nextPkt = s.nextPkt := rfl
@[simp] theorem setSlice_handed (p : Nat) (v : Slice) : (setSlice s p v).handed = s.handed := rfl
@[simp] theorem setSlice_swarm (p : Nat) (v : Slice) : (setSlice s p v).swarm = s.swarm := rfl
@[simp] theorem setSlice_hum (p : Nat) (v : Slice) : (setSlice s p v).hum = s.hum := rfl
@[simp] theorem setSlice_pwr (p : Nat) (v : Slice) : (setSlice s p v).pwr = s.pwr := rfl
@[simp] theorem setSlice_models (p : Nat) (v : Slice) : (setSlice s p v).models = s.models := rfl
@[simp] theorem setSlice_streams (p : Nat) (v : Slice) : (setSlice s p v).streams = s.streams := rfl
@[simp] theorem setSlice_serv (p : Nat) (v : Slice) : (setSlice s p v).serv = s.serv := rfl
@[simp] theorem setSlice_classes (p : Nat) (v : Slice) : (setSlice s p v).classes = s.classes := rfl
@[simp] theorem setSlice_eth (p : Nat) (v : Slice) : (setSlice s p v).eth = s.eth := rfl
@[simp] theorem setSlice_sessions (p : Nat) (v : Slice) : (setSlice s p v).sessions = s.sessions := rfl
@[simp] theorem setSlice_uploads (p : Nat) (v : Slice) : (setSlice s p v).uploads = s.uploads := rfl
@[simp] theorem setSlice_waitLoads (p : Nat) (v : Slice) : (setSlice s p v).waitLoads = s.waitLoads := rfl
@[simp] theorem setSlice_prp (p : Nat) (v : Slice) : (setSlice s p v).prp = s.prp := rfl
@[simp] theorem setSlice_keeper (p : Nat) (v : Slice) : (setSlice s p v).keeper = s.keeper := rfl
@[simp] theorem setSlice_pins (p : Nat) (v : Slice) : (setSlice s p v).pins = s.pins := rfl
@[simp] theorem setSlice_takeover (p : Nat) (v : Slice) : (setSlice s p v).takeover = s.takeover := rfl
@[simp] theorem setSlice_resume (p : Nat) (v : Slice) : (setSlice s p v).resume = s.resume := rfl
@[simp] theorem setSlice_saved (p : Nat) (v : Slice) : (setSlice s p v).saved = s.saved := rfl

@[simp] theorem setTrain_pending (p : Nat) (v : Train) : (setTrain s p v).pending = s.pending := rfl
@[simp] theorem setTrain_free (p : Nat) (v : Train) : (setTrain s p v).free = s.free := rfl
@[simp] theorem setTrain_out (p : Nat) (v : Train) : (setTrain s p v).out = s.out := rfl
@[simp] theorem setTrain_regs (p : Nat) (v : Train) : (setTrain s p v).regs = s.regs := rfl
@[simp] theorem setTrain_mem (p : Nat) (v : Train) : (setTrain s p v).mem = s.mem := rfl
@[simp] theorem setTrain_poison (p : Nat) (v : Train) : (setTrain s p v).poison = s.poison := rfl
@[simp] theorem setTrain_comb (p : Nat) (v : Train) : (setTrain s p v).comb = s.comb := rfl
@[simp] theorem setTrain_lastCorr (p : Nat) (v : Train) : (setTrain s p v).lastCorr = s.lastCorr := rfl
@[simp] theorem setTrain_ctxs (p : Nat) (v : Train) : (setTrain s p v).ctxs = s.ctxs := rfl
@[simp] theorem setTrain_slices (p : Nat) (v : Train) : (setTrain s p v).slices = s.slices := rfl
@[simp] theorem setTrain_partCores (p : Nat) (v : Train) : (setTrain s p v).partCores = s.partCores := rfl
@[simp] theorem setTrain_chunkBufs (p : Nat) (v : Train) : (setTrain s p v).chunkBufs = s.chunkBufs := rfl
@[simp] theorem setTrain_recs (p : Nat) (v : Train) : (setTrain s p v).recs = s.recs := rfl
@[simp] theorem setTrain_recSeq (p : Nat) (v : Train) : (setTrain s p v).recSeq = s.recSeq := rfl
@[simp] theorem setTrain_log (p : Nat) (v : Train) : (setTrain s p v).log = s.log := rfl
@[simp] theorem setTrain_logRate (p : Nat) (v : Train) : (setTrain s p v).logRate = s.logRate := rfl
@[simp] theorem setTrain_thrLogged (p : Nat) (v : Train) : (setTrain s p v).thrLogged = s.thrLogged := rfl
@[simp] theorem setTrain_rowErrs (p : Nat) (v : Train) : (setTrain s p v).rowErrs = s.rowErrs := rfl
@[simp] theorem setTrain_flags (p : Nat) (v : Train) : (setTrain s p v).flags = s.flags := rfl
@[simp] theorem setTrain_bars (p : Nat) (v : Train) : (setTrain s p v).bars = s.bars := rfl
@[simp] theorem setTrain_waitSeq (p : Nat) (v : Train) : (setTrain s p v).waitSeq = s.waitSeq := rfl
@[simp] theorem setTrain_rings (p : Nat) (v : Train) : (setTrain s p v).rings = s.rings := rfl
@[simp] theorem setTrain_grps (p : Nat) (v : Train) : (setTrain s p v).grps = s.grps := rfl
@[simp] theorem setTrain_trees (p : Nat) (v : Train) : (setTrain s p v).trees = s.trees := rfl
@[simp] theorem setTrain_cells (p : Nat) (v : Train) : (setTrain s p v).cells = s.cells := rfl
@[simp] theorem setTrain_ringSends (p : Nat) (v : Train) : (setTrain s p v).ringSends = s.ringSends := rfl
@[simp] theorem setTrain_hostQ (p : Nat) (v : Train) : (setTrain s p v).hostQ = s.hostQ := rfl
@[simp] theorem setTrain_cdcCnt (p : Nat) (v : Train) : (setTrain s p v).cdcCnt = s.cdcCnt := rfl
@[simp] theorem setTrain_cfgSet (p : Nat) (v : Train) : (setTrain s p v).cfgSet = s.cfgSet := rfl
@[simp] theorem setTrain_routes (p : Nat) (v : Train) : (setTrain s p v).routes = s.routes := rfl
@[simp] theorem setTrain_ranks (p : Nat) (v : Train) : (setTrain s p v).ranks = s.ranks := rfl
@[simp] theorem setTrain_pastAddrs (p : Nat) (v : Train) : (setTrain s p v).pastAddrs = s.pastAddrs := rfl
@[simp] theorem setTrain_ports (p : Nat) (v : Train) : (setTrain s p v).ports = s.ports := rfl
@[simp] theorem setTrain_fabWait (p : Nat) (v : Train) : (setTrain s p v).fabWait = s.fabWait := rfl
@[simp] theorem setTrain_nextPkt (p : Nat) (v : Train) : (setTrain s p v).nextPkt = s.nextPkt := rfl
@[simp] theorem setTrain_handed (p : Nat) (v : Train) : (setTrain s p v).handed = s.handed := rfl
@[simp] theorem setTrain_swarm (p : Nat) (v : Train) : (setTrain s p v).swarm = s.swarm := rfl
@[simp] theorem setTrain_hum (p : Nat) (v : Train) : (setTrain s p v).hum = s.hum := rfl
@[simp] theorem setTrain_pwr (p : Nat) (v : Train) : (setTrain s p v).pwr = s.pwr := rfl
@[simp] theorem setTrain_models (p : Nat) (v : Train) : (setTrain s p v).models = s.models := rfl
@[simp] theorem setTrain_streams (p : Nat) (v : Train) : (setTrain s p v).streams = s.streams := rfl
@[simp] theorem setTrain_serv (p : Nat) (v : Train) : (setTrain s p v).serv = s.serv := rfl
@[simp] theorem setTrain_classes (p : Nat) (v : Train) : (setTrain s p v).classes = s.classes := rfl
@[simp] theorem setTrain_eth (p : Nat) (v : Train) : (setTrain s p v).eth = s.eth := rfl
@[simp] theorem setTrain_sessions (p : Nat) (v : Train) : (setTrain s p v).sessions = s.sessions := rfl
@[simp] theorem setTrain_uploads (p : Nat) (v : Train) : (setTrain s p v).uploads = s.uploads := rfl
@[simp] theorem setTrain_waitLoads (p : Nat) (v : Train) : (setTrain s p v).waitLoads = s.waitLoads := rfl
@[simp] theorem setTrain_prp (p : Nat) (v : Train) : (setTrain s p v).prp = s.prp := rfl
@[simp] theorem setTrain_keeper (p : Nat) (v : Train) : (setTrain s p v).keeper = s.keeper := rfl
@[simp] theorem setTrain_pins (p : Nat) (v : Train) : (setTrain s p v).pins = s.pins := rfl
@[simp] theorem setTrain_takeover (p : Nat) (v : Train) : (setTrain s p v).takeover = s.takeover := rfl
@[simp] theorem setTrain_resume (p : Nat) (v : Train) : (setTrain s p v).resume = s.resume := rfl
@[simp] theorem setTrain_saved (p : Nat) (v : Train) : (setTrain s p v).saved = s.saved := rfl

@[simp] theorem setFlag_pending (f : Nat) (v : FlagSt) : (setFlag s f v).pending = s.pending := rfl
@[simp] theorem setFlag_free (f : Nat) (v : FlagSt) : (setFlag s f v).free = s.free := rfl
@[simp] theorem setFlag_out (f : Nat) (v : FlagSt) : (setFlag s f v).out = s.out := rfl
@[simp] theorem setFlag_regs (f : Nat) (v : FlagSt) : (setFlag s f v).regs = s.regs := rfl
@[simp] theorem setFlag_mem (f : Nat) (v : FlagSt) : (setFlag s f v).mem = s.mem := rfl
@[simp] theorem setFlag_poison (f : Nat) (v : FlagSt) : (setFlag s f v).poison = s.poison := rfl
@[simp] theorem setFlag_comb (f : Nat) (v : FlagSt) : (setFlag s f v).comb = s.comb := rfl
@[simp] theorem setFlag_lastCorr (f : Nat) (v : FlagSt) : (setFlag s f v).lastCorr = s.lastCorr := rfl
@[simp] theorem setFlag_ctxs (f : Nat) (v : FlagSt) : (setFlag s f v).ctxs = s.ctxs := rfl
@[simp] theorem setFlag_slices (f : Nat) (v : FlagSt) : (setFlag s f v).slices = s.slices := rfl
@[simp] theorem setFlag_partCores (f : Nat) (v : FlagSt) : (setFlag s f v).partCores = s.partCores := rfl
@[simp] theorem setFlag_chunkBufs (f : Nat) (v : FlagSt) : (setFlag s f v).chunkBufs = s.chunkBufs := rfl
@[simp] theorem setFlag_train (f : Nat) (v : FlagSt) : (setFlag s f v).train = s.train := rfl
@[simp] theorem setFlag_recs (f : Nat) (v : FlagSt) : (setFlag s f v).recs = s.recs := rfl
@[simp] theorem setFlag_recSeq (f : Nat) (v : FlagSt) : (setFlag s f v).recSeq = s.recSeq := rfl
@[simp] theorem setFlag_log (f : Nat) (v : FlagSt) : (setFlag s f v).log = s.log := rfl
@[simp] theorem setFlag_logRate (f : Nat) (v : FlagSt) : (setFlag s f v).logRate = s.logRate := rfl
@[simp] theorem setFlag_thrLogged (f : Nat) (v : FlagSt) : (setFlag s f v).thrLogged = s.thrLogged := rfl
@[simp] theorem setFlag_rowErrs (f : Nat) (v : FlagSt) : (setFlag s f v).rowErrs = s.rowErrs := rfl
@[simp] theorem setFlag_bars (f : Nat) (v : FlagSt) : (setFlag s f v).bars = s.bars := rfl
@[simp] theorem setFlag_waitSeq (f : Nat) (v : FlagSt) : (setFlag s f v).waitSeq = s.waitSeq := rfl
@[simp] theorem setFlag_rings (f : Nat) (v : FlagSt) : (setFlag s f v).rings = s.rings := rfl
@[simp] theorem setFlag_grps (f : Nat) (v : FlagSt) : (setFlag s f v).grps = s.grps := rfl
@[simp] theorem setFlag_trees (f : Nat) (v : FlagSt) : (setFlag s f v).trees = s.trees := rfl
@[simp] theorem setFlag_cells (f : Nat) (v : FlagSt) : (setFlag s f v).cells = s.cells := rfl
@[simp] theorem setFlag_ringSends (f : Nat) (v : FlagSt) : (setFlag s f v).ringSends = s.ringSends := rfl
@[simp] theorem setFlag_hostQ (f : Nat) (v : FlagSt) : (setFlag s f v).hostQ = s.hostQ := rfl
@[simp] theorem setFlag_cdcCnt (f : Nat) (v : FlagSt) : (setFlag s f v).cdcCnt = s.cdcCnt := rfl
@[simp] theorem setFlag_cfgSet (f : Nat) (v : FlagSt) : (setFlag s f v).cfgSet = s.cfgSet := rfl
@[simp] theorem setFlag_routes (f : Nat) (v : FlagSt) : (setFlag s f v).routes = s.routes := rfl
@[simp] theorem setFlag_ranks (f : Nat) (v : FlagSt) : (setFlag s f v).ranks = s.ranks := rfl
@[simp] theorem setFlag_pastAddrs (f : Nat) (v : FlagSt) : (setFlag s f v).pastAddrs = s.pastAddrs := rfl
@[simp] theorem setFlag_ports (f : Nat) (v : FlagSt) : (setFlag s f v).ports = s.ports := rfl
@[simp] theorem setFlag_fabWait (f : Nat) (v : FlagSt) : (setFlag s f v).fabWait = s.fabWait := rfl
@[simp] theorem setFlag_nextPkt (f : Nat) (v : FlagSt) : (setFlag s f v).nextPkt = s.nextPkt := rfl
@[simp] theorem setFlag_handed (f : Nat) (v : FlagSt) : (setFlag s f v).handed = s.handed := rfl
@[simp] theorem setFlag_swarm (f : Nat) (v : FlagSt) : (setFlag s f v).swarm = s.swarm := rfl
@[simp] theorem setFlag_hum (f : Nat) (v : FlagSt) : (setFlag s f v).hum = s.hum := rfl
@[simp] theorem setFlag_pwr (f : Nat) (v : FlagSt) : (setFlag s f v).pwr = s.pwr := rfl
@[simp] theorem setFlag_models (f : Nat) (v : FlagSt) : (setFlag s f v).models = s.models := rfl
@[simp] theorem setFlag_streams (f : Nat) (v : FlagSt) : (setFlag s f v).streams = s.streams := rfl
@[simp] theorem setFlag_serv (f : Nat) (v : FlagSt) : (setFlag s f v).serv = s.serv := rfl
@[simp] theorem setFlag_classes (f : Nat) (v : FlagSt) : (setFlag s f v).classes = s.classes := rfl
@[simp] theorem setFlag_eth (f : Nat) (v : FlagSt) : (setFlag s f v).eth = s.eth := rfl
@[simp] theorem setFlag_sessions (f : Nat) (v : FlagSt) : (setFlag s f v).sessions = s.sessions := rfl
@[simp] theorem setFlag_uploads (f : Nat) (v : FlagSt) : (setFlag s f v).uploads = s.uploads := rfl
@[simp] theorem setFlag_waitLoads (f : Nat) (v : FlagSt) : (setFlag s f v).waitLoads = s.waitLoads := rfl
@[simp] theorem setFlag_prp (f : Nat) (v : FlagSt) : (setFlag s f v).prp = s.prp := rfl
@[simp] theorem setFlag_keeper (f : Nat) (v : FlagSt) : (setFlag s f v).keeper = s.keeper := rfl
@[simp] theorem setFlag_pins (f : Nat) (v : FlagSt) : (setFlag s f v).pins = s.pins := rfl
@[simp] theorem setFlag_takeover (f : Nat) (v : FlagSt) : (setFlag s f v).takeover = s.takeover := rfl
@[simp] theorem setFlag_resume (f : Nat) (v : FlagSt) : (setFlag s f v).resume = s.resume := rfl
@[simp] theorem setFlag_saved (f : Nat) (v : FlagSt) : (setFlag s f v).saved = s.saved := rfl

@[simp] theorem setBar_pending (b : Nat) (v : BarSt) : (setBar s b v).pending = s.pending := rfl
@[simp] theorem setBar_free (b : Nat) (v : BarSt) : (setBar s b v).free = s.free := rfl
@[simp] theorem setBar_out (b : Nat) (v : BarSt) : (setBar s b v).out = s.out := rfl
@[simp] theorem setBar_regs (b : Nat) (v : BarSt) : (setBar s b v).regs = s.regs := rfl
@[simp] theorem setBar_mem (b : Nat) (v : BarSt) : (setBar s b v).mem = s.mem := rfl
@[simp] theorem setBar_poison (b : Nat) (v : BarSt) : (setBar s b v).poison = s.poison := rfl
@[simp] theorem setBar_comb (b : Nat) (v : BarSt) : (setBar s b v).comb = s.comb := rfl
@[simp] theorem setBar_lastCorr (b : Nat) (v : BarSt) : (setBar s b v).lastCorr = s.lastCorr := rfl
@[simp] theorem setBar_ctxs (b : Nat) (v : BarSt) : (setBar s b v).ctxs = s.ctxs := rfl
@[simp] theorem setBar_slices (b : Nat) (v : BarSt) : (setBar s b v).slices = s.slices := rfl
@[simp] theorem setBar_partCores (b : Nat) (v : BarSt) : (setBar s b v).partCores = s.partCores := rfl
@[simp] theorem setBar_chunkBufs (b : Nat) (v : BarSt) : (setBar s b v).chunkBufs = s.chunkBufs := rfl
@[simp] theorem setBar_train (b : Nat) (v : BarSt) : (setBar s b v).train = s.train := rfl
@[simp] theorem setBar_recs (b : Nat) (v : BarSt) : (setBar s b v).recs = s.recs := rfl
@[simp] theorem setBar_recSeq (b : Nat) (v : BarSt) : (setBar s b v).recSeq = s.recSeq := rfl
@[simp] theorem setBar_log (b : Nat) (v : BarSt) : (setBar s b v).log = s.log := rfl
@[simp] theorem setBar_logRate (b : Nat) (v : BarSt) : (setBar s b v).logRate = s.logRate := rfl
@[simp] theorem setBar_thrLogged (b : Nat) (v : BarSt) : (setBar s b v).thrLogged = s.thrLogged := rfl
@[simp] theorem setBar_rowErrs (b : Nat) (v : BarSt) : (setBar s b v).rowErrs = s.rowErrs := rfl
@[simp] theorem setBar_flags (b : Nat) (v : BarSt) : (setBar s b v).flags = s.flags := rfl
@[simp] theorem setBar_waitSeq (b : Nat) (v : BarSt) : (setBar s b v).waitSeq = s.waitSeq := rfl
@[simp] theorem setBar_rings (b : Nat) (v : BarSt) : (setBar s b v).rings = s.rings := rfl
@[simp] theorem setBar_grps (b : Nat) (v : BarSt) : (setBar s b v).grps = s.grps := rfl
@[simp] theorem setBar_trees (b : Nat) (v : BarSt) : (setBar s b v).trees = s.trees := rfl
@[simp] theorem setBar_cells (b : Nat) (v : BarSt) : (setBar s b v).cells = s.cells := rfl
@[simp] theorem setBar_ringSends (b : Nat) (v : BarSt) : (setBar s b v).ringSends = s.ringSends := rfl
@[simp] theorem setBar_hostQ (b : Nat) (v : BarSt) : (setBar s b v).hostQ = s.hostQ := rfl
@[simp] theorem setBar_cdcCnt (b : Nat) (v : BarSt) : (setBar s b v).cdcCnt = s.cdcCnt := rfl
@[simp] theorem setBar_cfgSet (b : Nat) (v : BarSt) : (setBar s b v).cfgSet = s.cfgSet := rfl
@[simp] theorem setBar_routes (b : Nat) (v : BarSt) : (setBar s b v).routes = s.routes := rfl
@[simp] theorem setBar_ranks (b : Nat) (v : BarSt) : (setBar s b v).ranks = s.ranks := rfl
@[simp] theorem setBar_pastAddrs (b : Nat) (v : BarSt) : (setBar s b v).pastAddrs = s.pastAddrs := rfl
@[simp] theorem setBar_ports (b : Nat) (v : BarSt) : (setBar s b v).ports = s.ports := rfl
@[simp] theorem setBar_fabWait (b : Nat) (v : BarSt) : (setBar s b v).fabWait = s.fabWait := rfl
@[simp] theorem setBar_nextPkt (b : Nat) (v : BarSt) : (setBar s b v).nextPkt = s.nextPkt := rfl
@[simp] theorem setBar_handed (b : Nat) (v : BarSt) : (setBar s b v).handed = s.handed := rfl
@[simp] theorem setBar_swarm (b : Nat) (v : BarSt) : (setBar s b v).swarm = s.swarm := rfl
@[simp] theorem setBar_hum (b : Nat) (v : BarSt) : (setBar s b v).hum = s.hum := rfl
@[simp] theorem setBar_pwr (b : Nat) (v : BarSt) : (setBar s b v).pwr = s.pwr := rfl
@[simp] theorem setBar_models (b : Nat) (v : BarSt) : (setBar s b v).models = s.models := rfl
@[simp] theorem setBar_streams (b : Nat) (v : BarSt) : (setBar s b v).streams = s.streams := rfl
@[simp] theorem setBar_serv (b : Nat) (v : BarSt) : (setBar s b v).serv = s.serv := rfl
@[simp] theorem setBar_classes (b : Nat) (v : BarSt) : (setBar s b v).classes = s.classes := rfl
@[simp] theorem setBar_eth (b : Nat) (v : BarSt) : (setBar s b v).eth = s.eth := rfl
@[simp] theorem setBar_sessions (b : Nat) (v : BarSt) : (setBar s b v).sessions = s.sessions := rfl
@[simp] theorem setBar_uploads (b : Nat) (v : BarSt) : (setBar s b v).uploads = s.uploads := rfl
@[simp] theorem setBar_waitLoads (b : Nat) (v : BarSt) : (setBar s b v).waitLoads = s.waitLoads := rfl
@[simp] theorem setBar_prp (b : Nat) (v : BarSt) : (setBar s b v).prp = s.prp := rfl
@[simp] theorem setBar_keeper (b : Nat) (v : BarSt) : (setBar s b v).keeper = s.keeper := rfl
@[simp] theorem setBar_pins (b : Nat) (v : BarSt) : (setBar s b v).pins = s.pins := rfl
@[simp] theorem setBar_takeover (b : Nat) (v : BarSt) : (setBar s b v).takeover = s.takeover := rfl
@[simp] theorem setBar_resume (b : Nat) (v : BarSt) : (setBar s b v).resume = s.resume := rfl
@[simp] theorem setBar_saved (b : Nat) (v : BarSt) : (setBar s b v).saved = s.saved := rfl

@[simp] theorem setRing_pending (r : Nat) (v : Ring) : (setRing s r v).pending = s.pending := rfl
@[simp] theorem setRing_free (r : Nat) (v : Ring) : (setRing s r v).free = s.free := rfl
@[simp] theorem setRing_out (r : Nat) (v : Ring) : (setRing s r v).out = s.out := rfl
@[simp] theorem setRing_regs (r : Nat) (v : Ring) : (setRing s r v).regs = s.regs := rfl
@[simp] theorem setRing_mem (r : Nat) (v : Ring) : (setRing s r v).mem = s.mem := rfl
@[simp] theorem setRing_poison (r : Nat) (v : Ring) : (setRing s r v).poison = s.poison := rfl
@[simp] theorem setRing_comb (r : Nat) (v : Ring) : (setRing s r v).comb = s.comb := rfl
@[simp] theorem setRing_lastCorr (r : Nat) (v : Ring) : (setRing s r v).lastCorr = s.lastCorr := rfl
@[simp] theorem setRing_ctxs (r : Nat) (v : Ring) : (setRing s r v).ctxs = s.ctxs := rfl
@[simp] theorem setRing_slices (r : Nat) (v : Ring) : (setRing s r v).slices = s.slices := rfl
@[simp] theorem setRing_partCores (r : Nat) (v : Ring) : (setRing s r v).partCores = s.partCores := rfl
@[simp] theorem setRing_chunkBufs (r : Nat) (v : Ring) : (setRing s r v).chunkBufs = s.chunkBufs := rfl
@[simp] theorem setRing_train (r : Nat) (v : Ring) : (setRing s r v).train = s.train := rfl
@[simp] theorem setRing_recs (r : Nat) (v : Ring) : (setRing s r v).recs = s.recs := rfl
@[simp] theorem setRing_recSeq (r : Nat) (v : Ring) : (setRing s r v).recSeq = s.recSeq := rfl
@[simp] theorem setRing_log (r : Nat) (v : Ring) : (setRing s r v).log = s.log := rfl
@[simp] theorem setRing_logRate (r : Nat) (v : Ring) : (setRing s r v).logRate = s.logRate := rfl
@[simp] theorem setRing_thrLogged (r : Nat) (v : Ring) : (setRing s r v).thrLogged = s.thrLogged := rfl
@[simp] theorem setRing_rowErrs (r : Nat) (v : Ring) : (setRing s r v).rowErrs = s.rowErrs := rfl
@[simp] theorem setRing_flags (r : Nat) (v : Ring) : (setRing s r v).flags = s.flags := rfl
@[simp] theorem setRing_bars (r : Nat) (v : Ring) : (setRing s r v).bars = s.bars := rfl
@[simp] theorem setRing_waitSeq (r : Nat) (v : Ring) : (setRing s r v).waitSeq = s.waitSeq := rfl
@[simp] theorem setRing_grps (r : Nat) (v : Ring) : (setRing s r v).grps = s.grps := rfl
@[simp] theorem setRing_trees (r : Nat) (v : Ring) : (setRing s r v).trees = s.trees := rfl
@[simp] theorem setRing_cells (r : Nat) (v : Ring) : (setRing s r v).cells = s.cells := rfl
@[simp] theorem setRing_ringSends (r : Nat) (v : Ring) : (setRing s r v).ringSends = s.ringSends := rfl
@[simp] theorem setRing_hostQ (r : Nat) (v : Ring) : (setRing s r v).hostQ = s.hostQ := rfl
@[simp] theorem setRing_cdcCnt (r : Nat) (v : Ring) : (setRing s r v).cdcCnt = s.cdcCnt := rfl
@[simp] theorem setRing_cfgSet (r : Nat) (v : Ring) : (setRing s r v).cfgSet = s.cfgSet := rfl
@[simp] theorem setRing_routes (r : Nat) (v : Ring) : (setRing s r v).routes = s.routes := rfl
@[simp] theorem setRing_ranks (r : Nat) (v : Ring) : (setRing s r v).ranks = s.ranks := rfl
@[simp] theorem setRing_pastAddrs (r : Nat) (v : Ring) : (setRing s r v).pastAddrs = s.pastAddrs := rfl
@[simp] theorem setRing_ports (r : Nat) (v : Ring) : (setRing s r v).ports = s.ports := rfl
@[simp] theorem setRing_fabWait (r : Nat) (v : Ring) : (setRing s r v).fabWait = s.fabWait := rfl
@[simp] theorem setRing_nextPkt (r : Nat) (v : Ring) : (setRing s r v).nextPkt = s.nextPkt := rfl
@[simp] theorem setRing_handed (r : Nat) (v : Ring) : (setRing s r v).handed = s.handed := rfl
@[simp] theorem setRing_swarm (r : Nat) (v : Ring) : (setRing s r v).swarm = s.swarm := rfl
@[simp] theorem setRing_hum (r : Nat) (v : Ring) : (setRing s r v).hum = s.hum := rfl
@[simp] theorem setRing_pwr (r : Nat) (v : Ring) : (setRing s r v).pwr = s.pwr := rfl
@[simp] theorem setRing_models (r : Nat) (v : Ring) : (setRing s r v).models = s.models := rfl
@[simp] theorem setRing_streams (r : Nat) (v : Ring) : (setRing s r v).streams = s.streams := rfl
@[simp] theorem setRing_serv (r : Nat) (v : Ring) : (setRing s r v).serv = s.serv := rfl
@[simp] theorem setRing_classes (r : Nat) (v : Ring) : (setRing s r v).classes = s.classes := rfl
@[simp] theorem setRing_eth (r : Nat) (v : Ring) : (setRing s r v).eth = s.eth := rfl
@[simp] theorem setRing_sessions (r : Nat) (v : Ring) : (setRing s r v).sessions = s.sessions := rfl
@[simp] theorem setRing_uploads (r : Nat) (v : Ring) : (setRing s r v).uploads = s.uploads := rfl
@[simp] theorem setRing_waitLoads (r : Nat) (v : Ring) : (setRing s r v).waitLoads = s.waitLoads := rfl
@[simp] theorem setRing_prp (r : Nat) (v : Ring) : (setRing s r v).prp = s.prp := rfl
@[simp] theorem setRing_keeper (r : Nat) (v : Ring) : (setRing s r v).keeper = s.keeper := rfl
@[simp] theorem setRing_pins (r : Nat) (v : Ring) : (setRing s r v).pins = s.pins := rfl
@[simp] theorem setRing_takeover (r : Nat) (v : Ring) : (setRing s r v).takeover = s.takeover := rfl
@[simp] theorem setRing_resume (r : Nat) (v : Ring) : (setRing s r v).resume = s.resume := rfl
@[simp] theorem setRing_saved (r : Nat) (v : Ring) : (setRing s r v).saved = s.saved := rfl

@[simp] theorem setGrp_pending (k : Nat) (v : Grp) : (setGrp s k v).pending = s.pending := rfl
@[simp] theorem setGrp_free (k : Nat) (v : Grp) : (setGrp s k v).free = s.free := rfl
@[simp] theorem setGrp_out (k : Nat) (v : Grp) : (setGrp s k v).out = s.out := rfl
@[simp] theorem setGrp_regs (k : Nat) (v : Grp) : (setGrp s k v).regs = s.regs := rfl
@[simp] theorem setGrp_mem (k : Nat) (v : Grp) : (setGrp s k v).mem = s.mem := rfl
@[simp] theorem setGrp_poison (k : Nat) (v : Grp) : (setGrp s k v).poison = s.poison := rfl
@[simp] theorem setGrp_comb (k : Nat) (v : Grp) : (setGrp s k v).comb = s.comb := rfl
@[simp] theorem setGrp_lastCorr (k : Nat) (v : Grp) : (setGrp s k v).lastCorr = s.lastCorr := rfl
@[simp] theorem setGrp_ctxs (k : Nat) (v : Grp) : (setGrp s k v).ctxs = s.ctxs := rfl
@[simp] theorem setGrp_slices (k : Nat) (v : Grp) : (setGrp s k v).slices = s.slices := rfl
@[simp] theorem setGrp_partCores (k : Nat) (v : Grp) : (setGrp s k v).partCores = s.partCores := rfl
@[simp] theorem setGrp_chunkBufs (k : Nat) (v : Grp) : (setGrp s k v).chunkBufs = s.chunkBufs := rfl
@[simp] theorem setGrp_train (k : Nat) (v : Grp) : (setGrp s k v).train = s.train := rfl
@[simp] theorem setGrp_recs (k : Nat) (v : Grp) : (setGrp s k v).recs = s.recs := rfl
@[simp] theorem setGrp_recSeq (k : Nat) (v : Grp) : (setGrp s k v).recSeq = s.recSeq := rfl
@[simp] theorem setGrp_log (k : Nat) (v : Grp) : (setGrp s k v).log = s.log := rfl
@[simp] theorem setGrp_logRate (k : Nat) (v : Grp) : (setGrp s k v).logRate = s.logRate := rfl
@[simp] theorem setGrp_thrLogged (k : Nat) (v : Grp) : (setGrp s k v).thrLogged = s.thrLogged := rfl
@[simp] theorem setGrp_rowErrs (k : Nat) (v : Grp) : (setGrp s k v).rowErrs = s.rowErrs := rfl
@[simp] theorem setGrp_flags (k : Nat) (v : Grp) : (setGrp s k v).flags = s.flags := rfl
@[simp] theorem setGrp_bars (k : Nat) (v : Grp) : (setGrp s k v).bars = s.bars := rfl
@[simp] theorem setGrp_waitSeq (k : Nat) (v : Grp) : (setGrp s k v).waitSeq = s.waitSeq := rfl
@[simp] theorem setGrp_rings (k : Nat) (v : Grp) : (setGrp s k v).rings = s.rings := rfl
@[simp] theorem setGrp_trees (k : Nat) (v : Grp) : (setGrp s k v).trees = s.trees := rfl
@[simp] theorem setGrp_cells (k : Nat) (v : Grp) : (setGrp s k v).cells = s.cells := rfl
@[simp] theorem setGrp_ringSends (k : Nat) (v : Grp) : (setGrp s k v).ringSends = s.ringSends := rfl
@[simp] theorem setGrp_hostQ (k : Nat) (v : Grp) : (setGrp s k v).hostQ = s.hostQ := rfl
@[simp] theorem setGrp_cdcCnt (k : Nat) (v : Grp) : (setGrp s k v).cdcCnt = s.cdcCnt := rfl
@[simp] theorem setGrp_cfgSet (k : Nat) (v : Grp) : (setGrp s k v).cfgSet = s.cfgSet := rfl
@[simp] theorem setGrp_routes (k : Nat) (v : Grp) : (setGrp s k v).routes = s.routes := rfl
@[simp] theorem setGrp_ranks (k : Nat) (v : Grp) : (setGrp s k v).ranks = s.ranks := rfl
@[simp] theorem setGrp_pastAddrs (k : Nat) (v : Grp) : (setGrp s k v).pastAddrs = s.pastAddrs := rfl
@[simp] theorem setGrp_ports (k : Nat) (v : Grp) : (setGrp s k v).ports = s.ports := rfl
@[simp] theorem setGrp_fabWait (k : Nat) (v : Grp) : (setGrp s k v).fabWait = s.fabWait := rfl
@[simp] theorem setGrp_nextPkt (k : Nat) (v : Grp) : (setGrp s k v).nextPkt = s.nextPkt := rfl
@[simp] theorem setGrp_handed (k : Nat) (v : Grp) : (setGrp s k v).handed = s.handed := rfl
@[simp] theorem setGrp_swarm (k : Nat) (v : Grp) : (setGrp s k v).swarm = s.swarm := rfl
@[simp] theorem setGrp_hum (k : Nat) (v : Grp) : (setGrp s k v).hum = s.hum := rfl
@[simp] theorem setGrp_pwr (k : Nat) (v : Grp) : (setGrp s k v).pwr = s.pwr := rfl
@[simp] theorem setGrp_models (k : Nat) (v : Grp) : (setGrp s k v).models = s.models := rfl
@[simp] theorem setGrp_streams (k : Nat) (v : Grp) : (setGrp s k v).streams = s.streams := rfl
@[simp] theorem setGrp_serv (k : Nat) (v : Grp) : (setGrp s k v).serv = s.serv := rfl
@[simp] theorem setGrp_classes (k : Nat) (v : Grp) : (setGrp s k v).classes = s.classes := rfl
@[simp] theorem setGrp_eth (k : Nat) (v : Grp) : (setGrp s k v).eth = s.eth := rfl
@[simp] theorem setGrp_sessions (k : Nat) (v : Grp) : (setGrp s k v).sessions = s.sessions := rfl
@[simp] theorem setGrp_uploads (k : Nat) (v : Grp) : (setGrp s k v).uploads = s.uploads := rfl
@[simp] theorem setGrp_waitLoads (k : Nat) (v : Grp) : (setGrp s k v).waitLoads = s.waitLoads := rfl
@[simp] theorem setGrp_prp (k : Nat) (v : Grp) : (setGrp s k v).prp = s.prp := rfl
@[simp] theorem setGrp_keeper (k : Nat) (v : Grp) : (setGrp s k v).keeper = s.keeper := rfl
@[simp] theorem setGrp_pins (k : Nat) (v : Grp) : (setGrp s k v).pins = s.pins := rfl
@[simp] theorem setGrp_takeover (k : Nat) (v : Grp) : (setGrp s k v).takeover = s.takeover := rfl
@[simp] theorem setGrp_resume (k : Nat) (v : Grp) : (setGrp s k v).resume = s.resume := rfl
@[simp] theorem setGrp_saved (k : Nat) (v : Grp) : (setGrp s k v).saved = s.saved := rfl

@[simp] theorem setTree_pending (k : Nat) (v : WTree) : (setTree s k v).pending = s.pending := rfl
@[simp] theorem setTree_free (k : Nat) (v : WTree) : (setTree s k v).free = s.free := rfl
@[simp] theorem setTree_out (k : Nat) (v : WTree) : (setTree s k v).out = s.out := rfl
@[simp] theorem setTree_regs (k : Nat) (v : WTree) : (setTree s k v).regs = s.regs := rfl
@[simp] theorem setTree_mem (k : Nat) (v : WTree) : (setTree s k v).mem = s.mem := rfl
@[simp] theorem setTree_poison (k : Nat) (v : WTree) : (setTree s k v).poison = s.poison := rfl
@[simp] theorem setTree_comb (k : Nat) (v : WTree) : (setTree s k v).comb = s.comb := rfl
@[simp] theorem setTree_lastCorr (k : Nat) (v : WTree) : (setTree s k v).lastCorr = s.lastCorr := rfl
@[simp] theorem setTree_ctxs (k : Nat) (v : WTree) : (setTree s k v).ctxs = s.ctxs := rfl
@[simp] theorem setTree_slices (k : Nat) (v : WTree) : (setTree s k v).slices = s.slices := rfl
@[simp] theorem setTree_partCores (k : Nat) (v : WTree) : (setTree s k v).partCores = s.partCores := rfl
@[simp] theorem setTree_chunkBufs (k : Nat) (v : WTree) : (setTree s k v).chunkBufs = s.chunkBufs := rfl
@[simp] theorem setTree_train (k : Nat) (v : WTree) : (setTree s k v).train = s.train := rfl
@[simp] theorem setTree_recs (k : Nat) (v : WTree) : (setTree s k v).recs = s.recs := rfl
@[simp] theorem setTree_recSeq (k : Nat) (v : WTree) : (setTree s k v).recSeq = s.recSeq := rfl
@[simp] theorem setTree_log (k : Nat) (v : WTree) : (setTree s k v).log = s.log := rfl
@[simp] theorem setTree_logRate (k : Nat) (v : WTree) : (setTree s k v).logRate = s.logRate := rfl
@[simp] theorem setTree_thrLogged (k : Nat) (v : WTree) : (setTree s k v).thrLogged = s.thrLogged := rfl
@[simp] theorem setTree_rowErrs (k : Nat) (v : WTree) : (setTree s k v).rowErrs = s.rowErrs := rfl
@[simp] theorem setTree_flags (k : Nat) (v : WTree) : (setTree s k v).flags = s.flags := rfl
@[simp] theorem setTree_bars (k : Nat) (v : WTree) : (setTree s k v).bars = s.bars := rfl
@[simp] theorem setTree_waitSeq (k : Nat) (v : WTree) : (setTree s k v).waitSeq = s.waitSeq := rfl
@[simp] theorem setTree_rings (k : Nat) (v : WTree) : (setTree s k v).rings = s.rings := rfl
@[simp] theorem setTree_grps (k : Nat) (v : WTree) : (setTree s k v).grps = s.grps := rfl
@[simp] theorem setTree_cells (k : Nat) (v : WTree) : (setTree s k v).cells = s.cells := rfl
@[simp] theorem setTree_ringSends (k : Nat) (v : WTree) : (setTree s k v).ringSends = s.ringSends := rfl
@[simp] theorem setTree_hostQ (k : Nat) (v : WTree) : (setTree s k v).hostQ = s.hostQ := rfl
@[simp] theorem setTree_cdcCnt (k : Nat) (v : WTree) : (setTree s k v).cdcCnt = s.cdcCnt := rfl
@[simp] theorem setTree_cfgSet (k : Nat) (v : WTree) : (setTree s k v).cfgSet = s.cfgSet := rfl
@[simp] theorem setTree_routes (k : Nat) (v : WTree) : (setTree s k v).routes = s.routes := rfl
@[simp] theorem setTree_ranks (k : Nat) (v : WTree) : (setTree s k v).ranks = s.ranks := rfl
@[simp] theorem setTree_pastAddrs (k : Nat) (v : WTree) : (setTree s k v).pastAddrs = s.pastAddrs := rfl
@[simp] theorem setTree_ports (k : Nat) (v : WTree) : (setTree s k v).ports = s.ports := rfl
@[simp] theorem setTree_fabWait (k : Nat) (v : WTree) : (setTree s k v).fabWait = s.fabWait := rfl
@[simp] theorem setTree_nextPkt (k : Nat) (v : WTree) : (setTree s k v).nextPkt = s.nextPkt := rfl
@[simp] theorem setTree_handed (k : Nat) (v : WTree) : (setTree s k v).handed = s.handed := rfl
@[simp] theorem setTree_swarm (k : Nat) (v : WTree) : (setTree s k v).swarm = s.swarm := rfl
@[simp] theorem setTree_hum (k : Nat) (v : WTree) : (setTree s k v).hum = s.hum := rfl
@[simp] theorem setTree_pwr (k : Nat) (v : WTree) : (setTree s k v).pwr = s.pwr := rfl
@[simp] theorem setTree_models (k : Nat) (v : WTree) : (setTree s k v).models = s.models := rfl
@[simp] theorem setTree_streams (k : Nat) (v : WTree) : (setTree s k v).streams = s.streams := rfl
@[simp] theorem setTree_serv (k : Nat) (v : WTree) : (setTree s k v).serv = s.serv := rfl
@[simp] theorem setTree_classes (k : Nat) (v : WTree) : (setTree s k v).classes = s.classes := rfl
@[simp] theorem setTree_eth (k : Nat) (v : WTree) : (setTree s k v).eth = s.eth := rfl
@[simp] theorem setTree_sessions (k : Nat) (v : WTree) : (setTree s k v).sessions = s.sessions := rfl
@[simp] theorem setTree_uploads (k : Nat) (v : WTree) : (setTree s k v).uploads = s.uploads := rfl
@[simp] theorem setTree_waitLoads (k : Nat) (v : WTree) : (setTree s k v).waitLoads = s.waitLoads := rfl
@[simp] theorem setTree_prp (k : Nat) (v : WTree) : (setTree s k v).prp = s.prp := rfl
@[simp] theorem setTree_keeper (k : Nat) (v : WTree) : (setTree s k v).keeper = s.keeper := rfl
@[simp] theorem setTree_pins (k : Nat) (v : WTree) : (setTree s k v).pins = s.pins := rfl
@[simp] theorem setTree_takeover (k : Nat) (v : WTree) : (setTree s k v).takeover = s.takeover := rfl
@[simp] theorem setTree_resume (k : Nat) (v : WTree) : (setTree s k v).resume = s.resume := rfl
@[simp] theorem setTree_saved (k : Nat) (v : WTree) : (setTree s k v).saved = s.saved := rfl

@[simp] theorem setCell_pending (c : Nat) (v : Cell) : (setCell s c v).pending = s.pending := rfl
@[simp] theorem setCell_free (c : Nat) (v : Cell) : (setCell s c v).free = s.free := rfl
@[simp] theorem setCell_out (c : Nat) (v : Cell) : (setCell s c v).out = s.out := rfl
@[simp] theorem setCell_regs (c : Nat) (v : Cell) : (setCell s c v).regs = s.regs := rfl
@[simp] theorem setCell_mem (c : Nat) (v : Cell) : (setCell s c v).mem = s.mem := rfl
@[simp] theorem setCell_poison (c : Nat) (v : Cell) : (setCell s c v).poison = s.poison := rfl
@[simp] theorem setCell_comb (c : Nat) (v : Cell) : (setCell s c v).comb = s.comb := rfl
@[simp] theorem setCell_lastCorr (c : Nat) (v : Cell) : (setCell s c v).lastCorr = s.lastCorr := rfl
@[simp] theorem setCell_ctxs (c : Nat) (v : Cell) : (setCell s c v).ctxs = s.ctxs := rfl
@[simp] theorem setCell_slices (c : Nat) (v : Cell) : (setCell s c v).slices = s.slices := rfl
@[simp] theorem setCell_partCores (c : Nat) (v : Cell) : (setCell s c v).partCores = s.partCores := rfl
@[simp] theorem setCell_chunkBufs (c : Nat) (v : Cell) : (setCell s c v).chunkBufs = s.chunkBufs := rfl
@[simp] theorem setCell_train (c : Nat) (v : Cell) : (setCell s c v).train = s.train := rfl
@[simp] theorem setCell_recs (c : Nat) (v : Cell) : (setCell s c v).recs = s.recs := rfl
@[simp] theorem setCell_recSeq (c : Nat) (v : Cell) : (setCell s c v).recSeq = s.recSeq := rfl
@[simp] theorem setCell_log (c : Nat) (v : Cell) : (setCell s c v).log = s.log := rfl
@[simp] theorem setCell_logRate (c : Nat) (v : Cell) : (setCell s c v).logRate = s.logRate := rfl
@[simp] theorem setCell_thrLogged (c : Nat) (v : Cell) : (setCell s c v).thrLogged = s.thrLogged := rfl
@[simp] theorem setCell_rowErrs (c : Nat) (v : Cell) : (setCell s c v).rowErrs = s.rowErrs := rfl
@[simp] theorem setCell_flags (c : Nat) (v : Cell) : (setCell s c v).flags = s.flags := rfl
@[simp] theorem setCell_bars (c : Nat) (v : Cell) : (setCell s c v).bars = s.bars := rfl
@[simp] theorem setCell_waitSeq (c : Nat) (v : Cell) : (setCell s c v).waitSeq = s.waitSeq := rfl
@[simp] theorem setCell_rings (c : Nat) (v : Cell) : (setCell s c v).rings = s.rings := rfl
@[simp] theorem setCell_grps (c : Nat) (v : Cell) : (setCell s c v).grps = s.grps := rfl
@[simp] theorem setCell_trees (c : Nat) (v : Cell) : (setCell s c v).trees = s.trees := rfl
@[simp] theorem setCell_ringSends (c : Nat) (v : Cell) : (setCell s c v).ringSends = s.ringSends := rfl
@[simp] theorem setCell_hostQ (c : Nat) (v : Cell) : (setCell s c v).hostQ = s.hostQ := rfl
@[simp] theorem setCell_cdcCnt (c : Nat) (v : Cell) : (setCell s c v).cdcCnt = s.cdcCnt := rfl
@[simp] theorem setCell_cfgSet (c : Nat) (v : Cell) : (setCell s c v).cfgSet = s.cfgSet := rfl
@[simp] theorem setCell_routes (c : Nat) (v : Cell) : (setCell s c v).routes = s.routes := rfl
@[simp] theorem setCell_ranks (c : Nat) (v : Cell) : (setCell s c v).ranks = s.ranks := rfl
@[simp] theorem setCell_pastAddrs (c : Nat) (v : Cell) : (setCell s c v).pastAddrs = s.pastAddrs := rfl
@[simp] theorem setCell_ports (c : Nat) (v : Cell) : (setCell s c v).ports = s.ports := rfl
@[simp] theorem setCell_fabWait (c : Nat) (v : Cell) : (setCell s c v).fabWait = s.fabWait := rfl
@[simp] theorem setCell_nextPkt (c : Nat) (v : Cell) : (setCell s c v).nextPkt = s.nextPkt := rfl
@[simp] theorem setCell_handed (c : Nat) (v : Cell) : (setCell s c v).handed = s.handed := rfl
@[simp] theorem setCell_swarm (c : Nat) (v : Cell) : (setCell s c v).swarm = s.swarm := rfl
@[simp] theorem setCell_hum (c : Nat) (v : Cell) : (setCell s c v).hum = s.hum := rfl
@[simp] theorem setCell_pwr (c : Nat) (v : Cell) : (setCell s c v).pwr = s.pwr := rfl
@[simp] theorem setCell_models (c : Nat) (v : Cell) : (setCell s c v).models = s.models := rfl
@[simp] theorem setCell_streams (c : Nat) (v : Cell) : (setCell s c v).streams = s.streams := rfl
@[simp] theorem setCell_serv (c : Nat) (v : Cell) : (setCell s c v).serv = s.serv := rfl
@[simp] theorem setCell_classes (c : Nat) (v : Cell) : (setCell s c v).classes = s.classes := rfl
@[simp] theorem setCell_eth (c : Nat) (v : Cell) : (setCell s c v).eth = s.eth := rfl
@[simp] theorem setCell_sessions (c : Nat) (v : Cell) : (setCell s c v).sessions = s.sessions := rfl
@[simp] theorem setCell_uploads (c : Nat) (v : Cell) : (setCell s c v).uploads = s.uploads := rfl
@[simp] theorem setCell_waitLoads (c : Nat) (v : Cell) : (setCell s c v).waitLoads = s.waitLoads := rfl
@[simp] theorem setCell_prp (c : Nat) (v : Cell) : (setCell s c v).prp = s.prp := rfl
@[simp] theorem setCell_keeper (c : Nat) (v : Cell) : (setCell s c v).keeper = s.keeper := rfl
@[simp] theorem setCell_pins (c : Nat) (v : Cell) : (setCell s c v).pins = s.pins := rfl
@[simp] theorem setCell_takeover (c : Nat) (v : Cell) : (setCell s c v).takeover = s.takeover := rfl
@[simp] theorem setCell_resume (c : Nat) (v : Cell) : (setCell s c v).resume = s.resume := rfl
@[simp] theorem setCell_saved (c : Nat) (v : Cell) : (setCell s c v).saved = s.saved := rfl

@[simp] theorem setPort_pending (k : Nat) (v : Port) : (setPort s k v).pending = s.pending := rfl
@[simp] theorem setPort_free (k : Nat) (v : Port) : (setPort s k v).free = s.free := rfl
@[simp] theorem setPort_out (k : Nat) (v : Port) : (setPort s k v).out = s.out := rfl
@[simp] theorem setPort_regs (k : Nat) (v : Port) : (setPort s k v).regs = s.regs := rfl
@[simp] theorem setPort_mem (k : Nat) (v : Port) : (setPort s k v).mem = s.mem := rfl
@[simp] theorem setPort_poison (k : Nat) (v : Port) : (setPort s k v).poison = s.poison := rfl
@[simp] theorem setPort_comb (k : Nat) (v : Port) : (setPort s k v).comb = s.comb := rfl
@[simp] theorem setPort_lastCorr (k : Nat) (v : Port) : (setPort s k v).lastCorr = s.lastCorr := rfl
@[simp] theorem setPort_ctxs (k : Nat) (v : Port) : (setPort s k v).ctxs = s.ctxs := rfl
@[simp] theorem setPort_slices (k : Nat) (v : Port) : (setPort s k v).slices = s.slices := rfl
@[simp] theorem setPort_partCores (k : Nat) (v : Port) : (setPort s k v).partCores = s.partCores := rfl
@[simp] theorem setPort_chunkBufs (k : Nat) (v : Port) : (setPort s k v).chunkBufs = s.chunkBufs := rfl
@[simp] theorem setPort_train (k : Nat) (v : Port) : (setPort s k v).train = s.train := rfl
@[simp] theorem setPort_recs (k : Nat) (v : Port) : (setPort s k v).recs = s.recs := rfl
@[simp] theorem setPort_recSeq (k : Nat) (v : Port) : (setPort s k v).recSeq = s.recSeq := rfl
@[simp] theorem setPort_log (k : Nat) (v : Port) : (setPort s k v).log = s.log := rfl
@[simp] theorem setPort_logRate (k : Nat) (v : Port) : (setPort s k v).logRate = s.logRate := rfl
@[simp] theorem setPort_thrLogged (k : Nat) (v : Port) : (setPort s k v).thrLogged = s.thrLogged := rfl
@[simp] theorem setPort_rowErrs (k : Nat) (v : Port) : (setPort s k v).rowErrs = s.rowErrs := rfl
@[simp] theorem setPort_flags (k : Nat) (v : Port) : (setPort s k v).flags = s.flags := rfl
@[simp] theorem setPort_bars (k : Nat) (v : Port) : (setPort s k v).bars = s.bars := rfl
@[simp] theorem setPort_waitSeq (k : Nat) (v : Port) : (setPort s k v).waitSeq = s.waitSeq := rfl
@[simp] theorem setPort_rings (k : Nat) (v : Port) : (setPort s k v).rings = s.rings := rfl
@[simp] theorem setPort_grps (k : Nat) (v : Port) : (setPort s k v).grps = s.grps := rfl
@[simp] theorem setPort_trees (k : Nat) (v : Port) : (setPort s k v).trees = s.trees := rfl
@[simp] theorem setPort_cells (k : Nat) (v : Port) : (setPort s k v).cells = s.cells := rfl
@[simp] theorem setPort_ringSends (k : Nat) (v : Port) : (setPort s k v).ringSends = s.ringSends := rfl
@[simp] theorem setPort_hostQ (k : Nat) (v : Port) : (setPort s k v).hostQ = s.hostQ := rfl
@[simp] theorem setPort_cdcCnt (k : Nat) (v : Port) : (setPort s k v).cdcCnt = s.cdcCnt := rfl
@[simp] theorem setPort_cfgSet (k : Nat) (v : Port) : (setPort s k v).cfgSet = s.cfgSet := rfl
@[simp] theorem setPort_routes (k : Nat) (v : Port) : (setPort s k v).routes = s.routes := rfl
@[simp] theorem setPort_ranks (k : Nat) (v : Port) : (setPort s k v).ranks = s.ranks := rfl
@[simp] theorem setPort_pastAddrs (k : Nat) (v : Port) : (setPort s k v).pastAddrs = s.pastAddrs := rfl
@[simp] theorem setPort_fabWait (k : Nat) (v : Port) : (setPort s k v).fabWait = s.fabWait := rfl
@[simp] theorem setPort_nextPkt (k : Nat) (v : Port) : (setPort s k v).nextPkt = s.nextPkt := rfl
@[simp] theorem setPort_handed (k : Nat) (v : Port) : (setPort s k v).handed = s.handed := rfl
@[simp] theorem setPort_swarm (k : Nat) (v : Port) : (setPort s k v).swarm = s.swarm := rfl
@[simp] theorem setPort_hum (k : Nat) (v : Port) : (setPort s k v).hum = s.hum := rfl
@[simp] theorem setPort_pwr (k : Nat) (v : Port) : (setPort s k v).pwr = s.pwr := rfl
@[simp] theorem setPort_models (k : Nat) (v : Port) : (setPort s k v).models = s.models := rfl
@[simp] theorem setPort_streams (k : Nat) (v : Port) : (setPort s k v).streams = s.streams := rfl
@[simp] theorem setPort_serv (k : Nat) (v : Port) : (setPort s k v).serv = s.serv := rfl
@[simp] theorem setPort_classes (k : Nat) (v : Port) : (setPort s k v).classes = s.classes := rfl
@[simp] theorem setPort_eth (k : Nat) (v : Port) : (setPort s k v).eth = s.eth := rfl
@[simp] theorem setPort_sessions (k : Nat) (v : Port) : (setPort s k v).sessions = s.sessions := rfl
@[simp] theorem setPort_uploads (k : Nat) (v : Port) : (setPort s k v).uploads = s.uploads := rfl
@[simp] theorem setPort_waitLoads (k : Nat) (v : Port) : (setPort s k v).waitLoads = s.waitLoads := rfl
@[simp] theorem setPort_prp (k : Nat) (v : Port) : (setPort s k v).prp = s.prp := rfl
@[simp] theorem setPort_keeper (k : Nat) (v : Port) : (setPort s k v).keeper = s.keeper := rfl
@[simp] theorem setPort_pins (k : Nat) (v : Port) : (setPort s k v).pins = s.pins := rfl
@[simp] theorem setPort_takeover (k : Nat) (v : Port) : (setPort s k v).takeover = s.takeover := rfl
@[simp] theorem setPort_resume (k : Nat) (v : Port) : (setPort s k v).resume = s.resume := rfl
@[simp] theorem setPort_saved (k : Nat) (v : Port) : (setPort s k v).saved = s.saved := rfl

@[simp] theorem setStream_pending (e : Nat) (v : Option Stream) : (setStream s e v).pending = s.pending := rfl
@[simp] theorem setStream_free (e : Nat) (v : Option Stream) : (setStream s e v).free = s.free := rfl
@[simp] theorem setStream_out (e : Nat) (v : Option Stream) : (setStream s e v).out = s.out := rfl
@[simp] theorem setStream_regs (e : Nat) (v : Option Stream) : (setStream s e v).regs = s.regs := rfl
@[simp] theorem setStream_mem (e : Nat) (v : Option Stream) : (setStream s e v).mem = s.mem := rfl
@[simp] theorem setStream_poison (e : Nat) (v : Option Stream) : (setStream s e v).poison = s.poison := rfl
@[simp] theorem setStream_comb (e : Nat) (v : Option Stream) : (setStream s e v).comb = s.comb := rfl
@[simp] theorem setStream_lastCorr (e : Nat) (v : Option Stream) : (setStream s e v).lastCorr = s.lastCorr := rfl
@[simp] theorem setStream_ctxs (e : Nat) (v : Option Stream) : (setStream s e v).ctxs = s.ctxs := rfl
@[simp] theorem setStream_slices (e : Nat) (v : Option Stream) : (setStream s e v).slices = s.slices := rfl
@[simp] theorem setStream_partCores (e : Nat) (v : Option Stream) : (setStream s e v).partCores = s.partCores := rfl
@[simp] theorem setStream_chunkBufs (e : Nat) (v : Option Stream) : (setStream s e v).chunkBufs = s.chunkBufs := rfl
@[simp] theorem setStream_train (e : Nat) (v : Option Stream) : (setStream s e v).train = s.train := rfl
@[simp] theorem setStream_recs (e : Nat) (v : Option Stream) : (setStream s e v).recs = s.recs := rfl
@[simp] theorem setStream_recSeq (e : Nat) (v : Option Stream) : (setStream s e v).recSeq = s.recSeq := rfl
@[simp] theorem setStream_log (e : Nat) (v : Option Stream) : (setStream s e v).log = s.log := rfl
@[simp] theorem setStream_logRate (e : Nat) (v : Option Stream) : (setStream s e v).logRate = s.logRate := rfl
@[simp] theorem setStream_thrLogged (e : Nat) (v : Option Stream) : (setStream s e v).thrLogged = s.thrLogged := rfl
@[simp] theorem setStream_rowErrs (e : Nat) (v : Option Stream) : (setStream s e v).rowErrs = s.rowErrs := rfl
@[simp] theorem setStream_flags (e : Nat) (v : Option Stream) : (setStream s e v).flags = s.flags := rfl
@[simp] theorem setStream_bars (e : Nat) (v : Option Stream) : (setStream s e v).bars = s.bars := rfl
@[simp] theorem setStream_waitSeq (e : Nat) (v : Option Stream) : (setStream s e v).waitSeq = s.waitSeq := rfl
@[simp] theorem setStream_rings (e : Nat) (v : Option Stream) : (setStream s e v).rings = s.rings := rfl
@[simp] theorem setStream_grps (e : Nat) (v : Option Stream) : (setStream s e v).grps = s.grps := rfl
@[simp] theorem setStream_trees (e : Nat) (v : Option Stream) : (setStream s e v).trees = s.trees := rfl
@[simp] theorem setStream_cells (e : Nat) (v : Option Stream) : (setStream s e v).cells = s.cells := rfl
@[simp] theorem setStream_ringSends (e : Nat) (v : Option Stream) : (setStream s e v).ringSends = s.ringSends := rfl
@[simp] theorem setStream_hostQ (e : Nat) (v : Option Stream) : (setStream s e v).hostQ = s.hostQ := rfl
@[simp] theorem setStream_cdcCnt (e : Nat) (v : Option Stream) : (setStream s e v).cdcCnt = s.cdcCnt := rfl
@[simp] theorem setStream_cfgSet (e : Nat) (v : Option Stream) : (setStream s e v).cfgSet = s.cfgSet := rfl
@[simp] theorem setStream_routes (e : Nat) (v : Option Stream) : (setStream s e v).routes = s.routes := rfl
@[simp] theorem setStream_ranks (e : Nat) (v : Option Stream) : (setStream s e v).ranks = s.ranks := rfl
@[simp] theorem setStream_pastAddrs (e : Nat) (v : Option Stream) : (setStream s e v).pastAddrs = s.pastAddrs := rfl
@[simp] theorem setStream_ports (e : Nat) (v : Option Stream) : (setStream s e v).ports = s.ports := rfl
@[simp] theorem setStream_fabWait (e : Nat) (v : Option Stream) : (setStream s e v).fabWait = s.fabWait := rfl
@[simp] theorem setStream_nextPkt (e : Nat) (v : Option Stream) : (setStream s e v).nextPkt = s.nextPkt := rfl
@[simp] theorem setStream_handed (e : Nat) (v : Option Stream) : (setStream s e v).handed = s.handed := rfl
@[simp] theorem setStream_swarm (e : Nat) (v : Option Stream) : (setStream s e v).swarm = s.swarm := rfl
@[simp] theorem setStream_hum (e : Nat) (v : Option Stream) : (setStream s e v).hum = s.hum := rfl
@[simp] theorem setStream_pwr (e : Nat) (v : Option Stream) : (setStream s e v).pwr = s.pwr := rfl
@[simp] theorem setStream_models (e : Nat) (v : Option Stream) : (setStream s e v).models = s.models := rfl
@[simp] theorem setStream_serv (e : Nat) (v : Option Stream) : (setStream s e v).serv = s.serv := rfl
@[simp] theorem setStream_classes (e : Nat) (v : Option Stream) : (setStream s e v).classes = s.classes := rfl
@[simp] theorem setStream_eth (e : Nat) (v : Option Stream) : (setStream s e v).eth = s.eth := rfl
@[simp] theorem setStream_sessions (e : Nat) (v : Option Stream) : (setStream s e v).sessions = s.sessions := rfl
@[simp] theorem setStream_uploads (e : Nat) (v : Option Stream) : (setStream s e v).uploads = s.uploads := rfl
@[simp] theorem setStream_waitLoads (e : Nat) (v : Option Stream) : (setStream s e v).waitLoads = s.waitLoads := rfl
@[simp] theorem setStream_prp (e : Nat) (v : Option Stream) : (setStream s e v).prp = s.prp := rfl
@[simp] theorem setStream_keeper (e : Nat) (v : Option Stream) : (setStream s e v).keeper = s.keeper := rfl
@[simp] theorem setStream_pins (e : Nat) (v : Option Stream) : (setStream s e v).pins = s.pins := rfl
@[simp] theorem setStream_takeover (e : Nat) (v : Option Stream) : (setStream s e v).takeover = s.takeover := rfl
@[simp] theorem setStream_resume (e : Nat) (v : Option Stream) : (setStream s e v).resume = s.resume := rfl
@[simp] theorem setStream_saved (e : Nat) (v : Option Stream) : (setStream s e v).saved = s.saved := rfl

@[simp] theorem setModel_pending (m : Nat) (v : Option SModel) : (setModel s m v).pending = s.pending := rfl
@[simp] theorem setModel_free (m : Nat) (v : Option SModel) : (setModel s m v).free = s.free := rfl
@[simp] theorem setModel_out (m : Nat) (v : Option SModel) : (setModel s m v).out = s.out := rfl
@[simp] theorem setModel_regs (m : Nat) (v : Option SModel) : (setModel s m v).regs = s.regs := rfl
@[simp] theorem setModel_mem (m : Nat) (v : Option SModel) : (setModel s m v).mem = s.mem := rfl
@[simp] theorem setModel_poison (m : Nat) (v : Option SModel) : (setModel s m v).poison = s.poison := rfl
@[simp] theorem setModel_comb (m : Nat) (v : Option SModel) : (setModel s m v).comb = s.comb := rfl
@[simp] theorem setModel_lastCorr (m : Nat) (v : Option SModel) : (setModel s m v).lastCorr = s.lastCorr := rfl
@[simp] theorem setModel_ctxs (m : Nat) (v : Option SModel) : (setModel s m v).ctxs = s.ctxs := rfl
@[simp] theorem setModel_slices (m : Nat) (v : Option SModel) : (setModel s m v).slices = s.slices := rfl
@[simp] theorem setModel_partCores (m : Nat) (v : Option SModel) : (setModel s m v).partCores = s.partCores := rfl
@[simp] theorem setModel_chunkBufs (m : Nat) (v : Option SModel) : (setModel s m v).chunkBufs = s.chunkBufs := rfl
@[simp] theorem setModel_train (m : Nat) (v : Option SModel) : (setModel s m v).train = s.train := rfl
@[simp] theorem setModel_recs (m : Nat) (v : Option SModel) : (setModel s m v).recs = s.recs := rfl
@[simp] theorem setModel_recSeq (m : Nat) (v : Option SModel) : (setModel s m v).recSeq = s.recSeq := rfl
@[simp] theorem setModel_log (m : Nat) (v : Option SModel) : (setModel s m v).log = s.log := rfl
@[simp] theorem setModel_logRate (m : Nat) (v : Option SModel) : (setModel s m v).logRate = s.logRate := rfl
@[simp] theorem setModel_thrLogged (m : Nat) (v : Option SModel) : (setModel s m v).thrLogged = s.thrLogged := rfl
@[simp] theorem setModel_rowErrs (m : Nat) (v : Option SModel) : (setModel s m v).rowErrs = s.rowErrs := rfl
@[simp] theorem setModel_flags (m : Nat) (v : Option SModel) : (setModel s m v).flags = s.flags := rfl
@[simp] theorem setModel_bars (m : Nat) (v : Option SModel) : (setModel s m v).bars = s.bars := rfl
@[simp] theorem setModel_waitSeq (m : Nat) (v : Option SModel) : (setModel s m v).waitSeq = s.waitSeq := rfl
@[simp] theorem setModel_rings (m : Nat) (v : Option SModel) : (setModel s m v).rings = s.rings := rfl
@[simp] theorem setModel_grps (m : Nat) (v : Option SModel) : (setModel s m v).grps = s.grps := rfl
@[simp] theorem setModel_trees (m : Nat) (v : Option SModel) : (setModel s m v).trees = s.trees := rfl
@[simp] theorem setModel_cells (m : Nat) (v : Option SModel) : (setModel s m v).cells = s.cells := rfl
@[simp] theorem setModel_ringSends (m : Nat) (v : Option SModel) : (setModel s m v).ringSends = s.ringSends := rfl
@[simp] theorem setModel_hostQ (m : Nat) (v : Option SModel) : (setModel s m v).hostQ = s.hostQ := rfl
@[simp] theorem setModel_cdcCnt (m : Nat) (v : Option SModel) : (setModel s m v).cdcCnt = s.cdcCnt := rfl
@[simp] theorem setModel_cfgSet (m : Nat) (v : Option SModel) : (setModel s m v).cfgSet = s.cfgSet := rfl
@[simp] theorem setModel_routes (m : Nat) (v : Option SModel) : (setModel s m v).routes = s.routes := rfl
@[simp] theorem setModel_ranks (m : Nat) (v : Option SModel) : (setModel s m v).ranks = s.ranks := rfl
@[simp] theorem setModel_pastAddrs (m : Nat) (v : Option SModel) : (setModel s m v).pastAddrs = s.pastAddrs := rfl
@[simp] theorem setModel_ports (m : Nat) (v : Option SModel) : (setModel s m v).ports = s.ports := rfl
@[simp] theorem setModel_fabWait (m : Nat) (v : Option SModel) : (setModel s m v).fabWait = s.fabWait := rfl
@[simp] theorem setModel_nextPkt (m : Nat) (v : Option SModel) : (setModel s m v).nextPkt = s.nextPkt := rfl
@[simp] theorem setModel_handed (m : Nat) (v : Option SModel) : (setModel s m v).handed = s.handed := rfl
@[simp] theorem setModel_swarm (m : Nat) (v : Option SModel) : (setModel s m v).swarm = s.swarm := rfl
@[simp] theorem setModel_hum (m : Nat) (v : Option SModel) : (setModel s m v).hum = s.hum := rfl
@[simp] theorem setModel_pwr (m : Nat) (v : Option SModel) : (setModel s m v).pwr = s.pwr := rfl
@[simp] theorem setModel_streams (m : Nat) (v : Option SModel) : (setModel s m v).streams = s.streams := rfl
@[simp] theorem setModel_serv (m : Nat) (v : Option SModel) : (setModel s m v).serv = s.serv := rfl
@[simp] theorem setModel_classes (m : Nat) (v : Option SModel) : (setModel s m v).classes = s.classes := rfl
@[simp] theorem setModel_eth (m : Nat) (v : Option SModel) : (setModel s m v).eth = s.eth := rfl
@[simp] theorem setModel_sessions (m : Nat) (v : Option SModel) : (setModel s m v).sessions = s.sessions := rfl
@[simp] theorem setModel_uploads (m : Nat) (v : Option SModel) : (setModel s m v).uploads = s.uploads := rfl
@[simp] theorem setModel_waitLoads (m : Nat) (v : Option SModel) : (setModel s m v).waitLoads = s.waitLoads := rfl
@[simp] theorem setModel_prp (m : Nat) (v : Option SModel) : (setModel s m v).prp = s.prp := rfl
@[simp] theorem setModel_keeper (m : Nat) (v : Option SModel) : (setModel s m v).keeper = s.keeper := rfl
@[simp] theorem setModel_pins (m : Nat) (v : Option SModel) : (setModel s m v).pins = s.pins := rfl
@[simp] theorem setModel_takeover (m : Nat) (v : Option SModel) : (setModel s m v).takeover = s.takeover := rfl
@[simp] theorem setModel_resume (m : Nat) (v : Option SModel) : (setModel s m v).resume = s.resume := rfl
@[simp] theorem setModel_saved (m : Nat) (v : Option SModel) : (setModel s m v).saved = s.saved := rfl

@[simp] theorem setServ_pending (p : Nat) (v : Serv) : (setServ s p v).pending = s.pending := rfl
@[simp] theorem setServ_free (p : Nat) (v : Serv) : (setServ s p v).free = s.free := rfl
@[simp] theorem setServ_out (p : Nat) (v : Serv) : (setServ s p v).out = s.out := rfl
@[simp] theorem setServ_regs (p : Nat) (v : Serv) : (setServ s p v).regs = s.regs := rfl
@[simp] theorem setServ_mem (p : Nat) (v : Serv) : (setServ s p v).mem = s.mem := rfl
@[simp] theorem setServ_poison (p : Nat) (v : Serv) : (setServ s p v).poison = s.poison := rfl
@[simp] theorem setServ_comb (p : Nat) (v : Serv) : (setServ s p v).comb = s.comb := rfl
@[simp] theorem setServ_lastCorr (p : Nat) (v : Serv) : (setServ s p v).lastCorr = s.lastCorr := rfl
@[simp] theorem setServ_ctxs (p : Nat) (v : Serv) : (setServ s p v).ctxs = s.ctxs := rfl
@[simp] theorem setServ_slices (p : Nat) (v : Serv) : (setServ s p v).slices = s.slices := rfl
@[simp] theorem setServ_partCores (p : Nat) (v : Serv) : (setServ s p v).partCores = s.partCores := rfl
@[simp] theorem setServ_chunkBufs (p : Nat) (v : Serv) : (setServ s p v).chunkBufs = s.chunkBufs := rfl
@[simp] theorem setServ_train (p : Nat) (v : Serv) : (setServ s p v).train = s.train := rfl
@[simp] theorem setServ_recs (p : Nat) (v : Serv) : (setServ s p v).recs = s.recs := rfl
@[simp] theorem setServ_recSeq (p : Nat) (v : Serv) : (setServ s p v).recSeq = s.recSeq := rfl
@[simp] theorem setServ_log (p : Nat) (v : Serv) : (setServ s p v).log = s.log := rfl
@[simp] theorem setServ_logRate (p : Nat) (v : Serv) : (setServ s p v).logRate = s.logRate := rfl
@[simp] theorem setServ_thrLogged (p : Nat) (v : Serv) : (setServ s p v).thrLogged = s.thrLogged := rfl
@[simp] theorem setServ_rowErrs (p : Nat) (v : Serv) : (setServ s p v).rowErrs = s.rowErrs := rfl
@[simp] theorem setServ_flags (p : Nat) (v : Serv) : (setServ s p v).flags = s.flags := rfl
@[simp] theorem setServ_bars (p : Nat) (v : Serv) : (setServ s p v).bars = s.bars := rfl
@[simp] theorem setServ_waitSeq (p : Nat) (v : Serv) : (setServ s p v).waitSeq = s.waitSeq := rfl
@[simp] theorem setServ_rings (p : Nat) (v : Serv) : (setServ s p v).rings = s.rings := rfl
@[simp] theorem setServ_grps (p : Nat) (v : Serv) : (setServ s p v).grps = s.grps := rfl
@[simp] theorem setServ_trees (p : Nat) (v : Serv) : (setServ s p v).trees = s.trees := rfl
@[simp] theorem setServ_cells (p : Nat) (v : Serv) : (setServ s p v).cells = s.cells := rfl
@[simp] theorem setServ_ringSends (p : Nat) (v : Serv) : (setServ s p v).ringSends = s.ringSends := rfl
@[simp] theorem setServ_hostQ (p : Nat) (v : Serv) : (setServ s p v).hostQ = s.hostQ := rfl
@[simp] theorem setServ_cdcCnt (p : Nat) (v : Serv) : (setServ s p v).cdcCnt = s.cdcCnt := rfl
@[simp] theorem setServ_cfgSet (p : Nat) (v : Serv) : (setServ s p v).cfgSet = s.cfgSet := rfl
@[simp] theorem setServ_routes (p : Nat) (v : Serv) : (setServ s p v).routes = s.routes := rfl
@[simp] theorem setServ_ranks (p : Nat) (v : Serv) : (setServ s p v).ranks = s.ranks := rfl
@[simp] theorem setServ_pastAddrs (p : Nat) (v : Serv) : (setServ s p v).pastAddrs = s.pastAddrs := rfl
@[simp] theorem setServ_ports (p : Nat) (v : Serv) : (setServ s p v).ports = s.ports := rfl
@[simp] theorem setServ_fabWait (p : Nat) (v : Serv) : (setServ s p v).fabWait = s.fabWait := rfl
@[simp] theorem setServ_nextPkt (p : Nat) (v : Serv) : (setServ s p v).nextPkt = s.nextPkt := rfl
@[simp] theorem setServ_handed (p : Nat) (v : Serv) : (setServ s p v).handed = s.handed := rfl
@[simp] theorem setServ_swarm (p : Nat) (v : Serv) : (setServ s p v).swarm = s.swarm := rfl
@[simp] theorem setServ_hum (p : Nat) (v : Serv) : (setServ s p v).hum = s.hum := rfl
@[simp] theorem setServ_pwr (p : Nat) (v : Serv) : (setServ s p v).pwr = s.pwr := rfl
@[simp] theorem setServ_models (p : Nat) (v : Serv) : (setServ s p v).models = s.models := rfl
@[simp] theorem setServ_streams (p : Nat) (v : Serv) : (setServ s p v).streams = s.streams := rfl
@[simp] theorem setServ_classes (p : Nat) (v : Serv) : (setServ s p v).classes = s.classes := rfl
@[simp] theorem setServ_eth (p : Nat) (v : Serv) : (setServ s p v).eth = s.eth := rfl
@[simp] theorem setServ_sessions (p : Nat) (v : Serv) : (setServ s p v).sessions = s.sessions := rfl
@[simp] theorem setServ_uploads (p : Nat) (v : Serv) : (setServ s p v).uploads = s.uploads := rfl
@[simp] theorem setServ_waitLoads (p : Nat) (v : Serv) : (setServ s p v).waitLoads = s.waitLoads := rfl
@[simp] theorem setServ_prp (p : Nat) (v : Serv) : (setServ s p v).prp = s.prp := rfl
@[simp] theorem setServ_keeper (p : Nat) (v : Serv) : (setServ s p v).keeper = s.keeper := rfl
@[simp] theorem setServ_pins (p : Nat) (v : Serv) : (setServ s p v).pins = s.pins := rfl
@[simp] theorem setServ_takeover (p : Nat) (v : Serv) : (setServ s p v).takeover = s.takeover := rfl
@[simp] theorem setServ_resume (p : Nat) (v : Serv) : (setServ s p v).resume = s.resume := rfl
@[simp] theorem setServ_saved (p : Nat) (v : Serv) : (setServ s p v).saved = s.saved := rfl

@[simp] theorem setSess_pending (n : Nat) (v : Option Sess) : (setSess s n v).pending = s.pending := rfl
@[simp] theorem setSess_free (n : Nat) (v : Option Sess) : (setSess s n v).free = s.free := rfl
@[simp] theorem setSess_out (n : Nat) (v : Option Sess) : (setSess s n v).out = s.out := rfl
@[simp] theorem setSess_regs (n : Nat) (v : Option Sess) : (setSess s n v).regs = s.regs := rfl
@[simp] theorem setSess_mem (n : Nat) (v : Option Sess) : (setSess s n v).mem = s.mem := rfl
@[simp] theorem setSess_poison (n : Nat) (v : Option Sess) : (setSess s n v).poison = s.poison := rfl
@[simp] theorem setSess_comb (n : Nat) (v : Option Sess) : (setSess s n v).comb = s.comb := rfl
@[simp] theorem setSess_lastCorr (n : Nat) (v : Option Sess) : (setSess s n v).lastCorr = s.lastCorr := rfl
@[simp] theorem setSess_ctxs (n : Nat) (v : Option Sess) : (setSess s n v).ctxs = s.ctxs := rfl
@[simp] theorem setSess_slices (n : Nat) (v : Option Sess) : (setSess s n v).slices = s.slices := rfl
@[simp] theorem setSess_partCores (n : Nat) (v : Option Sess) : (setSess s n v).partCores = s.partCores := rfl
@[simp] theorem setSess_chunkBufs (n : Nat) (v : Option Sess) : (setSess s n v).chunkBufs = s.chunkBufs := rfl
@[simp] theorem setSess_train (n : Nat) (v : Option Sess) : (setSess s n v).train = s.train := rfl
@[simp] theorem setSess_recs (n : Nat) (v : Option Sess) : (setSess s n v).recs = s.recs := rfl
@[simp] theorem setSess_recSeq (n : Nat) (v : Option Sess) : (setSess s n v).recSeq = s.recSeq := rfl
@[simp] theorem setSess_log (n : Nat) (v : Option Sess) : (setSess s n v).log = s.log := rfl
@[simp] theorem setSess_logRate (n : Nat) (v : Option Sess) : (setSess s n v).logRate = s.logRate := rfl
@[simp] theorem setSess_thrLogged (n : Nat) (v : Option Sess) : (setSess s n v).thrLogged = s.thrLogged := rfl
@[simp] theorem setSess_rowErrs (n : Nat) (v : Option Sess) : (setSess s n v).rowErrs = s.rowErrs := rfl
@[simp] theorem setSess_flags (n : Nat) (v : Option Sess) : (setSess s n v).flags = s.flags := rfl
@[simp] theorem setSess_bars (n : Nat) (v : Option Sess) : (setSess s n v).bars = s.bars := rfl
@[simp] theorem setSess_waitSeq (n : Nat) (v : Option Sess) : (setSess s n v).waitSeq = s.waitSeq := rfl
@[simp] theorem setSess_rings (n : Nat) (v : Option Sess) : (setSess s n v).rings = s.rings := rfl
@[simp] theorem setSess_grps (n : Nat) (v : Option Sess) : (setSess s n v).grps = s.grps := rfl
@[simp] theorem setSess_trees (n : Nat) (v : Option Sess) : (setSess s n v).trees = s.trees := rfl
@[simp] theorem setSess_cells (n : Nat) (v : Option Sess) : (setSess s n v).cells = s.cells := rfl
@[simp] theorem setSess_ringSends (n : Nat) (v : Option Sess) : (setSess s n v).ringSends = s.ringSends := rfl
@[simp] theorem setSess_hostQ (n : Nat) (v : Option Sess) : (setSess s n v).hostQ = s.hostQ := rfl
@[simp] theorem setSess_cdcCnt (n : Nat) (v : Option Sess) : (setSess s n v).cdcCnt = s.cdcCnt := rfl
@[simp] theorem setSess_cfgSet (n : Nat) (v : Option Sess) : (setSess s n v).cfgSet = s.cfgSet := rfl
@[simp] theorem setSess_routes (n : Nat) (v : Option Sess) : (setSess s n v).routes = s.routes := rfl
@[simp] theorem setSess_ranks (n : Nat) (v : Option Sess) : (setSess s n v).ranks = s.ranks := rfl
@[simp] theorem setSess_pastAddrs (n : Nat) (v : Option Sess) : (setSess s n v).pastAddrs = s.pastAddrs := rfl
@[simp] theorem setSess_ports (n : Nat) (v : Option Sess) : (setSess s n v).ports = s.ports := rfl
@[simp] theorem setSess_fabWait (n : Nat) (v : Option Sess) : (setSess s n v).fabWait = s.fabWait := rfl
@[simp] theorem setSess_nextPkt (n : Nat) (v : Option Sess) : (setSess s n v).nextPkt = s.nextPkt := rfl
@[simp] theorem setSess_handed (n : Nat) (v : Option Sess) : (setSess s n v).handed = s.handed := rfl
@[simp] theorem setSess_swarm (n : Nat) (v : Option Sess) : (setSess s n v).swarm = s.swarm := rfl
@[simp] theorem setSess_hum (n : Nat) (v : Option Sess) : (setSess s n v).hum = s.hum := rfl
@[simp] theorem setSess_pwr (n : Nat) (v : Option Sess) : (setSess s n v).pwr = s.pwr := rfl
@[simp] theorem setSess_models (n : Nat) (v : Option Sess) : (setSess s n v).models = s.models := rfl
@[simp] theorem setSess_streams (n : Nat) (v : Option Sess) : (setSess s n v).streams = s.streams := rfl
@[simp] theorem setSess_serv (n : Nat) (v : Option Sess) : (setSess s n v).serv = s.serv := rfl
@[simp] theorem setSess_classes (n : Nat) (v : Option Sess) : (setSess s n v).classes = s.classes := rfl
@[simp] theorem setSess_eth (n : Nat) (v : Option Sess) : (setSess s n v).eth = s.eth := rfl
@[simp] theorem setSess_uploads (n : Nat) (v : Option Sess) : (setSess s n v).uploads = s.uploads := rfl
@[simp] theorem setSess_waitLoads (n : Nat) (v : Option Sess) : (setSess s n v).waitLoads = s.waitLoads := rfl
@[simp] theorem setSess_prp (n : Nat) (v : Option Sess) : (setSess s n v).prp = s.prp := rfl
@[simp] theorem setSess_keeper (n : Nat) (v : Option Sess) : (setSess s n v).keeper = s.keeper := rfl
@[simp] theorem setSess_pins (n : Nat) (v : Option Sess) : (setSess s n v).pins = s.pins := rfl
@[simp] theorem setSess_takeover (n : Nat) (v : Option Sess) : (setSess s n v).takeover = s.takeover := rfl
@[simp] theorem setSess_resume (n : Nat) (v : Option Sess) : (setSess s n v).resume = s.resume := rfl
@[simp] theorem setSess_saved (n : Nat) (v : Option Sess) : (setSess s n v).saved = s.saved := rfl

@[simp] theorem setThr_pending (key : Nat) (b : Bool) : (setThr s key b).pending = s.pending := rfl
@[simp] theorem setThr_free (key : Nat) (b : Bool) : (setThr s key b).free = s.free := rfl
@[simp] theorem setThr_out (key : Nat) (b : Bool) : (setThr s key b).out = s.out := rfl
@[simp] theorem setThr_regs (key : Nat) (b : Bool) : (setThr s key b).regs = s.regs := rfl
@[simp] theorem setThr_mem (key : Nat) (b : Bool) : (setThr s key b).mem = s.mem := rfl
@[simp] theorem setThr_poison (key : Nat) (b : Bool) : (setThr s key b).poison = s.poison := rfl
@[simp] theorem setThr_comb (key : Nat) (b : Bool) : (setThr s key b).comb = s.comb := rfl
@[simp] theorem setThr_lastCorr (key : Nat) (b : Bool) : (setThr s key b).lastCorr = s.lastCorr := rfl
@[simp] theorem setThr_ctxs (key : Nat) (b : Bool) : (setThr s key b).ctxs = s.ctxs := rfl
@[simp] theorem setThr_slices (key : Nat) (b : Bool) : (setThr s key b).slices = s.slices := rfl
@[simp] theorem setThr_partCores (key : Nat) (b : Bool) : (setThr s key b).partCores = s.partCores := rfl
@[simp] theorem setThr_chunkBufs (key : Nat) (b : Bool) : (setThr s key b).chunkBufs = s.chunkBufs := rfl
@[simp] theorem setThr_train (key : Nat) (b : Bool) : (setThr s key b).train = s.train := rfl
@[simp] theorem setThr_recs (key : Nat) (b : Bool) : (setThr s key b).recs = s.recs := rfl
@[simp] theorem setThr_recSeq (key : Nat) (b : Bool) : (setThr s key b).recSeq = s.recSeq := rfl
@[simp] theorem setThr_log (key : Nat) (b : Bool) : (setThr s key b).log = s.log := rfl
@[simp] theorem setThr_logRate (key : Nat) (b : Bool) : (setThr s key b).logRate = s.logRate := rfl
@[simp] theorem setThr_rowErrs (key : Nat) (b : Bool) : (setThr s key b).rowErrs = s.rowErrs := rfl
@[simp] theorem setThr_flags (key : Nat) (b : Bool) : (setThr s key b).flags = s.flags := rfl
@[simp] theorem setThr_bars (key : Nat) (b : Bool) : (setThr s key b).bars = s.bars := rfl
@[simp] theorem setThr_waitSeq (key : Nat) (b : Bool) : (setThr s key b).waitSeq = s.waitSeq := rfl
@[simp] theorem setThr_rings (key : Nat) (b : Bool) : (setThr s key b).rings = s.rings := rfl
@[simp] theorem setThr_grps (key : Nat) (b : Bool) : (setThr s key b).grps = s.grps := rfl
@[simp] theorem setThr_trees (key : Nat) (b : Bool) : (setThr s key b).trees = s.trees := rfl
@[simp] theorem setThr_cells (key : Nat) (b : Bool) : (setThr s key b).cells = s.cells := rfl
@[simp] theorem setThr_ringSends (key : Nat) (b : Bool) : (setThr s key b).ringSends = s.ringSends := rfl
@[simp] theorem setThr_hostQ (key : Nat) (b : Bool) : (setThr s key b).hostQ = s.hostQ := rfl
@[simp] theorem setThr_cdcCnt (key : Nat) (b : Bool) : (setThr s key b).cdcCnt = s.cdcCnt := rfl
@[simp] theorem setThr_cfgSet (key : Nat) (b : Bool) : (setThr s key b).cfgSet = s.cfgSet := rfl
@[simp] theorem setThr_routes (key : Nat) (b : Bool) : (setThr s key b).routes = s.routes := rfl
@[simp] theorem setThr_ranks (key : Nat) (b : Bool) : (setThr s key b).ranks = s.ranks := rfl
@[simp] theorem setThr_pastAddrs (key : Nat) (b : Bool) : (setThr s key b).pastAddrs = s.pastAddrs := rfl
@[simp] theorem setThr_ports (key : Nat) (b : Bool) : (setThr s key b).ports = s.ports := rfl
@[simp] theorem setThr_fabWait (key : Nat) (b : Bool) : (setThr s key b).fabWait = s.fabWait := rfl
@[simp] theorem setThr_nextPkt (key : Nat) (b : Bool) : (setThr s key b).nextPkt = s.nextPkt := rfl
@[simp] theorem setThr_handed (key : Nat) (b : Bool) : (setThr s key b).handed = s.handed := rfl
@[simp] theorem setThr_swarm (key : Nat) (b : Bool) : (setThr s key b).swarm = s.swarm := rfl
@[simp] theorem setThr_hum (key : Nat) (b : Bool) : (setThr s key b).hum = s.hum := rfl
@[simp] theorem setThr_pwr (key : Nat) (b : Bool) : (setThr s key b).pwr = s.pwr := rfl
@[simp] theorem setThr_models (key : Nat) (b : Bool) : (setThr s key b).models = s.models := rfl
@[simp] theorem setThr_streams (key : Nat) (b : Bool) : (setThr s key b).streams = s.streams := rfl
@[simp] theorem setThr_serv (key : Nat) (b : Bool) : (setThr s key b).serv = s.serv := rfl
@[simp] theorem setThr_classes (key : Nat) (b : Bool) : (setThr s key b).classes = s.classes := rfl
@[simp] theorem setThr_eth (key : Nat) (b : Bool) : (setThr s key b).eth = s.eth := rfl
@[simp] theorem setThr_sessions (key : Nat) (b : Bool) : (setThr s key b).sessions = s.sessions := rfl
@[simp] theorem setThr_uploads (key : Nat) (b : Bool) : (setThr s key b).uploads = s.uploads := rfl
@[simp] theorem setThr_waitLoads (key : Nat) (b : Bool) : (setThr s key b).waitLoads = s.waitLoads := rfl
@[simp] theorem setThr_prp (key : Nat) (b : Bool) : (setThr s key b).prp = s.prp := rfl
@[simp] theorem setThr_keeper (key : Nat) (b : Bool) : (setThr s key b).keeper = s.keeper := rfl
@[simp] theorem setThr_pins (key : Nat) (b : Bool) : (setThr s key b).pins = s.pins := rfl
@[simp] theorem setThr_takeover (key : Nat) (b : Bool) : (setThr s key b).takeover = s.takeover := rfl
@[simp] theorem setThr_resume (key : Nat) (b : Bool) : (setThr s key b).resume = s.resume := rfl
@[simp] theorem setThr_saved (key : Nat) (b : Bool) : (setThr s key b).saved = s.saved := rfl

@[simp] theorem emit_pending (o : Output) : (emit s o).pending = s.pending := rfl
@[simp] theorem emit_free (o : Output) : (emit s o).free = s.free := rfl
@[simp] theorem emit_regs (o : Output) : (emit s o).regs = s.regs := rfl
@[simp] theorem emit_mem (o : Output) : (emit s o).mem = s.mem := rfl
@[simp] theorem emit_poison (o : Output) : (emit s o).poison = s.poison := rfl
@[simp] theorem emit_comb (o : Output) : (emit s o).comb = s.comb := rfl
@[simp] theorem emit_lastCorr (o : Output) : (emit s o).lastCorr = s.lastCorr := rfl
@[simp] theorem emit_ctxs (o : Output) : (emit s o).ctxs = s.ctxs := rfl
@[simp] theorem emit_slices (o : Output) : (emit s o).slices = s.slices := rfl
@[simp] theorem emit_partCores (o : Output) : (emit s o).partCores = s.partCores := rfl
@[simp] theorem emit_chunkBufs (o : Output) : (emit s o).chunkBufs = s.chunkBufs := rfl
@[simp] theorem emit_train (o : Output) : (emit s o).train = s.train := rfl
@[simp] theorem emit_recs (o : Output) : (emit s o).recs = s.recs := rfl
@[simp] theorem emit_recSeq (o : Output) : (emit s o).recSeq = s.recSeq := rfl
@[simp] theorem emit_log (o : Output) : (emit s o).log = s.log := rfl
@[simp] theorem emit_logRate (o : Output) : (emit s o).logRate = s.logRate := rfl
@[simp] theorem emit_thrLogged (o : Output) : (emit s o).thrLogged = s.thrLogged := rfl
@[simp] theorem emit_rowErrs (o : Output) : (emit s o).rowErrs = s.rowErrs := rfl
@[simp] theorem emit_flags (o : Output) : (emit s o).flags = s.flags := rfl
@[simp] theorem emit_bars (o : Output) : (emit s o).bars = s.bars := rfl
@[simp] theorem emit_waitSeq (o : Output) : (emit s o).waitSeq = s.waitSeq := rfl
@[simp] theorem emit_rings (o : Output) : (emit s o).rings = s.rings := rfl
@[simp] theorem emit_grps (o : Output) : (emit s o).grps = s.grps := rfl
@[simp] theorem emit_trees (o : Output) : (emit s o).trees = s.trees := rfl
@[simp] theorem emit_cells (o : Output) : (emit s o).cells = s.cells := rfl
@[simp] theorem emit_ringSends (o : Output) : (emit s o).ringSends = s.ringSends := rfl
@[simp] theorem emit_hostQ (o : Output) : (emit s o).hostQ = s.hostQ := rfl
@[simp] theorem emit_cdcCnt (o : Output) : (emit s o).cdcCnt = s.cdcCnt := rfl
@[simp] theorem emit_cfgSet (o : Output) : (emit s o).cfgSet = s.cfgSet := rfl
@[simp] theorem emit_routes (o : Output) : (emit s o).routes = s.routes := rfl
@[simp] theorem emit_ranks (o : Output) : (emit s o).ranks = s.ranks := rfl
@[simp] theorem emit_pastAddrs (o : Output) : (emit s o).pastAddrs = s.pastAddrs := rfl
@[simp] theorem emit_ports (o : Output) : (emit s o).ports = s.ports := rfl
@[simp] theorem emit_fabWait (o : Output) : (emit s o).fabWait = s.fabWait := rfl
@[simp] theorem emit_nextPkt (o : Output) : (emit s o).nextPkt = s.nextPkt := rfl
@[simp] theorem emit_handed (o : Output) : (emit s o).handed = s.handed := rfl
@[simp] theorem emit_swarm (o : Output) : (emit s o).swarm = s.swarm := rfl
@[simp] theorem emit_hum (o : Output) : (emit s o).hum = s.hum := rfl
@[simp] theorem emit_pwr (o : Output) : (emit s o).pwr = s.pwr := rfl
@[simp] theorem emit_models (o : Output) : (emit s o).models = s.models := rfl
@[simp] theorem emit_streams (o : Output) : (emit s o).streams = s.streams := rfl
@[simp] theorem emit_serv (o : Output) : (emit s o).serv = s.serv := rfl
@[simp] theorem emit_classes (o : Output) : (emit s o).classes = s.classes := rfl
@[simp] theorem emit_eth (o : Output) : (emit s o).eth = s.eth := rfl
@[simp] theorem emit_sessions (o : Output) : (emit s o).sessions = s.sessions := rfl
@[simp] theorem emit_uploads (o : Output) : (emit s o).uploads = s.uploads := rfl
@[simp] theorem emit_waitLoads (o : Output) : (emit s o).waitLoads = s.waitLoads := rfl
@[simp] theorem emit_prp (o : Output) : (emit s o).prp = s.prp := rfl
@[simp] theorem emit_keeper (o : Output) : (emit s o).keeper = s.keeper := rfl
@[simp] theorem emit_pins (o : Output) : (emit s o).pins = s.pins := rfl
@[simp] theorem emit_takeover (o : Output) : (emit s o).takeover = s.takeover := rfl
@[simp] theorem emit_resume (o : Output) : (emit s o).resume = s.resume := rfl
@[simp] theorem emit_saved (o : Output) : (emit s o).saved = s.saved := rfl

@[simp] theorem poisonUnit_pending (a : Nat) : (poisonUnit s a).pending = s.pending := rfl
@[simp] theorem poisonUnit_free (a : Nat) : (poisonUnit s a).free = s.free := rfl
@[simp] theorem poisonUnit_out (a : Nat) : (poisonUnit s a).out = s.out := rfl
@[simp] theorem poisonUnit_regs (a : Nat) : (poisonUnit s a).regs = s.regs := rfl
@[simp] theorem poisonUnit_mem (a : Nat) : (poisonUnit s a).mem = s.mem := rfl
@[simp] theorem poisonUnit_comb (a : Nat) : (poisonUnit s a).comb = s.comb := rfl
@[simp] theorem poisonUnit_lastCorr (a : Nat) : (poisonUnit s a).lastCorr = s.lastCorr := rfl
@[simp] theorem poisonUnit_ctxs (a : Nat) : (poisonUnit s a).ctxs = s.ctxs := rfl
@[simp] theorem poisonUnit_slices (a : Nat) : (poisonUnit s a).slices = s.slices := rfl
@[simp] theorem poisonUnit_partCores (a : Nat) : (poisonUnit s a).partCores = s.partCores := rfl
@[simp] theorem poisonUnit_chunkBufs (a : Nat) : (poisonUnit s a).chunkBufs = s.chunkBufs := rfl
@[simp] theorem poisonUnit_train (a : Nat) : (poisonUnit s a).train = s.train := rfl
@[simp] theorem poisonUnit_recs (a : Nat) : (poisonUnit s a).recs = s.recs := rfl
@[simp] theorem poisonUnit_recSeq (a : Nat) : (poisonUnit s a).recSeq = s.recSeq := rfl
@[simp] theorem poisonUnit_log (a : Nat) : (poisonUnit s a).log = s.log := rfl
@[simp] theorem poisonUnit_logRate (a : Nat) : (poisonUnit s a).logRate = s.logRate := rfl
@[simp] theorem poisonUnit_thrLogged (a : Nat) : (poisonUnit s a).thrLogged = s.thrLogged := rfl
@[simp] theorem poisonUnit_rowErrs (a : Nat) : (poisonUnit s a).rowErrs = s.rowErrs := rfl
@[simp] theorem poisonUnit_flags (a : Nat) : (poisonUnit s a).flags = s.flags := rfl
@[simp] theorem poisonUnit_bars (a : Nat) : (poisonUnit s a).bars = s.bars := rfl
@[simp] theorem poisonUnit_waitSeq (a : Nat) : (poisonUnit s a).waitSeq = s.waitSeq := rfl
@[simp] theorem poisonUnit_rings (a : Nat) : (poisonUnit s a).rings = s.rings := rfl
@[simp] theorem poisonUnit_grps (a : Nat) : (poisonUnit s a).grps = s.grps := rfl
@[simp] theorem poisonUnit_trees (a : Nat) : (poisonUnit s a).trees = s.trees := rfl
@[simp] theorem poisonUnit_cells (a : Nat) : (poisonUnit s a).cells = s.cells := rfl
@[simp] theorem poisonUnit_ringSends (a : Nat) : (poisonUnit s a).ringSends = s.ringSends := rfl
@[simp] theorem poisonUnit_hostQ (a : Nat) : (poisonUnit s a).hostQ = s.hostQ := rfl
@[simp] theorem poisonUnit_cdcCnt (a : Nat) : (poisonUnit s a).cdcCnt = s.cdcCnt := rfl
@[simp] theorem poisonUnit_cfgSet (a : Nat) : (poisonUnit s a).cfgSet = s.cfgSet := rfl
@[simp] theorem poisonUnit_routes (a : Nat) : (poisonUnit s a).routes = s.routes := rfl
@[simp] theorem poisonUnit_ranks (a : Nat) : (poisonUnit s a).ranks = s.ranks := rfl
@[simp] theorem poisonUnit_pastAddrs (a : Nat) : (poisonUnit s a).pastAddrs = s.pastAddrs := rfl
@[simp] theorem poisonUnit_ports (a : Nat) : (poisonUnit s a).ports = s.ports := rfl
@[simp] theorem poisonUnit_fabWait (a : Nat) : (poisonUnit s a).fabWait = s.fabWait := rfl
@[simp] theorem poisonUnit_nextPkt (a : Nat) : (poisonUnit s a).nextPkt = s.nextPkt := rfl
@[simp] theorem poisonUnit_handed (a : Nat) : (poisonUnit s a).handed = s.handed := rfl
@[simp] theorem poisonUnit_swarm (a : Nat) : (poisonUnit s a).swarm = s.swarm := rfl
@[simp] theorem poisonUnit_hum (a : Nat) : (poisonUnit s a).hum = s.hum := rfl
@[simp] theorem poisonUnit_pwr (a : Nat) : (poisonUnit s a).pwr = s.pwr := rfl
@[simp] theorem poisonUnit_models (a : Nat) : (poisonUnit s a).models = s.models := rfl
@[simp] theorem poisonUnit_streams (a : Nat) : (poisonUnit s a).streams = s.streams := rfl
@[simp] theorem poisonUnit_serv (a : Nat) : (poisonUnit s a).serv = s.serv := rfl
@[simp] theorem poisonUnit_classes (a : Nat) : (poisonUnit s a).classes = s.classes := rfl
@[simp] theorem poisonUnit_eth (a : Nat) : (poisonUnit s a).eth = s.eth := rfl
@[simp] theorem poisonUnit_sessions (a : Nat) : (poisonUnit s a).sessions = s.sessions := rfl
@[simp] theorem poisonUnit_uploads (a : Nat) : (poisonUnit s a).uploads = s.uploads := rfl
@[simp] theorem poisonUnit_waitLoads (a : Nat) : (poisonUnit s a).waitLoads = s.waitLoads := rfl
@[simp] theorem poisonUnit_prp (a : Nat) : (poisonUnit s a).prp = s.prp := rfl
@[simp] theorem poisonUnit_keeper (a : Nat) : (poisonUnit s a).keeper = s.keeper := rfl
@[simp] theorem poisonUnit_pins (a : Nat) : (poisonUnit s a).pins = s.pins := rfl
@[simp] theorem poisonUnit_takeover (a : Nat) : (poisonUnit s a).takeover = s.takeover := rfl
@[simp] theorem poisonUnit_resume (a : Nat) : (poisonUnit s a).resume = s.resume := rfl
@[simp] theorem poisonUnit_saved (a : Nat) : (poisonUnit s a).saved = s.saved := rfl

@[simp] theorem writeBytes_pending (a : Nat) (bs : List Byte) : (writeBytes s a bs).pending = s.pending := rfl
@[simp] theorem writeBytes_free (a : Nat) (bs : List Byte) : (writeBytes s a bs).free = s.free := rfl
@[simp] theorem writeBytes_out (a : Nat) (bs : List Byte) : (writeBytes s a bs).out = s.out := rfl
@[simp] theorem writeBytes_regs (a : Nat) (bs : List Byte) : (writeBytes s a bs).regs = s.regs := rfl
@[simp] theorem writeBytes_comb (a : Nat) (bs : List Byte) : (writeBytes s a bs).comb = s.comb := rfl
@[simp] theorem writeBytes_lastCorr (a : Nat) (bs : List Byte) : (writeBytes s a bs).lastCorr = s.lastCorr := rfl
@[simp] theorem writeBytes_ctxs (a : Nat) (bs : List Byte) : (writeBytes s a bs).ctxs = s.ctxs := rfl
@[simp] theorem writeBytes_slices (a : Nat) (bs : List Byte) : (writeBytes s a bs).slices = s.slices := rfl
@[simp] theorem writeBytes_partCores (a : Nat) (bs : List Byte) : (writeBytes s a bs).partCores = s.partCores := rfl
@[simp] theorem writeBytes_chunkBufs (a : Nat) (bs : List Byte) : (writeBytes s a bs).chunkBufs = s.chunkBufs := rfl
@[simp] theorem writeBytes_train (a : Nat) (bs : List Byte) : (writeBytes s a bs).train = s.train := rfl
@[simp] theorem writeBytes_recs (a : Nat) (bs : List Byte) : (writeBytes s a bs).recs = s.recs := rfl
@[simp] theorem writeBytes_recSeq (a : Nat) (bs : List Byte) : (writeBytes s a bs).recSeq = s.recSeq := rfl
@[simp] theorem writeBytes_log (a : Nat) (bs : List Byte) : (writeBytes s a bs).log = s.log := rfl
@[simp] theorem writeBytes_logRate (a : Nat) (bs : List Byte) : (writeBytes s a bs).logRate = s.logRate := rfl
@[simp] theorem writeBytes_thrLogged (a : Nat) (bs : List Byte) : (writeBytes s a bs).thrLogged = s.thrLogged := rfl
@[simp] theorem writeBytes_rowErrs (a : Nat) (bs : List Byte) : (writeBytes s a bs).rowErrs = s.rowErrs := rfl
@[simp] theorem writeBytes_flags (a : Nat) (bs : List Byte) : (writeBytes s a bs).flags = s.flags := rfl
@[simp] theorem writeBytes_bars (a : Nat) (bs : List Byte) : (writeBytes s a bs).bars = s.bars := rfl
@[simp] theorem writeBytes_waitSeq (a : Nat) (bs : List Byte) : (writeBytes s a bs).waitSeq = s.waitSeq := rfl
@[simp] theorem writeBytes_rings (a : Nat) (bs : List Byte) : (writeBytes s a bs).rings = s.rings := rfl
@[simp] theorem writeBytes_grps (a : Nat) (bs : List Byte) : (writeBytes s a bs).grps = s.grps := rfl
@[simp] theorem writeBytes_trees (a : Nat) (bs : List Byte) : (writeBytes s a bs).trees = s.trees := rfl
@[simp] theorem writeBytes_cells (a : Nat) (bs : List Byte) : (writeBytes s a bs).cells = s.cells := rfl
@[simp] theorem writeBytes_ringSends (a : Nat) (bs : List Byte) : (writeBytes s a bs).ringSends = s.ringSends := rfl
@[simp] theorem writeBytes_hostQ (a : Nat) (bs : List Byte) : (writeBytes s a bs).hostQ = s.hostQ := rfl
@[simp] theorem writeBytes_cdcCnt (a : Nat) (bs : List Byte) : (writeBytes s a bs).cdcCnt = s.cdcCnt := rfl
@[simp] theorem writeBytes_cfgSet (a : Nat) (bs : List Byte) : (writeBytes s a bs).cfgSet = s.cfgSet := rfl
@[simp] theorem writeBytes_routes (a : Nat) (bs : List Byte) : (writeBytes s a bs).routes = s.routes := rfl
@[simp] theorem writeBytes_ranks (a : Nat) (bs : List Byte) : (writeBytes s a bs).ranks = s.ranks := rfl
@[simp] theorem writeBytes_pastAddrs (a : Nat) (bs : List Byte) : (writeBytes s a bs).pastAddrs = s.pastAddrs := rfl
@[simp] theorem writeBytes_ports (a : Nat) (bs : List Byte) : (writeBytes s a bs).ports = s.ports := rfl
@[simp] theorem writeBytes_fabWait (a : Nat) (bs : List Byte) : (writeBytes s a bs).fabWait = s.fabWait := rfl
@[simp] theorem writeBytes_nextPkt (a : Nat) (bs : List Byte) : (writeBytes s a bs).nextPkt = s.nextPkt := rfl
@[simp] theorem writeBytes_handed (a : Nat) (bs : List Byte) : (writeBytes s a bs).handed = s.handed := rfl
@[simp] theorem writeBytes_swarm (a : Nat) (bs : List Byte) : (writeBytes s a bs).swarm = s.swarm := rfl
@[simp] theorem writeBytes_hum (a : Nat) (bs : List Byte) : (writeBytes s a bs).hum = s.hum := rfl
@[simp] theorem writeBytes_pwr (a : Nat) (bs : List Byte) : (writeBytes s a bs).pwr = s.pwr := rfl
@[simp] theorem writeBytes_models (a : Nat) (bs : List Byte) : (writeBytes s a bs).models = s.models := rfl
@[simp] theorem writeBytes_streams (a : Nat) (bs : List Byte) : (writeBytes s a bs).streams = s.streams := rfl
@[simp] theorem writeBytes_serv (a : Nat) (bs : List Byte) : (writeBytes s a bs).serv = s.serv := rfl
@[simp] theorem writeBytes_classes (a : Nat) (bs : List Byte) : (writeBytes s a bs).classes = s.classes := rfl
@[simp] theorem writeBytes_eth (a : Nat) (bs : List Byte) : (writeBytes s a bs).eth = s.eth := rfl
@[simp] theorem writeBytes_sessions (a : Nat) (bs : List Byte) : (writeBytes s a bs).sessions = s.sessions := rfl
@[simp] theorem writeBytes_uploads (a : Nat) (bs : List Byte) : (writeBytes s a bs).uploads = s.uploads := rfl
@[simp] theorem writeBytes_waitLoads (a : Nat) (bs : List Byte) : (writeBytes s a bs).waitLoads = s.waitLoads := rfl
@[simp] theorem writeBytes_prp (a : Nat) (bs : List Byte) : (writeBytes s a bs).prp = s.prp := rfl
@[simp] theorem writeBytes_keeper (a : Nat) (bs : List Byte) : (writeBytes s a bs).keeper = s.keeper := rfl
@[simp] theorem writeBytes_pins (a : Nat) (bs : List Byte) : (writeBytes s a bs).pins = s.pins := rfl
@[simp] theorem writeBytes_takeover (a : Nat) (bs : List Byte) : (writeBytes s a bs).takeover = s.takeover := rfl
@[simp] theorem writeBytes_resume (a : Nat) (bs : List Byte) : (writeBytes s a bs).resume = s.resume := rfl
@[simp] theorem writeBytes_saved (a : Nat) (bs : List Byte) : (writeBytes s a bs).saved = s.saved := rfl

@[simp] theorem raise_pending (r : ErrRec) : (raise s r).pending = s.pending := rfl
@[simp] theorem raise_free (r : ErrRec) : (raise s r).free = s.free := rfl
@[simp] theorem raise_out (r : ErrRec) : (raise s r).out = s.out := rfl
@[simp] theorem raise_regs (r : ErrRec) : (raise s r).regs = s.regs := rfl
@[simp] theorem raise_mem (r : ErrRec) : (raise s r).mem = s.mem := rfl
@[simp] theorem raise_poison (r : ErrRec) : (raise s r).poison = s.poison := rfl
@[simp] theorem raise_comb (r : ErrRec) : (raise s r).comb = s.comb := rfl
@[simp] theorem raise_lastCorr (r : ErrRec) : (raise s r).lastCorr = s.lastCorr := rfl
@[simp] theorem raise_ctxs (r : ErrRec) : (raise s r).ctxs = s.ctxs := rfl
@[simp] theorem raise_slices (r : ErrRec) : (raise s r).slices = s.slices := rfl
@[simp] theorem raise_partCores (r : ErrRec) : (raise s r).partCores = s.partCores := rfl
@[simp] theorem raise_chunkBufs (r : ErrRec) : (raise s r).chunkBufs = s.chunkBufs := rfl
@[simp] theorem raise_train (r : ErrRec) : (raise s r).train = s.train := rfl
@[simp] theorem raise_log (r : ErrRec) : (raise s r).log = s.log := rfl
@[simp] theorem raise_logRate (r : ErrRec) : (raise s r).logRate = s.logRate := rfl
@[simp] theorem raise_thrLogged (r : ErrRec) : (raise s r).thrLogged = s.thrLogged := rfl
@[simp] theorem raise_rowErrs (r : ErrRec) : (raise s r).rowErrs = s.rowErrs := rfl
@[simp] theorem raise_flags (r : ErrRec) : (raise s r).flags = s.flags := rfl
@[simp] theorem raise_bars (r : ErrRec) : (raise s r).bars = s.bars := rfl
@[simp] theorem raise_waitSeq (r : ErrRec) : (raise s r).waitSeq = s.waitSeq := rfl
@[simp] theorem raise_rings (r : ErrRec) : (raise s r).rings = s.rings := rfl
@[simp] theorem raise_grps (r : ErrRec) : (raise s r).grps = s.grps := rfl
@[simp] theorem raise_trees (r : ErrRec) : (raise s r).trees = s.trees := rfl
@[simp] theorem raise_cells (r : ErrRec) : (raise s r).cells = s.cells := rfl
@[simp] theorem raise_ringSends (r : ErrRec) : (raise s r).ringSends = s.ringSends := rfl
@[simp] theorem raise_hostQ (r : ErrRec) : (raise s r).hostQ = s.hostQ := rfl
@[simp] theorem raise_cdcCnt (r : ErrRec) : (raise s r).cdcCnt = s.cdcCnt := rfl
@[simp] theorem raise_cfgSet (r : ErrRec) : (raise s r).cfgSet = s.cfgSet := rfl
@[simp] theorem raise_routes (r : ErrRec) : (raise s r).routes = s.routes := rfl
@[simp] theorem raise_ranks (r : ErrRec) : (raise s r).ranks = s.ranks := rfl
@[simp] theorem raise_pastAddrs (r : ErrRec) : (raise s r).pastAddrs = s.pastAddrs := rfl
@[simp] theorem raise_ports (r : ErrRec) : (raise s r).ports = s.ports := rfl
@[simp] theorem raise_fabWait (r : ErrRec) : (raise s r).fabWait = s.fabWait := rfl
@[simp] theorem raise_nextPkt (r : ErrRec) : (raise s r).nextPkt = s.nextPkt := rfl
@[simp] theorem raise_handed (r : ErrRec) : (raise s r).handed = s.handed := rfl
@[simp] theorem raise_swarm (r : ErrRec) : (raise s r).swarm = s.swarm := rfl
@[simp] theorem raise_hum (r : ErrRec) : (raise s r).hum = s.hum := rfl
@[simp] theorem raise_pwr (r : ErrRec) : (raise s r).pwr = s.pwr := rfl
@[simp] theorem raise_models (r : ErrRec) : (raise s r).models = s.models := rfl
@[simp] theorem raise_streams (r : ErrRec) : (raise s r).streams = s.streams := rfl
@[simp] theorem raise_serv (r : ErrRec) : (raise s r).serv = s.serv := rfl
@[simp] theorem raise_classes (r : ErrRec) : (raise s r).classes = s.classes := rfl
@[simp] theorem raise_eth (r : ErrRec) : (raise s r).eth = s.eth := rfl
@[simp] theorem raise_sessions (r : ErrRec) : (raise s r).sessions = s.sessions := rfl
@[simp] theorem raise_uploads (r : ErrRec) : (raise s r).uploads = s.uploads := rfl
@[simp] theorem raise_waitLoads (r : ErrRec) : (raise s r).waitLoads = s.waitLoads := rfl
@[simp] theorem raise_prp (r : ErrRec) : (raise s r).prp = s.prp := rfl
@[simp] theorem raise_keeper (r : ErrRec) : (raise s r).keeper = s.keeper := rfl
@[simp] theorem raise_pins (r : ErrRec) : (raise s r).pins = s.pins := rfl
@[simp] theorem raise_takeover (r : ErrRec) : (raise s r).takeover = s.takeover := rfl
@[simp] theorem raise_resume (r : ErrRec) : (raise s r).resume = s.resume := rfl
@[simp] theorem raise_saved (r : ErrRec) : (raise s r).saved = s.saved := rfl

end Sys2Proof.Machine
end

