-- ==== Sys2Proof/Laws/Tables.lean ====
section
/-! SUPPORT. The tables of the state: what a read of an entry finds after an entry was written, for contexts, cores, tasks and
every other numbered thing, and for the registers and their fields. -/

namespace Sys2Proof.Machine

@[simp] theorem getCtx_setCtx (s : State) (k : Nat) (v : Ctx) : getCtx (setCtx s k v) k = v := by
  simp [getCtx, setCtx]

@[simp] theorem setCtx_setCtx (s : State) (k : Nat) (v w : Ctx) : setCtx (setCtx s k v) k w = setCtx s k w := by
  simp [setCtx]

theorem getCtx_setCtx_other (s : State) {k j : Nat} (v : Ctx) (h : j ≠ k) : getCtx (setCtx s k v) j = getCtx s j := by
  simp [getCtx, setCtx, Sparse.get_set_other _ _ h]

@[simp] theorem getSlice_setSlice (s : State) (k : Nat) (v : Slice) : getSlice (setSlice s k v) k = v := by
  simp [getSlice, setSlice]

@[simp] theorem setSlice_setSlice (s : State) (k : Nat) (v w : Slice) : setSlice (setSlice s k v) k w = setSlice s k w := by
  simp [setSlice]

theorem getSlice_setSlice_other (s : State) {k j : Nat} (v : Slice) (h : j ≠ k) : getSlice (setSlice s k v) j = getSlice s j := by
  simp [getSlice, setSlice, Sparse.get_set_other _ _ h]

@[simp] theorem getTrain_setTrain (s : State) (k : Nat) (v : Train) : getTrain (setTrain s k v) k = v := by
  simp [getTrain, setTrain]

@[simp] theorem setTrain_setTrain (s : State) (k : Nat) (v w : Train) : setTrain (setTrain s k v) k w = setTrain s k w := by
  simp [setTrain]

theorem getTrain_setTrain_other (s : State) {k j : Nat} (v : Train) (h : j ≠ k) : getTrain (setTrain s k v) j = getTrain s j := by
  simp [getTrain, setTrain, Sparse.get_set_other _ _ h]

@[simp] theorem getFlag_setFlag (s : State) (k : Nat) (v : FlagSt) : getFlag (setFlag s k v) k = v := by
  simp [getFlag, setFlag]

@[simp] theorem setFlag_setFlag (s : State) (k : Nat) (v w : FlagSt) : setFlag (setFlag s k v) k w = setFlag s k w := by
  simp [setFlag]

theorem getFlag_setFlag_other (s : State) {k j : Nat} (v : FlagSt) (h : j ≠ k) : getFlag (setFlag s k v) j = getFlag s j := by
  simp [getFlag, setFlag, Sparse.get_set_other _ _ h]

@[simp] theorem getBar_setBar (s : State) (k : Nat) (v : BarSt) : getBar (setBar s k v) k = v := by
  simp [getBar, setBar]

@[simp] theorem setBar_setBar (s : State) (k : Nat) (v w : BarSt) : setBar (setBar s k v) k w = setBar s k w := by
  simp [setBar]

theorem getBar_setBar_other (s : State) {k j : Nat} (v : BarSt) (h : j ≠ k) : getBar (setBar s k v) j = getBar s j := by
  simp [getBar, setBar, Sparse.get_set_other _ _ h]

@[simp] theorem getRing_setRing (s : State) (k : Nat) (v : Ring) : getRing (setRing s k v) k = v := by
  simp [getRing, setRing]

@[simp] theorem setRing_setRing (s : State) (k : Nat) (v w : Ring) : setRing (setRing s k v) k w = setRing s k w := by
  simp [setRing]

theorem getRing_setRing_other (s : State) {k j : Nat} (v : Ring) (h : j ≠ k) : getRing (setRing s k v) j = getRing s j := by
  simp [getRing, setRing, Sparse.get_set_other _ _ h]

@[simp] theorem getGrp_setGrp (s : State) (k : Nat) (v : Grp) : getGrp (setGrp s k v) k = v := by
  simp [getGrp, setGrp]

@[simp] theorem setGrp_setGrp (s : State) (k : Nat) (v w : Grp) : setGrp (setGrp s k v) k w = setGrp s k w := by
  simp [setGrp]

theorem getGrp_setGrp_other (s : State) {k j : Nat} (v : Grp) (h : j ≠ k) : getGrp (setGrp s k v) j = getGrp s j := by
  simp [getGrp, setGrp, Sparse.get_set_other _ _ h]

@[simp] theorem getTree_setTree (s : State) (k : Nat) (v : WTree) : getTree (setTree s k v) k = v := by
  simp [getTree, setTree]

@[simp] theorem setTree_setTree (s : State) (k : Nat) (v w : WTree) : setTree (setTree s k v) k w = setTree s k w := by
  simp [setTree]

theorem getTree_setTree_other (s : State) {k j : Nat} (v : WTree) (h : j ≠ k) : getTree (setTree s k v) j = getTree s j := by
  simp [getTree, setTree, Sparse.get_set_other _ _ h]

@[simp] theorem getCell_setCell (s : State) (k : Nat) (v : Cell) : getCell (setCell s k v) k = v := by
  simp [getCell, setCell]

@[simp] theorem setCell_setCell (s : State) (k : Nat) (v w : Cell) : setCell (setCell s k v) k w = setCell s k w := by
  simp [setCell]

theorem getCell_setCell_other (s : State) {k j : Nat} (v : Cell) (h : j ≠ k) : getCell (setCell s k v) j = getCell s j := by
  simp [getCell, setCell, Sparse.get_set_other _ _ h]

@[simp] theorem getPort_setPort (s : State) (k : Nat) (v : Port) : getPort (setPort s k v) k = v := by
  simp [getPort, setPort]

@[simp] theorem setPort_setPort (s : State) (k : Nat) (v w : Port) : setPort (setPort s k v) k w = setPort s k w := by
  simp [setPort]

theorem getPort_setPort_other (s : State) {k j : Nat} (v : Port) (h : j ≠ k) : getPort (setPort s k v) j = getPort s j := by
  simp [getPort, setPort, Sparse.get_set_other _ _ h]

@[simp] theorem getStream_setStream (s : State) (k : Nat) (v : Option Stream) : getStream (setStream s k v) k = v := by
  simp [getStream, setStream]

@[simp] theorem setStream_setStream (s : State) (k : Nat) (v w : Option Stream) : setStream (setStream s k v) k w = setStream s k w := by
  simp [setStream]

theorem getStream_setStream_other (s : State) {k j : Nat} (v : Option Stream) (h : j ≠ k) : getStream (setStream s k v) j = getStream s j := by
  simp [getStream, setStream, Sparse.get_set_other _ _ h]

@[simp] theorem getModel_setModel (s : State) (k : Nat) (v : Option SModel) : getModel (setModel s k v) k = v := by
  simp [getModel, setModel]

@[simp] theorem setModel_setModel (s : State) (k : Nat) (v w : Option SModel) : setModel (setModel s k v) k w = setModel s k w := by
  simp [setModel]

theorem getModel_setModel_other (s : State) {k j : Nat} (v : Option SModel) (h : j ≠ k) : getModel (setModel s k v) j = getModel s j := by
  simp [getModel, setModel, Sparse.get_set_other _ _ h]

@[simp] theorem getServ_setServ (s : State) (k : Nat) (v : Serv) : getServ (setServ s k v) k = v := by
  simp [getServ, setServ]

@[simp] theorem setServ_setServ (s : State) (k : Nat) (v w : Serv) : setServ (setServ s k v) k w = setServ s k w := by
  simp [setServ]

theorem getServ_setServ_other (s : State) {k j : Nat} (v : Serv) (h : j ≠ k) : getServ (setServ s k v) j = getServ s j := by
  simp [getServ, setServ, Sparse.get_set_other _ _ h]

@[simp] theorem getSess_setSess (s : State) (k : Nat) (v : Option Sess) : getSess (setSess s k v) k = v := by
  simp [getSess, setSess]

@[simp] theorem setSess_setSess (s : State) (k : Nat) (v w : Option Sess) : setSess (setSess s k v) k w = setSess s k w := by
  simp [setSess]

theorem getSess_setSess_other (s : State) {k j : Nat} (v : Option Sess) (h : j ≠ k) : getSess (setSess s k v) j = getSess s j := by
  simp [getSess, setSess, Sparse.get_set_other _ _ h]

@[simp] theorem getCtx_setSlice (s : State) (k j : Nat) (v : Slice) : getCtx (setSlice s k v) j = getCtx s j := rfl
@[simp] theorem getCtx_setTrain (s : State) (k j : Nat) (v : Train) : getCtx (setTrain s k v) j = getCtx s j := rfl
@[simp] theorem getCtx_setFlag (s : State) (k j : Nat) (v : FlagSt) : getCtx (setFlag s k v) j = getCtx s j := rfl
@[simp] theorem getCtx_setBar (s : State) (k j : Nat) (v : BarSt) : getCtx (setBar s k v) j = getCtx s j := rfl
@[simp] theorem getCtx_setRing (s : State) (k j : Nat) (v : Ring) : getCtx (setRing s k v) j = getCtx s j := rfl
@[simp] theorem getCtx_setGrp (s : State) (k j : Nat) (v : Grp) : getCtx (setGrp s k v) j = getCtx s j := rfl
@[simp] theorem getCtx_setTree (s : State) (k j : Nat) (v : WTree) : getCtx (setTree s k v) j = getCtx s j := rfl
@[simp] theorem getCtx_setCell (s : State) (k j : Nat) (v : Cell) : getCtx (setCell s k v) j = getCtx s j := rfl
@[simp] theorem getCtx_setPort (s : State) (k j : Nat) (v : Port) : getCtx (setPort s k v) j = getCtx s j := rfl
@[simp] theorem getCtx_setStream (s : State) (k j : Nat) (v : Option Stream) : getCtx (setStream s k v) j = getCtx s j := rfl
@[simp] theorem getCtx_setModel (s : State) (k j : Nat) (v : Option SModel) : getCtx (setModel s k v) j = getCtx s j := rfl
@[simp] theorem getCtx_setServ (s : State) (k j : Nat) (v : Serv) : getCtx (setServ s k v) j = getCtx s j := rfl
@[simp] theorem getCtx_setSess (s : State) (k j : Nat) (v : Option Sess) : getCtx (setSess s k v) j = getCtx s j := rfl
@[simp] theorem getCtx_wr (s : State) (j : Nat) (a : Nat) (w : Word) : getCtx (wr s a w) j = getCtx s j := rfl
@[simp] theorem getCtx_setFld (s : State) (j : Nat) (a : Nat) (f : Fld) (v : Nat) : getCtx (setFld s a f v) j = getCtx s j := rfl
@[simp] theorem getCtx_bump (s : State) (j : Nat) (a : Nat) (f : Fld) (m : Nat) : getCtx (bump s a f m) j = getCtx s j := rfl
@[simp] theorem getCtx_emit (s : State) (j : Nat) (o : Output) : getCtx (emit s o) j = getCtx s j := rfl
@[simp] theorem getCtx_raise (s : State) (j : Nat) (r : ErrRec) : getCtx (raise s r) j = getCtx s j := rfl
@[simp] theorem getCtx_writeBytes (s : State) (j : Nat) (a : Nat) (bs : List Byte) : getCtx (writeBytes s a bs) j = getCtx s j := rfl
@[simp] theorem getCtx_poisonUnit (s : State) (j : Nat) (a : Nat) : getCtx (poisonUnit s a) j = getCtx s j := rfl

@[simp] theorem getSlice_setCtx (s : State) (k j : Nat) (v : Ctx) : getSlice (setCtx s k v) j = getSlice s j := rfl
@[simp] theorem getSlice_setTrain (s : State) (k j : Nat) (v : Train) : getSlice (setTrain s k v) j = getSlice s j := rfl
@[simp] theorem getSlice_setFlag (s : State) (k j : Nat) (v : FlagSt) : getSlice (setFlag s k v) j = getSlice s j := rfl
@[simp] theorem getSlice_setBar (s : State) (k j : Nat) (v : BarSt) : getSlice (setBar s k v) j = getSlice s j := rfl
@[simp] theorem getSlice_setRing (s : State) (k j : Nat) (v : Ring) : getSlice (setRing s k v) j = getSlice s j := rfl
@[simp] theorem getSlice_setGrp (s : State) (k j : Nat) (v : Grp) : getSlice (setGrp s k v) j = getSlice s j := rfl
@[simp] theorem getSlice_setTree (s : State) (k j : Nat) (v : WTree) : getSlice (setTree s k v) j = getSlice s j := rfl
@[simp] theorem getSlice_setCell (s : State) (k j : Nat) (v : Cell) : getSlice (setCell s k v) j = getSlice s j := rfl
@[simp] theorem getSlice_setPort (s : State) (k j : Nat) (v : Port) : getSlice (setPort s k v) j = getSlice s j := rfl
@[simp] theorem getSlice_setStream (s : State) (k j : Nat) (v : Option Stream) : getSlice (setStream s k v) j = getSlice s j := rfl
@[simp] theorem getSlice_setModel (s : State) (k j : Nat) (v : Option SModel) : getSlice (setModel s k v) j = getSlice s j := rfl
@[simp] theorem getSlice_setServ (s : State) (k j : Nat) (v : Serv) : getSlice (setServ s k v) j = getSlice s j := rfl
@[simp] theorem getSlice_setSess (s : State) (k j : Nat) (v : Option Sess) : getSlice (setSess s k v) j = getSlice s j := rfl
@[simp] theorem getSlice_wr (s : State) (j : Nat) (a : Nat) (w : Word) : getSlice (wr s a w) j = getSlice s j := rfl
@[simp] theorem getSlice_setFld (s : State) (j : Nat) (a : Nat) (f : Fld) (v : Nat) : getSlice (setFld s a f v) j = getSlice s j := rfl
@[simp] theorem getSlice_bump (s : State) (j : Nat) (a : Nat) (f : Fld) (m : Nat) : getSlice (bump s a f m) j = getSlice s j := rfl
@[simp] theorem getSlice_emit (s : State) (j : Nat) (o : Output) : getSlice (emit s o) j = getSlice s j := rfl
@[simp] theorem getSlice_raise (s : State) (j : Nat) (r : ErrRec) : getSlice (raise s r) j = getSlice s j := rfl
@[simp] theorem getSlice_writeBytes (s : State) (j : Nat) (a : Nat) (bs : List Byte) : getSlice (writeBytes s a bs) j = getSlice s j := rfl
@[simp] theorem getSlice_poisonUnit (s : State) (j : Nat) (a : Nat) : getSlice (poisonUnit s a) j = getSlice s j := rfl

@[simp] theorem getTrain_setCtx (s : State) (k j : Nat) (v : Ctx) : getTrain (setCtx s k v) j = getTrain s j := rfl
@[simp] theorem getTrain_setSlice (s : State) (k j : Nat) (v : Slice) : getTrain (setSlice s k v) j = getTrain s j := rfl
@[simp] theorem getTrain_setFlag (s : State) (k j : Nat) (v : FlagSt) : getTrain (setFlag s k v) j = getTrain s j := rfl
@[simp] theorem getTrain_setBar (s : State) (k j : Nat) (v : BarSt) : getTrain (setBar s k v) j = getTrain s j := rfl
@[simp] theorem getTrain_setRing (s : State) (k j : Nat) (v : Ring) : getTrain (setRing s k v) j = getTrain s j := rfl
@[simp] theorem getTrain_setGrp (s : State) (k j : Nat) (v : Grp) : getTrain (setGrp s k v) j = getTrain s j := rfl
@[simp] theorem getTrain_setTree (s : State) (k j : Nat) (v : WTree) : getTrain (setTree s k v) j = getTrain s j := rfl
@[simp] theorem getTrain_setCell (s : State) (k j : Nat) (v : Cell) : getTrain (setCell s k v) j = getTrain s j := rfl
@[simp] theorem getTrain_setPort (s : State) (k j : Nat) (v : Port) : getTrain (setPort s k v) j = getTrain s j := rfl
@[simp] theorem getTrain_setStream (s : State) (k j : Nat) (v : Option Stream) : getTrain (setStream s k v) j = getTrain s j := rfl
@[simp] theorem getTrain_setModel (s : State) (k j : Nat) (v : Option SModel) : getTrain (setModel s k v) j = getTrain s j := rfl
@[simp] theorem getTrain_setServ (s : State) (k j : Nat) (v : Serv) : getTrain (setServ s k v) j = getTrain s j := rfl
@[simp] theorem getTrain_setSess (s : State) (k j : Nat) (v : Option Sess) : getTrain (setSess s k v) j = getTrain s j := rfl
@[simp] theorem getTrain_wr (s : State) (j : Nat) (a : Nat) (w : Word) : getTrain (wr s a w) j = getTrain s j := rfl
@[simp] theorem getTrain_setFld (s : State) (j : Nat) (a : Nat) (f : Fld) (v : Nat) : getTrain (setFld s a f v) j = getTrain s j := rfl
@[simp] theorem getTrain_bump (s : State) (j : Nat) (a : Nat) (f : Fld) (m : Nat) : getTrain (bump s a f m) j = getTrain s j := rfl
@[simp] theorem getTrain_emit (s : State) (j : Nat) (o : Output) : getTrain (emit s o) j = getTrain s j := rfl
@[simp] theorem getTrain_raise (s : State) (j : Nat) (r : ErrRec) : getTrain (raise s r) j = getTrain s j := rfl
@[simp] theorem getTrain_writeBytes (s : State) (j : Nat) (a : Nat) (bs : List Byte) : getTrain (writeBytes s a bs) j = getTrain s j := rfl
@[simp] theorem getTrain_poisonUnit (s : State) (j : Nat) (a : Nat) : getTrain (poisonUnit s a) j = getTrain s j := rfl

@[simp] theorem getFlag_setCtx (s : State) (k j : Nat) (v : Ctx) : getFlag (setCtx s k v) j = getFlag s j := rfl
@[simp] theorem getFlag_setSlice (s : State) (k j : Nat) (v : Slice) : getFlag (setSlice s k v) j = getFlag s j := rfl
@[simp] theorem getFlag_setTrain (s : State) (k j : Nat) (v : Train) : getFlag (setTrain s k v) j = getFlag s j := rfl
@[simp] theorem getFlag_setBar (s : State) (k j : Nat) (v : BarSt) : getFlag (setBar s k v) j = getFlag s j := rfl
@[simp] theorem getFlag_setRing (s : State) (k j : Nat) (v : Ring) : getFlag (setRing s k v) j = getFlag s j := rfl
@[simp] theorem getFlag_setGrp (s : State) (k j : Nat) (v : Grp) : getFlag (setGrp s k v) j = getFlag s j := rfl
@[simp] theorem getFlag_setTree (s : State) (k j : Nat) (v : WTree) : getFlag (setTree s k v) j = getFlag s j := rfl
@[simp] theorem getFlag_setCell (s : State) (k j : Nat) (v : Cell) : getFlag (setCell s k v) j = getFlag s j := rfl
@[simp] theorem getFlag_setPort (s : State) (k j : Nat) (v : Port) : getFlag (setPort s k v) j = getFlag s j := rfl
@[simp] theorem getFlag_setStream (s : State) (k j : Nat) (v : Option Stream) : getFlag (setStream s k v) j = getFlag s j := rfl
@[simp] theorem getFlag_setModel (s : State) (k j : Nat) (v : Option SModel) : getFlag (setModel s k v) j = getFlag s j := rfl
@[simp] theorem getFlag_setServ (s : State) (k j : Nat) (v : Serv) : getFlag (setServ s k v) j = getFlag s j := rfl
@[simp] theorem getFlag_setSess (s : State) (k j : Nat) (v : Option Sess) : getFlag (setSess s k v) j = getFlag s j := rfl
@[simp] theorem getFlag_wr (s : State) (j : Nat) (a : Nat) (w : Word) : getFlag (wr s a w) j = getFlag s j := rfl
@[simp] theorem getFlag_setFld (s : State) (j : Nat) (a : Nat) (f : Fld) (v : Nat) : getFlag (setFld s a f v) j = getFlag s j := rfl
@[simp] theorem getFlag_bump (s : State) (j : Nat) (a : Nat) (f : Fld) (m : Nat) : getFlag (bump s a f m) j = getFlag s j := rfl
@[simp] theorem getFlag_emit (s : State) (j : Nat) (o : Output) : getFlag (emit s o) j = getFlag s j := rfl
@[simp] theorem getFlag_raise (s : State) (j : Nat) (r : ErrRec) : getFlag (raise s r) j = getFlag s j := rfl
@[simp] theorem getFlag_writeBytes (s : State) (j : Nat) (a : Nat) (bs : List Byte) : getFlag (writeBytes s a bs) j = getFlag s j := rfl
@[simp] theorem getFlag_poisonUnit (s : State) (j : Nat) (a : Nat) : getFlag (poisonUnit s a) j = getFlag s j := rfl

@[simp] theorem getBar_setCtx (s : State) (k j : Nat) (v : Ctx) : getBar (setCtx s k v) j = getBar s j := rfl
@[simp] theorem getBar_setSlice (s : State) (k j : Nat) (v : Slice) : getBar (setSlice s k v) j = getBar s j := rfl
@[simp] theorem getBar_setTrain (s : State) (k j : Nat) (v : Train) : getBar (setTrain s k v) j = getBar s j := rfl
@[simp] theorem getBar_setFlag (s : State) (k j : Nat) (v : FlagSt) : getBar (setFlag s k v) j = getBar s j := rfl
@[simp] theorem getBar_setRing (s : State) (k j : Nat) (v : Ring) : getBar (setRing s k v) j = getBar s j := rfl
@[simp] theorem getBar_setGrp (s : State) (k j : Nat) (v : Grp) : getBar (setGrp s k v) j = getBar s j := rfl
@[simp] theorem getBar_setTree (s : State) (k j : Nat) (v : WTree) : getBar (setTree s k v) j = getBar s j := rfl
@[simp] theorem getBar_setCell (s : State) (k j : Nat) (v : Cell) : getBar (setCell s k v) j = getBar s j := rfl
@[simp] theorem getBar_setPort (s : State) (k j : Nat) (v : Port) : getBar (setPort s k v) j = getBar s j := rfl
@[simp] theorem getBar_setStream (s : State) (k j : Nat) (v : Option Stream) : getBar (setStream s k v) j = getBar s j := rfl
@[simp] theorem getBar_setModel (s : State) (k j : Nat) (v : Option SModel) : getBar (setModel s k v) j = getBar s j := rfl
@[simp] theorem getBar_setServ (s : State) (k j : Nat) (v : Serv) : getBar (setServ s k v) j = getBar s j := rfl
@[simp] theorem getBar_setSess (s : State) (k j : Nat) (v : Option Sess) : getBar (setSess s k v) j = getBar s j := rfl
@[simp] theorem getBar_wr (s : State) (j : Nat) (a : Nat) (w : Word) : getBar (wr s a w) j = getBar s j := rfl
@[simp] theorem getBar_setFld (s : State) (j : Nat) (a : Nat) (f : Fld) (v : Nat) : getBar (setFld s a f v) j = getBar s j := rfl
@[simp] theorem getBar_bump (s : State) (j : Nat) (a : Nat) (f : Fld) (m : Nat) : getBar (bump s a f m) j = getBar s j := rfl
@[simp] theorem getBar_emit (s : State) (j : Nat) (o : Output) : getBar (emit s o) j = getBar s j := rfl
@[simp] theorem getBar_raise (s : State) (j : Nat) (r : ErrRec) : getBar (raise s r) j = getBar s j := rfl
@[simp] theorem getBar_writeBytes (s : State) (j : Nat) (a : Nat) (bs : List Byte) : getBar (writeBytes s a bs) j = getBar s j := rfl
@[simp] theorem getBar_poisonUnit (s : State) (j : Nat) (a : Nat) : getBar (poisonUnit s a) j = getBar s j := rfl

@[simp] theorem getRing_setCtx (s : State) (k j : Nat) (v : Ctx) : getRing (setCtx s k v) j = getRing s j := rfl
@[simp] theorem getRing_setSlice (s : State) (k j : Nat) (v : Slice) : getRing (setSlice s k v) j = getRing s j := rfl
@[simp] theorem getRing_setTrain (s : State) (k j : Nat) (v : Train) : getRing (setTrain s k v) j = getRing s j := rfl
@[simp] theorem getRing_setFlag (s : State) (k j : Nat) (v : FlagSt) : getRing (setFlag s k v) j = getRing s j := rfl
@[simp] theorem getRing_setBar (s : State) (k j : Nat) (v : BarSt) : getRing (setBar s k v) j = getRing s j := rfl
@[simp] theorem getRing_setGrp (s : State) (k j : Nat) (v : Grp) : getRing (setGrp s k v) j = getRing s j := rfl
@[simp] theorem getRing_setTree (s : State) (k j : Nat) (v : WTree) : getRing (setTree s k v) j = getRing s j := rfl
@[simp] theorem getRing_setCell (s : State) (k j : Nat) (v : Cell) : getRing (setCell s k v) j = getRing s j := rfl
@[simp] theorem getRing_setPort (s : State) (k j : Nat) (v : Port) : getRing (setPort s k v) j = getRing s j := rfl
@[simp] theorem getRing_setStream (s : State) (k j : Nat) (v : Option Stream) : getRing (setStream s k v) j = getRing s j := rfl
@[simp] theorem getRing_setModel (s : State) (k j : Nat) (v : Option SModel) : getRing (setModel s k v) j = getRing s j := rfl
@[simp] theorem getRing_setServ (s : State) (k j : Nat) (v : Serv) : getRing (setServ s k v) j = getRing s j := rfl
@[simp] theorem getRing_setSess (s : State) (k j : Nat) (v : Option Sess) : getRing (setSess s k v) j = getRing s j := rfl
@[simp] theorem getRing_wr (s : State) (j : Nat) (a : Nat) (w : Word) : getRing (wr s a w) j = getRing s j := rfl
@[simp] theorem getRing_setFld (s : State) (j : Nat) (a : Nat) (f : Fld) (v : Nat) : getRing (setFld s a f v) j = getRing s j := rfl
@[simp] theorem getRing_bump (s : State) (j : Nat) (a : Nat) (f : Fld) (m : Nat) : getRing (bump s a f m) j = getRing s j := rfl
@[simp] theorem getRing_emit (s : State) (j : Nat) (o : Output) : getRing (emit s o) j = getRing s j := rfl
@[simp] theorem getRing_raise (s : State) (j : Nat) (r : ErrRec) : getRing (raise s r) j = getRing s j := rfl
@[simp] theorem getRing_writeBytes (s : State) (j : Nat) (a : Nat) (bs : List Byte) : getRing (writeBytes s a bs) j = getRing s j := rfl
@[simp] theorem getRing_poisonUnit (s : State) (j : Nat) (a : Nat) : getRing (poisonUnit s a) j = getRing s j := rfl

@[simp] theorem getGrp_setCtx (s : State) (k j : Nat) (v : Ctx) : getGrp (setCtx s k v) j = getGrp s j := rfl
@[simp] theorem getGrp_setSlice (s : State) (k j : Nat) (v : Slice) : getGrp (setSlice s k v) j = getGrp s j := rfl
@[simp] theorem getGrp_setTrain (s : State) (k j : Nat) (v : Train) : getGrp (setTrain s k v) j = getGrp s j := rfl
@[simp] theorem getGrp_setFlag (s : State) (k j : Nat) (v : FlagSt) : getGrp (setFlag s k v) j = getGrp s j := rfl
@[simp] theorem getGrp_setBar (s : State) (k j : Nat) (v : BarSt) : getGrp (setBar s k v) j = getGrp s j := rfl
@[simp] theorem getGrp_setRing (s : State) (k j : Nat) (v : Ring) : getGrp (setRing s k v) j = getGrp s j := rfl
@[simp] theorem getGrp_setTree (s : State) (k j : Nat) (v : WTree) : getGrp (setTree s k v) j = getGrp s j := rfl
@[simp] theorem getGrp_setCell (s : State) (k j : Nat) (v : Cell) : getGrp (setCell s k v) j = getGrp s j := rfl
@[simp] theorem getGrp_setPort (s : State) (k j : Nat) (v : Port) : getGrp (setPort s k v) j = getGrp s j := rfl
@[simp] theorem getGrp_setStream (s : State) (k j : Nat) (v : Option Stream) : getGrp (setStream s k v) j = getGrp s j := rfl
@[simp] theorem getGrp_setModel (s : State) (k j : Nat) (v : Option SModel) : getGrp (setModel s k v) j = getGrp s j := rfl
@[simp] theorem getGrp_setServ (s : State) (k j : Nat) (v : Serv) : getGrp (setServ s k v) j = getGrp s j := rfl
@[simp] theorem getGrp_setSess (s : State) (k j : Nat) (v : Option Sess) : getGrp (setSess s k v) j = getGrp s j := rfl
@[simp] theorem getGrp_wr (s : State) (j : Nat) (a : Nat) (w : Word) : getGrp (wr s a w) j = getGrp s j := rfl
@[simp] theorem getGrp_setFld (s : State) (j : Nat) (a : Nat) (f : Fld) (v : Nat) : getGrp (setFld s a f v) j = getGrp s j := rfl
@[simp] theorem getGrp_bump (s : State) (j : Nat) (a : Nat) (f : Fld) (m : Nat) : getGrp (bump s a f m) j = getGrp s j := rfl
@[simp] theorem getGrp_emit (s : State) (j : Nat) (o : Output) : getGrp (emit s o) j = getGrp s j := rfl
@[simp] theorem getGrp_raise (s : State) (j : Nat) (r : ErrRec) : getGrp (raise s r) j = getGrp s j := rfl
@[simp] theorem getGrp_writeBytes (s : State) (j : Nat) (a : Nat) (bs : List Byte) : getGrp (writeBytes s a bs) j = getGrp s j := rfl
@[simp] theorem getGrp_poisonUnit (s : State) (j : Nat) (a : Nat) : getGrp (poisonUnit s a) j = getGrp s j := rfl

@[simp] theorem getTree_setCtx (s : State) (k j : Nat) (v : Ctx) : getTree (setCtx s k v) j = getTree s j := rfl
@[simp] theorem getTree_setSlice (s : State) (k j : Nat) (v : Slice) : getTree (setSlice s k v) j = getTree s j := rfl
@[simp] theorem getTree_setTrain (s : State) (k j : Nat) (v : Train) : getTree (setTrain s k v) j = getTree s j := rfl
@[simp] theorem getTree_setFlag (s : State) (k j : Nat) (v : FlagSt) : getTree (setFlag s k v) j = getTree s j := rfl
@[simp] theorem getTree_setBar (s : State) (k j : Nat) (v : BarSt) : getTree (setBar s k v) j = getTree s j := rfl
@[simp] theorem getTree_setRing (s : State) (k j : Nat) (v : Ring) : getTree (setRing s k v) j = getTree s j := rfl
@[simp] theorem getTree_setGrp (s : State) (k j : Nat) (v : Grp) : getTree (setGrp s k v) j = getTree s j := rfl
@[simp] theorem getTree_setCell (s : State) (k j : Nat) (v : Cell) : getTree (setCell s k v) j = getTree s j := rfl
@[simp] theorem getTree_setPort (s : State) (k j : Nat) (v : Port) : getTree (setPort s k v) j = getTree s j := rfl
@[simp] theorem getTree_setStream (s : State) (k j : Nat) (v : Option Stream) : getTree (setStream s k v) j = getTree s j := rfl
@[simp] theorem getTree_setModel (s : State) (k j : Nat) (v : Option SModel) : getTree (setModel s k v) j = getTree s j := rfl
@[simp] theorem getTree_setServ (s : State) (k j : Nat) (v : Serv) : getTree (setServ s k v) j = getTree s j := rfl
@[simp] theorem getTree_setSess (s : State) (k j : Nat) (v : Option Sess) : getTree (setSess s k v) j = getTree s j := rfl
@[simp] theorem getTree_wr (s : State) (j : Nat) (a : Nat) (w : Word) : getTree (wr s a w) j = getTree s j := rfl
@[simp] theorem getTree_setFld (s : State) (j : Nat) (a : Nat) (f : Fld) (v : Nat) : getTree (setFld s a f v) j = getTree s j := rfl
@[simp] theorem getTree_bump (s : State) (j : Nat) (a : Nat) (f : Fld) (m : Nat) : getTree (bump s a f m) j = getTree s j := rfl
@[simp] theorem getTree_emit (s : State) (j : Nat) (o : Output) : getTree (emit s o) j = getTree s j := rfl
@[simp] theorem getTree_raise (s : State) (j : Nat) (r : ErrRec) : getTree (raise s r) j = getTree s j := rfl
@[simp] theorem getTree_writeBytes (s : State) (j : Nat) (a : Nat) (bs : List Byte) : getTree (writeBytes s a bs) j = getTree s j := rfl
@[simp] theorem getTree_poisonUnit (s : State) (j : Nat) (a : Nat) : getTree (poisonUnit s a) j = getTree s j := rfl

@[simp] theorem getCell_setCtx (s : State) (k j : Nat) (v : Ctx) : getCell (setCtx s k v) j = getCell s j := rfl
@[simp] theorem getCell_setSlice (s : State) (k j : Nat) (v : Slice) : getCell (setSlice s k v) j = getCell s j := rfl
@[simp] theorem getCell_setTrain (s : State) (k j : Nat) (v : Train) : getCell (setTrain s k v) j = getCell s j := rfl
@[simp] theorem getCell_setFlag (s : State) (k j : Nat) (v : FlagSt) : getCell (setFlag s k v) j = getCell s j := rfl
@[simp] theorem getCell_setBar (s : State) (k j : Nat) (v : BarSt) : getCell (setBar s k v) j = getCell s j := rfl
@[simp] theorem getCell_setRing (s : State) (k j : Nat) (v : Ring) : getCell (setRing s k v) j = getCell s j := rfl
@[simp] theorem getCell_setGrp (s : State) (k j : Nat) (v : Grp) : getCell (setGrp s k v) j = getCell s j := rfl
@[simp] theorem getCell_setTree (s : State) (k j : Nat) (v : WTree) : getCell (setTree s k v) j = getCell s j := rfl
@[simp] theorem getCell_setPort (s : State) (k j : Nat) (v : Port) : getCell (setPort s k v) j = getCell s j := rfl
@[simp] theorem getCell_setStream (s : State) (k j : Nat) (v : Option Stream) : getCell (setStream s k v) j = getCell s j := rfl
@[simp] theorem getCell_setModel (s : State) (k j : Nat) (v : Option SModel) : getCell (setModel s k v) j = getCell s j := rfl
@[simp] theorem getCell_setServ (s : State) (k j : Nat) (v : Serv) : getCell (setServ s k v) j = getCell s j := rfl
@[simp] theorem getCell_setSess (s : State) (k j : Nat) (v : Option Sess) : getCell (setSess s k v) j = getCell s j := rfl
@[simp] theorem getCell_wr (s : State) (j : Nat) (a : Nat) (w : Word) : getCell (wr s a w) j = getCell s j := rfl
@[simp] theorem getCell_setFld (s : State) (j : Nat) (a : Nat) (f : Fld) (v : Nat) : getCell (setFld s a f v) j = getCell s j := rfl
@[simp] theorem getCell_bump (s : State) (j : Nat) (a : Nat) (f : Fld) (m : Nat) : getCell (bump s a f m) j = getCell s j := rfl
@[simp] theorem getCell_emit (s : State) (j : Nat) (o : Output) : getCell (emit s o) j = getCell s j := rfl
@[simp] theorem getCell_raise (s : State) (j : Nat) (r : ErrRec) : getCell (raise s r) j = getCell s j := rfl
@[simp] theorem getCell_writeBytes (s : State) (j : Nat) (a : Nat) (bs : List Byte) : getCell (writeBytes s a bs) j = getCell s j := rfl
@[simp] theorem getCell_poisonUnit (s : State) (j : Nat) (a : Nat) : getCell (poisonUnit s a) j = getCell s j := rfl

@[simp] theorem getPort_setCtx (s : State) (k j : Nat) (v : Ctx) : getPort (setCtx s k v) j = getPort s j := rfl
@[simp] theorem getPort_setSlice (s : State) (k j : Nat) (v : Slice) : getPort (setSlice s k v) j = getPort s j := rfl
@[simp] theorem getPort_setTrain (s : State) (k j : Nat) (v : Train) : getPort (setTrain s k v) j = getPort s j := rfl
@[simp] theorem getPort_setFlag (s : State) (k j : Nat) (v : FlagSt) : getPort (setFlag s k v) j = getPort s j := rfl
@[simp] theorem getPort_setBar (s : State) (k j : Nat) (v : BarSt) : getPort (setBar s k v) j = getPort s j := rfl
@[simp] theorem getPort_setRing (s : State) (k j : Nat) (v : Ring) : getPort (setRing s k v) j = getPort s j := rfl
@[simp] theorem getPort_setGrp (s : State) (k j : Nat) (v : Grp) : getPort (setGrp s k v) j = getPort s j := rfl
@[simp] theorem getPort_setTree (s : State) (k j : Nat) (v : WTree) : getPort (setTree s k v) j = getPort s j := rfl
@[simp] theorem getPort_setCell (s : State) (k j : Nat) (v : Cell) : getPort (setCell s k v) j = getPort s j := rfl
@[simp] theorem getPort_setStream (s : State) (k j : Nat) (v : Option Stream) : getPort (setStream s k v) j = getPort s j := rfl
@[simp] theorem getPort_setModel (s : State) (k j : Nat) (v : Option SModel) : getPort (setModel s k v) j = getPort s j := rfl
@[simp] theorem getPort_setServ (s : State) (k j : Nat) (v : Serv) : getPort (setServ s k v) j = getPort s j := rfl
@[simp] theorem getPort_setSess (s : State) (k j : Nat) (v : Option Sess) : getPort (setSess s k v) j = getPort s j := rfl
@[simp] theorem getPort_wr (s : State) (j : Nat) (a : Nat) (w : Word) : getPort (wr s a w) j = getPort s j := rfl
@[simp] theorem getPort_setFld (s : State) (j : Nat) (a : Nat) (f : Fld) (v : Nat) : getPort (setFld s a f v) j = getPort s j := rfl
@[simp] theorem getPort_bump (s : State) (j : Nat) (a : Nat) (f : Fld) (m : Nat) : getPort (bump s a f m) j = getPort s j := rfl
@[simp] theorem getPort_emit (s : State) (j : Nat) (o : Output) : getPort (emit s o) j = getPort s j := rfl
@[simp] theorem getPort_raise (s : State) (j : Nat) (r : ErrRec) : getPort (raise s r) j = getPort s j := rfl
@[simp] theorem getPort_writeBytes (s : State) (j : Nat) (a : Nat) (bs : List Byte) : getPort (writeBytes s a bs) j = getPort s j := rfl
@[simp] theorem getPort_poisonUnit (s : State) (j : Nat) (a : Nat) : getPort (poisonUnit s a) j = getPort s j := rfl

@[simp] theorem getStream_setCtx (s : State) (k j : Nat) (v : Ctx) : getStream (setCtx s k v) j = getStream s j := rfl
@[simp] theorem getStream_setSlice (s : State) (k j : Nat) (v : Slice) : getStream (setSlice s k v) j = getStream s j := rfl
@[simp] theorem getStream_setTrain (s : State) (k j : Nat) (v : Train) : getStream (setTrain s k v) j = getStream s j := rfl
@[simp] theorem getStream_setFlag (s : State) (k j : Nat) (v : FlagSt) : getStream (setFlag s k v) j = getStream s j := rfl
@[simp] theorem getStream_setBar (s : State) (k j : Nat) (v : BarSt) : getStream (setBar s k v) j = getStream s j := rfl
@[simp] theorem getStream_setRing (s : State) (k j : Nat) (v : Ring) : getStream (setRing s k v) j = getStream s j := rfl
@[simp] theorem getStream_setGrp (s : State) (k j : Nat) (v : Grp) : getStream (setGrp s k v) j = getStream s j := rfl
@[simp] theorem getStream_setTree (s : State) (k j : Nat) (v : WTree) : getStream (setTree s k v) j = getStream s j := rfl
@[simp] theorem getStream_setCell (s : State) (k j : Nat) (v : Cell) : getStream (setCell s k v) j = getStream s j := rfl
@[simp] theorem getStream_setPort (s : State) (k j : Nat) (v : Port) : getStream (setPort s k v) j = getStream s j := rfl
@[simp] theorem getStream_setModel (s : State) (k j : Nat) (v : Option SModel) : getStream (setModel s k v) j = getStream s j := rfl
@[simp] theorem getStream_setServ (s : State) (k j : Nat) (v : Serv) : getStream (setServ s k v) j = getStream s j := rfl
@[simp] theorem getStream_setSess (s : State) (k j : Nat) (v : Option Sess) : getStream (setSess s k v) j = getStream s j := rfl
@[simp] theorem getStream_wr (s : State) (j : Nat) (a : Nat) (w : Word) : getStream (wr s a w) j = getStream s j := rfl
@[simp] theorem getStream_setFld (s : State) (j : Nat) (a : Nat) (f : Fld) (v : Nat) : getStream (setFld s a f v) j = getStream s j := rfl
@[simp] theorem getStream_bump (s : State) (j : Nat) (a : Nat) (f : Fld) (m : Nat) : getStream (bump s a f m) j = getStream s j := rfl
@[simp] theorem getStream_emit (s : State) (j : Nat) (o : Output) : getStream (emit s o) j = getStream s j := rfl
@[simp] theorem getStream_raise (s : State) (j : Nat) (r : ErrRec) : getStream (raise s r) j = getStream s j := rfl
@[simp] theorem getStream_writeBytes (s : State) (j : Nat) (a : Nat) (bs : List Byte) : getStream (writeBytes s a bs) j = getStream s j := rfl
@[simp] theorem getStream_poisonUnit (s : State) (j : Nat) (a : Nat) : getStream (poisonUnit s a) j = getStream s j := rfl

@[simp] theorem getModel_setCtx (s : State) (k j : Nat) (v : Ctx) : getModel (setCtx s k v) j = getModel s j := rfl
@[simp] theorem getModel_setSlice (s : State) (k j : Nat) (v : Slice) : getModel (setSlice s k v) j = getModel s j := rfl
@[simp] theorem getModel_setTrain (s : State) (k j : Nat) (v : Train) : getModel (setTrain s k v) j = getModel s j := rfl
@[simp] theorem getModel_setFlag (s : State) (k j : Nat) (v : FlagSt) : getModel (setFlag s k v) j = getModel s j := rfl
@[simp] theorem getModel_setBar (s : State) (k j : Nat) (v : BarSt) : getModel (setBar s k v) j = getModel s j := rfl
@[simp] theorem getModel_setRing (s : State) (k j : Nat) (v : Ring) : getModel (setRing s k v) j = getModel s j := rfl
@[simp] theorem getModel_setGrp (s : State) (k j : Nat) (v : Grp) : getModel (setGrp s k v) j = getModel s j := rfl
@[simp] theorem getModel_setTree (s : State) (k j : Nat) (v : WTree) : getModel (setTree s k v) j = getModel s j := rfl
@[simp] theorem getModel_setCell (s : State) (k j : Nat) (v : Cell) : getModel (setCell s k v) j = getModel s j := rfl
@[simp] theorem getModel_setPort (s : State) (k j : Nat) (v : Port) : getModel (setPort s k v) j = getModel s j := rfl
@[simp] theorem getModel_setStream (s : State) (k j : Nat) (v : Option Stream) : getModel (setStream s k v) j = getModel s j := rfl
@[simp] theorem getModel_setServ (s : State) (k j : Nat) (v : Serv) : getModel (setServ s k v) j = getModel s j := rfl
@[simp] theorem getModel_setSess (s : State) (k j : Nat) (v : Option Sess) : getModel (setSess s k v) j = getModel s j := rfl
@[simp] theorem getModel_wr (s : State) (j : Nat) (a : Nat) (w : Word) : getModel (wr s a w) j = getModel s j := rfl
@[simp] theorem getModel_setFld (s : State) (j : Nat) (a : Nat) (f : Fld) (v : Nat) : getModel (setFld s a f v) j = getModel s j := rfl
@[simp] theorem getModel_bump (s : State) (j : Nat) (a : Nat) (f : Fld) (m : Nat) : getModel (bump s a f m) j = getModel s j := rfl
@[simp] theorem getModel_emit (s : State) (j : Nat) (o : Output) : getModel (emit s o) j = getModel s j := rfl
@[simp] theorem getModel_raise (s : State) (j : Nat) (r : ErrRec) : getModel (raise s r) j = getModel s j := rfl
@[simp] theorem getModel_writeBytes (s : State) (j : Nat) (a : Nat) (bs : List Byte) : getModel (writeBytes s a bs) j = getModel s j := rfl
@[simp] theorem getModel_poisonUnit (s : State) (j : Nat) (a : Nat) : getModel (poisonUnit s a) j = getModel s j := rfl

@[simp] theorem getServ_setCtx (s : State) (k j : Nat) (v : Ctx) : getServ (setCtx s k v) j = getServ s j := rfl
@[simp] theorem getServ_setSlice (s : State) (k j : Nat) (v : Slice) : getServ (setSlice s k v) j = getServ s j := rfl
@[simp] theorem getServ_setTrain (s : State) (k j : Nat) (v : Train) : getServ (setTrain s k v) j = getServ s j := rfl
@[simp] theorem getServ_setFlag (s : State) (k j : Nat) (v : FlagSt) : getServ (setFlag s k v) j = getServ s j := rfl
@[simp] theorem getServ_setBar (s : State) (k j : Nat) (v : BarSt) : getServ (setBar s k v) j = getServ s j := rfl
@[simp] theorem getServ_setRing (s : State) (k j : Nat) (v : Ring) : getServ (setRing s k v) j = getServ s j := rfl
@[simp] theorem getServ_setGrp (s : State) (k j : Nat) (v : Grp) : getServ (setGrp s k v) j = getServ s j := rfl
@[simp] theorem getServ_setTree (s : State) (k j : Nat) (v : WTree) : getServ (setTree s k v) j = getServ s j := rfl
@[simp] theorem getServ_setCell (s : State) (k j : Nat) (v : Cell) : getServ (setCell s k v) j = getServ s j := rfl
@[simp] theorem getServ_setPort (s : State) (k j : Nat) (v : Port) : getServ (setPort s k v) j = getServ s j := rfl
@[simp] theorem getServ_setStream (s : State) (k j : Nat) (v : Option Stream) : getServ (setStream s k v) j = getServ s j := rfl
@[simp] theorem getServ_setModel (s : State) (k j : Nat) (v : Option SModel) : getServ (setModel s k v) j = getServ s j := rfl
@[simp] theorem getServ_setSess (s : State) (k j : Nat) (v : Option Sess) : getServ (setSess s k v) j = getServ s j := rfl
@[simp] theorem getServ_wr (s : State) (j : Nat) (a : Nat) (w : Word) : getServ (wr s a w) j = getServ s j := rfl
@[simp] theorem getServ_setFld (s : State) (j : Nat) (a : Nat) (f : Fld) (v : Nat) : getServ (setFld s a f v) j = getServ s j := rfl
@[simp] theorem getServ_bump (s : State) (j : Nat) (a : Nat) (f : Fld) (m : Nat) : getServ (bump s a f m) j = getServ s j := rfl
@[simp] theorem getServ_emit (s : State) (j : Nat) (o : Output) : getServ (emit s o) j = getServ s j := rfl
@[simp] theorem getServ_raise (s : State) (j : Nat) (r : ErrRec) : getServ (raise s r) j = getServ s j := rfl
@[simp] theorem getServ_writeBytes (s : State) (j : Nat) (a : Nat) (bs : List Byte) : getServ (writeBytes s a bs) j = getServ s j := rfl
@[simp] theorem getServ_poisonUnit (s : State) (j : Nat) (a : Nat) : getServ (poisonUnit s a) j = getServ s j := rfl

@[simp] theorem getSess_setCtx (s : State) (k j : Nat) (v : Ctx) : getSess (setCtx s k v) j = getSess s j := rfl
@[simp] theorem getSess_setSlice (s : State) (k j : Nat) (v : Slice) : getSess (setSlice s k v) j = getSess s j := rfl
@[simp] theorem getSess_setTrain (s : State) (k j : Nat) (v : Train) : getSess (setTrain s k v) j = getSess s j := rfl
@[simp] theorem getSess_setFlag (s : State) (k j : Nat) (v : FlagSt) : getSess (setFlag s k v) j = getSess s j := rfl
@[simp] theorem getSess_setBar (s : State) (k j : Nat) (v : BarSt) : getSess (setBar s k v) j = getSess s j := rfl
@[simp] theorem getSess_setRing (s : State) (k j : Nat) (v : Ring) : getSess (setRing s k v) j = getSess s j := rfl
@[simp] theorem getSess_setGrp (s : State) (k j : Nat) (v : Grp) : getSess (setGrp s k v) j = getSess s j := rfl
@[simp] theorem getSess_setTree (s : State) (k j : Nat) (v : WTree) : getSess (setTree s k v) j = getSess s j := rfl
@[simp] theorem getSess_setCell (s : State) (k j : Nat) (v : Cell) : getSess (setCell s k v) j = getSess s j := rfl
@[simp] theorem getSess_setPort (s : State) (k j : Nat) (v : Port) : getSess (setPort s k v) j = getSess s j := rfl
@[simp] theorem getSess_setStream (s : State) (k j : Nat) (v : Option Stream) : getSess (setStream s k v) j = getSess s j := rfl
@[simp] theorem getSess_setModel (s : State) (k j : Nat) (v : Option SModel) : getSess (setModel s k v) j = getSess s j := rfl
@[simp] theorem getSess_setServ (s : State) (k j : Nat) (v : Serv) : getSess (setServ s k v) j = getSess s j := rfl
@[simp] theorem getSess_wr (s : State) (j : Nat) (a : Nat) (w : Word) : getSess (wr s a w) j = getSess s j := rfl
@[simp] theorem getSess_setFld (s : State) (j : Nat) (a : Nat) (f : Fld) (v : Nat) : getSess (setFld s a f v) j = getSess s j := rfl
@[simp] theorem getSess_bump (s : State) (j : Nat) (a : Nat) (f : Fld) (m : Nat) : getSess (bump s a f m) j = getSess s j := rfl
@[simp] theorem getSess_emit (s : State) (j : Nat) (o : Output) : getSess (emit s o) j = getSess s j := rfl
@[simp] theorem getSess_raise (s : State) (j : Nat) (r : ErrRec) : getSess (raise s r) j = getSess s j := rfl
@[simp] theorem getSess_writeBytes (s : State) (j : Nat) (a : Nat) (bs : List Byte) : getSess (writeBytes s a bs) j = getSess s j := rfl
@[simp] theorem getSess_poisonUnit (s : State) (j : Nat) (a : Nat) : getSess (poisonUnit s a) j = getSess s j := rfl

/-! ### Cores and tasks of a context -/

@[simp] theorem getCore_setCore (s : State) (x l : Nat) (k : CoreCtx) : getCore (setCore s x l k) x l = k := by
  simp [getCore, setCore]

theorem getCore_setCore_core (s : State) (x : Nat) {l m : Nat} (k : CoreCtx) (h : m ≠ l) :
    getCore (setCore s x l k) x m = getCore s x m := by
  simp [getCore, setCore, Sparse.get_set_other _ _ h]

theorem getCore_setCore_ctx (s : State) {x y : Nat} (l m : Nat) (k : CoreCtx) (h : y ≠ x) :
    getCore (setCore s x l k) y m = getCore s y m := by
  simp [getCore, setCore, getCtx_setCtx_other s _ h]

@[simp] theorem getRun_setRun (s : State) (x l : Nat) (r : Option Running) : getRun (setRun s x l r) x l = r := by
  simp [getRun, setRun]

theorem getRun_setRun_core (s : State) (x : Nat) {l m : Nat} (r : Option Running) (h : m ≠ l) :
    getRun (setRun s x l r) x m = getRun s x m := by
  simp [getRun, setRun, getCore_setCore_core s x _ h]

theorem getRun_setRun_ctx (s : State) {x y : Nat} (l m : Nat) (r : Option Running) (h : y ≠ x) :
    getRun (setRun s x l r) y m = getRun s y m := by
  simp [getRun, setRun, getCore_setCore_ctx s l m _ h]

/-- Of two writes of a core, or of its task, the second stands. -/
@[simp] theorem setCore_setCore (s : State) (x l : Nat) (j k : CoreCtx) : setCore (setCore s x l j) x l k = setCore s x l k := by
  simp only [setCore, getCtx_setCtx, setCtx_setCtx, Sparse.set_set]

@[simp] theorem setRun_setRun (s : State) (x l : Nat) (q r : Option Running) : setRun (setRun s x l q) x l r = setRun s x l r := by
  simp [setRun]

/-- A core's record written anew keeps the rest of its context. -/
theorem getCtx_setCore (s : State) (x l : Nat) (k : CoreCtx) :
    getCtx (setCore s x l k) x = { getCtx s x with cores := Sparse.set CoreCtx.none (getCtx s x).cores l k } := by
  simp [setCore]

theorem getCtx_setRun (s : State) (x l : Nat) (r : Option Running) :
    getCtx (setRun s x l r) x
      = { getCtx s x with cores := Sparse.set CoreCtx.none (getCtx s x).cores l { getCore s x l with run := r } } := by
  simp [setRun, getCtx_setCore]

theorem getCtx_setRun_other (s : State) {x y : Nat} (l : Nat) (r : Option Running) (h : y ≠ x) :
    getCtx (setRun s x l r) y = getCtx s y := by
  simp [setRun, setCore, getCtx_setCtx_other s _ h]

@[simp] theorem runningCtx_setRun (s : State) (x l : Nat) (r : Option Running) (y : Nat) :
    runningCtx (setRun s x l r) y = runningCtx s y := by
  by_cases h : y = x
  · subst h
    simp [runningCtx, getCtx_setRun]
  · simp [runningCtx, getCtx_setRun_other s l r h]

/-! ### Registers of the control window -/

theorem lookup_erase_same {α : Type} (m : List (Nat × α)) (k : Nat) : (Sparse.erase k m).lookup k = none := by
  induction m with
  | nil => rfl
  | cons e m ih =>
    obtain ⟨j, v⟩ := e
    by_cases h : j = k
    · simpa [Sparse.erase, h] using ih
    · have h' : (k == j) = false := by simpa using Ne.symm h
      simpa [Sparse.erase, h, List.lookup, h'] using ih

theorem lookup_erase_other {α : Type} (m : List (Nat × α)) {k j : Nat} (h : j ≠ k) : (Sparse.erase k m).lookup j = m.lookup j := by
  induction m with
  | nil => rfl
  | cons e m ih =>
    obtain ⟨i, v⟩ := e
    by_cases hi : i = k
    · have h' : (j == i) = false := by simpa [hi] using h
      simp [Sparse.erase, hi, List.lookup, hi ▸ h', ih]
    · simp only [Sparse.erase, hi, if_false, List.lookup, ih]

theorem lookup_insert_same {α : Type} (m : List (Nat × α)) (k : Nat) (v : α) (h : m.lookup k = none) :
    (Sparse.insert k v m).lookup k = some v := by
  induction m with
  | nil => simp [Sparse.insert]
  | cons e m ih =>
    obtain ⟨i, u⟩ := e
    by_cases hi : k < i
    · simp [Sparse.insert, hi]
    · by_cases he : k = i
      · simp [List.lookup, he] at h
      · have h' : (k == i) = false := by simpa using he
        have hm : m.lookup k = none := by simpa [List.lookup, h'] using h
        simp [Sparse.insert, hi, List.lookup, h', ih hm]

theorem lookup_insert_other {α : Type} (m : List (Nat × α)) {k j : Nat} (v : α) (h : j ≠ k) :
    (Sparse.insert k v m).lookup j = m.lookup j := by
  have hj : (j == k) = false := by simpa using h
  induction m with
  | nil => simp [Sparse.insert, List.lookup, hj]
  | cons e m ih =>
    obtain ⟨i, u⟩ := e
    by_cases hi : k < i
    · simp only [Sparse.insert, hi, if_true]
      rw [List.lookup]
      simp [hj]
    · simp only [Sparse.insert, hi, if_false, List.lookup, ih]

/-- A register reads what was written to it. -/
@[simp] theorem rd_wr_same (s : State) (a : Nat) (w : Word) : rd (wr s a w) a = w := by
  unfold rd wr regsSet
  by_cases h : w = resetWord a
  · simp [h, lookup_erase_same]
  · simp [h, lookup_insert_same _ _ _ (lookup_erase_same s.regs a)]

/-- A register reads as before when another was written. -/
theorem rd_wr_other (s : State) {a b : Nat} (w : Word) (h : b ≠ a) : rd (wr s a w) b = rd s b := by
  unfold rd wr regsSet
  by_cases hw : w = resetWord a
  · simp [hw, lookup_erase_other _ h]
  · simp [hw, lookup_insert_other _ _ h, lookup_erase_other _ h]

theorem rd_setFld_other (s : State) {a b : Nat} (f : Fld) (v : Nat) (h : b ≠ a) : rd (setFld s a f v) b = rd s b :=
  rd_wr_other s _ h

theorem rd_bump_other (s : State) {a b : Nat} (f : Fld) (n : Nat) (h : b ≠ a) : rd (bump s a f n) b = rd s b :=
  rd_setFld_other s f _ h

/-- Registers read the registers only. -/
theorem rd_congr {s t : State} (h : t.regs = s.regs) (a : Nat) : rd t a = rd s a := by
  simp [rd, h]

theorem readByte_congr {s t : State} (h : t.mem = s.mem) (a : Nat) : readByte t a = readByte s a := by
  simp [readByte, h]

theorem getLsbD_putF (f : Fld) (v : Nat) (w : Word) (i : Nat) (hf : f.lo + f.w ≤ 64) :
    (putF f v w).getLsbD i = if f.lo ≤ i ∧ i < f.lo + f.w then v.testBit (i - f.lo) else w.getLsbD i := by
  by_cases hi : i < 64
  · have hm : ((2 ^ f.w - 1) <<< f.lo).testBit i = decide (f.lo ≤ i ∧ i < f.lo + f.w) := by
      rw [Nat.testBit_shiftLeft, Nat.testBit_two_pow_sub_one]
      by_cases h : f.lo ≤ i
      · simp [h]
        omega
      · simp [h]
    have hv : ((v % 2 ^ f.w) <<< f.lo).testBit i = (decide (f.lo ≤ i ∧ i < f.lo + f.w) && v.testBit (i - f.lo)) := by
      rw [Nat.testBit_shiftLeft, Nat.testBit_mod_two_pow]
      by_cases h : f.lo ≤ i
      · by_cases h2 : i - f.lo < f.w
        · simp [h, h2, show i < f.lo + f.w by omega]
        · simp [h, h2, show ¬ i < f.lo + f.w by omega]
      · simp [h]
    simp only [putF, maskF, BitVec.getLsbD_or, BitVec.getLsbD_and, BitVec.getLsbD_not, BitVec.getLsbD_ofNat, hi, decide_true,
      Bool.true_and, hm, hv]
    by_cases h : f.lo ≤ i ∧ i < f.lo + f.w <;> simp [h]
  · have h2 : ¬ (f.lo ≤ i ∧ i < f.lo + f.w) := by omega
    simp [h2, BitVec.getLsbD_of_ge _ _ (show 64 ≤ i by omega)]

theorem testBit_getF (f : Fld) (w : Word) (i : Nat) : (getF f w).testBit i = (decide (i < f.w) && w.getLsbD (f.lo + i)) := by
  simp [getF, Nat.testBit_mod_two_pow, Nat.testBit_shiftRight, BitVec.getLsbD]

/-- A field reads what was written to it, modulo its range. -/
theorem getF_putF (f : Fld) (v : Nat) (w : Word) (hf : f.lo + f.w ≤ 64) : getF f (putF f v w) = v % 2 ^ f.w := by
  apply Nat.eq_of_testBit_eq
  intro i
  rw [testBit_getF, getLsbD_putF f v w _ hf, Nat.testBit_mod_two_pow]
  by_cases h : i < f.w <;> simp [h]

/-- A field reads as before when a field apart from it was written. -/
theorem getF_putF_apart (f g : Fld) (v : Nat) (w : Word) (hf : f.lo + f.w ≤ 64) (h : g.lo + g.w ≤ f.lo ∨ f.lo + f.w ≤ g.lo) :
    getF g (putF f v w) = getF g w := by
  apply Nat.eq_of_testBit_eq
  intro i
  rw [testBit_getF, testBit_getF, getLsbD_putF f v w _ hf]
  by_cases hi : i < g.w
  · have : ¬ (f.lo ≤ g.lo + i ∧ g.lo + i < f.lo + f.w) := by omega
    simp [this]
  · simp [hi]

theorem fld_setFld_same (s : State) (a : Nat) (f : Fld) (v : Nat) (hf : f.lo + f.w ≤ 64) : fld (setFld s a f v) a f = v % 2 ^ f.w := by
  simp [fld, setFld, getF_putF f v _ hf]

theorem fld_setFld_apart (s : State) (a : Nat) (f g : Fld) (v : Nat) (hf : f.lo + f.w ≤ 64)
    (h : g.lo + g.w ≤ f.lo ∨ f.lo + f.w ≤ g.lo) : fld (setFld s a f v) a g = fld s a g := by
  simp [fld, setFld, getF_putF_apart f g v _ hf h]

theorem fld_setFld_other (s : State) {a b : Nat} (f g : Fld) (v : Nat) (h : b ≠ a) : fld (setFld s a f v) b g = fld s b g := by
  simp [fld, rd_setFld_other s f v h]

end Sys2Proof.Machine
end

