-- ==== Sys2Proof/Laws/Memory.lean ====
section
/-! SUPPORT. Memory: a read after a write to the same place gives the value written, a write leaves every other place alone,
and every operation that writes memory keeps its canonical form. -/

namespace Sys2Proof.Machine

theorem get_writeList_outside (m : List Host.Cell) (lo : Nat) (bs : List Byte) (a : Nat) (h : ¬(lo ≤ a ∧ a < lo + bs.length)) :
    Sparse.get (0 : Byte) (writeList m lo bs) a = Sparse.get (0 : Byte) m a := by
  induction bs generalizing m lo with
  | nil => rfl
  | cons b bs ih =>
    simp only [List.length_cons] at h
    rw [writeList, ih _ _ (by omega), Sparse.get_set_other _ _ (by omega)]

theorem get_writeList_inside (m : List Host.Cell) (lo : Nat) (bs : List Byte) (i : Nat) (h : i < bs.length) :
    Sparse.get (0 : Byte) (writeList m lo bs) (lo + i) = bs[i] := by
  induction bs generalizing m lo i with
  | nil => simp at h
  | cons b bs ih =>
    cases i with
    | zero => rw [writeList, get_writeList_outside _ _ _ _ (by omega)]; simp
    | succ i =>
      have h2 : i < bs.length := by simpa using h
      have := ih (Sparse.set (0 : Byte) m lo b) (lo + 1) i h2
      rw [writeList, show lo + (i + 1) = lo + 1 + i by omega, this]
      simp

theorem wf_writeList (m : List Host.Cell) (lo : Nat) (bs : List Byte) (w : Sparse.wf (0 : Byte) m = true) :
    Sparse.wf (0 : Byte) (writeList m lo bs) = true := by
  induction bs generalizing m lo with
  | nil => exact w
  | cons b bs ih => exact ih _ _ (Sparse.wf_set m lo b w)

theorem readByte_writeBytes_inside (s : State) (lo : Nat) (bs : List Byte) (i : Nat) (h : i < bs.length) :
    readByte (writeBytes s lo bs) (lo + i) = bs[i] := get_writeList_inside s.mem lo bs i h

theorem readByte_writeBytes_outside (s : State) (lo : Nat) (bs : List Byte) (a : Nat) (h : ¬(lo ≤ a ∧ a < lo + bs.length)) :
    readByte (writeBytes s lo bs) a = readByte s a := get_writeList_outside s.mem lo bs a h

/-- A write changes no byte outside the bytes written. -/
theorem sameBytesOutside_writeBytes (s : State) (lo : Nat) (bs : List Byte) :
    SameBytesOutside s (writeBytes s lo bs) lo bs.length := fun a h => readByte_writeBytes_outside s lo bs a h

theorem memoryOk_writeBytes (s : State) (lo : Nat) (bs : List Byte) (w : MemoryOk s) : MemoryOk (writeBytes s lo bs) :=
  wf_writeList s.mem lo bs w

theorem memoryOk_congr {s t : State} (h : t.mem = s.mem) (w : MemoryOk s) : MemoryOk t := by
  simpa [MemoryOk, h] using w

theorem Sparse.wfFrom_filter {α : Type} [DecidableEq α] {d : α} (m : List (Nat × α)) (p : Nat × α → Bool) (b : Nat)
    (w : Sparse.wfFrom d b m = true) : Sparse.wfFrom d b (m.filter p) = true := by
  induction m generalizing b with
  | nil => rfl
  | cons e m ih =>
    obtain ⟨k, v⟩ := e
    simp only [Sparse.wfFrom, Bool.and_eq_true, decide_eq_true_eq] at w
    by_cases h : p (k, v) = true
    · simp only [List.filter_cons, h, if_true, Sparse.wfFrom, Bool.and_eq_true, decide_eq_true_eq]
      exact ⟨w.1, ih _ w.2⟩
    · simp only [List.filter_cons, h]
      exact ih b (Sparse.wfFrom_mono m (by omega) w.2)

theorem wf_foldl_set (l : List Host.Cell) (g : Host.Cell → Nat) (m : List Host.Cell) (w : Sparse.wf (0 : Byte) m = true) :
    Sparse.wf (0 : Byte) (l.foldl (fun m c => Sparse.set (0 : Byte) m (g c) c.2) m) = true := by
  induction l generalizing m with
  | nil => exact w
  | cons c l ih => exact ih _ (Sparse.wf_set m _ _ w)

/-- A copy of memory keeps the canonical form. -/
theorem memoryOk_copyMem (s : State) (src dst n : Nat) (w : MemoryOk s) : MemoryOk (copyMem s src dst n) :=
  wf_foldl_set _ _ _ (Sparse.wfFrom_filter s.mem _ 0 w)

theorem memoryOk_foldl {α : Type} (f : State → α → State) (h : ∀ s a, MemoryOk s → MemoryOk (f s a)) (l : List α) (s : State)
    (w : MemoryOk s) : MemoryOk (l.foldl f s) := by
  induction l generalizing s with
  | nil => exact w
  | cons a l ih => exact ih _ (h s a w)

/-- The rows of an engine keep the canonical form. -/
theorem memoryOk_writeRow (base : Nat) (d : Desc) (s : State) (o : RowOut) (w : MemoryOk s) : MemoryOk (writeRow base d s o) :=
  memoryOk_writeBytes _ _ _ (memoryOk_writeBytes _ _ _ w)

theorem markNf_mem (s : State) (x h : Nat) (bad : Bool) : (markNf s x h bad).mem = s.mem := by
  unfold markNf
  extract_lets
  split
  · rfl
  · rfl

theorem memoryOk_writeRows (s : State) (x l : Nat) (d : Desc) (rows : List RowOut) (w : MemoryOk s) :
    MemoryOk (writeRows s x l d rows) :=
  memoryOk_foldl _ (fun s o => memoryOk_writeRow _ d s o) rows _ (memoryOk_congr (markNf_mem _ _ _ _) w)

theorem memoryOk_writeOrStop (s : State) (x l : Nat) (d : Desc) (rows : List RowOut) (limit : Option Nat) (w : MemoryOk s) :
    MemoryOk (writeOrStop s x l d rows limit) := by
  unfold writeOrStop
  split
  · exact memoryOk_writeRows _ _ _ _ _ w
  · exact memoryOk_writeRows _ _ _ _ _ (memoryOk_congr (s := s) rfl w)

end Sys2Proof.Machine
end

