-- ==== Sys2Proof/Laws/Comb.lean ====
section
/-! SUPPORT. The comb store (R144 to R146, R164): what an access through it can change, and that bytes stored through it read as those
written. -/

namespace Sys2Proof.Machine

/-- Nothing differs but the lines held, the counts and the count of free values used. -/
def OnlyComb (s t : State) : Prop := t = { s with comb := t.comb, regs := t.regs, free := t.free }

theorem OnlyComb.refl (s : State) : OnlyComb s s := rfl

theorem OnlyComb.trans {s t u : State} (h : OnlyComb s t) (k : OnlyComb t u) : OnlyComb s u := by
  unfold OnlyComb at *
  rw [k, h]

theorem OnlyComb.bump {s t : State} (h : OnlyComb s t) (a : Nat) (f : Fld) (n : Nat) : OnlyComb s (bump t a f n) := by
  unfold OnlyComb at *
  rw [h]
  rfl

theorem onlyComb_combPlace (s : State) (p : Nat) (ways : List Nat) (write : Bool) (line : Nat) :
    OnlyComb s (combPlace s p ways write line) := by
  unfold combPlace
  dsimp only
  split
  · rfl
  · split <;> rfl

theorem onlyComb_combAccess (write strm : Bool) (s : State) (line : Nat) : OnlyComb s (combAccess write strm s line) := by
  unfold combAccess
  split
  · rfl
  · split
    · split
      · apply OnlyComb.bump; rfl
      · exact (onlyComb_combPlace _ _ _ _ _).bump _ _ _
    · rfl

theorem onlyComb_combMore (s : State) (a n p : Nat) : OnlyComb s (combMore s a n p) :=
  OnlyComb.bump (OnlyComb.bump (s := s) (t := { s with free := s.free + 2 }) rfl _ _ _) _ _ _

/-- All that an access through the comb store can change. -/
theorem onlyComb_combTouch (s : State) (write strm : Bool) (a n : Nat) : OnlyComb s (combTouch s write strm a n) := by
  have fold (l : List Nat) (s : State) : OnlyComb s (l.foldl (combAccess write strm) s) := by
    induction l generalizing s with
    | nil => rfl
    | cons x l ih => exact (onlyComb_combAccess write strm s x).trans (ih _)
  unfold combTouch
  split
  · rfl
  · dsimp only
    split
    · split
      · exact (fold _ s).trans (onlyComb_combMore _ _ _ _)
      · exact fold _ s
    · exact fold _ s

@[simp] theorem combTouch_mem (s : State) (write strm : Bool) (a n : Nat) : (combTouch s write strm a n).mem = s.mem :=
  (congrArg State.mem (show combTouch s write strm a n = _ from onlyComb_combTouch s write strm a n)).trans rfl
@[simp] theorem combTouch_poison (s : State) (write strm : Bool) (a n : Nat) : (combTouch s write strm a n).poison = s.poison :=
  (congrArg State.poison (show combTouch s write strm a n = _ from onlyComb_combTouch s write strm a n)).trans rfl
@[simp] theorem combTouch_takeover (s : State) (write strm : Bool) (a n : Nat) : (combTouch s write strm a n).takeover = s.takeover :=
  (congrArg State.takeover (show combTouch s write strm a n = _ from onlyComb_combTouch s write strm a n)).trans rfl

/-- Bytes stored through the comb store read as those written. -/
theorem readByte_storeBytes (s : State) (a : Nat) (bs : List Byte) (b : Nat) :
    readByte (storeBytes s a bs) b = readByte (writeBytes s a bs) b := by
  unfold storeBytes readByte
  rw [combTouch_mem]

/-- No other byte changes. -/
theorem sameBytesOutside_storeBytes (s : State) (a : Nat) (bs : List Byte) : SameBytesOutside s (storeBytes s a bs) a bs.length := by
  intro b h
  rw [readByte_storeBytes]
  exact sameBytesOutside_writeBytes s a bs b h

/-- Memory keeps its canonical form. -/
theorem memoryOk_storeBytes (s : State) (a : Nat) (bs : List Byte) (w : MemoryOk s) : MemoryOk (storeBytes s a bs) :=
  memoryOk_congr (combTouch_mem _ _ _ _ _) (memoryOk_writeBytes s a bs w)

end Sys2Proof.Machine
end

