-- ==== Sys2Proof/Laws/Tasks.lean ====
section
/-! SUPPORT. Registers, tokens and instructions of a task: what a write to a register leaves to read, what a wait and a post do
to the counters, and what a sequencer's instruction comes to when it completes. -/

namespace Sys2Proof.Machine

theorem TaskRegs.getG_setG (r : TaskRegs) (i j : GReg) (v : Word) :
    (r.setG i v).getG j = if j = 0 then 0 else if j = i then v else r.getG j := by
  by_cases hj : j = 0
  · simp [TaskRegs.getG, hj]
  · by_cases hi : i = 0
    · subst hi
      simp [TaskRegs.setG, hj]
    · by_cases h : j = i
      · subst h
        simp [TaskRegs.getG, TaskRegs.setG, hj]
      · have h' : (i : Nat) ≠ j := fun e => h (Fin.ext e.symm)
        simp [TaskRegs.getG, TaskRegs.setG, hj, hi, h, h']

@[simp] theorem TaskRegs.getP_setG (r : TaskRegs) (i : GReg) (v : Word) (p : PReg) : (r.setG i v).getP p = r.getP p := by
  unfold TaskRegs.setG
  split <;> rfl

@[simp] theorem TaskRegs.getT_setG (r : TaskRegs) (i : GReg) (v : Word) (t : TReg) : (r.setG i v).getT t = r.getT t := by
  unfold TaskRegs.setG
  split <;> rfl

theorem TaskRegs.getP_setP (r : TaskRegs) (i j : PReg) (v : Bool) :
    (r.setP i v).getP j = if j = 0 then true else if j = i then v else r.getP j := by
  by_cases hj : j = 0
  · simp [TaskRegs.getP, hj]
  · by_cases hi : i = 0
    · subst hi
      simp [TaskRegs.setP, hj]
    · by_cases h : j = i
      · subst h
        simp [TaskRegs.getP, TaskRegs.setP, hj]
      · have h' : (i : Nat) ≠ j := fun e => h (Fin.ext e.symm)
        simp [TaskRegs.getP, TaskRegs.setP, hj, hi, h, h']

theorem TaskRegs.getT_setT (r : TaskRegs) (i j : TReg) (d : Desc) : (r.setT i d).getT j = if j = i then d else r.getT j := by
  by_cases h : j = i
  · subst h
    simp [TaskRegs.getT, TaskRegs.setT]
  · have h' : (i : Nat) ≠ j := fun e => h (Fin.ext e.symm)
    simp [TaskRegs.getT, TaskRegs.setT, h, h']

@[simp] theorem TaskRegs.getG_setP (r : TaskRegs) (i : PReg) (v : Bool) (g : GReg) : (r.setP i v).getG g = r.getG g := by
  unfold TaskRegs.setP
  split <;> rfl

@[simp] theorem TaskRegs.getT_setP (r : TaskRegs) (i : PReg) (v : Bool) (t : TReg) : (r.setP i v).getT t = r.getT t := by
  unfold TaskRegs.setP
  split <;> rfl

@[simp] theorem TaskRegs.getG_setT (r : TaskRegs) (i : TReg) (d : Desc) (g : GReg) : (r.setT i d).getG g = r.getG g := rfl
@[simp] theorem TaskRegs.getP_setT (r : TaskRegs) (i : TReg) (d : Desc) (p : PReg) : (r.setT i d).getP p = r.getP p := rfl

/-- A scalar register written through the task's one way of writing it. -/
theorem wroteG_setG (r : TaskRegs) (gd : GReg) (v : Word) : WroteG r (r.setG gd v) gd v :=
  ⟨fun g => TaskRegs.getG_setG r gd g v, fun p => TaskRegs.getP_setG r gd v p, fun t => TaskRegs.getT_setG r gd v t⟩

/-! ### Tokens -/

theorem Running.token_setToken (r : Running) (t v k : Nat) (hk : k < 32) :
    (r.setToken t v).token k = if k = t then v else r.token k := by
  unfold Running.setToken
  by_cases ht : t < 32
  · simp only [ht, dite_true, Running.token]
    by_cases h : k = t
    · subst h
      simp [Vector.getD, hk]
    · simp [h, Vector.getD, hk, Ne.symm h]
  · have h : k ≠ t := by omega
    simp [ht, h]

theorem Running.setToken_eq (r : Running) (t v : Nat) : r.setToken t v = { r with tokens := (r.setToken t v).tokens } := by
  unfold Running.setToken
  split <;> rfl

theorem Running.consume_eq (r : Running) (t : Nat) : r.consume t = { r with tokens := (r.consume t).tokens } := by
  unfold Running.consume
  split
  · rfl
  · exact Running.setToken_eq r _ _

theorem Running.post_eq (r : Running) (t : Nat) : r.post t = { r with tokens := (r.post t).tokens } := by
  unfold Running.post
  split
  · rfl
  · exact Running.setToken_eq r _ _

theorem Running.token_consume (r : Running) (t k : Nat) (hk : k < 32) :
    (r.consume t).token k = if k = t ∧ t ≠ 0 then r.token k - 1 else r.token k := by
  unfold Running.consume
  by_cases ht : t = 0
  · simp [ht]
  · simp only [ht, if_false, Running.token_setToken r _ _ k hk]
    by_cases h : k = t
    · subst h
      simp [ht]
    · simp [h]

theorem Running.token_post (r : Running) (t k : Nat) (hk : k < 32) :
    (r.post t).token k = if k = t ∧ t ≠ 0 then r.token k + 1 else r.token k := by
  unfold Running.post
  by_cases ht : t = 0
  · simp [ht]
  · simp only [ht, if_false, Running.token_setToken r _ _ k hk]
    by_cases h : k = t
    · subst h
      simp [ht]
    · simp [h]

/-! ### The sequencer's own instructions -/

/-- What finishSeq leaves: one task changed, its wait consumed, its post made. -/
theorem finishSeq_spec (s : State) (x l : Nat) (r : Running) (f : Flight) (g : TaskRegs → TaskRegs) (pc : Nat) :
    ∃ r', getRun (finishSeq s x l r f g pc) x l = some r' ∧ OnlyTask s (finishSeq s x l r f g pc) x l ∧ Stepped r r' f pc
      ∧ r'.regs = g r.regs := by
  refine ⟨_, getRun_setRun s x l _, ?_, ⟨?_, ?_⟩, rfl⟩
  · simp [OnlyTask, finishSeq]
  · rw [Running.post_eq, Running.consume_eq]
  · intro k hk
    have h := Running.token_post (r.consume f.op.wait) f.op.post k hk
    rw [Running.token_consume r f.op.wait k hk] at h
    refine Eq.trans h ?_
    unfold tokenAfter
    by_cases k0 : k = 0
    · subst k0
      rw [if_neg (fun c => c.2 c.1.symm), if_neg (fun c => c.2 c.1.symm), if_pos rfl]
    · rw [if_neg k0]
      by_cases hp : f.op.post = k <;> by_cases hw : f.op.wait = k <;> simp [hp, hw, k0, Ne.symm]

/-- A held live instruction of the right kind acts. -/
theorem seqExec_held {s : State} {x l : Nat} {r : Running} {f : Flight} {i : CInstr} (h : Held s x l r f i) {is : CInstr → Bool}
    (his : is i = true) (act : Running → Flight → State) : seqExec s x l is act = act r f := by
  obtain ⟨h1, h2, h3⟩ := h
  simp [seqExec, h1, h2, h3, his]

end Sys2Proof.Machine
end

