-- ==== Sys2Proof/Tests/Slice0.lean ====
section
/-! SUPPORT. Tests: ill-formed terms refused, words of the encoding tables, single steps whose results the spec states, and for every
statement with hypotheses a state and operands that meet them. -/

namespace Sys2Proof.Tests

open Sys2Proof Sys2Proof.Machine

set_option Elab.async false

/-! ### Ill-formed terms (WellFormed) -/

theorem test_wf_context : (Instr.kNop 64 0).wf = false ∧ (Instr.kNop 63 71).wf = true := by decide
theorem test_wf_core : (Instr.kNop 0 72).wf = false := by decide
theorem test_wf_partition : (Instr.windowOpen 8).wf = false ∧ (Instr.windowOpen 7).wf = true := by decide
theorem test_wf_vstage : (Instr.forwardAdmission 0 4).wf = false := by decide
theorem test_wf_port : (Instr.confirmTimeout 16).wf = false := by decide
theorem test_wf_cell : (Instr.cellHoldLimit 256).wf = false := by decide
theorem test_wf_die : (Instr.droopPauseEnd 4).wf = false := by decide
theorem test_wf_domain : (Instr.clkUnlock 25).wf = false ∧ (Instr.clkUnlock 24).wf = true := by decide
theorem test_wf_ring : (Instr.handlerDispatch 32768).wf = false := by decide
theorem test_wf_tree : (Instr.waggleBarrierRelease 1024 0).wf = false := by decide
theorem test_wf_name : (Instr.cdcGap 65536 1 true).wf = false := by decide
theorem test_wf_rank : (Instr.ckpCmdDeclare 0 16384).wf = false := by decide
theorem test_wf_model : (Instr.modelLoadComplete 256).wf = false := by decide
theorem test_wf_entry : (Instr.srvDeadlineMiss 65536).wf = false := by decide
theorem test_wf_register : (Instr.registerWrite 4 0 0).wf = false := by decide
theorem test_wf_session : (Instr.closeSess 256 0).wf = false := by decide
theorem test_wf_entries : (Instr.regWr 0 0 []).wf = false := by decide
theorem test_wf_repair : (Instr.hbmRowRepair 64 true).wf = false := by decide
theorem test_wf_flush_mask : (Instr.cmbFlush 256).wf = false := by decide
theorem test_wf_ack_rank : (Instr.checkpointAckArrival 0 ⟨1, 16384⟩).wf = false := by decide
theorem test_wf_vc : (Instr.epochSwitch 8).wf = false := by decide
theorem test_wf_source : (Instr.humSourceHealthy 4 0).wf = false := by decide
theorem test_wf_stage : (Instr.clockStageLocked 7 []).wf = false := by decide
theorem test_wf_link_cause : (Instr.ethLinkDown 3 ⟨0, 0⟩).wf = false := by decide
theorem test_wf_group : (Instr.ethFallback400g 2 0).wf = false := by decide
theorem test_wf_i3c_address : (Instr.i3cSetdasa 128).wf = false := by decide
theorem test_wf_i3c_block : (Instr.i3cRecoveryData []).wf = false := by decide
theorem test_wf_boot_mode : (Instr.resetRelease 4).wf = false := by decide
theorem test_wf_rail : (Instr.railOutOfTolerance 0 0 0).wf = false ∧ (Instr.railOutOfTolerance 8 0 0).wf = false := by decide

/-! ### States for the tests -/

/-- A manifest that declares nothing. -/
def man0 : Manifest := ⟨[], 0, 0, [], [], [], [], [], [], none, none, none, none, none, 0, 0, 0, false⟩

/-- A plain task. -/
def tk : Task := ⟨2, [], 0, 0, none, .plain, .none⟩

/-- A task just begun in a CODE region of 4,096 bytes at 0. -/
def rn : Running := Running.begin_ tk 0 4096

/-- An instruction at PC 64. -/
def fl (stage : Stage) (i : CInstr) : Flight :=
  ⟨0, 64, 0, ⟨0, 0, false, 0, i⟩, true, rn.regs, stage, 0, 0, 0, .none, none, []⟩

/-- Context 0, in state `c`, of partition 0, with two cores: core 0 runs `r`, core 1 nothing. -/
def stOf (c : CtxState) (r : Option Running) : State :=
  { State.reset with
    ctxs := [(0, { Ctx.free with st := c, cores := [(0, { CoreCtx.none with run := r })] })]
    partCores := [(0, [0, 1])], slices := [(0, ⟨some 0, 9, 0⟩)] }

/-- The sequencer of core 0 holds an instruction. -/
def rnSeq (i : CInstr) : Running := { rn with seq := some (fl .issued i) }
def stSeq (i : CInstr) : State := stOf .running (some (rnSeq i))

/-- An instruction of core 0 has started. -/
def rnFly (f : Flight) : Running := { rn with flying := [f] }
def stFly (f : Flight) : State := stOf .running (some (rnFly f))

/-- The CODE region of handle 2: 4,096 bytes at 0. -/
def codeH : Handle := mkHandle 0 1 false true false 4096

/-- Context 0 RUNNING with that handle: core 0 runs `r` with deque `q`, core 1 nothing. -/
def stCode (r : Option Running) (q : List Task) : State :=
  { stOf .running none with
    ctxs := [(0, { Ctx.free with st := .running, man := some man0, handles := [(2, codeH)], cores := [(0, { CoreCtx.none with run := r, deque := q })] })] }


/-- Tree 0 with children on ports 0 and 3. -/
def wt (root relay : Bool) (got : List (Option Nat × Nat)) : WTree :=
  { WTree.none with valid := true, root := root, relay := relay, down := 9, up := 5, entries := got }
def stTree (root relay : Bool) (got : List (Option Nat × Nat)) : State := { State.reset with trees := [(0, wt root relay got)] }

/-! ### Witnesses: instructions of the sequencer -/

/-- The sequencer of core 0 holds `i` (the hypothesis of the statements about its instructions). -/
def HeldBy (i : CInstr) : Prop := Held (stSeq i) 0 0 (rnSeq i) (fl .issued i) i

theorem wit_StepRunsTheFront : { State.reset with pending := [.hello, .event] }.pending = [.hello, .event] := rfl
theorem wit_StepKeepsMemoryCanonical :
    Memory.wf [(5, 1), (9, 2)] = true
      ∧ step { State.reset with mem := [(5, 1), (9, 2)], pending := [.i3cDiscardStaged] }
        = exec .i3cDiscardStaged { State.reset with mem := [(5, 1), (9, 2)], pending := [] } :=
  ⟨by decide, rfl⟩
theorem wit_ResetHolds : (regDefAt Reg.HUM_CTL).isSome = true ∧ Reg.HUM_CTL ∉ resetRegs.map (·.1) := by decide +kernel
theorem wit_CynalRoundTrip : CWord.wf ⟨31, 31, true, 7, .kMovi 63 true 0xFFFFFFFF⟩ = true := by decide
theorem wit_CynalOneWordEach : decodeCynal 0x6800C0C8A2C00000 = some ⟨0, 3, false, 0, .cBulk 3 2 10 11⟩ := by decide
theorem wit_AluResults : HeldBy (.kAlu .add 1 2 3) ∧ HeldBy (.kAlui .sra 0 2 63) ∧ HeldBy (.kCmp 0 .geu 1 2) := by
  unfold HeldBy Held; decide +kernel
theorem wit_ScalarAndDescriptorResults :
    HeldBy (.kMovi 5 true 7) ∧ HeldBy (.kId 63 10) ∧ HeldBy (.kTrd 1 15 13) ∧ HeldBy (.bRd 0) ∧ HeldBy (.kTcpy 2 3)
    ∧ HeldBy (.kTd 2 3 true 1) ∧ 0 < 2 ^ (descFld 3).2.w
    ∧ (0 : Int) = (((rn.regs.getT 2).getFld 3 : Nat) : Int) + asSigned 64 (rn.regs.getG 1).toNat := by
  unfold HeldBy Held; decide +kernel
theorem wit_ControlResults :
    HeldBy .kNop ∧ HeldBy (.kBr (-8)) ∧ (0 : Int) ≤ 64 + 8 * (-8) ∧ HeldBy .kEnd ∧ HeldBy (.bAt 0 0) ∧ HeldBy (.bAt 0 1)
    ∧ ((rn.regs.getG 0).toNat + 0) % 2 ^ 64 ≤ (rd (stSeq (.bAt 0 0)) Reg.HUM_BEAT).toNat
    ∧ (rd (stSeq (.bAt 0 1)) Reg.HUM_BEAT).toNat < ((rn.regs.getG 0).toNat + 1) % 2 ^ 64 := by
  unfold HeldBy Held; decide +kernel

/-- The held instruction whose predicate is false. -/
def rnOff (i : CInstr) : Running := { rn with seq := some { fl .issued i with live := false } }
theorem wit_PredicatedOff :
    seqAt (stOf .running (some (rnOff .kNop))) 0 0 = some (rnOff .kNop, { fl .issued .kNop with live := false }) := by
  decide +kernel
theorem wit_ScalarMemoryResults :
    HeldBy (.kSt 3 1 2) ∧ HeldBy (.kLd 3 2 1) ∧ poisoned (stSeq (.kLd 3 2 1)) 0 8 = false
    ∧ seqAt { stSeq (.kLd 3 2 1) with poison := [(0, true)] } 0 0 = some (rnSeq (.kLd 3 2 1), fl .issued (.kLd 3 2 1))
    ∧ poisoned { stSeq (.kLd 3 2 1) with poison := [(0, true)] } 0 8 = true := by
  unfold HeldBy Held; decide +kernel

/-- A K.SPAWN whose home is core 0, where it runs, and one whose home, core 1, is idle. -/
def spI : CInstr := .kSpawn 1 2 3 false
def spRn : Running := { rn with seq := some { fl .issued spI with regs := (rn.regs.setG 3 1).setG 1 2 } }
theorem wit_SpawnResults :
    HeldBy spI ∧ dequeRoom (stSeq spI) 0 0 = true ∧ (spawnedTask (stSeq spI) 0 (rnSeq spI) rn.regs 1 2 3 false).home = 0
    ∧ (getRun (stSeq spI) 0 0).isSome = true
    ∧ seqAt (stCode (some spRn) []) 0 0 = some (spRn, { fl .issued spI with regs := (rn.regs.setG 3 1).setG 1 2 })
    ∧ (spawnedTask (stCode (some spRn) []) 0 spRn ((rn.regs.setG 3 1).setG 1 2) 1 2 3 false).home = 1
    ∧ getRun (stCode (some spRn) []) 0 1 = none ∧ entryCheck (stCode (some spRn) []) 0 1 2 = none := by
  unfold HeldBy Held; decide +kernel
theorem wit_SpawnWithoutRoom :
    seqAt (stCode (some (rnSeq spI)) (List.replicate 64 tk)) 0 0 = some (rnSeq spI, fl .issued spI)
    ∧ dequeRoom (stCode (some (rnSeq spI)) (List.replicate 64 tk)) 0 0 = false := by
  decide +kernel
theorem wit_ContextControl :
    HeldBy (.kCtxEvent 1) ∧ HeldBy (.kCtxStop 1) ∧ ((stSeq (.kCtxStop 1)).hostQ.filter (fun q => !q.isGap)).length < 4095
    ∧ (getSlice (stSeq (.kCtxStop 1)) 0).ctx = some 0 := by
  unfold HeldBy Held; decide +kernel

/-! ### Witnesses: issue, start, end, slices -/

/-- A state whose task is about to fetch the word `w`. -/
def stFetch (w : List Host.Cell) : State := { stOf .running (some rn) with mem := w }
/-- K.NOP, and M.CPY t4, t1, at address 0. -/
def nopMem : List Host.Cell := [(7, 0x0F)]
def cpyMem : List Host.Cell := [(4, 4), (5, 5), (7, 0x50)]
/-- The judgement of an instruction is that it goes on. -/
def Goes (j : Judged) (live : Bool) : Prop := (match j with | .goes b => b == live | _ => false) = true
theorem goes_eq {j : Judged} {b : Bool} (h : Goes j b) : j = .goes b := by
  unfold Goes at h; cases j <;> simp_all
theorem wit_FetchIssues :
    getRun (stFetch nopMem) 0 0 = some rn ∧ runningCtx (stFetch nopMem) 0 = true ∧ coreHeld (stFetch nopMem) 0 0 = false
    ∧ rn.pc + 8 ≤ rn.base + rn.size ∧ poisoned (fetchMeet (stFetch nopMem) rn []) rn.pc 8 = false
    ∧ decodeCynal (wordAt (stFetch nopMem) rn.pc) = some ⟨0, 0, false, 0, .kNop⟩
    ∧ Goes (judge (stFetch nopMem) 0 0 rn ⟨0, 0, false, 0, .kNop⟩) true ∧ rn.postRoom 0 = true ∧ engineOf .kNop = none := by
  unfold Goes; decide +kernel
def cpyI : CInstr := .mCpy ⟨4, 1, 0, false, false, false, 0⟩
theorem wit_FetchToQueue :
    decodeCynal (wordAt (stFetch cpyMem) rn.pc) = some ⟨0, 0, false, 1, cpyI⟩
    ∧ Goes (judge (stFetch cpyMem) 0 0 rn ⟨0, 0, false, 1, cpyI⟩) false
    ∧ engineOf cpyI = some .mover0 ∧ (rn.queue .mover0).length < 32 := by
  unfold Goes; decide +kernel
theorem wit_FetchReserved : decodeCynal (wordAt (stFetch []) rn.pc) = none ∧ rn.task.kind = .plain := by decide +kernel
def rnQ (f : Flight) : Running := { rn with mover0 := [f] }
theorem wit_QueueHeadStarts :
    getRun (stOf .running (some (rnQ (fl .issued cpyI)))) 0 0 = some (rnQ (fl .issued cpyI))
    ∧ engineHeld (stOf .running (some (rnQ (fl .issued cpyI)))) 0 0 .mover0 = false ∧ (rnQ (fl .issued cpyI)).ready 0 = true
    ∧ (fl .issued cpyI).live = true ∧ { fl .issued cpyI with live := false }.live = false := by
  decide +kernel
theorem wit_ExecutedPosts :
    (rnFly (fl .executed cpyI)).inFlight 0 = some (fl .executed cpyI) ∧ (rnFly (fl .executed cpyI)).poisonStop = false := by
  decide +kernel
def rnEnd (b : Bound) : Running := { rn with ended := true, task := { tk with bound := b } }
theorem wit_TaskEnds :
    getRun (stCode (some (rnEnd .none)) []) 0 0 = some (rnEnd .none) ∧ (rnEnd .none).quiet = true
    ∧ runningCtx (stCode (some (rnEnd .none)) []) 0 = true ∧ (getCore (stCode (some (rnEnd .none)) []) 0 0).deque = []
    ∧ (getCore (stCode (some (rnEnd .none)) [tk]) 0 0).deque = [tk] ∧ entryCheck (stCode (some (rnEnd .none)) [tk]) 0 0 tk.entry = none
    ∧ (rnEnd (.cell 3)).task.bound = .cell 3 := by
  decide +kernel
/-- Stealing enabled; core 0 busy with one task waiting, core 1 idle. -/
def stSteal : State := setFld (stCode (some rn) [tk]) Reg.PLC_CTL Fld.PLC_CTL_STEAL 1
theorem wit_ForagerSteals :
    flg stSteal Reg.PLC_CTL Fld.PLC_CTL_STEAL = true ∧ getRun stSteal 0 1 = none ∧ (getCore stSteal 0 1).deque = []
    ∧ 1 < (coresOf stSteal 0).length
    ∧ (probeOrder stSteal 0 1).findSome? (fun v => (takeFar 1 (getCore stSteal 0 v).deque).map (fun e => (v, e.1, e.2))) = some (0, tk, [])
    ∧ entryCheck stSteal 0 1 tk.entry = none := by
  decide +kernel
def stHeld (r : Option Running) : State :=
  { stCode none [] with
    ctxs := [(0, { Ctx.free with st := .running, man := some man0, handles := [(2, codeH)], cores := [(0, { CoreCtx.none with run := r, held := [(true, tk)] })] })] }
theorem wit_HeldSpawnReleased :
    (getCore (stHeld (some rn)) 0 0).held = [(true, tk)] ∧ dequeRoom (stHeld (some rn)) 0 0 = true
    ∧ (getRun (stHeld (some rn)) 0 0).isSome = true ∧ getRun (stHeld none) 0 0 = none ∧ (getCore (stHeld none) 0 0).deque = []
    ∧ runningCtx (stHeld none) 0 = true ∧ entryCheck (stHeld none) 0 0 tk.entry = none := by
  decide +kernel
theorem wit_SlicesPassOn :
    (getSlice { stOf .running none with slices := [(0, ⟨some 0, 0, 0⟩)] } 0).left = 0
    ∧ (getSlice { stOf .runnable none with slices := [] } 0).ctx = none
    ∧ nextCtx { stOf .runnable none with slices := [] } 0 = some 0 ∧ idleCtx { stOf .runnable none with slices := [] } 0 = true
    ∧ (stOf .runnable none).pins.tripped = false := by
  decide +kernel

/-! ### Hashes and key unwrapping: the examples of FIPS 180-4 ("abc") and of FIPS 197, C.3 -/

theorem test_sha384_abc : sha384Bytes [0x61, 0x62, 0x63]
    = beBytes 48 0xCB00753F45A35E8BB5A03D699AC65007272C32AB0EDED1631A8B605A43FF5BED8086072BA1E7CC2358BAECA134C825A7 := by
  decide +kernel
theorem test_sha256_abc : sha256Bytes [0x61, 0x62, 0x63]
    = beBytes 32 0xBA7816BF8F01CFEA414140DE5DAE2223B00361A396177A9CB410FF61F20015AD := by
  decide +kernel
theorem test_aes256_decrypt : aesDecrypt (beBytes 32 0x000102030405060708090A0B0C0D0E0F101112131415161718191A1B1C1D1E1F)
    (beBytes 16 0x8EA2B7CA516745BFEAFC49904B496089) = beBytes 16 0x00112233445566778899AABBCCDDEEFF := by
  decide +kernel
theorem test_p384_base : pointOf (publicKey 1) = p384Base ∧ onCurve 1 1 = false := by decide +kernel

/-! ### Witnesses: vectors, arrays, moves -/

/-- Core 0 has started `i`, as instruction 0 (the hypothesis of the statements about the engines). -/
def StartedBy (i : CInstr) : Prop := Started (stFly (fl .started i)) 0 0 0 (rnFly (fl .started i)) (fl .started i) i

/-- A state whose memory is poisoned at address 0. -/
def bad (s : State) : State := { s with poison := [(0, true)] }

def vo : VOps := ⟨2, 3, 4, 0, .rne, false, .fp32, false, false, false, .sum, 0, 0⟩
theorem wit_VectorResults :
    StartedBy (.v .add vo)
    ∧ vPoison (vMeet (stFly (fl .started (.v .add vo))) 0 0 (fl .started (.v .add vo)) .add vo []) 0 0 (fl .started (.v .add vo)) .add vo
        = none := by
  unfold StartedBy Started; decide +kernel
theorem wit_VectorPoison :
    startedAt (bad (stFly (fl .started (.v .add vo)))) 0 0 0 = some (rnFly (fl .started (.v .add vo)), fl .started (.v .add vo))
    ∧ runningCtx (bad (stFly (fl .started (.v .add vo)))) 0 = true
    ∧ vPoison (vMeet (bad (stFly (fl .started (.v .add vo)))) 0 0 (fl .started (.v .add vo)) .add vo []) 0 0 (fl .started (.v .add vo)) .add vo = some 0 := by
  decide +kernel

def ao (strm defer : Bool) : AOps := ⟨2, 3, 4, 5, 3, 2, .rne, false, defer, strm, 0, 0⟩
theorem wit_WeightsLoad :
    StartedBy (.aLdw (ao false false)) ∧ StartedBy (.aSwp (ao false false))
    ∧ weightPoisoned (ldwMeet (stFly (fl .started (.aLdw (ao false false)))) 0 0 (fl .started (.aLdw (ao false false))) (ao false false) [])
        0 Desc.null 0 16 0 (arrK (ao false false) ((arrKmax 0).getD 0)) = false := by
  unfold StartedBy Started; decide +kernel
/-- A descriptor of FP8 elements, 128 by 128, at byte 0. -/
def dW : Desc := ⟨0x3F80000000030000, 0, 0x0000041000000080, 128⟩
/-- The instruction whose every descriptor register holds `d`. -/
def flT (d : Desc) (i : CInstr) : Flight := { fl .started i with regs := { rn.regs with t := Vector.replicate 16 d } }
theorem wit_WeightsPoison :
    let i : CInstr := .aLdw (ao false false)
    startedAt (bad (stFly (flT dW i))) 0 0 0 = some (rnFly (flT dW i), flT dW i)
    ∧ weightPoisoned (ldwMeet (bad (stFly (flT dW i))) 0 0 (flT dW i) (ao false false) []) 0 dW 0 (arrN (ao false false)) 0 (arrK (ao false false) ((arrKmax dW.format).getD 0)) = true
    ∧ runningCtx (bad (stFly (flT dW i))) 0 = true := by
  decide +kernel
theorem wit_Products :
    StartedBy (.aMul (ao false false)) ∧ StartedBy (.aMult (ao true true))
    ∧ prodPoison (prodMeet (stFly (fl .started (.aMul (ao false false)))) 0 0 false (fl .started (.aMul (ao false false))) (ao false false) [])
        0 0 false (fl .started (.aMul (ao false false))) (ao false false) = none
    ∧ prodPoison (prodMeet (stFly (fl .started (.aMult (ao true true)))) 0 0 true (fl .started (.aMult (ao true true))) (ao true true) [])
        0 0 true (fl .started (.aMult (ao true true))) (ao true true) = none
    ∧ (fl .started (.aMult (ao true true))).acc = [] := by
  unfold StartedBy Started; decide +kernel
/-- A product whose accumulators await A.DRN. -/
def drnW : CWord := ⟨0, 0, false, 0, .aDrn ⟨5, 2, 3, true, .rne, .sr, false, true, 0⟩⟩
def flDrn : Flight := { fl .started (.aMul (ao false true)) with drn := some (0, drnW), acc := [⟨[], []⟩] }
theorem wit_Drain :
    Started (stFly flDrn) 0 0 0 (rnFly flDrn) flDrn (.aMul (ao false true)) ∧ flDrn.drn = some (0, drnW) ∧ flDrn.acc ≠ [] := by
  unfold Started; decide +kernel

def mo (acc : Bool) : MOps := ⟨2, 3, 4, false, false, acc, 5⟩
/-- Two rows of one FP32 element each. -/
def d2 : Desc := ⟨0x3F80000000000000, 0, 0x0000040000400001, 4⟩
theorem wit_Moves :
    StartedBy (.mCpy (mo false)) ∧ StartedBy (.mGth (mo false)) ∧ StartedBy (.mSct (mo false)) ∧ StartedBy (.mTrn (mo false))
    ∧ StartedBy (.mFil (mo false))
    ∧ rowPoisoned (mMeet (stFly (fl .started (.mGth (mo false)))) 0 0 (fl .started (.mGth (mo false))) []) 0 Desc.null 0 = false
    ∧ (∀ i ∈ indices (stFly (fl .started (.mGth (mo false)))) 0 0 Desc.null, 0 ≤ i ∧ i < Desc.null.rows)
    ∧ Desc.null.rows = 1 ∧ Desc.null.dim1 = 1 := by
  unfold StartedBy Started; decide +kernel
theorem wit_CopiedBytes :
    Started (stFly (flT d2 (.mCpy (mo false)))) 0 0 0 (rnFly (flT d2 (.mCpy (mo false)))) (flT d2 (.mCpy (mo false))) (.mCpy (mo false))
    ∧ rowsApart d2 0 ∧ fmtMx d2.format = false ∧ d2.rows = 2 ∧ d2.rowLen = 4
    ∧ rowPoisoned (stFly (flT d2 (.mCpy (mo false)))) 0 d2 0 = false ∧ rowPoisoned (stFly (flT d2 (.mCpy (mo false)))) 0 d2 1 = false := by
  refine ⟨by unfold Started; decide +kernel, ?_, by decide +kernel⟩
  have hr : d2.rows = 2 := by decide +kernel
  intro i j hi hj hn
  rw [hr] at hi hj
  have : (i = 0 ∧ j = 1) ∨ (i = 1 ∧ j = 0) := by omega
  rcases this with ⟨rfl, rfl⟩ | ⟨rfl, rfl⟩ <;> decide +kernel
theorem wit_ScatterAdds :
    Started (stFly (fl .started (.mSct (mo true)))) 0 0 0 (rnFly (fl .started (.mSct (mo true)))) (fl .started (.mSct (mo true))) (.mSct (mo true))
    ∧ indices (stFly (fl .started (.mSct (mo true)))) 0 0 Desc.null = [0] ∧ Desc.null.format = 0
    ∧ rowPoisoned (stFly (fl .started (.mSct (mo true)))) 0 Desc.null 0 = false := by
  unfold Started; decide +kernel

/-! ### Witnesses: flags, barriers, rings -/

/-- The whole of what runs in a state of one core. -/
theorem run_only {s : State} {c : Ctx} {k : CoreCtx} (hs : s.ctxs = [(0, c)]) (hc : c.cores = [(0, k)]) {y m : Nat} {q : Running}
    (h : getRun s y m = some q) : k.run = some q := by
  by_cases hy : 0 = y
  · subst hy
    by_cases hm : 0 = m
    · subst hm; simpa [getRun, getCore, getCtx, Sparse.get, hs, hc] using h
    · simp [getRun, getCore, getCtx, Sparse.get, hs, hc, hm, CoreCtx.none] at h
  · simp [getRun, getCore, getCtx, Sparse.get, hs, hy, Ctx.free, CoreCtx.none] at h

def setI : CInstr := .sSet 3 0 false 0 0
theorem wit_FlagSets :
    StartedBy (.sClr 3 0) ∧ StartedBy setI ∧ liveWaits (stFly (fl .started setI)) (waitsOn 0 false) = []
    ∧ liveWaits (stFly (fl .started setI)) (waitsOn 0 true) = [] ∧ (getFlag (stFly (fl .started setI)) 0).value = false
    ∧ (getFlag { stFly (fl .started setI) with flags := [(0, ⟨true, 255⟩)] } 0).value = true := by
  unfold StartedBy Started; decide +kernel
/-- A CONSUME wait on flag 0, and a set of it. -/
def waitF : Flight := { fl .started (.sWait 3 0 true true 0 1) with id := 1, waits := .flag 0 }
def rnSetWait : Running := { rn with flying := [fl .started setI, waitF] }
theorem wit_FlagWakes :
    Started (stOf .running (some rnSetWait)) 0 0 0 rnSetWait (fl .started setI) setI
    ∧ liveWaits (stOf .running (some rnSetWait)) (waitsOn 0 false) = []
    ∧ liveWaits (stOf .running (some rnSetWait)) (waitsOn 0 true) = [(0, 0, waitF)]
    ∧ getRun (stOf .running (some rnSetWait)) 0 0 = some rnSetWait ∧ rnSetWait.poisonStop = false := by
  unfold Started; decide +kernel
theorem wit_FlagWaits : StartedBy (.sWait 3 0 false true 0 1) ∧ runningCtx (stFly (fl .started (.sWait 3 0 false true 0 1))) 0 = true := by
  unfold StartedBy Started; decide +kernel
/-- A context whose name 7 is flag 9, for remote use. -/
def stRemote : State :=
  { State.reset with ctxs := [(0, { Ctx.free with st := .running, flagMap := [(7, mkEntry false 9 true false)] })] }
theorem wit_RemoteSets :
    residentIn stRemote 0 = true ∧ entryValid (flagEntry stRemote 0 7) = true ∧ entryBarrier (flagEntry stRemote 0 7) = false
    ∧ entryRemote (flagEntry stRemote 0 7) = true ∧ entryIndex (flagEntry stRemote 0 7) = 9 ∧ (getFlag stRemote 9).value = false
    ∧ liveWaits stRemote (waitsOn 9 false) = [] ∧ liveWaits stRemote (waitsOn 9 true) = []
    ∧ residentIn stRemote 1 = false ∧ entryValid (flagEntry stRemote 0 8) = false := by
  decide +kernel
def barI : CInstr := .sBar 3 0 true false 0 0 0
/-- Barrier 0 has `e` participants, `n` of which have entered. -/
def stBar (e n : Nat) : State := { stFly (fl .started barI) with bars := [(0, { BarSt.none with e := e, arrived := n })] }
theorem wit_Barriers :
    Started (stBar 4 2) 0 0 0 (rnFly (fl .started barI)) (fl .started barI) barI ∧ barTree (stBar 4 2) 0 = none
    ∧ (getBar (stBar 4 2) 0).up = false ∧ Sparse.get 0 (getBar (stBar 4 2) 0).gens 0 = (getBar (stBar 4 2) 0).g
    ∧ (getBar (stBar 4 2) 0).arrived + 1 ≠ (getBar (stBar 4 2) 0).e ∧ (getBar (stBar 4 3) 0).arrived + 1 = (getBar (stBar 4 3) 0).e
    ∧ liveWaits (stBar 4 2) (waitsBar 0 0) = [] := by
  unfold Started; decide +kernel
theorem wit_BarrierReleases : ∀ y m q, getRun (stBar 4 3) y m = some q → q.poisonStop = false := by
  intro y m q h
  have e := run_only rfl rfl h
  cases e
  rfl
theorem wit_BarrierOverrun :
    Started { stBar 4 2 with bars := [(0, ⟨0, 4, 2, [(0, 1)], false⟩)] } 0 0 0 (rnFly (fl .started barI)) (fl .started barI) barI
    ∧ Sparse.get 0 (getBar { stBar 4 2 with bars := [(0, ⟨0, 4, 2, [(0, 1)], false⟩)] } 0).gens 0 ≠ 0 := by
  unfold Started; decide +kernel
theorem wit_BarrierWaits :
    StartedBy (.sBwait 3 0 true 0 1 0) ∧ liveWaits (stFly (fl .started (.sBwait 3 0 true 0 1 0))) (waitsBar 0 0) = []
    ∧ Sparse.get 0 (getBar { stBar 4 2 with bars := [(0, ⟨0, 4, 2, [(0, 1)], false⟩)] } 0).gens 0 > 0 := by
  unfold StartedBy Started; decide +kernel
theorem wit_BarrierTrees :
    (getTree (stTree false true []) 0).valid = true ∧ (getTree (stTree false true []) 0).down.testBit 3 = true
    ∧ enteredAll (wt false true [(some 3, 1)]) 1 = false ∧ enteredAll (wt false true [(some 0, 1), (some 3, 1)]) 1 = true
    ∧ (getTree (stTree true true []) 0).root = true ∧ (getTree (stTree false true []) 0).released = 0
    ∧ liveWaits (stTree false false []) (waitsBar 0 1) = [] := by
  decide +kernel
def sendI : CInstr := .qSend 2 2 3 4
/-- A context of rank 0 in a job of two, and the message goes to rank 1. -/
def manR : Manifest := { man0 with ranks := some (0, [0, 5]) }
def stSend : State :=
  { stOf .running none with
    ranks := [(0, some 0), (1, some 5)]
    ctxs := [(0, { Ctx.free with st := .running, man := some manR, cores := [(0, { CoreCtx.none with run := some (rnFly (fl .started sendI)) })] })] }
def flTo1 : Flight := { fl .started sendI with regs := rn.regs.setG 3 0x10000 }
theorem wit_RingSends :
    StartedBy sendI ∧ rowPoisoned (sendMeet (stFly (fl .started sendI)) 0 0 (fl .started sendI) 2 []) 0 Desc.null 0 = false
    ∧ rankAt (stFly flTo1) 0 1 = .nowhere ∧ rankAt stSend 0 1 = .away 5 ∧ bitsOf 29 16 (flTo1.regs.getG 3) = 1 := by
  unfold StartedBy Started; decide +kernel
theorem wit_RingAnswer :
    Started (stFly { fl .started sendI with waits := .answer 1 2 }) 0 0 0 (rnFly { fl .started sendI with waits := .answer 1 2 })
      { fl .started sendI with waits := .answer 1 2 } sendI := by
  unfold Started; decide +kernel
/-- The handler task of message 6 of ring 2 in epoch 0. -/
def rnAck (acked : Bool) : Running := { rnFly (fl .started .qAck) with task := { tk with kind := .ringHandler 2 6 0 }, acked := acked }
theorem wit_RingAcks :
    Started (stOf .running (some (rnAck false))) 0 0 0 (rnAck false) (fl .started .qAck) .qAck
    ∧ (getRing (stOf .running (some (rnAck false))) 2).epoch = 0 ∧ (getRing (stOf .running (some (rnAck false))) 2).st ≠ 3
    ∧ Started (stOf .running (some (rnAck true))) 0 0 0 (rnAck true) (fl .started .qAck) .qAck := by
  unfold Started; decide +kernel
theorem wit_RingControl :
    StartedBy (.qOpen 0 1) ∧ StartedBy (.qClose 0 1) ∧ StartedBy (.qReset 0 1)
    ∧ (getRing (stFly (fl .started (.qOpen 0 1))) 0).st ≠ 3 ∧ (getRing (stFly (fl .started (.qOpen 0 1))) 0).ctx = 0 := by
  unfold StartedBy Started; decide +kernel

theorem wit_RingResetCompletes :
    let f : Flight := { fl .started (.qReset 0 1) with waits := .ringReset 4 }
    let s : State := { stFly f with rings := [(4, { Ring.none with valid := true, st := 3, prior := 1, resetBy := some (0, 0, 0) })] }
    Started s 0 0 0 (rnFly f) f (.qReset 0 1) ∧ (getRing s 4).valid = true ∧ (getRing s 4).st = 3 ∧ (getRing s 4).active = []
    ∧ (getRing s 4).ops = [] ∧ (getRing s 4).resetBy = some (0, 0, 0) := by
  unfold Started; decide +kernel

/-- Ring 4 of context 0, OPEN, 16 slots in region 2, which is 4,096 bytes at 0. -/
def rg : Ring := { Ring.none with valid := true, st := 1, log2 := 9, handle := 2, handlers := 2, hHandle := 2 }
def stRing (v : Ring) : State := { stCode (some rn) [] with rings := [(4, v)] }
/-- Pseudo-channel 0 belongs to partition 0. -/
def owned (s : State) : State := setFld s (Reg.MEM_HBM_SET 0) (Fld.MEM_HBM_SET_EN 0) 1
def msg1 : RingMsg := ⟨1, 3, 0, 1, 9, true, 1, List.replicate 32 0⟩
theorem wit_RingTakes :
    judgeMsg (stRing rg) rg msg1 = 0 ∧ judgeMsg (owned (stRing rg)) rg msg1 = 0 ∧ msgBad (owned (stRing rg)) rg msg1 = none
    ∧ msgBad (stRing rg) rg msg1 = some 0 ∧ rg.combining = false ∧ rg.fit 1 = some 0 ∧ msg1.bytes.length = 32 * msg1.slots
    ∧ getRing (stRing rg) 4 = rg ∧ ringCtxUp (stRing rg) rg = true := by
  decide +kernel
theorem wit_RingRefuses :
    judgeMsg State.reset Ring.none msg1 = 7 ∧ judgeMsg (stRing rg) { rg with st := 0 } msg1 = 2 ∧ judgeMsg (stRing rg) { rg with st := 2 } msg1 = 3
    ∧ judgeMsg (stRing rg) { rg with epoch := 65535 } msg1 = 4 ∧ judgeMsg (stRing rg) { rg with wptr := 16 } msg1 = 1 := by
  decide +kernel
theorem wit_CombinedPlaced :
    let v : Ring := { rg with combining := true, closed := [⟨7, 64, [], 2⟩] }
    (getRing (stRing v) 4).closed.find? (fun e => e.tag == 7) = some ⟨7, 64, [], 2⟩ ∧ v.fit (1 + ceilDiv 64 32) = some 0
    ∧ slotsBad (owned (stRing v)) v (1 + ceilDiv 64 32) = none := by
  decide +kernel
theorem wit_HandlerDispatched :
    let h : MsgHdr := ⟨1, 0, 0, 0, 0⟩
    let m : RMsg := ⟨0, 0, 1, some h, .capped, false⟩
    let v : Ring := { rg with msgs := [m], wptr := 1, nextMsg := 1 }
    (getRing (stRing v) 4).nextDue = some (m, h) ∧ (getCtx (stRing v) 0).st = .running ∧ v.active.length < v.handlers
    ∧ (handlerTask (stRing v) 4 v m h).home = 0 ∧ dequeRoom (stRing v) 0 0 = true ∧ (getCore (stRing v) 0 0).held = []
    ∧ (getRun (stRing v) 0 0).isSome = true := by
  decide +kernel

/-- A host event queue that holds a gap marker and is full. -/
def fullQ : List QEntry := ⟨.gap 1 0, false, [], []⟩ :: List.replicate 4095 ⟨.keyLow 0 0, false, [], []⟩
theorem wit_HostQueueFull : 4095 ≤ (fullQ.filter (fun q => !q.isGap)).length ∧ fullQ.any (·.isGap) = true := by decide +kernel

/-! ### Witnesses: collectives -/

/-- Where no entry waits, none is ready. -/
theorem none_ready {s : State} (h : ∀ k, (getGrp s k).waiting = []) : NoneReady s := by intro k; simp [h k]

def bulkI : CInstr := .cBulk 2 3 4 5
def wredI : CInstr := .cWred 2 3 1 0 0 4 6 7
/-- Group 1 of context 0 in slot 0: two members, of which this is rank 0. -/
def gp : Grp := { Grp.none with valid := true, gid := 1, members := [0, 1] }
def stGrp (g : Grp) (f : Flight) : State := { stFly f with grps := [(0, g)] }
/-- The instruction names group 1; a reduce-scatter over FP32. -/
def flCol (i : CInstr) : Flight := { fl .started i with regs := rn.regs.setG 4 1 }
/-- An all-reduce of 1,024 FP32 elements under way, entered by that instruction. -/
def bk : Bulk := ⟨some (0, 0, 0), mkSig 1 0 0 2 0 0 0 1024, none, none, 0, 0, 0, 0, 0, (0, 0), 0, [], [], [], [], [], [], [], [], [], [], 0, false, none, false, false⟩
def gpBulk : Grp := { gp with bulk := some bk, st := 1, seq := 1 }
def stCol (g : Grp) : State := stGrp g { flCol bulkI with waits := .collective 0 0 }
def bkF : Flight := { flCol bulkI with waits := .collective 0 0 }
theorem grps_one {s : State} {g : Grp} (h : s.grps = [(0, g)]) (hw : g.waiting = []) (k : Nat) : (getGrp s k).waiting = [] := by
  unfold getGrp
  rw [h]
  by_cases hk : 0 = k <;> simp [Sparse.get, hk, hw, Grp.none]
theorem wit_BulkEnters :
    Started (stGrp gp (flCol bulkI)) 0 0 0 (rnFly (flCol bulkI)) (flCol bulkI) bulkI ∧ (flCol bulkI).waits = .none
    ∧ grpSlot (stGrp gp (flCol bulkI)) 0 (ctlGroup ((flCol bulkI).regs.getG 4)) = some 0 ∧ gp.busy false = false ∧ gp.st ≠ 3
    ∧ colTurn (rnFly (flCol bulkI)) 0 = true ∧ waitingEntries (stGrp gp (flCol bulkI)) = 0
    ∧ waitingEntries (stGrp { gp with waiting := List.replicate 16 (false, 0, 0, 1) } (flCol bulkI)) = 16
    ∧ gp.noticeOf false gp.seq = none ∧ gp.staged = [] ∧ 2 ≤ gp.members.length ∧ gp.rank < gp.members.length
    ∧ tensorPoisoned (stGrp gp (flCol bulkI)) (Desc.null, 0) = false
    ∧ gpBulk.busy false = true ∧ { gp with st := 3, abortReason := 4 }.busy false = false
    ∧ grpSlot (stGrp gpBulk (flCol bulkI)) 0 1 = some 0 := by
  unfold Started; decide +kernel
theorem wit_NoneReady : NoneReady (stGrp gp (flCol bulkI)) := none_ready (grps_one rfl rfl)
theorem wit_WredEnters :
    Started (stGrp gp (flCol wredI)) 0 0 0 (rnFly (flCol wredI)) (flCol wredI) wredI
    ∧ grpSlot (stGrp gp (flCol wredI)) 0 (bitsOf 15 0 ((flCol wredI).regs.getG 4)) = some 0 ∧ gp.busy true = false ∧ gp.tree = none
    ∧ colTurn (rnFly (flCol wredI)) 0 = true ∧ gp.noticeOf true gp.wseq = none ∧ (getTree (stTree false false []) 0).relay = false
    ∧ { gp with aborting := some (true, 0, .timeout, 0) }.busy true = true
    ∧ (getTree (stTree false false []) 0).contribs = [] ∧ bitList 16 (getTree (stTree false false []) 0).down ≠ [] := by
  unfold Started; decide +kernel
/-- A chunk of a signature at the first stage. -/
def ck (v : Sig) (first : Bool) (data : List Byte) (crcOk : Bool) (gather : Bool) : BulkChunk :=
  ⟨v, 1, 1, first, 0, 0, 0, 0, crcOk, true, gather, 0, 0, false, [], data, 0⟩
theorem wit_ChunksArrive :
    (getGrp (stCol { gpBulk with gen := 1 }) 0).gen > (ck bk.sig true [] true false).sig.gen
    ∧ (ck (mkSig 1 1 0 2 0 0 0 1024) true [] true false).sig.gen > gpBulk.gen
    ∧ gp.seq ≤ (ck bk.sig true [] true false).sig.seq ∧ gpBulk.gid = bk.sig.gid ∧ gpBulk.gen = bk.sig.gen
    ∧ (ck (mkSig 1 0 0 2 0 0 0 512) true [] true false).sig ≠ bk.sig
    ∧ (ck (mkSig 1 0 0 2 0 0 0 512) true [] true false).sig.seq = bk.sig.seq
    ∧ combiningStage bk.sig.op (ck bk.sig false [1] false true) = false
    ∧ gpBulk.valid = true ∧ gpBulk.waiting = [] ∧ gpBulk.naming = none ∧ bk.failed = none ∧ gpBulk.aborting = none
    ∧ (ck bk.sig true [] true false).data = [] ∧ (ck bk.sig true [] true false).vals = []
    ∧ 0 < fld (setFld (stCol gpBulk) Reg.COL_CTL Fld.COL_CTL_RETRIES 1) Reg.COL_CTL Fld.COL_CTL_RETRIES := by
  decide +kernel
/-- The same collective with everything sent, heard and written. -/
def bkDone : Bulk := { bk with
  agreed := true, sent := (grpGeo State.reset gp bk.sig).allSends, began := (grpGeo State.reset gp bk.sig).mine }
theorem wit_CollectiveEnds :
    Started (stCol { gpBulk with bulk := some bkDone }) 0 0 0 (rnFly bkF) bkF bulkI
    ∧ bkDone.done (grpGeo (stCol { gpBulk with bulk := some bkDone }) { gpBulk with bulk := some bkDone } bkDone.sig) = true
    ∧ bkDone.owner = some (0, 0, 0) ∧ gpBulk.aborting = none ∧ gpBulk.device = false := by
  unfold Started; decide +kernel
/-- The same in the naming of the two signatures, at a step. -/
def nm (n : Nat) : Naming := ⟨n, 0, bk.sig, 1, bk.sig, none, 0⟩
def gpNaming (n : Nat) : Grp := { gpBulk with aborting := some (false, 0, .mismatch, 0), naming := some (nm n) }
theorem wit_CollectiveAborts :
    Started (stCol gpBulk) 0 0 0 (rnFly bkF) bkF bulkI ∧ gpBulk.valid = true ∧ gpBulk.device = false ∧ gpBulk.waiting = []
    ∧ gpBulk.aborting = none ∧ gpBulk.wag = none ∧ gpBulk.st ≠ 3
    ∧ { gpBulk with aborting := some (false, 0, .mismatch, 0) }.aborting = some (false, bk.sig.seq, .mismatch, 0)
    ∧ (gpNaming 4).naming = some (nm 4) ∧ (nm 4).step = 4 ∧ (gpNaming 1).naming = some (nm 1) ∧ (nm 1).step ≠ 4
    ∧ gpBulk.naming = none
    ∧ bk.done (grpGeo (stCol gpBulk) gpBulk bk.sig) = false ∧ (false, 1) ∈ (grpGeo (stCol gpBulk) gpBulk bk.sig).mine
    ∧ (grpGeo (stCol gpBulk) gpBulk bk.sig).partner (false, 1) = some 1 ∧ (false, 1) ∉ bk.heard
    ∧ bk.beat + max 1 (fld (wr (setFld (stCol gpBulk) Reg.COL_CTL Fld.COL_CTL_TMO 3) Reg.HUM_BEAT 3) Reg.COL_CTL Fld.COL_CTL_TMO)
        ≤ (rd (wr (setFld (stCol gpBulk) Reg.COL_CTL Fld.COL_CTL_TMO 3) Reg.HUM_BEAT 3) Reg.HUM_BEAT).toNat := by
  unfold Started; decide +kernel
/-- The inputs of tree 0 with a contribution on port 0. -/
def wsig : Sig := mkSig 1 0 0 5 0 0 0 1
def wtHeld (v : Sig) : WTree := { wt false true [] with contribs := [(some 0, v, [2], [false])] }
/-- What a node holds once port 3 has brought its contribution. -/
def wins (v : WTree) : List (Option (Option Nat × Sig × List Int × List Bool)) :=
  (bitList 16 v.down).map (fun p =>
    ((v.contribs.filter (fun (c : Option Nat × Sig × List Int × List Bool) => c.1 != some 3)) ++ [(some 3, wsig, [1], [false])]).find?
      (fun (c : Option Nat × Sig × List Int × List Bool) => c.1 == some p))
theorem wit_WaggleArrives :
    (wins (wt false true [])).map (·.isSome) = [false, true] ∧ (wins (wtHeld wsig)).map (·.map (·.2.1)) = [some wsig, some wsig]
    ∧ (wins (wtHeld bk.sig)).map (·.map (·.2.1)) = [some bk.sig, some wsig] ∧ bk.sig ≠ wsig
    ∧ (wtHeld wsig).valid = true ∧ (wtHeld wsig).down.testBit 3 = true ∧ (wtHeld wsig).relay = true ∧ (wtHeld wsig).root = false := by
  decide +kernel
theorem wit_WaggleNoneReady : NoneReady (stTree false true []) := none_ready (fun _ => rfl)
/-- A C.WRED of group slot 0 in tree 0, of which this device is a leaf. -/
def wrF : Flight := { flCol wredI with waits := .collective 0 0 }
def gpWag : Grp := { gp with wag := some ⟨.instr 0 0 0, wsig, [1], [false], none⟩, st := 1, wseq := 1, tree := some 0 }
def stWag : State := { stGrp gpWag wrF with trees := [(0, { wt false false [] with local_ := 256 })] }
theorem wit_WaggleReturns :
    Started stWag 0 0 0 (rnFly wrF) wrF wredI ∧ (getTree stWag 0).local_ = 256 + 0 ∧ (getTree stWag 0).relay = false
    ∧ (getGrp stWag 0).wag = some ⟨.instr 0 0 0, wsig, [1], [false], none⟩ ∧ (getGrp stWag 0).aborting = none
    ∧ (getGrp stWag 0).naming = none ∧ (getGrp stWag 0).devWags = [] ∧ (getTree stWag 0).root = false := by
  unfold Started; decide +kernel
theorem wit_WaggleReturnsReady : NoneReady stWag := none_ready (grps_one rfl rfl)
/-- A wait of 3 beats that has lasted 3 beats. -/
def lateF (soft : Bool) : Flight :=
  { fl .started (.sWait 3 0 false soft 1 2) with waits := .flag 0, regs := rn.regs.setG 1 3, ticks := 3 }
theorem wit_WaitExpires :
    Started (stFly (lateF true)) 0 0 0 (rnFly (lateF true)) (lateF true) (.sWait 3 0 false true 1 2)
    ∧ Started (stFly (lateF false)) 0 0 0 (rnFly (lateF false)) (lateF false) (.sWait 3 0 false false 1 2)
    ∧ timeoutOf (stFly (lateF true)) 0 ((lateF true).regs.getG 1) ≤ (lateF true).ticks := by
  unfold Started; decide +kernel
/-- The sequencer's instruction has waited for token 1 as long as its context's default. -/
def rnTok : Running := { rn with seq := some { fl .issued .kNop with op := ⟨1, 0, false, 0, .kNop⟩, ticks := 2 } }
theorem wit_TokenWaitExpires :
    rnTok.ready 1 = false
    ∧ timeoutOf (setFld (stOf .running (some rnTok)) (Reg.SYN_TMO 0) Fld.SYN_TMO_BEATS 2) 0 0 ≤ 2
    ∧ runningCtx (stOf .running (some rnTok)) 0 = true := by
  decide +kernel
theorem wit_WaggleOperationLate :
    let s : State := wr (setFld { State.reset with train := [(2, { Train.idle with wagSince := some 0 })] } Reg.COL_CTL Fld.COL_CTL_TMO 3) Reg.HUM_BEAT 3
    (getTrain s 2).wagSince = some 0 ∧ redSlot s 2 = none
    ∧ 0 + max 1 (fld s Reg.COL_CTL Fld.COL_CTL_TMO) ≤ (rd s Reg.HUM_BEAT).toNat := by
  decide +kernel

/-- The device's own OR has gone up group slot 0's tree and waits. -/
def gpOr : Grp := { gp with device := true, wag := some ⟨.stepOr, wsig, [0], [false], none⟩, st := 1, wseq := 1 }
theorem no_naming {s : State} {g : Grp} (h : s.grps = [(0, g)]) (hw : g.naming = none) (k : Nat) : (getGrp s k).naming = none := by
  unfold getGrp
  rw [h]
  by_cases hk : 0 = k <;> simp [Sparse.get, hk, hw, Grp.none]
def stOrLate : State :=
  wr (setFld { State.reset with train := [(0, { Train.idle with wagSince := some 0 })], grps := [(0, gpOr)] } Reg.COL_CTL Fld.COL_CTL_TMO 3)
    Reg.HUM_BEAT 3
theorem wit_StepOrLate :
    (getTrain stOrLate 0).wagSince = some 0 ∧ redSlot stOrLate 0 = some 0 ∧ gpOr.aborting = none ∧ gpOr.devWags = [] ∧ gpOr.st ≠ 3
    ∧ (getTrain stOrLate 0).xch = none ∧ (getTrain stOrLate 0).startDue = none
    ∧ 0 + max 1 (fld stOrLate Reg.COL_CTL Fld.COL_CTL_TMO) ≤ (rd stOrLate Reg.HUM_BEAT).toNat := by
  decide +kernel
theorem wit_StepOrLateNoNaming (k : Nat) : (getGrp stOrLate k).naming = none := no_naming rfl rfl k

/-! ### Witnesses: memory's upkeep and the stages -/

def stRepair : State :=
  setFld (setFld (setFld State.reset Reg.MEM_PPR_CTL Fld.MEM_PPR_CTL_AUTO 1) (Reg.MEM_PPR_LIST 63) Fld.MEM_PPR_LIST_VALID 1) (Reg.MEM_PPR_LIST 63)
    Fld.MEM_PPR_LIST_PC 127
theorem wit_RowRepair :
    fld stRepair Reg.MEM_PPR_CTL Fld.MEM_PPR_CTL_AUTO = 1 ∧ fld stRepair (Reg.MEM_PPR_LIST 63) Fld.MEM_PPR_LIST_VALID = 1
    ∧ fld stRepair (Reg.MEM_PPR_LIST 63) Fld.MEM_PPR_LIST_DONE = 0 ∧ fld stRepair (Reg.MEM_PPR_LIST 63) Fld.MEM_PPR_LIST_FAILED = 0
    ∧ pcFree stRepair (fld stRepair (Reg.MEM_PPR_LIST 63) Fld.MEM_PPR_LIST_PC) = true := by
  decide +kernel
theorem wit_CombStore :
    let s := setFld (setFld (setFld (owned State.reset) Reg.CMB_CTL Fld.CMB_CTL_ENABLE 1) (Reg.CMB_PART 0) Fld.CMB_PART_CACHE_WAYS 0x8001)
      (Reg.CMB_PART 0) Fld.CMB_PART_CACHE_HBM 1
    ownerAt s (63 * 256) = some 0 ∧ combCaches s 0 (decide (63 * 256 < hbmEnd)) = true ∧ combWays s 0 ≠ []
    ∧ fld s (Reg.CMB_PART 0) Fld.CMB_PART_STREAM_WAYS = 0
    ∧ ([⟨63, 0, 0, true⟩] : List CombLine).find? (fun c => c.line == 63) = some ⟨63, 0, 0, true⟩
    ∧ combHeld { s with comb := [⟨63, 0, 0, true⟩] } (63 * 256) = some ⟨63, 0, 0, true⟩ := by
  decide +kernel
theorem wit_Scrub :
    (hbmEnd - 1 < hbmEnd ∧ fld (setFld State.reset Reg.MEM_SCRUB Fld.MEM_SCRUB_HBM_EN 1) Reg.MEM_SCRUB Fld.MEM_SCRUB_HBM_EN = 1)
    ∧ (l2Base ≤ l2Base ∧ l2Base < l2End ∧ fld (setFld State.reset Reg.MEM_SCRUB Fld.MEM_SCRUB_L2_EN 1) Reg.MEM_SCRUB Fld.MEM_SCRUB_L2_EN = 1)
    ∧ fld (setFld State.reset Reg.MEM_L2_CTL Fld.MEM_L2_CTL_LINK_ECC 1) Reg.MEM_L2_CTL Fld.MEM_L2_CTL_LINK_ECC = 1 := by
  decide +kernel

/-! ### A slot in memory, for the witnesses of checkpoints (R424) -/

/-- Bytes of zero. -/
def zeros (n : Nat) : List Byte := List.replicate n 0
/-- What comes before HCRC: generation 1, rank 0, partition 0, one section. -/
def head1 : List Byte := leBytes 8 1 ++ zeros 28 ++ leBytes 4 1 ++ zeros 104
/-- The table: one configuration section of 16 bytes at 4,096. -/
def table1 : List Byte := leBytes 8 1 ++ leBytes 8 4096 ++ leBytes 8 16 ++ zeros 8
/-- A base object without entries. -/
def base0 : List Byte := 1 :: List.replicate 15 0
/-- The one chunk. -/
def chunk1 : List Byte := base0 ++ zeros 4080
/-- A slot of generation 1 that saved a base object without entries. -/
def slot1 : List Byte :=
  head1 ++ (leBytes 4 3184103396 ++ (zeros 108 ++ (table1 ++ (zeros 3808 ++ (base0 ++ (zeros 4080 ++ leBytes 4 1516042199))))))
theorem leBytes_len (n v : Nat) : (leBytes n v).length = n := by
  induction n generalizing v with
  | zero => rfl
  | succ n ih => simp [leBytes, ih]
theorem cut (x y z : List Byte) (o n : Nat) (ho : x.length = o) (hn : y.length = n) : ((x ++ (y ++ z)).drop o).take n = y := by
  subst ho hn; simp
/-- The residue after more bytes, each worked out before the next. -/
def crcS : List Byte → BitVec 32 → BitVec 32
  | [], c => c
  | b :: bs, c => if c = 0 then crcS bs (crcByte c b) else crcS bs (crcByte c b)
theorem crc_eq (bs : List Byte) : crc32c bs = (crcS bs 0xFFFFFFFF ^^^ 0xFFFFFFFF).toNat := by
  have h (c : BitVec 32) : bs.foldl crcByte c = crcS bs c := by
    induction bs generalizing c with
    | nil => rfl
    | cons b bs ih => rw [List.foldl_cons, ih]; simp [crcS]
  rw [crc32c, h]
theorem crc_chunk1 : crc32c chunk1 = 1516042199 := by rw [crc_eq]; decide +kernel
theorem slot1_len : slot1.length = 8196 := by
  simp only [slot1, head1, table1, zeros, base0, List.length_append, List.length_cons, List.length_replicate, leBytes_len]
theorem readBytes_writeBytes (s : State) (a : Nat) (bs : List Byte) (o n : Nat) (h : o + n ≤ bs.length) :
    readBytes (writeBytes s a bs) (a + o) n = (bs.drop o).take n := by
  unfold readBytes
  apply List.ext_getElem
  · simp; omega
  · intro i h1 h2
    simp only [List.length_map, List.length_range] at h1
    simp only [List.getElem_map, List.getElem_range, List.getElem_take, List.getElem_drop, Nat.add_assoc]
    exact readByte_writeBytes_inside s a bs (o + i) (by omega)
/-- A slot of one section and one chunk is intact. -/
theorem slotIntact_one (s : State) (a : Nat) (hn : slotFld s a 36 4 = 1) (h0 : slotFld s a 0 8 = 1)
    (hh : slotFld s a 144 4 = crc32c (readBytes s a 144 ++ readBytes s (a + 256) 32))
    (ht : slotTable s a = [⟨1, 0, 0, 4096, 16⟩]) (hc : slotFld s (a + 8192) 0 4 = crc32c (readBytes s (a + 4096) 4096)) :
    slotIntact s a 8196 = true := by
  simp [slotIntact, hn, h0, hh, ht, ceilDiv, hc]
/-- That slot in memory, at `a`. -/
theorem held (s : State) (a o n : Nat) (h : o + n ≤ 8196) : readBytes (writeBytes s a slot1) (a + o) n = (slot1.drop o).take n :=
  readBytes_writeBytes _ _ _ _ _ (by rw [slot1_len]; exact h)
theorem heldFld (s : State) (a o n : Nat) (h : o + n ≤ 8196) :
    slotFld (writeBytes s a slot1) a o n = ofLeBytes ((slot1.drop o).take n) := by
  rw [slotFld, held s a o n h]
theorem heldChunk (s : State) (a : Nat) : readBytes (writeBytes s a slot1) (a + 4096) 4096 = chunk1 := by
  rw [held _ _ _ _ (by omega)]
  have e : slot1 = (head1 ++ leBytes 4 3184103396 ++ zeros 108 ++ table1 ++ zeros 3808) ++ (chunk1 ++ leBytes 4 1516042199) := by
    simp only [slot1, chunk1, List.append_assoc]
  rw [e, cut]
  · simp only [head1, table1, zeros, List.length_append, List.length_replicate, leBytes_len]
  · simp only [chunk1, base0, zeros, List.length_append, List.length_cons, List.length_replicate]
theorem heldCrc (s : State) (a : Nat) : slotFld (writeBytes s a slot1) (a + 8192) 0 4 = 1516042199 := by
  rw [slotFld, Nat.add_zero, held _ _ _ _ (by omega)]
  have e : slot1 = (head1 ++ leBytes 4 3184103396 ++ zeros 108 ++ table1 ++ zeros 3808 ++ chunk1) ++ (leBytes 4 1516042199 ++ []) := by
    simp only [slot1, chunk1, List.append_assoc, List.append_nil]
  rw [e, cut]
  · decide
  · simp only [head1, table1, zeros, chunk1, base0, List.length_append, List.length_cons, List.length_replicate, leBytes_len]
  · exact leBytes_len 4 _
theorem heldTable (s : State) (a : Nat) : slotTable (writeBytes s a slot1) a = [⟨1, 0, 0, 4096, 16⟩] := by
  have hn : slotFld (writeBytes s a slot1) a 36 4 = 1 := by rw [heldFld _ _ _ _ (by omega)]; decide +kernel
  have f (o n : Nat) (h : 256 + o + n ≤ 8196) :
      slotFld (writeBytes s a slot1) (a + 256) o n = ofLeBytes ((slot1.drop (256 + o)).take n) := by
    rw [slotFld, Nat.add_assoc, held _ _ _ _ h]
  simp only [slotTable, hn, List.range_one, List.map_cons, List.map_nil, Nat.mul_zero, Nat.add_zero]
  rw [f 0 2 (by omega), f 2 2 (by omega), f 4 4 (by omega), f 8 8 (by omega), f 16 8 (by omega)]
  decide +kernel
theorem heldIntact (s : State) (a : Nat) : slotIntact (writeBytes s a slot1) a 8196 = true := by
  apply slotIntact_one
  · rw [heldFld _ _ _ _ (by omega)]; decide +kernel
  · rw [heldFld _ _ _ _ (by omega)]; decide +kernel
  · have e := held s a 0 144 (by omega)
    rw [Nat.add_zero] at e
    rw [heldFld _ _ _ _ (by omega), e, held _ _ _ _ (by omega), crc_eq]; decide +kernel
  · exact heldTable s a
  · rw [heldCrc, heldChunk, crc_chunk1]
/-- With the comb store off, bytes are only written. -/
theorem store_plain (s : State) (a : Nat) (bs : List Byte) (h : flg s Reg.CMB_CTL Fld.CMB_CTL_ENABLE = false) :
    storeBytes s a bs = writeBytes s a bs := by
  have e : flg (writeBytes s a bs) Reg.CMB_CTL Fld.CMB_CTL_ENABLE = false := h
  simp [storeBytes, combTouch, e]

/-- Two virtual stages of a pipeline of one device, each with two slots of 64 bytes in every queue. -/
def mq : ManQueue := ⟨2, 64, 2⟩
def mv1 : ManVStage := ⟨mq, mq, mq, mq, 2, 64, 2, 2, 2, none, none, none⟩
def sg : ManStage := ⟨0, 1, 4, [mv1, mv1], [0], []⟩
/-- A RUNNING context with this manifest, its core busy. -/
def cxOf (m : Manifest) : Ctx :=
  { Ctx.free with st := .running, man := some m, handles := [(2, codeH)], cores := [(0, { CoreCtx.none with run := some rn })] }
/-- The partition's context is RUNNING, its core busy; a quota of 8 cells. -/
def stStage (t : Train) (cells : List (Nat × Cell)) : State :=
  setFld { stOf .running none with
    ctxs := [(0, cxOf { man0 with stage := some sg })]
    train := [(0, t)], cells := cells } (Reg.BRD_PART 0) Fld.BRD_PART_QUOTA 8
def tr (v0 v1 : VSt) : Train := { Train.idle with vs := [v0, v1] }
def it0 : InItem := ⟨0, 0, 0, 0⟩
def cellAs (st : CellSt) (j : Nat) : Cell := { Cell.free with st := st, vstage := j }

theorem wit_ItemsArrive :
    let s := stStage (tr VSt.none VSt.none) []
    stageOf s 0 = some (0, sg) ∧ sg.vstages[1]? = some mv1 ∧ sg.logical 1 ≠ 0 ∧ sg.isLast 0 = false ∧ 1 < (getTrain s 0).vs.length
    ∧ lowestFree (mv1.inQ true).slots (inTaken (stStage (tr VSt.none { VSt.none with inF := [it0] }) []) 0 sg 1 true) = some 1
    ∧ lowestFree (mv1.inQ false).slots (inTaken s 0 sg 0 false) = some 0 ∧ stepNo s 0 = 0 ∧ attemptNo s 0 = 0
    ∧ attemptNo (setFld s (Reg.BRD_STEP 0) Fld.BRD_STEP_ATTEMPT 255) 0 = 255 ∧ stepNo (setFld s (Reg.BRD_STEP 0) Fld.BRD_STEP_STEP 1) 0 = 1
    ∧ firstBad (owned s) (some 0) ((handleOf (owned s) 0 0 2).base + 1 * 64) (min 64 64) = none
    ∧ firstBad s (some 0) ((handleOf s 0 0 2).base + 1 * 64) (min 64 64) = some 64 := by
  decide +kernel
/-- Where no stage has an item to send, none sends. -/
theorem none_sends {s : State} {vs : List VSt} (h : (getTrain s 0).vs = vs) (hv : ∀ v ∈ vs, v.sendF = [] ∧ v.sendB = []) (k : Nat) :
    (getVs s 0 k).sendF = [] ∧ (getVs s 0 k).sendB = [] := by
  have e : getVs s 0 k = vs.getD k VSt.none := by rw [getVs, h]
  rw [e, List.getD]
  cases hk : vs[k]? with
  | none => exact ⟨rfl, rfl⟩
  | some v => exact hv v (List.mem_of_getElem? hk)
theorem wit_OutboundFreed :
    (∀ k, (getVs (stStage (tr { VSt.none with outF := [1] } VSt.none) []) 0 k).sendF = []
      ∧ (getVs (stStage (tr { VSt.none with outF := [1] } VSt.none) []) 0 k).sendB = [])
    ∧ ∀ e, e ∈ cellsAt (stStage (tr { VSt.none with outF := [1] } VSt.none) [(0, { cellAs .forward 0 with outSlot := 0 })]) 0 0 →
      ¬(e.2.outSlot = 1 ∧ e.2.st = .forward) :=
  ⟨none_sends (vs := [{ VSt.none with outF := [1] }, VSt.none]) rfl (by simp [VSt.none]), by decide +kernel⟩
/-- An item that waits while both its receiver's slots are spent; one credit comes. -/
def item1 : OutItem := ⟨1, 0, ⟨0, 0, 0, 1, []⟩, true, false⟩
theorem wit_ItemLeaves :
    let s := stStage (tr { VSt.none with sendF := [item1], owedF := 2 } VSt.none) []
    stageOf s 0 = some (0, sg) ∧ 0 < sg.vstages.length ∧ 0 < (getTrain s 0).vs.length
    ∧ flg s (Reg.GRD_ROLE 0) Fld.GRD_ROLE_BACKUP_ROLE = false ∧ (getVs s 0 0).sendF = [item1] ∧ (getVs s 0 0).sendB = []
    ∧ item1.main = true ∧ item1.copy = false ∧ (getVs s 0 0).owedF - 1 < sendSlots sg 0 true := by
  decide +kernel
theorem wit_NothingElseWaits :
    ∀ k, k ≠ 0 → (getVs (stStage (tr { VSt.none with sendF := [item1], owedF := 2 } VSt.none) []) 0 k).sendF = [] := by
  intro k hk
  match k, hk with
  | 1, _ => rfl
  | k + 2, _ => rfl
theorem wit_NoGradientWaits :
    ∀ k, (getVs (stStage (tr { VSt.none with sendF := [item1], owedF := 2 } VSt.none) []) 0 k).sendB = [] := by
  intro k
  match k with
  | 0 => rfl
  | 1 => rfl
  | k + 2 => rfl
theorem wit_ForwardAdmitted :
    let s := stStage (tr { VSt.none with inF := [it0] } VSt.none) []
    stageOf s 0 = some (0, sg) ∧ (getVs s 0 0).inF = [it0] ∧ freeCell s = some 0 ∧ fwdReady s 0 0 sg 0 = true ∧ anyAcc s 0 0 sg = false
    ∧ anyBwd s 0 0 sg 0 = false ∧ anyFwd s 0 0 sg 1 = false := by
  decide +kernel
theorem wit_BackwardAdmitted :
    let s := stStage (tr { VSt.none with inB := [it0] } VSt.none) [(5, cellAs .stashed 0)]
    stageOf s 0 = some (0, sg) ∧ bwdReady s 0 0 sg 0 = true ∧ anyAcc s 0 0 sg = false ∧ anyFwd s 0 0 sg 0 = false
    ∧ anyBwd s 0 0 sg 1 = false ∧ (getVs s 0 0).inB = [it0] ∧ cellKey s 0 0 0 it0 = some (5, cellAs .stashed 0) := by
  decide +kernel
theorem wit_CellTurns :
    let s := stStage (tr VSt.none { VSt.none with fwdDone := 4 }) [(5, cellAs .forward 1)]
    sg.isLast 1 = true ∧ turnNext s 0 0 sg 1 = some (5, cellAs .forward 1) ∧ bwdReady s 0 0 sg 1 = true ∧ anyAcc s 0 0 sg = false
    ∧ anyBwd s 0 0 sg 2 = false := by
  decide +kernel
theorem wit_OrphanGradient :
    let s := stStage (tr { VSt.none with inB := [it0] } VSt.none) []
    bwdReady s 0 0 sg 0 = true ∧ cellKey s 0 0 0 it0 = none ∧ anyAcc s 0 0 sg = false ∧ anyBwd s 0 0 sg 1 = false := by
  decide +kernel
theorem wit_AccumulateAdmitted :
    let s := stStage (tr { VSt.none with backOrder := [5] } VSt.none) [(5, cellAs .accumulate 0)]
    accNext s 0 0 0 = some (5, cellAs .accumulate 0) ∧ accNext s 0 0 1 = none := by
  decide +kernel
theorem wit_CellHeldLong :
    let s := wr (setFld (stStage (tr VSt.none VSt.none) [(255, cellAs .stashed 0)]) (Reg.BRD_ORPHAN 0) Fld.BRD_ORPHAN_LIMIT 1) Reg.HUM_BEAT 1000
    (getCell s 255).st = .stashed ∧ fld s (Reg.BRD_ORPHAN (getCell s 255).part) Fld.BRD_ORPHAN_LIMIT = 1
    ∧ (getCell s 255).beat + 1 * 1000 ≤ beat s := by
  decide +kernel

/-! ### Witnesses: steps, exchange, checkpoints -/

/-- A reduction buffer of 2,048 elements; its group is gp in slot 0. -/
def mr : ManReduce := ⟨1, 2, 2048, 2, 0, 63, [], 2, 2, none, [], none⟩
def xe : Xch := { Xch.fresh 0 with entered := [(1, 0)] }
def gpRed (owner : Bool) : Grp := { gp with device := true, bulk := some { bk with owner := if owner then some (0, 0, 0) else none }, st := 1, seq := 1 }
def stRed (t : Train) (g : Grp) : State :=
  { stOf .running none with
    ctxs := [(0, cxOf { man0 with stage := some sg, reduce := some mr })]
    train := [(0, t)], grps := [(0, g)] }
theorem wit_StepEnd :
    let s := stRed { Train.idle with orWait := true } { gp with device := true }
    (getTrain s 0).orWait = true ∧ (getTrain s 0).xch = none ∧ (getTrain s 0).gather = false ∧ (getTrain s 0).startDue = none
    ∧ redSlot s 0 = some 0 ∧ (getGrp s 0).devWags = [] ∧ redSlot { s with grps := [] } 0 = none ∧ accumSteps s 0 ≤ (getTrain s 0).winSteps + 1
    ∧ (redSlot s 0).isSome = true ∧ (reduceOf s 0).isSome = true
    ∧ (getTrain s 0).winSteps + 1 < accumSteps (setFld s (Reg.GRD_PART 0) Fld.GRD_PART_ACCUM_STEPS 2) 0 := by
  decide +kernel
theorem wit_Vote :
    let s := stRed { Train.idle with orWait := true, xch := some { xe with voted := true }, winSteps := 1 } (gpRed false)
    (getTrain s 0).xch = some { xe with voted := true } ∧ xe.promoted = [] ∧ redSlot s 0 = some 0 ∧ (getGrp s 0).devWags = []
    ∧ (getTrain s 0).fenced = false ∧ (getTrain s 0).ckpt.retry = false
    ∧ (s.hostQ.filter (fun q => !q.isGap)).length < 4095
    ∧ fld (setFld s (Reg.CKP_AREA 0) Fld.CKP_AREA_AREA_COUNT 2) (Reg.CKP_AREA 0) Fld.CKP_AREA_AREA_COUNT ≠ 0 := by
  decide +kernel
def bkGather : Bulk := { bkDone with owner := none }
theorem wit_GatherComplete :
    let s := stRed { Train.idle with gather := true } { gpRed false with bulk := some bkGather }
    redSlot s 0 = some 0 ∧ (getGrp s 0).bulk = some bkGather ∧ (getTrain s 0).gather = true ∧ (getGrp s 0).aborting = none
    ∧ bkGather.owner = none ∧ bkGather.done (grpGeo s (getGrp s 0) bkGather.sig) = true ∧ (getGrp s 0).waiting = []
    ∧ Sparse.get none s.resume 0 = none := by
  decide +kernel
def xeReady : Xch := { xe with ready := [⟨0, [], 0, true⟩] }
theorem wit_ChunkDelivered :
    let s := stRed { Train.idle with xch := some xeReady } { gpRed false with bulk := some { bk with agreed := true } }
    redSlot s 0 = some 0 ∧ reduceOf s 0 = some (0, mr) ∧ (getTrain s 0).xch = some xeReady
    ∧ xeReady.ready.find? (fun v => v.c == 0) = some ⟨0, [], 0, true⟩ ∧ (getCkpt s 0).snap = false
    ∧ xeReady.aborted = false ∧ (getGrp s 0).aborting = none ∧ ({ bk with agreed := true } : Bulk).agreed = true
    ∧ (handlerGroup s 0 mr).1 + 0 % max 1 (handlerGroup s 0 mr).2 = 0 ∧ (Sparse.get [] s.chunkBufs (physCore s 0 0)).length < 4
    ∧ (getCore s 0 0).held = [] ∧ dequeRoom s 0 0 = true ∧ (getRun s 0 0).isSome = true := by
  decide +kernel
/-- A dense part of two zeros that comes from rank 1, its source residue right or not. -/
def gw (res : Nat) : GradWire := ⟨0, .dense, 1, 0, 2, 0, res, 0, false, [0, 0], [], []⟩
def gc (res : Nat) : GradChunk := ⟨bk.sig, 1, true, 0, 0, 0, false, true, none, 0, gw res⟩
theorem wit_GradientArrives :
    let s := stRed { Train.idle with xch := some xe } (gpRed false)
    redSlot s 0 = some 0 ∧ (getGrp s 0).gid = (gc 0).sig.gid ∧ (gc 0).sig.gen = (getGrp s 0).gen ∧ (getGrp s 0).st ≠ 3
    ∧ (getGrp s 0).aborting = none ∧ (getGrp s 0).bulk.map (·.sig) = some (gc 0).sig ∧ (getTrain s 0).xch = some xe
    ∧ xe.aborted = false ∧ (gc 0).backup = false ∧ (gc 0).src ∉ xe.promoted ∧ (gc 0).wire ≠ blankWire (gc 0).wire.round
    ∧ ((gc 0).wire.round, (gc 0).wire.chunk, (gc 0).wire.part) ∉ xe.got ∧ (gradCheck xe (gc 0)).1 = 0 ∧ (gradCheck xe (gc 1)).1 = 1
    ∧ (gradCheck xe { gc 0 with adderFault := some 1 }).1 = 2 ∧ gradWhole 0 (gc 0).wire = 1 ∧ gradWhole 1 (gc 0).wire = 4 := by
  decide +kernel
theorem wit_GradientLate :
    let s := wr (setFld (stRed { Train.idle with xch := some xe } (gpRed false)) (Reg.GRD_DEADLINE 0) Fld.GRD_DEADLINE_BEATS 5) Reg.HUM_BEAT 5
    redSlot s 0 = some 0 ∧ lateBy s 0 1 1 = some 5 ∧ fld s (Reg.GRD_ROLE 0) Fld.GRD_ROLE_BACKUP_ROLE = 0
    ∧ fld s (Reg.GRD_ROLE 0) Fld.GRD_ROLE_RANK = 0 ∧ (getTrain s 0).xch = some xe ∧ ((getGrp s 0).bulk).isSome = true := by
  decide +kernel
def ck1 : Ckpt := { Ckpt.none with snap := true, gen := 1 }
theorem wit_Checkpoint :
    let s := stRed { Train.idle with ckpt := ck1 } (gpRed false)
    let n := (slotBytes s 0 1 0 0).length
    (getCkpt s 0) = ck1 ∧ (getTrain s 0).gather = false ∧ s.poison = [] ∧ ck1.acked ≠ ck1.gen ∧ ck1.bgWard = false
    ∧ firstOut s none [(ownSlot s 0 1, n)] = none
    ∧ firstOut (setFld s Reg.MEM_L2_STATUS Fld.MEM_L2_STATUS_FAILED 1) none [(ownSlot s 0 1, n)] = some (ownSlot s 0 1) := by
  decide +kernel
/-- The buddy of rank 16,383, which keeps its copies in one granule. -/
def stWard : State :=
  setFld (setFld (stRed Train.idle (gpRed false)) (Reg.CKP_AREA 0) Fld.CKP_AREA_WARD_COUNT 1) (Reg.CKP_AREA 0) Fld.CKP_AREA_WARD 16383
theorem wit_WardCopy :
    fld stWard Reg.CKP_DRONE Fld.CKP_DRONE_STATE ≠ 2 ∧ fld stWard (Reg.CKP_AREA 0) Fld.CKP_AREA_WARD_COUNT ≠ 0
    ∧ fld stWard (Reg.CKP_AREA 0) Fld.CKP_AREA_WARD = 16383 ∧ firstOut stWard none [(wardSlot stWard 0 1, slot1.length)] = none
    ∧ (true && slotIntact (storeBytes stWard (wardSlot stWard 0 1) slot1) (wardSlot stWard 0 1) slot1.length) = true
    ∧ firstOut stWard none [(wardSlot stWard 0 1, 0)] = none
    ∧ (false && slotIntact (storeBytes stWard (wardSlot stWard 0 1) []) (wardSlot stWard 0 1) 0) = false
    ∧ firstOut (setFld stWard Reg.MEM_L2_STATUS Fld.MEM_L2_STATUS_FAILED 1) none [(wardSlot stWard 0 1, 1)] = some (wardSlot stWard 0 1) := by
  refine ⟨by decide +kernel, by decide +kernel, by decide +kernel, ?_, ?_, by decide +kernel, rfl, by decide +kernel⟩
  · rw [slot1_len]; decide +kernel
  · rw [store_plain _ _ _ (by decide +kernel), slot1_len, heldIntact]; rfl
/-- A drone that has taken rank 0 and holds an area of its own; its buddy is rank 5. -/
def stTook : State :=
  setFld (setFld (setFld { stRed Train.idle (gpRed false) with ranks := [(0, some 0)] } Reg.CKP_DRONE Fld.CKP_DRONE_STATE 2)
    (Reg.CKP_AREA 0) Fld.CKP_AREA_AREA_COUNT 1) (Reg.CKP_AREA 0) Fld.CKP_AREA_BUDDY 5
theorem wit_OwnCopy :
    ownCopy stTook 0 slot1 = true ∧ buddyOf stTook 0 = 5 ∧ fld stTook (Reg.CKP_AREA 0) Fld.CKP_AREA_AREA_COUNT ≠ 0
    ∧ firstOut stTook none [(ownSlot stTook 0 1, slot1.length)] = none
    ∧ slotIntact (storeBytes stTook (ownSlot stTook 0 1) slot1) (ownSlot stTook 0 1) slot1.length = true := by
  refine ⟨by decide +kernel, by decide +kernel, by decide +kernel, ?_, ?_⟩
  · rw [slot1_len]; decide +kernel
  · rw [store_plain _ _ _ (by decide +kernel), slot1_len, heldIntact]
theorem wit_CheckpointAck :
    let k : Ckpt := { Ckpt.none with gen := 1, own := 1, copyAt := some 0 }
    let s := wr (stRed { Train.idle with ckpt := k } (gpRed false)) Reg.HUM_BEAT 100000000
    let u := setFld (stRed { Train.idle with ckpt := { k with acked := 1, bgBuddy := true, bgWard := true } } (gpRed false))
      (Reg.CKP_AREA 0) Fld.CKP_AREA_WARD 7
    getCkpt s 0 = k ∧ k.own = 1 ∧ k.copyAt = some 0 ∧ k.bgBuddy = false ∧ k.bgWard = false ∧ k.acked ≠ 1 ∧ k.gen = 1
    ∧ (getCkpt u 0).own = 1 ∧ (getCkpt u 0).acked = 1 ∧ (getCkpt u 0).copyAt = some 0
    ∧ (getCkpt u 0).bgBuddy = true ∧ buddyOf u 0 = 0 ∧ (getCkpt u 0).bgWard = true ∧ wardOf u 0 = 7
    ∧ 0 + max 1 (fld s Reg.COL_CTL Fld.COL_CTL_TMO) ≤ beat s := by
  decide +kernel

/-! ### Witnesses: ports, Swarm, clocks, the Hum, power -/

/-- A unit that carries bytes of the middle of a packet, in order at a fresh port; and an idle unit. -/
def body0 : List Byte := [1, 2, 3, 4]
def unitOf (body : List Byte) (trailer : BitVec 64) : LinkUnit := ⟨body, trailer, none, none, none⟩
def lu : LinkUnit := unitOf body0 (mkTrailer body0 0 7 2 0 false false false false)
def idleU (nak : Bool) : LinkUnit := unitOf [] (mkTrailer [] 0 7 0 0 false nak false false)
def upPort (k : Nat) (p : Port) : State := setPortState { State.reset with ports := [(k, p)] } k 2
/-- A unit of a packet in a retry buffer. -/
def tu (lseq : Nat) : TxUnit := ⟨lseq, lseq, true, 0⟩
theorem wit_LinkUnits :
    let s := upPort 15 Port.none
    portState s 15 = 2 ∧ portHeld s 15 = false ∧ s.fabWait = [] ∧ lu.lcrcOk = true ∧ lu.idle = false ∧ lu.nak = false ∧ lu.c0 = false
    ∧ lu.last = false ∧ lu.ident = none ∧ lu.credit = none ∧ (unitOf body0 0).lcrcOk = false ∧ lu.lseq = ((getPort s 15).lastIn + 1) % 4096
    ∧ (getPort s 15).dropping = false ∧ (unitOf body0 (mkTrailer body0 4095 7 2 0 false false false false)).lseq ≠ 0
    ∧ (∀ e, e ∈ (getPort (upPort 15 { Port.none with retry := [tu 6] }) 15).retry → e.lseq ≠ lu.lack % 4096) := by
  decide +kernel
theorem wit_IdleUnits :
    (idleU false).lcrcOk = true ∧ (idleU false).idle = true ∧ (idleU false).nak = false ∧ (idleU false).c0 = false ∧ (idleU true).nak = true
    ∧ (idleU true).lcrcOk = true ∧ (getPort (upPort 15 { Port.none with retry := [tu 6, tu 7, tu 8] }) 15).retry = [tu 6] ++ tu 7 :: [tu 8]
    ∧ (tu 7).lseq = (idleU false).lack % 4096
    ∧ (∀ e, e ∈ (getPort (upPort 15 { Port.none with retry := [tu 8] }) 15).retry → e.lseq ≠ (idleU true).lack % 4096 ∧ e.resends < 16) := by
  decide +kernel
theorem wit_Lanes :
    let s := setFld (upPort 15 Port.none) (Reg.FAB_PCTLk 15) Fld.FAB_PCTLk_SPARE_EN 1
    portState s 15 = 2 ∧ fld s (Reg.FAB_PCTLk 15) Fld.FAB_PCTLk_SPARE_EN = 1 ∧ fld s (Reg.FAB_PSTATk 15) Fld.FAB_PSTATk_SPARE_USED = 0
    ∧ 7 ∉ (getPort s 15).lanesFailed ∧ 8 ∉ (getPort s 15).lanesFailed ∧ (getPort s 15).retry = []
    ∧ fld (setFld s (Reg.FAB_PSTATk 15) Fld.FAB_PSTATk_SPARE_USED 1) (Reg.FAB_PSTATk 15) Fld.FAB_PSTATk_SPARE_USED = 1 := by
  decide +kernel
theorem wit_Lasers :
    let s := setFld (setFld (upPort 15 Port.none) (Reg.FAB_ENG 3) Fld.FAB_ENG_SRC_B 1) (Reg.FAB_ENG 3) Fld.FAB_ENG_SRC_C 3
    fld s (Reg.FAB_ENG 3) Fld.FAB_ENG_SRC_B = 1 ∧ fld s (Reg.FAB_ENG 3) Fld.FAB_ENG_SRC_C = 3
    ∧ (∀ k, k ∈ lasersPorts 3 1 → (getPort s k).retry = [])
    ∧ fld (setFld s (Reg.FAB_ENG 3) Fld.FAB_ENG_SRC_C 1) (Reg.FAB_ENG 3) Fld.FAB_ENG_SRC_C = 1
    ∧ fld (setFld s (Reg.FAB_ENG 3) Fld.FAB_ENG_SRC_C 2) (Reg.FAB_ENG 3) Fld.FAB_ENG_SRC_C ≠ 3 := by
  decide +kernel
def seenAll : TrainResult := ⟨List.replicate 8 (some ⟨5, 3, 0⟩), true, 0, 0, true⟩
theorem wit_Training :
    let s := setPortState State.reset 15 1
    portState s 15 = 1 ∧ portHeld s 15 = false ∧ s.fabWait = [] ∧ mainRemote seenAll.lanes = some (5, 3)
    ∧ (seenAll.lanes.filter (fun v => v.map (fun v => (v.uid, v.port)) == some (5, 3))).length = 8 ∧ ownUid s ≠ 5
    ∧ mainRemote (List.replicate 8 none) = none := by
  decide +kernel
theorem wit_DarkAndLight :
    let s := setFld (setFld (setPortState { State.reset with ports := [(15, { Port.none with wentDown := true })] } 15 0) (Reg.FAB_PCTLk 15) Fld.FAB_PCTLk_EN 1)
      (Reg.FAB_ENG 3) Fld.FAB_ENG_LASER_EN 1
    portEnabled s 15 = true ∧ portState s 15 = 0 ∧ (getPort s 15).wentDown = true := by
  decide +kernel
def tz (esc : Bool) : Transit := ⟨3, none, esc, false, ⟨9, 0, esc, 0, 2, 5, []⟩, none, none, 0, false⟩
def heldPort : Port := { Port.none with held := [(tz false, 1), (tz true, 2)], confirmBy := some 10, credits := [(4, 100), (5, 100)] }
theorem wit_Confirm :
    let s := wr { State.reset with ports := [(0, heldPort)] } Reg.HUM_BEAT 10
    (getPort s 0).confirmBy = some 10 ∧ (getPort s 0).held = (tz false, 1) :: [(tz true, 2)] ∧ 10 ≤ beat s := by
  decide +kernel
theorem wit_EscapeWait :
    let s : State := { upPort 0 heldPort with fabWait := [tz false], routes := [(9, some ⟨1, 0, false, 1⟩)] }
    s.fabWait = [tz false] ∧ (tz false).via = none ∧ (tz false).inPort.getD 0 = 0 ∧ adaptiveVc (tz false).pkt.vc = true
    ∧ routeOf s (tz false).pkt = some ⟨1, 0, false, 1⟩
    ∧ escapePort s ⟨1, 0, false, 1⟩ false = 0 ∧ portTakes s 0 true { (tz false).pkt with esc := true } = true := by
  decide +kernel
theorem wit_Swarm :
    let off : List RootOffer := [⟨0, 5, 1⟩, ⟨16, 0, 0⟩]
    swarmPhase State.reset = 0 ∧ State.reset.keeper.held = false ∧ swarmPhase (setSwarmPhase State.reset 1) = 1
    ∧ (∀ k, k < 16 → portState (setSwarmPhase State.reset 1) k ≠ 1) ∧ swarmPhase (setSwarmPhase State.reset 2) = 2
    ∧ (electRoot (setSwarmPhase (setPortState State.reset 0 2) 2) off).isSome = true
    ∧ electRoot (setFld (setSwarmPhase (setPortState State.reset 0 2) 2) Reg.FAB_CTL Fld.FAB_CTL_ROOT_ELIGIBLE 0) off = some (5, 2, 0)
    ∧ swarmPhase (setSwarmPhase State.reset 3) = 3 ∧ swarmPhase (setSwarmPhase State.reset 4) = 4
    ∧ swarmPhase (setSwarmPhase State.reset 5) = 5 ∧ swarmPhase (setSwarmPhase State.reset 6) = 6
    ∧ ([⟨1, 7⟩] : List SwarmNode).find? (fun n => n.uid == ownUid State.reset) = some ⟨1, 7⟩ := by
  decide +kernel
theorem wit_SwarmNoLate : ∀ p, (getTrain (setSwarmPhase State.reset 5) p).wagSince = none := fun _ => rfl
theorem wit_Clocks :
    clkState (setClk State.reset 24 2) 24 = 2 ∧ clkState (setClk State.reset 24 1) 24 = 1
    ∧ (∀ d, d ∈ stageDomains 1 → clkState (setClk State.reset 17 1) d = 1) := by
  decide +kernel
/-- The host port is UP, its IPv6 address not yet probed. -/
def stLink : State := setFld (setClk State.reset 24 2) Reg.ETH_STATUS Fld.ETH_STATUS_STATE 3
theorem wit_BeatTicks :
    clkState (setClk State.reset 24 2) 24 = 2 ∧ (setClk State.reset 24 2).out.length ≤ (setClk State.reset 24 2).handed
    ∧ ethUp (setClk State.reset 24 2) = false ∧ clkState stLink 24 = 2 ∧ stLink.out.length ≤ stLink.handed ∧ ethUp stLink = true
    ∧ secOn stLink = false ∧ given6 stLink ≠ [] ∧ stLink.eth.probed = [] := by
  decide +kernel

def sendOut (o : Output) : State :=
  { setClk (upPort 0 Port.none) 24 2 with out := [o], ranks := [(1, some 9)], routes := [(9, some ⟨1, 0, false, 1⟩)] }
theorem wit_BeatTicks_send :
    let s := sendOut (.remoteSet 0 1 5)
    clkState s 24 = 2 ∧ s.out.drop s.handed = [.remoteSet 0 1 5] ∧ 1 ≠ ownRank s 0 ∧ s.fabWait = [] ∧ rankAddr s 1 = some 9 ∧ ownAddr s ≠ some 9
    ∧ Sparse.get none s.routes (stampOf s 5 * 16384 + 9) = some ⟨1, 0, false, 1⟩ ∧ portState s 0 = 2
    ∧ portHeld s 0 = false ∧ 17 ≤ creditsOf s 0 5 true ∧ (getPort s 0).retry.length + 17 ≤ 1024 := by decide +kernel

/-- The last packet sent: its port, class, PSN, contents and the number of its units. -/
def lastPacket (s : State) : Option (Nat × Bool × Bool × Packet × Nat) := match s.out.getLast? with
  | some (.packet k esc psn q tr) => some (k, esc, psn, q, tr.length)
  | _ => none

-- R274, R360, R364, R367: a ring message of one slot leaves as one flit of VC5 with HOPS 32, the reset value of MAX_HOPS.
theorem test_ring_message_packet :
    let m : RingMsg := ⟨0, 0, 0, 1, 1, true, 1, List.replicate 32 7⟩
    let s := pushOut (sendOut (.ringMsg 1 0 m))
    lastPacket s = some (0, true, false, ⟨9, 0, false, 0, 5, 32, List.replicate 32 7⟩, 1) ∧ s.handed = 1
    ∧ fld s (Reg.FAB_PTXk 0) Fld.FAB_PTXk_UNITS = 1 ∧ creditsOf s 0 5 true = 127 := by decide +kernel
/-- Sources 1 to 3 of the Hum enabled; source 3 has been clean long enough, source 1 is the current one. -/
def stHum : State :=
  setFld (setFld (setFld (setFld { State.reset with hum := { Hum.none with clean := [(3, 1000000)], healthy := [1, 2] } } Reg.HUM_CTL
    Fld.HUM_CTL_IN_EN 1) Reg.HUM_CTL Fld.HUM_CTL_FAB_EN 1) Reg.HUM_CTL Fld.HUM_CTL_PTP_EN 1) Reg.HUM_STATUS Fld.HUM_STATUS_SOURCE 1
/-- The same, with times of sources 1 and 3 known. -/
def stAhead (src : Nat) (ps : Int) : State :=
  setFld { stHum with hum := { stHum.hum with ahead := [(src, ps)] } } Reg.HUM_STATUS Fld.HUM_STATUS_SOURCE src
theorem wit_HumSources :
    sourceEnabled stHum 3 = true ∧ 3 ∉ stHum.hum.healthy ∧ cleanOf stHum 3 = 1000000 ∧ aheadOf (stAhead 3 5) 3 = some 5 ∧
    aheadOf stHum 3 = none ∧ mayStep (setFld stHum Reg.PLC_STATUS Fld.PLC_STATUS_LOCKED 1) = false ∧ mayStep stHum = true ∧ sourceEnabled stHum 1 = true
    ∧ causeFits stHum 1 6 = true ∧ causeFits stHum 1 3 = true ∧ causeFits stHum 3 9 = true
    ∧ fld (setFld stHum Reg.HUM_CTL Fld.HUM_CTL_AUTO_INVERT 1) Reg.HUM_CTL Fld.HUM_CTL_AUTO_INVERT = 1 := by
  decide +kernel
theorem wit_HumEdges :
    humSource stHum = 1 ∧ stHum.hum.nextPps = none ∧ aheadOf stHum 1 = none
    ∧ ((aheadNs stHum (BitVec.ofNat 64 (nearestPps (beat stHum))) + 5) * 1000 - 0).natAbs ≤ jumpUs (stAhead 1 0) * 1000000
    ∧ aheadOf (stAhead 1 0) 1 = some 0 ∧ aheadOf (stAhead 1 (10 ^ 12)) 1 = some (10 ^ 12)
    ∧ jumpUs (stAhead 1 (10 ^ 12)) * 1000000
        < ((aheadNs stHum (BitVec.ofNat 64 (nearestPps (beat stHum))) + 5) * 1000 - 10 ^ 12).natAbs
    ∧ humSource (stAhead 3 0) = 3 ∧ sourceEnabled (stAhead 3 0) 1 = true ∧ sourceEnabled (stAhead 3 0) 3 = true
    ∧ ((aheadNs (stAhead 3 0) (BitVec.ofNat 64 0) + 5) * 1000 - 0).natAbs ≤ jumpUs (stAhead 3 0) * 1000000
    ∧ (let s : State := { stHum with hum := { stHum.hum with nextPps := some 7 } }
       humSource s = 1 ∧ s.hum.nextPps = some 7 ∧ sourceEnabled s 1 = true ∧ mayStep s = true) := by
  decide +kernel
theorem wit_HumCells :
    let s := setFld (setFld (setPortState stHum 15 2) (Reg.FAB_PSTATk 15) Fld.FAB_PSTATk_TREE 1) Reg.HUM_STATUS Fld.HUM_STATUS_UP_PORT 15
    sourceEnabled s 2 = true ∧ treePort s 15 = true ∧ isMaster s = false ∧ s.hum.master = none ∧ humSource s ≠ 2
    ∧ fld s Reg.HUM_STATUS Fld.HUM_STATUS_UP_PORT = 15 ∧ { stHum.hum with master := some 5 }.master ≠ none := by
  decide +kernel
theorem wit_Droop :
    709 + 40 < setMv State.reset ∧ (getDroop State.reset 3).paused = false
    ∧ (let s : State := { State.reset with pwr := { Pwr.none with droops := [(3, ⟨true, 0, some 0, 1, 700⟩)] } }
       (getDroop s 3).paused = true ∧ (getDroop s 3).start ≠ none ∧ beat s < (getDroop s 3).last + 1000) := by
  decide +kernel
theorem wit_Telemetry :
    State.reset.keeper.held = false ∧ State.reset.keeper.restart = none ∧ sampleDue State.reset = true
    ∧ sampleDue { State.reset with pwr := { Pwr.none with sampled := some 0 } } = false ∧ avsHalted State.reset = false
    ∧ avsHalted (setFld State.reset Reg.PWR_AVS Fld.PWR_AVS_HALTED 1) = true := by
  decide +kernel
theorem wit_Rails : 0 + 1000 ≤ beat (wr State.reset Reg.HUM_BEAT 1000) ∧ State.reset.pins.tripped = false := by decide +kernel

/-! ### Witnesses: serving, Keeper, loss of ranks -/

def mm (head : Bool) : ManModel := ⟨1, 2, none, head, true, 1⟩
/-- Partition 0 serves; its context has the model's tasks. -/
def stServ (head : Bool) (v : Serv) (ss : List (Nat × Option Stream)) : State :=
  setFld (setFld { stOf .running none with
    ctxs := [(0, cxOf { man0 with models := some [mm head] })], serv := [(0, v)], streams := ss } (Reg.PLC_PART 0) Fld.PLC_PART_KIND 1)
    (Reg.BRD_PART 0) Fld.BRD_PART_QUOTA 8
def bRow : BatchRow := ⟨7, 1, 4, false, true, false, 1, 9, 0, 2, 0⟩
def strm : Stream := ⟨3, 0, 1, 0, 0, false, 4, 4, 2, 9, 0, 2, 0, 5, 0, 0, 0, true, false, false, 0, 0, []⟩
theorem wit_WindowOpens : servCtx (stServ true Serv.none []) 0 = some 0 ∧ mayOpen (stServ true Serv.none []) 0 0 = true := by decide +kernel
theorem wit_WindowItems :
    let s := stServ false Serv.none []
    let full := setFld s (Reg.BRD_PART 0) Fld.BRD_PART_QUOTA 0
    servCtx s 0 = some 0 ∧ headOf s 0 bRow.model = false ∧ isHead s 0 = false ∧ (getServ s 0).waiting = [] ∧ (getServ s 0).wins = []
    ∧ getModel s bRow.model = none ∧ getModel { s with models := [(1, some ⟨0, 1, 64, l2Base, false, 2, 0, 0⟩)] } 1
        = some ⟨0, 1, 64, l2Base, false, 2, 0, 0⟩
    ∧ [bRow].length ≤ (servCells s 0).length ∧ (servCells full 0).length < [bRow].length ∧ servCtx full 0 = some 0
    ∧ lastOf s 0 bRow.model = true ∧ lastOf s 0 2 = false := by
  decide +kernel
theorem wit_WindowCloses :
    let w : Win := ⟨0, true, [⟨bRow, 255⟩], 0, true⟩
    let s := stServ true { Serv.none with wins := [w] } [(7, some strm)]
    servCtx s 0 = some 0 ∧ ((getServ s 0).wins.filter (·.own)).head? = some w ∧ w.done = true ∧ outputBack s 0 w [] = true
    ∧ getStream s 7 = some strm ∧ strm.cancelled = false ∧ bRow.emits = true ∧ (outOf s 0 0 bRow.model []).isSome = true
    ∧ lastOf s 0 bRow.model = true ∧ poisoned s (servBase s 0 true) 16 = false := by
  decide +kernel
/-- A last stage elsewhere: the record comes back with the window. -/
theorem wit_RecordsComeBack :
    let w : Win := ⟨0, true, [⟨{ bRow with model := 2 }, 255⟩], 0, true⟩
    let s := stServ true { Serv.none with wins := [w] } [(7, some strm)]
    lastOf s 0 2 = false ∧ outOf s 0 0 2 [⟨0, 11, true⟩] = some ⟨0, 11, true⟩ ∧ outputBack s 0 w [⟨0, 11, true⟩] = true
    ∧ outputBack s 0 w [] = false := by
  decide +kernel
theorem wit_ModelLoads :
    let v : SModel := ⟨0, 1, 64, l2Base, false, 1, 0, 0⟩
    let w : SModel := ⟨0, 1, 64, 0, false, 1, 4096, 0⟩
    let s : State := { State.reset with models := [(255, some v)] }
    let u : State := { stCode (some rn) [] with models := [(255, some w)] }
    getModel s 255 = some v ∧ v.st = 1 ∧ s.keeper.held = false ∧ Memory.wf s.mem = true ∧ regionBusy s v.part v.backing v.bytes = false
    ∧ getModel u 255 = some w ∧ Memory.wf u.mem = true ∧ regionBusy u w.part w.backing w.bytes = true := by
  decide +kernel
theorem wit_DeadlineMiss :
    let s := wr { State.reset with streams := [(7, some strm)] } Reg.HUM_BEAT 6
    getStream s 7 = some strm ∧ strm.deadline ≠ 0 ∧ strm.deadline < beat s ∧ strm.missed = false ∧ strm.st ≠ 6 := by
  decide +kernel
theorem wit_Watchdog :
    (∀ b, ({ State.reset.keeper with expired := some 0 } : Keeper).expired = some b → b + 1000000 < beat (wr State.reset Reg.HUM_BEAT 1000001))
    ∧ beat (wr State.reset Reg.HUM_BEAT 1000000) ≤ 0 + 1000000 := by
  refine ⟨fun b h => ?_, by decide +kernel⟩
  cases h
  decide +kernel
theorem wit_KeeperRestarts :
    let s : State := { State.reset with keeper := ⟨some 5, some (1, 2, 5), false⟩ }
    s.keeper.restart = some (1, 2, 5) ∧ s.takeover = none := by
  decide +kernel
/-- Rank 3 is agreed lost; nothing is chosen yet. -/
def tko : Takeover := ⟨[3], true, [3], none, [], [], [], none, [], []⟩
def stLoss (t : Option Takeover) : State := { stSend with takeover := t }
theorem wit_LossNotice :
    (manOf (stLoss none) 0).isSome = true
    ∧ (∀ e, e ∈ (stLoss none).grps → e.2.bulk = none ∧ e.2.wag = none ∧ e.2.aborting = none ∧ ∀ r, r ∈ [3] → r ∉ e.2.members)
    ∧ 0 ∈ jobCtxs (stLoss none) ∧ (getCtx (stLoss none) 0).part = 0 ∧ 16383 ∉ (getTakeover (stLoss none)).known
    ∧ otherGroups (stLoss none) [16383] = []
    ∧ fld (stLoss none) (Reg.CKP_PART 0) Fld.CKP_PART_AUTO = 0 ∧ (getTakeover (stLoss (some tko))).known ≠ [] := by
  have h : (stLoss none).grps = [] := rfl
  refine ⟨by decide +kernel, fun e he => ?_, by decide +kernel⟩
  rw [h] at he
  cases he
theorem wit_Agreement :
    (stLoss (some tko)).takeover = some tko ∧ tko.agreeing = true ∧ 0 ∈ jobCtxs (stLoss (some tko)) ∧ tko.kstar = none
    ∧ (∀ a b, a ∈ tko.agreed → buddyRank (stLoss (some tko)) a = some b → b ∉ tko.agreed) ∧ (getCtx (stLoss (some tko)) 0).part < 8
    ∧ { tko with kstar := some 1 }.kstar ≠ none ∧ unchosen { tko with kstar := some 1 } = 3 :: [] ∧ 0 < noSay := by
  refine ⟨by decide +kernel, by decide, by decide +kernel, by decide, ?_, by decide +kernel, by decide, by decide, by decide⟩
  intro a b ha hb
  have e : a = 3 := by simpa [tko] using ha
  subst e
  have h : buddyRank (stLoss (some tko)) 3 = none := by decide +kernel
  rw [h] at hb
  cases hb
/-- A drone of index 1, AGREED, asked to take rank 0; or rank 0 while rank 3 waits for a drone too. -/
def tko1 : Takeover := ⟨[0], true, [0], some 1, [(0, 1)], [], [], none, [], []⟩
def tko2 : Takeover := ⟨[0, 3], true, [0, 3], some 1, [(0, 1), (3, 2)], [], [], none, [], []⟩
def stDrone (t : Takeover) : State :=
  let s := setDroneState { stOf .loaded none with
    ctxs := [(0, { Ctx.free with st := .loaded, man := some { man0 with ranks := some (5, [0, 5]), ckpt := some ⟨[], [], [], some 1⟩ } })]
    takeover := some t } 1
  setFld (setFld s Reg.CKP_DRONE Fld.CKP_DRONE_ROLE 1) Reg.CKP_DRONE Fld.CKP_DRONE_INDEX 1
theorem wit_DroneTakes :
    (stDrone tko1).takeover = some tko1 ∧ tko1.chosen.find? (fun c => c.1 == 0) = some (0, 1) ∧ tko1.kstar = some 1 ∧ tko1.agreeing = true
    ∧ 0 ∈ jobCtxs (stDrone tko1) ∧ outcast (stDrone tko1) 0 9 = false ∧ (stDrone tko1).keeper.held = false ∧ tko1.mine = none
    ∧ fld (stDrone tko1) Reg.CKP_DRONE Fld.CKP_DRONE_ROLE = 1 ∧ fld (stDrone tko1) Reg.CKP_DRONE Fld.CKP_DRONE_INDEX = 1
    ∧ droneState (stDrone tko1) = 1 ∧ (droneLoad (stDrone tko1) 0 [] []).1.isNone = true
    ∧ (∀ r, r ∈ tko1.agreed → r = 0) ∧ ¬(∀ r, r ∈ tko2.agreed → r = 0 ∨ ∃ e, e ∈ tko2.loaded ∧ e.1 = r)
    ∧ tko2.chosen.find? (fun c => c.1 == 0) = some (0, 1) := by
  refine ⟨by decide +kernel, by decide, by decide, by decide, by decide +kernel, by decide +kernel, by decide +kernel, by decide,
    by decide +kernel, by decide +kernel, by decide +kernel, by decide +kernel, by simp [tko1], by simp [tko2], by decide⟩
/-- A device that is no drone, told that drone 1 has loaded rank 3. -/
theorem wit_RankTaken :
    let t := { tko with kstar := some 1, chosen := [(3, 1)] }
    let s := stLoss (some t)
    t.chosen.find? (fun c => c.1 == 3) = some (3, 1) ∧ outcast s 3 9 = false ∧ outcast s (ownRank s 0) 9 = true
    ∧ ¬(fld s Reg.CKP_DRONE Fld.CKP_DRONE_ROLE = 1 ∧ droneState s = 1) ∧ 0 ∈ jobTraining s ∧ 0 ∈ jobCtxs s ∧ t.mine = none
    ∧ (∀ r, r ∈ t.agreed → r = 3) ∧ ¬(∀ r, r ∈ [3, 4] → r = 3 ∨ ∃ e, e ∈ t.loaded ∧ e.1 = r) := by
  refine ⟨by decide, by decide +kernel, by decide +kernel, by decide +kernel, by decide +kernel, by decide +kernel, by decide, ?_, ?_⟩
  · simp [tko]
  · simp [tko]
theorem wit_Rollback :
    let t : Takeover := ⟨[], false, [], some 1, [], [], [], none, [], []⟩
    let s := stLoss (some t)
    s.takeover = some t ∧ t.kstar = some 1 ∧ t.agreeing = false ∧ t.agreed = [] ∧ 0 ∈ jobParts s ∧ 0 ∉ t.restored
    ∧ s.keeper.held = false := by
  decide +kernel

/-! ### Witnesses: registers, the log, the host port, sessions -/

theorem wit_RegisterWrites :
    (regDefAt Reg.HUM_CTL).isSome = true ∧ (regDefAt (Reg.CKP_PART 7)).isSome = true ∧ regDefAt 8 ≠ none ∧ regDefAt 0xFFFF0 = none
    ∧ (0xFFFF0 : Nat) % 8 = 0 ∧ windowBase + 0xFFFF0 < windowEnd ∧ (BitVec.allOnes 64).getLsbD 63 = true := by
  refine ⟨by decide +kernel, by decide +kernel, ?_, by decide +kernel, by decide, by decide, by decide⟩
  have h : (regDefAt 8).isSome = true := by decide +kernel
  intro e
  rw [e] at h
  cases h
theorem wit_PlainRegister : plainReg (Reg.CKP_PART 7) := by unfold plainReg; decide +kernel
theorem wit_IdleCounter :
    idleCounter State.reset (Reg.CKP_PART 7) = false
    ∧ idleCounter (setFld State.reset (Reg.CORE_STATUS 71) Fld.CORE_STATUS_STATE 2) (Reg.SAT_COUNT 71) = true := by
  decide +kernel
theorem wit_Selector : (Reg.BRD_CELL_SEL, Fld.BRD_CELL_SEL_CELL, Reg.BRD_CELL 0, (getCell State.reset 255).words) ∈ shownBy State.reset 255 := by
  have h : getF Fld.BRD_CELL_SEL_CELL (255 : Word) = 255 := by decide +kernel
  unfold shownBy
  simp only [h]
  exact List.mem_cons_self ..
def rec1 : ErrRec := ⟨0x0701, 1, none, none, none, 0, 1, 0, 0, 0, 0, 0, 0, 0⟩
theorem wit_RecordArrives :
    ({ State.reset with recs := [rec1] } : State).recs = rec1 :: [] ∧ logFull State.reset = false
    ∧ logFull (wr State.reset Reg.ERR_LOG_WR 4096) = true
    ∧ fld (setFld State.reset Reg.ERR_RATE Fld.ERR_RATE_LIMIT 1) Reg.ERR_RATE Fld.ERR_RATE_LIMIT ≠ 0
    ∧ (1 ≤ loggedInBlock { State.reset with logRate := [(0x0701, 1)] } rec1)
    ∧ loggedInBlock State.reset rec1 = 0 := by
  decide +kernel
/-- The host port UP, in this state of ETH_STATUS. -/
def stEth (n : Nat) : State := setFld State.reset Reg.ETH_STATUS Fld.ETH_STATUS_STATE n
/-- A frame to the address that ETH_MAC has at reset. -/
def frame (b : EthBody) (len : Nat) : EthFrame := ⟨2, 0, len, none, true, false, none, b⟩
theorem wit_HostPort :
    ethUp (stEth 2) = true ∧ ¬(1 = 1 ∧ 0 &&& activeLanes (stEth 2) ≠ 0 ∨ 1 = 2 ∧ 16 < 0) ∧ (1 = 1 ∧ 128 &&& activeLanes (stEth 2) ≠ 0)
    ∧ ¬(1 = 1 ∧ 128 &&& activeLanes (stEth 3) ≠ 0 ∨ 1 = 2 ∧ 16 < 0) ∧ ¬(2 = 1 ∧ 0 &&& activeLanes (stEth 3) ≠ 0 ∨ 2 = 2 ∧ 16 < 16)
    ∧ ethState (stEth 1) = 1 ∧ (stEth 1).eth.mode = 0
    ∧ bootPhase (setFld (stEth 1) Reg.BOOT_STATUS Fld.BOOT_STATUS_PHASE 9) ≠ 1 ∧ ethState (stEth 3) = 3
    ∧ ({ (stEth 1).eth with mode := 2 } : Eth).mode = 1 + 1 := by
  decide +kernel
/-- The IPv4 address 10.0.0.1 is in use. -/
def stIp : State := setFld (setFld (stEth 2) Reg.ETH_CTL Fld.ETH_CTL_IPV4_EN 1) Reg.ETH_IPV4 Fld.ETH_IPV4_ADDR 0x0A000001
theorem wit_Frames :
    secOn stIp = false ∧ frameFits stIp (frame (.echo (ip4 0x0A000001)) 64) = true
    ∧ frameFits stIp (frame (.echo (ip4 0x0A000001)) 63) = false ∧ frameFits stIp (frame (.echo (ip4 0x0A000002)) 64) = false
    ∧ frameFits stIp (frame (.arp (ip4 0x0A000001)) 64) = true ∧ ip4 0x0A000001 ∈ own4 stIp ∧ ip4 0x0A000002 ∉ own4 stIp
    ∧ frameFits stIp (frame (.solicit (linkLocal stIp)) 64) = true ∧ linkLocal stIp ∈ own6 stIp
    ∧ frameFits stIp (frame (.advert (linkLocal stIp)) 64) = true
    ∧ frameFits (setFld stIp Reg.HUM_CTL Fld.HUM_CTL_PTP_EN 1) (frame (.ptp (some (ip4 0xE0000181, 319))) 64) = true
    ∧ secOn (setFld (stEth 2) Reg.ETH_SEC Fld.ETH_SEC_EN 1) = true
    ∧ secAdmits (setFld (stEth 2) Reg.ETH_SEC Fld.ETH_SEC_EN 1) (frame (.ptp none) 64) = false := by
  decide +kernel
-- R441, R444: test case 13 of the specification of GCM (a key and an IV of zeros, no data).
theorem test_gcm_tag : gcmTag (beBytes 32 0) (beBytes 12 0) [] [] = beBytes 16 0x530F8AFBC74536B9A963B4F1C4CB738B := by
  unfold gcmTag; decide +kernel
/-- MACsec in force with a receive key of zeros, and a frame of packet number 5 under it. -/
def stSec : State :=
  setFld (setFld { stEth 2 with eth := { Eth.none with keys := [(1, false, 0)] } } Reg.ETH_SEC Fld.ETH_SEC_EN 1) Reg.HUM_CTL Fld.HUM_CTL_PTP_EN 1
def tag5 (icv : List Byte) : SecTag := ⟨1, 0, 5, 0, [1, 2, 3, 4], icv⟩
def frame5 (icv : List Byte) : EthFrame := { frame (.ptp none) 64 with sec := some (tag5 icv) }
def icv5 : List Byte :=
  gcmTag (beBytes 32 0) (beBytes 8 (ownSci stSec) ++ beBytes 4 5) (secHeader (frame5 []) (tag5 []) ++ [1, 2, 3, 4]) []
theorem wit_SecuredFrame :
    secOn stSec = true ∧ secAdmits stSec (frame5 icv5) = true ∧ frameFits stSec (frame5 icv5) = true
    ∧ (frame5 icv5).sec = some (tag5 icv5) ∧ secAdmits stSec (frame5 []) = false := by
  decide +kernel
def ses : Sess := ⟨5, 6, true, 2, 3, 1, 16, [⟨3, true, 0, 0, 100, .events []⟩], 0⟩
/-- Session `n` open, and firmware running or not. -/
def stSess (n : Nat) (boot : Bool) : State :=
  setFld { stEth 2 with sessions := [(n, some ses)] } Reg.PRP_STATUS Fld.PRP_STATUS_IMAGE_OK (bnat boot)
/-- A message of session 0 with these flags, SEQ and CRC, from the session's address and port. -/
def ylpOf (flags seq crc : Nat) (req : Option HostReq) : YlpMsg := ⟨1, flags, 0, 0, 0, seq, 3, 9, 16, 0, crc, [], 5, 6, req⟩
/-- One with the CRC that it needs. -/
def ylp (flags seq : Nat) (req : Option HostReq) : YlpMsg := ylpOf flags seq (crc32c (ylpHeader (ylpOf flags seq 0 req) 0)) req
theorem wit_Messages :
    let s := stSess 0 true
    ethUp s = true ∧ wellFormed (ylpOf 1 3 0 none) = false ∧ wellFormed (ylp 1 3 none) = true ∧ wellFormed (ylp 2 3 none) = true
    ∧ wellFormed (ylp 5 3 none) = true ∧ wellFormed (ylp 1 2 none) = true ∧ wellFormed (ylp 1 4 none) = true ∧ wellFormed (ylp 8 3 none) = false
    ∧ (ylp 1 3 none).session ≠ noSession ∧ getSess (stEth 2) 0 = none ∧ ackOnly (ylp 2 3 none) = true ∧ ackOnly (ylp 1 3 none) = false
    ∧ isReq (ylp 1 3 none) = true ∧ more (ylp 1 3 none) = false ∧ more (ylp 5 3 none) = true
    ∧ secOn s = false ∧ getSess s 0 = some ses ∧ ses.addr = (ylp 1 3 none).addr ∧ ses.port = (ylp 1 3 none).port
    ∧ (∀ w, w ∈ ses.unacked → w.sent = true) ∧ s.hostQ = [] ∧ (ylp 1 3 none).seq = ses.rx + 1 ∧ sessBusy s 0 = false
    ∧ ses.rx + 1 < (ylp 1 4 none).seq ∧ (ylp 1 2 none).seq ≤ ses.rx
    ∧ ses.unacked.filter (fun w => decide (max ses.ack (min (ylp 1 2 none).ack ses.tx) < w.seq)) = []
    ∧ (ylp 1 3 (some .discover)).req = some .discover := by
  decide +kernel
theorem wit_YalerernFrame :
    frameFits (stSess 0 true) (frame (.udp (linkLocal (stSess 0 true)) (fld (stSess 0 true) Reg.YLP_CTL Fld.YLP_CTL_PORT) (ylp 1 3 none)) 64)
      = true := by
  decide +kernel
theorem wit_OpenAndHello :
    ethUp (stEth 2) = true ∧ secOn (stEth 2) = false ∧ getSess (stEth 2) 0 = none
    ∧ flg (setFld (stEth 2) Reg.YLP_CTL Fld.YLP_CTL_REQUIRE_SEC 1) Reg.YLP_CTL Fld.YLP_CTL_REQUIRE_SEC = true
    ∧ booted (stSess 0 false) = false ∧ (getSess (stSess 0 false) 0).isSome = true
    ∧ bootPhase (setFld (stEth 2) Reg.BOOT_STATUS Fld.BOOT_STATUS_PHASE 2) = 2 ∧ openSessions (stEth 2) = [] ∧ (stEth 2).eth.helloAt = none
    ∧ (let s : State := { stEth 2 with eth := { Eth.none with helloAt := some 0 } }; beat s < 0 + 1000000) := by
  decide +kernel
theorem wit_Asked : Asked (stSess 255 true) 255 ∧ Asked (stSess 255 false) 255 ∧ booted (stSess 255 true) = true := by
  unfold Asked; decide +kernel
theorem wit_Events :
    let s : State := { stSess 0 true with hostQ := [⟨.keyLow 0 0, false, [], []⟩] }
    subscribers s = [0] ∧ dueEvents s 0 ≠ [] ∧ subscribers (stEth 2) = []
    ∧ ses.tx + partsOf s ses (.events ((dueEvents s 0).map (·.ev))) ≤ ses.ack + ses.credit := by
  decide +kernel
theorem wit_Timeouts :
    let s := wr (stSess 0 true) Reg.HUM_BEAT 100
    ses.unacked.find? (fun m => m.seq == 3 && m.sent && decide (m.at_ + m.interval ≤ beat s)) = some ⟨3, true, 0, 0, 100, .events []⟩
    ∧ 0 < max 1 (fld s Reg.YLP_CTL Fld.YLP_CTL_RETRIES) ∧ beat s < ses.heard + max 1 (fld s Reg.YLP_IDLE Fld.YLP_IDLE_BEATS)
    ∧ ses.heard + max 1 (fld (setFld s Reg.YLP_IDLE Fld.YLP_IDLE_BEATS 100) Reg.YLP_IDLE Fld.YLP_IDLE_BEATS) ≤ beat s := by
  decide +kernel

/-! ### Witness: a drone that loads (R429) -/

/-- Where the drone keeps generation 1, and the drone with the slot there. -/
def slotA : Nat := slotAt (fld (stDrone tko1) (Reg.CKP_AREA 0) Fld.CKP_AREA_AREA_FIRST) (fld (stDrone tko1) (Reg.CKP_AREA 0) Fld.CKP_AREA_AREA_COUNT) 1
def stSlot (t : Takeover) : State := writeBytes (setPhase (stDrone t) 0 5) slotA slot1
theorem heldSections (s : State) (a : Nat) : slotSections (writeBytes s a slot1) a 1 = [(⟨1, 0, 0, 4096, 16⟩, base0)] := by
  have e : readBytes (writeBytes s a slot1) (a + 4096) 16 = base0 := by rw [held _ _ _ _ (by omega)]; decide +kernel
  simp [slotSections, heldTable, e]
/-- What the drone's set is judged against, and what the drone is then. -/
def stGone (t : Takeover) : State := leaveDrone (stSlot t)
def stLoaded (t : Takeover) : State := wr (acceptCfg (stGone t) (splitSet 9 0 base0)) Reg.PLC_SEED 0
theorem stored_takeover (l : List (SlotEntry × List Byte)) (s : State) :
    (l.foldl (fun t e => storeBytes t (handleOf t e.1.ctx 0 e.1.handle).base e.2) s).takeover = s.takeover := by
  induction l generalizing s with
  | nil => rfl
  | cons e l ih => rw [List.foldl_cons, ih]; exact combTouch_takeover _ _ _ _ _
theorem droneLoads (t : Takeover) (ht : t = tko1 ∨ t = tko2) :
    ∃ s' q, droneLoad (stDrone t) 0 slot1 [] = (some s', q) ∧ s'.takeover = some t := by
  have ek : (getTakeover (stDrone t)).kstar.getD 0 = 1 := by rcases ht with rfl | rfl <;> decide +kernel
  have ep : leField slot1 34 2 % 8 = 0 := by decide +kernel
  have eA : slotAt (fld (stDrone t) (Reg.CKP_AREA 0) Fld.CKP_AREA_AREA_FIRST) (fld (stDrone t) (Reg.CKP_AREA 0) Fld.CKP_AREA_AREA_COUNT)
      (1 % 2) = slotA := by rcases ht with rfl | rfl <;> decide +kernel
  have eo : firstOut (setPhase (stDrone t) 0 5) none [(slotA, slot1.length)] = none := by
    rw [slot1_len]; rcases ht with rfl | rfl <;> decide +kernel
  have eW : storeBytes (setPhase (stDrone t) 0 5) slotA slot1 = stSlot t :=
    store_plain _ _ _ (by rcases ht with rfl | rfl <;> decide +kernel)
  have eI : slotIntact (stSlot t) slotA slot1.length = true := by rw [slot1_len]; exact heldIntact _ _
  have e1 : slotFld (stSlot t) slotA 0 8 = 1 := by rw [stSlot, heldFld _ _ _ _ (by omega)]; decide +kernel
  have e2 : slotFld (stSlot t) slotA 32 2 = 0 := by rw [stSlot, heldFld _ _ _ _ (by omega)]; decide +kernel
  have e3 : readBytes (stSlot t) (slotA + 40) 48 = digestBytes (stSlot t) Reg.FW_DIGEST := by
    rw [stSlot, held _ _ _ _ (by omega)]; rcases ht with rfl | rfl <;> decide +kernel
  have e4 : slotFld (stSlot t) slotA 136 8 = 0 := by rw [stSlot, heldFld _ _ _ _ (by omega)]; decide +kernel
  have eS : slotSections (stSlot t) slotA 1 = [(⟨1, 0, 0, 4096, 16⟩, base0)] := heldSections _ _
  have eG : leaveDrone (stSlot t) = stGone t := rfl
  have er : (residents (stGone t)).isEmpty = true := by rcases ht with rfl | rfl <;> decide +kernel
  have ec : cfgFault (stGone t) (splitSet 9 0 base0) = none := by rcases ht with rfl | rfl <;> decide +kernel
  have hv : validateCfg (stGone t) (splitSet 9 0 base0) = (acceptCfg (stGone t) (splitSet 9 0 base0), true) := by rw [validateCfg, ec]
  have eL : wr (acceptCfg (stGone t) (splitSet 9 0 base0)) Reg.PLC_SEED (BitVec.ofNat 64 0) = stLoaded t := rfl
  have eT : (stLoaded t).takeover = some t := by rcases ht with rfl | rfl <;> decide +kernel
  obtain ⟨u, hu⟩ : ∃ u, u = stLoaded t := ⟨_, rfl⟩
  rw [← hu] at eL eT
  unfold droneLoad
  simp only [ek, ep, eA, eo, eW, eI, e1, e2, e3, e4, eS, eG, er, hv, eL, List.head?_cons, Option.map_some, Option.getD_some]
  refine ⟨(slotSections u slotA 3).foldl (fun t e => storeBytes t (handleOf t e.1.ctx 0 e.1.handle).base e.2) u, stSlot t, by simp, ?_⟩
  rw [stored_takeover, eT]
theorem wit_DroneLoads :
    (∃ s' q, droneLoad (stDrone tko1) 0 slot1 [] = (some s', q) ∧ s'.takeover = some tko1)
    ∧ ∃ s' q, droneLoad (stDrone tko2) 0 slot1 [] = (some s', q) ∧ s'.takeover = some tko2 := by
  exact ⟨droneLoads tko1 (.inl rfl), droneLoads tko2 (.inr rfl)⟩

/-! ### Witnesses: requests, configuration, contexts -/

theorem wit_Requests :
    requestOf (.regWr 0 9 []) = some (0, 9) ∧ ethUp (stEth 1) = false ∧ getSess (stEth 2) 0 = none ∧ Asked (stSess 0 false) 0
    ∧ booted (stSess 0 false) = false ∧ firmwareOnly (.regWr 0 9 []) := by
  refine ⟨rfl, by decide +kernel, by decide +kernel, by unfold Asked; decide +kernel, by decide +kernel, trivial⟩
theorem wit_Answers :
    getSess (stSess 255 true) 255 = some ses ∧ secOn (stSess 255 true) = false ∧ (255 : Nat) ≠ noSession
    ∧ ses.tx + partsOf (stSess 255 true) ses (.reply 0x20 0 0 [] []) ≤ ses.ack + ses.credit := by
  decide +kernel
/-- R446: 1,409 bytes to an IPv6 address at the reset MTU take two messages, of 1,408 bytes and of 1. -/
theorem test_two_parts :
    (headsOf (stSess 255 true) 255 0 (.reply 0x20 7 0 [] (List.replicate 1409 0)) 9 4).map (fun h => (h.flags, h.seq, h.len))
      = [(4, 8, 1408), (0, 9, 1)] := by
  decide +kernel
/-- 64 register addresses, the last of the window among them. -/
def addr64 : List Nat := List.replicate 63 windowBase ++ [windowEnd - 8]
theorem wit_WindowRequests :
    addr64 ≠ [] ∧ (∀ p, p < 8 → windowBase + Reg.SRV_POOL p ∉ addr64)
    ∧ windowBase ≤ windowBase + Reg.SRV_POOL 7 ∧ windowBase + Reg.SRV_POOL 7 < windowEnd ∧ (windowBase + Reg.SRV_POOL 7) % 8 = 0
    ∧ addr64.length ≤ 64 ∧ (∀ a, a ∈ addr64 → windowBase ≤ a ∧ a < windowEnd ∧ a % 8 = 0) ∧ booted (stSess 0 true) = true
    ∧ ¬(windowBase ≤ windowEnd ∧ windowEnd < windowEnd ∧ windowEnd % 8 = 0)
    ∧ entryStatus ⟨windowBase + Reg.CKP_PART 7, 0, 0⟩ = none ∧ entryStatus ⟨windowEnd, 0, 0⟩ = some 5
    ∧ (firstBad (stSess 0 true) none windowEnd 1).isSome = true ∧ firstBad (stSess 0 true) none 0 (windowLen (stSess 0 true) 0) = none
    ∧ poisoned (bad (stSess 0 true)) 0 1 = true ∧ poisoned (stSess 0 true) 0 1 = false := by
  decide +kernel
theorem wit_Uploads :
    (stSess 0 true).uploads = [] ∧ 33554431 + ([7] : List Byte).length ≤ 33554432
    ∧ (∃ e, e ∈ ([⟨2, 8, []⟩] : List Upload) ∧ e.kind = 2 ∧ e.index = 8) :=
  ⟨rfl, by decide, ⟨_, List.mem_cons_self .., rfl, rfl⟩⟩
/-- A base object without entries is uploaded, and the phase lets it be applied. -/
def stCfg (phase : Nat) (b : List Byte) : State :=
  setFld { stSess 0 true with uploads := [⟨2, 0, [(0, b)]⟩] } Reg.BOOT_STATUS Fld.BOOT_STATUS_PHASE phase
theorem wit_ConfigurationSets :
    Asked (stCfg 7 base0) 0 ∧ booted (stCfg 7 base0) = true ∧ bootPhase (stCfg 7 base0) = 7 ∧ bootPhase (stCfg 8 base0) = 8
    ∧ residents (stCfg 7 base0) = [] ∧ (stCfg 7 base0).keeper.held = false ∧ cfgFault (stCfg 7 base0) (cfgObjects (stCfg 7 base0)) = none
    ∧ cfgFault (stCfg 7 []) (cfgObjects (stCfg 7 [])) = some (3, 0, 0) ∧ bootPhase (stCfg 6 base0) < 7 ∧ bootPhase (stCfg 9 base0) = 9 := by
  unfold Asked; decide +kernel
/-- A manifest without sections, for partition 0. -/
def man32 : List Byte := leBytes 8 0x46494E414D4D4E45 ++ leBytes 2 1 ++ leBytes 2 0 ++ leBytes 2 0 ++ leBytes 2 0 ++ leBytes 8 32 ++ leBytes 8 0
/-- It lies at address 0; partition 0 has two cores of the two that are active, and every clock it needs is LOCKED. -/
def stLoad (cores : Nat) : State :=
  let s := setFld (setFld (stCfg 8 base0) (Reg.PLC_PART 0) Fld.PLC_PART_CORES cores) Reg.PLC_STATUS Fld.PLC_STATUS_ACTIVE_CORES 2
  let s := setFld s (Reg.MEM_HBM_SET 0) (Fld.MEM_HBM_SET_EN 0) 1
  [0, 4, 8, 22, 23, 24].foldl (fun s d => setClk s d 2) { writeBytes s 0 man32 with partCores := [(0, [0, 1])] }
/-- A manifest that declares nothing but a deque region of 64 entries a core. -/
def man64 : Manifest := { man0 with dequeEntries := 64 }
theorem wit_ContextLoads :
    Asked (stLoad 2) 0 ∧ booted (stLoad 2) = true ∧ (getCtx (stLoad 2) 63).st = .free ∧ bootPhase (stLoad 2) = 8
    ∧ firstBad (stLoad 2) none 0 32 = none ∧ poisoned (stLoad 2) 0 32 = false
    ∧ manifestFault (stLoad 2) (readBytes (stLoad 2) 0 32) (dequeFault (readBytes (stLoad 2) 0 32) man64) = none
    ∧ man64.ranks = none ∧ leField (readBytes (stLoad 2) 0 32) 12 2 = 0
    ∧ clocksDown (stLoad 2) 0 = false := by
  unfold Asked; decide +kernel
theorem wit_ContextPlaced :
    (∃ v, judgeLoad (stLoad 2) 63 0 32 man64 = .ok v) ∧ ∃ e, judgeLoad (stLoad 3) 63 0 32 man64 = .error e := by
  have ok : ∀ x : Except Short Placement, (match x with | .ok _ => true | .error _ => false) = true → ∃ v, x = .ok v := by
    intro x h; cases x with
    | ok v => exact ⟨v, rfl⟩
    | error e => cases h
  have er : ∀ x : Except Short Placement, (match x with | .ok _ => true | .error _ => false) = false → ∃ v, x = .error v := by
    intro x h; cases x with
    | ok v => cases h
    | error e => exact ⟨e, rfl⟩
  exact ⟨ok _ (by decide +kernel), er _ (by decide +kernel)⟩
/-- Firmware runs, session 0 is open, and context 0 is in state `c`. -/
def stCtx (c : CtxState) : State :=
  { stSess 0 true with
    partCores := [(0, [0, 1])]
    ctxs := [(0, { cxOf { man0 with launch := [(2, 0)] } with st := c })] }
theorem wit_ContextUnloads :
    Asked (stCtx .faulted) 0 ∧ (getCtx (stCtx .faulted) 0).st = .faulted ∧ (stCtx .faulted).keeper.held = false
    ∧ (getCtx (stCtx .stopped) 0).st = .stopped ∧ 16256 + 128 ≤ 16384 ∧ (getCtx (stCtx .running) 0).st ≠ .free := by
  unfold Asked; decide +kernel
theorem wit_ContextRuns :
    let s := setFld (stCtx .loaded) (Reg.PLC_PART 0) Fld.PLC_PART_KIND 1
    Asked s 0 ∧ (getCtx s 0).st = .loaded ∧ Sparse.get none s.resume 0 = none ∧ training s 0 = false ∧ (homeOf s 0 0).1 < 2
    ∧ (getCore s 0 (homeOf s 0 0).1).held = [] ∧ dequeRoom s 0 (homeOf s 0 0).1 = true := by
  unfold Asked; decide +kernel
theorem wit_ContextSaves :
    (getCtx (stCtx .stopped) 0).st = .stopped ∧ cellsHeld (stCtx .stopped) 0 = [] ∧ collecting (stCtx .stopped) 0 = false := by
  decide +kernel
/-- An image of eight zero bytes, which memory shows at address 0. -/
def sv (m : BitVec 384) (fw : List Byte) : Saved := ⟨List.replicate 8 0, fw, m, false, [], 3, [(5, ⟨true, 0⟩)], [], []⟩
theorem wit_ContextRestores :
    let s : State := { stCtx .loaded with saved := [sv (sha384 []) (List.replicate 48 0)] }
    (getCtx s 0).st = .loaded ∧ firstBad s none 0 8 = none ∧ poisoned s 0 8 = false
    ∧ (sv 0 []).bytes = readBytes s 0 (sv 0 []).bytes.length
    ∧ (sv (sha384 []) (List.replicate 48 0)).firmware = digestBytes s Reg.FW_DIGEST ∧ (getCtx s 0).image = []
    ∧ (sv 0 []).firmware ≠ digestBytes s Reg.FW_DIGEST := by
  decide +kernel
theorem wit_RestoredManifest : (sv (sha384 (getCtx (stCtx .loaded) 0).image) []).manifest = sha384 (getCtx (stCtx .loaded) 0).image := rfl

/-! ### Witnesses: signals, input, serving requests -/

def stName : State :=
  { stSess 0 true with ctxs := [(63, { Ctx.free with st := .running, flagMap := [(65535, mkEntry false 8191 false false)] })] }
theorem wit_Doorbell :
    Asked stName 0 ∧ (getCtx stName 63).st ≠ .free ∧ entryValid (flagEntry stName 63 65535) = true
    ∧ entryBarrier (flagEntry stName 63 65535) = false ∧ entryIndex (flagEntry stName 63 65535) = 8191
    ∧ (getFlag stName 8191).value = false ∧ liveWaits stName (waitsOn 8191 false) = [] ∧ liveWaits stName (waitsOn 8191 true) = []
    ∧ entryValid (flagEntry stName 63 0) = false := by
  unfold Asked; decide +kernel
theorem wit_RingSendByHost :
    let s : State := { stCtx .running with rings := [(32767, rg)] }
    let bs : List Byte := List.replicate 512 0
    Asked s 0 ∧ bs.length % 32 = 0 ∧ bs.length ≤ 512 ∧ judgeMsg s (getRing s 32767) (hostMsg s 32767 0 bs) = 0
    ∧ msgBad s (getRing s 32767) (hostMsg s 32767 0 bs) = some 0
    ∧ judgeMsg (owned s) (getRing s 32767) (hostMsg s 32767 0 bs) = 0 ∧ msgBad (owned s) (getRing s 32767) (hostMsg s 32767 0 bs) = none
    ∧ judgeMsg s (getRing s 0) (hostMsg s 0 0 bs) = 7 := by
  unfold Asked; decide +kernel
theorem wit_Input :
    let s : State := { stSess 0 true with
                       ctxs := [(0, cxOf { man0 with stage := some sg })], train := [(0, { Train.idle with cursor := 4 })] }
    Asked s 0 ∧ stageOf s 0 = some (0, sg) ∧ sg.pos = 0 ∧ sg.vstages = mv1 :: [mv1] ∧ 63 + ([1] : List Byte).length ≤ 64
    ∧ 64 ≤ mv1.inFwd.slotBytes ∧ (getTrain s 0).cursor = 4 ∧ inputRoom s 0 sg mv1 = 2 ∧ (getTrain s 0).inputs = [] := by
  unfold Asked; decide +kernel
def jn : JoinReq := ⟨0, 255, 7, 15, 9, 1, 4, 2, 2, 0, 24, 2, 0, 4⟩
def stJoin : State :=
  setFld (setFld { stSess 0 true with
    ctxs := [(0, cxOf { man0 with models := some [⟨255, 2, none, true, true, 1⟩] })], models := [(255, some ⟨0, 1, 64, l2Base, false, 2, 65536, 0⟩)] }
    (Reg.PLC_PART 0) Fld.PLC_PART_KIND 1) (Reg.SRV_PART 0) Fld.SRV_PART_ENTRIES 2
theorem wit_Joins :
    Asked stJoin 0 ∧ servCtx stJoin jn.part = some 0 ∧ joinRefused stJoin 0 jn = none
    ∧ (entriesOf stJoin jn.part).find? (fun e => (getStream stJoin e).isNone) = some 0
    ∧ joinRefused stJoin 0 { jn with model := 0 } = some 1 := by
  unfold Asked; decide +kernel
theorem wit_Cancels :
    let s : State := { stJoin with streams := [(65535, some strm)] }
    s.streams = [(65535, some strm)] ∧ strm.request = 9 ∧ strm.st ≠ 6 ∧ strm.cancelled = false ∧ strm.request ≠ 10 := by
  decide +kernel
theorem wit_Models :
    getModel stJoin 0 = none ∧ training stJoin 0 = false ∧ l2Base + 64 ≤ l2End ∧ (getModel stJoin 255).isSome = true
    ∧ modelFlying stJoin 0 255 = false ∧ regionBusy stJoin 0 65536 64 = false ∧ streamsOf stJoin 0 = []
    ∧ firstBad (setFld stJoin (Reg.MEM_L2OWN 0) ⟨0, 4⟩ 8) (some 0) l2Base 64 = none := by
  decide +kernel

/-! ### Witnesses: trust, self-test, board, reset -/

theorem wit_BootGo :
    bootPhase (stCfg 3 []) = 3 ∧ Asked (stCfg 3 []) 0
    ∧ recovering (setFld (setFld State.reset Reg.BOOT_STATUS Fld.BOOT_STATUS_PHASE 10) Reg.PRP_STATUS Fld.PRP_STATUS_BOOT_MODE 1) = true
    ∧ recovering State.reset = false := by
  unfold Asked; decide +kernel
/-- Nothing staged: verification fails its first check. -/
theorem wit_ImageFails : verifyImage State.reset [] = [ecdsaRec State.reset [] 1] := by decide +kernel
/-- Any image passes or fails: one of the two clauses applies. -/
theorem wit_ImageVerified (s : State) (b : List Byte) : verifyImage s b = [] ∨ ∃ r rs, verifyImage s b = r :: rs := by
  cases verifyImage s b with
  | nil => exact .inl rfl
  | cons r rs => exact .inr ⟨r, rs, rfl⟩
theorem wit_Revokes :
    Asked (stSess 0 true) 0 ∧ slotsLeft (stSess 0 true) false = [0, 1, 2, 3, 4, 5, 6, 7]
    ∧ slotsLeft { stSess 0 true with prp := { Propolis.none with ecdsaRev := 0x7F } } false = [7]
    ∧ dualSigned { stSess 0 true with prp := { Propolis.none with ecdsaRev := 1 } } [] 0 1 [] [] = false := by
  unfold Asked; decide +kernel
/-- The signatures hold or they do not: one of the two clauses applies. -/
theorem wit_Signed (s : State) (m : List Byte) (e l : Nat) (a b : List Byte) :
    dualSigned s m e l a b = true ∨ dualSigned s m e l a b = false := by
  cases dualSigned s m e l a b <;> simp
theorem wit_Debug :
    let s := setFld (stCfg 3 []) Reg.PRP_STATUS Fld.PRP_STATUS_BOOT_MODE 2
    let t := setFld s Reg.PRP_STATUS Fld.PRP_STATUS_IMAGE_OK 0
    debugOpen t = true ∧ debugOpen s = false ∧ booted (stSess 0 true) = true ∧ Asked t 0 := by
  unfold Asked; decide +kernel
theorem wit_Attest :
    Asked (stSess 0 true) 0 ∧ (List.replicate 48 (0 : Byte)).length = 48 ∧ (some 63).getD 0 < 64 ∧ booted (stSess 0 true) = true
    ∧ (List.replicate 96 (0 : Byte)).length = 96 ∧ (List.replicate 40 (0 : Byte)).length = 40 := by
  unfold Asked; decide +kernel
/-- A wrapped key unwraps or does not: one of the two clauses applies. -/
theorem wit_KeyInstall (k : BitVec 384) (hk w : List Byte) : unwrapSak k hk w = none ∨ ∃ v, unwrapSak k hk w = some v := by
  cases unwrapSak k hk w with
  | none => exact .inl rfl
  | some v => exact .inr ⟨v, rfl⟩
theorem wit_SelfTest :
    bootPhase (setFld State.reset Reg.BOOT_STATUS Fld.BOOT_STATUS_PHASE 5) = 5
    ∧ bootPhase (setFld State.reset Reg.BOOT_STATUS Fld.BOOT_STATUS_PHASE 6) = 6 ∧ (69 : Nat) % 18 < 16
    ∧ (State.reset.hostQ.filter (fun q => !q.isGap)).length < 4095 := by
  decide +kernel
theorem wit_I3c :
    State.reset.pins.i3c = none ∧ ({ State.reset.pins with i3c := some 127 } : Pins).i3c ≠ none
    ∧ (List.replicate 255 (0 : Byte)).length ≤ 255 := by
  decide +kernel
theorem wit_Resets :
    State.reset.pins.resetN = false ∧ State.reset.pins.tripped = false
    ∧ ({ State.reset with pins := { State.reset.pins with resetN := true } } : State).pins.resetN = true := by
  decide +kernel

/-! ### The specification's own examples -/

/-- FP32 to E4M3 by RNE: 0.15625, 300, 464 (the tie to the even mantissa) and 2⁻¹⁰ (the tie to zero). -/
theorem test_cast_e4m3 :
    (castFp fp8e4m3 .rne 0 false false (.fin false 5 (-5))).1 = 0x22
    ∧ (castFp fp8e4m3 .rne 0 false false (.fin false 300 0)).1 = 0x79
    ∧ castFp fp8e4m3 .rne 0 false false (.fin false 464 0) = (0x7E, Exc.zero)
    ∧ (castFp fp8e4m3 .rne 0 false false (.fin false 1 (-10))).1 = 0
    ∧ (castFp fp8e4m3 .rne 0 false false (.fin false 1 (-10))).2.underflow = true := by decide
/-- 500 overflows: the NaN with SAT = 0, 448 and one clamp with SAT = 1. -/
theorem test_cast_overflow :
    (castFp fp8e4m3 .rne 0 false false (.fin false 500 0)).1 = 0x7F
    ∧ (castFp fp8e4m3 .rne 0 true false (.fin false 500 0)).1 = 0x7E
    ∧ (castFp fp8e4m3 .rne 0 true false (.fin false 500 0)).2.sat = 1
    ∧ (castFp fp8e4m3 .rne 0 true false (.fin false 500 0)).2.overflow = true := by decide
/-- Under SR, 300 goes up exactly when u < 0x6000_0000. -/
theorem test_cast_sr :
    (castFp fp8e4m3 .sr 0x5FFFFFFF false false (.fin false 300 0)).1 = 0x7A
    ∧ (castFp fp8e4m3 .sr 0x60000000 false false (.fin false 300 0)).1 = 0x79
    ∧ (castFp fp8e4m3 .rtz 0 false false (.fin false 300 0)).1 = 0x79 := by decide
/-- A subnormal result under FTZ. -/
theorem test_cast_ftz : (castFp fp8e4m3 .rne 0 false true (.fin false 1 (-8))).1 = 0 := by decide
/-- The MXFP4 block with a dominant element: 10.0, and 1.25 and 0.25 in the places of 1.3 and 0.3, which round alike. -/
theorem test_mx_block :
    let b := quantise 0x09 .rne false
      ((.fin false 10 0, 0) :: (.fin false 5 (-2), 0) :: (.fin false 1 (-2), 0) :: (.fin false 1 (-7), 0) :: List.replicate 28 (.fin false 0 0, 0))
    b.scale = 0x80 ∧ b.elems.take 4 = [6, 1, 0, 0] ∧ (Exc.all b.excs).loss = 2 := by decide
/-- The worked encoding of A.MUL. -/
theorem test_word_a_mul :
    decodeCynal 0x220000C4BC0A5160 = some ⟨0, 0, false, 0, .aMul ⟨3, 1, 2, 15, 0, 0, .rne, true, false, true, 10, 11⟩⟩ := by decide +kernel
/-- The log's example (R505): with 10,250 records stored and 10,240 read, a write of 10,250 takes effect and one of 10,251 does
not. -/
theorem test_log_read :
    let s := wr (wr State.reset Reg.ERR_LOG_WR 10250) Reg.ERR_LOG_RD 10240
    rd (writeReg s Reg.ERR_LOG_RD (BitVec.allOnes 64) 10250) Reg.ERR_LOG_RD = 10250
    ∧ rd (writeReg s Reg.ERR_LOG_RD (BitVec.allOnes 64) 10251) Reg.ERR_LOG_RD = 10240 := by decide +kernel

/-- An uncorrectable error in a word that a load reads poisons its unit and counts once (R155, R157). -/
theorem wit_ReadsMeetErrors :
    let m := meet State.reset 0 0 false [⟨5, 128, 8⟩] [] [⟨130, .uncorrectable, 0⟩, ⟨600, .uncorrectable, 0⟩]
    m.poison = [(2, true)] ∧ fld m Reg.MEM_ECC_UNCORR Fld.MEM_ECC_UNCORR_COUNT = 1 ∧ m.recs.map (·.d1) = [5] := by
  decide +kernel

end Sys2Proof.Tests
end

section
/-! SUPPORT. Registers and fields: what an update of one field leaves of a register, and of the rest of the window. -/

namespace Sys2Proof.Machine

@[simp] theorem rd_eth (s : State) (e : Eth) (a : Nat) : rd { s with eth := e } a = rd s a := rfl

@[simp] theorem rd_raiseDev (s : State) (code sev obj d0 d1 d2 d3 a : Nat) : rd (raiseDev s code sev obj d0 d1 d2 d3) a = rd s a := rfl

@[simp] theorem fld_eth (s : State) (e : Eth) (a : Nat) (f : Fld) : fld { s with eth := e } a f = fld s a f := rfl

@[simp] theorem fld_raiseDev (s : State) (code sev obj d0 d1 d2 d3 a : Nat) (f : Fld) :
    fld (raiseDev s code sev obj d0 d1 d2 d3) a f = fld s a f := rfl

theorem satAdd_lt (w a b : Nat) : satAdd w a b < 2 ^ w := by
  have := Nat.two_pow_pos w
  unfold satAdd
  omega

theorem SameRegsBut.trans {s t u : State} {l m n : List Nat} (h : SameRegsBut s t l) (k : SameRegsBut t u m)
    (hl : l ⊆ n) (hm : m ⊆ n) : SameRegsBut s u n :=
  fun a ha => (k a fun c => ha (hm c)).trans (h a fun c => ha (hl c))

theorem sameRegsBut_setFld (s : State) (a : Nat) (f : Fld) (v : Nat) : SameRegsBut s (setFld s a f v) [a] :=
  fun _ hb => rd_setFld_other s f v (List.ne_of_not_mem_cons hb)

theorem sameRegsBut_bump (s : State) (a : Nat) (f : Fld) (n : Nat) : SameRegsBut s (bump s a f n) [a] :=
  sameRegsBut_setFld s a f _

/-- A step that keeps every register but those listed keeps the beat, where HUM_BEAT is not listed. -/
theorem SameRegsBut.beat {s t : State} {l : List Nat} (h : SameRegsBut s t l) (hl : Reg.HUM_BEAT ∉ l) : beat t = beat s :=
  congrArg BitVec.toNat (h _ hl)

theorem SameRegsBut.fld {s t : State} {l : List Nat} (h : SameRegsBut s t l) {a : Nat} (ha : a ∉ l) (f : Fld) :
    fld t a f = fld s a f :=
  congrArg (getF f) (h a ha)

theorem onlyField_setFld (s : State) (a : Nat) (f : Fld) (v : Nat) (hf : f.lo + f.w ≤ 64) (hv : v < 2 ^ f.w) :
    OnlyField s (setFld s a f v) a f v := by
  refine ⟨by rw [fld_setFld_same s a f v hf, Nat.mod_eq_of_lt hv], fun i hi => ?_⟩
  rw [setFld, rd_wr_same, getLsbD_putF f v _ i hf, if_neg (by omega)]

/-- A counter that stops at its largest value counts, and the register's other fields stay. -/
theorem onlyField_bump (s : State) (a : Nat) (f : Fld) (n : Nat) (hf : f.lo + f.w ≤ 64) :
    OnlyField s (bump s a f n) a f (satAdd f.w (fld s a f) n) :=
  onlyField_setFld s a f _ hf (satAdd_lt ..)

/-- `OnlyField` speaks of one register alone, before and after. -/
theorem OnlyField.congr {s s' t t' : State} {a : Nat} {f : Fld} {v : Nat} (h : OnlyField s t a f v) (hs : rd s' a = rd s a)
    (ht : rd t' a = rd t a) : OnlyField s' t' a f v := by
  unfold OnlyField fld at *
  rwa [hs, ht]

/-! ### Sets of bits -/

theorem mem_bitList (n v i : Nat) : i ∈ bitList n v ↔ i < n ∧ v.testBit i = true := by
  simp [bitList, selectBelow]

theorem testBit_ofBits (l : List Nat) (i : Nat) : (ofBits l).testBit i = decide (i ∈ l) := by
  have fold (a : Nat) : (l.foldl (fun a k => a ||| (1 <<< k)) a).testBit i = (a.testBit i || decide (i ∈ l)) := by
    induction l generalizing a with
    | nil => simp
    | cons k l ih =>
      have one : (1 <<< k).testBit i = decide (i = k) := by
        rw [Nat.one_shiftLeft, Nat.testBit_two_pow, decide_eq_decide]
        exact eq_comm
      simp only [List.foldl_cons, ih, Nat.testBit_or, one, List.mem_cons, Bool.decide_or, Bool.or_assoc]
  simpa [ofBits] using fold 0

end Sys2Proof.Machine
end

section
/-! SUPPORT. The host event queue and the boot phase: what an event queued there can change (R286, R458, R512). -/

namespace Sys2Proof.Machine

theorem sameRegsBut_countGap (s : State) (fifo n : Nat) (quiet : Bool) : SameRegsBut s (countGap s fifo n quiet) [Reg.CDC_STAT] := by
  intro b hb
  have counted (w : Word) :
      rd (bump { s with cdcCnt := Sparse.set 0 s.cdcCnt fifo w } Reg.CDC_STAT Fld.CDC_STAT_GAPS 1) b = rd s b :=
    (rd_bump_other _ _ 1 (List.ne_of_not_mem_cons hb)).trans (rd_congr rfl b)
  unfold countGap
  dsimp only
  split
  · exact counted _
  · rw [rd_raiseDev, counted]

/-- An event that reaches the queue changes the queue, or counts a gap there (R286): of the registers only CDC_STAT. -/
theorem sameRegsBut_pushEvent (s : State) (e : HostEv) : SameRegsBut s (pushEvent s e) [Reg.CDC_STAT] := by
  unfold pushEvent dropEvent
  split
  · exact fun b _ => rd_congr rfl b
  · split
    · exact fun b _ => rd_congr rfl b
    · exact fun b hb => (sameRegsBut_countGap _ fifoHost 1 false b hb).trans (rd_congr rfl b)

theorem pushEvent_eth (s : State) (e : HostEv) : (pushEvent s e).eth = s.eth := by
  unfold pushEvent
  split
  · rfl
  · unfold dropEvent
    split <;> rfl

theorem sameRegsBut_setBootPhase (s : State) (v : Nat) : SameRegsBut s (setBootPhase s v) [Reg.BOOT_STATUS, Reg.CDC_STAT] :=
  (sameRegsBut_setFld s _ _ v).trans (sameRegsBut_pushEvent _ _) (by simp) (by simp)

theorem setBootPhase_eth (s : State) (v : Nat) : (setBootPhase s v).eth = s.eth := pushEvent_eth _ _

theorem bootPhase_setBootPhase (s : State) (v : Nat) (hv : v < 2 ^ Fld.BOOT_STATUS_PHASE.w) : bootPhase (setBootPhase s v) = v :=
  ((sameRegsBut_pushEvent _ _).fld (by decide) _).trans (onlyField_setFld s _ _ v (by decide) hv).1

end Sys2Proof.Machine
end

section
/-! SUPPORT. The host port's link (R442, R470, R471): what training, coming up and going down leave. -/

namespace Sys2Proof.Machine

/-- Nothing differs but the link's own record, the registers and the records raised. -/
def OnlyLink (s t : State) : Prop := t = { s with eth := t.eth, regs := t.regs, recs := t.recs, recSeq := t.recSeq }

theorem OnlyLink.trans {s t u : State} (h : OnlyLink s t) (k : OnlyLink t u) : OnlyLink s u := by
  unfold OnlyLink at *
  rw [k, h]

/-! ### Training -/

theorem onlyField_ethTrain (s : State) : OnlyField s (ethTrain s) Reg.ETH_STATUS Fld.ETH_STATUS_STATE 1 :=
  (onlyField_setFld _ _ _ 1 (by decide) (by decide)).congr (rd_eth s _ _).symm rfl

theorem sameRegsBut_ethTrain (s : State) : SameRegsBut s (ethTrain s) [Reg.ETH_STATUS] :=
  fun a ha => (sameRegsBut_setFld _ _ Fld.ETH_STATUS_STATE 1 a ha).trans (rd_eth s _ a)

theorem lanesOk_ethTrain (s : State) :
    fld (ethTrain s) Reg.ETH_STATUS Fld.ETH_STATUS_LANES_OK = fld s Reg.ETH_STATUS Fld.ETH_STATUS_LANES_OK :=
  (fld_setFld_apart _ _ _ _ _ (by decide) (by decide)).trans (fld_eth s _ _ _)

/-! ### Going down -/

/-- The lanes in lock once those reported have lost it. -/
def lanesKept (s : State) (cause lanes : Nat) : Nat :=
  ofBits ((bitList 8 (fld s Reg.ETH_STATUS Fld.ETH_STATUS_LANES_OK)).filter (fun k => !(cause == 1 && lanes.testBit k)))

/-- The record and the count of a port that goes down (R442). -/
def ethLossLogged (s : State) (cause lanes : Nat) : State :=
  bump (raiseDev s 0x0A01 sevError 0 cause (lanes % 256) (beat s - s.eth.upAt) (rd s Reg.ETH_STATUS).toNat)
    Reg.ETH_CNT Fld.ETH_CNT_LINK_DOWNS 1

/-- The same port once its lanes are marked, before it trains. -/
def ethLost (s : State) (cause lanes : Nat) : State :=
  let u := ethLossLogged s cause lanes
  let t := setFld u Reg.ETH_STATUS Fld.ETH_STATUS_LANES_OK (lanesKept u cause lanes)
  { t with eth := { t.eth with failed := lanes % 256 } }

theorem testBit_lanesKept (s : State) (cause lanes k : Nat) (hk : k < 8) :
    (lanesKept s cause lanes).testBit k
      = ((fld s Reg.ETH_STATUS Fld.ETH_STATUS_LANES_OK).testBit k && !(cause == 1 && lanes.testBit k)) := by
  rw [lanesKept, testBit_ofBits, Bool.eq_iff_iff, decide_eq_true_iff, List.mem_filter, mem_bitList, Bool.and_eq_true]
  exact ⟨fun h => ⟨h.1.2, h.2⟩, fun h => ⟨⟨hk, h.1⟩, h.2⟩⟩

theorem onlyField_ethLossLogged (s : State) (cause lanes : Nat) :
    OnlyField s (ethLossLogged s cause lanes) Reg.ETH_CNT Fld.ETH_CNT_LINK_DOWNS
      (satAdd Fld.ETH_CNT_LINK_DOWNS.w (fld s Reg.ETH_CNT Fld.ETH_CNT_LINK_DOWNS) 1) := by
  unfold ethLossLogged
  have counted := onlyField_bump (raiseDev s 0x0A01 sevError 0 cause (lanes % 256) (beat s - s.eth.upAt) (rd s Reg.ETH_STATUS).toNat)
    Reg.ETH_CNT Fld.ETH_CNT_LINK_DOWNS 1 (by decide)
  rw [fld_raiseDev] at counted
  exact counted.congr (rd_raiseDev ..).symm rfl

theorem sameRegsBut_ethLossLogged (s : State) (cause lanes : Nat) : SameRegsBut s (ethLossLogged s cause lanes) [Reg.ETH_CNT] :=
  fun b hb => (sameRegsBut_bump _ _ _ 1 b hb).trans (rd_raiseDev ..)

theorem sameRegsBut_ethLost (s : State) (cause lanes : Nat) :
    SameRegsBut (ethLossLogged s cause lanes) (ethLost s cause lanes) [Reg.ETH_STATUS] := by
  intro b hb
  unfold ethLost
  rw [rd_eth]
  exact sameRegsBut_setFld _ _ _ _ b hb

theorem lanesOk_ethLost (s : State) (cause lanes : Nat) :
    fld (ethLost s cause lanes) Reg.ETH_STATUS Fld.ETH_STATUS_LANES_OK = lanesKept (ethLossLogged s cause lanes) cause lanes % 2 ^ 8 := by
  unfold ethLost
  rw [fld_eth]
  exact fld_setFld_same _ _ _ _ (by decide)

theorem exec_ethLinkDown (s : State) (cause lanes words : Nat) :
    exec (.ethLinkDown cause ⟨lanes, words⟩) s
      = if ethUp s ∧ (cause = 1 ∧ lanes &&& activeLanes s ≠ 0 ∨ cause = 2 ∧ 16 < words) then .next (ethTrain (ethLost s cause lanes))
        else .next s := rfl

theorem ethLinkDown_results (s : State) (cause lanes words : Nat) (up : ethUp s = true)
    (h : cause = 1 ∧ lanes &&& activeLanes s ≠ 0 ∨ cause = 2 ∧ 16 < words) :
    ∃ t r, exec (.ethLinkDown cause ⟨lanes, words⟩) s = .next t ∧ ethState t = 1
      ∧ t.eth = { s.eth with mode := 0, lostAt := beat s, failed := lanes % 256, probed := [], dups := [] } ∧ t.recs = s.recs ++ [r]
      ∧ r.code = 0x0A01 ∧ r.sev = 2 ∧ r.d0 = cause ∧ r.d1 = lanes % 256 ∧ r.d2 = beat s - s.eth.upAt
      ∧ (∀ k, k < 8 → (fld t Reg.ETH_STATUS Fld.ETH_STATUS_LANES_OK).testBit k
          = ((fld s Reg.ETH_STATUS Fld.ETH_STATUS_LANES_OK).testBit k && !(cause == 1 && lanes.testBit k)))
      ∧ OnlyField s t Reg.ETH_CNT Fld.ETH_CNT_LINK_DOWNS
          (satAdd Fld.ETH_CNT_LINK_DOWNS.w (fld s Reg.ETH_CNT Fld.ETH_CNT_LINK_DOWNS) 1)
      ∧ SameRegsBut s t [Reg.ETH_CNT, Reg.ETH_STATUS] ∧ t = { s with eth := t.eth, regs := t.regs, recs := t.recs, recSeq := t.recSeq } := by
  have logged := sameRegsBut_ethLossLogged s cause lanes
  have trained : SameRegsBut (ethLossLogged s cause lanes) (ethTrain (ethLost s cause lanes)) [Reg.ETH_STATUS] :=
    (sameRegsBut_ethLost s cause lanes).trans (sameRegsBut_ethTrain _) (List.Subset.refl _) (List.Subset.refl _)
  refine ⟨ethTrain (ethLost s cause lanes), _, by rw [exec_ethLinkDown, if_pos ⟨up, h⟩], (onlyField_ethTrain _).1, ?_, rfl, rfl, rfl, rfl, rfl,
    rfl, fun k hk => ?_, (onlyField_ethLossLogged s cause lanes).congr rfl (trained _ (by decide)),
    logged.trans trained (by simp) (by simp), rfl⟩
  · have same : beat (ethLost s cause lanes) = beat s :=
      ((sameRegsBut_ethLost s cause lanes).beat (by decide)).trans (logged.beat (by decide))
    rw [← same]
    rfl
  · rw [lanesOk_ethTrain, lanesOk_ethLost, Nat.testBit_mod_two_pow, testBit_lanesKept _ cause lanes k hk, decide_eq_true hk, Bool.true_and,
      logged.fld (by decide)]

/-! ### Coming up -/

/-- A port that has come up, before the boot ROM learns of it. -/
def ethOpened (s : State) (st group lanes : Nat) : State :=
  let r := Reg.ETH_STATUS
  let t := setFld (setFld (setFld s r Fld.ETH_STATUS_STATE st) r Fld.ETH_STATUS_GROUP group) r Fld.ETH_STATUS_LANES_OK lanes
  { t with eth := { t.eth with upAt := beat t } }

theorem fld_ethOpened (s : State) (st group lanes a : Nat) (f : Fld) :
    fld (ethOpened s st group lanes) a f
      = fld (setFld (setFld (setFld s Reg.ETH_STATUS Fld.ETH_STATUS_STATE st) Reg.ETH_STATUS Fld.ETH_STATUS_GROUP group) Reg.ETH_STATUS
          Fld.ETH_STATUS_LANES_OK lanes) a f := fld_eth ..

theorem sameRegsBut_ethOpened (s : State) (st group lanes : Nat) : SameRegsBut s (ethOpened s st group lanes) [Reg.ETH_STATUS] := by
  intro b hb
  unfold ethOpened
  rw [rd_eth, rd_setFld_other _ _ _ (List.ne_of_not_mem_cons hb), rd_setFld_other _ _ _ (List.ne_of_not_mem_cons hb),
    rd_setFld_other _ _ _ (List.ne_of_not_mem_cons hb)]

theorem ethOpened_eth (s : State) (st group lanes : Nat) : (ethOpened s st group lanes).eth = { s.eth with upAt := beat s } := by
  rw [← (sameRegsBut_ethOpened s st group lanes).beat (by decide)]
  rfl

theorem lanesOk_ethOpened (s : State) (st group lanes : Nat) :
    fld (ethOpened s st group lanes) Reg.ETH_STATUS Fld.ETH_STATUS_LANES_OK = lanes % 2 ^ 8 :=
  (fld_ethOpened ..).trans (fld_setFld_same _ _ _ _ (by decide))

theorem group_ethOpened (s : State) (st group lanes : Nat) :
    fld (ethOpened s st group lanes) Reg.ETH_STATUS Fld.ETH_STATUS_GROUP = group % 2 ^ 1 :=
  (fld_ethOpened ..).trans ((fld_setFld_apart _ _ _ _ _ (by decide) (by decide)).trans (fld_setFld_same _ _ _ _ (by decide)))

theorem ethState_ethOpened (s : State) (st group lanes : Nat) : ethState (ethOpened s st group lanes) = st % 2 ^ 2 :=
  (fld_ethOpened ..).trans ((fld_setFld_apart _ _ _ _ _ (by decide) (by decide)).trans
    ((fld_setFld_apart _ _ _ _ _ (by decide) (by decide)).trans (fld_setFld_same _ _ _ _ (by decide))))

theorem onlyLink_ethOpened (s : State) (st group lanes : Nat) : OnlyLink s (ethOpened s st group lanes) := rfl

theorem bootPhase_ethOpened (s : State) (st group lanes : Nat) : bootPhase (ethOpened s st group lanes) = bootPhase s :=
  (sameRegsBut_ethOpened s st group lanes).fld (by decide) _

/-- The boot ROM goes on when the port comes up for the first time (R512). -/
theorem ethComesUp_eq (s : State) (st group lanes : Nat) :
    ethComesUp s st group lanes
      = if bootPhase s = 1 then setBootPhase (ethOpened s st group lanes) 2 else ethOpened s st group lanes := by
  rw [← bootPhase_ethOpened s st group lanes]
  rfl

theorem exec_ethLinkUp (s : State) (train : ethState s = 1) (mode : s.eth.mode = 0) :
    exec .ethLinkUp s = .next (ethComesUp s 2 0 0xFF) :=
  if_pos ⟨train, mode⟩

theorem ethLinkUp_results (s : State) (train : ethState s = 1) (mode : s.eth.mode = 0) :
    ∃ t, exec .ethLinkUp s = .next t ∧ ethState t = 2 ∧ fld t Reg.ETH_STATUS Fld.ETH_STATUS_LANES_OK = 255
      ∧ t.eth = { s.eth with upAt := beat s } ∧ bootPhase t = (if bootPhase s = 1 then 2 else bootPhase s)
      ∧ SameRegsBut s t [Reg.ETH_STATUS, Reg.BOOT_STATUS, Reg.CDC_STAT]
      ∧ (bootPhase s ≠ 1 → t = { s with eth := t.eth, regs := t.regs }) := by
  refine ⟨_, exec_ethLinkUp s train mode, ?_⟩
  have opened := sameRegsBut_ethOpened s 2 0 0xFF
  rw [ethComesUp_eq]
  split
  · have boot := sameRegsBut_setBootPhase (ethOpened s 2 0 0xFF) 2
    exact ⟨(boot.fld (by decide) _).trans (ethState_ethOpened ..), (boot.fld (by decide) _).trans (lanesOk_ethOpened ..),
      (setBootPhase_eth ..).trans (ethOpened_eth ..), bootPhase_setBootPhase _ 2 (by decide), opened.trans boot (by simp) (by simp),
      fun h => absurd ‹_› h⟩
  · exact ⟨ethState_ethOpened .., lanesOk_ethOpened .., ethOpened_eth .., bootPhase_ethOpened ..,
      opened.trans (fun _ _ => rfl) (by simp) (List.nil_subset _), fun _ => rfl⟩

/-! ### The fallback -/

/-- The port falls back to one lane group, before it comes up there: the record, the count, the lanes that failed (R442). -/
def ethFellBack (s : State) (group lanes : Nat) : State :=
  let t := bump (raiseDev s 0x0A02 sevCorrected group (lanes % 256) (beat s - s.eth.lostAt) 0 0) Reg.ETH_CNT Fld.ETH_CNT_FALLBACKS 1
  { t with eth := { t.eth with failed := lanes % 256 } }

theorem onlyField_ethFellBack (s : State) (group lanes : Nat) :
    OnlyField s (ethFellBack s group lanes) Reg.ETH_CNT Fld.ETH_CNT_FALLBACKS
      (satAdd Fld.ETH_CNT_FALLBACKS.w (fld s Reg.ETH_CNT Fld.ETH_CNT_FALLBACKS) 1) := by
  have counted := onlyField_bump (raiseDev s 0x0A02 sevCorrected group (lanes % 256) (beat s - s.eth.lostAt) 0 0) Reg.ETH_CNT
    Fld.ETH_CNT_FALLBACKS 1 (by decide)
  rw [fld_raiseDev] at counted
  exact counted.congr (rd_raiseDev ..).symm (rd_eth ..)

theorem sameRegsBut_ethFellBack (s : State) (group lanes : Nat) : SameRegsBut s (ethFellBack s group lanes) [Reg.ETH_CNT] := by
  intro b hb
  unfold ethFellBack
  rw [rd_eth, rd_bump_other _ _ _ (List.ne_of_not_mem_cons hb), rd_raiseDev]

theorem onlyLink_ethFellBack (s : State) (group lanes : Nat) : OnlyLink s (ethFellBack s group lanes) := rfl

theorem exec_ethFallback400g (s : State) (g lanes : Nat) (train : ethState s = 1) (hg : g < 2) (mode : s.eth.mode = g + 1) :
    exec (.ethFallback400g g lanes) s = .next (ethComesUp (ethFellBack s g lanes) 3 g (0xF <<< (4 * g))) :=
  if_pos ⟨train, hg, mode⟩

/-- The lanes of group `g`: the lower four or the upper four. -/
theorem groupLanes_eq (g : Nat) (hg : g < 2) : 0xF <<< (4 * g) % 2 ^ 8 = 15 * 16 ^ g := by
  obtain rfl | rfl : g = 0 ∨ g = 1 := by omega
  · rfl
  · rfl

theorem ethFallback400g_results (s : State) (g lanes : Nat) (train : ethState s = 1) (hg : g < 2) (mode : s.eth.mode = g + 1)
    (boot : bootPhase s ≠ 1) :
    ∃ t r, exec (.ethFallback400g g lanes) s = .next t ∧ ethState t = 3 ∧ fld t Reg.ETH_STATUS Fld.ETH_STATUS_GROUP = g
      ∧ fld t Reg.ETH_STATUS Fld.ETH_STATUS_LANES_OK = 15 * 16 ^ g ∧ t.recs = s.recs ++ [r] ∧ r.code = 0x0A02 ∧ r.sev = 1
      ∧ r.obj = g ∧ r.d0 = lanes % 256 ∧ r.d1 = beat s - s.eth.lostAt
      ∧ OnlyField s t Reg.ETH_CNT Fld.ETH_CNT_FALLBACKS
          (satAdd Fld.ETH_CNT_FALLBACKS.w (fld s Reg.ETH_CNT Fld.ETH_CNT_FALLBACKS) 1)
      ∧ SameRegsBut s t [Reg.ETH_CNT, Reg.ETH_STATUS] ∧ t = { s with eth := t.eth, regs := t.regs, recs := t.recs, recSeq := t.recSeq } := by
  have fell := sameRegsBut_ethFellBack s g lanes
  have opened := sameRegsBut_ethOpened (ethFellBack s g lanes) 3 g (0xF <<< (4 * g))
  have phase : bootPhase (ethFellBack s g lanes) = bootPhase s := fell.fld (by decide) _
  refine ⟨ethOpened (ethFellBack s g lanes) 3 g (0xF <<< (4 * g)), _, ?_, ethState_ethOpened .., ?_, ?_, rfl, rfl, rfl, rfl, rfl, rfl,
    (onlyField_ethFellBack s g lanes).congr rfl (opened _ (by decide)), fell.trans opened (by simp) (by simp),
    (onlyLink_ethFellBack s g lanes).trans (onlyLink_ethOpened ..)⟩
  · rw [exec_ethFallback400g s g lanes train hg mode, ethComesUp_eq, phase, if_neg boot]
  · rw [group_ethOpened, pow_one, Nat.mod_eq_of_lt hg]
  · rw [lanesOk_ethOpened, groupLanes_eq g hg]

/-! ### A retrain, and MACsec's enable -/

theorem ethCmdRetrain_results (s : State) (fallen : ethState s = 3) :
    ∃ t, exec .ethCmdRetrain s = .next t ∧ OnlyField s t Reg.ETH_STATUS Fld.ETH_STATUS_STATE 1 ∧ SameRegsBut s t [Reg.ETH_STATUS]
      ∧ t.eth = { s.eth with mode := 0, lostAt := beat s, probed := [], dups := [] } ∧ t = { s with eth := t.eth, regs := t.regs } :=
  ⟨ethTrain s, congrArg Host.Outcome.next (if_pos fallen), onlyField_ethTrain s, sameRegsBut_ethTrain s, rfl, rfl⟩

theorem bnat_lt_two (b : Bool) : bnat b < 2 := by
  cases b <;> decide

theorem ethSecEnableWrite_results (s : State) (on : Bool) :
    ∃ t, exec (.ethSecEnableWrite on) s = .next t ∧ OnlyField s t Reg.ETH_SEC Fld.ETH_SEC_EN (bnat on)
      ∧ OnlyField s t Reg.ETH_STATUS Fld.ETH_STATUS_SEC_ACTIVE (bnat on) ∧ SameRegsBut s t [Reg.ETH_SEC, Reg.ETH_STATUS]
      ∧ t = { s with regs := t.regs } := by
  have enabled := onlyField_setFld s Reg.ETH_SEC Fld.ETH_SEC_EN (bnat on) (by decide) (bnat_lt_two on)
  have shown := onlyField_setFld (setFld s Reg.ETH_SEC Fld.ETH_SEC_EN (bnat on)) Reg.ETH_STATUS Fld.ETH_STATUS_SEC_ACTIVE (bnat on)
    (by decide) (bnat_lt_two on)
  exact ⟨secSwitch s on, rfl, enabled.congr rfl (rd_setFld_other _ _ _ (by decide)),
    shown.congr (rd_setFld_other _ _ _ (by decide)).symm rfl,
    (sameRegsBut_setFld s _ _ _).trans (sameRegsBut_setFld _ _ _ _) (by simp) (by simp), rfl⟩

end Sys2Proof.Machine
end

section
/-! Frames from the host (R441, R443, R444): what the port admits and what a frame that it takes comes to; and with these and the
link's results the statement on the host port. -/

namespace Sys2Proof.Machine

/-! ### Admission -/

theorem admitFrame_insecure (s : State) (f : EthFrame) (up : ethUp s = true) (sec : secOn s = true) (bad : secAdmits s f = false) :
    admitFrame s f = (bump s Reg.ETH_SECCNT Fld.ETH_SECCNT_DROPPED 1, false) := by
  simp [admitFrame, up, sec, bad]

theorem admitFrame_unfit (s : State) (f : EthFrame) (up : ethUp s = true) (clear : secOn s = false) (bad : frameFits s f = false) :
    admitFrame s f = (bump s Reg.ETH_CNT Fld.ETH_CNT_DROPPED 1, false) := by
  simp [admitFrame, up, clear, bad]

theorem admitFrame_clear (s : State) (f : EthFrame) (up : ethUp s = true) (clear : secOn s = false) (fits : frameFits s f = true) :
    admitFrame s f = (s, true) := by
  simp [admitFrame, up, clear, fits]

/-- What fits does not depend on the packet numbers received. -/
theorem frameFits_notePn (s : State) (f g : EthFrame) : frameFits (notePn s f) g = frameFits s g := by
  unfold notePn
  split <;> rfl

theorem admitFrame_secured (s : State) (f : EthFrame) (up : ethUp s = true) (sec : secOn s = true) (good : secAdmits s f = true)
    (fits : frameFits s f = true) : admitFrame s f = (notePn s f, true) := by
  simp [admitFrame, up, sec, good, frameFits_notePn, fits]

/-- What MACsec asks of a frame that it admits (R444): version 0, one of two associations, the window, the check value. -/
theorem secAdmits_tag (s : State) (f : EthFrame) (tag : SecTag) (h : secAdmits s f = true) (ht : f.sec = some tag) :
    tag.octet < 128 ∧ tagAn tag < 2 ∧ rxPn s (tagAn tag) < tag.pn + fld s Reg.ETH_SEC Fld.ETH_SEC_REPLAY ∧ secVerifies s f tag = true := by
  simp only [secAdmits, ht, secTagValid, Bool.and_eq_true, decide_eq_true_eq] at h
  obtain ⟨⟨⟨⟨⟨⟨octet, an⟩, _⟩, _⟩, _⟩, verified⟩, window⟩ := h
  exact ⟨octet, an, window, verified⟩

/-! ### Packet numbers received -/

theorem lookup_filter_other {α : Type} (l : List (Nat × α)) {j k : Nat} (h : k ≠ j) :
    (l.filter (fun v => v.1 != j)).lookup k = l.lookup k := by
  induction l with
  | nil => rfl
  | cons e l ih =>
    obtain ⟨i, v⟩ := e
    by_cases hi : i = j
    · have hk : (k == i) = false := by simpa [hi] using h
      simp [hi, List.lookup_cons, hi ▸ hk, ih]
    · simp only [List.filter_cons, bne_iff_ne.2 hi, if_true, List.lookup_cons, ih]

theorem rxPn_notePn_same (s : State) (f : EthFrame) (tag : SecTag) (ht : f.sec = some tag) :
    rxPn (notePn s f) (tagAn tag) = max tag.pn (rxPn s (tagAn tag)) := by
  simp [rxPn, notePn, ht]

theorem rxPn_notePn_other (s : State) (f : EthFrame) (tag : SecTag) (ht : f.sec = some tag) (k : Nat) (hk : k ≠ tagAn tag) :
    rxPn (notePn s f) k = rxPn s k := by
  simp only [rxPn, notePn, ht, List.lookup_cons, beq_false_of_ne hk, lookup_filter_other _ hk]

/-! ### What a frame taken comes to -/

/-- Frames offered to a port that is UP without MACsec leave, and change nothing. -/
theorem frameOut_clear (n : Nat) (s : State) (up : ethUp s = true) (clear : secOn s = false) : frameOut n s = (s, true) := by
  induction n with
  | zero => rfl
  | succ n ih => simp [frameOut, up, clear, ih]

theorem answerFrame_clear (s : State) (echo forUs : Bool) (up : ethUp s = true) (clear : secOn s = false) :
    answerFrame s echo forUs = if forUs = true then { s with out := s.out ++ [.answered echo] } else s := by
  simp [answerFrame, frameOut_clear 1 s up clear, emit]

/-- Whether MACsec protected a message matters to none but one outside sessions. -/
theorem receiveMsg_inSession (s : State) (a b : Option Bool) (m : YlpMsg) (h : m.session ≠ noSession) :
    receiveMsg s a m = receiveMsg s b m := by
  simp [receiveMsg, h]

/-- The state after a frame of this content, taken in state `s`. -/
def frameTaken (s : State) : EthBody → State
  | .udp _ _ m => receiveMsg s (some (secOn s)) m
  | .arp a => answerFrame s false ((own4 s).contains a)
  | .solicit a => answerFrame s false ((own6 s).contains a)
  | .advert a => noteAdvert s a
  | .echo a => answerFrame s true (ownIp s a)
  | .ptp _ | .other => s

theorem exec_ethFrameReceive_dropped {s t : State} {f : EthFrame} (h : admitFrame s f = (t, false)) :
    exec (.ethFrameReceive f) s = .next t := by
  show execEthFrameReceive f s = _
  unfold execEthFrameReceive
  rw [h]
  rfl

theorem exec_ethFrameReceive_taken {s t : State} {f : EthFrame} {b : EthBody} (h : admitFrame s f = (t, true)) (hb : f.body = b) :
    exec (.ethFrameReceive f) s = .next (frameTaken t b) := by
  show execEthFrameReceive f s = _
  unfold execEthFrameReceive
  rw [h, hb]
  cases b <;> rfl

/-- A frame that fits carries what the port takes. -/
theorem bodyFits_of_frameFits {s : State} {f : EthFrame} (h : frameFits s f = true) : bodyFits s f.body = true := by
  unfold frameFits at h
  simp only [Bool.and_eq_true] at h
  obtain ⟨⟨_, body⟩, _⟩ := h
  exact body

theorem bump_results (s : State) (a : Nat) (f : Fld) (hf : f.lo + f.w ≤ 64) :
    OnlyField s (bump s a f 1) a f (satAdd f.w (fld s a f) 1) ∧ SameRegsBut s (bump s a f 1) [a]
      ∧ bump s a f 1 = { s with regs := (bump s a f 1).regs } :=
  ⟨onlyField_bump s a f 1 hf, sameRegsBut_bump s a f 1, rfl⟩

/-- A frame that arrives without MACsec and fits (R441, R443). -/
theorem ethFrameReceive_clear (s : State) (f : EthFrame) (up : ethUp s = true) (clear : secOn s = false) (fits : frameFits s f = true) :
    (∀ d p m, f.body = .udp d p m → p = fld s Reg.YLP_CTL Fld.YLP_CTL_PORT ∧ (ownIp s d = true ∨ d = allNodes)
      ∧ exec (.ethFrameReceive f) s = .next (receiveMsg s (some false) m)
      ∧ (m.session ≠ noSession → exec (.ethFrameReceive f) s = exec (.ylpMessageReceive m) s))
    ∧ (∀ a, f.body = .arp a →
        exec (.ethFrameReceive f) s = .next (if a ∈ own4 s then { s with out := s.out ++ [.answered false] } else s))
    ∧ (∀ a, f.body = .solicit a →
        exec (.ethFrameReceive f) s = .next (if a ∈ own6 s then { s with out := s.out ++ [.answered false] } else s))
    ∧ (∀ a, f.body = .advert a →
        exec (.ethFrameReceive f) s = .next (if a ∈ own6 s then { s with eth := { s.eth with dups := a :: s.eth.dups } } else s))
    ∧ (∀ a, f.body = .echo a →
        ownIp s a = true ∧ exec (.ethFrameReceive f) s = .next { s with out := s.out ++ [.answered true] })
    ∧ (∀ d, f.body = .ptp d → exec (.ethFrameReceive f) s = .next s) := by
  have admitted := admitFrame_clear s f up clear fits
  have fit := bodyFits_of_frameFits fits
  refine ⟨fun d p m hb => ?udp, fun a hb => ?arp, fun a hb => ?solicit, fun a hb => ?advert, fun a hb => ?echo, fun d hb => ?ptp⟩
  all_goals have taken := exec_ethFrameReceive_taken admitted hb
  case udp =>
    simp only [hb, bodyFits, Bool.and_eq_true, beq_iff_eq, Bool.or_eq_true] at fit
    simp only [frameTaken, clear] at taken
    refine ⟨fit.1, fit.2, taken, fun h => ?_⟩
    rw [taken, receiveMsg_inSession s _ none m h]
    exact congrArg Host.Outcome.next (if_pos up).symm
  case arp => simpa [frameTaken, answerFrame_clear s _ _ up clear] using taken
  case solicit => simpa [frameTaken, answerFrame_clear s _ _ up clear] using taken
  case advert => simpa [frameTaken, noteAdvert] using taken
  case echo =>
    have own : ownIp s a = true := by rwa [hb] at fit
    rw [frameTaken, answerFrame_clear s _ _ up clear, if_pos own] at taken
    exact ⟨own, taken⟩
  case ptp => exact taken

/-- A PTP frame under MACsec (R444): what its tag is, and the packet number kept. -/
theorem ethFrameReceive_secured (s : State) (f : EthFrame) (tag : SecTag) (d : Option (Nat × Nat)) (up : ethUp s = true)
    (sec : secOn s = true) (good : secAdmits s f = true) (ht : f.sec = some tag) (fits : frameFits s f = true) (hb : f.body = .ptp d) :
    ∃ t, exec (.ethFrameReceive f) s = .next t ∧ rxPn t (tagAn tag) = max tag.pn (rxPn s (tagAn tag))
      ∧ (∀ k, k ≠ tagAn tag → rxPn t k = rxPn s k) ∧ t.eth = { s.eth with rxPn := t.eth.rxPn } ∧ t = { s with eth := t.eth } := by
  refine ⟨notePn s f, exec_ethFrameReceive_taken (admitFrame_secured s f up sec good fits) hb, rxPn_notePn_same s f tag ht,
    rxPn_notePn_other s f tag ht, ?_, ?_⟩
  all_goals simp only [notePn, ht]

/-- Settles O48: the link's commands clause by clause, then a frame by what MACsec and R441 say of it. -/
theorem hostPort : Obligations.HostPort := by
  unfold Obligations.HostPort
  refine ⟨⟨fun s cause lanes words _ h => ?_, ethLinkDown_results, fun s train => if_pos train, ethLinkUp_results,
    ethFallback400g_results, ethCmdRetrain_results, ethSecEnableWrite_results⟩, fun s f up => ⟨fun sec bad => ?_, fun clear bad => ?_,
    ethFrameReceive_clear s f up, fun tag d sec good ht fits hb => ?_⟩⟩
  · rw [exec_ethLinkDown, if_neg (fun c => h c.2)]
  · exact ⟨_, exec_ethFrameReceive_dropped (admitFrame_insecure s f up sec bad), bump_results s _ _ (by decide)⟩
  · exact ⟨_, exec_ethFrameReceive_dropped (admitFrame_unfit s f up clear bad), bump_results s _ _ (by decide)⟩
  · obtain ⟨octet, an, window, verified⟩ := secAdmits_tag s f tag good ht
    exact ⟨octet, an, window, verified, ethFrameReceive_secured s f tag d up sec good ht fits hb⟩

end Sys2Proof.Machine
end

section
/-! SUPPORT. Numbers packed from fields and read again (R43, R44): slices of a word, codes and their fields. -/

namespace Sys2Proof.Machine

/-! ### Slices of a word -/

/-- The bits `hi..lo` of a number. -/
def slice (hi lo n : Nat) : Nat := n / 2 ^ lo % 2 ^ (hi + 1 - lo)

/-- The `k` low bits of a word, as a number. -/
def low (k : Nat) (w : Word) : Nat := w.toNat % 2 ^ k

theorem slice_mod (hi lo k n : Nat) (h : hi < k) : slice hi lo (n % 2 ^ k) = slice hi lo n := by
  unfold slice
  by_cases hl : lo ≤ hi
  · rw [show k = lo + (k - lo) by omega, pow_add, Nat.mod_mul_right_div_self, Nat.mod_mod_of_dvd _ (Nat.pow_dvd_pow 2 (by omega))]
  · simp [show hi + 1 - lo = 0 by omega, Nat.mod_one]

/-- Bits below `k` depend on the `k` low bits only. -/
theorem bitsOf_of_low {w : Word} {k n : Nat} (hw : low k w = n) (hi lo : Nat) (h : hi < k) : bitsOf hi lo w = slice hi lo n := by
  rw [← hw, low, slice_mod hi lo k _ h, bitsOf, slice, Nat.shiftRight_eq_div_pow]

/-- The low bits of a word are its bits `hi..lo` over the bits below. -/
theorem low_split (w : Word) (hi lo : Nat) (h : lo ≤ hi) : low (hi + 1) w = bitsOf hi lo w * 2 ^ lo + low lo w := by
  have e : hi + 1 = lo + (hi + 1 - lo) := by omega
  rw [low, bitsOf, Nat.shiftRight_eq_div_pow, low, e, pow_add, Nat.mod_mul, Nat.add_sub_cancel_left, Nat.mul_comm, Nat.add_comm]

theorem low_zero (w : Word) : low 0 w = 0 := Nat.mod_one _

theorem low_all (w : Word) : low 64 w = w.toNat := Nat.mod_eq_of_lt w.isLt

theorem bitsOf_lt (hi lo : Nat) (w : Word) : bitsOf hi lo w < 2 ^ (hi + 1 - lo) := Nat.mod_lt _ (Nat.two_pow_pos _)

theorem bitOf_eq (i : Nat) (w : Word) : bitOf i w = decide (bitsOf i i w = 1) := by
  rw [bitOf, BitVec.getLsbD, bitsOf, Nat.testBit_eq_decide_div_mod_eq, Nat.shiftRight_eq_div_pow]
  simp

theorem bnat_bitOf (i : Nat) (w : Word) : bnat (bitOf i w) = bitsOf i i w := by
  have := bitsOf_lt i i w
  rw [bitOf_eq, bnat]
  simp only [show i + 1 - i = 1 by omega] at this
  simp only [decide_eq_true_eq]
  split <;> omega

/-! ### Fields packed into a number -/

/-- Fields in falling order below bit `top`, each within the bits between its own lowest and that of the field before. -/
def Packed : Nat → List (Nat × Nat) → Prop
  | _, [] => True
  | top, (v, l) :: fs => l ≤ top ∧ v < 2 ^ (top - l) ∧ Packed l fs

@[simp] theorem packed_nil (top : Nat) : Packed top [] := trivial

@[simp] theorem packed_cons (top v l : Nat) (fs : List (Nat × Nat)) :
    Packed top ((v, l) :: fs) ↔ l ≤ top ∧ v < 2 ^ (top - l) ∧ Packed l fs := Iff.rfl

@[simp] theorem packFields_nil : packFields [] = 0 := rfl

theorem packFields_cons (v l : Nat) (fs : List (Nat × Nat)) : packFields ((v, l) :: fs) = v * 2 ^ l + packFields fs := by
  simp [packFields]

@[simp] theorem packFields_zero (l : Nat) (fs : List (Nat × Nat)) : packFields ((0, l) :: fs) = packFields fs := by
  simp [packFields]

theorem packFields_lt {top : Nat} {fs : List (Nat × Nat)} (h : Packed top fs) : packFields fs < 2 ^ top := by
  induction fs generalizing top with
  | nil => exact Nat.two_pow_pos top
  | cons f fs ih =>
    obtain ⟨v, l⟩ := f
    obtain ⟨hl, hv, hfs⟩ := h
    have rest := ih hfs
    calc packFields ((v, l) :: fs) = v * 2 ^ l + packFields fs := packFields_cons v l fs
      _ < (v + 1) * 2 ^ l := by rw [Nat.add_mul]; omega
      _ ≤ 2 ^ (top - l) * 2 ^ l := Nat.mul_le_mul_right _ hv
      _ = 2 ^ top := by rw [← pow_add, Nat.sub_add_cancel hl]

/-- The low bits do not see a field above them. -/
theorem packFields_mod (k v l : Nat) (fs : List (Nat × Nat)) (h : k ≤ l) :
    packFields ((v, l) :: fs) % 2 ^ k = packFields fs % 2 ^ k := by
  obtain ⟨d, rfl⟩ := Nat.exists_eq_add_of_le h
  rw [packFields_cons, pow_add, Nat.mul_left_comm, Nat.mul_add_mod]

/-- A field above the bits read is not read. -/
@[simp] theorem slice_skip (hi lo v l : Nat) (fs : List (Nat × Nat)) (h : hi < l) :
    slice hi lo (packFields ((v, l) :: fs)) = slice hi lo (packFields fs) := by
  rw [← slice_mod hi lo l _ h, packFields_mod l v l fs (Nat.le_refl l), slice_mod hi lo l _ h]

/-- The field whose bits are read. -/
@[simp] theorem slice_here (hi lo v : Nat) (fs : List (Nat × Nat)) (h : Packed (hi + 1) ((v, lo) :: fs)) :
    slice hi lo (packFields ((v, lo) :: fs)) = v := by
  obtain ⟨_, hv, hfs⟩ := h
  rw [packFields_cons, slice, Nat.add_comm, Nat.add_mul_div_right _ _ (Nat.two_pow_pos lo),
    Nat.div_eq_of_lt (packFields_lt hfs), Nat.zero_add, Nat.mod_eq_of_lt hv]

/-- All fields lie below the bits read. -/
@[simp] theorem slice_above (hi lo : Nat) (fs : List (Nat × Nat)) (h : Packed lo fs) : slice hi lo (packFields fs) = 0 := by
  rw [slice, Nat.div_eq_of_lt (packFields_lt h), Nat.zero_mod]

@[simp] theorem slice_zero (hi lo : Nat) : slice hi lo 0 = 0 := by simp [slice]

@[simp] theorem ofNat_val {n : Nat} [NeZero n] (g : Fin n) : Fin.ofNat n g.val = g := by
  simp

@[simp] theorem bnat_lt (b : Bool) {n : Nat} (h : 2 ≤ n) : bnat b < n := Nat.lt_of_lt_of_le (bnat_lt_two b) h

@[simp] theorem bnat_le (b : Bool) : bnat b ≤ 1 := Nat.lt_succ_iff.mp (bnat_lt_two b)

@[simp] theorem bnat_false : bnat false = 0 := rfl
@[simp] theorem bnat_true : bnat true = 1 := rfl
@[simp] theorem rndCode_rne : rndCode .rne = 0 := rfl
@[simp] theorem rndOf_zero : rndOf 0 = some .rne := rfl
@[simp] theorem rfCode_sum : rfCode .sum = 0 := rfl

@[simp] theorem bnat_eq_zero (b : Bool) : bnat b = 0 ↔ b = false := by cases b <;> decide

@[simp] theorem rfCode_eq_zero (r : RedFn) : rfCode r = 0 ↔ r = .sum := by cases r <;> decide

theorem bnat_eq_one (b : Bool) : bnat b = 1 ↔ b = true := by
  cases b <;> simp [bnat]

@[simp] theorem decide_bnat_eq_one (b : Bool) : decide (bnat b = 1) = b := by
  cases b <;> rfl

/-! ### Codes -/

@[simp] theorem rndOf_rndCode (r : Rnd) : rndOf (rndCode r) = some r := by cases r <;> rfl
@[simp] theorem aluFnOf_aluFnCode (f : AluFn) : aluFnOf (aluFnCode f) = some f := by cases f <;> rfl
@[simp] theorem cmpCcOf_cmpCcCode (c : CmpCc) : cmpCcOf (cmpCcCode c) = some c := by cases c <;> rfl
@[simp] theorem ctOf_ctCode (c : CType) : ctOf (ctCode c) = some c := by cases c <;> rfl
@[simp] theorem rfOf_rfCode (r : RedFn) : rfOf (rfCode r) = some r := by cases r <;> rfl
@[simp] theorem vOpOf_vOpCode (v : VOp) : vOpOf (vOpCode v) = some v := by cases v <;> rfl

@[simp] theorem rndCode_lt (c : Rnd) {n : Nat} (h : 4 ≤ n) : rndCode c < n :=
  Nat.lt_of_lt_of_le (show rndCode c < 4 by cases c <;> decide) h
@[simp] theorem aluFnCode_lt (c : AluFn) {n : Nat} (h : 16 ≤ n) : aluFnCode c < n :=
  Nat.lt_of_lt_of_le (show aluFnCode c < 16 by cases c <;> decide) h
@[simp] theorem cmpCcCode_lt (c : CmpCc) {n : Nat} (h : 16 ≤ n) : cmpCcCode c < n :=
  Nat.lt_of_lt_of_le (show cmpCcCode c < 16 by cases c <;> decide) h
@[simp] theorem ctCode_lt (c : CType) {n : Nat} (h : 4 ≤ n) : ctCode c < n :=
  Nat.lt_of_lt_of_le (show ctCode c < 4 by cases c <;> decide) h
@[simp] theorem rfCode_lt (c : RedFn) {n : Nat} (h : 4 ≤ n) : rfCode c < n :=
  Nat.lt_of_lt_of_le (show rfCode c < 4 by cases c <;> decide) h
theorem vOpCode_range (v : VOp) : 0x30 ≤ vOpCode v ∧ vOpCode v < 0x50 := by cases v <;> decide

theorem rndCode_of_rndOf {v : Nat} {r : Rnd} (h : rndOf v = some r) : rndCode r = v := by
  unfold rndOf at h; split at h <;> cases h <;> rfl
theorem aluFnCode_of_aluFnOf {v : Nat} {f : AluFn} (h : aluFnOf v = some f) : aluFnCode f = v := by
  unfold aluFnOf at h; split at h <;> cases h <;> rfl
theorem cmpCcCode_of_cmpCcOf {v : Nat} {c : CmpCc} (h : cmpCcOf v = some c) : cmpCcCode c = v := by
  unfold cmpCcOf at h; split at h <;> cases h <;> rfl
theorem ctCode_of_ctOf {v : Nat} {c : CType} (h : ctOf v = some c) : ctCode c = v := by
  unfold ctOf at h; split at h <;> cases h <;> rfl
theorem rfCode_of_rfOf {v : Nat} {r : RedFn} (h : rfOf v = some r) : rfCode r = v := by
  unfold rfOf at h; split at h <;> cases h <;> rfl
theorem vOpCode_of_vOpOf {n : Nat} {v : VOp} (h : vOpOf n = some v) : vOpCode v = n := by
  unfold vOpOf at h; split at h <;> cases h <;> rfl

@[simp] theorem kselOf_val (k : Fin 3) : kselOf k.val = some k := dif_pos k.isLt

theorem val_of_kselOf {v : Nat} {k : Fin 3} (h : kselOf v = some k) : k.val = v := by
  unfold kselOf at h
  split at h
  · cases h; rfl
  · cases h

theorem vUsesB_eq (v : VOp) : vUsesB v = v.usesB := by cases v <;> rfl
theorem vUsesS_eq (v : VOp) : vUsesS v = v.usesS := by cases v <;> rfl
theorem vAllows_eq (v : VOp) (ct : CType) : vAllows v ct = v.allows ct := by cases v <;> cases ct <;> rfl

theorem okIf_eq_some {b : Bool} {i j : CInstr} : okIf b i = some j ↔ b = true ∧ i = j := by
  cases b <;> simp [okIf]

/-! ### Signed numbers -/

theorem toTwos_asSigned_32 (v : Nat) (h : v < 2 ^ 32) : toTwos 32 (asSigned 32 v) = v := by
  unfold toTwos asSigned
  split <;> omega

theorem asSigned_toTwos_32 (z : Int) (h1 : -(2 ^ 31) ≤ z) (h2 : z < 2 ^ 31) : asSigned 32 (toTwos 32 z) = z := by
  unfold toTwos asSigned
  split <;> omega

@[simp] theorem toTwos_32_lt (z : Int) : toTwos 32 z < 4294967296 := by
  unfold toTwos
  omega

theorem ofNat_toTwos_64 (z : Int) : BitVec.ofNat 64 (toTwos 64 z) = BitVec.ofInt 64 z := by
  apply BitVec.eq_of_toNat_eq
  rw [BitVec.toNat_ofNat, BitVec.toNat_ofInt]
  unfold toTwos
  omega

theorem asSigned_26 (v : Nat) : asSigned 26 v = (BitVec.ofNat 26 v).toInt := by
  rw [BitVec.toInt_eq_toNat_cond, BitVec.toNat_ofNat]
  unfold asSigned
  split <;> split <;> omega

/-- The immediate of K.ALUI (R329) is its 26 bits extended by their sign. -/
theorem immediate_26 (v : Nat) : BitVec.ofNat 64 (toTwos 64 (asSigned 26 v)) = (BitVec.ofNat 26 v).signExtend 64 := by
  rw [ofNat_toTwos_64, asSigned_26, BitVec.signExtend]

theorem signExtend_26_low (b : BitVec 26) : (b.signExtend 64).toNat % 2 ^ 26 = b.toNat := by
  have h : (b.signExtend 64).setWidth 26 = b := by
    ext i hi
    rw [BitVec.getElem_setWidth, BitVec.getLsbD_signExtend, ← BitVec.getLsbD_eq_getElem]
    simp [hi, show i < 64 by omega]
  rw [← BitVec.toNat_setWidth, h]

end Sys2Proof.Machine
end

section
/-! SUPPORT. What the encoder packs, each family's decoder reads (R44, R165, R171, R178, R182, R191, R329, R338, R343, R346, R351). -/

namespace Sys2Proof.Machine

theorem immediate_26_wf (imm : Word) (h : imm = (imm.setWidth 26).signExtend 64) :
    BitVec.ofNat 64 (toTwos 64 (asSigned 26 (imm.toNat % 67108864))) = imm := by
  rw [show 67108864 = 2 ^ 26 from rfl, immediate_26, ← BitVec.toNat_setWidth, BitVec.ofNat_toNat, BitVec.setWidth_eq, ← h]

/-- The words of K instructions decode (R329, R330, R334 to R337). -/
theorem decodeK_fields (i : CInstr) (w : Word) (hw : low 42 w = packFields (instrFields i).2) (ok : i.wf = true)
    (op : (instrFields i).1 < 0x20) : decodeK (instrFields i).1 w = some i := by
  have read := bitsOf_of_low hw
  cases i
  case' v o _ => exact absurd op (by have := vOpCode_range o; simp only [instrFields]; omega)
  all_goals simp only [instrFields, Nat.reduceLT] at op
  all_goals
    simp only [instrFields, CInstr.wf, Bool.and_eq_true, Bool.or_eq_true, Bool.not_eq_true', decide_eq_true_eq] at read ok
  case' kAlui imm =>
    have value := immediate_26_wf imm (beq_iff_eq.mp ok)
    have fits : imm.toNat % 67108864 < 67108864 := Nat.mod_lt _ (by decide)
  case' kBr ofs => have value := asSigned_toTwos_32 ofs ok.1 ok.2
  case' kMovi _ hi imm =>
    have fits : imm.toNat < 4294967296 := imm.isLt
    have below : imm.toNat < 34359738368 := Nat.lt_trans fits (by decide)
  case' kId sel => have fits : sel < 16 := by omega
  case' kTd n _ _ => have fits : n < 16 := by omega
  case' kTrd n => have fits : n < 16 := by omega
  all_goals simp [instrFields, decodeK, okIf, gAt, tAt, zAt, bitOf_eq, *]

/-- The words of moves decode (R190, R191). -/
theorem decodeM_fields (i : CInstr) (w : Word) (hw : low 42 w = packFields (instrFields i).2) (ok : i.wf = true)
    (op : 0x50 ≤ (instrFields i).1 ∧ (instrFields i).1 < 0x58) : decodeM (instrFields i).1 w = some i := by
  have read := bitsOf_of_low hw
  cases i
  case' v o _ => exact absurd op (by have := vOpCode_range o; simp only [instrFields]; omega)
  all_goals simp only [instrFields, Nat.reduceLT, Nat.reduceLeDiff, and_false, false_and] at op
  case' mCpy o | mGth o | mSct o | mTrn o | mFil o => obtain ⟨td, ts, ti, q, strm, acc, gf⟩ := o
  all_goals
    simp only [instrFields, mFields, CInstr.wf, Bool.and_eq_true, Bool.not_eq_true', beq_iff_eq] at read ok
    simp [instrFields, decodeM, okIf, mOps, gAt, tAt, zAt, Fin.val_lt_of_le, bitOf_eq, read, ok]

theorem decodeS_fields (i : CInstr) (w : Word) (hw : low 42 w = packFields (instrFields i).2) (ok : i.wf = true)
    (op : 0x58 ≤ (instrFields i).1 ∧ (instrFields i).1 < 0x60) : decodeS (instrFields i).1 w = some i := by
  have read := bitsOf_of_low hw
  cases i
  case' v o _ => exact absurd op (by have := vOpCode_range o; simp only [instrFields]; omega)
  all_goals simp only [instrFields, Nat.reduceLT, Nat.reduceLeDiff, and_false, false_and] at op
  case' sSet remote _ _ => cases remote
  case' sWait consume soft _ _ => cases soft
  case' sBwait soft _ _ _ => cases soft
  case' sBar split soft _ _ _ => cases split <;> cases soft
  all_goals
    simp only [CInstr.wf, okName, Bool.and_eq_true, Bool.or_eq_true, Bool.not_eq_true', decide_eq_true_eq, beq_iff_eq,
      Bool.false_eq_true, Bool.true_eq_false, false_or, false_and, and_false] at ok
  all_goals
    simp only [instrFields] at read
    simp [instrFields, decodeS, okIf, gAt, zAt, Fin.val_lt_of_le, bitOf_eq, read, ok]

theorem decodeQ_fields (i : CInstr) (w : Word) (hw : low 42 w = packFields (instrFields i).2) (ok : i.wf = true)
    (op : 0x60 ≤ (instrFields i).1 ∧ (instrFields i).1 < 0x68) : decodeQ (instrFields i).1 w = some i := by
  have read := bitsOf_of_low hw
  cases i
  case' v o _ => exact absurd op (by have := vOpCode_range o; simp only [instrFields]; omega)
  all_goals simp only [instrFields, Nat.reduceLT, Nat.reduceLeDiff, and_false, false_and] at op
  all_goals
    simp only [instrFields, CInstr.wf, decide_eq_true_eq] at read ok
    simp [instrFields, decodeQ, okIf, gAt, tAt, zAt, read, ok]

theorem wredOk_of_wf {ga gd : GReg} {cnt red type : Nat} {gg gt gs : GReg}
    (h : (CInstr.cWred ga gd cnt red type gg gt gs).wf = true) : wredOk type red = true := by
  simp only [CInstr.wf, Bool.and_eq_true] at h
  simp only [wredOk, Bool.and_comm (type == 0x00 || type == 0x10), Bool.and_comm (type == 0x0F || type == 0x1F)]
  exact h.2

theorem wred_ranges {red type : Nat} (h : wredOk type red = true) : red < 8 ∧ type < 32 := by
  simp [wredOk] at h
  omega

theorem decodeC_fields (i : CInstr) (w : Word) (hw : low 42 w = packFields (instrFields i).2) (ok : i.wf = true)
    (op : 0x68 ≤ (instrFields i).1 ∧ (instrFields i).1 < 0x70) : decodeC (instrFields i).1 w = some i := by
  have read := bitsOf_of_low hw
  cases i
  case' v o _ => exact absurd op (by have := vOpCode_range o; simp only [instrFields]; omega)
  all_goals simp only [instrFields, Nat.reduceLT, Nat.reduceLeDiff, and_false, false_and] at op
  case' cWred type _ _ _ =>
    have types := wredOk_of_wf ok
    have ranges := wred_ranges types
  all_goals
    simp only [instrFields, CInstr.wf, Bool.and_eq_true, Bool.or_eq_true, decide_eq_true_eq, beq_iff_eq] at read ok
    simp [instrFields, decodeC, okIf, gAt, tAt, zAt, *]

theorem decodeB_fields (i : CInstr) (w : Word) (hw : low 42 w = packFields (instrFields i).2) (ok : i.wf = true)
    (op : 0x70 ≤ (instrFields i).1) : decodeB (instrFields i).1 w = some i := by
  have read := bitsOf_of_low hw
  cases i
  case' v o _ => exact absurd op (by have := vOpCode_range o; simp only [instrFields]; omega)
  all_goals simp only [instrFields, Nat.reduceLeDiff] at op
  all_goals
    simp only [instrFields, CInstr.wf, decide_eq_true_eq, Nat.reducePow] at read ok
    simp [instrFields, decodeB, okIf, gAt, zAt, read, ok]

/-- A.LDW and A.SWP (R171, R173, R175). -/
theorem decodeA_weights (i : CInstr) (w : Word) (hw : low 42 w = packFields (instrFields i).2) (ok : i.wf = true)
    (op : 0x20 ≤ (instrFields i).1 ∧ (instrFields i).1 < 0x22) : decodeA (instrFields i).1 w = some i := by
  have read := bitsOf_of_low hw
  cases i
  case' v o _ => exact absurd op (by have := vOpCode_range o; simp only [instrFields]; omega)
  all_goals simp only [instrFields, Nat.reduceLT, Nat.reduceLeDiff, and_false, false_and] at op
  case' aLdw o | aSwp o => obtain ⟨td, ta, tw, mask, nsel, ksel, rnd, sat, defer, strm, gc, gt⟩ := o
  all_goals
    simp only [CInstr.wf, AOps.wfLdw, AOps.wfSwp, Bool.and_eq_true, Bool.not_eq_true', beq_iff_eq] at ok
    simp only [instrFields, aFields] at read
    simp [instrFields, decodeA, okIf, aOps, gAt, tAt, zAt, bitOf_eq, Fin.val_lt_of_le, *]

theorem decodeA_product (op : Nat) (c : AOps → CInstr) (o : AOps) (w : Word) (hw : low 42 w = packFields (aFields o)) (ok : o.wfMul = true)
    (code : op = 0x22 ∧ c = .aMul ∨ op = 0x23 ∧ c = .aMult) : decodeA op w = some (c o) := by
  have read := bitsOf_of_low hw
  have decoded : decodeA op w = (kselOf (bitsOf 23 22 w)).bind fun k => (rndOf (bitsOf 21 20 w)).bind fun r =>
        okIf (zAt 4 0 w && (bitOf 17 w || zAt 33 30 w) && (!(bitOf 18 w) || (zAt 41 38 w && zAt 21 19 w && zAt 10 5 w))) (c (aOps w r k)) := by
    obtain ⟨rfl, rfl⟩ | ⟨rfl, rfl⟩ := code <;> rfl
  obtain ⟨td, ta, tw, mask, nsel, ksel, rnd, sat, defer, strm, gc, gt⟩ := o
  simp only [aFields] at read
  have operands : aOps w rnd ksel = ⟨td, ta, tw, mask, nsel, ksel, rnd, sat, defer, strm, gc, gt⟩ := by
    simp [aOps, gAt, tAt, bitOf_eq, Fin.val_lt_of_le, read]
  have k : bitsOf 23 22 w = ksel.val := by simp [Fin.val_lt_of_le, read]
  have r : bitsOf 21 20 w = rndCode rnd := by simp [read]
  have hasStrm : bitOf 17 w = strm := by simp [bitOf_eq, read]
  have hasDefer : bitOf 18 w = defer := by simp [bitOf_eq, read]
  have reserved : zAt 4 0 w = true := by simp [zAt, read]
  have noTw : tw = 0 → zAt 33 30 w = true := by
    rintro rfl
    simp [zAt, Fin.val_lt_of_le, read]
  have noDest : td = 0 → zAt 41 38 w = true := by
    rintro rfl
    simp [zAt, Fin.val_lt_of_le, read]
  have noRound : rnd = .rne → sat = false → zAt 21 19 w = true := by
    rintro rfl rfl
    simp [zAt, read]
  have noGt : gt = 0 → zAt 10 5 w = true := by
    rintro rfl
    simp [zAt, read]
  simp only [AOps.wfMul, Bool.and_eq_true, Bool.or_eq_true, Bool.not_eq_true', beq_iff_eq] at ok
  obtain ⟨weights, deferred⟩ := ok
  rw [decoded, k, r, kselOf_val, rndOf_rndCode, Option.bind_some, Option.bind_some, operands, okIf, if_pos]
  simp only [hasStrm, hasDefer, reserved, Bool.and_eq_true, Bool.or_eq_true, Bool.not_eq_true', true_and]
  exact ⟨weights.imp_right noTw, deferred.imp_right fun ⟨⟨⟨hd, hr⟩, hs⟩, hg⟩ => ⟨⟨noDest hd, noRound hr hs⟩, noGt hg⟩⟩

theorem decodeA_drain (o : DrnOps) (w : Word) (hw : low 42 w = packFields (instrFields (.aDrn o)).2) (ok : o.wf = true) :
    decodeA 0x24 w = some (.aDrn o) := by
  have read := bitsOf_of_low hw
  obtain ⟨mask, td0, td1, en1, rnd0, rnd1, sat0, sat1, gt⟩ := o
  simp only [instrFields] at read
  simp [DrnOps.wf] at ok
  cases en1
  all_goals
    simp at ok
    simp [decodeA, okIf, gAt, tAt, zAt, bitOf_eq, *]

theorem decodeV_operands (v : VOp) (o : VOps) (w : Word) (hw : low 42 w = packFields (vFields o)) (ok : VOps.wf v o = true) :
    decodeV (vOpCode v) w = some (.v v o) := by
  have read := bitsOf_of_low hw
  obtain ⟨td, ta, tb, tc, rnd, sat, ct, gselA, gselB, bcb, rf, gs, gt⟩ := o
  simp only [vFields] at read
  simp [decodeV, vUsesB_eq, vUsesS_eq, vAllows_eq, gAt, tAt, zAt, bitOf_eq, read, okIf]
  simpa [VOps.wf, and_assoc, or_iff_not_imp_left] using ok

end Sys2Proof.Machine
end

section
/-! SUPPORT. The header, the dispatch by opcode, and the round trip (R43, R44). -/

namespace Sys2Proof.Machine

/-- The opcode of an instruction takes eight bits (R43). -/
theorem opcode_lt (i : CInstr) : (instrFields i).1 < 0x74 := by
  cases i
  case v v o => exact Nat.lt_trans (vOpCode_range v).2 (by decide)
  all_goals simp [instrFields]

/-- The operand fields of an instruction lie below its header (R43). -/
theorem packed_operands (i : CInstr) (ok : i.wf = true) : Packed 42 (instrFields i).2 := by
  cases i
  case cWred =>
    have ranges := wred_ranges (wredOk_of_wf ok)
    simp only [CInstr.wf, Bool.and_eq_true, decide_eq_true_eq] at ok
    simp [instrFields, ok, ranges]
  all_goals
    simp only [CInstr.wf, okName, Bool.and_eq_true, decide_eq_true_eq] at ok
  case kAlui imm =>
    have fits : imm.toNat % 67108864 < 67108864 := Nat.mod_lt _ (by decide)
    simp [instrFields, fits]
  case kMovi imm =>
    have fits : imm.toNat < 34359738368 := Nat.lt_trans imm.isLt (by decide)
    simp [instrFields, fits]
  case kBr ofs =>
    have fits : toTwos 32 ofs < 4398046511104 := Nat.lt_trans (toTwos_32_lt ofs) (by decide)
    simp [instrFields, fits]
  case kId | kTd | kTrd =>
    simp [instrFields]
    omega
  case sSet | sClr | sWait | sBar | sBwait | qSend | bAt =>
    simp [instrFields]
    omega
  all_goals simp [instrFields, aFields, vFields, mFields, Fin.val_lt_of_le]

/-- The fields of a word with its header (R43). -/
def wordFields (c : CWord) : List (Nat × Nat) :=
  [((instrFields c.instr).1, 56), (c.wait, 51), (c.post, 46), (bnat c.pneg, 45), (c.pred.val, 42)] ++ (instrFields c.instr).2

theorem packed_wordFields (c : CWord) (ok : c.wf = true) : Packed 64 (wordFields c) := by
  simp only [CWord.wf, Bool.and_eq_true, decide_eq_true_eq] at ok
  obtain ⟨⟨wait, post⟩, operands⟩ := ok
  have opcode : (instrFields c.instr).1 < 256 := Nat.lt_trans (opcode_lt c.instr) (by decide)
  simp [wordFields, opcode, packed_operands, wait, post, operands]

theorem low_encodeCynal (c : CWord) (ok : c.wf = true) : low 64 (encodeCynal c) = packFields (wordFields c) := by
  have fits := packFields_lt (packed_wordFields c ok)
  rw [low_all, encodeCynal, BitVec.toNat_ofNat]
  exact Nat.mod_eq_of_lt fits

theorem low_operands_encodeCynal (c : CWord) (ok : c.wf = true) :
    low 42 (encodeCynal c) = packFields (instrFields c.instr).2 := by
  have fits := packFields_lt (packed_operands c.instr (by simp_all [CWord.wf]))
  have word := low_encodeCynal c ok
  rw [low_all] at word
  rw [low, word, wordFields]
  simp only [List.cons_append, List.nil_append]
  rw [packFields_mod _ _ _ _ (by decide), packFields_mod _ _ _ _ (by decide), packFields_mod _ _ _ _ (by decide),
    packFields_mod _ _ _ _ (by decide), packFields_mod _ _ _ _ (by decide), Nat.mod_eq_of_lt fits]

theorem decodeA_fields (i : CInstr) (w : Word) (hw : low 42 w = packFields (instrFields i).2) (ok : i.wf = true)
    (op : 0x20 ≤ (instrFields i).1 ∧ (instrFields i).1 < 0x30) : decodeA (instrFields i).1 w = some i := by
  cases i
  case v o _ => exact absurd op (by have := vOpCode_range o; simp only [instrFields]; omega)
  case aLdw | aSwp => exact decodeA_weights _ w hw ok (by simp [instrFields])
  case aMul o => exact decodeA_product 0x22 .aMul o w hw ok (.inl ⟨rfl, rfl⟩)
  case aMult o => exact decodeA_product 0x23 .aMult o w hw ok (.inr ⟨rfl, rfl⟩)
  case aDrn o => exact decodeA_drain o w hw ok
  all_goals simp [instrFields] at op

theorem decodeV_fields (i : CInstr) (w : Word) (hw : low 42 w = packFields (instrFields i).2) (ok : i.wf = true)
    (op : 0x30 ≤ (instrFields i).1 ∧ (instrFields i).1 < 0x50) : decodeV (instrFields i).1 w = some i := by
  cases i
  case v v o => exact decodeV_operands v o w hw ok
  all_goals simp [instrFields] at op

/-- An opcode's family reads the operands (R44). -/
theorem decodeInstr_fields (i : CInstr) (w : Word) (hw : low 42 w = packFields (instrFields i).2) (ok : i.wf = true)
    (op : bitsOf 63 56 w = (instrFields i).1) : decodeInstr w = some i := by
  have opcode := opcode_lt i
  unfold decodeInstr
  rw [op]
  dsimp only
  split
  · exact decodeK_fields i w hw ok ‹_›
  split
  · exact decodeA_fields i w hw ok (by omega)
  split
  · exact decodeV_fields i w hw ok (by omega)
  split
  · exact decodeM_fields i w hw ok (by omega)
  split
  · exact decodeS_fields i w hw ok (by omega)
  split
  · exact decodeQ_fields i w hw ok (by omega)
  split
  · exact decodeC_fields i w hw ok (by omega)
  · exact decodeB_fields i w hw ok (by omega)

/-- Settles O5: the header is read field by field, the operands by the family of the opcode. -/
theorem cynalRoundTrip : Obligations.CynalRoundTrip := by
  unfold Obligations.CynalRoundTrip
  intro c ok
  have read := bitsOf_of_low (low_encodeCynal c ok)
  have operands := low_operands_encodeCynal c ok
  obtain ⟨⟨wait, post⟩, instr⟩ : (c.wait < 32 ∧ c.post < 32) ∧ c.instr.wf = true := by simpa [CWord.wf] using ok
  have packed := packed_operands c.instr instr
  have opcode : (instrFields c.instr).1 < 256 := Nat.lt_trans (opcode_lt c.instr) (by decide)
  have op : bitsOf 63 56 (encodeCynal c) = (instrFields c.instr).1 := by
    simp [read, wordFields, packed, opcode, wait, post]
  rw [decodeCynal, decodeInstr_fields c.instr _ operands instr op]
  simp [bitOf_eq, read, wordFields, packed, wait, post]

end Sys2Proof.Machine
end

section
/-! SUPPORT. The other direction: what a word decodes to encodes back to the word (R43, R44). -/

namespace Sys2Proof.Machine

/-! ### A word as the fields of its bits -/

/-- The bits of a word below `top`, cut at the given positions: each piece with its lowest bit. -/
def tiles (w : Word) : Nat → List Nat → List (Nat × Nat)
  | top, [] => [(bitsOf (top - 1) 0 w, 0)]
  | top, c :: cs => (bitsOf (top - 1) c w, c) :: tiles w c cs

/-- Positions below `top`, falling, none of them 0. -/
def cutsOk : Nat → List Nat → Bool
  | top, [] => decide (0 < top)
  | top, c :: cs => decide (c < top) && cutsOk c cs

theorem packFields_tiles (w : Word) (top : Nat) (cuts : List Nat) (h : cutsOk top cuts = true) :
    packFields (tiles w top cuts) = low top w := by
  induction cuts generalizing top with
  | nil =>
    have pos : 0 < top := by simpa [cutsOk] using h
    have split := low_split w (top - 1) 0 (Nat.zero_le _)
    rw [Nat.sub_add_cancel pos, low_zero] at split
    rw [tiles, packFields_cons, split, packFields_nil]
  | cons c cs ih =>
    obtain ⟨below, rest⟩ : c < top ∧ cutsOk c cs = true := by simpa [cutsOk] using h
    have split := low_split w (top - 1) c (by omega)
    rw [Nat.sub_add_cancel (by omega)] at split
    rw [tiles, packFields_cons, ih c rest, split]

@[simp] theorem bitsOf_lt_of_le (hi lo : Nat) (w : Word) {n : Nat} (h : 2 ^ (hi + 1 - lo) ≤ n) : bitsOf hi lo w < n :=
  Nat.lt_of_lt_of_le (bitsOf_lt hi lo w) h

@[simp] theorem bitsOf_mod (hi lo : Nat) (w : Word) {n : Nat} (h : 2 ^ (hi + 1 - lo) ≤ n) : bitsOf hi lo w % n = bitsOf hi lo w :=
  Nat.mod_eq_of_lt (bitsOf_lt_of_le hi lo w h)

@[simp] theorem gAt_val (lo : Nat) (w : Word) : (gAt lo w).val = bitsOf (lo + 5) lo w := by
  simp [gAt, show lo + 5 + 1 - lo = 6 by omega]

@[simp] theorem tAt_val (lo : Nat) (w : Word) : (tAt lo w).val = bitsOf (lo + 3) lo w := by
  simp [tAt, show lo + 3 + 1 - lo = 4 by omega]

theorem zAt_iff (hi lo : Nat) (w : Word) : zAt hi lo w = true ↔ bitsOf hi lo w = 0 := by simp [zAt]

/-- Bits within zero bits are zero. -/
theorem bitsOf_of_zAt {hi lo : Nat} {w : Word} (h : zAt hi lo w = true) (a b : Nat) (ha : a ≤ hi) (hb : lo ≤ b) : bitsOf a b w = 0 := by
  rw [zAt_iff, bitsOf] at h
  rw [bitsOf, Nat.shiftRight_eq_div_pow]
  rw [Nat.shiftRight_eq_div_pow] at h
  apply Nat.eq_of_testBit_eq
  intro i
  have bit := congrArg (fun n => n.testBit (i + b - lo)) h
  simp only [Nat.testBit_mod_two_pow, Nat.zero_testBit, ← Nat.shiftRight_eq_div_pow, Nat.testBit_shiftRight] at bit ⊢
  by_cases hi' : i < a + 1 - b
  · rw [show lo + (i + b - lo) = b + i by omega, decide_eq_true (show i + b - lo < hi + 1 - lo by omega), Bool.true_and] at bit
    rw [bit, Bool.and_false]
  · simp [hi']

/-! ### What decodes encodes back -/

/-- An instruction whose fields are these opcode and operand bits (R43, R44). -/
def Encodes (op : Nat) (w : Word) (i : CInstr) : Prop := (instrFields i).1 = op ∧ packFields (instrFields i).2 = low 42 w

theorem encodes_kAlui (w : Word) (fn : AluFn) (hf : aluFnOf (bitsOf 41 38 w) = some fn) :
    Encodes 0x05 w (.kAlui fn (gAt 32 w) (gAt 26 w) (BitVec.ofNat 64 (toTwos 64 (asSigned 26 (bitsOf 25 0 w))))) := by
  have imm : (BitVec.ofNat 64 (toTwos 64 (asSigned 26 (bitsOf 25 0 w)))).toNat % 2 ^ 26 = bitsOf 25 0 w := by
    rw [immediate_26, signExtend_26_low, BitVec.toNat_ofNat, bitsOf_mod 25 0 w (Nat.le_refl _)]
  have code := aluFnCode_of_aluFnOf hf
  rw [Encodes, ← packFields_tiles w 42 [38, 32, 26] rfl]
  simp only [instrFields, tiles, packFields_cons, code, imm, gAt_val]
  simp

theorem encodes_kBr (w : Word) (z : zAt 41 32 w = true) : Encodes 0x03 w (.kBr (asSigned 32 (bitsOf 31 0 w))) := by
  have fits := bitsOf_lt 31 0 w
  rw [Encodes, ← packFields_tiles w 42 [32] rfl]
  simp_all [instrFields, tiles, packFields_cons, zAt_iff, toTwos_asSigned_32]

theorem decodeK_encodes (op : Nat) (w : Word) (i : CInstr) (h : decodeK op w = some i) : Encodes op w i := by
  unfold decodeK at h
  split at h
  case h_3 =>
    obtain ⟨z, rfl⟩ := okIf_eq_some.mp h
    exact encodes_kBr w z
  case h_5 =>
    obtain ⟨fn, hf, rfl⟩ := Option.map_eq_some_iff.mp h
    exact encodes_kAlui w fn hf
  case h_1 =>
    obtain ⟨z, rfl⟩ := okIf_eq_some.mp h
    rw [Encodes, ← packFields_tiles w 42 [] rfl]
    simp_all [instrFields, tiles, packFields_cons, zAt_iff]
  case h_2 =>
    obtain ⟨z, rfl⟩ := okIf_eq_some.mp h
    rw [Encodes, ← packFields_tiles w 42 [36, 30, 24, 23] rfl]
    simp_all [instrFields, tiles, packFields_cons, zAt_iff, bnat_bitOf]
  case h_4 =>
    obtain ⟨code, hc, h⟩ := Option.bind_eq_some_iff.mp h
    obtain ⟨z, rfl⟩ := okIf_eq_some.mp h
    rw [Encodes, ← packFields_tiles w 42 [38, 32, 26, 20] rfl]
    simp_all [instrFields, tiles, packFields_cons, zAt_iff, aluFnCode_of_aluFnOf hc]
  case h_6 =>
    obtain ⟨z, rfl⟩ := okIf_eq_some.mp h
    rw [Encodes, ← packFields_tiles w 42 [36, 35, 32] rfl]
    simp_all [instrFields, tiles, packFields_cons, zAt_iff, bnat_bitOf]
  case h_7 =>
    obtain ⟨code, hc, h⟩ := Option.bind_eq_some_iff.mp h
    obtain ⟨z, rfl⟩ := okIf_eq_some.mp h
    rw [Encodes, ← packFields_tiles w 42 [39, 35, 29, 23] rfl]
    simp_all [instrFields, tiles, packFields_cons, zAt_iff, cmpCcCode_of_cmpCcOf hc]
  case h_8 =>
    obtain ⟨z, rfl⟩ := okIf_eq_some.mp h
    rw [Encodes, ← packFields_tiles w 42 [36, 32, 26] rfl]
    simp_all [instrFields, tiles, packFields_cons, zAt_iff]
  case h_9 =>
    obtain ⟨z, rfl⟩ := okIf_eq_some.mp h
    rw [Encodes, ← packFields_tiles w 42 [36, 32, 26] rfl]
    simp_all [instrFields, tiles, packFields_cons, zAt_iff]
  case h_10 =>
    obtain ⟨z, rfl⟩ := okIf_eq_some.mp h
    rw [Encodes, ← packFields_tiles w 42 [36, 32] rfl]
    simp_all [instrFields, tiles, packFields_cons, zAt_iff]
  case h_11 =>
    obtain ⟨z, rfl⟩ := okIf_eq_some.mp h
    rw [Encodes, ← packFields_tiles w 42 [38, 34, 33, 27] rfl]
    simp_all [instrFields, tiles, packFields_cons, zAt_iff, bnat_bitOf]
  case h_12 =>
    obtain ⟨z, rfl⟩ := okIf_eq_some.mp h
    rw [Encodes, ← packFields_tiles w 42 [38, 34] rfl]
    simp_all [instrFields, tiles, packFields_cons, zAt_iff]
  case h_13 =>
    obtain ⟨z, rfl⟩ := okIf_eq_some.mp h
    rw [Encodes, ← packFields_tiles w 42 [36, 32, 28] rfl]
    simp_all [instrFields, tiles, packFields_cons, zAt_iff]
  case h_14 =>
    rw [Encodes, ← packFields_tiles w 42 [40, 34] rfl]
    split at h
    case h_3 => cases h
    all_goals
      obtain ⟨z, rfl⟩ := okIf_eq_some.mp h
      simp_all [instrFields, tiles, packFields_cons, zAt_iff]
  case h_15 =>
    obtain ⟨z, rfl⟩ := okIf_eq_some.mp h
    rw [Encodes, ← packFields_tiles w 42 [] rfl]
    simp_all [instrFields, tiles, packFields_cons, zAt_iff]
  case h_16 => cases h

theorem decodeA_encodes (op : Nat) (w : Word) (i : CInstr) (h : decodeA op w = some i) : Encodes op w i := by
  unfold decodeA at h
  split at h
  case h_1 =>
    obtain ⟨k, hk, h⟩ := Option.bind_eq_some_iff.mp h
    obtain ⟨z, rfl⟩ := okIf_eq_some.mp h
    simp only [Bool.and_eq_true] at z
    have rounding := bitsOf_of_zAt z.1.2 21 20 (by decide) (by decide)
    have last := bitsOf_of_zAt z.2 4 0 (by decide) (by decide)
    rw [Encodes, ← packFields_tiles w 42 [38, 34, 30, 26, 24, 22, 20, 19, 18, 17, 11, 5] rfl]
    simp [instrFields, aFields, aOps, tiles, packFields_cons, bnat_bitOf, rounding, last, val_of_kselOf hk]
  case h_2 =>
    obtain ⟨z, rfl⟩ := okIf_eq_some.mp h
    simp only [Bool.and_eq_true] at z
    have selects := bitsOf_of_zAt z.2 23 22 (by decide) (by decide)
    have rounding := bitsOf_of_zAt z.2 21 20 (by decide) (by decide)
    have last := bitsOf_of_zAt z.2 4 0 (by decide) (by decide)
    rw [Encodes, ← packFields_tiles w 42 [38, 34, 30, 26, 24, 22, 20, 19, 18, 17, 11, 5] rfl]
    simp [instrFields, aFields, aOps, tiles, packFields_cons, bnat_bitOf, selects, rounding, last]
  case h_3 =>
    obtain ⟨r0, hr0, h⟩ := Option.bind_eq_some_iff.mp h
    obtain ⟨r1, hr1, h⟩ := Option.bind_eq_some_iff.mp h
    obtain ⟨z, rfl⟩ := okIf_eq_some.mp h
    simp only [Bool.and_eq_true, zAt_iff] at z
    rw [Encodes, ← packFields_tiles w 42 [38, 34, 30, 29, 27, 25, 24, 23, 17] rfl]
    simp [instrFields, tiles, packFields_cons, bnat_bitOf, rndCode_of_rndOf hr0, rndCode_of_rndOf hr1, z.1]
  case h_4 =>
    split at h
    next code =>
      obtain ⟨k, hk, h⟩ := Option.bind_eq_some_iff.mp h
      obtain ⟨r, hr, h⟩ := Option.bind_eq_some_iff.mp h
      obtain ⟨z, rfl⟩ := okIf_eq_some.mp h
      simp only [Bool.and_eq_true, zAt_iff] at z
      rw [Encodes, ← packFields_tiles w 42 [38, 34, 30, 26, 24, 22, 20, 19, 18, 17, 11, 5] rfl]
      obtain rfl | rfl := code
      all_goals
        simp [instrFields, aFields, aOps, tiles, packFields_cons, bnat_bitOf, rndCode_of_rndOf hr, val_of_kselOf hk, z.1.1]
    · cases h

theorem decodeV_encodes (op : Nat) (w : Word) (i : CInstr) (h : decodeV op w = some i) : Encodes op w i := by
  unfold decodeV at h
  obtain ⟨v, hv, h⟩ := Option.bind_eq_some_iff.mp h
  obtain ⟨r, hr, h⟩ := Option.bind_eq_some_iff.mp h
  obtain ⟨ct, hct, h⟩ := Option.bind_eq_some_iff.mp h
  obtain ⟨rf, hrf, h⟩ := Option.bind_eq_some_iff.mp h
  obtain ⟨z, rfl⟩ := okIf_eq_some.mp h
  simp only [Bool.and_eq_true] at z
  have last : bitsOf 3 0 w = 0 := (zAt_iff 3 0 w).mp (by tauto)
  rw [Encodes, ← packFields_tiles w 42 [38, 34, 30, 26, 24, 23, 21, 20, 19, 18, 16, 10, 4] rfl]
  simp [instrFields, vFields, tiles, packFields_cons, bnat_bitOf, vOpCode_of_vOpOf hv, rndCode_of_rndOf hr, ctCode_of_ctOf hct,
    rfCode_of_rfOf hrf, last]

theorem decodeM_encodes (op : Nat) (w : Word) (i : CInstr) (h : decodeM op w = some i) : Encodes op w i := by
  unfold decodeM at h
  dsimp only at h
  rw [Encodes, ← packFields_tiles w 42 [38, 34, 30, 29, 28, 27, 21] rfl]
  split at h
  case h_6 => cases h
  all_goals
    obtain ⟨z, rfl⟩ := okIf_eq_some.mp h
    simp_all [instrFields, mFields, mOps, tiles, packFields_cons, zAt_iff, bnat_bitOf]

theorem decodeS_encodes (op : Nat) (w : Word) (i : CInstr) (h : decodeS op w = some i) : Encodes op w i := by
  unfold decodeS at h
  dsimp only at h
  rw [Encodes]
  split at h
  case h_6 => cases h
  case' h_1 => rw [← packFields_tiles w 42 [26, 20, 19, 13, 7] rfl]
  case' h_2 => rw [← packFields_tiles w 42 [26, 20] rfl]
  case' h_3 | h_4 | h_5 => rw [← packFields_tiles w 42 [26, 20, 19, 18, 12, 6] rfl]
  all_goals
    obtain ⟨z, rfl⟩ := okIf_eq_some.mp h
    simp_all [instrFields, tiles, packFields_cons, zAt_iff, bnat_bitOf]

theorem decodeQ_encodes (op : Nat) (w : Word) (i : CInstr) (h : decodeQ op w = some i) : Encodes op w i := by
  unfold decodeQ at h
  rw [Encodes]
  split at h
  case h_6 => cases h
  case' h_1 => rw [← packFields_tiles w 42 [38, 33, 27, 21] rfl]
  case' h_2 => rw [← packFields_tiles w 42 [] rfl]
  case' h_3 | h_4 | h_5 => rw [← packFields_tiles w 42 [36, 30] rfl]
  all_goals
    obtain ⟨z, rfl⟩ := okIf_eq_some.mp h
    simp_all [instrFields, tiles, packFields_cons, zAt_iff]

theorem decodeC_encodes (op : Nat) (w : Word) (i : CInstr) (h : decodeC op w = some i) : Encodes op w i := by
  unfold decodeC at h
  rw [Encodes]
  split at h
  case h_3 => cases h
  case' h_1 => rw [← packFields_tiles w 42 [38, 34, 28, 22] rfl]
  case' h_2 => rw [← packFields_tiles w 42 [36, 30, 27, 24, 19, 13, 7, 1] rfl]
  all_goals
    obtain ⟨z, rfl⟩ := okIf_eq_some.mp h
    simp_all [instrFields, tiles, packFields_cons, zAt_iff]

theorem decodeB_encodes (op : Nat) (w : Word) (i : CInstr) (h : decodeB op w = some i) : Encodes op w i := by
  unfold decodeB at h
  rw [Encodes]
  split at h
  case h_3 => cases h
  case' h_1 => rw [← packFields_tiles w 42 [36] rfl]
  case' h_2 => rw [← packFields_tiles w 42 [36, 12] rfl]
  all_goals
    obtain ⟨z, rfl⟩ := okIf_eq_some.mp h
    simp_all [instrFields, tiles, packFields_cons, zAt_iff]

theorem decodeInstr_encodes (w : Word) (i : CInstr) (h : decodeInstr w = some i) : Encodes (bitsOf 63 56 w) w i := by
  unfold decodeInstr at h
  dsimp only at h
  split at h
  · exact decodeK_encodes _ w i h
  split at h
  · exact decodeA_encodes _ w i h
  split at h
  · exact decodeV_encodes _ w i h
  split at h
  · exact decodeM_encodes _ w i h
  split at h
  · exact decodeS_encodes _ w i h
  split at h
  · exact decodeQ_encodes _ w i h
  split at h
  · exact decodeC_encodes _ w i h
  split at h
  · exact decodeB_encodes _ w i h
  · cases h

/-- Settles O6: the header and the operand fields of what a word decodes to are the word's own bits. -/
theorem cynalOneWordEach : Obligations.CynalOneWordEach := by
  unfold Obligations.CynalOneWordEach
  intro w c h
  obtain ⟨i, hi, rfl⟩ := Option.map_eq_some_iff.mp h
  obtain ⟨op, operands⟩ := decodeInstr_encodes w i hi
  have word : w.toNat = packFields (tiles w 64 [56, 51, 46, 45, 42]) := by rw [packFields_tiles w 64 _ rfl, low_all]
  have rest : low 42 w = bitsOf 41 0 w := by simpa [low_zero] using low_split w 41 0 (by decide)
  have header : packFields ([((instrFields i).1, 56), (bitsOf 55 51 w, 51), (bitsOf 50 46 w, 46), (bnat (bitOf 45 w), 45),
      ((Fin.ofNat 8 (bitsOf 44 42 w)).val, 42)] ++ (instrFields i).2) = w.toNat := by
    rw [word]
    simp [tiles, packFields_cons, op, operands, bnat_bitOf, rest]
  dsimp only [encodeCynal]
  rw [header, BitVec.ofNat_toNat, BitVec.setWidth_eq]

end Sys2Proof.Machine
end

section
/-! SUPPORT. The registers right after reset (R496), and words of the encoding tables. -/

namespace Sys2Proof.Machine

/-! ### Registers right after reset -/

/-- Every field of a register reads its reset value in the register's reset word. -/
def resetReads (d : RegDef) : Bool :=
  d.fields.all fun f =>
    getF ⟨f.lo, f.w⟩ (BitVec.ofNat 64 (d.fields.foldl (fun w f => w ||| (f.reset <<< f.lo)) 0)) == f.reset

theorem mem_of_regDefIn {a : Nat} {l : List RegDef} {d : RegDef} (h : regDefIn a l = some d) : d ∈ l := by
  induction l with
  | nil => cases h
  | cons e l ih =>
    unfold regDefIn at h
    dsimp only at h
    split at h
    · cases h
      exact List.mem_cons_self
    · exact List.mem_cons_of_mem _ (ih h)

theorem pageTable_resetReads (page : Nat) : (pageTable page).all resetReads = true := by
  unfold pageTable
  split
  case h_27 =>
    split
    · decide
    · rfl
  all_goals decide

theorem resetReads_of_regDefAt {a : Nat} {d : RegDef} (h : regDefAt a = some d) : resetReads d = true :=
  List.all_eq_true.mp (pageTable_resetReads _) d (mem_of_regDefIn h)

theorem rd_reset {a : Nat} (h : a ∉ resetRegs.map (·.1)) : rd State.reset a = resetWord a := by
  have unlisted : resetRegs.lookup a = none :=
    List.lookup_eq_none_iff.mpr fun e he => bne_iff_ne.mpr fun same => h (List.mem_map.mpr ⟨e, he, same.symm⟩)
  unfold rd
  rw [show State.reset.regs = resetRegs from rfl, unlisted]

theorem fld_reset {a : Nat} {d : RegDef} (hd : regDefAt a = some d) (h : a ∉ resetRegs.map (·.1)) {f : FieldDef} (hf : f ∈ d.fields) :
    fld State.reset a ⟨f.lo, f.w⟩ = f.reset := by
  have reads := List.all_eq_true.mp (resetReads_of_regDefAt hd) f hf
  rw [fld, rd_reset h, resetWord, hd]
  exact beq_iff_eq.mp reads

/-- Settles O4: the registers by the reset words of their tables, everything else as State.reset writes it. -/
theorem resetHolds : Obligations.ResetHolds := by
  unfold Obligations.ResetHolds
  refine ⟨rfl, fun a d hd h f hf => fld_reset hd h hf, ?_⟩
  refine ⟨fun _ => rfl, fun _ => rfl, fun _ => rfl, fun _ => rfl, fun _ => rfl, fun _ => rfl, fun _ => rfl, rfl, rfl, rfl, rfl, ?_, ?_,
    fun _ => rfl⟩
  · decide
  · decide

/-- Settles O7: each word is decoded. -/
theorem cynalWords : Obligations.CynalWords := by
  unfold Obligations.CynalWords
  refine ⟨?_, ?_, ?_, ?_, ?_, ?_, ?_, ?_, ?_, ?_, ?_, ?_, ?_, ?_, ?_, ?_⟩
  all_goals rfl

end Sys2Proof.Machine
end

section
/-! SUPPORT. The sequencer's own instructions (R46, R326): what one without effect comes to, and the four that change no register. -/

namespace Sys2Proof.Machine

/-- A held instruction that is not live only waits and posts (R46 steps 2 and 4). -/
theorem seqExec_idle {s : State} {x l : Nat} {r : Running} {f : Flight} (h : seqAt s x l = some (r, f)) (dead : f.live = false)
    {is : CInstr → Bool} (his : is f.op.instr = true) (act : Running → Flight → State) :
    seqExec s x l is act = stepSeq s x l r f id := by
  simp [seqExec, h, dead, his]

theorem stepSeq_spec (s : State) (x l : Nat) (r : Running) (f : Flight) (g : TaskRegs → TaskRegs) :
    ∃ r', getRun (stepSeq s x l r f g) x l = some r' ∧ OnlyTask s (stepSeq s x l r f g) x l ∧ Stepped r r' f (f.pc + 8)
      ∧ r'.regs = g r.regs :=
  finishSeq_spec s x l r f g (f.pc + 8)

/-- What an instruction that completes at once leaves, as its statement lists it. -/
theorem finishSeq_results {s : State} {x l : Nat} {r : Running} {f : Flight} {c : Instr} {pc : Nat}
    (h : exec c s = .next (finishSeq s x l r f id pc)) :
    ∃ t r', exec c s = .next t ∧ OnlyTask s t x l ∧ getRun t x l = some r' ∧ Stepped r r' f pc ∧ r'.regs = r.regs := by
  obtain ⟨r', run, frame, stepped, regs⟩ := finishSeq_spec s x l r f id pc
  exact ⟨_, r', h, frame, run, stepped, regs⟩

theorem exec_kNop {s : State} {x l : Nat} {r : Running} {f : Flight} (h : Held s x l r f .kNop) :
    exec (.kNop x l) s = .next (finishSeq s x l r f id (f.pc + 8)) :=
  congrArg Host.Outcome.next (seqExec_held h rfl _)

theorem exec_kBr {s : State} {x l : Nat} {r : Running} {f : Flight} {ofs : Int} (h : Held s x l r f (.kBr ofs)) :
    exec (.kBr x l) s = .next (finishSeq s x l r f id ((f.pc : Int) + 8 * ofs).toNat) := by
  refine congrArg Host.Outcome.next ((seqExec_held h rfl _).trans ?_)
  rw [h.2.1]

theorem exec_kEnd {s : State} {x l : Nat} {r : Running} {f : Flight} (h : Held s x l r f .kEnd) :
    exec (.kEnd x l) s = .next (setRun s x l (some { (r.consume f.op.wait) with ended := true, seq := none })) :=
  congrArg Host.Outcome.next (seqExec_held h rfl _)

theorem exec_bAt {s : State} {x l : Nat} {r : Running} {f : Flight} {ga : GReg} {imm : Nat} (h : Held s x l r f (.bAt ga imm)) :
    exec (.bAt x l) s
      = .next (if ((f.regs.getG ga).toNat + imm) % 2 ^ 64 ≤ beat s then finishSeq s x l r f id (f.pc + 8) else s) := by
  refine congrArg Host.Outcome.next ((seqExec_held h rfl _).trans ?_)
  rw [h.2.1]
  rfl

/-- A wait consumed without a post. -/
theorem steppedNoPost_consume (r : Running) (f : Flight) : SteppedNoPost r { (r.consume f.op.wait) with seq := none } f r.pc := by
  refine ⟨by rw [Running.consume_eq], fun k hk => (Running.token_consume r f.op.wait k hk).trans ?_⟩
  unfold tokenAfter
  by_cases k0 : k = 0
  · subst k0
    rw [if_pos rfl, if_neg (fun c => c.2 c.1.symm)]
  · rw [if_neg k0, if_neg (Ne.symm k0)]
    by_cases hw : f.op.wait = k <;> simp [hw, k0, Ne.symm]

theorem kEnd_results {s : State} {x l : Nat} {r : Running} {f : Flight} (h : Held s x l r f .kEnd) :
    ∃ t r', exec (.kEnd x l) s = .next t ∧ OnlyTask s t x l ∧ getRun t x l = some { r' with ended := true }
      ∧ SteppedNoPost r r' f r.pc :=
  ⟨_, { (r.consume f.op.wait) with seq := none }, exec_kEnd h, by simp [OnlyTask], getRun_setRun .., steppedNoPost_consume r f⟩

/-- Settles O10: each live instruction by the state it leaves, each dead one by `seqExec_idle`. -/
theorem controlResults : Obligations.ControlResults := by
  unfold Obligations.ControlResults
  refine ⟨⟨fun s x l r f h => finishSeq_results (exec_kNop h), fun s x l r f ofs h inside => ?_, fun s x l r f => kEnd_results,
    fun s x l r f ga imm h => ⟨fun come => finishSeq_results ((exec_bAt h).trans (congrArg _ (if_pos come))),
      fun early => (exec_bAt h).trans (congrArg _ (if_neg (Nat.not_le.mpr early)))⟩⟩, fun s x l r f held dead c kind => ?_⟩
  · obtain ⟨t, r', run, frame, task, stepped, regs⟩ := finishSeq_results (exec_kBr h)
    exact ⟨t, r', _, run, frame, task, stepped, Int.toNat_of_nonneg inside, regs⟩
  · apply finishSeq_results
    rcases kind with ⟨rfl, h⟩ | ⟨rfl, h⟩ | ⟨rfl, _, h⟩ | ⟨rfl, _, _, _, _, h⟩ | ⟨rfl, _, _, _, _, h⟩ | ⟨rfl, _, _, _, h⟩
      | ⟨rfl, _, _, _, _, h⟩ | ⟨⟨_, rfl⟩, _, _, _, h⟩ | ⟨rfl, _, _, _, h⟩ | ⟨rfl, _, _, h⟩ | ⟨rfl, _, _, _, _, h⟩ | ⟨rfl, _, _, h⟩
      | ⟨rfl, _, _, _, h⟩ | ⟨rfl, _, _, _, _, h⟩ | ⟨rfl, _, h⟩ | ⟨rfl, _, h⟩ | ⟨rfl, _, h⟩ | ⟨rfl, _, _, h⟩
    all_goals exact congrArg Host.Outcome.next (seqExec_idle held dead ((congrArg _ h).trans rfl) _)

end Sys2Proof.Machine
end

section
/-! SUPPORT. What the accesses of an instruction can change (R144 to R146, R151, R155 to R158, R164): memory errors met, and the
counts of the comb store. -/

namespace Sys2Proof.Machine

/-! ### Memory errors -/

/-- All that the reads of an instruction can change: registers, records, poison, the lines held and what counts them. -/
def OnlyMeet (s t : State) : Prop :=
  t = { s with regs := t.regs, recs := t.recs, recSeq := t.recSeq, thrLogged := t.thrLogged, rowErrs := t.rowErrs,
               lastCorr := t.lastCorr, poison := t.poison, comb := t.comb, free := t.free }

theorem OnlyMeet.refl (s : State) : OnlyMeet s s := rfl

theorem OnlyMeet.trans {s t u : State} (h : OnlyMeet s t) (k : OnlyMeet t u) : OnlyMeet s u := by
  unfold OnlyMeet at *
  rw [k, h]

theorem OnlyMeet.foldl {α : Type} (f : State → α → State) (h : ∀ s a, OnlyMeet s (f s a)) (l : List α) (s : State) :
    OnlyMeet s (l.foldl f s) := by
  induction l generalizing s with
  | nil => rfl
  | cons a l ih => exact (h s a).trans (ih _)

theorem OnlyComb.onlyMeet {s t : State} (h : OnlyComb s t) : OnlyMeet s t := by
  unfold OnlyComb at h
  rw [h]
  rfl

theorem OnlyMeet.mem {s t : State} (h : OnlyMeet s t) : t.mem = s.mem := by rw [h]
theorem OnlyMeet.ctxs {s t : State} (h : OnlyMeet s t) : t.ctxs = s.ctxs := by rw [h]

theorem onlyMeet_listRow (s : State) (pc rowBank : Nat) (uncorr : Bool) : OnlyMeet s (listRow s pc rowBank uncorr) := by
  unfold listRow
  extract_lets
  split
  · rfl
  · split <;> rfl

theorem onlyMeet_eccCorrected (s : State) (u : CorrUnit) : OnlyMeet s (eccCorrected s u) := by
  unfold eccCorrected
  dsimp only
  split <;> rfl

theorem onlyMeet_memCorrected (s : State) (e : EccEvent) : OnlyMeet s (memCorrected s e) := by
  unfold memCorrected
  extract_lets t key n t'
  have counted : OnlyMeet s t := onlyMeet_eccCorrected s _
  split
  · split
    · exact (counted.trans (t := t) (u := t') rfl).trans (onlyMeet_listRow ..)
    · exact counted.trans (t := t) rfl
  · exact counted

theorem onlyMeet_memUncorrectable (s : State) (h : Nat) (e : EccEvent) : OnlyMeet s (memUncorrectable s h e) := by
  unfold memUncorrectable
  extract_lets t
  split
  · exact OnlyMeet.trans (t := t) rfl (onlyMeet_listRow ..)
  · rfl

theorem onlyMeet_lineUncorrectable (s : State) (h : Nat) (e : EccEvent) (c : CombLine) :
    OnlyMeet s (lineUncorrectable s h e c) := by
  unfold lineUncorrectable
  split
  · rfl
  · exact onlyMeet_eccCorrected ..

theorem onlyMeet_eccMemory (h : Nat) (s : State) (e : EccEvent) : OnlyMeet s (eccMemory h s e) := by
  unfold eccMemory
  extract_lets l2
  split
  · split
    · exact onlyMeet_memCorrected ..
    · rfl
  · split
    · rfl
    · exact onlyMeet_memUncorrectable ..
  · split
    · exact onlyMeet_memUncorrectable ..
    · rfl
  all_goals rfl

theorem onlyMeet_eccOne (h : Nat) (s : State) (e : EccEvent) : OnlyMeet s (eccOne h s e) := by
  unfold eccOne
  split
  · exact onlyMeet_eccMemory ..
  · split
    · exact onlyMeet_eccCorrected ..
    · exact onlyMeet_lineUncorrectable ..
    · rfl

theorem onlyMeet_eccApply (s : State) (h a n : Nat) (evs : List EccEvent) : OnlyMeet s (eccApply s h a n evs) :=
  OnlyMeet.foldl _ (onlyMeet_eccOne h) _ s

theorem onlyMeet_eccMeet (s : State) (ts : List Touch) (evs : List EccEvent) : OnlyMeet s (eccMeet s ts evs) := by
  refine OnlyMeet.foldl _ (fun s e => ?_) evs s
  split
  · exact onlyMeet_eccOne ..
  · rfl

theorem onlyMeet_combReads (s : State) (strm : Bool) (ts : List Touch) : OnlyMeet s (combReads s strm ts) :=
  OnlyMeet.foldl _ (fun _ _ => (onlyComb_combTouch ..).onlyMeet) ts s

theorem onlyMeet_combWrites (s : State) (ts : List Touch) : OnlyMeet s (combWrites s ts) :=
  OnlyMeet.foldl _ (fun _ _ => (onlyComb_combTouch ..).onlyMeet) ts s

/-- All that the accesses of an engine's instruction can change before its data count. -/
theorem onlyMeet_meet (s : State) (x l : Nat) (strm : Bool) (ts : List Touch) (dsts : List Desc) (evs : List EccEvent) :
    OnlyMeet s (meet s x l strm ts dsts evs) :=
  ((onlyMeet_eccMeet ..).trans (onlyMeet_combReads ..)).trans (onlyMeet_combWrites ..)

/-- What the fetch of an instruction can change. -/
theorem onlyMeet_fetchMeet (s : State) (r : Running) (evs : List EccEvent) : OnlyMeet s (fetchMeet s r evs) := by
  unfold fetchMeet
  extract_lets
  split
  · rfl
  · exact (onlyMeet_eccMeet ..).trans (onlyMeet_combReads ..)

/-! ### The counts of the comb store -/

/-- Of the registers, only CMB_HIT of a partition in `P`. -/
def OnlyHits (P : Nat → Prop) (s t : State) : Prop := ∀ q, (∀ p, P p → q ≠ Reg.CMB_HIT p) → rd t q = rd s q

theorem OnlyHits.refl (P : Nat → Prop) (s : State) : OnlyHits P s s := fun _ _ => rfl

theorem OnlyHits.trans {P : Nat → Prop} {s t u : State} (h : OnlyHits P s t) (k : OnlyHits P t u) : OnlyHits P s u :=
  fun q hq => (k q hq).trans (h q hq)

theorem OnlyHits.bump {P : Nat → Prop} {s t : State} (h : OnlyHits P s t) {p : Nat} (hp : P p) (f : Fld) (n : Nat) :
    OnlyHits P s (bump t (Reg.CMB_HIT p) f n) :=
  fun q hq => (rd_bump_other t f n (hq p hp)).trans (h q hq)

/-- The registers below CMB_HIT are none of those counts. -/
theorem OnlyHits.below {P : Nat → Prop} {s t : State} (h : OnlyHits P s t) {q : Nat} (hq : q < Reg.CMB_HIT 0) : rd t q = rd s q :=
  h q fun p _ => by
    unfold Reg.CMB_HIT at *
    omega

/-- Who owns an address is read from MEM_HBM_SET and MEM_L2OWN, which no access through the comb store changes. -/
theorem OnlyHits.ownerAt {P : Nat → Prop} {s t : State} (h : OnlyHits P s t) (a : Nat) : ownerAt t a = ownerAt s a := by
  have hbm (p : Nat) (hp : p < 8) : rd t (Reg.MEM_HBM_SET p) = rd s (Reg.MEM_HBM_SET p) :=
    h.below (by unfold Reg.MEM_HBM_SET Reg.CMB_HIT; omega)
  unfold Machine.ownerAt
  split
  · refine congrArg List.head? (List.filter_congr fun p hp => ?_)
    unfold hbmOwned flg fld
    dsimp only
    rw [hbm p (List.mem_range.mp hp)]
  · split
    case isTrue inside =>
      have low : rd t (Reg.MEM_L2OWN ((a - l2Base) / 0x100000000 / 16)) = rd s (Reg.MEM_L2OWN ((a - l2Base) / 0x100000000 / 16)) :=
        h.below (by
          unfold Reg.MEM_L2OWN Reg.CMB_HIT l2Base
          unfold l2Base l2End at inside
          omega)
      unfold granuleOwner flg fld
      dsimp only
      rw [low]
    case isFalse => rfl

/-- A line of 256 bytes has one owner. -/
theorem ownerAt_line (s : State) (a : Nat) : ownerAt s (a / 256 * 256) = ownerAt s a := by
  have hbm : (a / 256 * 256 < hbmEnd) ↔ a < hbmEnd := by unfold hbmEnd; omega
  have l2 : (l2Base ≤ a / 256 * 256 ∧ a / 256 * 256 < l2End) ↔ l2Base ≤ a ∧ a < l2End := by unfold l2Base l2End; omega
  have channel : a / 256 * 256 / 0xA0000000 = a / 0xA0000000 := by omega
  unfold ownerAt
  simp only [hbm, l2, channel]
  split
  · rfl
  · split
    case isTrue inside =>
      have granule : (a / 256 * 256 - l2Base) / 0x100000000 = (a - l2Base) / 0x100000000 := by
        unfold l2Base at *
        omega
      rw [granule]
    case isFalse => rfl

theorem rd_combPlace (s : State) (p : Nat) (ways : List Nat) (write : Bool) (line q : Nat) :
    rd (combPlace s p ways write line) q = rd s q := by
  refine rd_congr ?_ q
  unfold combPlace
  dsimp only
  split
  · rfl
  · split <;> rfl

theorem onlyHits_combAccess {P : Nat → Prop} (write strm : Bool) (s : State) (line : Nat)
    (owned : ∀ p, ownerAt s (line * 256) = some p → P p) : OnlyHits P s (combAccess write strm s line) := by
  unfold combAccess
  split
  · exact OnlyHits.refl P s
  · next p hp =>
    split
    · split
      · exact OnlyHits.bump (fun q _ => rd_congr rfl q) (owned p hp) _ _
      · exact OnlyHits.bump (fun q _ => rd_combPlace ..) (owned p hp) _ _
    · exact OnlyHits.refl P s

theorem onlyHits_combMore {P : Nat → Prop} (s : State) (a n : Nat) {p : Nat} (hp : P p) : OnlyHits P s (combMore s a n p) :=
  ((OnlyHits.bump (s := s) (t := { s with free := s.free + 2 }) (fun q _ => rd_congr rfl q) hp _ _).bump hp _ _)

theorem onlyHits_combLines {P : Nat → Prop} (write strm : Bool) (lines : List Nat) (s : State)
    (owned : ∀ i ∈ lines, ∀ p, ownerAt s (i * 256) = some p → P p) : OnlyHits P s (lines.foldl (combAccess write strm) s) := by
  induction lines generalizing s with
  | nil => exact OnlyHits.refl P s
  | cons i is ih =>
    have first : OnlyHits P s (combAccess write strm s i) := onlyHits_combAccess write strm s i (owned i List.mem_cons_self)
    refine first.trans (ih _ fun j hj p hp => owned j (List.mem_cons_of_mem _ hj) p ?_)
    rwa [← first.ownerAt]

/-- An access through the comb store counts only for the owners of its lines. -/
theorem onlyHits_combTouch {P : Nat → Prop} (s : State) (write strm : Bool) (a n : Nat)
    (owned : ∀ p, (∃ i ∈ linesOf a n, ownerAt s (i * 256) = some p) ∨ ownerAt s a = some p → P p) :
    OnlyHits P s (combTouch s write strm a n) := by
  have lines : OnlyHits P s ((linesOf a n).foldl (combAccess write strm) s) :=
    onlyHits_combLines write strm _ s fun i hi p hp => owned p (.inl ⟨i, hi, hp⟩)
  unfold combTouch
  split
  · exact OnlyHits.refl P s
  · dsimp only
    split
    · next p hp =>
      split
      · exact lines.trans (onlyHits_combMore _ a n (owned p (.inr (by rwa [lines.ownerAt] at hp))))
      · exact lines
    · exact lines

/-- An extent no longer than a line lies in the lines of its first and its last byte. -/
theorem mem_linesOf {a n i : Nat} (hn : n ≤ 256) (h : i ∈ linesOf a n) : i = a / 256 ∨ i = (a + n - 1) / 256 := by
  unfold linesOf at h
  split at h
  · simp at h
  · obtain ⟨j, hj, rfl⟩ := List.mem_map.mp h
    have := List.mem_range.mp hj
    omega

end Sys2Proof.Machine
end

section
/-! K.ST and K.LD (R333, R519): the eight bytes of a register in memory, and the accesses that move them. -/

namespace Sys2Proof.Machine

/-! ### Eight bytes, least significant first -/

@[simp] theorem length_leBytes (n v : Nat) : (leBytes n v).length = n := by
  induction n generalizing v with
  | zero => rfl
  | succ n ih => simp [leBytes, ih]

theorem getElem_leBytes (n v i : Nat) (h : i < (leBytes n v).length) :
    (leBytes n v)[i] = BitVec.ofNat 8 (v / 2 ^ (8 * i)) := by
  induction n generalizing v i with
  | zero => simp at h
  | succ n ih =>
    cases i with
    | zero => simp [leBytes]
    | succ i =>
      have shift : v / 256 / 2 ^ (8 * i) = v / 2 ^ (8 * (i + 1)) := by
        rw [Nat.div_div_eq_div_mul, show 8 * (i + 1) = 8 + 8 * i by omega, Nat.pow_add]
      have byte := ih (v / 256) i (by simpa [leBytes] using h)
      rw [shift] at byte
      exact byte

theorem ofLeBytes_lt (bs : List Byte) : ofLeBytes bs < 2 ^ (8 * bs.length) := by
  induction bs with
  | nil => simp [ofLeBytes]
  | cons b bs ih =>
    have := b.isLt
    rw [List.length_cons, Nat.mul_succ, Nat.pow_add, ofLeBytes]
    omega

theorem byte_ofLeBytes (bs : List Byte) (i : Nat) (h : i < bs.length) : BitVec.ofNat 8 (ofLeBytes bs / 2 ^ (8 * i)) = bs[i] := by
  induction bs generalizing i with
  | nil => simp at h
  | cons b bs ih =>
    have := b.isLt
    cases i with
    | zero =>
      apply BitVec.eq_of_toNat_eq
      simp only [ofLeBytes, BitVec.toNat_ofNat, List.getElem_cons_zero]
      omega
    | succ i =>
      have rest : (b.toNat + 256 * ofLeBytes bs) / 2 ^ (8 * (i + 1)) = ofLeBytes bs / 2 ^ (8 * i) := by
        rw [show 8 * (i + 1) = 8 + 8 * i by omega, Nat.pow_add, ← Nat.div_div_eq_div_mul]
        congr 1
        omega
      rw [ofLeBytes, rest]
      exact ih i (by simpa using h)

/-- The bytes of the word read at an address are the bytes there. -/
theorem byte_wordAt (s : State) (a i : Nat) (hi : i < 8) :
    BitVec.ofNat 8 ((wordAt s a).toNat / 2 ^ (8 * i)) = readByte s (a + i) := by
  have len : (readBytes s a 8).length = 8 := by simp [readBytes]
  have small := ofLeBytes_lt (readBytes s a 8)
  rw [len] at small
  rw [wordAt, BitVec.toNat_ofNat, Nat.mod_eq_of_lt small, byte_ofLeBytes _ _ (by omega)]
  simp [readBytes]

theorem wordAt_congr {s t : State} (h : t.mem = s.mem) (a : Nat) : wordAt t a = wordAt s a := by
  simp [wordAt, readBytes, readByte, h]

/-! ### The task of a core and the rest of the state -/

/-- What a step leaves of the contexts depends on the contexts alone. -/
theorem setRun_ctxs {s t : State} (h : t.ctxs = s.ctxs) (x l : Nat) (r : Option Running) :
    (setRun t x l r).ctxs = (setRun s x l r).ctxs := by
  simp [setRun, setCore, setCtx, getCore, getCtx, h]

theorem onlyTaskCtxs_setRun {s t : State} (h : t.ctxs = s.ctxs) (x l : Nat) (r : Option Running) :
    OnlyTaskCtxs s (setRun t x l r) x l := by
  rw [OnlyTaskCtxs, getRun_setRun, setRun_ctxs h]

theorem runningCtx_congr {s t : State} (h : t.ctxs = s.ctxs) (x : Nat) : runningCtx t x = runningCtx s x := by
  simp [runningCtx, getCtx, h]

/-- An instruction held by a sequencer has its context running. -/
theorem runningCtx_of_seqAt {s : State} {x l : Nat} {e : Running × Flight} (h : seqAt s x l = some e) : runningCtx s x = true := by
  unfold seqAt at h
  split at h
  · split at h
    · split at h
      · next c =>
        simp only [Bool.and_eq_true] at c
        exact c.1.1
      · contradiction
    · contradiction
  · contradiction

/-! ### A context that faults (R30) -/

theorem getRun_dropSlice (s : State) (x y l : Nat) : getRun (dropSlice s x) y l = getRun s y l := by
  unfold dropSlice
  extract_lets
  split <;> rfl

theorem getCtx_dropSlice (s : State) (x y : Nat) : getCtx (dropSlice s x) y = getCtx s y := by
  unfold dropSlice
  extract_lets
  split <;> rfl

theorem dropSlice_frame (s : State) (x : Nat) : dropSlice s x = { s with slices := (dropSlice s x).slices } := by
  unfold dropSlice
  extract_lets
  split <;> rfl

/-- A fault changes a context's state and gives its slice up. -/
theorem faultCtx_frame (s : State) (x : Nat) :
    faultCtx s x = { s with ctxs := (faultCtx s x).ctxs, slices := (faultCtx s x).slices } := by
  unfold faultCtx
  split
  · rw [dropSlice_frame]
    rfl
  · rfl

theorem getRun_faultCtx (s : State) (x y l : Nat) : getRun (faultCtx s x) y l = getRun s y l := by
  unfold faultCtx
  split
  · rw [getRun_dropSlice, setCtxState, getRun, getCore]
    by_cases h : y = x
    · subst h
      rw [getCtx_setCtx]
      rfl
    · rw [getCtx_setCtx_other s _ h]
      rfl
  · rfl

theorem getCtx_faultCtx_other (s : State) {x y : Nat} (h : y ≠ x) : getCtx (faultCtx s x) y = getCtx s y := by
  unfold faultCtx
  split
  · rw [getCtx_dropSlice, setCtxState, getCtx_setCtx_other s _ h]
  · rfl

theorem getCtx_faultCtx_running {s : State} {x : Nat} (h : runningCtx s x = true) :
    getCtx (faultCtx s x) x = { getCtx s x with st := .faulted } := by
  have resident : residentIn s x = true := by
    rw [residentIn, eq_of_beq h]
    rfl
  rw [faultCtx, if_pos resident, getCtx_dropSlice, setCtxState, getCtx_setCtx]

/-- A plain task has no handler's vote to cast when it faults. -/
theorem faultInstr_plain {s : State} {x l pc : Nat} (h : taskKindOf s x l = .plain) : faultInstr s x l pc = faultCtx s x := by
  rw [faultInstr, h]
  rfl

theorem taskKindOf_setRun (s : State) (x l : Nat) (r : Running) : taskKindOf (setRun s x l (some r)) x l = r.task.kind := by
  simp [taskKindOf]

/-! ### The two instructions -/

theorem exec_kSt {s : State} {x l : Nat} {r : Running} {f : Flight} {ga gb : GReg} {td : TReg} (h : Held s x l r f (.kSt ga td gb)) :
    exec (.kSt x l) s
      = .next (stepSeq (storeBytes s (scalarAddr s x l f td gb) (leBytes 8 (f.regs.getG ga).toNat)) x l r f id) := by
  refine congrArg Host.Outcome.next ((seqExec_held h rfl _).trans ?_)
  rw [h.2.1]

/-- What K.LD comes to in the state that its accesses leave. -/
def loadStep (s : State) (x l : Nat) (r : Running) (f : Flight) (gd : GReg) (a : Nat) : State :=
  if poisoned s a 8 then faultInstr (setRun s x l (some { r with seq := none })) x l f.pc
  else stepSeq s x l r f (fun g => g.setG gd (wordAt s a))

theorem exec_kLd {s : State} {x l : Nat} {r : Running} {f : Flight} {gd gb : GReg} {ts : TReg} (h : Held s x l r f (.kLd gd ts gb))
    (ecc : List EccEvent) :
    exec (.kLd x l ecc) s = .next (loadStep (combTouch (eccApply s (f.regs.getT ts).handle (scalarAddr s x l f ts gb) 8 ecc) false false
      (scalarAddr s x l f ts gb) 8) x l r f gd (scalarAddr s x l f ts gb)) := by
  refine congrArg Host.Outcome.next ((seqExec_held h rfl _).trans ?_)
  rw [h.2.1]
  rfl

theorem poisoned_congr {s t : State} (h : t.poison = s.poison) (a n : Nat) : poisoned t a n = poisoned s a n := by
  simp [poisoned, h]

theorem kSt_results {s : State} {x l : Nat} {r : Running} {f : Flight} {ga gb : GReg} {td : TReg} (h : Held s x l r f (.kSt ga td gb)) :
    ∃ t r' a, exec (.kSt x l) s = .next t ∧ getRun t x l = some r' ∧ Stepped r r' f (f.pc + 8) ∧ r'.regs = r.regs
      ∧ a = (handleOf s x l (f.regs.getT td).handle).base + (f.regs.getT td).offset + (f.regs.getG gb).toNat
      ∧ (∀ i, i < 8 → readByte t (a + i) = BitVec.ofNat 8 ((f.regs.getG ga).toNat / 2 ^ (8 * i)))
      ∧ SameBytesOutside s t a 8
      ∧ OnlyTaskCtxs s t x l
      ∧ (∀ q, (∀ p, ownerAt s a = some p ∨ ownerAt s (a + 7) = some p → q ≠ Reg.CMB_HIT p) → rd t q = rd s q)
      ∧ t = { s with ctxs := t.ctxs, mem := t.mem, poison := t.poison, regs := t.regs, comb := t.comb, free := t.free } := by
  have run := exec_kSt h
  generalize ha : scalarAddr s x l f td gb = a at run
  generalize hbs : leBytes 8 (f.regs.getG ga).toNat = bs at run
  have len : bs.length = 8 := by simp [← hbs]
  have frame : OnlyComb (writeBytes s a bs) (storeBytes s a bs) := onlyComb_combTouch ..
  obtain ⟨r', task, _, stepped, regs⟩ := stepSeq_spec (storeBytes s a bs) x l r f id
  refine ⟨_, r', a, run, task, stepped, regs, ?_, fun i hi => ?_, ?_, ?_, fun q hq => ?_, ?_⟩
  · rw [← ha, scalarAddr, scalarOffset, Nat.add_assoc]
  · have stored : readByte (storeBytes s a bs) (a + i) = bs[i] :=
      (readByte_storeBytes ..).trans (readByte_writeBytes_inside s a bs i (by omega))
    subst hbs
    exact stored.trans (getElem_leBytes ..)
  · have outside := sameBytesOutside_storeBytes s a bs
    rwa [len] at outside
  · exact onlyTaskCtxs_setRun (frame.onlyMeet.ctxs) x l _
  · have hits : OnlyHits (fun p => ownerAt s a = some p ∨ ownerAt s (a + 7) = some p) (writeBytes s a bs) (storeBytes s a bs) := by
      refine onlyHits_combTouch _ true false a bs.length fun p owned => ?_
      have written (b : Nat) : ownerAt (writeBytes s a bs) b = ownerAt s b := rfl
      rw [len] at owned
      rcases owned with ⟨i, hi, owned⟩ | owned
      · rcases mem_linesOf (by omega) hi with rfl | rfl
        · exact .inl (by rwa [ownerAt_line] at owned)
        · exact .inr (by rwa [ownerAt_line] at owned)
      · exact .inl owned
    exact (hits q hq).trans rfl
  · unfold OnlyComb at frame
    show setRun (storeBytes s a bs) x l _ = _
    unfold setRun setCore setCtx
    rw [frame]
    rfl

theorem kLd_results {s : State} {x l : Nat} {r : Running} {f : Flight} {gd gb : GReg} {ts : TReg} {a : Nat}
    (h : Held s x l r f (.kLd gd ts gb)) (ecc : List EccEvent)
    (ha : a = (handleOf s x l (f.regs.getT ts).handle).base + (f.regs.getT ts).offset + (f.regs.getG gb).toNat) :
    (poisoned (eccApply s (f.regs.getT ts).handle a 8 ecc) a 8 = false →
      ∃ t r' v, exec (.kLd x l ecc) s = .next t ∧ getRun t x l = some r' ∧ Stepped r r' f (f.pc + 8)
        ∧ WroteG r.regs r'.regs gd v ∧ (∀ i, i < 8 → BitVec.ofNat 8 (v.toNat / 2 ^ (8 * i)) = readByte s (a + i))
        ∧ SameBytes s t ∧ OnlyTaskCtxs s t x l)
    ∧ (poisoned (eccApply s (f.regs.getT ts).handle a 8 ecc) a 8 = true → r.task.kind = .plain →
      ∃ t r', exec (.kLd x l ecc) s = .next t ∧ (getCtx t x).st = .faulted ∧ getRun t x l = some r'
        ∧ r' = { r with seq := none } ∧ SameBytes s t) := by
  have place : scalarAddr s x l f ts gb = a := by rw [ha, scalarAddr, scalarOffset, Nat.add_assoc]
  have run := exec_kLd h ecc
  rw [place] at run
  generalize hm : combTouch (eccApply s (f.regs.getT ts).handle a 8 ecc) false false a 8 = m at run
  have frame : OnlyMeet s m := by
    rw [← hm]
    exact (onlyMeet_eccApply ..).trans (onlyComb_combTouch ..).onlyMeet
  have poison : poisoned m a 8 = poisoned (eccApply s (f.regs.getT ts).handle a 8 ecc) a 8 :=
    poisoned_congr (by rw [← hm, combTouch_poison]) a 8
  have bytes (t : State) (ht : t.mem = m.mem) : SameBytes s t := fun b => readByte_congr (ht.trans frame.mem) b
  rw [← poison]
  refine ⟨fun clean => ?_, fun bad plain => ?_⟩
  · rw [loadStep, if_neg (by simp [clean])] at run
    obtain ⟨r', task, _, stepped, regs⟩ := stepSeq_spec m x l r f fun g => g.setG gd (wordAt m a)
    refine ⟨_, r', wordAt s a, run, task, stepped, ?_, fun i hi => byte_wordAt s a i hi, bytes _ rfl,
      onlyTaskCtxs_setRun frame.ctxs x l _⟩
    rw [regs, wordAt_congr frame.mem]
    exact wroteG_setG ..
  · rw [loadStep, if_pos bad, faultInstr_plain (by rwa [taskKindOf_setRun])] at run
    refine ⟨_, _, run, ?_, (getRun_faultCtx ..).trans (getRun_setRun ..), rfl, bytes _ ?_⟩
    · rw [getCtx_faultCtx_running]
      rw [runningCtx_setRun, runningCtx_congr frame.ctxs]
      exact runningCtx_of_seqAt h.1
    · rw [faultCtx_frame]
      rfl

/-- Settles O11: the two instructions' own accesses, with the frame of the comb store and of the memory errors met. -/
theorem scalarMemoryResults : Obligations.ScalarMemoryResults :=
  ⟨fun _ _ _ _ _ _ _ _ h => kSt_results h, fun _ _ _ _ _ _ _ _ ecc _ h ha => kLd_results h ecc ha⟩

end Sys2Proof.Machine
end

section
/-! The fetch of an instruction (R43, R46): the judgement falls after the errors that the fetch itself meets are counted. -/

namespace Sys2Proof.Machine

/-! A state that refutes O13. Its context names partition 28, whose MEM_HBM_SET would be the register MEM_ECC_CORR: a corrected error
that the fetch meets is counted there, and moves the pseudo-channel that the K.LD reads out of the partition's memory between the
judgement that the statement names and the one that the fetch makes. -/

/-- The K.LD fetched at address 64, through descriptor register t1. -/
def farLoad : CWord := ⟨0, 0, false, 0, .kLd 1 1 0⟩

/-- A task at address 64 of its CODE region, its t1 at the start of handle 2. -/
def farTask : Running :=
  let r := Running.begin_ ⟨0, [], 0, 0, none, .plain, .none⟩ 0 4096
  { r with pc := 64, regs := r.regs.setT 1 ⟨0x3F80000000000002, 0, 0x0000040000200001, 0⟩ }

/-- Context 0 RUNNING that task in partition 28; MEM_ECC_CORR reads as a set of one pseudo-channel, number 0. -/
def farState : State :=
  { State.reset with
    ctxs := [(0, { Ctx.free with st := .running, part := 28, handles := [(2, mkHandle 0 1 true false false 4096)]
                                 cores := [(0, { CoreCtx.none with run := some farTask })] })]
    mem := [(68, 17), (71, 8)]
    regs := [(Reg.MEM_ECC_CORR, 512)] }

/-- A corrected error in the unit of the word fetched. -/
def farError : List EccEvent := [⟨64, .corrected, 0⟩]

/-- Whether the sequencer of core 0 of context 0 holds an instruction after a step. -/
def holdsAfter (c : Instr) (s : State) : Bool :=
  match exec c s with
  | .next t => ((getRun t 0 0).bind (·.seq)).isSome
  | _ => false

theorem farState_fetches :
    getRun farState 0 0 = some farTask ∧ runningCtx farState 0 = true ∧ coreHeld farState 0 0 = false
    ∧ farTask.pc + 8 ≤ farTask.base + farTask.size ∧ poisoned (fetchMeet farState farTask farError) farTask.pc 8 = false
    ∧ decodeCynal (wordAt farState farTask.pc) = some farLoad ∧ farTask.postRoom farLoad.post = true := by
  decide +kernel

/-- Judged before the error is counted, the K.LD goes on. -/
theorem judge_farState : judge farState 0 0 farTask farLoad = .goes true :=
  Tests.goes_eq (by unfold Tests.Goes; decide +kernel)

/-- Fetched with the error, it is refused. -/
theorem holdsAfter_farState : holdsAfter (.instructionFetch 0 0 farError) farState = false := by decide +kernel

/-- Refutes O13: `farState` meets the first clause's premises, and its fetch refuses the K.LD that the clause says is issued. -/
theorem not_issueStartAndPost : ¬ Obligations.IssueStartAndPost := by
  unfold Obligations.IssueStartAndPost
  rintro ⟨fetches, -⟩
  obtain ⟨task, running, free, inside, clean, word, room⟩ := farState_fetches
  obtain ⟨issued, -⟩ := fetches farState _ 0 0 farTask farLoad true farError task running rfl free rfl rfl rfl inside clean word
    (fun o h => by rcases h with h | h <;> cases h) judge_farState room
  obtain ⟨t, f, step, -, held, -⟩ := issued rfl
  have : holdsAfter (.instructionFetch 0 0 farError) farState = true := by
    unfold holdsAfter
    rw [step]
    simp only [held, Option.bind_some, Option.isSome_some]
  rw [holdsAfter_farState] at this
  contradiction

end Sys2Proof.Machine
end

section
/-! Tasks start on a core (R31, R114), and an idle context takes its slice (R27). -/

namespace Sys2Proof.Machine

/-! ### What a core sees of its context -/

/-- The handles of a core are those of its context's manifest. -/
theorem handleOf_congr {s t : State} {x : Nat} (man : (getCtx t x).man = (getCtx s x).man)
    (scratch : (getCtx t x).scratch = (getCtx s x).scratch) (handles : (getCtx t x).handles = (getCtx s x).handles) (l h : Nat) :
    handleOf t x l h = handleOf s x l h := by
  unfold handleOf
  dsimp only
  rw [man, scratch, handles]

@[simp] theorem handleOf_setCore (s : State) (x l : Nat) (k : CoreCtx) (m h : Nat) :
    handleOf (setCore s x l k) x m h = handleOf s x m h := by
  apply handleOf_congr <;> rw [getCtx_setCore]

@[simp] theorem handleOf_setRun (s : State) (x l : Nat) (r : Option Running) (m h : Nat) :
    handleOf (setRun s x l r) x m h = handleOf s x m h := handleOf_setCore ..

theorem getCtx_of_ctxs {s t : State} (h : t.ctxs = s.ctxs) (x : Nat) : getCtx t x = getCtx s x := by
  rw [getCtx, getCtx, h]

theorem getCore_of_ctxs {s t : State} (h : t.ctxs = s.ctxs) (x l : Nat) : getCore t x l = getCore s x l := by
  rw [getCore, getCore, getCtx_of_ctxs h]

theorem getRun_of_ctxs {s t : State} (h : t.ctxs = s.ctxs) (x l : Nat) : getRun t x l = getRun s x l := by
  rw [getRun, getRun, getCore_of_ctxs h]

theorem handleOf_of_ctxs {s t : State} (h : t.ctxs = s.ctxs) (x l n : Nat) : handleOf t x l n = handleOf s x l n := by
  apply handleOf_congr <;> rw [getCtx_of_ctxs h]

/-- The check of an entry reads handles alone. -/
theorem entryCheck_congr {s t : State} {x l : Nat} (h : ∀ n, handleOf t x l n = handleOf s x l n) (w : Word) :
    entryCheck t x l w = entryCheck s x l w := by
  unfold entryCheck
  rw [h]

/-! ### The start of a task -/

theorem markStarted_frame (s : State) (k : TaskKind) : markStarted s k = { s with rings := (markStarted s k).rings } := by
  unfold markStarted
  split
  · dsimp only
    split <;> rfl
  · rfl

theorem freshScratch_frame (s : State) (x l : Nat) :
    freshScratch s x l = { s with mem := (freshScratch s x l).mem, poison := (freshScratch s x l).poison, free := (freshScratch s x l).free } := by
  unfold freshScratch
  split <;> rfl

/-- A task whose entry passes the check stands on its core; the rest of the contexts and the registers are as they were. -/
theorem startTask_spec (s : State) (x l : Nat) (k : Task) (ok : entryCheck s x l k.entry = none) :
    ∃ m, m.ctxs = s.ctxs ∧ m.regs = s.regs
      ∧ startTask s x l k = setRun m x l (some (Running.begin_ k (handleOf s x l (entryHandle k.entry)).base
          (handleOf s x l (entryHandle k.entry)).size)) := by
  have marked := markStarted_frame s k.kind
  have fresh := freshScratch_frame (markStarted s k.kind) x l
  have ctxs : (freshScratch (markStarted s k.kind) x l).ctxs = s.ctxs := by rw [fresh, marked]
  refine ⟨freshScratch (markStarted s k.kind) x l, ctxs, by rw [fresh, marked], ?_⟩
  have check (r : Option Running) : entryCheck (setRun (freshScratch (markStarted s k.kind) x l) x l r) x l k.entry = none :=
    (entryCheck_congr (fun n => by rw [handleOf_setRun, handleOf_of_ctxs ctxs]) _).trans ok
  unfold startTask
  simp only [check]

/-- The registers of a task that starts. -/
theorem getG_start (args : List Word) (g : GReg) :
    (TaskRegs.start args).getG g = if 1 ≤ g.val ∧ g.val ≤ 8 then args.getD (g.val - 1) 0 else 0 := by
  unfold TaskRegs.getG TaskRegs.start
  by_cases h : g = 0
  · subst h
    simp
  · simp [h]

theorem startedTask_begin (s : State) (x l : Nat) (k : Task) :
    StartedTask s x l (Running.begin_ k (handleOf s x l (entryHandle k.entry)).base (handleOf s x l (entryHandle k.entry)).size) k := by
  refine ⟨rfl, rfl, getG_start k.args, fun d => ?_, fun p => ?_, fun n => ?_⟩
  · simp [Running.begin_, TaskRegs.getT, TaskRegs.start]
  · by_cases h : p = 0
    · simp [TaskRegs.getP, h]
    · simp [Running.begin_, TaskRegs.getP, TaskRegs.start, h]
  · by_cases h : n < 32 <;> simp [Running.begin_, Running.token, Vector.getD, h]

/-- What the start of a task leaves, in terms of a state with the same handles. -/
theorem startTask_results {s t : State} {x l : Nat} {k : Task} (same : ∀ n, handleOf t x l n = handleOf s x l n)
    (ok : entryCheck s x l k.entry = none) :
    ∃ q, getRun (startTask t x l k) x l = some q ∧ StartedTask s x l q k
      ∧ getCore (startTask t x l k) x l = { getCore t x l with run := some q }
      ∧ (∀ m, m ≠ l → getCore (startTask t x l k) x m = getCore t x m)
      ∧ (startTask t x l k).regs = t.regs := by
  obtain ⟨m, ctxs, regs, eq⟩ := startTask_spec t x l k ((entryCheck_congr same _).trans ok)
  rw [eq, same]
  refine ⟨_, getRun_setRun .., startedTask_begin s x l k, ?_, fun n hn => ?_, regs⟩
  · rw [setRun, getCore_setCore, getCore_of_ctxs ctxs]
  · rw [setRun, getCore_setCore_core m x _ hn, getCore_of_ctxs ctxs]

/-! ### The forager (R114, R118) -/

/-- A core that runs a task takes no other. -/
theorem dispatchCore_busy {s : State} {x l : Nat} (h : (getRun s x l).isSome = true) : dispatchCore s x l = s := by
  obtain ⟨r, hr⟩ := Option.isSome_iff_exists.mp h
  unfold getRun at hr
  unfold dispatchCore
  simp only [hr]

/-- With an empty deque there is nothing to take. -/
theorem dispatchCore_empty {s : State} {x l : Nat} (h : (getCore s x l).deque = []) : dispatchCore s x l = s := by
  unfold dispatchCore
  simp only [h]
  cases (getCore s x l).run <;> rfl

/-- An idle core of the running context takes the task at the near end of its deque. -/
theorem dispatchCore_takes {s : State} {x l : Nat} {k : Task} {ks : List Task} (run : getRun s x l = none)
    (deque : (getCore s x l).deque = k :: ks) (running : runningCtx s x = true) :
    dispatchCore s x l = startTask (setCore s x l { getCore s x l with deque := ks }) x l k := by
  unfold getRun at run
  unfold dispatchCore
  simp only [run, deque, running, if_true]

theorem runningCtx_setCore (s : State) (x l : Nat) (k : CoreCtx) (y : Nat) : runningCtx (setCore s x l k) y = runningCtx s y := by
  by_cases h : y = x
  · subst h
    rw [runningCtx, getCtx_setCore]
    rfl
  · rw [runningCtx, setCore, getCtx_setCtx_other s _ h]
    rfl

end Sys2Proof.Machine
end

section
/-! Tasks end, are stolen and are released from hold; slices pass from context to context (R27, R114, R118 to R121, R203). -/

namespace Sys2Proof.Machine

/-! ### The end of a task -/

theorem exec_taskEndComplete {s : State} {x l : Nat} {r : Running} (run : getRun s x l = some r) (ended : r.ended = true)
    (quiet : r.quiet = true) (seq : r.seq = none) (running : runningCtx s x = true) :
    exec (.taskEndComplete x l) s = .next (endTask s x l r) := by
  show execTaskEndComplete x l s = _
  have spent : taskOver r = true := by simp [taskOver, ended, quiet, seq]
  simp only [execTaskEndComplete, run, spent, running, Bool.and_self, if_true]

/-- A plain task that is bound to nothing leaves its core alone. -/
theorem endTask_plain {s : State} {x l : Nat} {r : Running} (kind : r.task.kind = .plain) (bound : r.task.bound = .none) :
    endTask s x l r = dispatchCore (setRun s x l none) x l := by
  unfold endTask kindEnded boundEnded
  rw [kind, bound]

@[simp] theorem getCore_setRun (s : State) (x l : Nat) (r : Option Running) :
    getCore (setRun s x l r) x l = { getCore s x l with run := r } := by
  rw [setRun, getCore_setCore]

theorem getCore_setRun_core (s : State) (x : Nat) {l m : Nat} (r : Option Running) (h : m ≠ l) :
    getCore (setRun s x l r) x m = getCore s x m := getCore_setCore_core s x _ h

theorem taskEnd_results {s : State} {x l : Nat} {r : Running} (run : getRun s x l = some r) (ended : r.ended = true)
    (quiet : r.quiet = true) (seq : r.seq = none) (running : runningCtx s x = true) :
    exec (.taskEndComplete x l) s
        = .next (dispatchCore (boundEnded (kindEnded (setRun s x l none) x l r) x r.task.bound) x l)
    ∧ (r.task.kind = .plain → r.task.bound = .none → (getCore s x l).deque = [] →
      ∃ t, exec (.taskEndComplete x l) s = .next t ∧ getRun t x l = none ∧ OnlyTask s t x l)
    ∧ (∀ k ks, r.task.kind = .plain → r.task.bound = .none → (getCore s x l).deque = k :: ks →
      entryCheck s x l k.entry = none →
      ∃ t q, exec (.taskEndComplete x l) s = .next t ∧ getRun t x l = some q ∧ StartedTask s x l q k
        ∧ (getCore t x l).deque = ks ∧ ∀ m, m ≠ l → getCore t x m = getCore s x m)
    ∧ (∀ c, r.task.kind = .plain → r.task.bound = .cell c →
      exec (.taskEndComplete x l) s = .next (dispatchCore (cellTaskEnded (setRun s x l none) c) x l)) := by
  have step := exec_taskEndComplete run ended quiet seq running
  refine ⟨step, fun kind bound empty => ?_, fun k ks kind bound deque ok => ?_, fun c kind bound => ?_⟩
  · rw [step, endTask_plain kind bound, dispatchCore_empty (by rw [getCore_setRun]; exact empty)]
    exact ⟨_, rfl, getRun_setRun .., by rw [OnlyTask, getRun_setRun]⟩
  · rw [step, endTask_plain kind bound, dispatchCore_takes (getRun_setRun ..) (by rw [getCore_setRun]; exact deque) (by simpa using running)]
    obtain ⟨q, on, started, core, others, -⟩ := startTask_results
      (t := setCore (setRun s x l none) x l { getCore (setRun s x l none) x l with deque := ks }) (fun n => by simp) ok
    refine ⟨_, q, rfl, on, started, ?_, fun m hm => ?_⟩
    · rw [core, getCore_setCore]
    · rw [others m hm, getCore_setCore_core _ x _ hm, getCore_setRun_core s x _ hm]
  · rw [step]
    simp only [endTask, kindEnded, kind, boundEnded, bound]

/-! ### Stealing -/

/-- The state once a task has left the victim's deque and the steal is counted. -/
def robbed (s : State) (x thief v : Nat) (d : List Task) : State :=
  let p := (getCtx s x).part
  bump (setCore s x v { getCore s x v with deque := d }) (Reg.PLC_STEALS p)
    (if dieOf (physCore s p v) = dieOf (physCore s p thief) then Fld.PLC_STEALS_SAME_DIE else Fld.PLC_STEALS_CROSS_DIE) 1

theorem exec_foragerSteal {s : State} {x thief v : Nat} {k : Task} {d : List Task}
    (steal : flg s Reg.PLC_CTL Fld.PLC_CTL_STEAL = true) (running : runningCtx s x = true) (idle : getRun s x thief = none)
    (empty : (getCore s x thief).deque = []) (inside : thief < (coresOf s (getCtx s x).part).length)
    (found : (probeOrder s x thief).findSome? (fun v => (takeFar thief (getCore s x v).deque).map (fun e => (v, e.1, e.2)))
      = some (v, k, d)) :
    exec (.foragerSteal x thief) s
      = .next (if (getSlice s (getCtx s x).part).left = 0
          then setCore (robbed s x thief v d) x thief { getCore (robbed s x thief v d) x thief with deque := [k] }
          else startTask (robbed s x thief v d) x thief k) := by
  show execForagerSteal x thief s = _
  unfold getRun at idle
  simp only [execForagerSteal, steal, running, idle, empty, inside, found, Option.isNone_none, List.isEmpty_nil, decide_true,
    Bool.and_self, if_true]
  exact (apply_ite Host.Outcome.next _ _ _).symm

theorem takeFar_nil (l : Nat) : takeFar l [] = none := rfl

/-- The victim has a task to give, which the thief has not. -/
theorem victim_ne_thief {s : State} {x thief v : Nat} {k : Task} {d : List Task} (empty : (getCore s x thief).deque = [])
    {vs : List Nat} (found : vs.findSome? (fun v => (takeFar thief (getCore s x v).deque).map (fun e => (v, e.1, e.2))) = some (v, k, d)) :
    v ≠ thief := by
  obtain ⟨u, -, taken⟩ := List.exists_of_findSome?_eq_some found
  rintro rfl
  obtain ⟨e, far, same⟩ := Option.map_eq_some_iff.mp taken
  obtain rfl : u = v := congrArg Prod.fst same
  rw [empty, takeFar_nil] at far
  contradiction

theorem getCore_bump (s : State) (a : Nat) (f : Fld) (n x l : Nat) : getCore (bump s a f n) x l = getCore s x l := rfl

theorem getCore_robbed_victim (s : State) (x thief v : Nat) (d : List Task) :
    getCore (robbed s x thief v d) x v = { getCore s x v with deque := d } := by
  rw [robbed, getCore_bump, getCore_setCore]

theorem getCore_robbed_other (s : State) (x thief : Nat) {v m : Nat} (d : List Task) (h : m ≠ v) :
    getCore (robbed s x thief v d) x m = getCore s x m := by
  rw [robbed, getCore_bump, getCore_setCore_core s x _ h]

theorem handleOf_robbed (s : State) (x thief v : Nat) (d : List Task) (l n : Nat) :
    handleOf (robbed s x thief v d) x l n = handleOf s x l n :=
  (handleOf_of_ctxs (s := setCore s x v { getCore s x v with deque := d }) rfl x l n).trans (handleOf_setCore ..)

/-- A counter that counts nothing stays, where it fits its field. -/
theorem satAdd_zero {w a : Nat} (h : a < 2 ^ w) : satAdd w a 0 = a := by
  unfold satAdd
  omega

theorem fld_lt (s : State) (a : Nat) (f : Fld) : fld s a f < 2 ^ f.w := by
  have := Nat.two_pow_pos f.w
  unfold fld getF
  exact Nat.mod_lt _ this

/-- The steal counts in the field of its kind, and the other field stays. -/
theorem fld_robbed (s : State) (x thief v : Nat) (d : List Task) :
    let p := (getCtx s x).part
    let near := decide (dieOf (physCore s p v) = dieOf (physCore s p thief))
    fld (robbed s x thief v d) (Reg.PLC_STEALS p) Fld.PLC_STEALS_SAME_DIE
        = satAdd 32 (fld s (Reg.PLC_STEALS p) Fld.PLC_STEALS_SAME_DIE) (if near then 1 else 0)
      ∧ fld (robbed s x thief v d) (Reg.PLC_STEALS p) Fld.PLC_STEALS_CROSS_DIE
        = satAdd 32 (fld s (Reg.PLC_STEALS p) Fld.PLC_STEALS_CROSS_DIE) (if near then 0 else 1) := by
  intro p near
  have counted (f : Fld) (hf : f.lo + f.w ≤ 64) (t : State) :
      fld (bump t (Reg.PLC_STEALS p) f 1) (Reg.PLC_STEALS p) f = satAdd f.w (fld t (Reg.PLC_STEALS p) f) 1 := by
    rw [bump, fld_setFld_same _ _ _ _ hf, Nat.mod_eq_of_lt (satAdd_lt ..)]
  by_cases h : dieOf (physCore s p v) = dieOf (physCore s p thief)
  · have eq : robbed s x thief v d
        = bump (setCore s x v { getCore s x v with deque := d }) (Reg.PLC_STEALS p) Fld.PLC_STEALS_SAME_DIE 1 :=
      congrArg (bump _ _ · 1) (if_pos h)
    rw [eq, show near = true from decide_eq_true h]
    refine ⟨counted _ (by decide) _, ?_⟩
    rw [bump, fld_setFld_apart _ _ _ _ _ (by decide) (by decide)]
    exact (satAdd_zero (fld_lt ..)).symm
  · have eq : robbed s x thief v d
        = bump (setCore s x v { getCore s x v with deque := d }) (Reg.PLC_STEALS p) Fld.PLC_STEALS_CROSS_DIE 1 :=
      congrArg (bump _ _ · 1) (if_neg h)
    rw [eq, show near = false from decide_eq_false h]
    refine ⟨?_, counted _ (by decide) _⟩
    rw [bump, fld_setFld_apart _ _ _ _ _ (by decide) (by decide)]
    exact (satAdd_zero (fld_lt ..)).symm

theorem sameRegsBut_robbed (s : State) (x thief v : Nat) (d : List Task) :
    SameRegsBut s (robbed s x thief v d) [Reg.PLC_STEALS (getCtx s x).part] :=
  fun a ha => (sameRegsBut_bump _ _ _ _ a ha).trans (rd_congr rfl a)

theorem steal_results {s : State} {x thief v : Nat} {k : Task} {d : List Task}
    (steal : flg s Reg.PLC_CTL Fld.PLC_CTL_STEAL = true) (running : runningCtx s x = true) (idle : getRun s x thief = none)
    (empty : (getCore s x thief).deque = []) (inside : thief < (coresOf s (getCtx s x).part).length)
    (found : (probeOrder s x thief).findSome? (fun v => (takeFar thief (getCore s x v).deque).map (fun e => (v, e.1, e.2)))
      = some (v, k, d)) (ok : entryCheck s x thief k.entry = none) :
    ∃ t, exec (.foragerSteal x thief) s = .next t ∧ v ≠ thief ∧ (getCore t x v).deque = d
      ∧ ((getSlice s (getCtx s x).part).left ≠ 0 →
        ∃ q, getRun t x thief = some q ∧ StartedTask s x thief q k ∧ (getCore t x thief).deque = [])
      ∧ ((getSlice s (getCtx s x).part).left = 0 →
        getRun t x thief = none ∧ (getCore t x thief).deque = [k] ∧ SameBytes s t)
      ∧ t.regs = (robbed s x thief v d).regs := by
  have other := victim_ne_thief empty found
  rw [exec_foragerSteal steal running idle empty inside found]
  by_cases spent : (getSlice s (getCtx s x).part).left = 0
  · refine ⟨_, rfl, other, ?_, fun h => absurd spent h, fun _ => ⟨?_, ?_, fun _ => ?_⟩, ?_⟩
    all_goals simp only [spent, if_true]
    · rw [getCore_setCore_core _ x _ other, getCore_robbed_victim]
    · rw [getRun, getCore_setCore, getCore_robbed_other s x thief d (Ne.symm other)]
      exact idle
    · rw [getCore_setCore]
    · rfl
    · rfl
  · obtain ⟨q, on, started, core, others, regs⟩ := startTask_results (fun n => handleOf_robbed s x thief v d thief n) ok
    refine ⟨_, rfl, other, ?_, fun _ => ⟨q, ?_, started, ?_⟩, fun h => absurd h spent, ?_⟩
    all_goals simp only [spent, if_false]
    · rw [others v other, getCore_robbed_victim]
    · exact on
    · rw [core, getCore_robbed_other s x thief d (Ne.symm other)]
      exact empty
    · exact regs

/-! ### Spawns held for want of room -/

theorem exec_heldSpawnRelease {s : State} {x l : Nat} {near : Bool} {k : Task} {hs : List (Bool × Task)}
    (held : (getCore s x l).held = (near, k) :: hs) (room : dequeRoom s x l = true) :
    exec (.heldSpawnRelease x l) s = .next (dispatchCore (setCore s x l
      { getCore s x l with held := hs, deque := if near then k :: (getCore s x l).deque else (getCore s x l).deque ++ [k] }) x l) := by
  show execHeldSpawnRelease x l s = _
  simp only [execHeldSpawnRelease, held, room, if_true, pushTask, getCore_setCore, setCore_setCore]

theorem release_results {s : State} {x l : Nat} {near : Bool} {k : Task} {hs : List (Bool × Task)}
    (held : (getCore s x l).held = (near, k) :: hs) (room : dequeRoom s x l = true) :
    ((getRun s x l).isSome →
      ∃ t, exec (.heldSpawnRelease x l) s = .next t ∧ OnlyCore s t x l ∧ (getCore t x l).held = hs
        ∧ (getCore t x l).deque = (if near then k :: (getCore s x l).deque else (getCore s x l).deque ++ [k])
        ∧ getRun t x l = getRun s x l ∧ (getCore t x l).arrays = (getCore s x l).arrays)
    ∧ (getRun s x l = none → (getCore s x l).deque = [] → runningCtx s x = true → entryCheck s x l k.entry = none →
      ∃ t q, exec (.heldSpawnRelease x l) s = .next t ∧ getRun t x l = some q ∧ StartedTask s x l q k
        ∧ (getCore t x l).held = hs ∧ (getCore t x l).deque = []) := by
  have step := exec_heldSpawnRelease held room
  refine ⟨fun busy => ?_, fun idle empty running ok => ?_⟩
  · rw [step, dispatchCore_busy (by rw [getRun, getCore_setCore]; exact busy)]
    refine ⟨_, rfl, ?_, ?_⟩
    · rw [OnlyCore, getCore_setCore]
    · rw [getRun, getCore_setCore]
      exact ⟨rfl, rfl, rfl, rfl⟩
  · have alone : (if near then k :: (getCore s x l).deque else (getCore s x l).deque ++ [k]) = [k] := by
      rw [empty]
      cases near <;> rfl
    rw [step, alone, dispatchCore_takes (k := k) (ks := []) (by rw [getRun, getCore_setCore]; exact idle) (by rw [getCore_setCore])
      (by rwa [runningCtx_setCore]), setCore_setCore, getCore_setCore]
    obtain ⟨q, on, started, core, -, -⟩ := startTask_results
      (t := setCore s x l { getCore s x l with held := hs, deque := [] }) (fun n => handleOf_setCore ..) ok
    refine ⟨_, q, rfl, on, started, ?_, ?_⟩ <;> rw [core, getCore_setCore]

end Sys2Proof.Machine
end

section
/-! A partition's slice passes from context to context (R27, R29): what its start does to a context with nothing to run. -/

namespace Sys2Proof.Machine

/-! ### Entries of a table -/

/-- What a table reads is an entry of it, or what an unlisted key reads as. -/
theorem Sparse.get_mem {α : Type} (d : α) (m : List (Nat × α)) (k : Nat) : Sparse.get d m k = d ∨ (k, Sparse.get d m k) ∈ m := by
  induction m with
  | nil => exact .inl rfl
  | cons e m ih =>
    obtain ⟨j, v⟩ := e
    by_cases h : j = k
    · subst h
      exact .inr (by simp [Sparse.get])
    · have next : Sparse.get d ((j, v) :: m) k = Sparse.get d m k := by simp [Sparse.get, h]
      rw [next]
      exact ih.imp id (List.mem_cons_of_mem _)

theorem Sparse.mem_erase {α : Type} {m : List (Nat × α)} {k : Nat} {e : Nat × α} (h : e ∈ Sparse.erase k m) : e ∈ m ∧ e.1 ≠ k := by
  induction m with
  | nil => simp [Sparse.erase] at h
  | cons f m ih =>
    obtain ⟨j, v⟩ := f
    by_cases hj : j = k
    · obtain ⟨mem, ne⟩ := ih (by simpa [Sparse.erase, hj] using h)
      exact ⟨List.mem_cons_of_mem _ mem, ne⟩
    · rcases List.mem_cons.mp (show e ∈ (j, v) :: Sparse.erase k m by simpa [Sparse.erase, hj] using h) with rfl | h
      · exact ⟨List.mem_cons_self, hj⟩
      · obtain ⟨mem, ne⟩ := ih h
        exact ⟨List.mem_cons_of_mem _ mem, ne⟩

theorem Sparse.mem_insert {α : Type} {m : List (Nat × α)} {k : Nat} {v : α} {e : Nat × α} (h : e ∈ Sparse.insert k v m) :
    e = (k, v) ∨ e ∈ m := by
  induction m with
  | nil => exact .inl (by simpa [Sparse.insert] using h)
  | cons f m ih =>
    obtain ⟨j, u⟩ := f
    by_cases hj : k < j
    · simpa [Sparse.insert, hj] using h
    · rcases List.mem_cons.mp (show e ∈ (j, u) :: Sparse.insert k v m by simpa [Sparse.insert, hj] using h) with rfl | h
      · exact .inr List.mem_cons_self
      · exact (ih h).imp id (List.mem_cons_of_mem _)

/-- After a write, an entry at its key holds what was written. -/
theorem Sparse.mem_set {α : Type} [DecidableEq α] {d : α} {m : List (Nat × α)} {k : Nat} {v : α} {e : Nat × α}
    (h : e ∈ Sparse.set d m k v) : e = (k, v) ∨ (e ∈ m ∧ e.1 ≠ k) := by
  unfold Sparse.set at h
  split at h
  · exact .inr (Sparse.mem_erase h)
  · exact (Sparse.mem_insert h).imp id Sparse.mem_erase

theorem foldl_eq_self {α β : Type} {f : β → α → β} {b : β} {l : List α} (h : ∀ a ∈ l, f b a = b) : l.foldl f b = b := by
  induction l with
  | nil => rfl
  | cons a l ih =>
    rw [List.foldl_cons, h a List.mem_cons_self]
    exact ih fun c hc => h c (List.mem_cons_of_mem _ hc)

/-! ### A context with nothing to run -/

/-- A core that runs nothing and has nothing to run. -/
def CoreCtx.Rests (k : CoreCtx) : Prop := k.run = Option.none ∧ k.deque = []

/-- Every core that the state lists of a context rests. -/
def Rests (s : State) (x : Nat) : Prop := ∀ e ∈ s.ctxs, e.1 = x → ∀ k ∈ e.2.cores, k.2.Rests

theorem coreRests_none : CoreCtx.none.Rests := ⟨rfl, rfl⟩

theorem Rests.core {s : State} {x : Nat} (h : Rests s x) (l : Nat) : (getCore s x l).Rests := by
  have cores : ∀ k ∈ (getCtx s x).cores, k.2.Rests := by
    rcases Sparse.get_mem Ctx.free s.ctxs x with free | mem
    · rw [getCtx, free]
      simp [Ctx.free]
    · exact h _ mem rfl
  rcases Sparse.get_mem CoreCtx.none (getCtx s x).cores l with unlisted | mem
  · rw [getCore, unlisted]
    exact coreRests_none
  · exact cores _ mem

theorem Rests.run {s : State} {x : Nat} (h : Rests s x) (l : Nat) : getRun s x l = none := (h.core l).1

/-- A context written anew rests if the cores written do. -/
theorem rests_setCtx {s : State} {x : Nat} {c : Ctx} (h : ∀ k ∈ c.cores, k.2.Rests) : Rests (setCtx s x c) x := by
  intro e he hx
  rcases Sparse.mem_set he with rfl | ⟨-, ne⟩
  · exact h
  · exact absurd hx ne

theorem rests_setCore {s : State} {x l : Nat} {k : CoreCtx} (h : Rests s x) (rests : k.Rests) : Rests (setCore s x l k) x := by
  refine rests_setCtx fun e he => ?_
  rcases Sparse.mem_set he with rfl | ⟨mem, -⟩
  · exact rests
  · rcases Sparse.get_mem Ctx.free s.ctxs x with free | listed
    · rw [getCtx, free] at mem
      simp [Ctx.free] at mem
    · exact h _ listed rfl _ mem

/-- No instruction of a resting context is in flight. -/
theorem Rests.not_flying {s : State} {x : Nat} (h : Rests s x) : ∀ e ∈ allFlying s, e.1 ≠ x := by
  intro e he hx
  obtain ⟨⟨y, c⟩, hc, he⟩ := List.mem_flatMap.mp he
  obtain ⟨⟨l, k⟩, hk, he⟩ := List.mem_flatMap.mp he
  dsimp only at he
  split at he
  · next r run =>
    obtain ⟨f, -, rfl⟩ := List.mem_map.mp he
    have rest := (h _ hc hx _ hk).1
    rw [run] at rest
    contradiction
  · simp at he

/-- Nothing of a resting context is judged. -/
theorem judgeWaits_rests {s : State} {x : Nat} (h : Rests s x) : judgeWaits s x = s :=
  foldl_eq_self fun e he => if_neg (h.not_flying e he)

/-- No core of a resting context takes a task. -/
theorem dispatchAll_rests {s : State} {x : Nat} (h : Rests s x) : dispatchAll s x = s :=
  foldl_eq_self fun l _ => dispatchCore_empty (h.core l).2

theorem seqAt_rests {s : State} {x : Nat} (h : Rests s x) (l : Nat) : seqAt s x l = none := by
  unfold seqAt
  rw [h.run]

theorem settleBat_rests {s : State} {x : Nat} (h : Rests s x) (l : Nat) : settleBat s x l = s := by
  unfold settleBat seqExec
  rw [seqAt_rests h]

/-! ### Weight sets loaded again (R102) -/

/-- A step that changes cores of a context and nothing else, and leaves them resting. -/
def OnlyCoresResting (s t : State) (x : Nat) : Prop :=
  t = { s with ctxs := t.ctxs } ∧ (∀ y, y ≠ x → getCtx t y = getCtx s y) ∧ (getCtx t x).st = (getCtx s x).st ∧ Rests t x

theorem onlyCoresResting_reload {s : State} {x : Nat} (h : Rests s x) (l : Nat) : OnlyCoresResting s (reloadCore s x l) x := by
  refine ⟨rfl, fun y hy => getCtx_setCtx_other s _ hy, ?_, rests_setCore h (h.core l)⟩
  rw [reloadCore, getCtx_setCore]

theorem onlyCoresResting_foldl (ls : List Nat) {s : State} {x : Nat} (h : Rests s x) :
    OnlyCoresResting s (ls.foldl (fun s l => reloadCore s x l) s) x := by
  induction ls generalizing s with
  | nil => exact ⟨rfl, fun _ _ => rfl, rfl, h⟩
  | cons l ls ih =>
    obtain ⟨frame, others, st, rests⟩ := onlyCoresResting_reload h l
    obtain ⟨frame', others', st', rests'⟩ := ih rests
    refine ⟨?_, fun y hy => (others' y hy).trans (others y hy), st'.trans st, rests'⟩
    rw [List.foldl_cons, frame', frame]

/-! ### The end and the start of a slice -/

theorem exec_sliceEnd {s : State} {p x : Nat} (holds : (getSlice s p).ctx = some x) (spent : (getSlice s p).left = 0) :
    exec (.sliceEnd p) s = .next (setSlice (setCtxState s x .runnable) p ⟨none, 0, x⟩) := by
  show execSliceEnd p s = _
  simp only [execSliceEnd, holds, spent, if_true]

theorem sliceEnd_results {s : State} {p x : Nat} (holds : (getSlice s p).ctx = some x) (spent : (getSlice s p).left = 0) :
    ∃ t, exec (.sliceEnd p) s = .next t ∧ getSlice t p = ⟨none, 0, x⟩ ∧ OnlyCtxState s t x .runnable
      ∧ (∀ q, q ≠ p → getSlice t q = getSlice s q) ∧ t = { s with ctxs := t.ctxs, slices := t.slices } := by
  refine ⟨_, exec_sliceEnd holds spent, getSlice_setSlice .., ⟨?_, fun y hy => ?_⟩, fun q hq => ?_, rfl⟩
  · rw [getCtx_setSlice, setCtxState, getCtx_setCtx]
  · rw [getCtx_setSlice, setCtxState, getCtx_setCtx_other s _ hy]
  · rw [getSlice_setSlice_other _ _ hq, setCtxState, getSlice_setCtx]

theorem exec_sliceStart {s : State} {p x : Nat} (free : (getSlice s p).ctx = none) (next : nextCtx s p = some x)
    (cold : s.pins.tripped = false) : exec (.sliceStart p) s = .next (startSlice s p x) := by
  show execSliceStart p s = _
  simp only [execSliceStart, free, next, cold, Bool.false_eq_true, if_false]

/-- The context RUNNING with its slice, before its cores do anything. -/
def granted (s : State) (p x : Nat) : State := setSlice (setCtxState s x .running) p ⟨some x, sliceBeats s x, x⟩

theorem rests_granted {s : State} {p x : Nat} (idle : idleCtx s x = true) : Rests (granted s p x) x := by
  have cores : ∀ k ∈ (getCtx s x).cores, k.2.Rests := by
    intro k hk
    have := List.all_eq_true.mp idle k hk
    simp only [Bool.and_eq_true, List.isEmpty_iff, Option.isNone_iff_eq_none] at this
    exact ⟨this.2, this.1.1⟩
  exact rests_setCtx (s := s) (c := { getCtx s x with st := .running }) cores

/-- Its weight sets loaded again, where another context ran since. -/
def regranted (s : State) (p x : Nat) : State :=
  if decide ((getSlice s p).last ≠ x) then (ctxCores (granted s p x) x).foldl (fun s l => reloadCore s x l) (granted s p x)
  else granted s p x

theorem startSlice_eq (s : State) (p x : Nat) :
    startSlice s p x = (ctxCores (judgeWaits (dispatchAll (regranted s p x) x) x) x).foldl (fun s l => settleBat s x l)
      (judgeWaits (dispatchAll (regranted s p x) x) x) := rfl

/-- An idle context takes its slice and nothing else happens, but that its weight sets may load again. -/
theorem startSlice_idle {s : State} {p x : Nat} (idle : idleCtx s x = true) : OnlyCoresResting (granted s p x) (startSlice s p x) x := by
  have rests := rests_granted (p := p) idle
  have reloaded : OnlyCoresResting (granted s p x) (regranted s p x) x := by
    unfold regranted
    split
    · exact onlyCoresResting_foldl _ rests
    · exact onlyCoresResting_foldl [] rests
  obtain ⟨-, -, -, still⟩ := id reloaded
  rw [startSlice_eq, dispatchAll_rests still, judgeWaits_rests still, foldl_eq_self fun l _ => settleBat_rests still l]
  exact reloaded

theorem getSlice_of_slices {s t : State} (h : t.slices = s.slices) (p : Nat) : getSlice t p = getSlice s p := by
  rw [getSlice, getSlice, h]

theorem sliceStart_results {s : State} {p x : Nat} (free : (getSlice s p).ctx = none) (next : nextCtx s p = some x)
    (cold : s.pins.tripped = false) :
    exec (.sliceStart p) s = .next (startSlice s p x)
    ∧ (idleCtx s x = true →
      ∃ t, exec (.sliceStart p) s = .next t ∧ (getCtx t x).st = .running
        ∧ getSlice t p = ⟨some x, max 1 (fld s (Reg.PLC_SLICE x) Fld.PLC_SLICE_BEATS), x⟩
        ∧ (∀ y, y ≠ x → getCtx t y = getCtx s y) ∧ (∀ q, q ≠ p → getSlice t q = getSlice s q)
        ∧ t = { s with ctxs := t.ctxs, slices := t.slices }) := by
  have step := exec_sliceStart free next cold
  refine ⟨step, fun idle => ?_⟩
  obtain ⟨frame, others, st, -⟩ := startSlice_idle (p := p) idle
  rw [step]
  generalize startSlice s p x = t at *
  have slices : t.slices = (granted s p x).slices := by rw [frame]
  refine ⟨t, rfl, ?_, ?_, fun y hy => ?_, fun q hq => ?_, ?_⟩
  · rw [st, granted, getCtx_setSlice, setCtxState, getCtx_setCtx]
  · rw [getSlice_of_slices slices, granted, getSlice_setSlice]
    rfl
  · rw [others y hy, granted, getCtx_setSlice, setCtxState, getCtx_setCtx_other s _ hy]
  · rw [getSlice_of_slices slices, granted, getSlice_setSlice_other _ _ hq]
    rfl
  · rw [frame]
    rfl

/-- Settles O14: the end of a task, a steal, a release and the two ends of a slice, each by the state it leaves. -/
theorem tasksAndSlices : Obligations.TasksAndSlices := by
  unfold Obligations.TasksAndSlices
  refine ⟨fun s x l r run ended quiet seq running => taskEnd_results run ended quiet seq running,
    fun s x thief v k d steal running idle empty inside found ok => ?_,
    fun s x l near k hs held room => release_results held room,
    fun s p x holds spent => sliceEnd_results holds spent, fun s p x free next cold => sliceStart_results free next cold⟩
  obtain ⟨t, step, other, deque, taken, parked, regs⟩ := steal_results steal running idle empty inside found ok
  refine ⟨t, step, other, deque, taken, parked, fun a ha => (rd_congr regs a).trans (sameRegsBut_robbed s x thief v d a ha), ?_⟩
  have same (a : Nat) (f : Fld) : fld t a f = fld (robbed s x thief v d) a f := congrArg (getF f) (rd_congr regs a)
  simp only [same]
  exact fld_robbed s x thief v d

end Sys2Proof.Machine
end

section
/-! SUPPORT. The engines' instructions (R48, R155): the rows they write, the exceptions they record, and how they end. -/

namespace Sys2Proof.Machine

/-! ### Instructions in flight -/

/-- A started instruction, found by its number. -/
theorem startedAt_spec {s : State} {x l id : Nat} {r : Running} {f : Flight} (h : startedAt s x l id = some (r, f)) :
    getRun s x l = some r ∧ r.inFlight id = some f ∧ f.stage = .started := by
  unfold startedAt at h
  split at h
  · contradiction
  · next q run =>
    split at h
    · contradiction
    · next g flight =>
      split at h
      · next stage =>
        obtain ⟨rfl, rfl⟩ := Prod.mk.inj (Option.some.inj h)
        exact ⟨run, flight, stage⟩
      · contradiction

theorem id_of_inFlight {r : Running} {id : Nat} {f : Flight} (h : r.inFlight id = some f) : f.id = id := by
  simpa using List.find?_some h

/-- The instruction found is the one put back in its place. -/
theorem inFlight_putFlight {r : Running} {id : Nat} {f g : Flight} (h : r.inFlight id = some f) (hg : g.id = f.id) :
    (r.putFlight g).inFlight id = some g := by
  have hid := id_of_inFlight h
  unfold Running.inFlight at h
  unfold Running.inFlight Running.putFlight
  dsimp only
  generalize r.flying = flying at h ⊢
  induction flying with
  | nil => simp at h
  | cons e es ih =>
    by_cases he : e.id = id
    · obtain rfl : e = f := by simpa [he] using h
      simp [hg, hid]
    · have rest : es.find? (fun f => f.id == id) = some f := by simpa [he] using h
      have keep : (if e.id = g.id then g else e) = e := if_neg (by rwa [hg, hid])
      rw [List.map_cons, keep, List.find?_cons_of_neg (by simpa using he)]
      exact ih rest

theorem markExecuted_eq {s : State} {x l id : Nat} {r : Running} {f : Flight} (run : getRun s x l = some r)
    (flight : r.inFlight id = some f) :
    markExecuted s x l id = setRun s x l (some (r.putFlight { f with stage := .executed })) := by
  simp only [markExecuted, run, flight]

theorem executed_markExecuted {s : State} {x l id : Nat} {r : Running} {f : Flight} (run : getRun s x l = some r)
    (flight : r.inFlight id = some f) : Executed (markExecuted s x l id) x l id := by
  rw [markExecuted_eq run flight]
  exact ⟨_, _, getRun_setRun .., inFlight_putFlight flight rfl, rfl⟩

/-- An instruction removed is no longer found. -/
theorem inFlight_dropFlight (r : Running) (id : Nat) : (r.dropFlight id).inFlight id = none := by
  simp [Running.dropFlight, Running.inFlight]

theorem abandonFlight_eq {s : State} {x l id : Nat} {r : Running} (run : getRun s x l = some r) :
    abandonFlight s x l id = setRun s x l (some (r.dropFlight id)) := by
  simp only [abandonFlight, run]

/-! ### Rows written to memory -/

/-- All that the rows of an engine change: memory, its poison, and NF. -/
def OnlyRows (s t : State) : Prop := t = { s with mem := t.mem, poison := t.poison, train := t.train }

theorem OnlyRows.trans {s t u : State} (h : OnlyRows s t) (k : OnlyRows t u) : OnlyRows s u := by
  unfold OnlyRows at *
  rw [k, h]

theorem onlyRows_markNf (s : State) (x h : Nat) (bad : Bool) : OnlyRows s (markNf s x h bad) := by
  unfold markNf
  extract_lets
  split <;> rfl

theorem onlyRows_foldl (base : Nat) (d : Desc) (rows : List RowOut) (s : State) : OnlyRows s (rows.foldl (writeRow base d) s) := by
  induction rows generalizing s with
  | nil => rfl
  | cons o rows ih => exact OnlyRows.trans (t := writeRow base d s o) rfl (ih _)

theorem onlyRows_writeRows (s : State) (x l : Nat) (d : Desc) (rows : List RowOut) : OnlyRows s (writeRows s x l d rows) :=
  (onlyRows_markNf ..).trans (onlyRows_foldl ..)

theorem mem_writeRow_congr {s t : State} (h : t.mem = s.mem) (base : Nat) (d : Desc) (o : RowOut) :
    (writeRow base d t o).mem = (writeRow base d s o).mem := by
  simp [writeRow, writeBytes, h]

/-- Memory after rows were written depends on memory alone. -/
theorem mem_foldl_writeRow_congr {s t : State} (h : t.mem = s.mem) (base : Nat) (d : Desc) (rows : List RowOut) :
    (rows.foldl (writeRow base d) t).mem = (rows.foldl (writeRow base d) s).mem := by
  induction rows generalizing s t with
  | nil => exact h
  | cons o rows ih => exact ih (mem_writeRow_congr h base d o)

theorem readByte_writeRow {s : State} {base : Nat} {d : Desc} {o : RowOut} {a : Nat} (h : ¬ rowHits base d o a) :
    readByte (writeRow base d s o) a = readByte s a := by
  unfold rowHits at h
  rw [writeRow, readByte_writeBytes_outside _ _ _ _ (by tauto), readByte_writeBytes_outside _ _ _ _ (by tauto)]

theorem readByte_foldl_writeRow {base : Nat} {d : Desc} {rows : List RowOut} (s : State) {a : Nat}
    (h : ∀ o ∈ rows, ¬ rowHits base d o a) : readByte (rows.foldl (writeRow base d) s) a = readByte s a := by
  induction rows generalizing s with
  | nil => rfl
  | cons o rows ih =>
    exact (ih _ fun o' ho => h o' (List.mem_cons_of_mem _ ho)).trans (readByte_writeRow (h o List.mem_cons_self))

/-- Rows written through a descriptor, in a state with the same memory and handles. -/
theorem wroteRows_writeRows {s m : State} (mem : m.mem = s.mem) (ctxs : m.ctxs = s.ctxs) (x l : Nat) (d : Desc) (rows : List RowOut) :
    WroteRows s (writeRows m x l d rows) x l d rows := by
  have same : (writeRows m x l d rows).mem = (rows.foldl (writeRow (handleOf s x l d.handle).base d) s).mem := by
    rw [writeRows, handleOf_of_ctxs ctxs]
    exact mem_foldl_writeRow_congr ((markNf_mem ..).trans mem) ..
  exact ⟨same, fun a ha => (readByte_congr same a).trans (readByte_foldl_writeRow s ha)⟩

theorem WroteRows.congr {s t u : State} {x l : Nat} {d : Desc} {rows : List RowOut} (h : WroteRows s t x l d rows)
    (mem : u.mem = t.mem) : WroteRows s u x l d rows :=
  ⟨mem.trans h.1, fun a ha => (readByte_congr mem a).trans (h.2 a ha)⟩

/-! ### Exceptions recorded (R82 to R88) -/

/-- All that exceptions recorded for core `l` of context `x` change: the core's exception registers, and records. -/
def OnlyNum (x l : Nat) (s t : State) : Prop :=
  t = { s with regs := t.regs, recs := t.recs, recSeq := t.recSeq, thrLogged := t.thrLogged } ∧ SameRegsBut s t (numRegs s x l)

theorem OnlyNum.refl (x l : Nat) (s : State) : OnlyNum x l s s := ⟨rfl, fun _ _ => rfl⟩

theorem OnlyNum.numRegs {x l : Nat} {s t : State} (h : OnlyNum x l s t) : numRegs t x l = numRegs s x l := by
  rw [h.1]
  rfl

theorem OnlyNum.trans {x l : Nat} {s t u : State} (h : OnlyNum x l s t) (k : OnlyNum x l t u) : OnlyNum x l s u := by
  have core := h.numRegs
  obtain ⟨frame, regs⟩ := h
  obtain ⟨frame', regs'⟩ := k
  exact ⟨by rw [frame', frame], fun a ha => (regs' a (by rwa [core])).trans (regs a ha)⟩

/-- A record changes no register. -/
theorem onlyNum_raise (x l : Nat) (s : State) (r : ErrRec) : OnlyNum x l s (raise s r) := ⟨rfl, fun _ _ => rfl⟩

theorem onlyNum_wr {x l : Nat} (s : State) {a : Nat} (w : Word) (h : a ∈ numRegs s x l) : OnlyNum x l s (wr s a w) :=
  ⟨rfl, fun _ hb => rd_wr_other s w (fun e => hb (e ▸ h))⟩

theorem onlyNum_countNum (s : State) (by_ : NumBy) (core reg : Nat) (cnt thr : Fld) (code n : Nat)
    (h : reg ∈ numRegs s by_.x by_.l) : OnlyNum by_.x by_.l s (countNum s by_ core reg cnt thr code n) := by
  have counted : OnlyNum by_.x by_.l s (bump s reg cnt n) := onlyNum_wr s _ h
  unfold countNum
  split
  · exact OnlyNum.refl ..
  · dsimp only
    split
    · exact (counted.trans (onlyNum_raise ..)).trans ⟨rfl, fun _ _ => rfl⟩
    · exact counted

/-- The five exception registers of a core. -/
theorem mem_numRegs (s : State) (x l : Nat) :
    let c := physCore s (getCtx s x).part l
    Reg.EXC_STICKY c ∈ numRegs s x l ∧ Reg.BLOCK_LOSS c ∈ numRegs s x l ∧ Reg.SAT_COUNT c ∈ numRegs s x l
      ∧ Reg.EXC_SITE c ∈ numRegs s x l ∧ Reg.EXC_SITE_PC c ∈ numRegs s x l := by
  simp [numRegs]

theorem onlyNum_recordExc (s : State) (by_ : NumBy) (e : Exc) : OnlyNum by_.x by_.l s (recordExc s by_ e) := by
  obtain ⟨hSticky, hLoss, hSat, -⟩ := mem_numRegs s by_.x by_.l
  unfold recordExc
  extract_lets core s1 s2
  have sticky : OnlyNum by_.x by_.l s s1 := onlyNum_wr s _ hSticky
  have loss : OnlyNum by_.x by_.l s s2 := sticky.trans (onlyNum_countNum s1 by_ core _ _ _ _ _ (by rwa [sticky.numRegs]))
  exact loss.trans (onlyNum_countNum s2 by_ core _ _ _ _ _ (by rwa [loss.numRegs]))

theorem onlyNum_recordInvalid (s : State) (x l : Nat) (v : Option InvalidSeen) : OnlyNum x l s (recordInvalid s x l v) := by
  obtain ⟨-, -, -, hSite, hPc⟩ := mem_numRegs s x l
  unfold recordInvalid
  split
  · exact OnlyNum.refl ..
  · extract_lets core s1
    have site : OnlyNum x l s s1 := by
      unfold s1
      split
      · exact OnlyNum.refl ..
      · have first (w : Word) : OnlyNum x l s (wr s (Reg.EXC_SITE core) w) := onlyNum_wr s w hSite
        exact (first _).trans (onlyNum_wr _ _ (by rwa [(first _).numRegs]))
    exact site.trans (onlyNum_raise ..)

theorem onlyNum_recordOverflow (s : State) (by_ : NumBy) (v : Option OverflowSeen) :
    OnlyNum by_.x by_.l s (recordOverflow s by_ v) := by
  unfold recordOverflow
  split
  · exact OnlyNum.refl ..
  · split
    · exact OnlyNum.refl ..
    · exact onlyNum_raise ..

theorem OnlyNum.mem {x l : Nat} {s t : State} (h : OnlyNum x l s t) : t.mem = s.mem := by rw [h.1]
theorem OnlyNum.ctxs {x l : Nat} {s t : State} (h : OnlyNum x l s t) : t.ctxs = s.ctxs := by rw [h.1]
theorem OnlyRows.ctxs {s t : State} (h : OnlyRows s t) : t.ctxs = s.ctxs := by rw [h]

/-! ### What the accesses leave of an operand -/

theorem readBytes_congr {s t : State} (h : t.mem = s.mem) (a n : Nat) : readBytes t a n = readBytes s a n := by
  unfold readBytes
  simp only [readByte_congr h]

theorem rowCodes_congr {s t : State} (h : t.mem = s.mem) (base : Nat) (d : Desc) (r : Nat) : rowCodes t base d r = rowCodes s base d r := by
  unfold rowCodes rowData
  rw [readBytes_congr h]

theorem copyRow_congr {s t : State} (h : t.mem = s.mem) (base : Nat) (d : Desc) (r n : Nat) :
    copyRow t base d r n = copyRow s base d r n := by
  unfold copyRow rowData rowScales
  rw [readBytes_congr h, readBytes_congr h]

theorem firstBelow_eq_none {n : Nat} {p : Nat → Bool} (h : ∀ r, r < n → p r = false) : firstBelow n p = none := by
  unfold firstBelow selectBelow
  rw [List.filter_eq_nil_iff.mpr fun r hr => by simp [h r (List.mem_range.mp hr)]]
  rfl

/-! ### The end of an instruction that nothing stopped -/

/-- After rows and exceptions, the instruction awaits its post. -/
theorem endEngine_none {s u : State} {x l id : Nat} {r : Running} {f : Flight} {i : CInstr} (started : Started s x l id r f i)
    (ctxs : u.ctxs = s.ctxs) (pc : Nat) :
    Executed (endEngine u x l f.id pc none) x l id ∧ OnlyTaskCtxs s (endEngine u x l f.id pc none) x l
      ∧ endEngine u x l f.id pc none = { u with ctxs := (endEngine u x l f.id pc none).ctxs } := by
  obtain ⟨run, flight, -⟩ := startedAt_spec started.1
  have hid := id_of_inFlight flight
  have run' : getRun u x l = some r := (getRun_of_ctxs ctxs x l).trans run
  rw [hid]
  show Executed (markExecuted u x l id) x l id ∧ OnlyTaskCtxs s (markExecuted u x l id) x l ∧ markExecuted u x l id = _
  refine ⟨executed_markExecuted run' flight, ?_, ?_⟩
  · rw [markExecuted_eq run' flight]
    exact onlyTaskCtxs_setRun ctxs x l _
  · show markExecuted u x l id = { u with ctxs := (markExecuted u x l id).ctxs }
    rw [markExecuted_eq run' flight]
    rfl

end Sys2Proof.Machine
end

section
/-! The vector instructions (R181 to R189): their rows, their exceptions, and poison that stops them (R155). -/

namespace Sys2Proof.Machine

/-! ### Rows computed from operands -/

theorem rowNums_congr {s t : State} (h : t.mem = s.mem) (base : Nat) (d : Desc) (ftz : Bool) (r : Nat) :
    rowNums t base d ftz r = rowNums s base d ftz r := by
  unfold rowNums rowScales
  rw [rowCodes_congr h, readBytes_congr h]

/-- A computed row depends on memory and the contexts alone. -/
theorem vRowOut_congr {s t : State} (mem : t.mem = s.mem) (ctxs : t.ctxs = s.ctxs) (x l : Nat) (f : Flight) (op : VOp) (o : VOps)
    (chunk : List (BitVec 32)) (r : Nat) : vRowOut t x l f op o chunk r = vRowOut s x l f op o chunk r := by
  have man : manOf t x = manOf s x := by rw [manOf, manOf, getCtx_of_ctxs ctxs]
  have row (ftz useChunk : Bool) (d : Desc) (n k : Nat) : vRow t x l ftz chunk useChunk d n k = vRow s x l ftz chunk useChunk d n k := by
    unfold vRow
    rw [rowNums_congr mem, handleOf_of_ctxs ctxs]
  unfold vRowOut ftzOf seedOf
  simp only [man, row]

theorem chunkOf_meet {s m : State} (h : OnlyMeet s m) (x l : Nat) (k : TaskKind) : chunkOf m x l k = chunkOf s x l k := by
  unfold OnlyMeet at h
  rw [h]
  rfl

/-! ### Execution -/

theorem exec_vCommand {s : State} {x l id : Nat} {r : Running} {f : Flight} {op : VOp} {o : VOps}
    (h : Started s x l id r f (.v op o)) (ecc : List EccEvent) :
    exec (vCommand op x l id ecc) s = .next (runVector (vMeet s x l f op o ecc) x l f op o) := by
  have dispatch : exec (vCommand op x l id ecc) s = .next (execV op x l id ecc s) := by cases op <;> rfl
  rw [dispatch, execV, h.1]
  simp only [h.2, if_true]

/-- The rows that a vector instruction has cast, of those it would. -/
def vRows (s : State) (x l : Nat) (r : Running) (f : Flight) (op : VOp) (o : VOps) (n : Nat) : List RowOut :=
  (List.range n).map fun j => (vRowOut s x l f op o ((chunkOf s x l r.task.kind).getD []) j).cast.out (f.regs.getT o.td).format j

theorem runVector_eq {s m : State} {x l : Nat} {r : Running} (meet : OnlyMeet s m) (run : getRun s x l = some r) (f : Flight)
    (op : VOp) (o : VOps) :
    ∃ rows, runVector m x l f op o = endEngine (vRecord (writeRows (rowsDone m (f.regs.getT o.td).rows (vPoison m x l f op o)).2 x l
        (f.regs.getT o.td) (vRows s x l r f op o (rowsDone m (f.regs.getT o.td).rows (vPoison m x l f op o)).1)) x l f o rows)
      x l f.id f.pc (vPoison m x l f op o) := by
  have kind : taskKindOf m x l = r.task.kind := by
    rw [taskKindOf, getRun_of_ctxs meet.ctxs, run]
  have row := vRowOut_congr meet.mem meet.ctxs x l f op o ((chunkOf s x l r.task.kind).getD [])
  have cast (n : Nat) :
      (((List.range n).map (vRowOut m x l f op o ((chunkOf s x l r.task.kind).getD []))).zipIdx.map fun (v, j) =>
        v.cast.out (f.regs.getT o.td).format j) = vRows s x l r f op o n := by
    apply List.ext_getElem
    · simp [vRows]
    · intro j hj hj'
      simp [vRows, row]
  unfold runVector
  dsimp only
  rw [kind, chunkOf_meet meet, cast]
  exact ⟨_, rfl⟩

theorem onlyNum_vRecord (s : State) (x l : Nat) (f : Flight) (o : VOps) (rows : List VRowOut) :
    OnlyNum x l s (vRecord s x l f o rows) := by
  unfold vRecord
  extract_lets td by_ excs kinds wheres ah s1 s2
  have exc : OnlyNum x l s s1 := onlyNum_recordExc s by_ _
  have invalid : OnlyNum x l s1 s2 := onlyNum_recordInvalid s1 x l _
  exact (exc.trans invalid).trans (onlyNum_recordOverflow s2 by_ _)

theorem onlyMeet_vMeet (s : State) (x l : Nat) (f : Flight) (op : VOp) (o : VOps) (ecc : List EccEvent) :
    OnlyMeet s (vMeet s x l f op o ecc) := onlyMeet_meet ..

/-- Registers that the rows of an engine leave. -/
theorem numRegs_congr {s t : State} (ctxs : t.ctxs = s.ctxs) (cores : t.partCores = s.partCores) (x l : Nat) :
    numRegs t x l = numRegs s x l := by
  unfold numRegs physCore
  rw [getCtx_of_ctxs ctxs, cores]

/-- A vector instruction without poison. -/
theorem vector_results {s m : State} {x l id : Nat} {r : Running} {f : Flight} {op : VOp} {o : VOps} {ecc : List EccEvent}
    (started : Started s x l id r f (.v op o)) (hm : m = vMeet s x l f op o ecc) (clean : vPoison m x l f op o = none) :
    ∃ t, exec (vCommand op x l id ecc) s = .next t ∧ Executed t x l id ∧ OnlyTaskCtxs s t x l
      ∧ WroteRows s t x l (f.regs.getT o.td) (vRows s x l r f op o (f.regs.getT o.td).rows)
      ∧ SameRegsBut m t (numRegs s x l)
      ∧ t = { m with ctxs := t.ctxs, mem := t.mem, poison := t.poison, train := t.train, regs := t.regs, recs := t.recs,
                     recSeq := t.recSeq, thrLogged := t.thrLogged } := by
  have meet : OnlyMeet s m := hm ▸ onlyMeet_vMeet ..
  obtain ⟨run, -, -⟩ := startedAt_spec started.1
  obtain ⟨outs, eq⟩ := runVector_eq meet run f op o
  rw [exec_vCommand started, ← hm, eq, clean]
  generalize hw : writeRows m x l (f.regs.getT o.td) (vRows s x l r f op o (f.regs.getT o.td).rows) = w
  have rows : OnlyRows m w := hw ▸ onlyRows_writeRows ..
  have num : OnlyNum x l w (vRecord w x l f o outs) := onlyNum_vRecord ..
  have same : numRegs w x l = numRegs s x l :=
    numRegs_congr (rows.ctxs.trans meet.ctxs) (by rw [rows, meet]) x l
  obtain ⟨executed, task, frame⟩ := endEngine_none started (num.ctxs.trans (rows.ctxs.trans meet.ctxs)) f.pc
  have wrote : WroteRows s w x l (f.regs.getT o.td) (vRows s x l r f op o (f.regs.getT o.td).rows) :=
    hw ▸ wroteRows_writeRows meet.mem meet.ctxs ..
  show ∃ t, Host.Outcome.next (endEngine (vRecord (writeRows m x l _ _) x l f o outs) x l f.id f.pc none) = .next t ∧ _
  simp only [rowsDone, hw]
  generalize endEngine (vRecord w x l f o outs) x l f.id f.pc none = t at *
  obtain ⟨numFrame, numRegs⟩ := num
  have regs : t.regs = (vRecord w x l f o outs).regs := by rw [frame]
  refine ⟨t, rfl, executed, task, wrote.congr (by rw [frame, numFrame]), fun a ha => ?_, ?_⟩
  · have before : w.regs = m.regs := by rw [rows]
    exact (rd_congr regs a).trans ((numRegs a (by rwa [same])).trans (rd_congr before a))
  · rw [frame, numFrame, rows]

/-- An instruction of a plain task that poison stops leaves without a post, and its context faults. -/
theorem endEngine_some {s u : State} {x l id : Nat} {r : Running} {f : Flight} {i : CInstr} (started : Started s x l id r f i)
    (ctxs : u.ctxs = s.ctxs) (running : runningCtx s x = true) (plain : r.task.kind = .plain) (pc k : Nat) :
    (getCtx (endEngine u x l f.id pc (some k)) x).st = .faulted
      ∧ (∃ q, getRun (endEngine u x l f.id pc (some k)) x l = some q ∧ q.inFlight id = none ∧ q.tokens = r.tokens)
      ∧ (endEngine u x l f.id pc (some k)).mem = u.mem := by
  obtain ⟨run, flight, -⟩ := startedAt_spec started.1
  have run' : getRun u x l = some r := (getRun_of_ctxs ctxs x l).trans run
  have left : abandonFlight u x l f.id = setRun u x l (some (r.dropFlight id)) := by
    rw [id_of_inFlight flight, abandonFlight_eq run']
  have fault : endEngine u x l f.id pc (some k) = faultCtx (setRun u x l (some (r.dropFlight id))) x := by
    show faultInstr (abandonFlight u x l f.id) x l pc = _
    rw [left, faultInstr_plain]
    rw [taskKindOf_setRun]
    exact plain
  rw [fault]
  refine ⟨?_, ⟨_, (getRun_faultCtx ..).trans (getRun_setRun ..), inFlight_dropFlight r id, rfl⟩, ?_⟩
  · rw [getCtx_faultCtx_running (by rw [runningCtx_setRun, runningCtx_congr ctxs, running])]
  · rw [faultCtx_frame]
    rfl

/-- A vector instruction that poison stops before row `k`. -/
theorem vector_stopped {s : State} {x l id : Nat} {r : Running} {f : Flight} {op : VOp} {o : VOps} {ecc : List EccEvent} {k : Nat}
    (started : Started s x l id r f (.v op o)) (running : runningCtx s x = true) (plain : r.task.kind = .plain)
    (bad : vPoison (vMeet s x l f op o ecc) x l f op o = some k) :
    ∃ t n, exec (vCommand op x l id ecc) s = .next t ∧ n ≤ k ∧ (getCtx t x).st = .faulted
      ∧ (∃ q, getRun t x l = some q ∧ q.inFlight id = none ∧ q.tokens = r.tokens)
      ∧ ∀ a, (∀ j, j < n → ¬ rowHits (handleOf s x l (f.regs.getT o.td).handle).base (f.regs.getT o.td)
          ((vRowOut s x l f op o ((chunkOf s x l r.task.kind).getD []) j).cast.out (f.regs.getT o.td).format j) a) →
          readByte t a = readByte s a := by
  have meet : OnlyMeet s (vMeet s x l f op o ecc) := onlyMeet_vMeet ..
  obtain ⟨run, -, -⟩ := startedAt_spec started.1
  obtain ⟨outs, eq⟩ := runVector_eq meet run f op o
  rw [exec_vCommand started, eq, bad]
  generalize vMeet s x l f op o ecc = m at *
  generalize hu : { m with free := m.free + 1 } = u
  generalize hn : Config.freeWrites m.free % (k + 1) = n
  have done : rowsDone m (f.regs.getT o.td).rows (some k) = (n, u) := by rw [← hn, ← hu]; rfl
  have mem : u.mem = s.mem := by rw [← hu]; exact meet.mem
  have ctxs : u.ctxs = s.ctxs := by rw [← hu]; exact meet.ctxs
  rw [done]
  dsimp only
  have rows : OnlyRows u (writeRows u x l (f.regs.getT o.td) (vRows s x l r f op o n)) := onlyRows_writeRows ..
  have wrote := wroteRows_writeRows mem ctxs x l (f.regs.getT o.td) (vRows s x l r f op o n)
  generalize writeRows u x l (f.regs.getT o.td) (vRows s x l r f op o n) = w at *
  have num : OnlyNum x l w (vRecord w x l f o outs) := onlyNum_vRecord ..
  obtain ⟨faulted, task, kept⟩ := endEngine_some started (num.ctxs.trans (rows.ctxs.trans ctxs)) running plain f.pc k
  refine ⟨_, n, rfl, ?_, faulted, task, fun a ha => (wrote.congr (kept.trans num.mem)).2 a fun row hrow => ?_⟩
  · rw [← hn]
    exact Nat.le_of_lt_succ (Nat.mod_lt _ (Nat.succ_pos k))
  · obtain ⟨j, hj, rfl⟩ := List.mem_map.mp hrow
    exact ha j (List.mem_range.mp hj)

/-- Settles O15: a vector instruction by its rows and exceptions, and by the fault where poison stops it. -/
theorem vectorResults : Obligations.VectorResults := by
  unfold Obligations.VectorResults
  refine ⟨fun s m x l id r f op o ecc started hm clean => ?_, fun s x l id r f op o ecc k started running plain bad => ?_⟩
  · exact vector_results started hm clean
  · exact vector_stopped started running plain bad

end Sys2Proof.Machine
end

section
/-! The moves (R191 to R195): rows copied, gathered, scattered, transposed and filled. -/

namespace Sys2Proof.Machine

/-! ### What a move's accesses leave -/

theorem onlyMeet_mMeet (s : State) (x l : Nat) (f : Flight) (ecc : List EccEvent) : OnlyMeet s (mMeet s x l f ecc) := by
  unfold mMeet
  extract_lets ts
  split
  · exact (onlyMeet_meet ..).trans (onlyMeet_combWrites ..)
  · exact onlyMeet_meet ..

theorem indices_congr {s m : State} (h : OnlyMeet s m) (x l : Nat) (ti : Desc) : indices m x l ti = indices s x l ti := by
  unfold indices
  rw [handleOf_of_ctxs h.ctxs, rowCodes_congr h.mem]

theorem badIndex_eq_none {n : Nat} {is : List Int} (h : ∀ i ∈ is, 0 ≤ i ∧ i < n) : badIndex n is = none := by
  unfold badIndex
  refine List.find?_eq_none.mpr fun i hi => ?_
  obtain ⟨low, high⟩ := h i hi
  simp [Int.not_lt.mpr low, Int.not_le.mpr high]

/-! ### The rows written, and the end -/

/-- A move that no poison stops: its rows, the instruction awaiting its post, and nothing else. -/
theorem endMove_results {s m : State} {x l id : Nat} {r : Running} {f : Flight} {i : CInstr} (started : Started s x l id r f i)
    (meet : OnlyMeet s m) (d : Desc) (rows : List RowOut) :
    Executed (endMove m x l f d rows none) x l id ∧ OnlyTaskCtxs s (endMove m x l f d rows none) x l
      ∧ WroteRows s (endMove m x l f d rows none) x l d rows
      ∧ endMove m x l f d rows none = { m with
          ctxs := (endMove m x l f d rows none).ctxs, mem := (endMove m x l f d rows none).mem
          poison := (endMove m x l f d rows none).poison, train := (endMove m x l f d rows none).train } := by
  have only : OnlyRows m (writeRows m x l d rows) := onlyRows_writeRows ..
  have wrote : WroteRows s (writeRows m x l d rows) x l d rows := wroteRows_writeRows meet.mem meet.ctxs x l d rows
  obtain ⟨executed, task, frame⟩ := endEngine_none started (only.ctxs.trans meet.ctxs) f.pc
  have eq : endMove m x l f d rows none = endEngine (writeRows m x l d rows) x l f.id f.pc none := rfl
  rw [eq]
  generalize endEngine (writeRows m x l d rows) x l f.id f.pc none = t at *
  exact ⟨executed, task, wrote.congr (by rw [frame]), by rw [frame, only]⟩

/-- The same, of the command that comes to it. -/
theorem move_results {s m : State} {x l id : Nat} {r : Running} {f : Flight} {i : CInstr} {c : Instr} {d : Desc} {rows : List RowOut}
    (started : Started s x l id r f i) (meet : OnlyMeet s m) (step : exec c s = .next (endMove m x l f d rows none)) :
    ∃ t, exec c s = .next t ∧ Executed t x l id ∧ OnlyTaskCtxs s t x l ∧ WroteRows s t x l d rows
      ∧ t = { m with ctxs := t.ctxs, mem := t.mem, poison := t.poison, train := t.train } :=
  ⟨_, step, endMove_results started meet d rows⟩

/-! ### The five moves -/

section
variable {s : State} {x l id : Nat} {r : Running} {f : Flight} {o : MOps}

theorem exec_mCpy (h : Started s x l id r f (.mCpy o)) (ecc : List EccEvent) :
    exec (.mCpy x l id ecc) s = .next (runCpy (mMeet s x l f ecc) x l f o) := by
  show execMCpy x l id ecc s = _
  simp only [execMCpy, h.1, h.2]

theorem exec_mGth (h : Started s x l id r f (.mGth o)) (ecc : List EccEvent) :
    exec (.mGth x l id ecc) s = .next (runGth (mMeet s x l f ecc) x l f o) := by
  show execMGth x l id ecc s = _
  simp only [execMGth, h.1, h.2]

theorem exec_mSct (h : Started s x l id r f (.mSct o)) (ecc : List EccEvent) :
    exec (.mSct x l id ecc) s = .next (runSct (mMeet s x l f ecc) x l f o) := by
  show execMSct x l id ecc s = _
  simp only [execMSct, h.1, h.2]

theorem exec_mTrn (h : Started s x l id r f (.mTrn o)) (ecc : List EccEvent) :
    exec (.mTrn x l id ecc) s = .next (runTrn (mMeet s x l f ecc) x l f o) := by
  show execMTrn x l id ecc s = _
  simp only [execMTrn, h.1, h.2]

theorem exec_mFil (h : Started s x l id r f (.mFil o)) :
    exec (.mFil x l id) s = .next (runFil (mMeet s x l f []) x l f o) := by
  show execMFil x l id s = _
  simp only [execMFil, h.1, h.2]

variable {m : State}

theorem runCpy_clean (meet : OnlyMeet s m)
    (clean : ∀ n, n < (f.regs.getT o.td).rows → rowPoisoned m (handleOf s x l (f.regs.getT o.ts).handle).base (f.regs.getT o.ts) n = false) :
    runCpy m x l f o = endMove m x l f (f.regs.getT o.td) ((List.range (f.regs.getT o.td).rows).map fun n =>
      copyRow s (handleOf s x l (f.regs.getT o.ts).handle).base (f.regs.getT o.ts) n n) none := by
  simp only [runCpy, handleOf_of_ctxs meet.ctxs, copyRow_congr meet.mem, firstBelow_eq_none clean]

theorem runGth_clean (meet : OnlyMeet s m)
    (listed : rowPoisoned m (handleOf s x l (f.regs.getT o.ti).handle).base (f.regs.getT o.ti) 0 = false)
    (inside : ∀ i ∈ indices s x l (f.regs.getT o.ti), 0 ≤ i ∧ i < (f.regs.getT o.ts).rows)
    (clean : ∀ n, n < (f.regs.getT o.td).rows → rowPoisoned m (handleOf s x l (f.regs.getT o.ts).handle).base (f.regs.getT o.ts)
      ((indices s x l (f.regs.getT o.ti)).getD n 0).toNat = false) :
    runGth m x l f o = endMove m x l f (f.regs.getT o.td) ((indices s x l (f.regs.getT o.ti)).zipIdx.map fun (i, n) =>
      copyRow s (handleOf s x l (f.regs.getT o.ts).handle).base (f.regs.getT o.ts) i.toNat n) none := by
  simp only [runGth, handleOf_of_ctxs meet.ctxs, listed, Bool.false_eq_true, if_false, indices_congr meet, badIndex_eq_none inside,
    copyRow_congr meet.mem, firstBelow_eq_none clean]

theorem runSct_clean (meet : OnlyMeet s m) (plain : o.acc = false)
    (listed : rowPoisoned m (handleOf s x l (f.regs.getT o.ti).handle).base (f.regs.getT o.ti) 0 = false)
    (inside : ∀ i ∈ indices s x l (f.regs.getT o.ti), 0 ≤ i ∧ i < (f.regs.getT o.td).rows)
    (clean : ∀ n, n < (f.regs.getT o.ts).rows → rowPoisoned m (handleOf s x l (f.regs.getT o.ts).handle).base (f.regs.getT o.ts) n = false) :
    runSct m x l f o = endMove m x l f (f.regs.getT o.td) ((indices s x l (f.regs.getT o.ti)).zipIdx.map fun (i, n) =>
      copyRow s (handleOf s x l (f.regs.getT o.ts).handle).base (f.regs.getT o.ts) n i.toNat) none := by
  simp only [runSct, handleOf_of_ctxs meet.ctxs, listed, Bool.false_eq_true, if_false, indices_congr meet, badIndex_eq_none inside,
    plain, Bool.false_and, Bool.or_false, copyRow_congr meet.mem, firstBelow_eq_none clean]

theorem runTrn_clean (meet : OnlyMeet s m)
    (clean : ∀ n, n < (f.regs.getT o.td).rows → ∀ j, j < (f.regs.getT o.ts).dim1 →
      rowPoisoned m (handleOf s x l (f.regs.getT o.ts).handle).base (f.regs.getT o.ts)
        (n / (f.regs.getT o.td).dim1 * (f.regs.getT o.ts).dim1 + j) = false) :
    runTrn m x l f o = endMove m x l f (f.regs.getT o.td) ((List.range (f.regs.getT o.td).dim2).flatMap fun p =>
      (List.range (f.regs.getT o.td).dim1).map fun i => ⟨p * (f.regs.getT o.td).dim1 + i,
        packRow (f.regs.getT o.td).format ((List.range (f.regs.getT o.ts).dim1).map fun j =>
          (rowCodes s (handleOf s x l (f.regs.getT o.ts).handle).base (f.regs.getT o.ts)
            (p * (f.regs.getT o.ts).dim1 + j)).getD i 0), []⟩) none := by
  have limit : firstBelow (f.regs.getT o.td).rows (fun n => (List.range (f.regs.getT o.ts).dim1).any fun j =>
      rowPoisoned m (handleOf s x l (f.regs.getT o.ts).handle).base (f.regs.getT o.ts)
        (n / (f.regs.getT o.td).dim1 * (f.regs.getT o.ts).dim1 + j)) = none :=
    firstBelow_eq_none fun n hn => List.any_eq_false.mpr fun j hj => by
      rw [clean n hn j (List.mem_range.mp hj)]
      decide
  simp only [runTrn, handleOf_of_ctxs meet.ctxs, rowCodes_congr meet.mem, limit, List.map_map, Function.comp_def]

theorem runFil_eq : runFil m x l f o = endMove m x l f (f.regs.getT o.td) ((List.range (f.regs.getT o.td).rows).map fun n => ⟨n,
    packRow (f.regs.getT o.td).format (List.replicate (f.regs.getT o.td).dim0
      ((f.regs.getG o.gf).toNat % 2 ^ fmtBits (f.regs.getT o.td).format)), []⟩) none := rfl

end

end Sys2Proof.Machine
end

section
/-! M.CPY byte by byte (R37, R192), and M.SCT with ACC (R194). -/

namespace Sys2Proof.Machine

/-! ### Bytes copied -/

theorem length_readBytes (s : State) (a n : Nat) : (readBytes s a n).length = n := by
  simp [readBytes]

/-- A row of a format without scale plane has no scale bytes. -/
theorem rowScales_plain {d : Desc} (h : fmtMx d.format = false) (s : State) (base r : Nat) : rowScales s base d r = [] := by
  simp [rowScales, Desc.rowPlane, h, readBytes]

/-- A byte of the row written. -/
theorem readByte_writeRow_data {s : State} {base : Nat} {d : Desc} {o : RowOut} {j : Nat} (plain : o.scales = []) (hj : j < o.data.length) :
    readByte (writeRow base d s o) (d.rowAddr base o.row + j) = o.data[j] := by
  rw [writeRow, plain, readByte_writeBytes_outside _ _ _ _ (by simp), readByte_writeBytes_inside _ _ _ _ hj]

section
variable {s : State} {d c : Desc} {db cb n j : Nat} (apart : rowsApart d db) (plain : fmtMx d.format = false)
  (format : c.format = d.format) (dim : c.dim0 = d.dim0)
include plain format

theorem copyRow_scales (k : Nat) : (copyRow s cb c k k).scales = [] :=
  rowScales_plain (by rw [format, plain]) ..

include dim

omit plain in
theorem length_copyRow (k : Nat) : (copyRow s cb c k k).data.length = d.rowLen := by
  rw [copyRow, rowData, length_readBytes, Desc.rowLen, Desc.rowLen, format, dim]

include apart

/-- No other row writes a byte of row `n`. -/
theorem not_rowHits_copyRow {k : Nat} (hn : n < d.rows) (hk : k < d.rows) (ne : k ≠ n) (hj : j < d.rowLen) :
    ¬ rowHits db d (copyRow s cb c k k) (d.rowAddr db n + j) := by
  have away := apart k n hk hn ne
  unfold rowHits
  rw [length_copyRow format dim, copyRow_scales plain format]
  simp only [List.length_nil, copyRow]
  omega

/-- The bytes of the first `k` rows copied, in any state. -/
theorem readByte_copyRows (u : State) {k : Nat} (hk : k ≤ d.rows) (hn : n < k) (hj : j < d.rowLen) :
    readByte (((List.range k).map fun r => copyRow s cb c r r).foldl (writeRow db d) u) (d.rowAddr db n + j)
      = readByte s (c.rowAddr cb n + j) := by
  induction k with
  | zero => omega
  | succ k ih =>
    rw [List.range_succ, List.map_append, List.foldl_append]
    by_cases last : n = k
    · subst last
      refine (readByte_writeRow_data (copyRow_scales plain format n) (by rwa [length_copyRow format dim])).trans ?_
      simp [copyRow, rowData, readBytes]
    · refine (readByte_writeRow (not_rowHits_copyRow apart plain format dim (by omega) (by omega) (Ne.symm last) hj)).trans ?_
      exact ih (by omega) (by omega)

end

/-- Without memory errors, the accesses of a move leave every poison as it was. -/
theorem poison_mMeet (s : State) (x l : Nat) (f : Flight) : (mMeet s x l f []).poison = s.poison := by
  have reads (strm : Bool) (ts : List Touch) (u : State) : (combReads u strm ts).poison = u.poison := by
    induction ts generalizing u with
    | nil => rfl
    | cons t ts ih => exact (ih _).trans (combTouch_poison ..)
  have writes (ts : List Touch) (u : State) : (combWrites u ts).poison = u.poison := by
    induction ts generalizing u with
    | nil => rfl
    | cons t ts ih => exact (ih _).trans (combTouch_poison ..)
  have meets (strm : Bool) (ts : List Touch) (dsts : List Desc) : (meet s x l strm ts dsts []).poison = s.poison :=
    (writes _ _).trans (reads strm ts (eccMeet s ts []))
  unfold mMeet
  extract_lets ts
  split
  · exact (writes _ _).trans (meets _ _ _)
  · exact meets _ _ _

theorem rowPoisoned_congr {s t : State} (h : t.poison = s.poison) (base : Nat) (d : Desc) (r : Nat) :
    rowPoisoned t base d r = rowPoisoned s base d r := by
  unfold rowPoisoned
  rw [poisoned_congr h, poisoned_congr h]

theorem copied_bytes {s : State} {x l id : Nat} {r : Running} {f : Flight} {o : MOps} {n j : Nat} (started : Started s x l id r f (.mCpy o))
    (apart : rowsApart (f.regs.getT o.td) (handleOf s x l (f.regs.getT o.td).handle).base) (plain : fmtMx (f.regs.getT o.td).format = false)
    (format : (f.regs.getT o.ts).format = (f.regs.getT o.td).format) (dim : (f.regs.getT o.ts).dim0 = (f.regs.getT o.td).dim0)
    (clean : ∀ m, m < (f.regs.getT o.td).rows → rowPoisoned s (handleOf s x l (f.regs.getT o.ts).handle).base (f.regs.getT o.ts) m = false)
    (hn : n < (f.regs.getT o.td).rows) (hj : j < (f.regs.getT o.td).rowLen) :
    ∃ t, exec (.mCpy x l id []) s = .next t
      ∧ readByte t ((f.regs.getT o.td).rowAddr (handleOf s x l (f.regs.getT o.td).handle).base n + j)
        = readByte s ((f.regs.getT o.ts).rowAddr (handleOf s x l (f.regs.getT o.ts).handle).base n + j) := by
  have meet := onlyMeet_mMeet s x l f []
  have step := exec_mCpy started []
  rw [runCpy_clean meet fun k hk => by rw [rowPoisoned_congr (poison_mMeet s x l f), clean k hk]] at step
  obtain ⟨t, done, -, -, ⟨mem, -⟩, -⟩ := move_results started meet step
  refine ⟨t, done, (readByte_congr mem _).trans ?_⟩
  exact readByte_copyRows apart plain format dim s (Nat.le_refl _) hn hj

/-! ### Rows added -/

theorem onlyNum_sctRecord (s : State) (x l : Nat) (f : Flight) (d c : Desc) (seen : SctSeen) :
    OnlyNum x l s (sctRecord s x l f d c seen) := by
  unfold sctRecord
  extract_lets by_ s1 inv s2 ovf
  have exc : OnlyNum x l s s1 := onlyNum_recordExc s by_ _
  have invalid : OnlyNum x l s1 s2 := onlyNum_recordInvalid s1 x l _
  exact (exc.trans invalid).trans (onlyNum_recordOverflow s2 by_ _)

/-- The row that an accumulating scatter of source row `k` writes at row `n`. -/
def sumRow (s : State) (x db cb : Nat) (d c : Desc) (n k : Nat) : RowOut :=
  ⟨n, packRow 0 (((rowCodes s db d n).zip (rowCodes s cb c k)).map fun (u, v) => (sctAdd (ftzOf s x) u v).1), []⟩

theorem ftzOf_of_ctxs {s t : State} (h : t.ctxs = s.ctxs) (x : Nat) : ftzOf t x = ftzOf s x := by
  unfold ftzOf manOf
  rw [getCtx_of_ctxs h]

theorem sctRow_state {s m : State} (meet : OnlyMeet s m) (db cb x l : Nat) (d c : Desc) (seen : SctSeen) (i : Int) (k : Nat) :
    (sctRow db cb d c (ftzOf s x) x l (m, seen) (i, k)).1 = writeRows m x l d [sumRow s x db cb d c i.toNat k] := by
  simp only [sctRow, rowCodes_congr meet.mem, List.map_map, Function.comp_def, sumRow]

/-- A scatter of one row into row `i`, added. -/
theorem runSct_one {s m : State} {x l : Nat} {f : Flight} {o : MOps} {i : Int} (meet : OnlyMeet s m) (acc : o.acc = true)
    (one : (f.regs.getT o.ts).rows = 1) (index : indices s x l (f.regs.getT o.ti) = [i]) (low : 0 ≤ i) (high : i < (f.regs.getT o.td).rows)
    (listed : rowPoisoned m (handleOf s x l (f.regs.getT o.ti).handle).base (f.regs.getT o.ti) 0 = false)
    (source : rowPoisoned m (handleOf s x l (f.regs.getT o.ts).handle).base (f.regs.getT o.ts) 0 = false)
    (target : rowPoisoned m (handleOf s x l (f.regs.getT o.td).handle).base (f.regs.getT o.td) i.toNat = false) :
    ∃ seen, runSct m x l f o = endEngine (sctRecord (writeRows m x l (f.regs.getT o.td)
        [sumRow s x (handleOf s x l (f.regs.getT o.td).handle).base (handleOf s x l (f.regs.getT o.ts).handle).base
          (f.regs.getT o.td) (f.regs.getT o.ts) i.toNat 0]) x l f (f.regs.getT o.td) (f.regs.getT o.ts) seen) x l f.id f.pc none := by
  have inside : badIndex (f.regs.getT o.td).rows [i] = none :=
    badIndex_eq_none fun k hk => by rw [List.mem_singleton.mp hk]; exact ⟨low, high⟩
  have limit : firstBelow 1 (fun k => rowPoisoned m (handleOf s x l (f.regs.getT o.ts).handle).base (f.regs.getT o.ts) k
      || (true && rowPoisoned m (handleOf s x l (f.regs.getT o.td).handle).base (f.regs.getT o.td) ([i].getD k 0).toNat)) = none :=
    firstBelow_eq_none fun k hk => by
      obtain rfl : k = 0 := by omega
      simp [source, target]
  unfold runSct
  simp only [handleOf_of_ctxs meet.ctxs, ftzOf_of_ctxs meet.ctxs, listed, Bool.false_eq_true, if_false, indices_congr meet, index, inside, acc,
    one, limit, rowsDone, if_true, List.zipIdx_cons, List.zipIdx_nil, List.take_succ_cons, List.take_zero, List.foldl_cons, List.foldl_nil,
    sctRow_state meet]
  exact ⟨_, rfl⟩

theorem added_row {s : State} {x l id : Nat} {r : Running} {f : Flight} {o : MOps} {i : Int} (started : Started s x l id r f (.mSct o))
    (acc : o.acc = true) (one : (f.regs.getT o.ts).rows = 1) (index : indices s x l (f.regs.getT o.ti) = [i]) (low : 0 ≤ i)
    (high : i < (f.regs.getT o.td).rows)
    (listed : rowPoisoned s (handleOf s x l (f.regs.getT o.ti).handle).base (f.regs.getT o.ti) 0 = false)
    (source : rowPoisoned s (handleOf s x l (f.regs.getT o.ts).handle).base (f.regs.getT o.ts) 0 = false)
    (target : rowPoisoned s (handleOf s x l (f.regs.getT o.td).handle).base (f.regs.getT o.td) i.toNat = false) :
    ∃ t, exec (.mSct x l id []) s = .next t ∧ Executed t x l id
      ∧ WroteRows s t x l (f.regs.getT o.td) [sumRow s x (handleOf s x l (f.regs.getT o.td).handle).base
          (handleOf s x l (f.regs.getT o.ts).handle).base (f.regs.getT o.td) (f.regs.getT o.ts) i.toNat 0]
      ∧ SameRegsBut (mMeet s x l f []) t (numRegs s x l) := by
  have meet := onlyMeet_mMeet s x l f []
  have poison := poison_mMeet s x l f
  rw [exec_mSct started]
  generalize mMeet s x l f [] = m at *
  obtain ⟨seen, eq⟩ := runSct_one meet acc one index low high (by rwa [rowPoisoned_congr poison]) (by rwa [rowPoisoned_congr poison])
    (by rwa [rowPoisoned_congr poison])
  rw [eq]
  generalize sumRow s x (handleOf s x l (f.regs.getT o.td).handle).base _ _ _ i.toNat 0 = row
  have only : OnlyRows m (writeRows m x l (f.regs.getT o.td) [row]) := onlyRows_writeRows ..
  have wrote := wroteRows_writeRows meet.mem meet.ctxs x l (f.regs.getT o.td) [row]
  generalize writeRows m x l (f.regs.getT o.td) [row] = w at *
  have num : OnlyNum x l w (sctRecord w x l f (f.regs.getT o.td) (f.regs.getT o.ts) seen) := onlyNum_sctRecord ..
  obtain ⟨executed, -, frame⟩ := endEngine_none started (num.ctxs.trans (only.ctxs.trans meet.ctxs)) f.pc
  have same : numRegs w x l = numRegs s x l := numRegs_congr (only.ctxs.trans meet.ctxs) (by rw [only, meet]) x l
  refine ⟨_, rfl, executed, wrote.congr (by rw [frame]; exact num.mem), fun a ha => ?_⟩
  have regs : w.regs = m.regs := by rw [only]
  rw [frame]
  exact (num.2 a (by rwa [same])).trans (rd_congr regs a)

/-- Settles O17: each move by the rows it writes; the bytes of a copy and the sums of a scatter from those rows. -/
theorem moveResults : Obligations.MoveResults := by
  unfold Obligations.MoveResults
  refine ⟨⟨fun s m x l id r f o ecc started hm clean => ?_, fun s m x l id r f o ecc started hm listed inside clean => ?_,
    fun s m x l id r f o ecc started hm plain listed inside clean => ?_, fun s m x l id r f o ecc started hm clean => ?_,
    fun s m x l id r f o started hm => ?_⟩,
    fun s x l id r f o n j started apart plain format dim clean hn hj => copied_bytes started apart plain format dim clean hn hj,
    fun s x l id r f o i started acc _ one index low high listed source target =>
      added_row started acc one index low high listed source target⟩
  all_goals have meet : OnlyMeet s m := hm ▸ onlyMeet_mMeet ..
  · exact move_results started meet (by rw [exec_mCpy started, ← hm, runCpy_clean meet clean])
  · exact move_results started meet (by rw [exec_mGth started, ← hm, runGth_clean meet listed inside clean])
  · exact move_results started meet (by rw [exec_mSct started, ← hm, runSct_clean meet plain listed inside clean])
  · exact move_results started meet (by rw [exec_mTrn started, ← hm, runTrn_clean meet clean])
  · exact move_results started meet (by rw [exec_mFil started, ← hm, runFil_eq])

end Sys2Proof.Machine
end

section
/-! Model loads (R42, R404): the context that a stage serves is looked for once the handles have moved. -/

namespace Sys2Proof.Machine

/-! A state that refutes O43. It lists context 0 twice: the entry that a read finds is FREE and has a model table, and the second is
RUNNING, so that the context counts as resident and as serving. The load rewrites the context's handles, which leaves the one entry that
is FREE: no context serves then, and the device's waiting window stays, where the statement says that its stage runs. -/

def twiceModel : SModel := ⟨0, 1, 0, 0, false, 1, 0, 0⟩

/-- The first entry of context 0. -/
def twiceServing : Ctx := { Ctx.free with man := some { Tests.man0 with models := some [] } }

/-- A window without rows waits at partition 0, a serving partition; model 0 loads. -/
def twiceState : State :=
  { State.reset with
    ctxs := [(0, twiceServing), (0, { Ctx.free with st := .running })]
    regs := [(Reg.PLC_PART 0, 128)]
    models := [(0, some twiceModel)]
    serv := [(0, { Serv.none with waiting := [(0, [])] })] }

theorem twiceState_loads :
    getModel twiceState 0 = some twiceModel ∧ twiceModel.st = 1 ∧ twiceState.keeper.held = false ∧ Memory.wf twiceState.mem = true
    ∧ regionBusy twiceState twiceModel.part twiceModel.backing twiceModel.bytes = false ∧ servCtx twiceState twiceModel.part = some 0
    ∧ (getServ twiceState twiceModel.part).waiting = [(0, [])] ∧ (getServ twiceState twiceModel.part).wins = [] := by
  decide +kernel

/-- The windows that wait at the model's partition after a step. -/
def waitingAfter (c : Instr) (s : State) : List (Nat × List BatchRow) :=
  match exec c s with
  | .next t => (getServ t twiceModel.part).waiting
  | _ => []

/-- The load ends with the window still waiting. -/
theorem waitingAfter_twiceState : waitingAfter (.modelLoadComplete 0) twiceState = [(0, [])] := by decide +kernel

/-! ### A stage that runs takes a window without rows -/

theorem getServ_of_serv {s t : State} (h : t.serv = s.serv) (p : Nat) : getServ t p = getServ s p := by
  rw [getServ, getServ, h]

@[simp] theorem getServ_noteHeld (s : State) (p q : Nat) : getServ (noteHeld s p) q = getServ s q := by
  unfold noteHeld
  extract_lets n r s1
  split <;> rfl

/-- A window without rows is entered in the list of windows and leaves those that wait. -/
theorem getServ_admitWindow_nil (s : State) (x p w : Nat) (own : Bool) :
    ∃ q : Win, q.rows = [] ∧ getServ (admitWindow s x p w own []) p
      = { getServ s p with wins := (getServ s p).wins ++ [q] } := by
  have eq : admitWindow s x p w own [] = setServ (noteHeld s p) p { getServ (noteHeld s p) p with
      wins := (getServ (noteHeld s p) p).wins ++ [⟨w, own, [], beat (noteHeld s p), !windowTasks (noteHeld s p) x p (winKey w own)⟩] } := rfl
  rw [eq, getServ_setServ, getServ_noteHeld]
  exact ⟨_, rfl, rfl⟩

/-- A window without rows completes; none of those that wait changes. -/
theorem getServ_stageDone_nil (s : State) (x p : Nat) {q : Win} (h : q.rows = []) :
    getServ (stageDone s x p q) p
      = { getServ s p with wins := (getServ s p).wins.filter (fun w => w.own || w.num != q.num) } := by
  unfold stageDone releaseWin
  rw [h]
  show getServ (noteHeld (setServ s p _) p) p = _
  rw [getServ_noteHeld, getServ_setServ]

theorem waiting_completeStages_nil (x p n : Nat) (s : State) (h : ∀ q ∈ (getServ s p).wins, q.rows = []) :
    (getServ (completeStages x p n s) p).waiting = (getServ s p).waiting := by
  induction n generalizing s with
  | zero => rfl
  | succ n ih =>
    unfold completeStages
    split
    · next q hq =>
      split
      · have mine : q ∈ (getServ s p).wins := (List.mem_filter.mp (List.mem_of_head? hq)).1
        have eq := getServ_stageDone_nil s x p (h q mine)
        rw [ih _ (by rw [eq]; exact fun w hw => h w (List.mem_filter.mp hw).1), eq]
      · rfl
    · rfl

/-- Windows without rows need no model. -/
theorem stageLoads_nil {s : State} {p : Nat} (h : ∀ w ∈ (getServ s p).waiting, w.2 = []) : stageLoads s p = s := by
  have none : (getServ s p).waiting.flatMap (fun w => w.2.map (·.model)) = [] :=
    List.flatMap_eq_nil_iff.mpr fun w hw => by rw [h w hw, List.map_nil]
  unfold stageLoads
  rw [none]
  rfl

/-- A stage where nothing waits takes nothing. -/
theorem waiting_stageGo_one {s : State} {x p : Nat} (none : (getServ s p).waiting = []) (rows : ∀ q ∈ (getServ s p).wins, q.rows = []) :
    (getServ (stageGo x p 1 s) p).waiting = [] := by
  have done := (waiting_completeStages_nil x p (getServ s p).wins.length s rows).trans none
  unfold stageGo
  simp only
  rw [stageLoads_nil (by rw [done]; simp)]
  simp only [admitNext, done]

theorem waiting_stageGo_two {s : State} {x p w : Nat} (one : (getServ s p).waiting = [(w, [])]) (idle : (getServ s p).wins = []) :
    (getServ (stageGo x p 2 s) p).waiting = [] := by
  obtain ⟨q, rows, eq⟩ := getServ_admitWindow_nil (setServ s p { getServ s p with waiting := [] }) x p w false
  rw [getServ_setServ] at eq
  have taken : admitNext s x p = some (admitWindow (setServ s p { getServ s p with waiting := [] }) x p w false []) := by
    simp [admitNext, one]
  unfold stageGo
  simp only [idle, List.length_nil, completeStages]
  rw [stageLoads_nil (by rw [one]; simp)]
  simp only [taken]
  apply waiting_stageGo_one
  · rw [eq]
  · rw [eq, idle]
    simpa using rows

theorem getServ_poolSync (s : State) (p q : Nat) : getServ (poolSync s p) q = getServ s q := by
  unfold poolSync
  exact getServ_of_serv rfl q

/-- A stage that runs takes a window without rows. -/
theorem waiting_runStage {s : State} {x p w : Nat} (one : (getServ s p).waiting = [(w, [])]) (idle : (getServ s p).wins = []) :
    (getServ (runStage s x p) p).waiting = [] := by
  have two : (getServ s p).waiting.length + 1 = 2 := by rw [one, List.length_singleton]
  rw [runStage, two, getServ_poolSync]
  exact waiting_stageGo_two one idle

/-- Refutes O43: `twiceState` meets the first clause's premises; its load leaves the window that the clause says the stage takes. -/
theorem not_modelsAndKeeper : ¬ Obligations.ModelsAndKeeper := by
  unfold Obligations.ModelsAndKeeper
  rintro ⟨⟨loads, -⟩, -⟩
  obtain ⟨model, loading, up, canonical, quiet, serves, one, idle⟩ := twiceState_loads
  obtain ⟨u, step, -, -, -, -, -, -, frame⟩ := (loads twiceState 0 twiceModel model loading up canonical).2 quiet
  have serv : getServ u twiceModel.part = getServ twiceState twiceModel.part := getServ_of_serv (congrArg State.serv frame) _
  have kept := waitingAfter_twiceState
  unfold waitingAfter at kept
  rw [step] at kept
  simp only [serves] at kept
  rw [waiting_runStage (by rw [serv, one]) (by rw [serv, idle])] at kept
  exact List.cons_ne_nil _ _ kept.symm

end Sys2Proof.Machine
end

section
/-! Host requests of an open session (R449), and the requests that launch, stop, resume, save and restore contexts (R29, R453, R517). -/

namespace Sys2Proof.Machine

/-! ### A request that is answered at once -/

theorem phaseGate_booted {s : State} (h : booted s = true) (r : HostReq) : phaseGate s r = none := if_pos h

theorem hostRow_served {s u : State} {n tag : Nat} {r : HostReq} {a : Answer} (asked : Asked s n) (booted : booted s = true)
    (run : runReq s n tag r = (u, some a)) : hostRow s n tag r = .next (served u n (reqOp r) tag a) := by
  obtain ⟨up, known, idle⟩ := asked
  have exec : hostExec s n tag r = (u, some a) := by rw [hostExec, phaseGate_booted booted, run]
  have known : (getSess s n).isNone = false := by rw [← Option.not_isSome, known]; rfl
  simp only [hostRow, up, known, idle, exec, Bool.not_true, Bool.false_eq_true, if_false]
  rfl

/-! ### Launch -/

section
variable (s : State) (x : Nat)

/-- The record of a context as its launch begins. -/
def launchedCtx (args : List Word) : Ctx := { getCtx s x with st := .runnable, launchArgs := args, launched := true }

/-- The context with `c` for its record, but other cores. -/
def withCores (c : Ctx) (cores : List (Nat × CoreCtx)) : State := setCtx s x { c with cores := cores }

theorem dispatchCore_notRunning {s : State} {x : Nat} (h : runningCtx s x = false) (l : Nat) : dispatchCore s x l = s := by
  unfold dispatchCore
  simp only [h, Bool.false_eq_true, if_false]
  split <;> rfl

theorem pushTask_notRunning {s : State} {x : Nat} (h : runningCtx s x = false) (l : Nat) (near : Bool) (t : Task) :
    pushTask s x l near t
      = setCore s x l { getCore s x l with deque := if near then t :: (getCore s x l).deque else (getCore s x l).deque ++ [t] } :=
  dispatchCore_notRunning ((runningCtx_setCore ..).trans h) l

theorem setCore_withCores (c : Ctx) (cores : List (Nat × CoreCtx)) (l : Nat) (k : CoreCtx) :
    setCore (withCores s x c cores) x l k = withCores s x c (Sparse.set CoreCtx.none cores l k) := by
  simp only [setCore, withCores, getCtx_setCtx, setCtx_setCtx]

/-- A context that is not RUNNING takes a spawned task into its cores and does nothing else. -/
theorem spawnTask_withCores {c : Ctx} (h : c.st ≠ .running) (cores : List (Nat × CoreCtx)) (near : Bool) (t : Task) :
    ∃ cores', spawnTask (withCores s x c cores) x near t = withCores s x c cores' := by
  have idle : runningCtx (withCores s x c cores) x = false := by
    rw [runningCtx, withCores, getCtx_setCtx]
    exact beq_eq_false_iff_ne.mpr h
  unfold spawnTask
  dsimp only
  split
  · exact ⟨_, (pushTask_notRunning idle ..).trans (setCore_withCores ..)⟩
  · exact ⟨_, setCore_withCores ..⟩

theorem launchTasks_withCores (args : List Word) :
    ∃ cores, launchTasks s x args = withCores s x (launchedCtx s x args) cores := by
  unfold launchTasks
  dsimp only
  generalize ((manOf (setCtx s x _) x).map (·.launch)).getD [] = tasks
  suffices ∀ cores, ∃ cores', tasks.foldl (fun s e =>
      spawnTask s x true ⟨e.1, args, e.2, (homeOf s x e.2).1, (homeOf s x e.2).2, .plain, .none⟩)
      (withCores s x (launchedCtx s x args) cores) = withCores s x (launchedCtx s x args) cores' from this (getCtx s x).cores
  induction tasks with
  | nil => exact fun cores => ⟨cores, rfl⟩
  | cons e tasks ih =>
    intro cores
    obtain ⟨cores', spawned⟩ := spawnTask_withCores s x (c := launchedCtx s x args) (by simp [launchedCtx]) cores true
      ⟨e.1, args, e.2, (homeOf (withCores s x (launchedCtx s x args) cores) x e.2).1,
        (homeOf (withCores s x (launchedCtx s x args) cores) x e.2).2, .plain, .none⟩
    rw [List.foldl_cons, spawned]
    exact ih cores'

end

/-- The one launch task of a manifest comes to the near end of its home core's deque. -/
theorem deque_launchTasks {s : State} {x : Nat} {args : List Word} {man : Manifest} {e : Word × Nat} (hman : (getCtx s x).man = some man)
    (one : man.launch = [e]) (held : (getCore s x (homeOf s x e.2).1).held = []) (room : dequeRoom s x (homeOf s x e.2).1 = true) :
    (getCore (launchTasks s x args) x (homeOf s x e.2).1).deque
      = ⟨e.1, args, e.2, (homeOf s x e.2).1, (homeOf s x e.2).2, .plain, .none⟩ :: (getCore s x (homeOf s x e.2).1).deque := by
  generalize hu : setCtx s x (launchedCtx s x args) = u
  have ctx : getCtx u x = launchedCtx s x args := by rw [← hu, getCtx_setCtx]
  have man' : manOf u x = manOf s x := by rw [manOf, ctx]; rfl
  have core (l : Nat) : getCore u x l = getCore s x l := by rw [getCore, ctx]; rfl
  have home : homeOf u x e.2 = homeOf s x e.2 := by
    unfold homeOf
    rw [man', ctx, ← hu]
    rfl
  have idle : runningCtx u x = false := by rw [runningCtx, ctx]; rfl
  have room' : dequeRoom u x (homeOf s x e.2).1 = true := by
    rw [← room, dequeRoom, dequeRoom, core, dequeCap, dequeCap, man']
  have spawn : launchTasks s x args
      = pushTask u x (homeOf s x e.2).1 true ⟨e.1, args, e.2, (homeOf s x e.2).1, (homeOf s x e.2).2, .plain, .none⟩ := by
    have tasks : ((manOf u x).map (·.launch)).getD [] = [e] := by
      rw [man', manOf, hman]
      exact one
    show List.foldl _ (setCtx s x (launchedCtx s x args)) (((manOf (setCtx s x (launchedCtx s x args)) x).map (·.launch)).getD []) = _
    rw [hu, tasks]
    show spawnTask u x true _ = _
    rw [home, spawnTask]
    simp only [core, held, room', List.isEmpty_nil, Bool.and_self, if_true]
  rw [spawn, pushTask_notRunning idle, getCore_setCore, core]
  rfl

theorem exec_ctxLaunch {s : State} {n tag x : Nat} {args : List Word} (asked : Asked s n) (boot : booted s = true) (hx : x < 64)
    (len : args.length = 8) (loaded : (getCtx s x).st = .loaded) (fresh : Sparse.get none s.resume (getCtx s x).part = none)
    (serving : training s (getCtx s x).part = false) :
    exec (.ctxLaunch n tag x args) s = .next (served (launchTasks s x args) n 0x41 tag ⟨0, [], []⟩) := by
  have launch : ctxLaunch s n tag x args = okay (launchTasks s x args) := by
    unfold ctxLaunch
    simp only [Nat.not_le.mpr hx, len, loaded, fresh, serving, ne_eq, not_true_eq_false, or_self, if_false, Bool.false_and,
      Bool.false_eq_true]
  have idle : finishIdle (launchTasks s x args) (getCtx (launchTasks s x args) x).part = launchTasks s x args := by
    obtain ⟨cores, h⟩ := launchTasks_withCores s x args
    have part : (getCtx (launchTasks s x args) x).part = (getCtx s x).part := by
      rw [h, withCores, getCtx_setCtx]
      rfl
    have resume : (launchTasks s x args).resume = s.resume := by
      rw [h]
      rfl
    rw [finishIdle, part, resume, fresh]
  refine hostRow_served asked boot ?_
  show launchReq s n tag x args = _
  rw [launchReq, launch]
  show (finishIdle (launchTasks s x args) _, _) = _
  rw [idle]
  rfl

theorem ctxLaunch_results {s : State} {n tag x : Nat} {args : List Word} (asked : Asked s n) (boot : booted s = true) (hx : x < 64)
    (len : args.length = 8) (loaded : (getCtx s x).st = .loaded) (fresh : Sparse.get none s.resume (getCtx s x).part = none)
    (serving : training s (getCtx s x).part = false) :
    ∃ u, exec (.ctxLaunch n tag x args) s = .next (served u n 0x41 tag ⟨0, [], []⟩) ∧ u = launchTasks s x args
      ∧ (getCtx u x).st = .runnable ∧ (getCtx u x).launchArgs = args ∧ (getCtx u x).launched = true
      ∧ (∀ y, y ≠ x → getCtx u y = getCtx s y)
      ∧ ∀ man e, (getCtx s x).man = some man → man.launch = [e] → (getCore s x (homeOf s x e.2).1).held = [] →
        dequeRoom s x (homeOf s x e.2).1 = true →
        (getCore u x (homeOf s x e.2).1).deque
          = ⟨e.1, args, e.2, (homeOf s x e.2).1, (homeOf s x e.2).2, .plain, .none⟩ :: (getCore s x (homeOf s x e.2).1).deque := by
  obtain ⟨cores, h⟩ := launchTasks_withCores s x args
  have ctx : getCtx (launchTasks s x args) x = { launchedCtx s x args with cores := cores } := by rw [h, withCores, getCtx_setCtx]
  refine ⟨_, exec_ctxLaunch asked boot hx len loaded fresh serving, rfl, ?_, ?_, ?_, fun y hy => ?_,
    fun _ _ hman one held room => deque_launchTasks hman one held room⟩
  · rw [ctx]; rfl
  · rw [ctx]; rfl
  · rw [ctx]; rfl
  · rw [h, withCores, getCtx_setCtx_other s _ hy]

/-! ### Stop and resume -/

theorem stopCtx_results {s : State} {x : Nat}
    (live : (getCtx s x).st = .loaded ∨ (getCtx s x).st = .runnable ∨ (getCtx s x).st = .running) :
    getCtx (stopCtx s x) x = { getCtx s x with st := .stopped, fromLoaded := decide ((getCtx s x).st = .loaded) }
      ∧ (∀ y, y ≠ x → getCtx (stopCtx s x) y = getCtx s y)
      ∧ stopCtx s x = { s with ctxs := (stopCtx s x).ctxs, slices := (stopCtx s x).slices } := by
  rcases live with h | h | h <;> simp only [stopCtx, h]
  · exact ⟨getCtx_setCtx .., fun y hy => getCtx_setCtx_other s _ hy, rfl⟩
  · exact ⟨getCtx_setCtx .., fun y hy => getCtx_setCtx_other s _ hy, rfl⟩
  · refine ⟨(getCtx_dropSlice ..).trans (getCtx_setCtx ..), fun y hy => (getCtx_dropSlice ..).trans (getCtx_setCtx_other s _ hy), ?_⟩
    rw [dropSlice_frame]
    rfl

theorem ctxStop_live {s : State} {x : Nat} (hx : x < 64)
    (live : (getCtx s x).st = .loaded ∨ (getCtx s x).st = .runnable ∨ (getCtx s x).st = .running) :
    ctxStop s x = okay (stopCtx s x) := by
  rw [ctxStop, if_neg (Nat.not_le.mpr hx)]
  rcases live with h | h | h <;> rw [h]

theorem ctxResume_stopped {s : State} {x : Nat} (hx : x < 64) (h : (getCtx s x).st = .stopped) :
    ctxResume s x = okay (setCtxState s x (if (getCtx s x).fromLoaded then .loaded else .runnable)) := by
  rw [ctxResume, if_neg (Nat.not_le.mpr hx), if_pos h]

theorem ctxResume_denied {s : State} {x : Nat} (hx : x < 64) (h : (getCtx s x).st ≠ .stopped) : ctxResume s x = denied s := by
  rw [ctxResume, if_neg (Nat.not_le.mpr hx), if_neg h]

/-! ### Save -/

section
variable {s : State} {x : Nat} (hx : x < 64) (stopped : (getCtx s x).st = .stopped) (cells : cellsHeld s x = [])
  (still : collecting s x = false)
include hx stopped cells still

theorem ctxSave_asked (a : Nat) : ctxSave s x a 0 = (s, some ⟨0, [BitVec.ofNat 64 (imageLen s x)], []⟩) := by
  simp [ctxSave, Nat.not_le.mpr hx, stopped, cells, still, stOk]

theorem ctxSave_saves {a len : Nat} (pos : 0 < len) (fits : imageLen s x ≤ len) (here : firstBad s none a (imageLen s x) = none) :
    ctxSave s x a len = okay (writeBytes { (drawBytes s (imageLen s x)).2 with
      saved := s.saved ++ [imageOf (drawBytes s (imageLen s x)).2 x (drawBytes s (imageLen s x)).1] } a (drawBytes s (imageLen s x)).1) := by
  simp [ctxSave, Nat.not_le.mpr hx, stopped, cells, still, Nat.pos_iff_ne_zero.mp pos, Nat.not_lt.mpr fits, here]
  rfl

end

theorem length_drawBytes (s : State) (n : Nat) : (drawBytes s n).1.length = n := by
  suffices ∀ k, (freeBytesFrom k n).length = n from this s.free
  induction n with
  | zero => exact fun _ => rfl
  | succ n ih => exact fun k => congrArg (· + 1) (ih (k + 1))

/-! ### Restore -/

/-- A ring of the image goes back to the ring of its number, if that is the context's (R453). -/
def putRing (x : Nat) (s : State) (e : Nat × Ring) : State :=
  let r := getRing s e.1
  if r.valid && r.ctx == x then
    setRing s e.1 { r with st := e.2.st, prior := e.2.prior, epoch := e.2.epoch, wptr := e.2.wptr, rptr := e.2.rptr
                           opened := e.2.opened, msgs := e.2.msgs, nextMsg := e.2.nextMsg, closed := e.2.closed
                           dispatched := e.2.dispatched, active := e.2.active }
  else s

/-- The record of a context that an image is put back into. -/
def restoredCtx (s : State) (x : Nat) (v : Saved) : Ctx :=
  { getCtx s x with st := .stopped, fromLoaded := v.fromLoaded, cores := v.cores, sent := v.sent, launched := true }

theorem putBack_eq (s : State) (x : Nat) (v : Saved) :
    putBack s x v = v.rings.foldl (putRing x) (v.bars.foldl (fun s e => setBar s e.1 e.2)
      (v.flags.foldl (fun s e => setFlag s e.1 e.2) (setCtx s x (restoredCtx s x v)))) := rfl

/-- A step that changes rings and nothing else. -/
def OnlyRings (s t : State) : Prop := t = { s with rings := t.rings }

theorem onlyRings_putRing (x : Nat) (s : State) (e : Nat × Ring) : OnlyRings s (putRing x s e) := by
  unfold putRing
  dsimp only
  split <;> rfl

theorem onlyRings_putRings (x : Nat) (l : List (Nat × Ring)) (s : State) : OnlyRings s (l.foldl (putRing x) s) := by
  induction l generalizing s with
  | nil => rfl
  | cons e l ih =>
    have first := onlyRings_putRing x s e
    have rest := ih (putRing x s e)
    unfold OnlyRings at *
    rw [List.foldl_cons, rest, first]

theorem foldl_setBar_frame (l : List (Nat × BarSt)) (s : State) :
    l.foldl (fun s e => setBar s e.1 e.2) s = { s with bars := (l.foldl (fun s e => setBar s e.1 e.2) s).bars } := by
  induction l generalizing s with
  | nil => rfl
  | cons e l ih => exact ih (setBar s e.1 e.2)

theorem foldl_setFlag_frame (l : List (Nat × FlagSt)) (s : State) :
    l.foldl (fun s e => setFlag s e.1 e.2) s = { s with flags := (l.foldl (fun s e => setFlag s e.1 e.2) s).flags } := by
  induction l generalizing s with
  | nil => rfl
  | cons e l ih => exact ih (setFlag s e.1 e.2)

/-- Putting an image back changes the context's record, flags, barriers and rings. -/
theorem putBack_frame (s : State) (x : Nat) (v : Saved) :
    putBack s x v = { setCtx s x (restoredCtx s x v) with
      flags := (v.flags.foldl (fun s e => setFlag s e.1 e.2) (setCtx s x (restoredCtx s x v))).flags
      bars := (putBack s x v).bars, rings := (putBack s x v).rings } := by
  have rings := onlyRings_putRings x v.rings (v.bars.foldl (fun s e => setBar s e.1 e.2)
      (v.flags.foldl (fun s e => setFlag s e.1 e.2) (setCtx s x (restoredCtx s x v))))
  unfold OnlyRings at rings
  rw [putBack_eq, rings, foldl_setBar_frame, foldl_setFlag_frame]

section
variable {s : State} {x a len : Nat} {v : Saved} (hx : x < 64) (loaded : (getCtx s x).st = .loaded)
  (here : firstBad s none a len = none) (clean : poisoned s a len = false) (saved : s.saved = [v]) (fits : v.bytes.length ≤ len)
  (same : v.bytes = readBytes s a v.bytes.length)
include hx loaded here clean saved fits same

theorem ctxRestore_found : ctxRestore s x a len
    = if v.manifest == sha384 (getCtx s x).image && v.firmware == digestBytes s Reg.FW_DIGEST then okay (putBack s x v) else denied s := by
  have found : s.saved.find? (fun v => decide (v.bytes.length ≤ len) && v.bytes == readBytes s a v.bytes.length) = some v := by
    rw [saved, List.find?_cons_of_pos]
    simp only [fits, ← same, decide_true, beq_self_eq_true, Bool.and_self]
  simp only [ctxRestore, Nat.not_le.mpr hx, loaded, here, clean, found, ne_eq, not_true_eq_false, if_false, Option.isSome_none,
    Bool.false_eq_true]

theorem ctxRestore_puts (manifest : v.manifest = sha384 (getCtx s x).image) (firmware : v.firmware = digestBytes s Reg.FW_DIGEST) :
    ctxRestore s x a len = okay (putBack s x v) := by
  rw [ctxRestore_found hx loaded here clean saved fits same, if_pos (by rw [manifest, firmware, beq_self_eq_true, beq_self_eq_true]; rfl)]

theorem ctxRestore_denied (firmware : v.firmware ≠ digestBytes s Reg.FW_DIGEST) : ctxRestore s x a len = denied s := by
  rw [ctxRestore_found hx loaded here clean saved fits same, if_neg]
  rw [beq_eq_false_iff_ne.mpr firmware, Bool.and_false]
  exact Bool.false_ne_true

end

theorem putBack_results (s : State) (x : Nat) (v : Saved) :
    getCtx (putBack s x v) x = restoredCtx s x v ∧ (∀ y, y ≠ x → getCtx (putBack s x v) y = getCtx s y)
      ∧ (∀ f w, v.flags = [(f, w)] → getFlag (putBack s x v) f = w)
      ∧ putBack s x v = { s with ctxs := (putBack s x v).ctxs, flags := (putBack s x v).flags, bars := (putBack s x v).bars
                                 rings := (putBack s x v).rings } := by
  have frame := putBack_frame s x v
  have ctxs : (putBack s x v).ctxs = (setCtx s x (restoredCtx s x v)).ctxs := by rw [frame]
  refine ⟨(getCtx_of_ctxs ctxs x).trans (getCtx_setCtx ..),
    fun y hy => (getCtx_of_ctxs ctxs y).trans (getCtx_setCtx_other s _ hy), fun f w one => ?_, ?_⟩
  · have flags : (putBack s x v).flags = (setFlag (setCtx s x (restoredCtx s x v)) f w).flags := by
      rw [frame, one]
      rfl
    rw [getFlag, flags]
    exact getFlag_setFlag ..
  · rw [frame]
    rfl

/-- Settles O55: each request is answered at once, and what it leaves is the launched, stopped, saved or restored state. -/
theorem contextRuns : Obligations.ContextRuns := by
  refine ⟨fun s n tag x args asked boot hx len loaded fresh serving => ctxLaunch_results asked boot hx len loaded fresh serving,
    fun s n tag x asked boot hx => ⟨fun live => ?_, fun stopped => ?_, fun other => ?_⟩,
    fun s n tag x a len asked boot hx stopped cells still => ⟨?_, fun pos fits here => ?_⟩,
    fun s n tag x a len v asked boot hx loaded here clean saved fits same => ⟨fun kept => ?_, fun other => ?_⟩⟩
  · exact ⟨_, hostRow_served asked boot (r := .ctxStop x) (ctxStop_live hx live), stopCtx_results live⟩
  · exact ⟨_, hostRow_served asked boot (r := .ctxResume x) (ctxResume_stopped hx stopped), getCtx_setCtx ..,
      fun y hy => getCtx_setCtx_other s _ hy, rfl⟩
  · exact hostRow_served asked boot (r := .ctxResume x) (ctxResume_denied hx other)
  · exact hostRow_served asked boot (r := .ctxSave x a 0) (ctxSave_asked hx stopped cells still a)
  · have len := length_drawBytes s (imageLen s x)
    refine ⟨_, _, hostRow_served asked boot (r := .ctxSave x a _) (ctxSave_saves hx stopped cells still pos fits here), len, rfl,
      fun i hi => ?_, ?_, rfl⟩
    · rw [readByte_writeBytes_inside _ _ _ _ (by rwa [len])]
      exact (List.getD_eq_getElem ..).symm
    · have outside := sameBytesOutside_writeBytes { (drawBytes s (imageLen s x)).2 with
        saved := s.saved ++ [imageOf (drawBytes s (imageLen s x)).2 x (drawBytes s (imageLen s x)).1] } a (drawBytes s (imageLen s x)).1
      rw [len] at outside
      exact outside
  · obtain ⟨manifest, firmware⟩ := kept
    exact ⟨_, hostRow_served asked boot (r := .ctxRestore x a len) (ctxRestore_puts hx loaded here clean saved fits same manifest firmware),
      putBack_results s x v⟩
  · exact hostRow_served asked boot (r := .ctxRestore x a len) (ctxRestore_denied hx loaded here clean saved fits same other)

end Sys2Proof.Machine
end

section
/-! Contexts as they are loaded and unloaded (R29, R222, R279, R453): what each step keeps. -/

namespace Sys2Proof.Machine

/-! ### Folds that treat each item of a list -/

/-- What a step brings about for its own item and no step undoes holds of every item once the list is done. -/
theorem foldl_reaches {α β : Type} {P : α → β → Prop} {f : β → α → β} (own : ∀ b a, P a (f b a)) (keeps : ∀ b a c, P a b → P a (f b c))
    (l : List α) (b : β) : ∀ a ∈ l, P a (l.foldl f b) := by
  have kept (l : List α) : ∀ b a, P a b → P a (l.foldl f b) := by
    induction l with
    | nil => exact fun _ _ h => h
    | cons c l ih => exact fun b a h => ih _ a (keeps b a c h)
  induction l generalizing b with
  | nil => exact fun _ h => absurd h List.not_mem_nil
  | cons c l ih =>
    intro a mem
    rcases List.mem_cons.mp mem with rfl | mem
    · exact kept l _ _ (own b a)
    · exact ih _ a mem

/-! ### PLC_STATUS.LOCKED and the boot phase (R134, R512) -/

theorem pushEvent_frame (s : State) (e : HostEv) :
    pushEvent s e = { s with regs := (pushEvent s e).regs, hostQ := (pushEvent s e).hostQ, cdcCnt := (pushEvent s e).cdcCnt
                             recs := (pushEvent s e).recs, recSeq := (pushEvent s e).recSeq } := by
  unfold pushEvent
  split
  · rfl
  · unfold dropEvent
    split <;> rfl

/-- A step that changes registers, the host event queue and the error log and nothing else. -/
def OnlyReports (s t : State) : Prop :=
  t = { s with regs := t.regs, hostQ := t.hostQ, cdcCnt := t.cdcCnt, recs := t.recs, recSeq := t.recSeq }

theorem onlyReports_setBootPhase (s : State) (v : Nat) : OnlyReports s (setBootPhase s v) := by
  unfold OnlyReports setBootPhase
  dsimp only
  rw [pushEvent_frame]
  rfl

/-- The state with LOCKED as the contexts resident say. -/
def locked (s : State) : State := setFld s Reg.PLC_STATUS Fld.PLC_STATUS_LOCKED (bnat !(residents s).isEmpty)

theorem bootPhase_locked (s : State) : bootPhase (locked s) = bootPhase s := fld_setFld_other s _ _ _ (by decide)

theorem flg_locked (s : State) : flg (locked s) Reg.PLC_STATUS Fld.PLC_STATUS_LOCKED = !(residents s).isEmpty := by
  rw [flg, locked, fld_setFld_same _ _ _ _ (by decide)]
  cases (residents s).isEmpty <;> rfl

theorem lockSync_eq (s : State) :
    lockSync s = if !(residents s).isEmpty && bootPhase s == 8 then setBootPhase (locked s) 9
      else if (residents s).isEmpty && bootPhase s == 9 then setBootPhase (locked s) 8 else locked s := by
  rw [← bootPhase_locked s]
  unfold lockSync
  dsimp only
  rw [Bool.not_not]
  rfl

theorem onlyReports_lockSync (s : State) : OnlyReports s (lockSync s) := by
  have phase (v : Nat) : OnlyReports s (setBootPhase (locked s) v) := by
    have h := onlyReports_setBootPhase (locked s) v
    unfold OnlyReports at *
    rw [h]
    rfl
  rw [lockSync_eq]
  split
  · exact phase 9
  · split
    · exact phase 8
    · rfl

theorem flg_lockSync (s : State) : flg (lockSync s) Reg.PLC_STATUS Fld.PLC_STATUS_LOCKED = !(residents s).isEmpty := by
  have phase (v : Nat) : flg (setBootPhase (locked s) v) Reg.PLC_STATUS Fld.PLC_STATUS_LOCKED = !(residents s).isEmpty := by
    rw [flg, (sameRegsBut_setBootPhase (locked s) v).fld (by decide)]
    exact flg_locked s
  rw [lockSync_eq]
  split
  · exact phase 9
  · split
    · exact phase 8
    · exact flg_locked s

theorem bootPhase_lockSync {s : State} (h : residents s ≠ []) :
    bootPhase (lockSync s) = if bootPhase s = 8 then 9 else bootPhase s := by
  have on : (residents s).isEmpty = false := List.isEmpty_eq_false_iff.mpr h
  simp only [lockSync_eq, on, Bool.not_false, Bool.true_and, Bool.false_and, Bool.false_eq_true, if_false, beq_iff_eq]
  split
  · exact bootPhase_setBootPhase _ _ (by decide)
  · exact bootPhase_locked s

/-- A context that is not FREE is among the residents. -/
theorem residents_ne_nil {s : State} {x : Nat} (h : (getCtx s x).st ≠ .free) : residents s ≠ [] := by
  rcases Sparse.get_mem Ctx.free s.ctxs x with off | mem
  · exact absurd (congrArg Ctx.st off) h
  · have kept : (x, getCtx s x) ∈ s.ctxs.filter (fun e => e.2.st != .free) := List.mem_filter.mpr ⟨mem, bne_iff_ne.mpr h⟩
    exact List.ne_nil_of_mem (List.mem_map_of_mem (f := (·.1)) kept)

/-! ### A manifest's flags (R260, R269) -/

theorem loadBarrier_frame (s : State) (b e : Nat) :
    loadBarrier s b e = { s with bars := (loadBarrier s b e).bars, trees := (loadBarrier s b e).trees } := by
  unfold loadBarrier
  extract_lets t
  split <;> rfl

theorem loadFlags_frame (s : State) (fl : List ManFlag) :
    loadFlags s fl = { s with flags := (loadFlags s fl).flags, bars := (loadFlags s fl).bars, trees := (loadFlags s fl).trees } := by
  induction fl generalizing s with
  | nil => rfl
  | cons e fl ih =>
    have rest := ih (if e.barrier then loadBarrier s e.index e.expect else setFlag s e.index FlagSt.off)
    have cons : loadFlags s (e :: fl) = loadFlags (if e.barrier then loadBarrier s e.index e.expect else setFlag s e.index FlagSt.off) fl := rfl
    rw [cons, rest]
    split
    · rw [loadBarrier_frame]
    · rfl

theorem getFlag_loadFlags (s : State) (fl : List ManFlag) :
    ∀ e ∈ fl, e.barrier = false → getFlag (loadFlags s fl) e.index = FlagSt.off := by
  refine foldl_reaches (P := fun e s => e.barrier = false → getFlag s e.index = FlagSt.off) (fun s e flag => ?_) (fun s e f off flag => ?_) fl s
  · rw [if_neg (by simp [flag])]
    exact getFlag_setFlag ..
  · split
    · rw [loadBarrier_frame]
      exact off flag
    · by_cases same : e.index = f.index
      · rw [same]
        exact getFlag_setFlag ..
      · rw [getFlag_setFlag_other s _ same]
        exact off flag

/-! ### What a placed context is furnished with -/

/-- The contexts, memory, flags and BOOT_STATUS stay as they were. -/
structure Furnishes (s t : State) : Prop where
  ctxs : t.ctxs = s.ctxs
  mem : t.mem = s.mem
  flags : t.flags = s.flags
  boot : rd t Reg.BOOT_STATUS = rd s Reg.BOOT_STATUS

theorem Furnishes.refl (s : State) : Furnishes s s := ⟨rfl, rfl, rfl, rfl⟩

theorem Furnishes.trans {s t u : State} (h : Furnishes s t) (k : Furnishes t u) : Furnishes s u :=
  ⟨k.ctxs.trans h.ctxs, k.mem.trans h.mem, k.flags.trans h.flags, k.boot.trans h.boot⟩

theorem Furnishes.foldl {α : Type} {f : State → α → State} (h : ∀ s a, Furnishes s (f s a)) (l : List α) (s : State) :
    Furnishes s (l.foldl f s) := by
  induction l generalizing s with
  | nil => exact .refl s
  | cons a l ih => exact (h s a).trans (ih _)

theorem furnishes_wr (s : State) {a : Nat} (w : Word) (h : Reg.BOOT_STATUS ≠ a) : Furnishes s (wr s a w) := ⟨rfl, rfl, rfl, rd_wr_other s w h⟩

theorem furnishes_setFld (s : State) {a : Nat} (f : Fld) (v : Nat) (h : Reg.BOOT_STATUS ≠ a) : Furnishes s (setFld s a f v) :=
  furnishes_wr s _ h

theorem furnishes_setRing (s : State) (r : Nat) (v : Ring) : Furnishes s (setRing s r v) := ⟨rfl, rfl, rfl, rfl⟩

theorem furnishes_pool (s : State) (n k r : Nat) (v : Ring) :
    Furnishes s (setRing (setFld (setFld s Reg.MSG_POOL Fld.MSG_POOL_RINGS_FREE n) Reg.MSG_POOL Fld.MSG_POOL_COMB_FREE k) r v) :=
  ((furnishes_setFld s _ _ (by decide)).trans (furnishes_setFld _ _ _ (by decide))).trans (furnishes_setRing ..)

theorem furnishes_releaseRings (s : State) (x : Nat) : Furnishes s (releaseRings s x) := .foldl (fun s _ => furnishes_pool s _ _ _ _) _ s

theorem furnishes_assignRing (x p : Nat) (s : State) (r : ManRing) : Furnishes s (assignRing x p s r) := furnishes_pool s _ _ _ _

theorem furnishes_assignGroup (x p : Nat) (red : Option Nat) (s : State) (g : ManGroup) : Furnishes s (assignGroup x p red s g) := by
  unfold assignGroup
  split <;> exact ⟨rfl, rfl, rfl, rfl⟩

theorem furnishes_assignTree (s : State) (t : (Nat × Option Nat) × TreeShape) : Furnishes s (assignTree s t) := by
  unfold assignTree
  split
  · extract_lets h slot loc u
    split
    · split <;> exact ⟨rfl, rfl, rfl, rfl⟩
    · exact ⟨rfl, rfl, rfl, rfl⟩
  · exact .refl s

theorem furnishes_writeRanks (s : State) (m : Manifest) : Furnishes s (writeRanks s m) := by
  unfold writeRanks
  split <;> exact ⟨rfl, rfl, rfl, rfl⟩

theorem furnishes_loadReduce (s : State) (p : Nat) (m : Manifest) : Furnishes s (loadReduce s p m) := by
  have role : Reg.BOOT_STATUS ≠ Reg.GRD_ROLE p := by simp only [Reg.BOOT_STATUS, Reg.GRD_ROLE]; omega
  have commits : Reg.BOOT_STATUS ≠ Reg.OPT_COMMITS p := by simp only [Reg.BOOT_STATUS, Reg.OPT_COMMITS]; omega
  have part : Reg.BOOT_STATUS ≠ Reg.OPT_PART p := by simp only [Reg.BOOT_STATUS, Reg.OPT_PART]; omega
  unfold loadReduce
  split
  · exact .refl s
  · exact ((furnishes_wr s _ role).trans (furnishes_wr _ _ commits)).trans (furnishes_setFld _ _ _ part)

theorem furnishes_loadCkpt (s : State) (p : Nat) (m : Manifest) : Furnishes s (loadCkpt s p m) := by
  have area : Reg.BOOT_STATUS ≠ Reg.CKP_AREA p := by simp only [Reg.BOOT_STATUS, Reg.CKP_AREA]; omega
  unfold loadCkpt
  split
  · exact .refl s
  · next k _ =>
    extract_lets own a t u
    have buddy : Furnishes s t := by
      unfold t
      split
      · exact furnishes_setFld s _ _ area
      · exact .refl s
    have ward : Furnishes t u := by
      unfold u
      split
      · exact furnishes_setFld t _ _ area
      · exact .refl t
    have drone : Furnishes u (match k.droneIndex with
        | some i => wr u Reg.CKP_DRONE (putF Fld.CKP_DRONE_ROLE 1 (putF Fld.CKP_DRONE_INDEX i 0))
        | none => u) := by
      split
      · exact furnishes_wr u _ (by decide)
      · exact .refl u
    exact (buddy.trans ward).trans drone

theorem furnishes_freshTrain (s : State) (p : Nat) (m : Manifest) : Furnishes s (freshTrain s p m) := by
  unfold freshTrain
  split <;> exact ⟨rfl, rfl, rfl, rfl⟩

theorem furnishes_placeDigest (s : State) (x p : Nat) (m : Manifest) (v : Placement) : Furnishes s (placeDigest s x p m v) := by
  have digest (w : BitVec 384) : Furnishes s (setDigest s Reg.PLC_DIGEST w) := by
    refine .foldl (fun s i => furnishes_wr s _ ?_) _ s
    simp only [Reg.BOOT_STATUS, Reg.PLC_DIGEST]
    omega
  exact (digest _).trans (furnishes_wr _ _ (by decide))

theorem furnishes_recordHints (s : State) (x p : Nat) (hs : List Hint) : Furnishes s (recordHints s x p hs) := by
  refine .foldl (fun s h => ?_) hs s
  have count : Furnishes s (bump s Reg.PLC_OVERRIDES Fld.PLC_OVERRIDES_COUNT 1) := furnishes_setFld s _ _ (by decide)
  exact count.trans ⟨rfl, rfl, rfl, rfl⟩

/-! ### The load (R128, R453) -/

/-- The record of a context as it is placed. -/
def placedCtx (p : Nat) (bs : List Byte) (m : Manifest) (v : Placement) : Ctx :=
  { Ctx.free with
    st := .loaded, part := p, man := some m, scratch := v.scratch, deques := v.deques, image := bs
    handles := v.handles.foldl (fun t e => Sparse.set ⟨0, 0⟩ t e.1 e.2) []
    flagMap := m.flags.foldl (fun t e => Sparse.set 0 t (e.name % 65536) (mkEntry e.barrier e.index e.remoteOk e.stepScoped)) [] }

/-- An installed context has its record and its flags; the rest of the load furnishes it. -/
theorem installCtx_furnished (s : State) (x p : Nat) (bs : List Byte) (m : Manifest) (v : Placement) :
    ∃ t, Furnishes (loadFlags (setCtx s x (placedCtx p bs m v)) m.flags) t ∧ installCtx s x p bs m v = lockSync t := by
  unfold installCtx
  extract_lets bare s0 s1 s2 s3 s4 s5
  have rings : Furnishes s1 s2 := (furnishes_releaseRings s1 x).trans (.foldl (furnishes_assignRing x p) m.rings _)
  have groups : Furnishes s2 s3 := .foldl (furnishes_assignGroup x p _) _ s2
  have trees : Furnishes s3 s4 := .foldl furnishes_assignTree _ s3
  have units : Furnishes s4 s5 := (((furnishes_writeRanks s4 m).trans (furnishes_loadReduce _ p m)).trans
    (furnishes_loadCkpt _ p m)).trans (furnishes_freshTrain _ p m)
  have told := (furnishes_placeDigest s5 x p m v).trans (furnishes_recordHints _ x p v.hints)
  exact ⟨_, (((rings.trans groups).trans trees).trans units).trans told, rfl⟩

theorem installCtx_results (s : State) (x p : Nat) (bs : List Byte) (m : Manifest) (v : Placement) :
    getCtx (installCtx s x p bs m v) x = placedCtx p bs m v
      ∧ (∀ y, y ≠ x → getCtx (installCtx s x p bs m v) y = getCtx s y)
      ∧ flg (installCtx s x p bs m v) Reg.PLC_STATUS Fld.PLC_STATUS_LOCKED = true
      ∧ (∀ f, f ∈ m.flags → f.barrier = false → getFlag (installCtx s x p bs m v) f.index = FlagSt.off)
      ∧ bootPhase (installCtx s x p bs m v) = (if bootPhase s = 8 then 9 else bootPhase s)
      ∧ SameBytes s (installCtx s x p bs m v) := by
  obtain ⟨t, kept, eq⟩ := installCtx_furnished s x p bs m v
  have flagsFrame := loadFlags_frame (setCtx s x (placedCtx p bs m v)) m.flags
  have reports := onlyReports_lockSync t
  unfold OnlyReports at reports
  have ctxs : t.ctxs = (setCtx s x (placedCtx p bs m v)).ctxs := by rw [kept.ctxs, flagsFrame]
  have mem : t.mem = s.mem := by
    rw [kept.mem, flagsFrame]
    rfl
  have phase : bootPhase t = bootPhase s := by
    rw [bootPhase, fld, kept.boot, flagsFrame]
    rfl
  have ctx : getCtx t x = placedCtx p bs m v := (getCtx_of_ctxs ctxs x).trans (getCtx_setCtx ..)
  have resident : residents t ≠ [] := residents_ne_nil (x := x) (by rw [ctx]; exact nofun)
  have ctxs' : (lockSync t).ctxs = t.ctxs := by rw [reports]
  rw [eq]
  refine ⟨(getCtx_of_ctxs ctxs' x).trans ctx, fun y hy => ?_, ?_, fun f mem flag => ?_, ?_, fun b => readByte_congr ?_ b⟩
  · exact ((getCtx_of_ctxs ctxs' y).trans (getCtx_of_ctxs ctxs y)).trans (getCtx_setCtx_other s _ hy)
  · rw [flg_lockSync, List.isEmpty_eq_false_iff.mpr resident]
    rfl
  · have same : (lockSync t).flags = (loadFlags (setCtx s x (placedCtx p bs m v)) m.flags).flags := by rw [reports, ← kept.flags]
    rw [getFlag, same]
    exact getFlag_loadFlags _ _ f mem flag
  · rw [bootPhase_lockSync resident, phase]
  · rw [reports]
    exact mem

end Sys2Proof.Machine
end

section
/-! CTX_LOAD, CTX_UNLOAD and CTX_HANDLES (R29, R39, R222, R279, R453). -/

namespace Sys2Proof.Machine

/-! ### CTX_LOAD -/

section
variable {s : State} {n tag x a len : Nat} {man : Manifest} (hx : x < 64) (free : (getCtx s x).st = .free)
  (phase : 8 ≤ bootPhase s) (keeper : s.keeper.held = false) (here : firstBad s none a len = none) (clean : poisoned s a len = false)
  (fits : manifestFault s (readBytes s a len) (dequeFault (readBytes s a len) man) = none) (alone : man.ranks = none)
  (clocks : clocksDown s (leField (readBytes s a len) 12 2) = false)
include hx free phase keeper here clean fits alone clocks

theorem ctxLoad_placed :
    ctxLoad s n tag x a len none man = placeCtx s x (leField (readBytes s a len) 12 2) (readBytes s a len) man := by
  have admitted : ¬((getCtx s x).st ≠ .free ∨ bootPhase s < 8 ∨ s.keeper.held = true) := by simp [free, phase, keeper]
  simp only [ctxLoad, Nat.not_le.mpr hx, admitted, here, clean, Option.none_or, fits, clocks, alone, Option.isSome_none, Bool.false_and,
    Bool.false_eq_true, if_false]

theorem ctxLoad_refused {e : Short} (judged : judgeLoad s x (leField (readBytes s a len) 12 2) len man = .error e) :
    ctxLoad s n tag x a len none man = refusedWith { s with free := s.free + 2 }
      { plainRec 0x1202 sevError x e.d0 e.d1 e.d2 (leField (readBytes s a len) 12 2) with
        part := some (leField (readBytes s a len) 12 2), ctx := some x } := by
  rw [ctxLoad_placed hx free phase keeper here clean fits alone clocks, placeCtx, length_readBytes, judged]

theorem ctxLoad_accepted {v : Placement} (judged : judgeLoad s x (leField (readBytes s a len) 12 2) len man = .ok v) :
    ctxLoad s n tag x a len none man
      = okay (installCtx s x (leField (readBytes s a len) 12 2) (readBytes s a len) man v) := by
  rw [ctxLoad_placed hx free phase keeper here clean fits alone clocks, placeCtx, length_readBytes, judged]

end

/-! ### CTX_UNLOAD -/

theorem noteHeld_frame (s : State) (p : Nat) : noteHeld s p = { s with regs := (noteHeld s p).regs } := by
  unfold noteHeld
  extract_lets k r t
  split <;> rfl

/-- Cells of an unloaded context are free; registers and the error log tell of them (R222). -/
theorem releaseCells_frame (s : State) (x : Nat) :
    releaseCells s x = { s with cells := (releaseCells s x).cells, regs := (releaseCells s x).regs, recs := (releaseCells s x).recs
                                recSeq := (releaseCells s x).recSeq } := by
  have freed (l : List Nat) (s : State) : l.foldl (fun s c => setCell s c Cell.free) s
      = { s with cells := (l.foldl (fun s c => setCell s c Cell.free) s).cells } := by
    induction l generalizing s with
    | nil => rfl
    | cons c l ih => exact ih (setCell s c Cell.free)
  unfold releaseCells
  extract_lets p
  split
  · rfl
  · extract_lets first k t
    have cells : t = { s with cells := t.cells } := freed _ s
    rw [noteHeld_frame, cells]
    rfl

theorem getCell_releaseCells (s : State) (x : Nat) : ∀ c ∈ cellsHeld s x, getCell (releaseCells s x) c = Cell.free := by
  have freed (l : List Nat) (s : State) : ∀ c ∈ l, getCell (l.foldl (fun s c => setCell s c Cell.free) s) c = Cell.free := by
    refine foldl_reaches (P := fun c s => getCell s c = Cell.free) (fun s c => getCell_setCell ..) (fun s c d off => ?_) l s
    by_cases same : c = d
    · rw [same]
      exact getCell_setCell ..
    · rwa [getCell_setCell_other s _ same]
  intro c mem
  unfold releaseCells
  extract_lets p
  split
  · next none => exact absurd (none ▸ mem) List.not_mem_nil
  · next d ds held =>
    rw [noteHeld_frame]
    exact freed (d :: ds) s c (held ▸ mem)

/-- A ring of an unloaded context, CLOSED (R279). -/
def closedRing (r : Ring) : Ring := { r with st := 2, prior := 2, resetBy := none, ops := [], active := [] }

theorem closeRings_frame (s : State) (x : Nat) : closeRings s x = { s with rings := (closeRings s x).rings } := by
  unfold closeRings
  generalize ringsOfSlot s x = l
  induction l generalizing s with
  | nil => rfl
  | cons e l ih => exact ih (setRing s e.1 (closedRing e.2))

theorem getRing_closeRings (s : State) (x : Nat) :
    ∀ r ∈ ringsOfSlot s x, (getRing (closeRings s x) r.1).st = 2 ∧ (getRing (closeRings s x) r.1).ops = [] := by
  have own (s : State) (e : Nat × Ring) : (getRing (setRing s e.1 (closedRing e.2)) e.1).st = 2
      ∧ (getRing (setRing s e.1 (closedRing e.2)) e.1).ops = [] := by
    rw [getRing_setRing]
    exact ⟨rfl, rfl⟩
  refine foldl_reaches (P := fun (e : Nat × Ring) s => (getRing s e.1).st = 2 ∧ (getRing s e.1).ops = []) own (fun s e f closed => ?_) _ s
  by_cases same : e.1 = f.1
  · rw [same]
    exact own s f
  · show (getRing (setRing s f.1 (closedRing f.2)) e.1).st = 2 ∧ (getRing (setRing s f.1 (closedRing f.2)) e.1).ops = []
    rwa [getRing_setRing_other s _ same]

theorem dropUnits_frame (s : State) (x : Nat) :
    dropUnits s x = { s with regs := (dropUnits s x).regs, train := (dropUnits s x).train, chunkBufs := (dropUnits s x).chunkBufs
                             serv := (dropUnits s x).serv } := by
  unfold dropUnits
  extract_lets p
  split
  · rfl
  · next m _ =>
    extract_lets t
    have units : t = { s with regs := t.regs, train := t.train, chunkBufs := t.chunkBufs } := by
      unfold t
      split <;> rfl
    split <;> rw [units]

/-- The state of an unloaded context's objects, before its slot is FREE. -/
def objectsFreed (s : State) (x : Nat) : State := dropUnits (freeGroups (closeRings (releaseCells s x) x) x) x

/-- What unloading leaves of contexts, memory, cells and rings. -/
theorem objectsFreed_keeps (s : State) (x : Nat) :
    (objectsFreed s x).ctxs = s.ctxs ∧ (objectsFreed s x).mem = s.mem ∧ (objectsFreed s x).cells = (releaseCells s x).cells
      ∧ (objectsFreed s x).rings = (closeRings (releaseCells s x) x).rings := by
  have h : objectsFreed s x = { closeRings (releaseCells s x) x with
      trees := (freeGroups (closeRings (releaseCells s x) x) x).trees, grps := (freeGroups (closeRings (releaseCells s x) x) x).grps
      regs := (objectsFreed s x).regs, train := (objectsFreed s x).train, chunkBufs := (objectsFreed s x).chunkBufs
      serv := (objectsFreed s x).serv } := by
    unfold objectsFreed
    rw [dropUnits_frame]
    rfl
  have rings := closeRings_frame (releaseCells s x) x
  have cells := releaseCells_frame s x
  refine ⟨?_, ?_, ?_, ?_⟩
  · rw [h, rings, cells]
  · rw [h, rings, cells]
  · rw [h, rings]
  · rw [h]

theorem ctxUnload_done {s : State} {x : Nat} (hx : x < 64) (keeper : s.keeper.held = false)
    (ended : (getCtx s x).st = .faulted ∨ (getCtx s x).st = .stopped) :
    ctxUnload s x = okay (lockSync (setCtx (objectsFreed s x) x Ctx.free)) := by
  rw [ctxUnload, if_neg (Nat.not_le.mpr hx), if_neg (by rw [keeper]; exact Bool.false_ne_true)]
  rcases ended with h | h <;> rw [h] <;> rfl

theorem unloaded_results (s : State) (x : Nat) {u : State} (hu : u = lockSync (setCtx (objectsFreed s x) x Ctx.free)) :
    getCtx u x = Ctx.free
      ∧ (∀ y, y ≠ x → getCtx u y = getCtx s y) ∧ (∀ c, c ∈ cellsHeld s x → getCell u c = Cell.free)
      ∧ (∀ r, r ∈ ringsOfSlot s x → (getRing u r.1).st = 2 ∧ (getRing u r.1).ops = [])
      ∧ (residents u = [] → flg u Reg.PLC_STATUS Fld.PLC_STATUS_LOCKED = false)
      ∧ SameBytes s u := by
  obtain ⟨ctxs, mem, cells, rings⟩ := objectsFreed_keeps s x
  have reports := onlyReports_lockSync (setCtx (objectsFreed s x) x Ctx.free)
  rw [← hu] at reports
  unfold OnlyReports at reports
  have ctxs' : u.ctxs = (setCtx (objectsFreed s x) x Ctx.free).ctxs := by rw [reports]
  have kept : (releaseCells s x).rings = s.rings := by rw [releaseCells_frame]
  refine ⟨(getCtx_of_ctxs ctxs' x).trans (getCtx_setCtx ..), fun y hy => ?_, fun c held => ?_, fun r held => ?_, fun none => ?_,
    fun b => readByte_congr ?_ b⟩
  · exact ((getCtx_of_ctxs ctxs' y).trans (getCtx_setCtx_other _ _ hy)).trans (getCtx_of_ctxs ctxs y)
  · have same : u.cells = (releaseCells s x).cells := by
      rw [reports]
      exact cells
    rw [getCell, same]
    exact getCell_releaseCells s x c held
  · have same : u.rings = (closeRings (releaseCells s x) x).rings := by
      rw [reports]
      exact rings
    rw [getRing, same]
    refine getRing_closeRings (releaseCells s x) x r ?_
    rwa [ringsOfSlot, kept]
  · have empty : residents (setCtx (objectsFreed s x) x Ctx.free) = [] := by rw [← none, residents, residents, ctxs']
    rw [hu, flg_lockSync, empty]
    rfl
  · rw [reports]
    exact mem

/-! ### CTX_HANDLES -/

theorem length_pairs {α : Type} (f g : Nat → α) (n : Nat) : ((List.range n).flatMap fun i => [f i, g i]).length = 2 * n := by
  simp [List.length_flatMap, Nat.mul_comm]

/-- In a list of pairs, the members of the pair `i` stand at `2 * i` and next to it. -/
theorem getD_pairs {α : Type} (f g : Nat → α) (d : α) {n i : Nat} (h : i < n) :
    ((List.range n).flatMap fun i => [f i, g i]).getD (2 * i) d = f i
      ∧ ((List.range n).flatMap fun i => [f i, g i]).getD (2 * i + 1) d = g i := by
  induction n with
  | zero => omega
  | succ n ih =>
    have len := length_pairs f g n
    rw [List.range_succ, List.flatMap_append, List.flatMap_singleton]
    by_cases last : i = n
    · subst last
      rw [List.getD_append_right _ _ _ _ (by omega), List.getD_append_right _ _ _ _ (by omega), len, Nat.sub_self, Nat.add_sub_cancel_left]
      exact ⟨rfl, rfl⟩
    · rw [List.getD_append _ _ _ _ (by omega), List.getD_append _ _ _ _ (by omega)]
      exact ih (by omega)

theorem ctxHandles_shown {s : State} {x first count : Nat} (hx : x < 64) (live : (getCtx s x).st ≠ .free) (pos : 1 ≤ count)
    (most : count ≤ 128) (within : first + count ≤ 16384) :
    ctxHandles s x first count
      = (s, some ⟨0, (List.range count).flatMap fun i => [(handleOf s x 0 (first + i)).w0, (handleOf s x 0 (first + i)).w1], []⟩) := by
  rw [ctxHandles, if_neg (by omega), if_neg live]
  rfl

/-- Settles O54: the placed context's record stays as the load furnishes it; unloading frees the objects, then the slot. -/
theorem contextLoading : Obligations.ContextLoading := by
  refine ⟨fun s n tag x a len man asked boot hx free phase keeper here clean fits alone => ?_,
    fun s n tag x asked boot hx keeper ended => ?_, fun s n tag x first count asked boot hx live pos most within => ?_⟩
  · intro bs p clocks
    refine ⟨fun e judged => ?_, fun v judged => ?_⟩
    · exact ⟨_, _, _, hostRow_served asked boot (r := .ctxLoad x a len none man)
        (ctxLoad_refused hx free phase keeper here clean fits alone clocks judged), rfl, rfl, rfl, rfl, rfl, rfl, rfl, rfl, rfl, rfl, rfl⟩
    · obtain ⟨record, others, lock, flags, boots, bytes⟩ := installCtx_results s x p bs man v
      exact ⟨_, hostRow_served asked boot (r := .ctxLoad x a len none man)
        (ctxLoad_accepted hx free phase keeper here clean fits alone clocks judged), congrArg Ctx.st record, congrArg Ctx.part record,
        congrArg Ctx.man record, congrArg Ctx.image record, others, lock, flags, boots, bytes⟩
  · exact ⟨_, hostRow_served asked boot (r := .ctxUnload x) (ctxUnload_done hx keeper ended), unloaded_results s x rfl⟩
  · exact ⟨_, hostRow_served asked boot (r := .ctxHandles x first count) (ctxHandles_shown hx live pos most within), length_pairs _ _ count,
      fun i hi => getD_pairs _ _ _ hi⟩

end Sys2Proof.Machine
end

section
/-! The register sets of the arrays (R91, R101 to R104): A.LDW and A.SWP, and the set that a streamed product leaves. -/

namespace Sys2Proof.Machine

/-! ### Steps that change contexts alone -/

/-- A step that changes contexts and nothing else. -/
def OnlyCtxs (s t : State) : Prop := t = { s with ctxs := t.ctxs }

theorem OnlyCtxs.trans {s t u : State} (h : OnlyCtxs s t) (k : OnlyCtxs t u) : OnlyCtxs s u := by
  unfold OnlyCtxs at *
  rw [k, h]

theorem onlyCtxs_setCtx (s : State) (x : Nat) (c : Ctx) : OnlyCtxs s (setCtx s x c) := rfl

theorem onlyCtxs_setRun (s : State) (x l : Nat) (r : Option Running) : OnlyCtxs s (setRun s x l r) := onlyCtxs_setCtx ..

theorem onlyCtxs_markExecuted (s : State) (x l id : Nat) : OnlyCtxs s (markExecuted s x l id) := by
  unfold markExecuted
  split
  · rfl
  · split
    · rfl
    · exact onlyCtxs_setRun ..

/-! ### The sets of a core's arrays -/

/-- The register sets of the masked arrays of core `l` changed. -/
def changeSets (s : State) (x l : Nat) (mask : Fin 16) (g : ArrSets → ArrSets) : State :=
  setCore s x l (mapArrays (getCore s x l) mask g)

/-- One more load of a weight set is counted (R173). -/
def countLoad (s : State) (x : Nat) : State := setCtx s x { getCtx s x with loads := (getCtx s x).loads + 1 }

theorem arrSets_mapArrays {k : CoreCtx} (mask : Fin 16) (g : ArrSets → ArrSets) {a : Nat} (h : a < k.arrays.length) :
    arrSets (mapArrays k mask g) a = if mask.val.testBit a then g (arrSets k a) else arrSets k a := by
  simp [arrSets, mapArrays, List.getD_eq_getElem?_getD, h]

theorem arrSets_run (k : CoreCtx) (r : Option Running) (a : Nat) : arrSets { k with run := r } a = arrSets k a := rfl

section
variable (s : State) (x l : Nat) (mask : Fin 16) (g : ArrSets → ArrSets)

@[simp] theorem getCore_changeSets : getCore (changeSets s x l mask g) x l = mapArrays (getCore s x l) mask g := getCore_setCore ..

@[simp] theorem getRun_changeSets : getRun (changeSets s x l mask g) x l = getRun s x l := by
  rw [getRun, getCore_changeSets]
  rfl

/-- The sets of a core where those of its masked arrays changed and its task was written anew. -/
theorem arrSets_setRun_changeSets (r : Option Running) {a : Nat} (h : a < (getCore s x l).arrays.length) :
    arrSets (getCore (setRun (changeSets s x l mask g) x l r) x l) a
      = if mask.val.testBit a then g (arrSets (getCore s x l) a) else arrSets (getCore s x l) a := by
  rw [getCore_setRun, getCore_changeSets, arrSets_run, arrSets_mapArrays mask g h]

theorem getCore_changeSets_core {i : Nat} (h : i ≠ l) : getCore (changeSets s x l mask g) x i = getCore s x i :=
  getCore_setCore_core s x _ h

theorem getCtx_changeSets_other {y : Nat} (h : y ≠ x) : getCtx (changeSets s x l mask g) y = getCtx s y :=
  getCtx_setCtx_other s _ h

@[simp] theorem getCore_countLoad (i : Nat) : getCore (countLoad s x) x i = getCore s x i := by
  rw [getCore, countLoad, getCtx_setCtx]
  rfl

@[simp] theorem getRun_countLoad : getRun (countLoad s x) x l = getRun s x l := by
  rw [getRun, getCore_countLoad]
  rfl

theorem onlyCtxs_changeSets : OnlyCtxs s (changeSets s x l mask g) := onlyCtxs_setCtx ..

theorem onlyCtxs_countLoad : OnlyCtxs s (countLoad s x) := onlyCtxs_setCtx ..

theorem getCtx_countLoad_other {y : Nat} (h : y ≠ x) : getCtx (countLoad s x) y = getCtx s y := getCtx_setCtx_other s _ h

end

/-! ### Weights read from memory -/

theorem loadCols_congr {s t : State} (mem : t.mem = s.mem) (ctxs : t.ctxs = s.ctxs) (x l : Nat) (q : LoadRec) :
    loadCols t x l q = loadCols s x l q := by
  simp only [loadCols, weightSet, weightRow, handleOf_of_ctxs ctxs, ftzOf_of_ctxs ctxs, rowNums_congr mem]

/-! ### A.LDW -/

section
variable {s m : State} {x l id : Nat} {r : Running} {f : Flight} {o : AOps}

/-- The load record that an A.LDW leaves (R101, R173). -/
def ldwRec (s : State) (x : Nat) (f : Flight) (o : AOps) : LoadRec :=
  let tw := f.regs.getT o.tw
  let c := arrCount (f.regs.getG o.gc)
  ⟨(getCtx s x).loads, tw, o.nsel.val, o.ksel.val, c.nq * arrN o, c.kq * arrK o ((arrKmax tw.format).getD 0)⟩

/-- Whether the weights of an A.LDW are poisoned (R155). -/
def ldwPoisoned (m : State) (x l : Nat) (f : Flight) (o : AOps) : Bool :=
  let tw := f.regs.getT o.tw
  let c := arrCount (f.regs.getG o.gc)
  let k := arrK o ((arrKmax tw.format).getD 0)
  weightPoisoned m (handleOf m x l tw.handle).base tw (c.nq * arrN o) (arrN o) (c.kq * k) k

theorem exec_aLdw (h : Started s x l id r f (.aLdw o)) (ecc : List EccEvent) :
    exec (.aLdw x l id ecc) s = .next (runLdw (ldwMeet s x l f o ecc) x l f o) := by
  show execALdw x l id ecc s = _
  simp only [execALdw, h.1, h.2]

theorem runLdw_clean (clean : ldwPoisoned m x l f o = false) :
    runLdw m x l f o = markExecuted (changeSets (countLoad m x) x l o.mask fun v =>
      { v with shadow := ⟨.ready, some (ldwRec m x f o), loadCols m x l (ldwRec m x f o)⟩ }) x l f.id :=
  if_neg (Bool.eq_false_iff.mp clean)

theorem runLdw_poisoned (bad : ldwPoisoned m x l f o = true) :
    runLdw m x l f o
      = faultInstr (abandonFlight (changeSets m x l o.mask fun v => { v with shadow := WSet.none }) x l f.id) x l f.pc :=
  if_pos bad

theorem ldwRec_of_ctxs (ctxs : m.ctxs = s.ctxs) : ldwRec m x f o = ldwRec s x f o := by
  simp only [ldwRec, getCtx_of_ctxs ctxs]

/-- The shadow sets take the weights, and the load is counted. -/
theorem ldw_loads (started : Started s x l id r f (.aLdw o)) (meet : OnlyMeet s m) (clean : ldwPoisoned m x l f o = false) :
    Executed (runLdw m x l f o) x l id
      ∧ (∀ a, a < (getCore s x l).arrays.length → arrSets (getCore (runLdw m x l f o) x l) a
          = if o.mask.val.testBit a
            then ⟨(arrSets (getCore s x l) a).active, ⟨.ready, some (ldwRec s x f o), loadCols s x l (ldwRec s x f o)⟩⟩
            else arrSets (getCore s x l) a)
      ∧ (getCore (runLdw m x l f o) x l).deque = (getCore s x l).deque
      ∧ (∀ i, i ≠ l → getCore (runLdw m x l f o) x i = getCore s x i)
      ∧ (∀ y, y ≠ x → getCtx (runLdw m x l f o) y = getCtx s y)
      ∧ OnlyCtxs m (runLdw m x l f o) := by
  obtain ⟨run, flight, -⟩ := startedAt_spec started.1
  have core := getCore_of_ctxs meet.ctxs x
  rw [runLdw_clean clean, id_of_inFlight flight, ldwRec_of_ctxs meet.ctxs, loadCols_congr meet.mem meet.ctxs]
  have run' : getRun (changeSets (countLoad m x) x l o.mask fun v =>
      { v with shadow := ⟨.ready, some (ldwRec s x f o), loadCols s x l (ldwRec s x f o)⟩ }) x l = some r := by
    rw [getRun_changeSets, getRun_countLoad, getRun_of_ctxs meet.ctxs, run]
  refine ⟨executed_markExecuted run' flight, ?_⟩
  rw [markExecuted_eq run' flight]
  refine ⟨fun a ha => ?_, ?_, fun i hi => ?_, fun y hy => ?_,
    ((onlyCtxs_countLoad ..).trans (onlyCtxs_changeSets ..)).trans (onlyCtxs_setRun ..)⟩
  · rw [arrSets_setRun_changeSets, getCore_countLoad, core]
    rwa [getCore_countLoad, core]
  · rw [getCore_setRun, getCore_changeSets, getCore_countLoad, core]
    rfl
  · rw [getCore_setRun_core _ _ _ hi, getCore_changeSets_core _ _ _ _ _ hi, getCore_countLoad, core]
  · rw [getCtx_setRun_other _ _ _ hy, getCtx_changeSets_other _ _ _ _ _ hy, getCtx_countLoad_other _ _ hy, getCtx_of_ctxs meet.ctxs]

theorem getCore_faultCtx_running {u : State} (running : runningCtx u x = true) : getCore (faultCtx u x) x l = getCore u x l := by
  rw [getCore, getCtx_faultCtx_running running]
  rfl

/-- Poisoned weights leave the shadow sets EMPTY, and the context of a plain task faults. -/
theorem ldw_stopped (started : Started s x l id r f (.aLdw o)) (meet : OnlyMeet s m) (bad : ldwPoisoned m x l f o = true)
    (running : runningCtx s x = true) (plain : r.task.kind = .plain) :
    (getCtx (runLdw m x l f o) x).st = .faulted
      ∧ ∀ a, a < (getCore s x l).arrays.length → o.mask.val.testBit a = true →
          arrSets (getCore (runLdw m x l f o) x l) a = ⟨(arrSets (getCore s x l) a).active, WSet.none⟩ := by
  obtain ⟨run, flight, -⟩ := startedAt_spec started.1
  have run' : getRun (changeSets m x l o.mask fun v => { v with shadow := WSet.none }) x l = some r := by
    rw [getRun_changeSets, getRun_of_ctxs meet.ctxs, run]
  have running' : runningCtx (setRun (changeSets m x l o.mask fun v => { v with shadow := WSet.none }) x l (some (r.dropFlight id))) x = true := by
    rw [runningCtx_setRun, changeSets, runningCtx_setCore, runningCtx_congr meet.ctxs, running]
  have kind := (taskKindOf_setRun (changeSets m x l o.mask fun v => { v with shadow := WSet.none }) x l (r.dropFlight id)).trans plain
  rw [runLdw_poisoned bad, id_of_inFlight flight, abandonFlight_eq run', faultInstr_plain kind]
  refine ⟨by rw [getCtx_faultCtx_running running'], fun a ha masked => ?_⟩
  rw [← getCore_of_ctxs meet.ctxs] at ha ⊢
  rw [getCore_faultCtx_running running', arrSets_setRun_changeSets _ _ _ _ _ _ ha, if_pos masked]

/-! ### A.SWP -/

theorem exec_aSwp (h : Started s x l id r f (.aSwp o)) : exec (.aSwp x l id) s = .next (runSwp s x l f o) := by
  show execASwp x l id s = _
  simp only [execASwp, h.1, h.2]

theorem swp_results (started : Started s x l id r f (.aSwp o)) :
    Executed (runSwp s x l f o) x l id ∧ OnlyCore s (runSwp s x l f o) x l
      ∧ (∀ a, a < (getCore s x l).arrays.length → arrSets (getCore (runSwp s x l f o) x l) a
          = if o.mask.val.testBit a then ⟨(arrSets (getCore s x l) a).shadow, (arrSets (getCore s x l) a).active⟩
            else arrSets (getCore s x l) a)
      ∧ (getCore (runSwp s x l f o) x l).deque = (getCore s x l).deque := by
  obtain ⟨run, flight, -⟩ := startedAt_spec started.1
  have run' : getRun (changeSets s x l o.mask fun v => ⟨v.shadow, v.active⟩) x l = some r := by rw [getRun_changeSets, run]
  have swapped : runSwp s x l f o = markExecuted (changeSets s x l o.mask fun v => ⟨v.shadow, v.active⟩) x l id := by
    rw [← id_of_inFlight flight]
    rfl
  rw [swapped]
  refine ⟨executed_markExecuted run' flight, ?_⟩
  rw [markExecuted_eq run' flight]
  refine ⟨?_, fun a ha => ?_, ?_⟩
  · rw [OnlyCore, getCore_setRun, setRun, changeSets, setCore_setCore, getCore_setCore]
  · rw [arrSets_setRun_changeSets _ _ _ _ _ _ ha]
  · rw [getCore_setRun, getCore_changeSets]
    rfl

end

end Sys2Proof.Machine
end

section
/-! Products and drains (R68, R96 to R100, R107, R175 to R179): the rows they write, the accumulators they leave, and their
exceptions. -/

namespace Sys2Proof.Machine

/-! ### Rows in the accumulators -/

section
variable {s m : State} (mem : m.mem = s.mem) (ctxs : m.ctxs = s.ctxs) (x l : Nat) (mult : Bool) (f : Flight) (o : AOps)
include ctxs

omit l in
theorem streamRecs_of_ctxs : streamRecs m x mult f o = streamRecs s x mult f o := by
  simp only [streamRecs, getCtx_of_ctxs ctxs]

theorem prodRec_of_ctxs : prodRec m x l mult f o = prodRec s x l mult f o := by
  simp only [prodRec, streamRecs_of_ctxs ctxs, getCore_of_ctxs ctxs]

include mem

theorem prodSets_congr : prodSets m x l mult f o = prodSets s x l mult f o := by
  have cols : loadCols m x l = loadCols s x l := funext (loadCols_congr mem ctxs x l)
  simp only [prodSets, streamRecs_of_ctxs ctxs, getCore_of_ctxs ctxs, cols]

theorem prodRows_congr (n : Nat) : prodRows m x l mult f o n = prodRows s x l mult f o n := by
  simp only [prodRows, handleOf_of_ctxs ctxs, prodSets_congr mem ctxs, rowNums_congr mem, ftzOf_of_ctxs ctxs]

end

/-! ### Drains -/

/-- The scale of the weights that a drain applies (R68, R99). -/
def weightScale (q : Option LoadRec) : FNum := q.elim (.fin false 1 0) (fun q => q.desc.scaleNum)

/-- The rows that a drain writes into one destination (R68, R176). -/
def drainOuts (s : State) (x : Nat) (ta : Desc) (q : Option LoadRec) (rows : List AccRow) (d : DrainTo) : List RowOut :=
  rows.zipIdx.map fun (a, n) => (drainRow (ftzOf s x) (seedOf s x) ta.scaleNum (weightScale q) d n a).out d.td.format n

/-- The destinations of a drain written, one after the other. -/
def drainWrites (s : State) (x l : Nat) (ta : Desc) (q : Option LoadRec) (rows : List AccRow) (dests : List DrainTo) : State :=
  dests.foldl (fun t d => writeRows t x l d.td (drainOuts s x ta q rows d)) s

theorem OnlyNum.foldl {α : Type} {x l : Nat} {f : State → α → State} (h : ∀ s a, OnlyNum x l s (f s a)) (as : List α) (s : State) :
    OnlyNum x l s (as.foldl f s) := by
  induction as generalizing s with
  | nil => exact OnlyNum.refl x l s
  | cons a as ih => exact (h s a).trans (ih _)

theorem onlyRows_foldl_writeRows (x l : Nat) (outs : DrainTo → List RowOut) (dests : List DrainTo) (s : State) :
    OnlyRows s (dests.foldl (fun t d => writeRows t x l d.td (outs d)) s) := by
  induction dests generalizing s with
  | nil => rfl
  | cons d dests ih => exact (onlyRows_writeRows ..).trans (ih _)

/-- The rows cast, numbered again as they are written. -/
theorem zipIdx_casts_out (rows : List AccRow) (cast : Nat → AccRow → RowCast) (fmt : Nat) :
    ((rows.zipIdx.map fun (a, n) => cast n a).zipIdx.map fun (v, n) => v.out fmt n)
      = rows.zipIdx.map fun (a, n) => (cast n a).out fmt n := by
  apply List.ext_getElem
  · simp
  · intro n hn hn'
    simp

/-- A drain writes its destinations; after that it records exceptions alone. -/
theorem onlyNum_runDrain (s : State) (x l pc prodPc : Nat) (mask : Fin 16) (ta : Desc) (q : Option LoadRec) (rows : List AccRow)
    (dests : List DrainTo) :
    OnlyNum x l (drainWrites s x l ta q rows dests) (runDrain s x l pc prodPc mask ta q rows dests) := by
  unfold runDrain
  extract_lets ftz seed sA
  split
  next sB wh pair =>
  have scale : sB = weightScale q := by
    cases q <;> exact (congrArg Prod.fst pair).symm
  extract_lets casts sites s1 inval s2 s3
  have writes : s1 = drainWrites s x l ta q rows dests := by
    simp only [s1, casts, scale, List.foldl_map, zipIdx_casts_out]
    rfl
  have exc : OnlyNum x l s1 s2 := by
    refine OnlyNum.foldl (fun s c => ?_) casts s1
    exact onlyNum_recordExc s ⟨x, l, pc, c.1.td.handle, c.1.td.format, c.1.sat⟩ _
  have invalid : OnlyNum x l s2 s3 := by
    unfold s3
    split
    · exact OnlyNum.refl ..
    · exact onlyNum_recordInvalid ..
  rw [← writes]
  refine (exc.trans invalid).trans (OnlyNum.foldl (fun s c => ?_) casts s3)
  exact onlyNum_recordOverflow s ⟨x, l, pc, c.1.td.handle, c.1.td.format, c.1.sat⟩ _

section
variable {s m : State} {x l id : Nat} {r : Running} {f : Flight}

/-- All that a drain, and the end of its instruction, can change. -/
def OnlyDrained (s t : State) : Prop :=
  t = { s with ctxs := t.ctxs, mem := t.mem, poison := t.poison, train := t.train, regs := t.regs, recs := t.recs, recSeq := t.recSeq,
               thrLogged := t.thrLogged }

/-! ### A product that drains itself -/

theorem exec_product {mult : Bool} {c : Instr} {i : CInstr} {o : AOps} {ecc : List EccEvent}
    (which : (mult = false ∧ c = .aMul x l id ecc ∧ i = .aMul o) ∨ (mult = true ∧ c = .aMult x l id ecc ∧ i = .aMult o))
    (h : Started s x l id r f i) : exec c s = .next (productCmd s x l mult f o ecc) := by
  rcases which with ⟨rfl, rfl, rfl⟩ | ⟨rfl, rfl, rfl⟩
  · show execAMul x l id ecc s = _
    simp only [execAMul, h.1, h.2]
  · show execAMult x l id ecc s = _
    simp only [execAMult, h.1, h.2]

theorem onlyMeet_prodMeet (s : State) (x l : Nat) (mult : Bool) (f : Flight) (o : AOps) (ecc : List EccEvent) :
    OnlyMeet s (prodMeet s x l mult f o ecc) := onlyMeet_meet ..

/-- What a streamed product leaves in the register sets changes contexts alone, and no task. -/
theorem afterStream_keeps (s : State) (x l : Nat) (mult : Bool) (f : Flight) (o : AOps) :
    getRun (afterStream s x l mult f o) x l = getRun s x l
      ∧ OnlyCtxs s (afterStream s x l mult f o)
      ∧ (o.strm = false → afterStream s x l mult f o = s) := by
  unfold afterStream
  split
  · next strm =>
    refine ⟨?_, ?_, fun resident => absurd strm (Bool.eq_false_iff.mp resident)⟩
    · split
      · rfl
      · next q _ =>
        exact (getRun_changeSets (countLoad s x) x l o.mask fun _ => ⟨⟨.ready, some q, loadCols s x l q⟩, WSet.none⟩).trans
          (getRun_countLoad s x l)
    · split
      · rfl
      · exact (onlyCtxs_countLoad s x).trans (onlyCtxs_changeSets ..)
  · exact ⟨rfl, rfl, fun _ => rfl⟩

/-- The destination of a product that drains itself. -/
def ownDest (f : Flight) (o : AOps) : DrainTo := ⟨f.regs.getT o.td, o.rnd, o.sat, (f.regs.getG o.gt).toNat⟩

/-- The rows that a product writes. -/
def productOuts (s : State) (x l : Nat) (mult : Bool) (f : Flight) (o : AOps) : List RowOut :=
  drainOuts s x (f.regs.getT o.ta) (prodRec s x l mult f o) (prodRows s x l mult f o (f.regs.getT o.ta).rows) (ownDest f o)

/-- The state in which a product without poison has drained into TD. -/
def drained (m : State) (x l : Nat) (mult : Bool) (f : Flight) (o : AOps) : State :=
  runDrain m x l f.pc f.pc o.mask (f.regs.getT o.ta) (prodRec m x l mult f o) (prodRows m x l mult f o (f.regs.getT o.ta).rows)
    [ownDest f o]

theorem productCmd_drains {mult : Bool} {o : AOps} {ecc : List EccEvent} (direct : o.defer = false)
    (hm : m = prodMeet s x l mult f o ecc) (clean : prodPoison m x l mult f o = none) :
    productCmd s x l mult f o ecc = markExecuted (afterStream (drained m x l mult f o) x l mult f o) x l f.id := by
  simp only [productCmd, ← hm, direct, Bool.false_and, Bool.false_eq_true, if_false, runProduct, clean, rowsDone, Option.isNone_none,
    if_true, endEngine, drained, ownDest]

theorem drainOuts_of_ctxs (ctxs : m.ctxs = s.ctxs) (ta : Desc) (q : Option LoadRec) (rows : List AccRow) (d : DrainTo) :
    drainOuts m x ta q rows d = drainOuts s x ta q rows d := by
  have seed : seedOf m x = seedOf s x := by simp only [seedOf, manOf, getCtx_of_ctxs ctxs]
  simp only [drainOuts, ftzOf_of_ctxs ctxs, seed]

/-- What a drain leaves besides the bytes of its destinations. -/
theorem runDrain_frame (meet : OnlyMeet s m) (pc prodPc : Nat) (mask : Fin 16) (ta : Desc) (q : Option LoadRec) (rows : List AccRow)
    (dests : List DrainTo) :
    (runDrain m x l pc prodPc mask ta q rows dests).mem = (drainWrites m x l ta q rows dests).mem
      ∧ (runDrain m x l pc prodPc mask ta q rows dests).ctxs = s.ctxs
      ∧ SameRegsBut m (runDrain m x l pc prodPc mask ta q rows dests) (numRegs s x l)
      ∧ OnlyDrained m (runDrain m x l pc prodPc mask ta q rows dests) := by
  have rowsOnly : OnlyRows m (drainWrites m x l ta q rows dests) := onlyRows_foldl_writeRows ..
  have num := onlyNum_runDrain m x l pc prodPc mask ta q rows dests
  generalize drainWrites m x l ta q rows dests = w at *
  have ctxs : w.ctxs = s.ctxs := rowsOnly.ctxs.trans meet.ctxs
  have core : numRegs w x l = numRegs s x l := numRegs_congr ctxs (by rw [rowsOnly, meet]) x l
  have regs : w.regs = m.regs := by rw [rowsOnly]
  refine ⟨num.mem, num.ctxs.trans ctxs, fun a ha => (num.2 a (by rwa [core])).trans (rd_congr regs a), ?_⟩
  rw [OnlyDrained, num.1, rowsOnly]

/-- A state whose contexts alone changed after a drain. -/
theorem OnlyDrained.ctxs_only {t u : State} (h : OnlyDrained m t) (k : OnlyCtxs t u) : OnlyDrained m u := by
  unfold OnlyDrained OnlyCtxs at *
  rw [k, h]

/-- A product drained: its destination, and what else the drain changes. -/
theorem drained_results (meet : OnlyMeet s m) (mult : Bool) (o : AOps) :
    WroteRows s (drained m x l mult f o) x l (f.regs.getT o.td) (productOuts s x l mult f o)
      ∧ (drained m x l mult f o).ctxs = s.ctxs ∧ SameRegsBut m (drained m x l mult f o) (numRegs s x l)
      ∧ OnlyDrained m (drained m x l mult f o) := by
  obtain ⟨mem, rest⟩ := runDrain_frame (x := x) (l := l) meet f.pc f.pc o.mask (f.regs.getT o.ta) (prodRec m x l mult f o)
    (prodRows m x l mult f o (f.regs.getT o.ta).rows) [ownDest f o]
  have outs : productOuts m x l mult f o = productOuts s x l mult f o := by
    simp only [productOuts, drainOuts_of_ctxs meet.ctxs, prodRec_of_ctxs meet.ctxs, prodRows_congr meet.mem meet.ctxs]
  have wrote := wroteRows_writeRows meet.mem meet.ctxs x l (f.regs.getT o.td) (productOuts m x l mult f o)
  rw [outs] at wrote
  exact ⟨wrote.congr (mem.trans (by rw [← outs]; rfl)), rest⟩

theorem product_drains {mult : Bool} {o : AOps} {i : CInstr} {ecc : List EccEvent} (started : Started s x l id r f i)
    (hm : m = prodMeet s x l mult f o ecc) (clean : prodPoison m x l mult f o = none) (direct : o.defer = false) :
    Executed (productCmd s x l mult f o ecc) x l id
      ∧ WroteRows s (productCmd s x l mult f o ecc) x l (f.regs.getT o.td) (productOuts s x l mult f o)
      ∧ SameRegsBut m (productCmd s x l mult f o ecc) (numRegs s x l)
      ∧ (o.strm = false → OnlyTaskCtxs s (productCmd s x l mult f o ecc) x l)
      ∧ OnlyDrained m (productCmd s x l mult f o ecc) := by
  have meet : OnlyMeet s m := hm ▸ onlyMeet_prodMeet ..
  obtain ⟨run, flight, -⟩ := startedAt_spec started.1
  obtain ⟨wrote, ctxs, regs, frame⟩ := drained_results (x := x) (l := l) (f := f) meet mult o
  rw [productCmd_drains direct hm clean, id_of_inFlight flight]
  generalize drained m x l mult f o = d at *
  obtain ⟨runKept, ctxsOnly, resident⟩ := afterStream_keeps d x l mult f o
  generalize afterStream d x l mult f o = u at *
  have run' : getRun u x l = some r := runKept.trans ((getRun_of_ctxs ctxs x l).trans run)
  have ends : OnlyCtxs d (markExecuted u x l id) := ctxsOnly.trans (onlyCtxs_markExecuted ..)
  refine ⟨executed_markExecuted run' flight, wrote.congr (by rw [ends]), fun a ha => (rd_congr (by rw [ends]) a).trans (regs a ha),
    fun still => ?_, frame.ctxs_only ends⟩
  rw [markExecuted_eq run' flight, resident still]
  exact onlyTaskCtxs_setRun ctxs x l _

/-! ### A deferred product (R100) -/

theorem startedAt_of_inFlight {t : State} {q : Running} {g : Flight} (run : getRun t x l = some q) (flight : q.inFlight id = some g)
    (stage : g.stage = .started) : startedAt t x l id = some (q, g) := by
  simp only [startedAt, run, flight, stage, if_true]

theorem productCmd_defers {mult : Bool} {o : AOps} {ecc : List EccEvent} (defer : o.defer = true) (empty : f.acc = [])
    (hm : m = prodMeet s x l mult f o ecc) (clean : prodPoison m x l mult f o = none)
    (run : getRun (afterStream m x l mult f o) x l = some r) :
    productCmd s x l mult f o ecc = setRun (afterStream m x l mult f o) x l
      (some (r.putFlight { f with acc := prodRows m x l mult f o (f.regs.getT o.ta).rows })) := by
  simp only [productCmd, ← hm, defer, empty, List.isEmpty_nil, Bool.not_true, Bool.and_false, Bool.false_eq_true, if_false, if_true,
    runProduct, clean, run]

/-- The accumulators are kept with the instruction, which stays started until its A.DRN. -/
theorem product_defers {mult : Bool} {o : AOps} {i : CInstr} {ecc : List EccEvent} (started : Started s x l id r f i)
    (hm : m = prodMeet s x l mult f o ecc) (clean : prodPoison m x l mult f o = none) (defer : o.defer = true) (empty : f.acc = []) :
    ∃ q : Running, startedAt (productCmd s x l mult f o ecc) x l id
        = some (q, { f with acc := prodRows s x l mult f o (f.regs.getT o.ta).rows })
      ∧ q.tokens = r.tokens ∧ OnlyCtxs m (productCmd s x l mult f o ecc) := by
  have meet : OnlyMeet s m := hm ▸ onlyMeet_prodMeet ..
  obtain ⟨run, flight, stage⟩ := startedAt_spec started.1
  obtain ⟨runKept, ctxsOnly, -⟩ := afterStream_keeps m x l mult f o
  have run' : getRun (afterStream m x l mult f o) x l = some r := runKept.trans ((getRun_of_ctxs meet.ctxs x l).trans run)
  rw [productCmd_defers defer empty hm clean run', prodRows_congr meet.mem meet.ctxs]
  generalize afterStream m x l mult f o = u at *
  exact ⟨_, startedAt_of_inFlight (getRun_setRun ..) (inFlight_putFlight flight rfl) stage, rfl, ctxsOnly.trans (onlyCtxs_setRun ..)⟩

/-! ### A.DRN -/

theorem exec_aDrn {o : AOps} {q : DrnOps} {i : CInstr} {dw : Word} {w : CWord} (which : i = .aMul o ∨ i = .aMult o)
    (h : Started s x l id r f i) (pair : f.drn = some (dw, w)) (drain : w.instr = .aDrn q) :
    exec (.aDrn x l id) s = .next (runDrn (drnMeet s x l f q) x l f o q) := by
  have operands : arrOpsOf f.op.instr = some o := by
    rw [h.2]
    rcases which with rfl | rfl <;> rfl
  show execADrn x l id s = _
  simp only [execADrn, h.1, operands, pair, drain]

theorem onlyMeet_drnMeet (s : State) (x l : Nat) (f : Flight) (q : DrnOps) : OnlyMeet s (drnMeet s x l f q) := by
  unfold drnMeet
  split
  · exact OnlyMeet.refl s
  · exact onlyMeet_meet ..

/-- The first destination of an A.DRN, and the second (R179). -/
def drnDest0 (f : Flight) (q : DrnOps) : DrainTo := ⟨f.regs.getT q.td0, q.rnd0, q.sat0, (f.regs.getG q.gt).toNat⟩
def drnDest1 (f : Flight) (q : DrnOps) : DrainTo := ⟨f.regs.getT q.td1, q.rnd1, q.sat1, ((f.regs.getG q.gt).toNat + 1) % 2 ^ 64⟩

/-- The destinations of an A.DRN. -/
def drnDests (f : Flight) (q : DrnOps) : List DrainTo := drnDest0 f q :: if q.en1 then [drnDest1 f q] else []

/-- The load record of the set that a deferred product used. -/
def activeRec (s : State) (x l : Nat) (o : AOps) : Option LoadRec := (arrSets (getCore s x l) ((arrMask o.mask).headD 0)).active.loaded

theorem runDrn_stands {o : AOps} {q : DrnOps} (stands : f.acc ≠ []) :
    runDrn m x l f o q
      = markExecuted (runDrain m x l (f.pc + 8) f.pc o.mask (f.regs.getT o.ta) (activeRec m x l o) f.acc (drnDests f q)) x l f.id :=
  if_neg fun empty => stands (List.isEmpty_iff.mp empty)

/-- Rows written through two descriptors, one after the other. -/
theorem wroteRows_twice (mem : m.mem = s.mem) (ctxs : m.ctxs = s.ctxs) (d e : Desc) (outs outs' : List RowOut) :
    ∃ u : State, WroteRows s u x l d outs ∧ WroteRows u (writeRows (writeRows m x l d outs) x l e outs') x l e outs'
      ∧ u = { s with mem := u.mem, poison := u.poison, train := u.train } := by
  have only : OnlyRows m (writeRows m x l d outs) := onlyRows_writeRows ..
  have wrote := wroteRows_writeRows mem ctxs x l d outs
  generalize writeRows m x l d outs = w at *
  have first : w.ctxs = s.ctxs := only.ctxs.trans ctxs
  refine ⟨{ s with mem := w.mem, poison := w.poison, train := w.train }, wrote.congr rfl, ?_, rfl⟩
  exact wroteRows_writeRows (s := { s with mem := w.mem, poison := w.poison, train := w.train }) (m := w) rfl first x l e outs'

theorem drn_results {o : AOps} {q : DrnOps} {i : CInstr} (started : Started s x l id r f i) (meet : OnlyMeet s m) (stands : f.acc ≠ []) :
    Executed (runDrn m x l f o q) x l id ∧ OnlyTaskCtxs s (runDrn m x l f o q) x l
      ∧ (q.en1 = false → WroteRows s (runDrn m x l f o q) x l (f.regs.getT q.td0)
          (drainOuts s x (f.regs.getT o.ta) (activeRec s x l o) f.acc (drnDest0 f q)))
      ∧ (q.en1 = true → ∃ u : State,
          WroteRows s u x l (f.regs.getT q.td0) (drainOuts s x (f.regs.getT o.ta) (activeRec s x l o) f.acc (drnDest0 f q))
          ∧ WroteRows u (runDrn m x l f o q) x l (f.regs.getT q.td1)
              (drainOuts s x (f.regs.getT o.ta) (activeRec s x l o) f.acc (drnDest1 f q))
          ∧ u = { s with mem := u.mem, poison := u.poison, train := u.train })
      ∧ SameRegsBut m (runDrn m x l f o q) (numRegs s x l)
      ∧ OnlyDrained m (runDrn m x l f o q) := by
  obtain ⟨run, flight, -⟩ := startedAt_spec started.1
  have active : activeRec m x l o = activeRec s x l o := by simp only [activeRec, getCore_of_ctxs meet.ctxs]
  obtain ⟨mem, ctxs, regs, frame⟩ := runDrain_frame (x := x) (l := l) meet (f.pc + 8) f.pc o.mask (f.regs.getT o.ta) (activeRec s x l o)
    f.acc (drnDests f q)
  rw [runDrn_stands stands, active, id_of_inFlight flight]
  generalize runDrain m x l (f.pc + 8) f.pc o.mask (f.regs.getT o.ta) (activeRec s x l o) f.acc (drnDests f q) = d at *
  have run' : getRun d x l = some r := (getRun_of_ctxs ctxs x l).trans run
  have ends : OnlyCtxs d (markExecuted d x l id) := onlyCtxs_markExecuted ..
  have bytes : (markExecuted d x l id).mem = (drainWrites m x l (f.regs.getT o.ta) (activeRec s x l o) f.acc (drnDests f q)).mem := by
    rw [ends]
    exact mem
  have outs := drainOuts_of_ctxs (x := x) meet.ctxs (f.regs.getT o.ta) (activeRec s x l o) f.acc
  refine ⟨executed_markExecuted run' flight, ?_, fun one => ?_, fun two => ?_, fun a ha => (rd_congr (by rw [ends]) a).trans (regs a ha),
    frame.ctxs_only ends⟩
  · rw [markExecuted_eq run' flight]
    exact onlyTaskCtxs_setRun ctxs x l _
  · rw [drnDests, if_neg (Bool.eq_false_iff.mp one)] at bytes
    rw [← outs]
    exact (wroteRows_writeRows meet.mem meet.ctxs x l _ _).congr bytes
  · rw [drnDests, if_pos two] at bytes
    rw [← outs, ← outs]
    obtain ⟨u, first, second, only⟩ := wroteRows_twice (x := x) (l := l) meet.mem meet.ctxs (f.regs.getT q.td0) (f.regs.getT q.td1)
      (drainOuts m x (f.regs.getT o.ta) (activeRec s x l o) f.acc (drnDest0 f q))
      (drainOuts m x (f.regs.getT o.ta) (activeRec s x l o) f.acc (drnDest1 f q))
    exact ⟨u, first, second.congr bytes, only⟩

end

/-- Settles O16: A.LDW and A.SWP by the sets they leave, a product and a drain by the rows they write or keep. -/
theorem arrayResults : Obligations.ArrayResults := by
  unfold Obligations.ArrayResults
  refine ⟨⟨fun s x l id r f o ecc started => ?_, fun s x l id r f o started => ⟨_, exec_aSwp started, swp_results started⟩⟩,
    fun s x l id r f o mult c i ecc m which started hm clean => ⟨fun direct => ?_, fun defer empty => ?_⟩,
    fun s x l id r f o dw w q i which started pair drain stands => ?_⟩
  · have meet : OnlyMeet s (ldwMeet s x l f o ecc) := onlyMeet_meet ..
    have handle := handleOf_of_ctxs meet.ctxs x l (f.regs.getT o.tw).handle
    refine ⟨fun clean => ⟨_, exec_aLdw started ecc, ldw_loads started meet ?_⟩, fun bad running plain =>
      ⟨_, exec_aLdw started ecc, ldw_stopped started meet ?_ running plain⟩⟩
    · rw [ldwPoisoned, handle]
      exact clean
    · rw [ldwPoisoned, handle]
      exact bad
  · exact ⟨_, exec_product which started, product_drains started hm clean direct⟩
  · obtain ⟨q, kept⟩ := product_defers started hm clean defer empty
    exact ⟨_, q, exec_product which started, kept⟩
  · exact ⟨_, exec_aDrn which started pair drain, drn_results started (onlyMeet_drnMeet s x l f q) stands⟩

end Sys2Proof.Machine
end

section
/-! Steps that change registers alone (R496), and one field of a register among many. -/

namespace Sys2Proof.Machine

/-- A step that changes registers and nothing else. -/
def OnlyRegs (s t : State) : Prop := t = { s with regs := t.regs }

theorem OnlyRegs.refl (s : State) : OnlyRegs s s := rfl

theorem OnlyRegs.trans {s t u : State} (h : OnlyRegs s t) (k : OnlyRegs t u) : OnlyRegs s u := by
  unfold OnlyRegs at *
  rw [k, h]

theorem OnlyRegs.foldl {α : Type} {f : State → α → State} (h : ∀ s a, OnlyRegs s (f s a)) (as : List α) (s : State) :
    OnlyRegs s (as.foldl f s) := by
  induction as generalizing s with
  | nil => rfl
  | cons a as ih => exact (h s a).trans (ih _)

theorem onlyRegs_setFld (s : State) (a : Nat) (f : Fld) (v : Nat) : OnlyRegs s (setFld s a f v) := rfl

theorem onlyRegs_setDigest (s : State) (r : Nat → Nat) (v : BitVec 384) : OnlyRegs s (setDigest s r v) := by
  refine OnlyRegs.foldl (fun s i => ?_) _ s
  rfl

theorem sameRegsBut_refl (s : State) (l : List Nat) : SameRegsBut s s l := fun _ _ => rfl

theorem sameRegsBut_setFld_of_mem (s : State) {a : Nat} (f : Fld) (v : Nat) {l : List Nat} (h : a ∈ l) :
    SameRegsBut s (setFld s a f v) l :=
  fun _ hb => rd_setFld_other s f v fun e => hb (e ▸ h)

theorem SameRegsBut.and_then {s t u : State} {l : List Nat} (h : SameRegsBut s t l) (k : SameRegsBut t u l) : SameRegsBut s u l :=
  h.trans k (List.Subset.refl _) (List.Subset.refl _)

/-- Steps that each keep every register but those listed keep them together. -/
theorem SameRegsBut.foldl {α : Type} {f : State → α → State} {l : List Nat} {as : List α} (h : ∀ s, ∀ a ∈ as, SameRegsBut s (f s a) l)
    (s : State) : SameRegsBut s (as.foldl f s) l :=
  List.foldlRecOn (motive := fun t => SameRegsBut s t l) as f (sameRegsBut_refl s l) fun t kept a mem => kept.and_then (h t a mem)

/-- A field reads as before when another register, or a field apart from it, was written. -/
theorem fld_setFld_away (s : State) {a b : Nat} {f g : Fld} (v : Nat) (hf : f.lo + f.w ≤ 64)
    (h : b ≠ a ∨ g.lo + g.w ≤ f.lo ∨ f.lo + f.w ≤ g.lo) : fld (setFld s a f v) b g = fld s b g := by
  by_cases same : b = a
  · subst same
    exact fld_setFld_apart s b f g v hf (h.resolve_left (absurd rfl))
  · exact fld_setFld_other s f g v same

end Sys2Proof.Machine
end

section
/-! The clock stages that become due (R511): what their start leaves of the window. -/

namespace Sys2Proof.Machine

/-- The registers that show clock domains and the host port's state. -/
def startRegs : List Nat := (List.range 25).map Reg.CLK_DOM ++ [Reg.CLK_SUMMARY, Reg.ETH_STATUS]

theorem stageDomains_lt (g : Nat) : ∀ d ∈ stageDomains g, d < 25 := by
  unfold stageDomains
  split <;> decide

theorem onlyRegs_setClk (s : State) (d v : Nat) : OnlyRegs s (setClk s d v) :=
  ((onlyRegs_setFld ..).trans (onlyRegs_setFld ..)).trans (onlyRegs_setFld ..)

theorem onlyRegs_startStage (s : State) (g : Nat) : OnlyRegs s (startStage s g) := by
  refine OnlyRegs.foldl (fun s d => ?_) (stageDomains g) s
  split
  · exact onlyRegs_setClk s d 1
  · rfl

/-- The stages that are due start, in their order. -/
def stagesStarted (s : State) : State :=
  [1, 2, 3].foldl (fun s g => if stageDue s g && stagesLocked s g then startStage s g else s) s

theorem startDue_eq (s : State) : startDue s = ethBegins (stagesStarted s) := rfl

theorem onlyRegs_startDue (s : State) : OnlyRegs s (startDue s) := by
  have stages : OnlyRegs s (stagesStarted s) := by
    refine OnlyRegs.foldl (fun s g => ?_) _ s
    split
    · exact onlyRegs_startStage s g
    · rfl
  rw [startDue_eq, ethBegins]
  split
  · exact stages.trans rfl
  · exact stages

theorem sameRegsBut_setClk (s : State) {d : Nat} (v : Nat) (h : d < 25) : SameRegsBut s (setClk s d v) startRegs := by
  have domain : Reg.CLK_DOM d ∈ startRegs := List.mem_append_left _ (List.mem_map_of_mem (List.mem_range.mpr h))
  have summary : Reg.CLK_SUMMARY ∈ startRegs := by decide
  exact ((sameRegsBut_setFld_of_mem s _ v domain).and_then (sameRegsBut_setFld_of_mem _ _ _ summary)).and_then
    (sameRegsBut_setFld_of_mem _ _ _ summary)

theorem sameRegsBut_startStage (s : State) (g : Nat) : SameRegsBut s (startStage s g) startRegs := by
  refine SameRegsBut.foldl (fun s d hd => ?_) s
  split
  · exact sameRegsBut_setClk s 1 (stageDomains_lt g d hd)
  · exact sameRegsBut_refl _ _

theorem sameRegsBut_startDue (s : State) : SameRegsBut s (startDue s) startRegs := by
  have stages : SameRegsBut s (stagesStarted s) startRegs := by
    refine SameRegsBut.foldl (fun s g _ => ?_) s
    split
    · exact sameRegsBut_startStage s g
    · exact sameRegsBut_refl _ _
  rw [startDue_eq, ethBegins]
  split
  · exact stages.and_then (sameRegsBut_setFld_of_mem _ _ _ (by decide))
  · exact stages

/-- All registers that the end of self-test writes besides the map. -/
theorem sameRegsBut_startDue_setBootPhase (s : State) (v : Nat) :
    SameRegsBut s (startDue (setBootPhase s v)) ([Reg.BOOT_STATUS, Reg.CDC_STAT] ++ startRegs) :=
  (sameRegsBut_setBootPhase s v).trans (sameRegsBut_startDue _) (List.subset_append_left ..) (List.subset_append_right ..)

theorem bootPhase_startDue (s : State) : bootPhase (startDue s) = bootPhase s := (sameRegsBut_startDue s).fld (by decide) _

/-- A queue with room takes the event, and no record is generated (R286). -/
theorem recs_setBootPhase {s : State} (room : (s.hostQ.filter (fun q => !q.isGap)).length < 4095) (v : Nat) :
    (setBootPhase s v).recs = s.recs := by
  have room' : ((setFld s Reg.BOOT_STATUS Fld.BOOT_STATUS_PHASE v).hostQ.filter (fun q => !q.isGap)).length < 4095 := room
  rw [setBootPhase, pushEvent, if_pos room']
  rfl

end Sys2Proof.Machine
end

section
/-! The core map after self-test (R110, R111, R131, R134, R508). -/

namespace Sys2Proof.Machine

/-! ### The state of a core -/

/-- The state that the map gives core `c` (R131). -/
def mappedState (retired : List Nat) (c : Nat) : Nat :=
  let d := c / 18
  let bad (i : Nat) : Bool := retired.contains (18 * d + i)
  let spares := [16, 17].filter (fun i => !bad i)
  let used := spares.take ((List.range 16).filter bad).length
  if bad (c % 18) then 2 else if c % 18 < 16 ∨ used.contains (c % 18) then 0 else 1

theorem dieStates_eq (retired : List Nat) (d : Nat) :
    dieStates retired d = (List.range 18).map fun i => (18 * d + i, mappedState retired (18 * d + i)) := by
  refine List.map_congr_left fun i hi => ?_
  have inside : i < 18 := List.mem_range.mp hi
  have die : (18 * d + i) / 18 = d := by omega
  have place : (18 * d + i) % 18 = i := by omega
  simp only [mappedState, die, place]

/-- The map lists the 72 cores in ascending order. -/
theorem coreMap_eq (retired : List Nat) :
    (List.range 4).flatMap (dieStates retired) = (List.range 72).map fun c => (c, mappedState retired c) := by
  have cores : List.range 72 = (List.range 4).flatMap fun d => (List.range 18).map fun i => 18 * d + i := by decide
  rw [cores, List.map_flatMap]
  simp only [List.map_map, Function.comp_def, ← dieStates_eq]

/-- How many cores the map shows in state `k`. -/
def coreCount (retired : List Nat) (k : Nat) : Nat := ((List.range 72).filter fun c => mappedState retired c == k).length

/-! ### The registers of the map -/

/-- One core shown in PLC_CORE_MAP and in its page. -/
def showCore (retired : List Nat) (s : State) (c : Nat) : State :=
  setFld (setFld s (Reg.PLC_CORE_MAP (c / 32)) ⟨2 * (c % 32), 2⟩ (mappedState retired c)) (Reg.CORE_STATUS c) Fld.CORE_STATUS_STATE
    (mappedState retired c)

/-- The ordinal of an active core. -/
def showOrdinal (s : State) (e : (Nat × Nat) × Nat) : State := setFld s (Reg.CORE_STATUS e.1.1) Fld.CORE_STATUS_ORDINAL e.2

/-- The active cores, each with its state and its ordinal. -/
def ordinals (retired : List Nat) : List ((Nat × Nat) × Nat) :=
  (((List.range 72).map fun c => (c, mappedState retired c)).filter fun e => e.2 == 0).zipIdx

/-- The map with its cores and ordinals shown, before the counts. -/
def coresShown (s : State) (retired : List Nat) : State :=
  (ordinals retired).foldl showOrdinal ((List.range 72).foldl (showCore retired) s)

/-- The counts of PLC_STATUS (R134). -/
def showCounts (s : State) (active spare retired : Nat) : State :=
  setFld (setFld (setFld s Reg.PLC_STATUS Fld.PLC_STATUS_ACTIVE_CORES active) Reg.PLC_STATUS Fld.PLC_STATUS_SPARES_LEFT spare)
    Reg.PLC_STATUS Fld.PLC_STATUS_RETIRED retired

theorem mapCores_eq (s : State) (retired : List Nat) :
    mapCores s retired
      = showCounts (coresShown s retired) (coreCount retired 0) (coreCount retired 1) (coreCount retired 2) := by
  have count (k : Nat) : (((List.range 72).map fun c => (c, mappedState retired c)).filter fun e => e.2 == k).length = coreCount retired k := by
    rw [List.filter_map, List.length_map]
    rfl
  unfold mapCores
  simp only [coreMap_eq, count, List.foldl_map]
  rfl

theorem onlyRegs_mapCores (s : State) (retired : List Nat) : OnlyRegs s (mapCores s retired) := by
  have core (t : State) (c : Nat) : OnlyRegs t (showCore retired t c) := rfl
  have ordinal (t : State) (e : (Nat × Nat) × Nat) : OnlyRegs t (showOrdinal t e) := rfl
  have shown : OnlyRegs s (coresShown s retired) := (OnlyRegs.foldl core (List.range 72) s).trans (OnlyRegs.foldl ordinal (ordinals retired) _)
  have counts (t : State) (a b c : Nat) : OnlyRegs t (showCounts t a b c) :=
    ((onlyRegs_setFld ..).trans (onlyRegs_setFld ..)).trans (onlyRegs_setFld ..)
  rw [mapCores_eq]
  exact shown.trans (counts ..)

theorem fld_showCounts (s : State) (a b c : Nat) :
    fld (showCounts s a b c) Reg.PLC_STATUS Fld.PLC_STATUS_ACTIVE_CORES = a % 128
      ∧ fld (showCounts s a b c) Reg.PLC_STATUS Fld.PLC_STATUS_SPARES_LEFT = b % 16
      ∧ fld (showCounts s a b c) Reg.PLC_STATUS Fld.PLC_STATUS_RETIRED = c % 128 := by
  unfold showCounts
  refine ⟨?_, ?_, ?_⟩
  · rw [fld_setFld_apart _ _ _ _ _ (by decide) (by decide), fld_setFld_apart _ _ _ _ _ (by decide) (by decide),
      fld_setFld_same _ _ _ _ (by decide)]
    rfl
  · rw [fld_setFld_apart _ _ _ _ _ (by decide) (by decide), fld_setFld_same _ _ _ _ (by decide)]
    rfl
  · rw [fld_setFld_same _ _ _ _ (by decide)]
    rfl

/-- The page of a core lies above every register of the map. -/
theorem coreStatus_ge (c : Nat) : 0x20000 ≤ Reg.CORE_STATUS c := Nat.le_add_right _ _

theorem coreStatus_ne_coreMap (c n : Nat) (h : n < 72) : Reg.CORE_STATUS c ≠ Reg.PLC_CORE_MAP (n / 32) := by
  unfold Reg.CORE_STATUS Reg.PLC_CORE_MAP
  omega

theorem coreStatus_inj {c k : Nat} (h : c ≠ k) : Reg.CORE_STATUS c ≠ Reg.CORE_STATUS k := by
  unfold Reg.CORE_STATUS
  omega

theorem mappedState_lt (retired : List Nat) (c : Nat) : mappedState retired c < 4 := by
  unfold mappedState
  dsimp only
  split
  · decide
  · split <;> decide

/-- A core that is shown reads its state, and no core shown after it changes that. -/
theorem state_showCores (s : State) (retired : List Nat) {c : Nat} (h : c < 72) :
    fld ((List.range 72).foldl (showCore retired) s) (Reg.CORE_STATUS c) Fld.CORE_STATUS_STATE = mappedState retired c := by
  have own (t : State) (k : Fin 72) : fld (showCore retired t k) (Reg.CORE_STATUS k) Fld.CORE_STATUS_STATE = mappedState retired k := by
    rw [showCore, fld_setFld_same _ _ _ _ (by decide)]
    exact Nat.mod_eq_of_lt (mappedState_lt retired k)
  have keeps (t : State) (k j : Fin 72) (kept : fld t (Reg.CORE_STATUS k) Fld.CORE_STATUS_STATE = mappedState retired k) :
      fld (showCore retired t j) (Reg.CORE_STATUS k) Fld.CORE_STATUS_STATE = mappedState retired k := by
    by_cases same : k = j
    · subst same
      exact own t k
    · rw [showCore, fld_setFld_other _ _ _ _ (coreStatus_inj (Fin.val_ne_of_ne same)),
        fld_setFld_other _ _ _ _ (coreStatus_ne_coreMap k j j.isLt), kept]
  have cores : List.range 72 = (List.finRange 72).map Fin.val := List.map_coe_finRange_eq_range.symm
  rw [cores, List.foldl_map]
  exact foldl_reaches (P := fun (k : Fin 72) t => fld t (Reg.CORE_STATUS k) Fld.CORE_STATUS_STATE = mappedState retired k) own keeps
    (List.finRange 72) s ⟨c, h⟩ (List.mem_finRange _)

theorem state_coresShown (s : State) (retired : List Nat) {c : Nat} (h : c < 72) :
    fld (coresShown s retired) (Reg.CORE_STATUS c) Fld.CORE_STATUS_STATE = mappedState retired c :=
  List.foldlRecOn (motive := fun t => fld t (Reg.CORE_STATUS c) Fld.CORE_STATUS_STATE = mappedState retired c) (ordinals retired)
    showOrdinal (state_showCores s retired h) fun t kept e _ => (fld_setFld_away t e.2 (by decide) (.inr (by decide))).trans kept

theorem fld_coreStatus_showCounts (s : State) (a b c k : Nat) (f : Fld) :
    fld (showCounts s a b c) (Reg.CORE_STATUS k) f = fld s (Reg.CORE_STATUS k) f := by
  have other : Reg.CORE_STATUS k ≠ Reg.PLC_STATUS := Nat.ne_of_gt (Nat.lt_of_lt_of_le (by decide) (coreStatus_ge k))
  simp only [showCounts, fld_setFld_other _ _ _ _ other]

theorem mappedState_nil {c : Nat} : mappedState [] c = if c % 18 < 16 then 0 else 1 := by
  simp [mappedState]

/-- Where every core passes, the active cores are the first 16 of each die. -/
theorem ordinals_nil :
    ordinals [] = ((List.range 72).filter fun c => c % 18 < 16).map fun c => ((c, 0), 16 * (c / 18) + c % 18) := by
  simp only [ordinals, mappedState_nil]
  decide +kernel

theorem ordinal_coresShown (s : State) {c : Nat} (h : c < 72) (active : c % 18 < 16) :
    fld (coresShown s []) (Reg.CORE_STATUS c) Fld.CORE_STATUS_ORDINAL = 16 * (c / 18) + c % 18 := by
  have own (t : State) (k : Nat) : fld (showOrdinal t ((k, 0), 16 * (k / 18) + k % 18)) (Reg.CORE_STATUS k) Fld.CORE_STATUS_ORDINAL
      = (16 * (k / 18) + k % 18) % 64 := fld_setFld_same _ _ _ _ (by decide)
  have keeps (t : State) (k j : Nat)
      (kept : fld t (Reg.CORE_STATUS k) Fld.CORE_STATUS_ORDINAL = (16 * (k / 18) + k % 18) % 64) :
      fld (showOrdinal t ((j, 0), 16 * (j / 18) + j % 18)) (Reg.CORE_STATUS k) Fld.CORE_STATUS_ORDINAL
        = (16 * (k / 18) + k % 18) % 64 := by
    by_cases same : k = j
    · subst same
      exact own t k
    · exact (fld_setFld_other _ _ _ _ (coreStatus_inj same)).trans kept
  rw [coresShown, ordinals_nil, List.foldl_map]
  refine (foldl_reaches (P := fun k t => fld t (Reg.CORE_STATUS k) Fld.CORE_STATUS_ORDINAL = (16 * (k / 18) + k % 18) % 64) own keeps
    _ _ c ?_).trans (Nat.mod_eq_of_lt (by omega))
  exact List.mem_filter.mpr ⟨List.mem_range.mpr h, decide_eq_true active⟩

theorem fld_mapCores_status (s : State) (retired : List Nat) :
    fld (mapCores s retired) Reg.PLC_STATUS Fld.PLC_STATUS_ACTIVE_CORES = coreCount retired 0 % 128
      ∧ fld (mapCores s retired) Reg.PLC_STATUS Fld.PLC_STATUS_SPARES_LEFT = coreCount retired 1 % 16
      ∧ fld (mapCores s retired) Reg.PLC_STATUS Fld.PLC_STATUS_RETIRED = coreCount retired 2 % 128 := by
  rw [mapCores_eq]
  exact fld_showCounts ..

theorem state_mapCores (s : State) (retired : List Nat) {c : Nat} (h : c < 72) :
    fld (mapCores s retired) (Reg.CORE_STATUS c) Fld.CORE_STATUS_STATE = mappedState retired c := by
  rw [mapCores_eq, fld_coreStatus_showCounts, state_coresShown s retired h]

/-! ### How many, with no core retired and with one -/

theorem coreCounts_nil : coreCount [] 0 = 64 ∧ coreCount [] 1 = 8 ∧ coreCount [] 2 = 0 := by
  simp only [coreCount, mappedState_nil]
  decide +kernel

theorem contains_one (c n : Nat) : [c].contains n = decide (n = c) := by simp

/-- Of the first 16 cores of die `d`, the only one that can be the retired core `c` is the one in its place. -/
theorem length_filter_place {c : Nat} (d : Nat) (first : c % 18 < 16) :
    ((List.range 16).filter fun i => decide (18 * d + i = c)).length = if d = c / 18 then 1 else 0 := by
  split
  · next die =>
    have place : (fun i => decide (18 * d + i = c)) = fun i => i == c % 18 := by
      funext i
      rw [Bool.eq_iff_iff, decide_eq_true_iff, beq_iff_eq]
      omega
    rw [place, ← List.countP_eq_length_filter]
    exact List.count_eq_one_of_mem List.nodup_range (List.mem_range.mpr first)
  · next die =>
    refine List.length_eq_zero_iff.mpr (List.filter_eq_nil_iff.mpr fun i hi => ?_)
    have low := List.mem_range.mp hi
    rw [decide_eq_true_iff]
    omega

/-- Where one active core is retired, the first spare of its die takes its place (R131). -/
theorem mappedState_one {c : Nat} (first : c % 18 < 16) (k : Nat) :
    mappedState [c] k = if k = c then 2 else if k % 18 < 16 ∨ k = 18 * (c / 18) + 16 then 0 else 1 := by
  have spares : [16, 17].filter (fun i => !decide (18 * (k / 18) + i = c)) = [16, 17] := by
    refine List.filter_eq_self.mpr fun i hi => ?_
    have high : i = 16 ∨ i = 17 := by simpa using hi
    rw [Bool.not_eq_true', decide_eq_false_iff_not]
    omega
  have own : 18 * (k / 18) + k % 18 = k := Nat.div_add_mod k 18
  unfold mappedState
  simp only [contains_one, spares, length_filter_place _ first, own, decide_eq_true_eq]
  by_cases die : k / 18 = c / 18
  · have sixteen : k % 18 = 16 ↔ k = 18 * (c / 18) + 16 := by omega
    simp [die, sixteen]
  · have other : k ≠ 18 * (c / 18) + 16 := by omega
    simp [die, other]

/-- The states of the cores where core `c` is retired and the first spare of its die is taken. -/
theorem coreCount_one {c : Nat} (first : c % 18 < 16) (k : Nat) : coreCount [c] k
    = ((List.range 72).filter fun j => (if j = c then 2 else if j % 18 < 16 ∨ j = 18 * (c / 18) + 16 then 0 else 1) == k).length := by
  simp only [coreCount, mappedState_one first]

theorem coreCounts_one : ∀ c < 72, c % 18 < 16 →
    coreCount [c] 0 = 64 ∧ coreCount [c] 1 = 7 ∧ coreCount [c] 2 = 1 := by
  have counts : ∀ c < 72, c % 18 < 16 → ∀ k < 3,
      ((List.range 72).filter fun j => (if j = c then 2 else if j % 18 < 16 ∨ j = 18 * (c / 18) + 16 then 0 else 1) == k).length
        = [64, 7, 1].getD k 0 := by decide +kernel
  intro c hc first
  simp only [coreCount_one first]
  exact ⟨counts c hc first 0 (by decide), counts c hc first 1 (by decide), counts c hc first 2 (by decide)⟩
end Sys2Proof.Machine
end

section
/-! SELF_TEST_DONE and MEMORY_TRAINING_DONE (R110 to R112, R131, R150, R502, R508, R512). -/

namespace Sys2Proof.Machine

/-! ### Self-test -/

/-- The test of a core whose first array has 5 faulty columns, one more than its spares (R111). -/
def oneArrayOut (c : Nat) : CoreTest := ⟨c, true, [(5, 0), (0, 0), (0, 0), (0, 0)]⟩

section
variable {s : State} (phase : bootPhase s = 5)
include phase

theorem exec_selfTestDone_clean : exec (.selfTestDone []) s = .next (startDue (setBootPhase (mapCores s []) 6)) := if_pos phase

omit phase in
theorem coreRetired_one (c : Nat) : coreRetired (oneArrayOut c) = true := rfl

theorem exec_selfTestDone_one {c : Nat} (h : c < 72) :
    exec (.selfTestDone [oneArrayOut c]) s = .next (startDue (setBootPhase (mapCores (noteTest s (oneArrayOut c)) [c]) 6)) := by
  have kept : [oneArrayOut c].filter (fun t => decide (t.core < 72)) = [oneArrayOut c] := List.filter_cons_of_pos (decide_eq_true h)
  have out : [oneArrayOut c].filter coreRetired = [oneArrayOut c] := List.filter_cons_of_pos (coreRetired_one c)
  show execSelfTestDone _ s = _
  rw [execSelfTestDone, if_pos phase]
  dsimp only
  rw [kept, out, List.map_singleton, List.foldl_cons, List.foldl_nil]
  rfl

end

/-- What self-test leaves of a register of the map once the boot goes on. -/
theorem fld_afterTest {t : State} {a : Nat} (h : a ∉ [Reg.BOOT_STATUS, Reg.CDC_STAT] ++ startRegs) (f : Fld) :
    fld (startDue (setBootPhase t 6)) a f = fld t a f :=
  (sameRegsBut_startDue_setBootPhase t 6).fld h f

theorem coreStatus_notMem (c : Nat) : Reg.CORE_STATUS c ∉ [Reg.BOOT_STATUS, Reg.CDC_STAT] ++ startRegs := by
  have below : ∀ a ∈ [Reg.BOOT_STATUS, Reg.CDC_STAT] ++ startRegs, a < 0x20000 := by decide
  exact fun mem => Nat.not_lt.mpr (coreStatus_ge c) (below _ mem)

theorem plcStatus_notMem : Reg.PLC_STATUS ∉ [Reg.BOOT_STATUS, Reg.CDC_STAT] ++ startRegs := by decide

theorem selfTest_clean {s : State} (phase : bootPhase s = 5) :
    ∃ t : State, exec (.selfTestDone []) s = .next t ∧ bootPhase t = 6 ∧ fld t Reg.PLC_STATUS Fld.PLC_STATUS_ACTIVE_CORES = 64
      ∧ fld t Reg.PLC_STATUS Fld.PLC_STATUS_SPARES_LEFT = 8 ∧ fld t Reg.PLC_STATUS Fld.PLC_STATUS_RETIRED = 0
      ∧ (∀ c, c < 72 → fld t (Reg.CORE_STATUS c) Fld.CORE_STATUS_STATE = if c % 18 < 16 then 0 else 1)
      ∧ (∀ c, c < 72 → c % 18 < 16 → fld t (Reg.CORE_STATUS c) Fld.CORE_STATUS_ORDINAL = 16 * (c / 18) + c % 18) ∧ SameBytes s t := by
  obtain ⟨active, spare, retired⟩ := fld_mapCores_status s []
  obtain ⟨actives, spares, retireds⟩ := coreCounts_nil
  refine ⟨_, exec_selfTestDone_clean phase, ?_, ?_, ?_, ?_, fun c hc => ?_, fun c hc first => ?_, fun a => readByte_congr ?_ a⟩
  · rw [bootPhase_startDue, bootPhase_setBootPhase _ _ (by decide)]
  · rw [fld_afterTest plcStatus_notMem, active, actives]
  · rw [fld_afterTest plcStatus_notMem, spare, spares]
  · rw [fld_afterTest plcStatus_notMem, retired, retireds]
  · rw [fld_afterTest (coreStatus_notMem c), state_mapCores s [] hc, mappedState_nil]
  · rw [fld_afterTest (coreStatus_notMem c), mapCores_eq, fld_coreStatus_showCounts, ordinal_coresShown s hc first]
  · rw [onlyRegs_startDue, onlyReports_setBootPhase, onlyRegs_mapCores]

theorem spareMap_frame (c : Nat) (v : CoreTest) (s : State) (a : Nat) :
    spareMap c v s a = { s with regs := (spareMap c v s a).regs, free := (spareMap c v s a).free } := by
  unfold spareMap
  dsimp only
  split <;> rfl

theorem spareMaps_keep (c : Nat) (v : CoreTest) (as : List Nat) (s : State) :
    (as.foldl (spareMap c v) s).recs = s.recs ∧ (as.foldl (spareMap c v) s).hostQ = s.hostQ := by
  refine List.foldlRecOn (motive := fun t => t.recs = s.recs ∧ t.hostQ = s.hostQ) as (spareMap c v) ⟨rfl, rfl⟩ fun t kept a _ => ?_
  rwa [spareMap_frame]

/-- An array that its spares repair generates no record (R111). -/
theorem spareRecord_repaired {c : Nat} {v : CoreTest} (s : State) {a : Nat} (h : arrayRetired v a = false) : spareRecord c v s a = s :=
  if_neg (Bool.eq_false_iff.mp h)

/-- The test of a core generates one record where its first array alone is retired (R111). -/
theorem noteTest_one (s : State) (c : Nat) :
    ∃ (u : State) (w : Nat), noteTest s (oneArrayOut c) = raiseDev u 0x0202 sevCorrected c 0 5 0 w ∧ u.recs = s.recs
      ∧ u.hostQ = s.hostQ := by
  obtain ⟨recs, queue⟩ := spareMaps_keep c (oneArrayOut c) (List.range 4) s
  have noted : noteTest s (oneArrayOut c)
      = [0, 1, 2, 3].foldl (spareRecord c (oneArrayOut c)) ((List.range 4).foldl (spareMap c (oneArrayOut c)) s) := rfl
  generalize (List.range 4).foldl (spareMap c (oneArrayOut c)) s = u at *
  simp only [noted, List.foldl_cons, List.foldl_nil, spareRecord_repaired _ (show arrayRetired (oneArrayOut c) 1 = false from rfl),
    spareRecord_repaired _ (show arrayRetired (oneArrayOut c) 2 = false from rfl),
    spareRecord_repaired _ (show arrayRetired (oneArrayOut c) 3 = false from rfl)]
  exact ⟨u, _, rfl, recs, queue⟩

theorem selfTest_one {s : State} {c : Nat} (phase : bootPhase s = 5) (hc : c < 72) (first : c % 18 < 16)
    (room : (s.hostQ.filter (fun q => !q.isGap)).length < 4095) :
    ∃ (t : State) (r : ErrRec), exec (.selfTestDone [oneArrayOut c]) s = .next t ∧ t.recs = s.recs ++ [r] ∧ r.code = 0x0202
      ∧ r.sev = 1 ∧ r.obj = c ∧ r.d0 = 0 ∧ r.d1 = 5 ∧ r.d2 = 0 ∧ fld t (Reg.CORE_STATUS c) Fld.CORE_STATUS_STATE = 2
      ∧ fld t (Reg.CORE_STATUS (18 * (c / 18) + 16)) Fld.CORE_STATUS_STATE = 0
      ∧ fld t Reg.PLC_STATUS Fld.PLC_STATUS_ACTIVE_CORES = 64 ∧ fld t Reg.PLC_STATUS Fld.PLC_STATUS_SPARES_LEFT = 7
      ∧ fld t Reg.PLC_STATUS Fld.PLC_STATUS_RETIRED = 1 := by
  obtain ⟨u, w, noted, recs, queue⟩ := noteTest_one s c
  have step := exec_selfTestDone_one phase hc
  have raised : (noteTest s (oneArrayOut c)).recs
      = s.recs ++ [{ plainRec 0x0202 sevCorrected c 0 5 0 w with seq := u.recSeq, beat := beat u }] := by
    rw [noted, ← recs]
    rfl
  have waiting : (noteTest s (oneArrayOut c)).hostQ = s.hostQ := by
    rw [noted, ← queue]
    rfl
  generalize noteTest s (oneArrayOut c) = n at *
  obtain ⟨active, spare, retired⟩ := fld_mapCores_status n [c]
  obtain ⟨actives, spares, retireds⟩ := coreCounts_one c hc first
  refine ⟨_, { plainRec 0x0202 sevCorrected c 0 5 0 w with seq := u.recSeq, beat := beat u }, step, ?_, rfl, rfl, rfl, rfl, rfl, rfl,
    ?_, ?_, ?_, ?_, ?_⟩
  · have room' : ((mapCores n [c]).hostQ.filter (fun q => !q.isGap)).length < 4095 := by rw [onlyRegs_mapCores, waiting]; exact room
    rw [onlyRegs_startDue, recs_setBootPhase room', onlyRegs_mapCores]
    exact raised
  · rw [fld_afterTest (coreStatus_notMem c), state_mapCores n [c] hc, mappedState_one first, if_pos rfl]
  · rw [fld_afterTest (coreStatus_notMem _), state_mapCores n [c] (by omega), mappedState_one first, if_neg (by omega), if_pos (.inr rfl)]
  · rw [fld_afterTest plcStatus_notMem, active, actives]
  · rw [fld_afterTest plcStatus_notMem, spare, spares]
  · rw [fld_afterTest plcStatus_notMem, retired, retireds]

/-! ### Memory training -/

/-- The packages shown as trained and as failed. -/
def trainedShown (s : State) (ok : Nat) : State :=
  setFld (setFld s Reg.MEM_L2_STATUS Fld.MEM_L2_STATUS_TRAINED ok) Reg.MEM_L2_STATUS Fld.MEM_L2_STATUS_FAILED (65535 - ok)

theorem fld_trainedShown (s : State) {ok : Nat} (h : ok < 65536) :
    fld (trainedShown s ok) Reg.MEM_L2_STATUS Fld.MEM_L2_STATUS_TRAINED = ok
      ∧ fld (trainedShown s ok) Reg.MEM_L2_STATUS Fld.MEM_L2_STATUS_FAILED = 65535 - ok := by
  refine ⟨?_, ?_⟩
  · rw [trainedShown, fld_setFld_apart _ _ _ _ _ (by decide) (by decide), fld_setFld_same _ _ _ _ (by decide)]
    exact Nat.mod_eq_of_lt h
  · rw [trainedShown, fld_setFld_same _ _ _ _ (by decide)]
    exact Nat.mod_eq_of_lt (Nat.lt_of_le_of_lt (Nat.sub_le ..) (by decide))

/-- The same, with FAULT 4 where a package failed. -/
def trainingShown (s : State) (ok : Nat) : State :=
  if 65535 - ok = 0 then trainedShown s ok else setBootFault (trainedShown s ok) 4

theorem exec_memoryTrainingDone {s : State} (phase : bootPhase s = 6) (n : Nat) :
    exec (.memoryTrainingDone n) s = .next (setBootPhase (trainingShown s (n % 65536)) 7) := if_pos phase

theorem sameRegsBut_trainingShown (s : State) (ok : Nat) :
    SameRegsBut s (trainingShown s ok) [Reg.MEM_L2_STATUS, Reg.BOOT_STATUS, Reg.CDC_STAT] := by
  have trained : SameRegsBut s (trainedShown s ok) [Reg.MEM_L2_STATUS, Reg.BOOT_STATUS, Reg.CDC_STAT] :=
    (sameRegsBut_setFld_of_mem _ _ _ (by simp)).and_then (sameRegsBut_setFld_of_mem _ _ _ (by simp))
  unfold trainingShown
  split
  · exact trained
  · exact trained.and_then (sameRegsBut_setFld_of_mem _ _ _ (by simp))

theorem onlyRegs_trainingShown (s : State) (ok : Nat) : OnlyRegs s (trainingShown s ok) := by
  unfold trainingShown
  split <;> rfl

theorem fld_l2Status_trainingShown (s : State) (ok : Nat) (f : Fld) :
    fld (trainingShown s ok) Reg.MEM_L2_STATUS f = fld (trainedShown s ok) Reg.MEM_L2_STATUS f := by
  unfold trainingShown
  split
  · rfl
  · exact fld_setFld_other _ _ _ _ (by decide)

theorem fault_trainingShown (s : State) {ok : Nat} (h : ok < 65536) :
    fld (trainingShown s ok) Reg.BOOT_STATUS Fld.BOOT_STATUS_FAULT
      = if ok = 65535 then fld s Reg.BOOT_STATUS Fld.BOOT_STATUS_FAULT else 4 := by
  unfold trainingShown
  by_cases all : ok = 65535
  · rw [if_pos (by omega), if_pos all, trainedShown, fld_setFld_other _ _ _ _ (by decide), fld_setFld_other _ _ _ _ (by decide)]
  · rw [if_neg (by omega), if_neg all]
    exact fld_setFld_same _ _ _ _ (by decide)

theorem fault_setBootPhase (s : State) (v : Nat) :
    fld (setBootPhase s v) Reg.BOOT_STATUS Fld.BOOT_STATUS_FAULT = fld s Reg.BOOT_STATUS Fld.BOOT_STATUS_FAULT :=
  ((sameRegsBut_pushEvent _ _).fld (by decide) _).trans (fld_setFld_apart s _ _ _ v (by decide) (by decide))

theorem memoryTraining_results {s : State} (phase : bootPhase s = 6) (n : Nat) :
    ∃ t : State, exec (.memoryTrainingDone n) s = .next t ∧ bootPhase t = 7
      ∧ fld t Reg.MEM_L2_STATUS Fld.MEM_L2_STATUS_TRAINED = n % 65536
      ∧ fld t Reg.MEM_L2_STATUS Fld.MEM_L2_STATUS_FAILED = 65535 - n % 65536
      ∧ fld t Reg.BOOT_STATUS Fld.BOOT_STATUS_FAULT
          = (if n % 65536 = 65535 then fld s Reg.BOOT_STATUS Fld.BOOT_STATUS_FAULT else 4)
      ∧ SameRegsBut s t [Reg.MEM_L2_STATUS, Reg.BOOT_STATUS, Reg.CDC_STAT] ∧ SameBytes s t := by
  have small : n % 65536 < 65536 := Nat.mod_lt _ (by decide)
  obtain ⟨trained, failed⟩ := fld_trainedShown s small
  have l2 (f : Fld) : fld (setBootPhase (trainingShown s (n % 65536)) 7) Reg.MEM_L2_STATUS f
      = fld (trainedShown s (n % 65536)) Reg.MEM_L2_STATUS f :=
    ((sameRegsBut_setBootPhase _ 7).fld (by decide) f).trans (fld_l2Status_trainingShown ..)
  refine ⟨_, exec_memoryTrainingDone phase n, bootPhase_setBootPhase _ _ (by decide), (l2 _).trans trained, (l2 _).trans failed,
    (fault_setBootPhase ..).trans (fault_trainingShown s small), ?_, fun a => readByte_congr ?_ a⟩
  · exact (sameRegsBut_trainingShown _ _).trans (sameRegsBut_setBootPhase _ _) (List.Subset.refl _) (by simp)
  · rw [onlyReports_setBootPhase, onlyRegs_trainingShown]

end Sys2Proof.Machine
end

section
/-! The I3C target and the test access port (R465, R466, R490). -/

namespace Sys2Proof.Machine

/-! ### Addresses -/

theorem exec_i3cSetdasa (s : State) (a : Nat) :
    exec (.i3cSetdasa a) s
      = .next (if s.pins.i3c = none then { s with pins := { s.pins with i3c := some (a % 128) } } else s) := by
  show execI3cSetdasa a s = _
  unfold execI3cSetdasa
  cases s.pins.i3c <;> rfl

theorem exec_i3cEntdaa (s : State) (a : Nat) :
    exec (.i3cEntdaa a) s
      = .next (if s.pins.i3c = none
          then { s with pins := { s.pins with i3c := some (a % 128) }, out := s.out ++ [.i3cId (provisionalId s)] } else s) := by
  show execI3cEntdaa a s = _
  unfold execI3cEntdaa
  cases s.pins.i3c <;> rfl

/-! ### An image for recovery -/

theorem addPart_first {us : List Upload} {kind : Nat} (other : ∀ o ∈ us, o.kind ≠ kind) (index offset : Nat) (data : List Byte) :
    addPart us kind index offset data = us ++ [⟨kind, index, [(offset, data)]⟩] := by
  have absent : us.any (fun u => u.kind == kind && u.index == index) = false :=
    List.any_eq_false.mpr fun o ho => by simp [other o ho]
  rw [addPart, absent]
  rfl

theorem addPart_joins (o : Upload) (offset : Nat) (data : List Byte) :
    addPart [o] o.kind o.index offset data = [{ o with parts := o.parts ++ [(offset, data)] }] := by
  simp [addPart]

theorem stagedImage_nil {s : State} (other : ∀ o ∈ s.uploads, o.kind ≠ 1) : stagedImage s = [] := by
  have absent : s.uploads.find? (fun u => u.kind == 1) = none := List.find?_eq_none.mpr fun o ho => by simp [other o ho]
  rw [stagedImage, absent]
  rfl

theorem exec_i3cRecoveryData {s : State} {d : List Byte} (awaits : recovering s = true) (pos : 1 ≤ d.length) (fits : d.length ≤ 255) :
    exec (.i3cRecoveryData d) s = .next { s with uploads := addPart s.uploads 1 0 (stagedImage s).length d } := if_pos ⟨awaits, pos, fits⟩

theorem recoveryData_results {s : State} {d : List Byte} (awaits : recovering s = true) (pos : 1 ≤ d.length) (fits : d.length ≤ 255) :
    ∃ u : State, exec (.i3cRecoveryData d) s = .next u ∧ u = { s with uploads := u.uploads }
      ∧ ((∀ o, o ∈ s.uploads → o.kind ≠ 1) → u.uploads = s.uploads ++ [⟨1, 0, [(0, d)]⟩])
      ∧ (∀ o, s.uploads = [o] → o.kind = 1 → o.index = 0 → u.uploads = [{ o with parts := o.parts ++ [(o.bytes.length, d)] }]) := by
  refine ⟨_, exec_i3cRecoveryData awaits pos fits, rfl, fun other => ?_, fun o one kind index => ?_⟩
  · rw [stagedImage_nil other]
    exact addPart_first other 0 0 d
  · have staged : stagedImage s = o.bytes := by simp [stagedImage, one, kind]
    show addPart s.uploads 1 0 (stagedImage s).length d = _
    rw [staged, one, ← kind, ← index]
    exact addPart_joins o o.bytes.length d

/-- Outside the phase that awaits an image, the target takes nothing. -/
theorem i3c_notRecovering {s : State} (off : recovering s = false) (d : List Byte) :
    exec (.i3cRecoveryData d) s = .next s ∧ exec .i3cDiscardStaged s = .next s ∧ exec .i3cBootGo s = .next s := by
  refine ⟨if_neg fun h => ?_, ?_, ?_⟩
  · rw [off] at h
    exact absurd h.1 Bool.false_ne_true
  · show Host.Outcome.next (if recovering s then dropImage s else s) = _
    rw [off]
    rfl
  · show Host.Outcome.next (if recovering s then startVerify s none else s) = _
    rw [off]
    rfl

theorem exec_i3cDiscardStaged {s : State} (awaits : recovering s = true) :
    exec .i3cDiscardStaged s = .next { s with uploads := s.uploads.filter (fun u => u.kind != 1) } :=
  congrArg Host.Outcome.next (if_pos awaits)

/-! ### The test access port -/

theorem idcode_fields (s : State) :
    idcode s % 2 = 1 ∧ idcode s / 4096 % 65536 = 0x6408
      ∧ idcode s / 2 ^ 28 = fld s Reg.STEPPING Fld.STEPPING_MAJOR % 16 := by
  have major : fld s Reg.STEPPING Fld.STEPPING_MAJOR % 16 < 16 := Nat.mod_lt _ (by decide)
  have maker : Config.jedecId % 2048 < 2048 := Nat.mod_lt _ (by decide)
  unfold idcode
  norm_num only
  omega

/-- A challenge opened or closed changes PRP_NONCE alone of the registers' file. -/
theorem openChallenge_frame (s : State) :
    openChallenge s = { s with prp := { s.prp with challenge := true }, free := s.free + 1, regs := (openChallenge s).regs } :=
  onlyRegs_setDigest ..

theorem closeChallenge_frame (s : State) :
    closeChallenge s = { s with prp := { s.prp with challenge := false }, regs := (closeChallenge s).regs } :=
  onlyRegs_setDigest ..

theorem prpNonce_emit (s : State) (o : Output) : prpNonce (emit s o) = prpNonce s := by
  have same (a : Nat) : rd (emit s o) a = rd s a := rd_congr rfl a
  simp only [prpNonce, same]

theorem jtag_challenge {s : State} (opens : debugOpen s = true) (dr : List Byte) :
    ∃ u : State, exec (.jtagInstruction 2 dr) s = .next u ∧ u.prp = { s.prp with challenge := true }
      ∧ u.out = s.out ++ [Output.jtag (prpNonce u)]
      ∧ u = { s with prp := u.prp, regs := u.regs, free := s.free + 1, out := u.out } := by
  have step : exec (.jtagInstruction 2 dr) s = .next (emit (openChallenge s) (.jtag (prpNonce (openChallenge s)))) := by
    show execJtagInstruction 2 dr s = _
    simp only [execJtagInstruction, opens, if_true]
  have nonce := prpNonce_emit (openChallenge s) (.jtag (prpNonce (openChallenge s)))
  have frame := openChallenge_frame s
  generalize openChallenge s = u at *
  generalize prpNonce u = shown at *
  refine ⟨_, step, ?_, ?_, ?_⟩
  · rw [emit, frame]
  · rw [nonce, emit, frame]
  · rw [emit, frame]

/-- A response closes the challenge, and changes DEBUG or DEBUG_DENIED. -/
theorem debugResponse_results (s : State) (scope e l : Nat) (sigE sigL : List Byte) :
    (debugResponse s scope e l sigE sigL).1.prp = { s.prp with challenge := false }
      ∧ (debugOpen s = false → fld (debugResponse s scope e l sigE sigL).1 Reg.PRP_STATUS Fld.PRP_STATUS_DEBUG_DENIED = 1)
      ∧ (debugResponse s scope e l sigE sigL).1 = { s with
          prp := (debugResponse s scope e l sigE sigL).1.prp, regs := (debugResponse s scope e l sigE sigL).1.regs } := by
  have frame := closeChallenge_frame s
  unfold debugResponse
  dsimp only
  generalize closeChallenge s = u at *
  split
  · next ok =>
    refine ⟨by rw [setFld_prp, frame], fun shut => ?_, by rw [frame]; rfl⟩
    rw [shut] at ok
    exact absurd ok Bool.false_ne_true
  · exact ⟨by rw [setFld_prp, frame], fun _ => fld_setFld_same _ _ _ _ (by decide), by rw [frame]; rfl⟩

/-- Boundary scan and bypass leave the device alone. -/
theorem exec_jtag_other (s : State) {ir : Nat} (h : 3 < ir) (dr : List Byte) : exec (.jtagInstruction ir dr) s = .next s := by
  obtain ⟨k, rfl⟩ := Nat.exists_eq_add_of_lt h
  rw [show 3 + k + 1 = k + 4 by omega]
  rfl

/-- Settles O59: self-test by the core map that it shows, training by its fields, and the two ports request by request. -/
theorem selfTestAndBoard : Obligations.SelfTestAndBoard := by
  unfold Obligations.SelfTestAndBoard
  refine ⟨⟨fun s phase => selfTest_clean phase, fun s c phase hc first room => selfTest_one phase hc first room,
    fun s n phase => memoryTraining_results phase n⟩, fun s a => ⟨fun free => ⟨?_, ?_⟩, fun taken => ⟨?_, ?_⟩⟩,
    fun s d awaits pos fits => ⟨recoveryData_results awaits pos fits, exec_i3cDiscardStaged awaits⟩,
    fun s d off => i3c_notRecovering off d, fun s ir dr => ?_⟩
  · rw [exec_i3cSetdasa, if_pos free]
  · rw [exec_i3cEntdaa, if_pos free]
  · rw [exec_i3cSetdasa, if_neg taken]
  · rw [exec_i3cEntdaa, if_neg taken]
  · obtain ⟨one, part, major⟩ := idcode_fields s
    exact ⟨rfl, one, part, major, fun opens => jtag_challenge opens dr, ⟨_, rfl, debugResponse_results ..⟩,
      fun h => exec_jtag_other s h dr⟩

end Sys2Proof.Machine
end

section
/-! K.SPAWN and K.CTX (R336, R337): where the spawned task goes, and what a program event and a stop leave. -/

namespace Sys2Proof.Machine

/-! ### Deques (R114, R117, R118) -/

theorem deque_setRun (s : State) (x l : Nat) (r : Option Running) (m : Nat) :
    (getCore (setRun s x l r) x m).deque = (getCore s x m).deque := by
  by_cases h : m = l
  · subst h
    rw [getCore_setRun]
  · rw [getCore_setRun_core s x r h]

/-- A task pushed onto the near end stays there while its core is busy. -/
theorem pushTask_busy {s : State} {x l : Nat} (h : (getRun s x l).isSome = true) (t : Task) :
    pushTask s x l true t = setCore s x l { getCore s x l with deque := t :: (getCore s x l).deque } := by
  refine dispatchCore_busy ?_
  rw [getRun, getCore_setCore]
  exact h

/-- An idle core of the running context takes the task pushed onto its near end at once, and keeps its deque. -/
theorem pushTask_idle {s : State} {x l : Nat} (run : getRun s x l = none) (running : runningCtx s x = true) (t : Task) :
    pushTask s x l true t = startTask (setCore s x l (getCore s x l)) x l t := by
  have idle : getRun (setCore s x l { getCore s x l with deque := t :: (getCore s x l).deque }) x l = none := by
    rw [getRun, getCore_setCore]
    exact run
  refine (dispatchCore_takes idle (by rw [getCore_setCore]) (by rwa [runningCtx_setCore])).trans ?_
  rw [getCore_setCore, setCore_setCore]

/-! ### K.SPAWN (R336) -/

theorem getRun_of_seqAt {s : State} {x l : Nat} {r : Running} {f : Flight} (h : seqAt s x l = some (r, f)) :
    getRun s x l = some r := by
  unfold seqAt at h
  split at h
  · next q run =>
    split at h
    · split at h
      · cases h
        exact run
      · contradiction
    · contradiction
  · contradiction

/-- The task that K.SPAWN reads out of its operands. -/
theorem spawnedTask_results (s : State) (x : Nat) (r : Running) (g : TaskRegs) (ge ga gi : GReg) (bind : Bool) {k : Task}
    (hk : k = spawnedTask s x r g ge ga gi bind) :
    k.entry = g.getG ge ∧ k.args.length = 8 ∧ (∀ i, i < 8 → k.args[i]? = some (g.getN (ga.val + i)))
      ∧ k.tid = (g.getG gi).toNat % 2 ^ 32 ∧ (k.home, k.group) = homeOf s x k.tid
      ∧ k.bound = (if bind then r.task.bound else .none) := by
  subst hk
  refine ⟨rfl, by simp [spawnedTask], fun i hi => ?_, rfl, rfl, rfl⟩
  simp [spawnedTask, hi]

theorem openBound_frame (s : State) (b : Bound) : openBound s b = { s with cells := (openBound s b).cells } := by
  unfold openBound
  split <;> rfl

/-- A task bound to a cell is one more task of that cell. -/
theorem tasks_openBound (s : State) (c : Nat) :
    (getCell (openBound s (.cell c)) c).tasks = (getCell s c).tasks + 1 := by
  rw [openBound, getCell_setCell]

/-- The state once K.SPAWN has completed and its task `k` is open in its cell, before `k` is pushed. -/
def spawning (s : State) (x l : Nat) (r : Running) (f : Flight) (k : Task) : State := openBound (stepSeq s x l r f id) k.bound

theorem exec_kSpawn {s : State} {x l : Nat} {r : Running} {f : Flight} {ge ga gi : GReg} {bind : Bool} {k : Task}
    (h : Held s x l r f (.kSpawn ge ga gi bind)) (hk : k = spawnedTask s x r f.regs ge ga gi bind) :
    exec (.kSpawn x l) s
      = .next (if dequeRoom s x k.home then pushTask (spawning s x l r f k) x k.home true k
          else refuseInstr (setRun s x l (some { r with seq := none })) x l f.pc f.word 5 (refDeque s x k.home)) := by
  subst hk
  refine congrArg Host.Outcome.next ((seqExec_held h rfl _).trans ?_)
  rw [h.2.1]
  rfl

/-- K.SPAWN's own part: its task steps on, and beside that only cells change. -/
theorem spawning_results (s : State) (x l : Nat) (r : Running) (f : Flight) (k : Task) :
    ∃ r', Stepped r r' f (f.pc + 8) ∧ r'.regs = r.regs
      ∧ (spawning s x l r f k).ctxs = (setRun s x l (some r')).ctxs
      ∧ (∀ c, k.bound = .cell c → (getCell (spawning s x l r f k) c).tasks = (getCell s c).tasks + 1)
      ∧ spawning s x l r f k = { s with ctxs := (spawning s x l r f k).ctxs, cells := (spawning s x l r f k).cells } := by
  obtain ⟨r', run, only, stepped, regs⟩ := stepSeq_spec s x l r f id
  rw [OnlyTask, run] at only
  unfold spawning
  rw [only]
  refine ⟨r', stepped, regs, by rw [openBound_frame], fun c bound => ?_, by rw [openBound_frame]; rfl⟩
  rw [bound, tasks_openBound]
  rfl

section
variable {s u : State} {x l : Nat} {r' : Running} (ctxs : u.ctxs = (setRun s x l (some r')).ctxs)
include ctxs

/-- A spawned task waits at the near end of the deque of a busy home core. -/
theorem pushTask_spawned_busy {k : Task} (busy : (getRun s x k.home).isSome = true) :
    getRun (pushTask u x k.home true k) x l = some r'
      ∧ (getCore (pushTask u x k.home true k) x k.home).deque = k :: (getCore s x k.home).deque
      ∧ (∀ m, m ≠ k.home → (getCore (pushTask u x k.home true k) x m).deque = (getCore s x m).deque)
      ∧ pushTask u x k.home true k = { u with ctxs := (pushTask u x k.home true k).ctxs } := by
  have deque (m : Nat) : (getCore u x m).deque = (getCore s x m).deque := by rw [getCore_of_ctxs ctxs, deque_setRun]
  have on : getRun u x l = some r' := by rw [getRun_of_ctxs ctxs, getRun_setRun]
  have busy' : (getRun u x k.home).isSome = true := by
    by_cases own : k.home = l
    · rw [own, on]
      rfl
    · rwa [getRun_of_ctxs ctxs, getRun_setRun_core s x _ own]
  rw [pushTask_busy busy']
  refine ⟨?_, ?_, fun m hm => ?_, rfl⟩
  · by_cases own : l = k.home
    · subst own
      rw [getRun, getCore_setCore]
      exact on
    · rw [getRun, getCore_setCore_core u x _ own]
      exact on
  · rw [getCore_setCore, deque]
  · rw [getCore_setCore_core u x _ hm, deque]

/-- An idle home core starts the spawned task. -/
theorem pushTask_spawned_idle {k : Task} (running : runningCtx s x = true) (other : k.home ≠ l) (idle : getRun s x k.home = none)
    (ok : entryCheck s x k.home k.entry = none) :
    ∃ q, getRun (pushTask u x k.home true k) x l = some r' ∧ getRun (pushTask u x k.home true k) x k.home = some q
      ∧ StartedTask s x k.home q k ∧ (getCore (pushTask u x k.home true k) x k.home).deque = (getCore s x k.home).deque := by
  have idle' : getRun u x k.home = none := by rw [getRun_of_ctxs ctxs, getRun_setRun_core s x _ other, idle]
  have running' : runningCtx u x = true := by rw [runningCtx_congr ctxs, runningCtx_setRun, running]
  have handles (n : Nat) : handleOf (setCore u x k.home (getCore u x k.home)) x k.home n = handleOf s x k.home n := by
    rw [handleOf_setCore, handleOf_of_ctxs ctxs, handleOf_setRun]
  obtain ⟨q, on, started, core, others, -⟩ := startTask_results handles ok
  rw [pushTask_idle idle' running']
  refine ⟨q, ?_, on, started, ?_⟩
  · rw [getRun, others l (Ne.symm other), getCore_setCore_core u x _ (Ne.symm other), getCore_of_ctxs ctxs, getCore_setRun]
  · rw [core, getCore_setCore, getCore_of_ctxs ctxs, deque_setRun]

end

/-- A refused instruction of a plain task leaves one record and its context FAULTED (R47). -/
theorem refuseInstr_results {s : State} {x l : Nat} (plain : taskKindOf s x l = .plain) (running : runningCtx s x = true) (pc : Nat)
    (word : Word) (step : Nat) (r : Refuse) :
    (getCtx (refuseInstr s x l pc word step r) x).st = .faulted
      ∧ ∃ e, (refuseInstr s x l pc word step r).recs = s.recs ++ [e] ∧ e.code = r.code ∧ e.ctx = some x ∧ e.pc = pc
        ∧ (e.d0, e.d1) = r.own.getD (word.toNat, step) := by
  generalize hu : raiseInstr s x l pc r.code sevError r.obj (r.own.getD (word.toNat, step)).1 (r.own.getD (word.toNat, step)).2
    r.d2 r.d3 = u
  have recorded : refuseInstr s x l pc word step r = faultInstr u x l pc := by rw [← hu]; rfl
  have kind : taskKindOf u x l = .plain := by rw [← hu]; exact plain
  have running' : runningCtx u x = true := by rw [← hu]; exact running
  rw [recorded, faultInstr_plain kind]
  refine ⟨by rw [getCtx_faultCtx_running running'], ?_⟩
  rw [faultCtx_frame, ← hu]
  exact ⟨_, rfl, rfl, rfl, rfl, rfl⟩

theorem kSpawn_refused {s : State} {x l : Nat} {r : Running} {f : Flight} {ge ga gi : GReg} {bind : Bool} {k : Task}
    (h : Held s x l r f (.kSpawn ge ga gi bind)) (hk : k = spawnedTask s x r f.regs ge ga gi bind)
    (full : dequeRoom s x k.home = false) (plain : r.task.kind = .plain) :
    ∃ t e, exec (.kSpawn x l) s = .next t ∧ (getCtx t x).st = .faulted ∧ t.recs = s.recs ++ [e] ∧ e.code = 0x0303
      ∧ e.ctx = some x ∧ e.pc = f.pc ∧ e.d0 = f.word.toNat ∧ e.d1 = 5 := by
  obtain ⟨faulted, e, recs, code, ctx, pc, details⟩ := refuseInstr_results (s := setRun s x l (some { r with seq := none })) (l := l)
    (by rwa [taskKindOf_setRun]) (by rw [runningCtx_setRun]; exact runningCtx_of_seqAt h.1) f.pc f.word 5 (refDeque s x k.home)
  obtain ⟨d0, d1⟩ := Prod.mk.inj details
  exact ⟨_, e, (exec_kSpawn h hk).trans (congrArg _ (if_neg (by simp [full]))), faulted, recs, code, ctx, pc, d0, d1⟩

/-! ### K.CTX (R337) -/

/-- The program event of K.CTX, as it stands in the host event queue. -/
def programEntry (s : State) (x l : Nat) (f : Flight) (ga : GReg) : QEntry :=
  ⟨.program x (physCore s (getCtx s x).part l) f.pc (f.regs.getG ga), false, [], []⟩

/-- With room, a program event is the queue's last entry, and nothing else changes. -/
theorem programEvent_room {s : State} (room : (s.hostQ.filter (fun q => !q.isGap)).length < 4095) (x l : Nat) (f : Flight) (ga : GReg) :
    programEvent s x l f ga = { s with hostQ := s.hostQ ++ [programEntry s x l f ga] } := if_pos room

/-- The event names the context's core, whatever task runs there. -/
theorem programEntry_setRun (s : State) (x l : Nat) (r : Option Running) (f : Flight) (ga : GReg) :
    programEntry (setRun s x l r) x l f ga = programEntry s x l f ga := by
  rw [programEntry, getCtx_setRun]
  rfl

theorem exec_kCtxEvent {s : State} {x l : Nat} {r : Running} {f : Flight} {ga : GReg} (h : Held s x l r f (.kCtxEvent ga)) :
    exec (.kCtxEvent x l) s = .next (programEvent (stepSeq s x l r f id) x l f ga) := by
  refine congrArg Host.Outcome.next ((seqExec_held h rfl _).trans ?_)
  rw [h.2.1]

theorem kCtxEvent_results {s : State} {x l : Nat} {r : Running} {f : Flight} {ga : GReg} (h : Held s x l r f (.kCtxEvent ga))
    (room : (s.hostQ.filter (fun q => !q.isGap)).length < 4095) :
    ∃ t r', exec (.kCtxEvent x l) s = .next t ∧ getRun t x l = some r' ∧ Stepped r r' f (f.pc + 8) ∧ r'.regs = r.regs
      ∧ t.hostQ = s.hostQ ++ [programEntry s x l f ga] ∧ OnlyTaskCtxs s t x l ∧ t = { s with ctxs := t.ctxs, hostQ := t.hostQ } := by
  obtain ⟨r', run, only, stepped, regs⟩ := stepSeq_spec s x l r f id
  rw [OnlyTask, run] at only
  have step := exec_kCtxEvent h
  rw [only, programEvent_room (by rwa [setRun_hostQ]), programEntry_setRun] at step
  exact ⟨_, r', step, getRun_setRun .., stepped, regs, rfl, onlyTaskCtxs_setRun (t := s) rfl x l _, rfl⟩

/-- The task that K.CTX STOP leaves: its wait consumed, the next instruction at hand. -/
def stoppedTask (r : Running) (f : Flight) : Running := { (r.consume f.op.wait) with seq := none, pc := f.pc + 8 }

theorem steppedNoPost_stoppedTask (r : Running) (f : Flight) : SteppedNoPost r (stoppedTask r f) f (f.pc + 8) := by
  obtain ⟨-, tokens⟩ := steppedNoPost_consume r f
  exact ⟨by rw [stoppedTask, Running.consume_eq], tokens⟩

theorem exec_kCtxStop {s : State} {x l : Nat} {r : Running} {f : Flight} {ga : GReg} (h : Held s x l r f (.kCtxStop ga)) :
    exec (.kCtxStop x l) s = .next (stopCtx (programEvent (setRun s x l (some (stoppedTask r f))) x l f ga) x) := by
  refine congrArg Host.Outcome.next ((seqExec_held h rfl _).trans ?_)
  rw [h.2.1]
  rfl

/-- A context that gives its slice up leaves its partition's slice free. -/
theorem dropSlice_gives {s : State} {x : Nat} (holds : (getSlice s (getCtx s x).part).ctx = some x) :
    (getSlice (dropSlice s x) (getCtx s x).part).ctx = none := by
  unfold dropSlice
  extract_lets p v
  rw [if_pos holds, getSlice_setSlice]

/-- A RUNNING context that stops gives its slice up. -/
theorem stopCtx_gives {s : State} {x : Nat} (running : runningCtx s x = true)
    (holds : (getSlice s (getCtx s x).part).ctx = some x) : (getSlice (stopCtx s x) (getCtx s x).part).ctx = none := by
  have st : (getCtx s x).st = .running := eq_of_beq running
  have drop := dropSlice_gives (s := setCtx s x { getCtx s x with st := .stopped, fromLoaded := false }) (x := x)
    (by rwa [getCtx_setCtx])
  rw [getCtx_setCtx] at drop
  simpa only [stopCtx, st] using drop

theorem kCtxStop_results {s : State} {x l : Nat} {r : Running} {f : Flight} {ga : GReg} (h : Held s x l r f (.kCtxStop ga))
    (room : (s.hostQ.filter (fun q => !q.isGap)).length < 4095) :
    ∃ t r', exec (.kCtxStop x l) s = .next t ∧ getRun t x l = some r' ∧ SteppedNoPost r r' f (f.pc + 8)
      ∧ t.hostQ = s.hostQ ++ [programEntry s x l f ga]
      ∧ (getCtx t x).st = .stopped ∧ (getCtx t x).fromLoaded = false
      ∧ (∀ y, y ≠ x → getCtx t y = getCtx s y)
      ∧ ((getSlice s (getCtx s x).part).ctx = some x → (getSlice t (getCtx s x).part).ctx = none)
      ∧ t = { s with ctxs := t.ctxs, hostQ := t.hostQ, slices := t.slices } := by
  have step := exec_kCtxStop h
  rw [programEvent_room (by rwa [setRun_hostQ]), programEntry_setRun] at step
  generalize hu : ({ setRun s x l (some (stoppedTask r f)) with
    hostQ := (setRun s x l (some (stoppedTask r f))).hostQ ++ [programEntry s x l f ga] } : State) = u at step
  have ctxs : u.ctxs = (setRun s x l (some (stoppedTask r f))).ctxs := by rw [← hu]
  have running : runningCtx u x = true := by
    rw [runningCtx_congr ctxs, runningCtx_setRun]
    exact runningCtx_of_seqAt h.1
  have st : (getCtx u x).st = .running := eq_of_beq running
  have part : (getCtx u x).part = (getCtx s x).part := by rw [getCtx_of_ctxs ctxs, getCtx_setRun]
  obtain ⟨own, others, frame⟩ := stopCtx_results (.inr (.inr st))
  have gives := stopCtx_gives running
  rw [part] at gives
  refine ⟨_, stoppedTask r f, step, ?_, steppedNoPost_stoppedTask r f, ?_, by rw [own], by rw [own, st]; rfl, fun y hy => ?_,
    fun holds => ?_, ?_⟩
  · have on : getRun u x l = some (stoppedTask r f) := by rw [getRun_of_ctxs ctxs, getRun_setRun]
    rw [getRun, getCore, own]
    exact on
  · rw [frame, ← hu]
    rfl
  · rw [others y hy, getCtx_of_ctxs ctxs, getCtx_setRun_other s l _ hy]
  · refine gives ?_
    rw [← hu]
    exact holds
  · rw [frame, ← hu]
    rfl

/-- Settles O12: a spawned task by its home core, busy, idle or without room; an event and a stop by the queue entry they place. -/
theorem spawnAndContextResults : Obligations.SpawnAndContextResults := by
  unfold Obligations.SpawnAndContextResults
  refine ⟨fun s x l r f ge ga gi bind k h hk => ?_, fun s x l r f ga h room => kCtxEvent_results h room,
    fun s x l r f ga h room => kCtxStop_results h room⟩
  obtain ⟨entry, len, args, tid, home, bound⟩ := spawnedTask_results s x r f.regs ge ga gi bind hk
  have step := exec_kSpawn h hk
  obtain ⟨r', stepped, regs, ctxs, tasks, frame⟩ := spawning_results s x l r f k
  refine ⟨entry, len, args, tid, home, bound, fun room busy => ?_, fun room idle ok => ?_, kSpawn_refused h hk⟩
  · rw [if_pos room] at step
    obtain ⟨on, near, others, pushed⟩ := pushTask_spawned_busy ctxs busy
    refine ⟨_, r', step, on, stepped, regs, near, others, fun c hc => ?_, ?_⟩
    · rw [pushed]
      exact tasks c hc
    · rw [pushed, frame]
  · rw [if_pos room] at step
    have other : k.home ≠ l := by
      intro own
      rw [own, getRun_of_seqAt h.1] at idle
      contradiction
    obtain ⟨q, on, started, begun, deque⟩ := pushTask_spawned_idle ctxs (runningCtx_of_seqAt h.1) other idle ok
    exact ⟨_, r', q, step, on, stepped, regs, started, begun, deque⟩

end Sys2Proof.Machine
end

section
/-! What leaves memory as it was: every function of the model that stores no byte. -/

namespace Sys2Proof.Machine

variable (s : State)

/-- Of two states the memory is that of the one chosen. -/
@[simp] theorem mem_ite (c : Prop) [Decidable c] (s t : State) : (if c then s else t).mem = if c then s.mem else t.mem :=
  apply_ite State.mem c s t

/-- A fold of steps that leave memory as it was leaves it as it was. -/
@[simp] theorem foldl_mem {α : Type} {f : State → α → State} (h : ∀ s a, (f s a).mem = s.mem) (l : List α) (s : State) :
    (l.foldl f s).mem = s.mem := by
  induction l generalizing s with
  | nil => rfl
  | cons a l ih => exact (ih _).trans (h s a)

@[simp] theorem foldl_emit_mem {α : Type} (g : State → α → Output) (l : List α) (s : State) :
    (l.foldl (fun s a => emit s (g s a)) s).mem = s.mem := foldl_mem (fun _ _ => by rfl) l s
@[simp] theorem foldl_setCell_mem {α : Type} (k : State → α → Nat) (v : State → α → Cell) (l : List α) (s : State) :
    (l.foldl (fun s a => setCell s (k s a) (v s a)) s).mem = s.mem := foldl_mem (fun _ _ => by rfl) l s
@[simp] theorem foldl_setFlag_mem {α : Type} (k : State → α → Nat) (v : State → α → FlagSt) (l : List α) (s : State) :
    (l.foldl (fun s a => setFlag s (k s a) (v s a)) s).mem = s.mem := foldl_mem (fun _ _ => by rfl) l s
@[simp] theorem foldl_setBar_mem {α : Type} (k : State → α → Nat) (v : State → α → BarSt) (l : List α) (s : State) :
    (l.foldl (fun s a => setBar s (k s a) (v s a)) s).mem = s.mem := foldl_mem (fun _ _ => by rfl) l s
@[simp] theorem foldl_wr_mem {α : Type} (k : State → α → Nat) (v : State → α → Word) (l : List α) (s : State) :
    (l.foldl (fun s a => wr s (k s a) (v s a)) s).mem = s.mem := foldl_mem (fun _ _ => by rfl) l s
@[simp] theorem foldl_setFld_mem {α : Type} (k : State → α → Nat) (f : State → α → Fld) (v : State → α → Nat) (l : List α) (s : State) :
    (l.foldl (fun s a => setFld s (k s a) (f s a) (v s a)) s).mem = s.mem := foldl_mem (fun _ _ => by rfl) l s

/-- The same for a fold that carries more than the state. -/
theorem foldl_fst_mem {α β : Type} {f : State × β → α → State × β} (h : ∀ c a, (f c a).1.mem = c.1.mem) (l : List α) (c : State × β) :
    (l.foldl f c).1.mem = c.1.mem := by
  induction l generalizing c with
  | nil => rfl
  | cons a l ih => exact (ih _).trans (h c a)

theorem OnlyRegs.mem {s t : State} (h : OnlyRegs s t) : t.mem = s.mem := by rw [h]

/-! ### Shared operations -/

@[simp] theorem bumpMod_mem (a : Nat) (f : Fld) (n : Nat) : (bumpMod s a f n).mem = s.mem := by rfl
@[simp] theorem drawBytes_mem (n : Nat) : (drawBytes s n).2.mem = s.mem := by rfl
@[simp] theorem carryPoison_mem (old : State) (a b n : Nat) : (carryPoison old s a b n).mem = s.mem := by
  unfold carryPoison
  exact foldl_mem (fun _ _ => by rfl) _ _

@[simp] theorem combDrop_mem (f : CombLine → Bool) : (combDrop s f).mem = s.mem := by rfl
@[simp] theorem combPlace_mem (p : Nat) (ways : List Nat) (write : Bool) (line : Nat) : (combPlace s p ways write line).mem = s.mem := by
  unfold combPlace
  dsimp only
  (repeat' split) <;> simp

@[simp] theorem combAccess_mem (write strm : Bool) (line : Nat) : (combAccess write strm s line).mem = s.mem := by
  unfold combAccess
  dsimp only
  (repeat' split) <;> simp

@[simp] theorem combMore_mem (a n p : Nat) : (combMore s a n p).mem = s.mem := by rfl
@[simp] theorem setCtxState_mem (x : Nat) (st : CtxState) : (setCtxState s x st).mem = s.mem := by rfl
@[simp] theorem dropSlice_mem (x : Nat) : (dropSlice s x).mem = s.mem := by simp [dropSlice]
@[simp] theorem faultCtx_mem (x : Nat) : (faultCtx s x).mem = s.mem := by simp [faultCtx]
@[simp] theorem stopCtx_mem (x : Nat) : (stopCtx s x).mem = s.mem := by
  unfold stopCtx
  dsimp only
  split <;> simp

@[simp] theorem raiseDev_mem (code sev obj d0 d1 d2 d3 : Nat) : (raiseDev s code sev obj d0 d1 d2 d3).mem = s.mem := by rfl
@[simp] theorem raisePart_mem (p code sev obj d0 d1 d2 d3 : Nat) : (raisePart s p code sev obj d0 d1 d2 d3).mem = s.mem := by rfl
@[simp] theorem raiseCtx_mem (x code sev obj d0 d1 d2 d3 : Nat) : (raiseCtx s x code sev obj d0 d1 d2 d3).mem = s.mem := by rfl
@[simp] theorem raiseInstr_mem (x l pc code sev obj d0 d1 d2 d3 : Nat) : (raiseInstr s x l pc code sev obj d0 d1 d2 d3).mem = s.mem := by
  rfl

@[simp] theorem refuseAccess_mem (x a : Nat) : (refuseAccess s x a).mem = s.mem := by rfl
@[simp] theorem refusePartAccess_mem (p a : Nat) : (refusePartAccess s p a).mem = s.mem := by rfl
@[simp] theorem countGap_mem (fifo n : Nat) (quiet : Bool) : (countGap s fifo n quiet).mem = s.mem := by
  unfold countGap
  split <;> rfl

@[simp] theorem dropEvent_mem : (dropEvent s).mem = s.mem := by
  unfold dropEvent
  split <;> rfl

@[simp] theorem pushEvent_mem (e : HostEv) : (pushEvent s e).mem = s.mem := by simp [pushEvent]
@[simp] theorem moveRank_mem (r : Nat) (a : Option Nat) : (moveRank s r a).mem = s.mem := by rfl
@[simp] theorem noteNonfinite_mem (p : Nat) (e : Xch) : (noteNonfinite s p e).mem = s.mem := by
  unfold noteNonfinite
  split <;> rfl

@[simp] theorem countCol_mem (p : Nat) (aborted : Bool) : (countCol s p aborted).mem = s.mem := by
  unfold countCol
  split <;> rfl

@[simp] theorem stopPart_mem (p : Nat) : (stopPart s p).mem = s.mem := by simp [stopPart]
@[simp] theorem endExchange_mem (p : Nat) : (endExchange s p).mem = s.mem := by
  unfold endExchange
  dsimp only
  (repeat' split) <;> simp

@[simp] theorem devWagAborted_mem (p : Nat) (lost : Bool) : (devWagAborted s p lost).mem = s.mem := by simp [devWagAborted]
@[simp] theorem addContrib_mem (k : Nat) (port : Option Nat) (sig : Sig) (vals : List ℤ) (bad : List Bool) :
    (addContrib s k port sig vals bad).mem = s.mem := by rfl

@[simp] theorem beginDev_mem (slot : Nat) (d : DevWag) : (beginDev s slot d).mem = s.mem := by
  unfold beginDev
  dsimp only
  (repeat' split) <;> simp

@[simp] theorem enterDev_mem (slot : Nat) (d : DevWag) : (enterDev s slot d).mem = s.mem := by simp [enterDev]
@[simp] theorem pumpDev_mem (slot : Nat) : (pumpDev s slot).mem = s.mem := by
  unfold pumpDev
  dsimp only
  split <;> simp

@[simp] theorem startOr_mem (p : Nat) (owner : WagOwner) (vals : List Nat) (o : Output) : (startOr s p owner vals o).mem = s.mem := by
  unfold startOr
  split <;> simp

@[simp] theorem castVote_mem (p : Nat) : (castVote s p).mem = s.mem := by
  unfold castVote
  dsimp only
  split <;> simp

@[simp] theorem haltHandler_mem (x l pc : Nat) (k : TaskKind) (cause : Nat) : (haltHandler s x l pc k cause).mem = s.mem := by
  unfold haltHandler
  split <;> simp

@[simp] theorem refuseInstr_mem (x l pc : Nat) (word : Word) (step : Nat) (r : Refuse) :
    (refuseInstr s x l pc word step r).mem = s.mem := by simp [refuseInstr]

@[simp] theorem refuseForbidden_mem (x l pc : Nat) : (refuseForbidden s x l pc).mem = s.mem := by simp [refuseForbidden]
@[simp] theorem faultInstr_mem (x l pc : Nat) : (faultInstr s x l pc).mem = s.mem := by simp [faultInstr]
@[simp] theorem listRow_mem (pc rowBank : Nat) (uncorr : Bool) : (listRow s pc rowBank uncorr).mem = s.mem := by
  unfold listRow
  split <;> simp

@[simp] theorem logCorrected_mem : (logCorrected s).mem = s.mem := by rfl
@[simp] theorem eccCorrected_mem (u : CorrUnit) : (eccCorrected s u).mem = s.mem := by simp [eccCorrected]
@[simp] theorem eccUncorrectable_mem (h : Nat) (u : CorrUnit) : (eccUncorrectable s h u).mem = s.mem := by rfl
@[simp] theorem memCorrected_mem (e : EccEvent) : (memCorrected s e).mem = s.mem := by simp [memCorrected]
@[simp] theorem memUncorrectable_mem (h : Nat) (e : EccEvent) : (memUncorrectable s h e).mem = s.mem := by simp [memUncorrectable]
@[simp] theorem lineUncorrectable_mem (h : Nat) (e : EccEvent) (c : CombLine) : (lineUncorrectable s h e c).mem = s.mem := by
  simp [lineUncorrectable]

@[simp] theorem eccMemory_mem (h : Nat) (e : EccEvent) : (eccMemory h s e).mem = s.mem := by
  unfold eccMemory
  split <;> simp

@[simp] theorem eccOne_mem (h : Nat) (e : EccEvent) : (eccOne h s e).mem = s.mem := by
  unfold eccOne
  (repeat' split) <;> simp

@[simp] theorem eccApply_mem (h a n : Nat) (evs : List EccEvent) : (eccApply s h a n evs).mem = s.mem := by simp [eccApply]

/-! ### Operands -/

@[simp] theorem eccMeet_mem (ts : List Touch) (evs : List EccEvent) : (eccMeet s ts evs).mem = s.mem := by
  unfold eccMeet
  refine foldl_mem (fun s a => ?_) _ _
  split <;> simp

@[simp] theorem combReads_mem (strm : Bool) (ts : List Touch) : (combReads s strm ts).mem = s.mem := by simp [combReads]
@[simp] theorem combWrites_mem (ts : List Touch) : (combWrites s ts).mem = s.mem := by simp [combWrites]
@[simp] theorem meet_mem (x l : Nat) (strm : Bool) (ts : List Touch) (dsts : List Desc) (evs : List EccEvent) :
    (meet s x l strm ts dsts evs).mem = s.mem := by simp [meet]

/-! ### Exceptions of a core -/

@[simp] theorem setStickies_mem (core : Nat) (e : Exc) : (setStickies s core e).mem = s.mem := by rfl
@[simp] theorem countNum_mem (by_ : NumBy) (core reg : Nat) (cnt thr : Fld) (code n : Nat) :
    (countNum s by_ core reg cnt thr code n).mem = s.mem := by simp [countNum]

@[simp] theorem recordExc_mem (by_ : NumBy) (e : Exc) : (recordExc s by_ e).mem = s.mem := by simp [recordExc]
@[simp] theorem recordInvalid_mem (x l : Nat) (v : Option InvalidSeen) : (recordInvalid s x l v).mem = s.mem := by
  unfold recordInvalid
  split <;> simp

@[simp] theorem recordOverflow_mem (by_ : NumBy) (v : Option OverflowSeen) : (recordOverflow s by_ v).mem = s.mem := by
  unfold recordOverflow
  split <;> simp

/-! ### Issue and completion -/

@[simp] theorem markExecuted_mem (x l id : Nat) : (markExecuted s x l id).mem = s.mem := by
  unfold markExecuted
  (repeat' split) <;> simp

@[simp] theorem settlePoison_mem (x l : Nat) : (settlePoison s x l).mem = s.mem := by
  unfold settlePoison
  split <;> simp

@[simp] theorem completeFlight_mem (x l id : Nat) : (completeFlight s x l id).mem = s.mem := by
  unfold completeFlight
  (repeat' split) <;> simp

@[simp] theorem abandonFlight_mem (x l id : Nat) : (abandonFlight s x l id).mem = s.mem := by
  unfold abandonFlight
  split <;> rfl

@[simp] theorem updFlight_mem (x l id : Nat) (g : Flight → Flight) : (updFlight s x l id g).mem = s.mem := by
  unfold updFlight
  (repeat' split) <;> simp

@[simp] theorem writeG_mem (x l : Nat) (i : GReg) (v : Word) : (writeG s x l i v).mem = s.mem := by
  unfold writeG
  split <;> rfl

@[simp] theorem rowsDone_mem (n : Nat) (limit : Option Nat) : (rowsDone s n limit).2.mem = s.mem := by
  unfold rowsDone
  split <;> rfl

@[simp] theorem endEngine_mem (x l id pc : Nat) (limit : Option Nat) : (endEngine s x l id pc limit).mem = s.mem := by
  unfold endEngine
  split <;> simp

/-! ### Arrays -/

@[simp] theorem reloadCore_mem (x l : Nat) : (reloadCore s x l).mem = s.mem := by rfl
@[simp] theorem ldwMeet_mem (x l : Nat) (f : Flight) (o : AOps) (ecc : List EccEvent) : (ldwMeet s x l f o ecc).mem = s.mem := by
  simp [ldwMeet]

@[simp] theorem runLdw_mem (x l : Nat) (f : Flight) (o : AOps) : (runLdw s x l f o).mem = s.mem := by simp [runLdw]
@[simp] theorem runSwp_mem (x l : Nat) (f : Flight) (o : AOps) : (runSwp s x l f o).mem = s.mem := by simp [runSwp]
@[simp] theorem prodMeet_mem (x l : Nat) (mult : Bool) (f : Flight) (o : AOps) (ecc : List EccEvent) :
    (prodMeet s x l mult f o ecc).mem = s.mem := by simp [prodMeet]

@[simp] theorem afterStream_mem (x l : Nat) (mult : Bool) (f : Flight) (o : AOps) : (afterStream s x l mult f o).mem = s.mem := by
  unfold afterStream
  dsimp only
  (repeat' split) <;> simp

@[simp] theorem drnMeet_mem (x l : Nat) (f : Flight) (q : DrnOps) : (drnMeet s x l f q).mem = s.mem := by simp [drnMeet]

/-! ### Tasks -/

@[simp] theorem markStarted_mem (k : TaskKind) : (markStarted s k).mem = s.mem := by
  unfold markStarted
  split <;> simp

/-! ### Flags and barriers -/

@[simp] theorem finishComm_mem (x l id : Nat) (ws : List (GReg × Word)) : (finishComm s x l id ws).mem = s.mem := by simp [finishComm]
@[simp] theorem refuseFlight_mem (x l : Nat) (f : Flight) (step : Nat) (r : Refuse) : (refuseFlight s x l f step r).mem = s.mem := by
  simp [refuseFlight]

@[simp] theorem beginWait_mem (x l id : Nat) (w : CommWait) : (beginWait s x l id w).mem = s.mem := by simp [beginWait]
@[simp] theorem wakeWait_mem (e : Nat × Nat × Flight) : (wakeWait s e).mem = s.mem := by simp [wakeWait]
@[simp] theorem judgeFlag_mem (f : Nat) : (judgeFlag s f).mem = s.mem := by
  unfold judgeFlag
  dsimp only
  (repeat' split) <;> simp

@[simp] theorem setFlagAt_mem (x name source rank : Nat) (site : Option (Nat × Nat)) :
    (setFlagAt s x name source rank site).mem = s.mem := by
  unfold setFlagAt
  split <;> simp

@[simp] theorem setFlagName_mem (x name source rank : Nat) : (setFlagName s x name source rank).mem = s.mem := by simp [setFlagName]
@[simp] theorem clearFlagName_mem (x name : Nat) : (clearFlagName s x name).mem = s.mem := by rfl
@[simp] theorem loadBarrier_mem (b e : Nat) : (loadBarrier s b e).mem = s.mem := by
  unfold loadBarrier
  dsimp only
  split <;> simp

@[simp] theorem loadFlags_mem (fl : List ManFlag) : (loadFlags s fl).mem = s.mem := by simp [loadFlags]
@[simp] theorem judgeBar_mem (b : Nat) : (judgeBar s b).mem = s.mem := by simp [judgeBar]
@[simp] theorem releaseBar_mem (b : Nat) : (releaseBar s b).mem = s.mem := by simp [releaseBar]
@[simp] theorem treeRelease_mem (k g : Nat) : (treeRelease s k g).mem = s.mem := by simp [treeRelease]
@[simp] theorem treeEntry_mem (k : Nat) (port : Option Nat) (g : Nat) : (treeEntry s k port g).mem = s.mem := by simp [treeEntry]
@[simp] theorem barComplete_mem (b : Nat) : (barComplete s b).mem = s.mem := by
  unfold barComplete
  split <;> simp

@[simp] theorem enterBar_mem (b i : Nat) : (enterBar s b i).mem = s.mem := by simp [enterBar]
@[simp] theorem runSet_mem (x l : Nat) (f : Flight) (name : Nat) (gx : GReg) (remote : Bool) (gr gs : GReg) :
    (runSet s x l f name gx remote gr gs).mem = s.mem := by
  unfold runSet
  dsimp only
  (repeat' split) <;> simp

@[simp] theorem runWait_mem (x l : Nat) (f : Flight) (name : Nat) (gx : GReg) : (runWait s x l f name gx).mem = s.mem := by simp [runWait]
@[simp] theorem runBar_mem (x l : Nat) (f : Flight) (name : Nat) (gx : GReg) (split : Bool) (gi : GReg) :
    (runBar s x l f name gx split gi).mem = s.mem := by simp [runBar]

@[simp] theorem runBwait_mem (x l : Nat) (f : Flight) (name : Nat) (gx gi : GReg) : (runBwait s x l f name gx gi).mem = s.mem := by
  simp [runBwait]

/-! ### Message rings -/

@[simp] theorem advanceRing_mem (num : Nat) : (advanceRing s num).mem = s.mem := by rfl
@[simp] theorem judgeArrival_mem (r : Ring) (m : RingMsg) : (judgeArrival s r m).1.mem = s.mem := by
  unfold judgeArrival
  dsimp only
  split <;> simp

@[simp] theorem consumeMsg_mem (num m epoch : Nat) : (consumeMsg s num m epoch).mem = s.mem := by simp [consumeMsg]
@[simp] theorem handlerEnded_mem (num m epoch : Nat) (acked : Bool) : (handlerEnded s num m epoch acked).mem = s.mem := by
  simp [handlerEnded]

@[simp] theorem runSend_mem (x l : Nat) (f : Flight) (ts : TReg) (slots : Nat) (gr gs : GReg) :
    (runSend s x l f ts slots gr gs).mem = s.mem := by simp [runSend]

@[simp] theorem finishRingOp_mem (x l id num : Nat) : (finishRingOp s x l id num).mem = s.mem := by
  unfold finishRingOp
  split <;> simp

@[simp] theorem discardHandlers_mem (x num epoch : Nat) : (discardHandlers s x num epoch).mem = s.mem := by rfl
@[simp] theorem beginReset_mem (num : Nat) (by_ : Option (Nat × Nat × Nat)) : (beginReset s num by_).mem = s.mem := by simp [beginReset]
@[simp] theorem ringAct_mem (x l id num : Nat) (op : RingOp) : (ringAct s x l id num op).mem = s.mem := by
  unfold ringAct
  split <;> simp

@[simp] theorem ringOp_mem (x l id num : Nat) (op : RingOp) : (ringOp s x l id num op).mem = s.mem := by simp [ringOp]
@[simp] theorem runOps_mem (num : Nat) (os : List (Nat × Nat × Nat × RingOp)) : (runOps s num os).mem = s.mem := by
  induction os generalizing s with
  | nil => rfl
  | cons o os ih =>
    unfold runOps
    split
    · rfl
    · simp [ih]

@[simp] theorem endReset_mem (num : Nat) : (endReset s num).mem = s.mem := by
  unfold endReset
  dsimp only
  split <;> simp

@[simp] theorem sendMeet_mem (x l : Nat) (f : Flight) (ts : TReg) (ecc : List EccEvent) : (sendMeet s x l f ts ecc).mem = s.mem := by
  simp [sendMeet]

/-! ### Collectives -/

@[simp] theorem finishCol_mem (o : Nat × Nat × Nat) (ws : List (GReg × Word)) (st : Word) : (finishCol s o ws st).mem = s.mem := by
  unfold finishCol
  (repeat' split) <;> simp

@[simp] theorem emitChunk_mem (g : Grp) (b : Bulk) (first : Bool) (c : OutChunk) : (emitChunk s g b first c).mem = s.mem := by rfl
@[simp] theorem pumpStage_mem (slot : Nat) (st : StageId) : (pumpStage slot s st).mem = s.mem := by
  unfold pumpStage
  dsimp only
  (repeat' split) <;> simp

@[simp] theorem pump_mem (slot : Nat) : (pump s slot).mem = s.mem := by
  unfold pump
  split <;> simp

@[simp] theorem markSignalled_mem (slot k : Nat) : (markSignalled s slot k).mem = s.mem := by rfl
@[simp] theorem noteLaggard_mem (g : Grp) (b : Bulk) : (noteLaggard s g b).mem = s.mem := by
  unfold noteLaggard
  split <;> rfl

@[simp] theorem noteAgreed_mem (slot : Nat) : (noteAgreed s slot).mem = s.mem := by
  unfold noteAgreed
  dsimp only
  split <;> simp

@[simp] theorem deviceAbort_mem (p : Nat) (why : AbortReason) : (deviceAbort s p why).mem = s.mem := by
  unfold deviceAbort
  dsimp only
  (repeat' split) <;> simp

@[simp] theorem dropContribs_mem (g : Grp) (seq : Nat) : (dropContribs s g seq).mem = s.mem := by
  unfold dropContribs
  split <;> rfl

@[simp] theorem endWag_mem (p : Nat) (owner : WagOwner) (why : AbortReason) : (endWag s p owner why).mem = s.mem := by
  unfold endWag
  split <;> simp

@[simp] theorem enterNaming_mem (slot : Nat) (n : Naming) (own : Option Sig) : (enterNaming s slot n own).mem = s.mem := by
  unfold enterNaming
  dsimp only
  split <;> simp

@[simp] theorem startNaming_mem (slot : Nat) : (startNaming s slot).mem = s.mem := by
  unfold startNaming
  dsimp only
  split <;> simp

@[simp] theorem namingStep_mem (slot : Nat) (n : Naming) (vals : List ℤ) : (namingStep s slot n vals).mem = s.mem := by
  unfold namingStep
  dsimp only
  split <;> simp

@[simp] theorem raiseGrp_mem (g : Grp) (code obj d0 d1 d2 d3 : Nat) : (raiseGrp s g code obj d0 d1 d2 d3).mem = s.mem := by rfl
@[simp] theorem raiseWagTimeout_mem (g : Grp) (seq waited : Nat) : (raiseWagTimeout s g seq waited).mem = s.mem := by rfl
@[simp] theorem finishWag_mem (slot : Nat) (w : Wag) (vals : List ℤ) (bad : List Bool) : (finishWag s slot w vals bad).mem = s.mem := by
  unfold finishWag
  dsimp only
  (repeat' split) <;> simp

@[simp] theorem wagReturn_mem (slot : Nat) (sig : Sig) (vals : List ℤ) (bad : List Bool) : (wagReturn s slot sig vals bad).mem = s.mem := by
  unfold wagReturn
  dsimp only
  (repeat' split) <;> simp

@[simp] theorem wagDeliver_mem (k : Nat) (sig : Sig) (vals : List ℤ) (bad : List Bool) : (wagDeliver s k sig vals bad).mem = s.mem := by
  unfold wagDeliver
  dsimp only
  (repeat' split) <;> simp

@[simp] theorem devTake_mem (p : Nat) (owner : WagOwner) : (devTake s p owner).1.mem = s.mem := by
  unfold devTake
  dsimp only
  (repeat' split) <;> simp

@[simp] theorem bulkMeet_mem (x l : Nat) (f : Flight) (ecc : List EccEvent) : (bulkMeet s x l f ecc).mem = s.mem := by
  unfold bulkMeet
  split <;> simp

@[simp] theorem faultWait_mem (x l : Nat) (f : Flight) (kind obj name t : Nat) : (faultWait s x l f kind obj name t).mem = s.mem := by
  simp [faultWait]

@[simp] theorem expireWait_mem (x l : Nat) (f : Flight) (kind obj name : Nat) (soft : Bool) (t : Word) (gs : GReg) :
    (expireWait s x l f kind obj name soft t gs).mem = s.mem := by simp [expireWait]

@[simp] theorem expireToken_mem (x l : Nat) (f : Flight) : (expireToken s x l f).mem = s.mem := by simp [expireToken]

/-! ### Moves -/

@[simp] theorem refuseStarted_mem (x l : Nat) (f : Flight) (r : Refuse) : (refuseStarted s x l f r).mem = s.mem := by simp [refuseStarted]
@[simp] theorem sctRecord_mem (x l : Nat) (f : Flight) (d c : Desc) (seen : SctSeen) : (sctRecord s x l f d c seen).mem = s.mem := by
  simp [sctRecord]

@[simp] theorem mMeet_mem (x l : Nat) (f : Flight) (ecc : List EccEvent) : (mMeet s x l f ecc).mem = s.mem := by
  unfold mMeet
  split <;> simp

/-! ### Vector instructions -/

@[simp] theorem vRecord_mem (x l : Nat) (f : Flight) (o : VOps) (rows : List VRowOut) : (vRecord s x l f o rows).mem = s.mem := by
  simp [vRecord]

@[simp] theorem vMeet_mem (x l : Nat) (f : Flight) (op : VOp) (o : VOps) (ecc : List EccEvent) :
    (vMeet s x l f op o ecc).mem = s.mem := by simp [vMeet]

/-! ### The sequencer -/

@[simp] theorem issue_mem (x l : Nat) (r : Running) (f : Flight) (bytes : Nat) : (issue s x l r f bytes).mem = s.mem := by
  unfold issue
  dsimp only
  (repeat' split) <;> simp

@[simp] theorem poisonFetch_mem (x l : Nat) (r : Running) : (poisonFetch s x l r).mem = s.mem := by simp [poisonFetch]
@[simp] theorem issuePair_mem (x l : Nat) (r : Running) (word : Word) (w : CWord) (o : AOps) (mult : Bool) (dw : Word) (d : CWord)
    (q : DrnOps) :
    (issuePair s x l r word w o mult dw d q).mem = s.mem := by
  unfold issuePair
  (repeat' split) <;> simp

@[simp] theorem issueOne_mem (x l : Nat) (r : Running) (word : Word) (w : CWord) : (issueOne s x l r word w).mem = s.mem := by
  unfold issueOne
  split <;> simp

@[simp] theorem issueDeferred_mem (x l : Nat) (r : Running) (word : Word) (w : CWord) (o : AOps) (mult : Bool) :
    (issueDeferred s x l r word w o mult).mem = s.mem := by
  unfold issueDeferred
  dsimp only
  (repeat' split) <;> simp

@[simp] theorem fetch_mem (x l : Nat) (r : Running) : (fetch s x l r).mem = s.mem := by
  unfold fetch
  dsimp only
  (repeat' split) <;> simp

@[simp] theorem fetchMeet_mem (r : Running) (ecc : List EccEvent) : (fetchMeet s r ecc).mem = s.mem := by simp [fetchMeet]
@[simp] theorem startHead_mem (x l : Nat) (r : Running) (q : EngineQ) (f : Flight) : (startHead s x l r q f).mem = s.mem := by
  simp [startHead]

@[simp] theorem finishSeq_mem (x l : Nat) (r : Running) (f : Flight) (g : TaskRegs → TaskRegs) (pc : Nat) :
    (finishSeq s x l r f g pc).mem = s.mem := by rfl

@[simp] theorem stepSeq_mem (x l : Nat) (r : Running) (f : Flight) (g : TaskRegs → TaskRegs) : (stepSeq s x l r f g).mem = s.mem := by rfl
theorem seqExec_mem (x l : Nat) (is : CInstr → Bool) {act : Running → Flight → State} (h : ∀ r f, (act r f).mem = s.mem) :
    (seqExec s x l is act).mem = s.mem := by
  unfold seqExec
  split
  · simp [h]
  · rfl

@[simp] theorem openBound_mem (b : Bound) : (openBound s b).mem = s.mem := by
  unfold openBound
  split <;> rfl

@[simp] theorem programEvent_mem (x l : Nat) (f : Flight) (ga : GReg) : (programEvent s x l f ga).mem = s.mem := by simp [programEvent]
@[simp] theorem settleBat_mem (x l : Nat) : (settleBat s x l).mem = s.mem := by
  unfold settleBat
  refine seqExec_mem _ _ _ _ fun r f => ?_
  split
  · simp
  · rfl

@[simp] theorem judgeWaits_mem (x : Nat) : (judgeWaits s x).mem = s.mem := by
  unfold judgeWaits
  refine foldl_mem (fun s e => ?_) _ _
  split
  · split <;> simp
  · rfl

@[simp] theorem tickCtx_mem (x : Nat) : (tickCtx s x).mem = s.mem := by
  unfold tickCtx
  split <;> rfl

@[simp] theorem tickSlice_mem (p : Nat) : (tickSlice s p).mem = s.mem := by
  unfold tickSlice
  dsimp only
  split <;> simp

@[simp] theorem tickTasks_mem : (tickTasks s).mem = s.mem := by
  have settled (s : State) (x : Nat) : ((ctxCores s x).foldl (fun s l => settleBat s x l) s).mem = s.mem := by simp
  simp [tickTasks, settled]

/-! ### Pipeline stages -/

@[simp] theorem noteHeld_mem (p : Nat) : (noteHeld s p).mem = s.mem := by simp [noteHeld]
@[simp] theorem setVs_mem (p j : Nat) (v : VSt) : (setVs s p j v).mem = s.mem := by rfl
@[simp] theorem checkExhausted_mem (p : Nat) : (checkExhausted s p).mem = s.mem := by
  unfold checkExhausted
  dsimp only
  (repeat' split) <;> simp

@[simp] theorem orphan_mem (p obj cause step which released : Nat) : (orphan s p obj cause step which released).mem = s.mem := by rfl
@[simp] theorem pumpItems_mem (p : Nat) (g : ManStage) (j : Nat) (forward : Bool) : (pumpItems s p g j forward).mem = s.mem := by
  simp [pumpItems]

@[simp] theorem pumpStageItems_mem (p : Nat) : (pumpStageItems s p).mem = s.mem := by
  unfold pumpStageItems
  split <;> simp

@[simp] theorem sendItem_mem (p x : Nat) (g : ManStage) (cell : Cell) (forward : Bool) : (sendItem s p x g cell forward).mem = s.mem := by
  unfold sendItem
  dsimp only
  split <;> simp

@[simp] theorem releaseCell_mem (p c : Nat) : (releaseCell s p c).mem = s.mem := by simp [releaseCell]
@[simp] theorem scaleUpdate_mem (p : Nat) (orResult : Bool) : (scaleUpdate s p orResult).mem = s.mem := by simp [scaleUpdate]
@[simp] theorem windowOver_mem (p : Nat) : (windowOver s p).mem = s.mem := by rfl
@[simp] theorem openGate_mem (p : Nat) (hold : Bool) : (openGate s p hold).mem = s.mem := by simp [openGate]
@[simp] theorem skipWindow_mem (p : Nat) : (skipWindow s p).mem = s.mem := by simp [skipWindow]
@[simp] theorem dropBound_mem (x : Nat) : (dropBound s x).mem = s.mem := by rfl
@[simp] theorem discardStage_mem (p : Nat) : (discardStage s p).mem = s.mem := by simp [discardStage]
@[simp] theorem resetScoped_mem (p : Nat) : (resetScoped s p).mem = s.mem := by
  unfold resetScoped
  refine foldl_mem (fun s a => ?_) _ _
  split <;> simp

@[simp] theorem rewindStep_mem (p attempt : Nat) : (rewindStep s p attempt).mem = s.mem := by
  simp only [rewindStep, setTrain_mem, setFld_mem, resetScoped_mem, discardStage_mem]

/-! ### Checkpoints -/

@[simp] theorem setCkpt_mem (p : Nat) (k : Ckpt) : (setCkpt s p k).mem = s.mem := by rfl
@[simp] theorem setPhase_mem (p ph : Nat) : (setPhase s p ph).mem = s.mem := by rfl
@[simp] theorem beginGeneration_mem (p : Nat) : (beginGeneration s p).mem = s.mem := by rfl
@[simp] theorem sendSlot_mem (p gen rank a n : Nat) : (sendSlot s p gen rank a n).mem = s.mem := by simp [sendSlot]
@[simp] theorem sendCopy_mem (p : Nat) : (sendCopy s p).mem = s.mem := by simp [sendCopy]
@[simp] theorem poisonSlot_mem (old : State) (a : Nat) (vs : List Section) : (poisonSlot old s a vs).mem = s.mem := by
  unfold poisonSlot
  split
  · rfl
  · refine foldl_mem (fun s e => ?_) _ _
    split <;> simp

@[simp] theorem retryCopy_mem (p : Nat) : (retryCopy s p).mem = s.mem := by simp [retryCopy]
@[simp] theorem setDone_mem (p gen step cursor : Nat) : (setDone s p gen step cursor).mem = s.mem := by rfl
@[simp] theorem completeGeneration_mem (p : Nat) : (completeGeneration s p).mem = s.mem := by simp [completeGeneration]
@[simp] theorem touchSections_mem (vs : List Section) : (touchSections s vs).mem = s.mem := by
  unfold touchSections
  refine foldl_mem (fun s a => ?_) _ _
  split <;> simp

@[simp] theorem raiseCkp_mem (p cause gen rank : Nat) : (raiseCkp s p cause gen rank).mem = s.mem := by rfl
@[simp] theorem settleCopy_mem (p : Nat) (k : Ckpt) : (settleCopy s p k).mem = s.mem := by rfl

/-! ### The gradient exchange -/

@[simp] theorem emitGrad_mem (p : Nat) (g : Grp) (b : Bulk) (first : Bool) (o : GradOut) : (emitGrad s p g b first o).mem = s.mem := by
  simp [emitGrad]

@[simp] theorem pumpGradStage_mem (p slot : Nat) (st : StageId) : (pumpGradStage p slot s st).mem = s.mem := by
  unfold pumpGradStage
  dsimp only
  (repeat' split) <;> simp

@[simp] theorem noteEntered_mem (p slot : Nat) : (noteEntered s p slot).mem = s.mem := by
  unfold noteEntered
  split <;> rfl

@[simp] theorem pumpGrad_mem (p slot : Nat) : (pumpGrad s p slot).mem = s.mem := by
  unfold pumpGrad
  split <;> simp

@[simp] theorem newGeneration_mem (p : Nat) : (newGeneration s p).mem = s.mem := by rfl
@[simp] theorem dropBackup_mem (p : Nat) (e : Nat × Nat) : (dropBackup p e s).mem = s.mem := by
  unfold dropBackup
  refine foldl_mem (fun s a => ?_) _ _
  dsimp only
  simp

@[simp] theorem becomeRank_mem (p r : Nat) : (becomeRank p s r).mem = s.mem := by
  unfold becomeRank
  dsimp only
  (repeat' split) <;> simp

@[simp] theorem settlePromoted_mem (p : Nat) (e : Xch) : (settlePromoted s p e).mem = s.mem := by simp [settlePromoted]
@[simp] theorem repeatWindow_mem (p : Nat) : (repeatWindow s p).mem = s.mem := by simp [repeatWindow]

/-! ### Lost ranks -/

@[simp] theorem setDroneState_mem (v : Nat) : (setDroneState s v).mem = s.mem := by rfl
@[simp] theorem rechoose_mem : (rechoose s).mem = s.mem := by
  unfold rechoose
  split <;> rfl

@[simp] theorem beginAgreement_mem : (beginAgreement s).mem = s.mem := by simp [beginAgreement]
@[simp] theorem recordMember_mem (g : Grp) (r : Nat) : (recordMember s g r).mem = s.mem := by rfl
@[simp] theorem recordLost_mem (r : Nat) : (recordLost s r).mem = s.mem := by
  unfold recordLost
  split <;> rfl

/-! ### Fabric ports -/

@[simp] theorem setPortState_mem (k v : Nat) : (setPortState s k v).mem = s.mem := by rfl
@[simp] theorem setSwarmPhase_mem (v : Nat) : (setSwarmPhase s v).mem = s.mem := by rfl
@[simp] theorem startRebuild_mem : (startRebuild s).mem = s.mem := by
  unfold startRebuild
  split <;> rfl

@[simp] theorem setCredits_mem (k vc : Nat) (esc : Bool) (n : Nat) : (setCredits s k vc esc n).mem = s.mem := by rfl
@[simp] theorem freeUnits_mem (k vc : Nat) (esc : Bool) (n : Nat) : (freeUnits s k vc esc n).mem = s.mem := by
  unfold freeUnits
  split <;> rfl

@[simp] theorem freeBuffer_mem (t : Transit) : (freeBuffer s t).mem = s.mem := by
  unfold freeBuffer
  split <;> simp

@[simp] theorem sendOn_mem (k : Nat) (esc : Bool) (t : Transit) : (sendOn s k esc t).mem = s.mem := by simp [sendOn]
@[simp] theorem routeRecord_mem (cause : Nat) (p : Packet) (n : Nat) : (routeRecord s cause p n).mem = s.mem := by rfl
@[simp] theorem unwait_mem (t : Transit) : (unwait s t).mem = s.mem := by rfl
@[simp] theorem downRecord_mem (k cause units resent : Nat) : (downRecord s k cause units resent).mem = s.mem := by rfl
@[simp] theorem portDown_mem (k cause : Nat) : (portDown s k cause).mem = s.mem := by simp [portDown]
@[simp] theorem resendAll_mem (k lack : Nat) : (resendAll s k lack).mem = s.mem := by simp [resendAll]
@[simp] theorem laneFail_mem (k lane how codewords : Nat) : (laneFail s k lane how codewords).mem = s.mem := by simp [laneFail]
@[simp] theorem portsDark_mem (ports : List Nat) : (portsDark s ports).mem = s.mem := by simp [portsDark]
@[simp] theorem laserSync_mem (e : Nat) : (laserSync s e).mem = s.mem := by simp [laserSync]
@[simp] theorem beginTraining_mem (k : Nat) : (beginTraining s k).mem = s.mem := by rfl
@[simp] theorem portSync_mem (k : Nat) : (portSync s k).mem = s.mem := by simp [portSync]
@[simp] theorem fabricSync_mem : (fabricSync s).mem = s.mem := by
  unfold fabricSync
  rw [foldl_mem portSync_mem, foldl_mem laserSync_mem]

@[simp] theorem stayDown_mem (k cause : Nat) : (stayDown s k cause).mem = s.mem := by rfl
@[simp] theorem swapped_mem (k cause : Nat) (r : Nat × Nat) : (swapped s k cause r).mem = s.mem := by rfl

/-! ### The fabric -/

@[simp] theorem takeLack_mem (k lack : Nat) : (takeLack s k lack).mem = s.mem := by simp [takeLack]
@[simp] theorem takeNak_mem (k : Nat) (fault : Option Nat) : (takeNak s k fault).mem = s.mem := by
  unfold takeNak
  split <;> simp

@[simp] theorem refuseUnit_mem (k : Nat) : (refuseUnit s k).mem = s.mem := by rfl
@[simp] theorem takeIdentity_mem (k : Nat) (id : Nat × Nat) : (takeIdentity s k id).mem = s.mem := by simp [takeIdentity]
@[simp] theorem assignTree_mem (t : (Nat × Option Nat) × TreeShape) : (assignTree s t).mem = s.mem := by
  unfold assignTree
  split
  · dsimp only
    split
    · split <;> simp
    · simp
  · rfl

@[simp] theorem dropRelays_mem : (dropRelays s).mem = s.mem := by rfl
@[simp] theorem addRelays_mem : (addRelays s).mem = s.mem := by
  unfold addRelays
  refine foldl_mem (fun s a => ?_) _ _
  split <;> simp

@[simp] theorem notePorts_mem : (notePorts s).mem = s.mem := by simp [notePorts]

/-! ### Clocks -/

@[simp] theorem alertSync_mem (old : State) : (alertSync old s).mem = s.mem := by simp [alertSync]
@[simp] theorem setBootPhase_mem (v : Nat) : (setBootPhase s v).mem = s.mem := by simp [setBootPhase]
@[simp] theorem setBootFault_mem (v : Nat) : (setBootFault s v).mem = s.mem := by rfl
@[simp] theorem setClk_mem (d v : Nat) : (setClk s d v).mem = s.mem := by rfl
@[simp] theorem startStage_mem (g : Nat) : (startStage s g).mem = s.mem := by simp [startStage]
@[simp] theorem drawAttempts_mem (d : Nat) : (drawAttempts s d).mem = s.mem := by rfl
@[simp] theorem ethBegins_mem : (ethBegins s).mem = s.mem := by
  unfold ethBegins
  split <;> rfl

@[simp] theorem startDue_mem : (startDue s).mem = s.mem := by simp [startDue]
@[simp] theorem romBegins_mem : (romBegins s).mem = s.mem := by
  unfold romBegins
  (repeat' split) <;> simp

/-! ### Frames that leave -/

@[simp] theorem secFrame_mem : (secFrame s).1.mem = s.mem := by
  unfold secFrame
  dsimp only
  split <;> simp

@[simp] theorem frameOut_mem (n : Nat) : (frameOut n s).1.mem = s.mem := by
  induction n generalizing s with
  | zero => rfl
  | succ n ih =>
    unfold frameOut
    split
    · rfl
    · split
      · simp [ih]
      · exact ih s

@[simp] theorem probeAddrs_mem : (probeAddrs s).mem = s.mem := by simp [probeAddrs]

/-! ### Messages that enter the fabric -/

@[simp] theorem handOver_mem (o : Sender) (via : Option Nat) (resent : Bool) (p : Packet) : (handOver s o via resent p).mem = s.mem := by
  rfl

@[simp] theorem openPayload_mem (most : Nat) : (openPayload s most).2.mem = s.mem := by rfl
@[simp] theorem toAddr_mem (o : Sender) (vc a : Nat) (parts : List (List Byte)) : (toAddr s o vc a parts).mem = s.mem := by simp [toAddr]
@[simp] theorem toAddrOpen_mem (o : Sender) (resent : Bool) (vc a : Nat) : (toAddrOpen s o resent vc a).mem = s.mem := by simp [toAddrOpen]
@[simp] theorem toRank_mem (o : Sender) (vc r : Nat) (bs : List Byte) : (toRank s o vc r bs).mem = s.mem := by
  unfold toRank
  split <;> simp

@[simp] theorem toRankOpen_mem (o : Sender) (vc r : Nat) : (toRankOpen s o vc r).mem = s.mem := by
  unfold toRankOpen
  split <;> simp

@[simp] theorem toPort_mem (vc k : Nat) : (toPort s vc k).mem = s.mem := by rfl
@[simp] theorem toStage_mem (p pos : Nat) (forward copy : Bool) (i : StageItem) : (toStage s p pos forward copy i).mem = s.mem := by
  unfold toStage
  split <;> simp

@[simp] theorem toStageSender_mem (p j : Nat) (forward : Bool) : (toStageSender s p j forward).mem = s.mem := by
  unfold toStageSender
  dsimp only
  (repeat' split) <;> simp

@[simp] theorem upTree_mem (p : Nat) : (upTree s p).mem = s.mem := by
  unfold upTree
  split <;> simp

@[simp] theorem injectOut_mem (o : Output) : (injectOut s o).mem = s.mem := by
  unfold injectOut
  (repeat' split) <;> simp

@[simp] theorem flushC0_mem : (flushC0 s).mem = s.mem := by simp [flushC0]

/-! ### Power -/

@[simp] theorem setDuties_mem (l : List Nat) : (setDuties s l).mem = s.mem := by simp [setDuties]
@[simp] theorem causeSync_mem : (causeSync s).mem = s.mem := by rfl
@[simp] theorem throttleEpisode_mem (cause : Nat) (temps : List ℤ) : (throttleEpisode s cause temps).mem = s.mem := by
  unfold throttleEpisode
  split <;> simp

@[simp] theorem throttleTick_mem (b : BeatInputs) : (throttleTick s b).mem = s.mem := by simp [throttleTick]
@[simp] theorem setDroop_mem (d : Nat) (v : Droop) : (setDroop s d v).mem = s.mem := by rfl
@[simp] theorem sensorRecord_mem (id cause : Nat) (reading ref : ℤ) : (sensorRecord s id cause reading ref).mem = s.mem := by rfl
@[simp] theorem ignoreSensor_mem (id cause : Nat) (reading ref : ℤ) : (ignoreSensor s id cause reading ref).mem = s.mem := by rfl
@[simp] theorem testSensor_mem (t : TelemetrySample) (id : Nat) : (testSensor t s id).mem = s.mem := by
  unfold testSensor
  split <;> simp

@[simp] theorem testSense_mem (t : TelemetrySample) : (testSense s t).mem = s.mem := by
  unfold testSense
  dsimp only
  (repeat' split) <;> simp

@[simp] theorem floorSync_mem : (floorSync s).mem = s.mem := by rfl
@[simp] theorem latchSample_mem (t : TelemetrySample) : (latchSample s t).mem = s.mem := by rfl
@[simp] theorem avsSample_mem (t : TelemetrySample) : (avsSample s t).mem = s.mem := by simp [avsSample]
@[simp] theorem haltEngines_mem (x : Nat) : (haltEngines s x).mem = s.mem := by simp [haltEngines]
@[simp] theorem darken_mem (k : Nat) : (darken s k).mem = s.mem := by simp [darken]

/-! ### The Hum -/

@[simp] theorem setSlew_mem (ps : ℤ) : (setSlew s ps).mem = s.mem := by rfl
@[simp] theorem shiftAhead_mem (ps : ℤ) : (shiftAhead s ps).mem = s.mem := by rfl
@[simp] theorem stepBeat_mem (v : Word) : (stepBeat s v).mem = s.mem := by
  unfold stepBeat
  split <;> rfl

@[simp] theorem moveSource_mem (src : Nat) : (moveSource s src).mem = s.mem := by rfl
@[simp] theorem holdoverRecord_mem (left : Nat) : (holdoverRecord s left).mem = s.mem := by rfl
@[simp] theorem setAhead_mem (src : Nat) (ps : ℤ) : (setAhead s src ps).mem = s.mem := by rfl
@[simp] theorem acquire_mem (src : Nat) : (acquire s src).mem = s.mem := by
  unfold acquire
  dsimp only
  split <;> simp

@[simp] theorem leaveSource_mem : (leaveSource s).mem = s.mem := by
  unfold leaveSource
  split <;> simp

@[simp] theorem setClean_mem (src n : Nat) : (setClean s src n).mem = s.mem := by rfl
@[simp] theorem unhealthy_mem (src : Nat) : (unhealthy s src).mem = s.mem := by rfl
@[simp] theorem humFault_mem (src cause : Nat) (ppb : ℤ) (uid : Nat) (bad : Bool) : (humFault s src cause ppb uid bad).mem = s.mem := by
  simp [humFault]

@[simp] theorem forget_mem (src : Nat) : (forget s src).mem = s.mem := by rfl
@[simp] theorem humSync_mem : (humSync s).mem = s.mem := by simp [humSync]
@[simp] theorem noteOffset_mem (ns : ℤ) : (noteOffset s ns).mem = s.mem := by rfl
@[simp] theorem follow_mem (src : Nat) (count : Word) (ns : ℤ) (asked : Bool) : (follow s src count ns asked).mem = s.mem := by
  simp [follow]

@[simp] theorem takeCell_mem (uid port hops : Nat) (count : Word) (offsetNs : ℤ) :
    (takeCell s uid port hops count offsetNs).mem = s.mem := by simp [takeCell]

@[simp] theorem slewTick_mem : (slewTick s).mem = s.mem := by simp [slewTick]
@[simp] theorem cleanTick_mem : (cleanTick s).mem = s.mem := by simp [cleanTick]
@[simp] theorem cellTick_mem : (cellTick s).mem = s.mem := by simp [cellTick]
@[simp] theorem outTick_mem : (outTick s).mem = s.mem := by
  unfold outTick
  split <;> simp

/-! ### Registers that follow state -/

@[simp] theorem setWords_mem (a : Nat) (ws : List Word) : (setWords s a ws).mem = s.mem := by simp [setWords]
@[simp] theorem snapshot_mem (a : Nat) : (snapshot s a).mem = s.mem := by simp [snapshot]
@[simp] theorem logNumWrite_mem (code core count thr key : Nat) : (logNumWrite s code core count thr key).mem = s.mem := by rfl
@[simp] theorem thresholds_mem (old : State) (a : Nat) (new : Word) : (thresholds old s a new).mem = s.mem := by simp [thresholds]
@[simp] theorem combSync_mem (a : Nat) : (combSync s a).mem = s.mem := by
  unfold combSync
  split <;> rfl

@[simp] theorem storeReg_mem (a : Nat) (v : Word) : (storeReg s a v).mem = s.mem := by simp [storeReg]

/-! ### Configuration sets -/

@[simp] theorem resetConfig_mem : (resetConfig s).mem = s.mem := by rfl
@[simp] theorem applyEntry_mem (e : RegEntry) : (applyEntry s e).mem = s.mem := storeReg_mem _ _ _
@[simp] theorem applyObjects_mem (objs : List (Nat × List Byte)) : (applyObjects s objs).mem = s.mem := by
  have applied (es : List (Nat × Nat × RegEntry)) (t : State) : (es.foldl (fun s e => applyEntry s e.2.2) t).mem = t.mem := by
    induction es generalizing t with
    | nil => rfl
    | cons e es ih => rw [List.foldl_cons, ih, applyEntry_mem]
  exact (applied _ _).trans (resetConfig_mem s)

@[simp] theorem assignCores_mem : (assignCores s).mem = s.mem := by
  unfold assignCores
  dsimp only
  rw [foldl_fst_mem fun c p => foldl_mem (fun _ _ => by rfl) _ _]
  exact foldl_mem (fun _ _ => by rfl) _ _

@[simp] theorem setDigest_mem (r : Nat → Nat) (v : BitVec 384) : (setDigest s r v).mem = s.mem := by rfl
@[simp] theorem acceptCfg_mem (objs : List (Nat × List Byte)) : (acceptCfg s objs).mem = s.mem := by
  unfold acceptCfg
  simp only [alertSync_mem, humSync_mem, fabricSync_mem, assignCores_mem, setFld_mem, wr_mem, setDigest_mem, applyObjects_mem]

@[simp] theorem rejectCfg_mem (f : Nat × Nat × Nat) : (rejectCfg s f).mem = s.mem := by rfl
@[simp] theorem validateCfg_mem (objs : List (Nat × List Byte)) : (validateCfg s objs).1.mem = s.mem := by
  unfold validateCfg
  cases cfgFault s objs with
  | none => exact acceptCfg_mem s objs
  | some f => exact rejectCfg_mem s f

/-! ### Contexts -/

@[simp] theorem okay_mem : (okay s).1.mem = s.mem := by rfl
@[simp] theorem denied_mem : (denied s).1.mem = s.mem := by rfl
@[simp] theorem malformed_mem : (malformed s).1.mem = s.mem := by rfl
@[simp] theorem refusedWith_mem (r : ErrRec) : (refusedWith s r).1.mem = s.mem := by rfl
@[simp] theorem releaseRings_mem (x : Nat) : (releaseRings s x).mem = s.mem := by
  unfold releaseRings
  refine foldl_mem (fun s a => ?_) _ _
  dsimp only
  simp

@[simp] theorem assignRing_mem (x p : Nat) (r : ManRing) : (assignRing x p s r).mem = s.mem := by rfl
@[simp] theorem assignGroup_mem (x p : Nat) (red : Option Nat) (g : ManGroup) : (assignGroup x p red s g).mem = s.mem := by
  unfold assignGroup
  split <;> rfl

@[simp] theorem writeRanks_mem (m : Manifest) : (writeRanks s m).mem = s.mem := by
  unfold writeRanks
  split <;> rfl

@[simp] theorem loadReduce_mem (p : Nat) (m : Manifest) : (loadReduce s p m).mem = s.mem := by
  unfold loadReduce
  split <;> rfl

@[simp] theorem loadCkpt_mem (p : Nat) (m : Manifest) : (loadCkpt s p m).mem = s.mem := by
  unfold loadCkpt
  dsimp only
  (repeat' split) <;> simp

@[simp] theorem freshTrain_mem (p : Nat) (m : Manifest) : (freshTrain s p m).mem = s.mem := by
  unfold freshTrain
  split <;> rfl

@[simp] theorem lockSync_mem : (lockSync s).mem = s.mem := by simp [lockSync]
@[simp] theorem recordHints_mem (x p : Nat) (hs : List Hint) : (recordHints s x p hs).mem = s.mem := by
  unfold recordHints
  refine foldl_mem (fun s a => ?_) _ _
  dsimp only
  simp

@[simp] theorem placeDigest_mem (x p : Nat) (m : Manifest) (v : Placement) : (placeDigest s x p m v).mem = s.mem := by rfl
@[simp] theorem installCtx_mem (x p : Nat) (bs : List Byte) (m : Manifest) (v : Placement) : (installCtx s x p bs m v).mem = s.mem := by
  simp [installCtx]

@[simp] theorem placeCtx_mem (x p : Nat) (bs : List Byte) (m : Manifest) : (placeCtx s x p bs m).1.mem = s.mem := by
  unfold placeCtx
  split <;> simp

@[simp] theorem ctxLoad_mem (sess tag x addr len : Nat) (inner : Option (Nat × Nat)) (m : Manifest) :
    (ctxLoad s sess tag x addr len inner m).1.mem = s.mem := by
  unfold ctxLoad
  dsimp only
  (repeat' split) <;> simp

@[simp] theorem ctxStop_mem (x : Nat) : (ctxStop s x).1.mem = s.mem := by
  unfold ctxStop
  (repeat' split) <;> simp

@[simp] theorem ctxResume_mem (x : Nat) : (ctxResume s x).1.mem = s.mem := by
  unfold ctxResume
  (repeat' split) <;> simp

@[simp] theorem releaseCells_mem (x : Nat) : (releaseCells s x).mem = s.mem := by
  unfold releaseCells
  split <;> simp

@[simp] theorem closeRings_mem (x : Nat) : (closeRings s x).mem = s.mem := by
  unfold closeRings
  refine foldl_mem (fun s a => ?_) _ _
  dsimp only
  simp

@[simp] theorem freeGroups_mem (x : Nat) : (freeGroups s x).mem = s.mem := by rfl
@[simp] theorem dropHandlers_mem (p : Nat) : (dropHandlers s p).mem = s.mem := by rfl
@[simp] theorem dropUnits_mem (x : Nat) : (dropUnits s x).mem = s.mem := by
  unfold dropUnits
  split <;> simp

@[simp] theorem ctxUnload_mem (x : Nat) : (ctxUnload s x).1.mem = s.mem := by
  unfold ctxUnload
  dsimp only
  (repeat' split) <;> simp

@[simp] theorem putBack_mem (x : Nat) (v : Saved) : (putBack s x v).mem = s.mem := by simp [putBack]
@[simp] theorem ctxRestore_mem (x addr len : Nat) : (ctxRestore s x addr len).1.mem = s.mem := by
  unfold ctxRestore
  (repeat' split) <;> simp

@[simp] theorem ctxHandles_mem (x first count : Nat) : (ctxHandles s x first count).1.mem = s.mem := by
  unfold ctxHandles
  dsimp only
  (repeat' split) <;> simp

@[simp] theorem reportRewind_mem (p : Nat) : (reportRewind s p).mem = s.mem := by simp [reportRewind]
@[simp] theorem freshStart_mem (p : Nat) : (freshStart s p).mem = s.mem := by rfl

/-! ### Sessions -/

@[simp] theorem sendOut_mem (n addr : Nat) (b : TxBody) (last ack : Nat) : (sendOut s n addr b last ack).mem = s.mem := by simp [sendOut]
@[simp] theorem transmit_mem (n : Nat) (v : Sess) (m : TxMsg) : (transmit s n v m).mem = s.mem := by simp [transmit]
@[simp] theorem sendAck_mem (n : Nat) (v : Sess) : (sendAck s n v).mem = s.mem := by simp [sendAck]
@[simp] theorem sendMsg_mem (n : Nat) (b : TxBody) : (sendMsg s n b).mem = s.mem := by
  unfold sendMsg
  split <;> simp

@[simp] theorem answer_mem (sess op tag : Nat) (a : Answer) : (answer s sess op tag a).mem = s.mem := by simp [answer]
@[simp] theorem settle_mem (sess op tag : Nat) (r : Reply) : (settle sess op tag r).mem = r.1.mem := by
  unfold settle
  split <;> simp

@[simp] theorem purgeEvents_mem : (purgeEvents s).mem = s.mem := by rfl
@[simp] theorem ackEvents_mem (n seq : Nat) : (ackEvents s n seq).mem = s.mem := by rfl
@[simp] theorem forgetEvents_mem (n : Nat) : (forgetEvents s n).mem = s.mem := by rfl
@[simp] theorem sendEvents_mem (subs : List Nat) (n : Nat) : (sendEvents subs s n).mem = s.mem := by
  unfold sendEvents
  split <;> simp

@[simp] theorem releaseHeld_mem (n : Nat) : (releaseHeld s n).mem = s.mem := by
  unfold releaseHeld
  split <;> simp

@[simp] theorem takeAck_mem (n ack credit : Nat) : (takeAck s n ack credit).mem = s.mem := by
  unfold takeAck
  split <;> simp

@[simp] theorem hearFrom_mem (n : Nat) : (hearFrom s n).mem = s.mem := by
  unfold hearFrom
  split <;> rfl

@[simp] theorem endSession_mem (n : Nat) : (endSession s n).mem = s.mem := by rfl
@[simp] theorem loseSession_mem (n cause : Nat) : (loseSession s n cause).mem = s.mem := by
  unfold loseSession
  split <;> rfl

/-! ### Takeovers -/

@[simp] theorem failTakeover_mem (cause rank : Nat) : (failTakeover s cause rank).mem = s.mem := by simp [failTakeover]
@[simp] theorem lostResult_mem (t : Takeover) (r : Nat) : (lostResult s t r).mem = s.mem := by
  unfold lostResult
  split <;> rfl

@[simp] theorem targetResult_mem (t : Takeover) (k : Nat) : (targetResult s t k).mem = s.mem := by
  unfold targetResult
  dsimp only
  (repeat' split) <;> simp

@[simp] theorem droneResult_mem (t : Takeover) (i : Nat) : (droneResult s t i).mem = s.mem := by
  unfold droneResult
  split <;> simp

@[simp] theorem withoutDrone_mem (i : Nat) : (withoutDrone s i).mem = s.mem := by simp [withoutDrone]
@[simp] theorem droneFails_mem (p : Nat) : (droneFails s p).mem = s.mem := by simp [droneFails]
theorem loadFromSlot_mem (a p : Nat) (acc : Option State × State) (e : Nat × Manifest) : (loadFromSlot a p acc e).2.mem = acc.2.mem := by
  unfold loadFromSlot
  split
  · rfl
  · dsimp only
    split <;> rfl

@[simp] theorem leaveDrone_mem : (leaveDrone s).mem = s.mem := by simp [leaveDrone]
@[simp] theorem droneActive_mem (d : DroneTake) (k : Nat) : (droneActive s d k).mem = s.mem := by rfl
@[simp] theorem ranksTaken_mem : (ranksTaken s).mem = s.mem := by
  unfold ranksTaken
  dsimp only
  split <;> simp

@[simp] theorem rankLoaded_mem (rank newAddr : Nat) : (rankLoaded s rank newAddr).mem = s.mem := by simp [rankLoaded]
@[simp] theorem keepLoad_mem (d : DroneTake) (args : List (Nat × List Word)) : (keepLoad s d args).mem = s.mem := by simp [keepLoad]
@[simp] theorem leaveJob_mem (rank newAddr : Nat) : (leaveJob s rank newAddr).mem = s.mem := by simp [leaveJob]
@[simp] theorem rollbackRing_mem (num : Nat) : (rollbackRing s num).mem = s.mem := by simp [rollbackRing]
@[simp] theorem clearCtx_mem (x : Nat) : (clearCtx s x).mem = s.mem := by simp [clearCtx]
@[simp] theorem recopy_mem (p : Nat) (lost : List Nat) : (recopy s p lost).mem = s.mem := by simp [recopy]
@[simp] theorem rolledBack_mem (p k : Nat) (lost : List Nat) : (rolledBack s p k lost).mem = s.mem := by rfl
@[simp] theorem runLoads_mem : (runLoads s).mem = s.mem := by
  unfold runLoads
  exact foldl_mem (fun s w => by simp) _ _

@[simp] theorem abandonTakeover_mem : (abandonTakeover s).mem = s.mem := by simp [abandonTakeover]

/-! ### Serving -/

@[simp] theorem poolSync_mem (p : Nat) : (poolSync s p).mem = s.mem := by rfl
@[simp] theorem noteGranted_mem (p : Nat) (l2 : Bool) : (noteGranted s p l2).mem = s.mem := by rfl
@[simp] theorem touch_mem (e : Nat) (v : Stream) : (touch s e v).mem = s.mem := by rfl
@[simp] theorem noteMiss_mem (e : Nat) : (noteMiss s e).mem = s.mem := by
  unfold noteMiss
  split <;> simp

@[simp] theorem moveHandles_mem (p from_ to_ n tier : Nat) : (moveHandles s p from_ to_ n tier).mem = s.mem := by
  unfold moveHandles
  refine foldl_mem (fun s a => ?_) _ _
  dsimp only
  simp

@[simp] theorem evict_mem (p m : Nat) : (evict s p m).mem = s.mem := by
  unfold evict
  split <;> simp

theorem makeRoom_mem {p need : Nat} {ms : List Nat} {s t : State} (h : makeRoom s p need ms = some t) : t.mem = s.mem := by
  induction ms generalizing s with
  | nil =>
    simp only [makeRoom, Option.ite_none_right_eq_some, Option.some.injEq] at h
    rw [h.2]
  | cons m ms ih =>
    unfold makeRoom at h
    split at h
    · cases h; rfl
    · rw [ih h, evict_mem]

@[simp] theorem tryLoad_mem (p m : Nat) : (tryLoad p s m).mem = s.mem := by
  unfold tryLoad
  split
  · rfl
  · split
    · rfl
    · next t h => split <;> simp [makeRoom_mem h]

@[simp] theorem releaseWin_mem (p : Nat) (w : Win) : (releaseWin s p w).mem = s.mem := by simp [releaseWin]
@[simp] theorem noteOpening_mem (p : Nat) : (noteOpening s p).mem = s.mem := by simp [noteOpening]
@[simp] theorem stageLoads_mem (p : Nat) : (stageLoads s p).mem = s.mem := by simp [stageLoads]
@[simp] theorem sendTokens_mem (l : List (Nat × Nat × Nat × Bool × Nat)) : (sendTokens s l).mem = s.mem := by simp [sendTokens]
@[simp] theorem joinStream_mem (sess : Nat) (j : JoinReq) : (joinStream s sess j).1.mem = s.mem := by
  unfold joinStream
  dsimp only
  (repeat' split) <;> simp

@[simp] theorem cancelStream_mem (request : Nat) : (cancelStream s request).1.mem = s.mem := by
  unfold cancelStream
  split <;> rfl

@[simp] theorem modelReq_mem (m : ModelReq) : (modelReq s m).1.mem = s.mem := by
  unfold modelReq
  (repeat' split) <;> simp

/-! ### Trust -/

@[simp] theorem dropImage_mem : (dropImage s).mem = s.mem := by rfl
@[simp] theorem closeChallenge_mem : (closeChallenge s).mem = s.mem := by rfl
@[simp] theorem openChallenge_mem : (openChallenge s).mem = s.mem := by rfl
@[simp] theorem startVerify_mem (who : Option (Nat × Nat)) : (startVerify s who).mem = s.mem := by simp [startVerify]
@[simp] theorem bootGo_mem (sess tag : Nat) : (bootGo s sess tag).1.mem = s.mem := by
  unfold bootGo
  split <;> simp

@[simp] theorem acceptImage_mem (b : List Byte) : (acceptImage s b).mem = s.mem := by simp [acceptImage]
@[simp] theorem rejectImage_mem (rs : List ErrRec) : (rejectImage s rs).mem = s.mem := by
  simp only [rejectImage, setBootPhase_mem, setBootFault_mem, foldl_mem (f := raise) (fun _ _ => rfl), dropImage_mem]

@[simp] theorem fuseSync_mem : (fuseSync s).mem = s.mem := by rfl
@[simp] theorem prpRevoke_mem (lms : Bool) (k e l : Nat) (sigE sigL : List Byte) : (prpRevoke s lms k e l sigE sigL).1.mem = s.mem := by
  unfold prpRevoke
  dsimp only
  (repeat' split) <;> simp

@[simp] theorem prpSvnCommit_mem : (prpSvnCommit s).1.mem = s.mem := by
  unfold prpSvnCommit
  split <;> rfl

@[simp] theorem prpChallenge_mem : (prpChallenge s).1.mem = s.mem := by
  unfold prpChallenge
  split <;> rfl

@[simp] theorem debugResponse_mem (scope e l : Nat) (sigE sigL : List Byte) : (debugResponse s scope e l sigE sigL).1.mem = s.mem := by
  unfold debugResponse
  dsimp only
  split <;> simp

@[simp] theorem prpResponse_mem (scope e l : Nat) (sigE sigL : List Byte) : (prpResponse s scope e l sigE sigL).1.mem = s.mem := by
  unfold prpResponse
  dsimp only
  (repeat' split) <;> simp

@[simp] theorem aliasNow_mem : (aliasNow s).2.2.2.mem = s.mem := by
  unfold aliasNow
  split <;> rfl

@[simp] theorem attest_mem (nonce : List Byte) (c : Option Nat) : (attest s nonce c).1.mem = s.mem := by
  unfold attest
  split <;> simp

@[simp] theorem keyInstall_mem (an : Nat) (tx : Bool) (hostKey wrapped : List Byte) :
    (keyInstall s an tx hostKey wrapped).1.mem = s.mem := by
  unfold keyInstall
  dsimp only
  (repeat' split) <;> simp

/-! ### The host link -/

@[simp] theorem ethTrain_mem : (ethTrain s).mem = s.mem := by rfl
@[simp] theorem ethComesUp_mem (st group lanes : Nat) : (ethComesUp s st group lanes).mem = s.mem := by
  unfold ethComesUp
  dsimp only
  split <;> simp

@[simp] theorem ethRetrain_mem : (ethRetrain s).mem = s.mem := by
  unfold ethRetrain
  split <;> rfl

@[simp] theorem secSwitch_mem (on : Bool) : (secSwitch s on).mem = s.mem := by rfl
@[simp] theorem notePn_mem (f : EthFrame) : (notePn s f).mem = s.mem := by
  unfold notePn
  split <;> rfl

@[simp] theorem admitFrame_mem (f : EthFrame) : (admitFrame s f).1.mem = s.mem := by
  unfold admitFrame
  dsimp only
  (repeat' split) <;> simp

@[simp] theorem answerFrame_mem (echo forUs : Bool) : (answerFrame s echo forUs).mem = s.mem := by simp [answerFrame]
@[simp] theorem noteAdvert_mem (a : Nat) : (noteAdvert s a).mem = s.mem := by
  unfold noteAdvert
  split <;> rfl

@[simp] theorem sendHello_mem (tag : Option Nat) : (sendHello s tag).mem = s.mem := by simp [sendHello]

/-! ### Memory units -/

@[simp] theorem startFlush_mem (mask : Nat) : (startFlush s mask).mem = s.mem := by rfl

/-! ### Register writes -/

@[simp] theorem writeFollows_mem (old : State) (a : Nat) : (writeFollows old a s).mem = s.mem := by simp [writeFollows]
@[simp] theorem writeStore_mem (a : Nat) (mask value new : Word) : (writeStore s a mask value new).mem = s.mem := by simp [writeStore]
@[simp] theorem noteRecord_mem (r : ErrRec) : (noteRecord s r).mem = s.mem := by simp [noteRecord]
@[simp] theorem storeRecord_mem (r : ErrRec) : (storeRecord s r).mem = s.mem := by
  unfold storeRecord
  split <;> rfl

@[simp] theorem takeRecord_mem (r : ErrRec) : (takeRecord s r).mem = s.mem := by simp [takeRecord]

/-! ### Host operations -/

@[simp] theorem openAs_mem (n addr port : Nat) : (openAs s n addr port).mem = s.mem := by simp [openAs]
@[simp] theorem openReq_mem (addr port : Nat) (secured : Bool) : (openReq s addr port secured).1.mem = s.mem := by
  unfold openReq
  (repeat' split) <;> simp

@[simp] theorem closeReq_mem (sess tag : Nat) : (closeReq s sess tag).1.mem = s.mem := by simp [closeReq]
@[simp] theorem eventsReq_mem (sess : Nat) (on : Bool) : (eventsReq s sess on).1.mem = s.mem := by
  unfold eventsReq
  split <;> simp

@[simp] theorem poolsNow_mem (addrs : List Nat) : (poolsNow s addrs).mem = s.mem := by simp [poolsNow]
@[simp] theorem regRdReq_mem (addrs : List Nat) : (regRdReq s addrs).1.mem = s.mem := by
  unfold regRdReq
  dsimp only
  (repeat' split) <;> simp

@[simp] theorem memRdReq_mem (sess addr len : Nat) (ecc : List EccEvent) : (memRdReq s sess addr len ecc).1.mem = s.mem := by
  unfold memRdReq
  dsimp only
  (repeat' split) <;> simp

@[simp] theorem uploadReq_mem (kind index offset : Nat) (data : List Byte) : (uploadReq s kind index offset data).1.mem = s.mem := by
  unfold uploadReq
  (repeat' split) <;> simp

@[simp] theorem cfgApplyReq_mem : (cfgApplyReq s).1.mem = s.mem := by
  unfold cfgApplyReq
  dsimp only
  (repeat' split) <;> simp

@[simp] theorem nackWith_mem (reason : Nat) : (nackWith s reason).1.mem = s.mem := by rfl
@[simp] theorem doorbellReq_mem (x name : Nat) : (doorbellReq s x name).1.mem = s.mem := by
  unfold doorbellReq
  dsimp only
  (repeat' split) <;> simp

/-! ### Delivery -/

@[simp] theorem sessionless_mem (sec : Option Bool) (m : YlpMsg) : (sessionless s sec m).mem = s.mem := by
  unfold sessionless
  split
  · simp
  · dsimp only
    split
    · split <;> simp
    · simp
  · simp
  · simp

@[simp] theorem duplicate_mem (v : Sess) (m : YlpMsg) : (duplicate s v m).mem = s.mem := by simp [duplicate]

/-! ### Boot -/

@[simp] theorem spareMap_mem (c : Nat) (t : CoreTest) (a : Nat) : (spareMap c t s a).mem = s.mem := by
  unfold spareMap
  split <;> rfl

@[simp] theorem spareRecord_mem (c : Nat) (t : CoreTest) (a : Nat) : (spareRecord c t s a).mem = s.mem := by
  unfold spareRecord
  split <;> rfl

@[simp] theorem noteTest_mem (t : CoreTest) : (noteTest s t).mem = s.mem := by simp [noteTest]
@[simp] theorem mapCores_mem (retired : List Nat) : (mapCores s retired).mem = s.mem := (onlyRegs_mapCores s retired).mem
@[simp] theorem deviceReset_mem (cause : Nat) (railsGone : Bool) : (deviceReset s cause railsGone).mem = [] := by
  have reset : State.reset.mem = [] := rfl
  simp [deviceReset, reset]

/-! ### FIFOs between clock domains -/

@[simp] theorem stopVictim_mem (v : CdcVictim) : (stopVictim s v).mem = s.mem := by
  unfold stopVictim
  (repeat' split) <;> simp

@[simp] theorem resetLossy_mem (fifo items : Nat) (errPath : Bool) : (resetLossy s fifo items errPath).mem = s.mem := by simp [resetLossy]

end Sys2Proof.Machine
end

section
/-! What keeps memory in its canonical form (R136): every function of the model that stores bytes, down to `writeBytes` and `copyMem`. -/

namespace Sys2Proof.Machine

variable {s : State}

/-- Of two states in canonical form either may be chosen. -/
@[simp] theorem wf_ite (c : Prop) [Decidable c] (l m : List Host.Cell) :
    Memory.wf (if c then l else m) = if c then Memory.wf l else Memory.wf m := apply_ite Memory.wf c l m

/-- A fold of steps that keep the canonical form keeps it. -/
@[simp] theorem wf_foldl {α : Type} {f : State → α → State} (h : ∀ s a, Memory.wf s.mem = true → Memory.wf (f s a).mem = true)
    (l : List α) (s : State) (w : Memory.wf s.mem = true) : Memory.wf (l.foldl f s).mem = true := memoryOk_foldl f h l s w

@[simp] theorem wf_writeBytes (w : Memory.wf s.mem = true) (a : Nat) (bs : List Byte) : Memory.wf (writeBytes s a bs).mem = true :=
  memoryOk_writeBytes s a bs w

@[simp] theorem wf_copyMem (w : Memory.wf s.mem = true) (src dst n : Nat) : Memory.wf (copyMem s src dst n).mem = true :=
  memoryOk_copyMem s src dst n w

/-- The state that a command leaves, if it leaves one, has its memory in canonical form. -/
def OutcomeWf (o : Host.Outcome State Fault Refusal) : Prop := ∀ t, o = .next t → Memory.wf t.mem = true

@[simp] theorem outcomeWf_next {t : State} : OutcomeWf (.next t) ↔ Memory.wf t.mem = true := by simp [OutcomeWf]

@[simp] theorem outcomeWf_ite {c : Prop} [Decidable c] {a b : Host.Outcome State Fault Refusal} :
    OutcomeWf (if c then a else b) ↔ if c then OutcomeWf a else OutcomeWf b := by
  split <;> rfl

@[simp] theorem wf_effectOf (w : Memory.wf s.mem = true) {o : Host.Outcome State Fault Refusal} (h : OutcomeWf o) :
    Memory.wf (effectOf s o).mem = true := by
  unfold effectOf
  split
  · exact h _ rfl
  · exact w

/-- The same for a fold that carries more than the state. -/
theorem wf_foldl_fst {α β : Type} {f : State × β → α → State × β}
    (h : ∀ c a, Memory.wf c.1.mem = true → Memory.wf (f c a).1.mem = true) (l : List α) (c : State × β) (w : Memory.wf c.1.mem = true) :
    Memory.wf (l.foldl f c).1.mem = true := by
  induction l generalizing c with
  | nil => exact w
  | cons a l ih => exact ih _ (h c a w)

/-! ### Shared operations -/

@[simp] theorem wf_storeBytes (w : Memory.wf s.mem = true) (a : Nat) (bs : List Byte) : Memory.wf (storeBytes s a bs).mem = true :=
  memoryOk_storeBytes s a bs w

/-! ### Operands -/

@[simp] theorem wf_writeRow (base : Nat) (d : Desc) (w : Memory.wf s.mem = true) (o : RowOut) :
    Memory.wf (writeRow base d s o).mem = true := memoryOk_writeRow base d s o w

@[simp] theorem wf_writeRows (w : Memory.wf s.mem = true) (x l : Nat) (d : Desc) (rows : List RowOut) :
    Memory.wf (writeRows s x l d rows).mem = true := memoryOk_writeRows s x l d rows w

@[simp] theorem wf_writeOrStop (w : Memory.wf s.mem = true) (x l : Nat) (d : Desc) (rows : List RowOut) (limit : Option Nat) :
    Memory.wf (writeOrStop s x l d rows limit).mem = true := memoryOk_writeOrStop s x l d rows limit w

/-! ### Arrays -/

@[simp] theorem wf_runDrain (w : Memory.wf s.mem = true) (x l pc prodPc : Nat) (mask : Fin 16) (ta : Desc) (q : Option LoadRec)
    (rows : List AccRow) (dests : List DrainTo) : Memory.wf (runDrain s x l pc prodPc mask ta q rows dests).mem = true := by
  unfold runDrain
  dsimp only
  rw [foldl_mem fun s c => recordOverflow_mem _ _ _]
  split
  · rw [foldl_mem fun s c => recordExc_mem _ _ _]
    exact wf_foldl (fun s c w => wf_writeRows w _ _ _ _) _ _ w
  · rw [recordInvalid_mem, foldl_mem fun s c => recordExc_mem _ _ _]
    exact wf_foldl (fun s c w => wf_writeRows w _ _ _ _) _ _ w

@[simp] theorem wf_runProduct (w : Memory.wf s.mem = true) (x l : Nat) (mult : Bool) (f : Flight) (o : AOps) :
    Memory.wf (runProduct s x l mult f o).mem = true := by
  unfold runProduct
  dsimp only
  (repeat' split) <;> simp [w]

@[simp] theorem wf_runDrn (w : Memory.wf s.mem = true) (x l : Nat) (f : Flight) (o : AOps) (q : DrnOps) :
    Memory.wf (runDrn s x l f o q).mem = true := by simp [runDrn, w]

@[simp] theorem wf_productCmd (w : Memory.wf s.mem = true) (x l : Nat) (mult : Bool) (f : Flight) (o : AOps) (ecc : List EccEvent) :
    Memory.wf (productCmd s x l mult f o ecc).mem = true := by simp [productCmd, w]

/-! ### Tasks -/

@[simp] theorem wf_freshScratch (w : Memory.wf s.mem = true) (x l : Nat) : Memory.wf (freshScratch s x l).mem = true := by
  unfold freshScratch
  split <;> simp [w]

@[simp] theorem wf_startTask (w : Memory.wf s.mem = true) (x l : Nat) (t : Task) : Memory.wf (startTask s x l t).mem = true := by
  unfold startTask
  dsimp only
  split <;> simp [w]

@[simp] theorem wf_dispatchCore (w : Memory.wf s.mem = true) (x l : Nat) : Memory.wf (dispatchCore s x l).mem = true := by
  unfold dispatchCore
  dsimp only
  (repeat' split) <;> simp [w]

@[simp] theorem wf_dispatchAll (w : Memory.wf s.mem = true) (x : Nat) : Memory.wf (dispatchAll s x).mem = true :=
  wf_foldl (fun _ l w => wf_dispatchCore w x l) _ _ w

@[simp] theorem wf_pushTask (w : Memory.wf s.mem = true) (x l : Nat) (near : Bool) (t : Task) :
    Memory.wf (pushTask s x l near t).mem = true := by simp [pushTask, w]

@[simp] theorem wf_spawnTask (w : Memory.wf s.mem = true) (x : Nat) (near : Bool) (t : Task) :
    Memory.wf (spawnTask s x near t).mem = true := by simp [spawnTask, w]

/-! ### Message rings -/

@[simp] theorem wf_placePad (w : Memory.wf s.mem = true) (num n k : Nat) : Memory.wf (placePad s num n k).mem = true := by
  simp [placePad, w]

@[simp] theorem wf_placeWrap (w : Memory.wf s.mem = true) (num n : Nat) : Memory.wf (placeWrap s num n).mem = true := by
  unfold placeWrap
  split <;> simp [w]

@[simp] theorem wf_placeMsg (w : Memory.wf s.mem = true) (num n : Nat) (h : MsgHdr) (seq : Nat) (payload : List Byte) :
    Memory.wf (placeMsg s num n h seq payload).mem = true := by simp [placeMsg, w]

@[simp] theorem wf_placeCombined (w : Memory.wf s.mem = true) (num : Nat) (e : CombEntry) :
    Memory.wf (placeCombined s num e).mem = true := by
  unfold placeCombined
  dsimp only
  split <;> simp [w]

@[simp] theorem wf_acceptMsg (w : Memory.wf s.mem = true) (num : Nat) (m : RingMsg) (intact : Bool) :
    Memory.wf (acceptMsg s num m intact).mem = true := by simp [acceptMsg, w]

@[simp] theorem wf_ringArrive (w : Memory.wf s.mem = true) (num : Nat) (m : RingMsg) (intact : Bool) :
    Memory.wf (ringArrive s num m intact).1.mem = true := by simp [ringArrive, w]

/-! ### Collectives -/

@[simp] theorem wf_tensorWriteRuns (w : Memory.wf s.mem = true) (bs : List Byte) (rs : List (Nat × Nat)) :
    Memory.wf (tensorWriteRuns s bs rs).mem = true := by
  induction rs generalizing s bs with
  | nil => exact w
  | cons r rs ih => exact ih (wf_writeBytes w _ _) _

@[simp] theorem wf_tensorWrite (w : Memory.wf s.mem = true) (v : Desc × Nat) (j : Nat) (bs : List Byte) :
    Memory.wf (tensorWrite s v j bs).mem = true := by simp [tensorWrite, w]

@[simp] theorem wf_tensorStore (w : Memory.wf s.mem = true) (x type : Nat) (v : Desc × Nat) (j : Nat) (bs : List Byte) :
    Memory.wf (tensorStore s x type v j bs).mem = true := by
  unfold tensorStore
  refine wf_foldl (fun s r w => ?_) _ _ (wf_tensorWrite ?_ _ _ _)
  · rwa [combTouch_mem]
  · rwa [markNf_mem]

@[simp] theorem wf_signalChunk (w : Memory.wf s.mem = true) (slot k : Nat) : Memory.wf (signalChunk s slot k).mem = true := by
  unfold signalChunk
  dsimp only
  (repeat' split) <;> simp [w]

@[simp] theorem wf_writeChunk (slot : Nat) (w : Memory.wf s.mem = true) (c : Nat × List Byte) :
    Memory.wf (writeChunk slot s c).mem = true := by
  unfold writeChunk
  dsimp only
  split
  · exact w
  · split
    · simp [w]
    · refine wf_signalChunk ?_ _ _
      split <;> simp [w]

@[simp] theorem wf_doWrites (w : Memory.wf s.mem = true) (slot : Nat) : Memory.wf (doWrites s slot).mem = true := by
  unfold doWrites
  dsimp only
  split
  · split
    · exact wf_foldl (fun _ c w => wf_writeChunk slot w c) _ _ w
    · exact w
  · exact w

@[simp] theorem wf_progress (w : Memory.wf s.mem = true) (slot : Nat) : Memory.wf (progress s slot).mem = true := by simp [progress, w]
@[simp] theorem wf_undefineDst (w : Memory.wf s.mem = true) (geo : Geo) (b : Bulk) : Memory.wf (undefineDst s geo b).mem = true := by
  unfold undefineDst
  split
  · exact wf_foldl (fun s k w => wf_tensorWrite (s := (drawBytes s _).2) w _ _ _) _ _ w
  · exact w

@[simp] theorem wf_endAborted (w : Memory.wf s.mem = true) (slot : Nat) (waggle : Bool) (seq : Nat) (why : AbortReason) :
    Memory.wf (endAborted s slot waggle seq why).mem = true := by
  unfold endAborted
  dsimp only
  (repeat' split) <;> simp [w]

@[simp] theorem wf_applyAbort (w : Memory.wf s.mem = true) (slot : Nat) (waggle : Bool) (seq : Nat) (why : AbortReason) :
    Memory.wf (applyAbort s slot waggle seq why).mem = true := by
  unfold applyAbort
  dsimp only
  (repeat' split) <;> simp [w]

@[simp] theorem wf_takeChunk (w : Memory.wf s.mem = true) (slot : Nat) (c : BulkChunk) : Memory.wf (takeChunk s slot c).mem = true := by
  unfold takeChunk
  dsimp only
  split <;> simp [w]

@[simp] theorem wf_detectAbort (w : Memory.wf s.mem = true) (slot : Nat) (waggle : Bool) (seq : Nat) (why : AbortReason) :
    Memory.wf (detectAbort s slot waggle seq why).mem = true := by simp [detectAbort, w]

@[simp] theorem wf_failCheck (w : Memory.wf s.mem = true) (slot : Nat) (c : BulkChunk) (check : Nat) :
    Memory.wf (failCheck s slot c check).mem = true := by simp [failCheck, w]

@[simp] theorem wf_failFinal (w : Memory.wf s.mem = true) (slot : Nat) : Memory.wf (failFinal s slot).mem = true := by
  unfold failFinal
  dsimp only
  (repeat' split) <;> simp [w]

@[simp] theorem wf_judgeChunk (w : Memory.wf s.mem = true) (slot : Nat) (c : BulkChunk) : Memory.wf (judgeChunk s slot c).mem = true := by
  unfold judgeChunk
  dsimp only
  (repeat' split) <;> simp [w]

@[simp] theorem wf_arriveChunk (w : Memory.wf s.mem = true) (slot : Nat) (c : BulkChunk) : Memory.wf (arriveChunk s slot c).mem = true := by
  unfold arriveChunk
  dsimp only
  (repeat' split) <;> simp [w]

@[simp] theorem wf_takeStaged (w : Memory.wf s.mem = true) (slot : Nat) : Memory.wf (takeStaged s slot).mem = true :=
  wf_foldl (fun _ c w => wf_arriveChunk w slot c) _ _ w

@[simp] theorem wf_beginBulk (w : Memory.wf s.mem = true) (slot : Nat) (b : Bulk) : Memory.wf (beginBulk s slot b).mem = true := by
  refine wf_takeStaged (wf_failFinal (wf_progress ?_ slot) slot) slot
  exact w

@[simp] theorem wf_wagJoin (w : Memory.wf s.mem = true) (k : Nat) : Memory.wf (wagJoin s k).mem = true := by
  unfold wagJoin
  dsimp only
  (repeat' split) <;> simp [w]

@[simp] theorem wf_wagContribute (w : Memory.wf s.mem = true) (k : Nat) (port : Option Nat) (sig : Sig) (vals : List ℤ) (bad : List Bool) :
    Memory.wf (wagContribute s k port sig vals bad).mem = true := by simp [wagContribute, w]

@[simp] theorem wf_joinAll (w : Memory.wf s.mem = true) : Memory.wf (joinAll s).mem = true := wf_foldl (fun _ k w => wf_wagJoin w k) _ _ w
@[simp] theorem wf_beginWag (w : Memory.wf s.mem = true) (slot : Nat) (v : Wag) : Memory.wf (beginWag s slot v).mem = true := by
  unfold beginWag
  dsimp only
  split
  · refine wf_wagContribute ?_ _ _ _ _ _
    exact w
  · exact w

@[simp] theorem wf_enterCol (w : Memory.wf s.mem = true) (slot x l : Nat) (f : Flight) : Memory.wf (enterCol s slot x l f).mem = true := by
  unfold enterCol
  dsimp only
  (repeat' split) <;> simp [w]

@[simp] theorem wf_startCol (w : Memory.wf s.mem = true) (x l : Nat) (f : Flight) : Memory.wf (startCol s x l f).mem = true := by
  unfold startCol
  split <;> simp [w]

@[simp] theorem wf_runWaiting (w : Memory.wf s.mem = true) (slot n : Nat) : Memory.wf (runWaiting slot n s).mem = true := by
  induction n generalizing s with
  | zero => exact w
  | succ n ih =>
    unfold runWaiting
    dsimp only
    split
    · exact w
    · split
      · refine ih (wf_enterCol ?_ _ _ _ _)
        exact w
      · refine ih ?_
        exact w

@[simp] theorem wf_afterCol (w : Memory.wf s.mem = true) (slot : Nat) : Memory.wf (afterCol s slot).mem = true := by simp [afterCol, w]
@[simp] theorem wf_afterAll (w : Memory.wf s.mem = true) : Memory.wf (afterAll s).mem = true := wf_foldl
    (fun _ k w => wf_afterCol w k) _ _ w
@[simp] theorem wf_expireWred (w : Memory.wf s.mem = true) (x l : Nat) (f : Flight) (slot : Nat) :
    Memory.wf (expireWred s x l f slot).mem = true := by
  unfold expireWred
  dsimp only
  (repeat' split) <;> simp [w]

/-! ### Moves -/

@[simp] theorem wf_endMove (w : Memory.wf s.mem = true) (x l : Nat) (f : Flight) (d : Desc) (rows : List RowOut) (limit : Option Nat) :
    Memory.wf (endMove s x l f d rows limit).mem = true := by simp [endMove, w]

@[simp] theorem wf_runCpy (w : Memory.wf s.mem = true) (x l : Nat) (f : Flight) (o : MOps) : Memory.wf (runCpy s x l f o).mem = true := by
  simp [runCpy, w]

@[simp] theorem wf_runGth (w : Memory.wf s.mem = true) (x l : Nat) (f : Flight) (o : MOps) : Memory.wf (runGth s x l f o).mem = true := by
  unfold runGth
  dsimp only
  (repeat' split) <;> simp [w]

theorem wf_sctRow (base cbase : Nat) (d c : Desc) (ftz : Bool) (x l : Nat) {p : State × SctSeen} (w : Memory.wf p.1.mem = true)
    (e : Int × Nat) : Memory.wf (sctRow base cbase d c ftz x l p e).1.mem = true := wf_writeRows w _ _ _ _

@[simp] theorem wf_runSct (w : Memory.wf s.mem = true) (x l : Nat) (f : Flight) (o : MOps) : Memory.wf (runSct s x l f o).mem = true := by
  unfold runSct
  dsimp only
  split
  · exact wf_endMove w _ _ _ _ _ _
  · split
    · simp [w]
    · split
      · rw [endEngine_mem, sctRecord_mem]
        exact wf_foldl_fst (fun _ e w => wf_sctRow _ _ _ _ _ _ _ w e) _ _ (by simp [w])
      · exact wf_endMove w _ _ _ _ _ _

@[simp] theorem wf_runTrn (w : Memory.wf s.mem = true) (x l : Nat) (f : Flight) (o : MOps) : Memory.wf (runTrn s x l f o).mem = true := by
  simp [runTrn, w]

@[simp] theorem wf_runFil (w : Memory.wf s.mem = true) (x l : Nat) (f : Flight) (o : MOps) : Memory.wf (runFil s x l f o).mem = true := by
  simp [runFil, w]

/-! ### Vector instructions -/

@[simp] theorem wf_runVector (w : Memory.wf s.mem = true) (x l : Nat) (f : Flight) (op : VOp) (o : VOps) :
    Memory.wf (runVector s x l f op o).mem = true := by simp [runVector, w]

@[simp] theorem wf_execV (w : Memory.wf s.mem = true) (op : VOp) (x l id : Nat) (ecc : List EccEvent) :
    Memory.wf (execV op x l id ecc s).mem = true := by
  unfold execV
  (repeat' split) <;> simp [w]

/-! ### The sequencer -/

@[simp] theorem wf_startSlice (w : Memory.wf s.mem = true) (p x : Nat) : Memory.wf (startSlice s p x).mem = true := by simp [startSlice, w]

/-! ### Pipeline stages -/

@[simp] theorem wf_capItem (w : Memory.wf s.mem = true) (p x : Nat) (g : ManStage) (forward : Bool) (i : StageItem) :
    Memory.wf (capItem s p x g forward i).mem = true := by
  unfold capItem
  dsimp only
  (repeat' split) <;> simp [w]

@[simp] theorem wf_spawnEntry (w : Memory.wf s.mem = true) (x c : Nat) (v : Cell) (entry : Word) (cls : Option Nat) (near : Bool)
    (args : List Word) :
    Memory.wf (spawnEntry s x c v entry cls near args).mem = true := by simp [spawnEntry, w]

@[simp] theorem wf_admitForward (w : Memory.wf s.mem = true) (p x : Nat) (g : ManStage) (j : Nat) :
    Memory.wf (admitForward s p x g j).mem = true := by
  unfold admitForward
  split <;> simp [w]

@[simp] theorem wf_startBackward (w : Memory.wf s.mem = true) (p x : Nat) (g : ManStage) (c : Nat) (cell : Cell) (slot : Option Nat) :
    Memory.wf (startBackward s p x g c cell slot).mem = true := by
  unfold startBackward
  dsimp only
  split <;> simp [w]

@[simp] theorem wf_tryTurn (w : Memory.wf s.mem = true) (p x : Nat) (g : ManStage) (j : Nat) :
    Memory.wf (tryTurn s p x g j).mem = true := by
  unfold tryTurn
  split <;> simp [w]

@[simp] theorem wf_admitBackward (w : Memory.wf s.mem = true) (p x : Nat) (g : ManStage) (j : Nat) :
    Memory.wf (admitBackward s p x g j).mem = true := by
  unfold admitBackward
  dsimp only
  (repeat' split) <;> simp [w]

@[simp] theorem wf_admitAccumulate (w : Memory.wf s.mem = true) (p x : Nat) (g : ManStage) (j : Nat) :
    Memory.wf (admitAccumulate s p x g j).mem = true := by
  unfold admitAccumulate
  split <;> simp [w]

@[simp] theorem wf_stepEnd (w : Memory.wf s.mem = true) (p : Nat) (g : ManStage) : Memory.wf (stepEnd s p g).mem = true := by
  simp [stepEnd, w]

@[simp] theorem wf_phaseComplete (w : Memory.wf s.mem = true) (c : Nat) : Memory.wf (phaseComplete s c).mem = true := by
  unfold phaseComplete
  dsimp only
  (repeat' split) <;> simp [w]

@[simp] theorem wf_cellTaskEnded (w : Memory.wf s.mem = true) (c : Nat) : Memory.wf (cellTaskEnded s c).mem = true := by
  simp [cellTaskEnded, w]

@[simp] theorem wf_stageItemCapped (w : Memory.wf s.mem = true) (p x : Nat) (g : ManStage) (forward : Bool) (item : StageItem) :
    Memory.wf (stageItemCapped s p x g forward item).mem = true := by simp [stageItemCapped, w]

/-! ### Checkpoints -/

@[simp] theorem wf_takeCopy (w : Memory.wf s.mem = true) (p gen rank a : Nat) (slot : List Byte) (crcOk ward : Bool) :
    Memory.wf (takeCopy s p gen rank a slot crcOk ward).mem = true := by
  unfold takeCopy
  split <;> simp [w]

/-! ### The gradient exchange -/

@[simp] theorem wf_ownUnit (w : Memory.wf s.mem = true) (p x : Nat) (r : ManReduce) (comp u : Nat) :
    Memory.wf (ownUnit s p x r comp u).2.mem = true := by
  unfold ownUnit
  split
  · exact w
  · dsimp only
    split
    · exact w
    · exact wf_storeBytes w _ _

@[simp] theorem wf_tryVote (w : Memory.wf s.mem = true) (p : Nat) : Memory.wf (tryVote s p).mem = true := by simp [tryVote, w]
@[simp] theorem wf_failResidue (w : Memory.wf s.mem = true) (p slot src round port chunk check want got : Nat) :
    Memory.wf (failResidue s p slot src round port chunk check want got).mem = true := by
  unfold failResidue
  dsimp only
  split <;> simp [w]

@[simp] theorem wf_presentOne (w : Memory.wf s.mem = true) (p slot : Nat) (v : Nat × GCargo) :
    Memory.wf (presentOne p slot s v).mem = true := by
  unfold presentOne
  split <;> simp [w]

@[simp] theorem wf_gradProgress (w : Memory.wf s.mem = true) (p slot : Nat) : Memory.wf (gradProgress s p slot).mem = true := by
  unfold gradProgress
  split
  · refine wf_tryVote ?_ p
    rw [noteAgreed_mem, pumpGrad_mem]
    exact wf_foldl (fun _ u w => wf_presentOne w p slot u) _ _ w
  · exact w

@[simp] theorem wf_enterUnit (w : Memory.wf s.mem = true) (p slot x : Nat) (r : ManReduce) (u : Nat) :
    Memory.wf (enterUnit p slot x r s u).mem = true := by
  unfold enterUnit
  dsimp only
  (repeat' split) <;> simp [w]

@[simp] theorem wf_enterAborted (w : Memory.wf s.mem = true) (p slot why : Nat) : Memory.wf (enterAborted s p slot why).mem = true := by
  simp [enterAborted, w]

@[simp] theorem wf_takeGrad (w : Memory.wf s.mem = true) (p slot : Nat) (c : GradChunk) : Memory.wf (takeGrad s p slot c).mem = true := by
  unfold takeGrad
  dsimp only
  (repeat' split) <;> simp [w]

@[simp] theorem wf_judgeGrad (w : Memory.wf s.mem = true) (p slot : Nat) (c : GradChunk) : Memory.wf (judgeGrad s p slot c).mem = true := by
  unfold judgeGrad
  split <;> simp [w]

@[simp] theorem wf_arriveGrad (w : Memory.wf s.mem = true) (p slot : Nat) (c : GradChunk) :
    Memory.wf (arriveGrad s p slot c).mem = true := by
  unfold arriveGrad
  dsimp only
  (repeat' split) <;> simp [w]

@[simp] theorem wf_beginExchange (w : Memory.wf s.mem = true) (p : Nat) : Memory.wf (beginExchange s p).mem = true := by
  unfold beginExchange
  split
  · dsimp only
    split
    · exact wf_enterAborted w _ _ _
    · split
      · exact wf_enterAborted w _ _ _
      · refine wf_foldl (fun _ c w => wf_arriveGrad w _ _ c) _ _ (wf_gradProgress ?_ _ _)
        refine wf_foldl (fun _ u w => wf_enterUnit w _ _ _ _ u) _ _ ?_
        exact w
  · exact w

@[simp] theorem wf_beginGather (w : Memory.wf s.mem = true) (p : Nat) : Memory.wf (beginGather s p).mem = true := by
  unfold beginGather
  dsimp only
  (repeat' split) <;> simp [w]

@[simp] theorem wf_startDevBulk (w : Memory.wf s.mem = true) (p : Nat) (gather : Bool) :
    Memory.wf (startDevBulk s p gather).mem = true := by
  unfold startDevBulk
  split <;> simp [w]

@[simp] theorem wf_startExchange (w : Memory.wf s.mem = true) (p : Nat) : Memory.wf (startExchange s p).mem = true := by
  simp [startExchange, w]

@[simp] theorem wf_startGather (w : Memory.wf s.mem = true) (p : Nat) : Memory.wf (startGather s p).mem = true := by simp [startGather, w]
@[simp] theorem wf_startPending (w : Memory.wf s.mem = true) (p : Nat) : Memory.wf (startPending s p).mem = true := by
  unfold startPending
  split <;> simp [w]

@[simp] theorem wf_afterAbort (w : Memory.wf s.mem = true) (slot : Nat) : Memory.wf (afterAbort s slot).mem = true := by
  unfold afterAbort
  dsimp only
  split
  · exact wf_tryVote (wf_startPending (wf_afterCol w slot) _) _
  · exact wf_afterCol w slot

@[simp] theorem wf_deliverChunk (w : Memory.wf s.mem = true) (p slot x : Nat) (r : ManReduce) (b : Bulk) (e : Xch) (v : ReadyChunk) :
    Memory.wf (deliverChunk s p slot x r b e v).mem = true := by simp [deliverChunk, w]

@[simp] theorem wf_handlerDone (w : Memory.wf s.mem = true) (x l p c : Nat) : Memory.wf (handlerDone s x l p c).mem = true := by
  unfold handlerDone
  dsimp only
  (repeat' split) <;> simp [w]

theorem wf_gatherDone {t : State} {p : Nat} (w : Memory.wf s.mem = true) (h : gatherDone s p = some t) : Memory.wf t.mem = true := by
  unfold gatherDone at h
  dsimp only at h
  split at h
  · cases h
  · split at h
    · split at h
      · cases h
        refine wf_afterCol ?_ _
        simp [w]
      · cases h
    · cases h

@[simp] theorem wf_commitExchange (w : Memory.wf s.mem = true) (p : Nat) (due busy : Bool) :
    Memory.wf (commitExchange s p due busy).mem = true := by simp [commitExchange, w]

@[simp] theorem wf_finishNaming (w : Memory.wf s.mem = true) (slot rankA : Nat) (sigA : Sig) (rankB : Nat) (sigB : Sig) (waggle : Bool)
    (seq : Nat) :
    Memory.wf (finishNaming s slot rankA sigA rankB sigB waggle seq).mem = true := by simp [finishNaming, w]

@[simp] theorem wf_expireNaming (w : Memory.wf s.mem = true) (slot : Nat) : Memory.wf (expireNaming s slot).mem = true := by
  unfold expireNaming
  dsimp only
  (repeat' split) <;> simp [w]

@[simp] theorem wf_expireDev (w : Memory.wf s.mem = true) (p since : Nat) : Memory.wf (expireDev s p since).mem = true := by
  unfold expireDev
  dsimp only
  (repeat' split) <;> simp [w]

/-! ### Lost ranks -/

@[simp] theorem wf_abortGroup (ranks : List Nat) (w : Memory.wf s.mem = true) (slot : Nat) :
    Memory.wf (abortGroup ranks s slot).mem = true := by
  unfold abortGroup
  dsimp only
  split
  · split <;> simp [w]
  · refine wf_afterAbort ?_ slot
    have bulk : Memory.wf (match (getGrp s slot).bulk with
        | some b => detectAbort s slot false b.sig.seq .memberLost
        | none => s).mem = true := by
      split
      · exact wf_detectAbort w _ _ _ _
      · exact w
    split
    · exact wf_detectAbort bulk _ _ _ _
    · exact bulk

@[simp] theorem wf_loseOthers (w : Memory.wf s.mem = true) (ranks : List Nat) : Memory.wf (loseOthers s ranks).mem = true := by
  unfold loseOthers
  refine wf_foldl (fun s a w => ?_) _ _ w
  dsimp only
  (repeat' split) <;> simp [w]

@[simp] theorem wf_lossHere (w : Memory.wf s.mem = true) (ranks : List Nat) (takeover : Bool) :
    Memory.wf (lossHere s ranks takeover).mem = true := by
  unfold lossHere
  dsimp only
  have aborted : Memory.wf ((jobParts s).foldl (fun s p => deviceAbort s p .memberLost)
      (((s.grps.filter (fun e => e.2.valid && (jobParts s).contains e.2.part)).map (·.1)).foldl (abortGroup ranks)
        ((jobTraining s).foldl stopCtx s))).mem = true := by
    rw [foldl_mem fun s p => deviceAbort_mem s p _]
    refine wf_foldl (fun _ k w => wf_abortGroup ranks w k) _ _ ?_
    rwa [foldl_mem stopCtx_mem]
  split
  · exact aborted
  · split
    · rw [beginAgreement_mem]
      exact aborted
    · exact aborted

@[simp] theorem wf_declareLost (w : Memory.wf s.mem = true) (ranks : List Nat) : Memory.wf (declareLost s ranks).mem = true := by
  simp [declareLost, w]

/-! ### Fabric ports -/

@[simp] theorem wf_takeStagePacket (w : Memory.wf s.mem = true) (q : Packet) : Memory.wf (takeStagePacket s q).mem = true := by
  unfold takeStagePacket
  split <;> simp [w]

@[simp] theorem wf_discardPacket (w : Memory.wf s.mem = true) (t : Transit) (cause : Nat) :
    Memory.wf (discardPacket s t cause).mem = true := by
  unfold discardPacket
  dsimp only
  (repeat' split) <;> simp [w]

@[simp] theorem wf_deliverPacket (w : Memory.wf s.mem = true) (t : Transit) : Memory.wf (deliverPacket s t).mem = true := by
  simp [deliverPacket, w]

theorem wf_pumpOnce {t : State} (w : Memory.wf s.mem = true) (h : pumpOnce s = some t) : Memory.wf t.mem = true := by
  unfold pumpOnce at h
  dsimp only at h
  split at h
  · next u found =>
    cases h
    obtain ⟨k, -, fate⟩ := List.exists_of_findSome?_eq_some found
    split at fate
    · cases fate; simp [w]
    · cases fate; simp [w]
    · cases fate; simp [w]
    · cases fate
  · split at h
    · cases h
    · split at h
      · cases h
      · cases h; simp [w]

@[simp] theorem wf_pumpFor (w : Memory.wf s.mem = true) (n : Nat) : Memory.wf (pumpFor n s).mem = true := by
  induction n generalizing s with
  | zero => exact w
  | succ n ih =>
    unfold pumpFor
    split
    · next t h => exact ih (wf_pumpOnce w h)
    · exact w

@[simp] theorem wf_pumpFabric (w : Memory.wf s.mem = true) : Memory.wf (pumpFabric s).mem = true := by simp [pumpFabric, w]
@[simp] theorem wf_routePacket (w : Memory.wf s.mem = true) (t : Transit) : Memory.wf (routePacket s t).mem = true := by
  simp [routePacket, w]

@[simp] theorem wf_arrivePacket (w : Memory.wf s.mem = true) (k : Nat) (esc psn : Bool) (p : Packet) :
    Memory.wf (arrivePacket s k esc psn p).mem = true := by simp [arrivePacket, w]

@[simp] theorem wf_settleHeld (w : Memory.wf s.mem = true) (k lseq : Nat) : Memory.wf (settleHeld s k lseq).mem = true := by
  simp [settleHeld, w]

/-! ### The fabric -/

@[simp] theorem wf_takeBody (w : Memory.wf s.mem = true) (k : Nat) (u : LinkUnit) : Memory.wf (takeBody s k u).mem = true := by
  unfold takeBody
  dsimp only
  (repeat' split) <;> simp [w]

@[simp] theorem wf_takeUnit (w : Memory.wf s.mem = true) (k : Nat) (u : LinkUnit) : Memory.wf (takeUnit s k u).mem = true := by
  simp [takeUnit, w]

@[simp] theorem wf_takeTrailer (w : Memory.wf s.mem = true) (k : Nat) (u : LinkUnit) : Memory.wf (takeTrailer s k u).mem = true := by
  simp [takeTrailer, w]

@[simp] theorem wf_rerunTree (w : Memory.wf s.mem = true) (k : Nat) : Memory.wf (rerunTree s k).mem = true := by
  unfold rerunTree
  dsimp only
  split
  · simp [w]
  · split
    · refine wf_foldl (fun s v w => wf_wagContribute (s := bump s _ _ _) w _ _ _ _ _) _ _ ?_
      exact w
    · split
      · rw [treeEntry_mem, bump_mem]
        exact w
      · exact w

@[simp] theorem wf_rerunWaggle (w : Memory.wf s.mem = true) : Memory.wf (rerunWaggle s).mem = true := by
  unfold rerunWaggle
  dsimp only
  refine wf_foldl (fun s p w => ?_) _ _ (wf_foldl (fun _ k w => wf_rerunTree w k) _ _ (by simp [w]))
  split
  · split <;> simp [w]
  · exact w

@[simp] theorem wf_routesDone (w : Memory.wf s.mem = true) : Memory.wf (routesDone s).mem = true := by simp [routesDone, w]

/-! ### Messages that enter the fabric -/

@[simp] theorem wf_pushOut (w : Memory.wf s.mem = true) : Memory.wf (pushOut s).mem = true := by
  unfold pushOut
  split <;> simp [w]

/-! ### The Hum -/

@[simp] theorem wf_collectiveTick (w : Memory.wf s.mem = true) : Memory.wf (collectiveTick s).mem = true := by
  refine wf_joinAll (wf_foldl (fun _ p w => wf_tryVote (wf_startPending w p) p) _ _ ?_)
  exact wf_foldl (fun s k w => by simp [w]) _ _ w

/-! ### Contexts -/

@[simp] theorem wf_ctxSave (w : Memory.wf s.mem = true) (x addr len : Nat) : Memory.wf (ctxSave s x addr len).1.mem = true := by
  unfold ctxSave
  dsimp only
  (repeat' split) <;> simp [w]

@[simp] theorem wf_undefineHandles (w : Memory.wf s.mem = true) (x : Nat) : Memory.wf (undefineHandles s x).mem = true := by
  unfold undefineHandles
  exact wf_foldl (fun s h w => wf_writeBytes (s := (drawBytes s _).2) w _ _) _ _ w

@[simp] theorem wf_putSections (w : Memory.wf s.mem = true) (a : Nat) : Memory.wf (putSections s a).mem = true := by
  unfold putSections
  refine wf_foldl (fun s a w => ?_) _ _ w
  split <;> simp [w]

@[simp] theorem wf_restoreSlot (w : Memory.wf s.mem = true) (p a : Nat) : Memory.wf (restoreSlot s p a).mem = true := by
  unfold restoreSlot
  simp only [setTrain_mem, setFld_mem]
  exact wf_putSections (wf_foldl (fun _ x w => wf_undefineHandles w x) _ _ w) a

@[simp] theorem wf_launchTasks (w : Memory.wf s.mem = true) (x : Nat) (args : List Word) : Memory.wf (launchTasks s x args).mem = true := by
  unfold launchTasks
  refine wf_foldl (fun s a w => ?_) _ _ w
  simp [w]

@[simp] theorem wf_resumeGather (w : Memory.wf s.mem = true) (p : Nat) : Memory.wf (resumeGather s p).mem = true := by
  unfold resumeGather
  split <;> simp [w]

@[simp] theorem wf_resumePart (w : Memory.wf s.mem = true) (p x sess tag slot : Nat) (args : List Word) :
    Memory.wf (resumePart s p x sess tag slot args).mem = true := by
  unfold resumePart
  refine wf_resumeGather ?_ p
  simp only [reportRewind_mem, setCkpt_mem, setFld_mem, setDone_mem]
  exact wf_restoreSlot w p slot

@[simp] theorem wf_ctxLaunch (w : Memory.wf s.mem = true) (sess tag x : Nat) (args : List Word) :
    Memory.wf (ctxLaunch s sess tag x args).1.mem = true := by
  unfold ctxLaunch
  dsimp only
  (repeat' split) <;> simp [w]

/-! ### Takeovers -/

/-- A load that has not failed yet has reached a state in canonical form. -/
theorem wf_loadFromSlot (a p : Nat) {acc : Option State × State} (w : ∀ t, acc.1 = some t → Memory.wf t.mem = true) (e : Nat × Manifest) :
    ∀ t, (loadFromSlot a p acc e).1 = some t → Memory.wf t.mem = true := by
  intro t h
  unfold loadFromSlot at h
  dsimp only at h
  split at h
  · exact w t h
  · next s from_ =>
    split at h
    · cases h
    · cases h
      rw [installCtx_mem]
      exact w s from_

theorem wf_loadsFromSlot (a p : Nat) (l : List (Nat × Manifest)) {acc : Option State × State}
    (w : ∀ t, acc.1 = some t → Memory.wf t.mem = true) : ∀ t, (l.foldl (loadFromSlot a p) acc).1 = some t → Memory.wf t.mem = true := by
  induction l generalizing acc with
  | nil => exact w
  | cons e l ih => exact ih (wf_loadFromSlot a p w e)

theorem loadsFromSlot_mem (a p : Nat) (l : List (Nat × Manifest)) (acc : Option State × State) :
    (l.foldl (loadFromSlot a p) acc).2.mem = acc.2.mem := by
  induction l generalizing acc with
  | nil => rfl
  | cons e l ih => exact (ih _).trans (loadFromSlot_mem a p acc e)

/-- A drone's load leaves two states, the one it tries if it succeeds and the one it goes on from if it fails: this is of the second. Its
definition is opened as a value, or the kernel evaluates the whole load. -/
theorem wf_droneLoad_failed (w : Memory.wf s.mem = true) (rank : Nat) (slot : List Byte) (mans : List (Nat × Manifest)) :
    Memory.wf (droneLoad s rank slot mans).2.mem = true := by
  generalize same : droneLoad = load
  delta droneLoad at same
  subst same
  simp only
  have stored (p a : Nat) : Memory.wf (storeBytes (setPhase s p 5) a slot).mem = true := wf_storeBytes (by rwa [setPhase_mem]) _ _
  split
  · rw [refusePartAccess_mem, setPhase_mem]
    exact w
  · split
    · rw [raiseCkp_mem]
      exact stored _ _
    · split
      · exact stored _ _
      · split
        · exact stored _ _
        · split
          · rw [wr_mem]
            exact stored _ _
          · split
            · next loaded =>
              rw [← congrArg (fun c : Option State × State => c.2.mem) loaded, loadsFromSlot_mem]
              exact stored _ _
            · exact stored _ _

theorem wf_droneLoad (w : Memory.wf s.mem = true) (rank : Nat) (slot : List Byte) (mans : List (Nat × Manifest)) {t : State}
    (h : (droneLoad s rank slot mans).1 = some t) : Memory.wf t.mem = true := by
  generalize same : droneLoad = load at h
  delta droneLoad at same
  subst same
  simp only at h
  have stored (p a : Nat) : Memory.wf (storeBytes (setPhase s p 5) a slot).mem = true := wf_storeBytes (by rwa [setPhase_mem]) _ _
  split at h
  · cases h
  · split at h
    · cases h
    · split at h
      · cases h
      · split at h
        · cases h
        · split at h
          · cases h
          · next u checked =>
            split at h
            · cases h
            · next v _ loaded =>
              cases h
              have tried : Memory.wf v.mem = true := by
                refine wf_loadsFromSlot _ _ _ ?_ v (congrArg Prod.fst loaded)
                intro r same
                cases same
                rw [wr_mem, ← congrArg (fun c : State × Bool => c.1.mem) checked, validateCfg_mem, leaveDrone_mem]
                exact stored _ _
              exact wf_foldl (fun t e w => wf_storeBytes w _ _) _ _ tried

@[simp] theorem wf_finishResume (w : Memory.wf s.mem = true) (p : Nat) : Memory.wf (finishResume s p).mem = true := by
  unfold finishResume
  split
  · exact w
  · next r _ =>
    have launched : Memory.wf (r.launches.foldl (fun s e => if r.rollback && !relaunches s e.1 then s else launchTasks s e.1 e.2)
        (setPhase { s with resume := Sparse.set none s.resume p none } p 0)).mem = true :=
      wf_foldl (fun s e w => by simp [w]) _ _ (by simp [w])
    dsimp only
    split <;> split
    · exact (congrArg Memory.wf ((reportRewind_mem _ _).trans ((bump_mem _ _ _ _).trans (answer_mem _ _ _ _ _)))).trans launched
    · exact (congrArg Memory.wf ((reportRewind_mem _ _).trans (bump_mem _ _ _ _))).trans launched
    · exact (congrArg Memory.wf (answer_mem _ _ _ _ _)).trans launched
    · exact launched

@[simp] theorem wf_finishIdle (w : Memory.wf s.mem = true) (p : Nat) : Memory.wf (finishIdle s p).mem = true := by
  unfold finishIdle
  split <;> simp [w]

@[simp] theorem wf_runGathers (w : Memory.wf s.mem = true) : Memory.wf (runGathers s).mem = true := by
  unfold runGathers
  refine wf_foldl (fun s a w => ?_) _ _ w
  split <;> simp [w]

/-! ### Serving -/

@[simp] theorem wf_writePage (w : Memory.wf s.mem = true) (x : Nat) (v : Stream) (g : KvPage) (fill : Nat) :
    Memory.wf (writePage s x v g fill).mem = true := by simp [writePage, w]

theorem wf_allocPage {t : State} {x e i : Nat} (w : Memory.wf s.mem = true) (h : allocPage x e s i = some t) :
    Memory.wf t.mem = true := by
  unfold allocPage at h
  dsimp only at h
  split at h
  · cases h
  · split at h
    · cases h
    · split at h
      · cases h
      · cases h
        exact wf_writePage (by simp [w]) _ _ _ _

theorem wf_allocPages {t : State} {x e : Nat} {is : List Nat} (w : Memory.wf s.mem = true) (h : allocPages x e is s = some t) :
    Memory.wf t.mem = true := by
  induction is generalizing s with
  | nil =>
    cases h
    exact w
  | cons i is ih =>
    unfold allocPages at h
    split at h
    · next u one => exact ih (wf_allocPage w one) h
    · cases h

@[simp] theorem wf_freePages (w : Memory.wf s.mem = true) (x e : Nat) : Memory.wf (freePages s x e).mem = true := by
  unfold freePages
  split
  · exact w
  · exact wf_foldl (fun _ g w => wf_storeBytes w _ _) _ _ w

theorem wf_movePages {t : State} {x e : Nat} {from_ : Bool} {gs : List KvPage} (w : Memory.wf s.mem = true)
    (h : movePages x e from_ gs s = some t) : Memory.wf t.mem = true := by
  induction gs generalizing s with
  | nil =>
    cases h
    exact w
  | cons g gs ih =>
    unfold movePages at h
    dsimp only at h
    split at h
    · exact ih w h
    · split at h
      · cases h
      · split at h
        · cases h
        · split at h
          · cases h
          · exact ih (wf_writePage (by simp [w]) _ _ _ _) h

@[simp] theorem wf_tryFallback (w : Memory.wf s.mem = true) (x e : Nat) : Memory.wf (tryFallback x s e).mem = true := by
  unfold tryFallback
  split <;> simp [w]

@[simp] theorem wf_spawnWindow (x p n : Nat) (own : Bool) (rows : List WinRow) (w : Memory.wf s.mem = true) (m : Nat) :
    Memory.wf (spawnWindow x p n own rows s m).mem = true := by
  unfold spawnWindow
  split
  · exact w
  · exact wf_spawnTask w _ _ _

@[simp] theorem wf_admitWindow (w : Memory.wf s.mem = true) (x p n : Nat) (own : Bool) (rows : List BatchRow) :
    Memory.wf (admitWindow s x p n own rows).mem = true := by
  unfold admitWindow
  dsimp only
  rw [setServ_mem]
  refine wf_foldl (fun _ m w => wf_spawnWindow _ _ _ _ _ w m) _ _ ?_
  rw [foldl_mem fun s m => by split <;> rfl]
  refine wf_foldl (fun _ e w => wf_storeBytes w _ _) _ _ ?_
  simp [w]

@[simp] theorem wf_takeLeave (w : Memory.wf s.mem = true) (x e : Nat) : Memory.wf (takeLeave x s e).mem = true := by
  unfold takeLeave
  split <;> simp [w]

theorem wf_admitOne {t : State} {x e : Nat} {v : Stream} (w : Memory.wf s.mem = true) (h : admitOne s x e v = some t) :
    Memory.wf t.mem = true := by
  unfold admitOne at h
  split at h
  all_goals
    obtain ⟨u, paged, rfl⟩ := Option.map_eq_some_iff.mp h
    split
  · simp [wf_allocPages w paged]
  · exact wf_allocPages w paged
  · simp [wf_movePages w paged]
  · exact wf_movePages w paged
  · simp [wf_allocPages w paged]
  · exact wf_allocPages w paged

@[simp] theorem wf_admitAll (w : Memory.wf s.mem = true) (x cells : Nat) (l : List (Nat × Stream)) :
    Memory.wf (admitAll x cells l s).1.mem = true := by
  induction l generalizing s cells with
  | nil => exact w
  | cons e l ih =>
    unfold admitAll
    split
    · exact ih w _
    · split
      · exact w
      · split
        · next t one => exact ih (wf_admitOne w one) _
        · exact w

@[simp] theorem wf_preempt (w : Memory.wf s.mem = true) (x e : Nat) (v : Stream) (needL2 : Bool) (needer : Nat) :
    Memory.wf (preempt s x e v needL2 needer).mem = true := by
  unfold preempt
  dsimp only
  rw [raisePart_mem, bump_mem]
  split
  · next t swapped =>
    have moved : Memory.wf t.mem = true := by
      split at swapped
      · exact wf_movePages w swapped
      · cases swapped
    split <;> simp [moved]
  · simp [w]

@[simp] theorem wf_giveDecode (w : Memory.wf s.mem = true) (x e n : Nat) : Memory.wf (giveDecode x e n s).mem = true := by
  induction n generalizing s with
  | zero => exact w
  | succ n ih =>
    unfold giveDecode
    dsimp only
    split
    · exact w
    · split
      · exact w
      · split
        · next t paged => exact wf_allocPages w paged
        · split
          · exact w
          · exact ih (wf_preempt w _ _ _ _ _)

@[simp] theorem wf_boundary (w : Memory.wf s.mem = true) (x p : Nat) : Memory.wf (boundary s x p).mem = true := by
  unfold boundary
  dsimp only
  refine wf_foldl (fun _ e w => wf_giveDecode w _ _ _) _ _ ?_
  rw [setFld_mem]
  refine wf_admitAll (wf_foldl (fun _ e w => wf_tryFallback w x e) _ _ ?_) _ _ _
  rw [foldl_mem noteMiss_mem]
  refine wf_foldl (fun _ e w => wf_takeLeave w x e) _ _ ?_
  rwa [foldl_mem fun s m => tryLoad_mem s p m]

@[simp] theorem wf_stageRow (x p : Nat) (w : Memory.wf s.mem = true) (r : BatchRow) : Memory.wf (stageRow x p s r).mem = true := by
  unfold stageRow
  dsimp only
  refine wf_foldl (fun s i w => ?_) _ _ (by simp [w])
  cases h : allocPage x r.entry s i with
  | none => exact w
  | some t => exact wf_allocPage w h

theorem wf_admitNext {t : State} {x p : Nat} (w : Memory.wf s.mem = true) (h : admitNext s x p = some t) : Memory.wf t.mem = true := by
  unfold admitNext at h
  dsimp only at h
  split at h
  · cases h
  · split at h
    · cases h
      refine wf_admitWindow (wf_foldl (fun _ r w => wf_stageRow x p w r) _ _ ?_) _ _ _ _ _
      exact w
    · cases h

@[simp] theorem wf_stageDone (w : Memory.wf s.mem = true) (x p : Nat) (q : Win) : Memory.wf (stageDone s x p q).mem = true := by
  unfold stageDone
  dsimp only
  split
  · rw [faultCtx_mem]
    refine wf_foldl (fun s r w => ?_) _ _ (by simp [w])
    split
    · exact wf_foldl (fun _ g w => wf_writePage w _ _ _ _) _ _ w
    · exact w
  · rw [emit_mem, foldl_mem fun s i => combTouch_mem _ _ _ _ _]
    refine wf_foldl (fun s r w => ?_) _ _ (by simp [w])
    split
    · exact wf_foldl (fun _ g w => wf_writePage w _ _ _ _) _ _ w
    · exact w

@[simp] theorem wf_completeStages (w : Memory.wf s.mem = true) (x p n : Nat) : Memory.wf (completeStages x p n s).mem = true := by
  induction n generalizing s with
  | zero => exact w
  | succ n ih =>
    unfold completeStages
    split
    · split
      · exact ih (wf_stageDone w _ _ _)
      · exact w
    · exact w

@[simp] theorem wf_stageGo (w : Memory.wf s.mem = true) (x p n : Nat) : Memory.wf (stageGo x p n s).mem = true := by
  induction n generalizing s with
  | zero => exact w
  | succ n ih =>
    unfold stageGo
    dsimp only
    have ready : Memory.wf (stageLoads (completeStages x p (getServ s p).wins.length s) p).mem = true := by simp [w]
    split
    · next t more => exact ih (wf_admitNext ready more)
    · exact ready

@[simp] theorem wf_runStage (w : Memory.wf s.mem = true) (x p : Nat) : Memory.wf (runStage s x p).mem = true := by simp [runStage, w]
@[simp] theorem wf_windowEnded (w : Memory.wf s.mem = true) (p key : Nat) : Memory.wf (windowEnded s p key).mem = true := by
  unfold windowEnded
  split <;> simp [w]

@[simp] theorem wf_closeRow (w : Memory.wf s.mem = true) (x : Nat) (q : Win) (records : List OutRecord) (i : Nat) (r : WinRow) :
    Memory.wf (closeRow s x q records i r).1.mem = true := by
  unfold closeRow
  dsimp only
  split
  · exact w
  · next v _ =>
    have written (n l : Nat) : Memory.wf ((v.pages.filter (fun g => decide (64 * (g.idx / l) < n))).foldl
        (fun s g => writePage s x v g (fillOf l g.idx n)) s).mem = true := wf_foldl (fun _ g w => wf_writePage w _ _ _ _) _ _ w
    split
    · exact written _ _
    · split
      · rw [touch_mem, faultCtx_mem]
        exact written _ _
      · split
        · rw [touch_mem, setServ_mem]
          refine wf_storeBytes ?_ _ _
          split
          · rw [combTouch_mem]
            exact written _ _
          · exact written _ _
        · exact written _ _

@[simp] theorem wf_closeRows (w : Memory.wf s.mem = true) (x : Nat) (q : Win) (records : List OutRecord) (i : Nat) (rs : List WinRow) :
    Memory.wf (closeRows x q records i rs s).1.mem = true := by
  induction rs generalizing s i with
  | nil => exact w
  | cons r rs ih => exact ih (wf_closeRow w _ _ _ _ _) _

/-! ### Ends of tasks -/

@[simp] theorem wf_kindEnded (w : Memory.wf s.mem = true) (x l : Nat) (r : Running) : Memory.wf (kindEnded s x l r).mem = true := by
  unfold kindEnded
  split <;> simp [w]

@[simp] theorem wf_boundEnded (w : Memory.wf s.mem = true) (x : Nat) (b : Bound) : Memory.wf (boundEnded s x b).mem = true := by
  unfold boundEnded
  split <;> simp [w]

@[simp] theorem wf_endTask (w : Memory.wf s.mem = true) (x l : Nat) (r : Running) : Memory.wf (endTask s x l r).mem = true := by
  refine wf_dispatchCore (wf_boundEnded (wf_kindEnded ?_ _ _ _) _ _) _ _
  exact w

/-! ### Host operations -/

@[simp] theorem wf_memWrReq (w : Memory.wf s.mem = true) (sess addr : Nat) (data : List Byte) (ecc : List EccEvent) :
    Memory.wf (memWrReq s sess addr data ecc).1.mem = true := by
  unfold memWrReq
  (repeat' split) <;> simp [w]

@[simp] theorem wf_ringSendReq (w : Memory.wf s.mem = true) (ring epoch : Nat) (bs : List Byte) :
    Memory.wf (ringSendReq s ring epoch bs).1.mem = true := by
  unfold ringSendReq
  dsimp only
  (repeat' split) <;> simp [w]

@[simp] theorem wf_capInputs (w : Memory.wf s.mem = true) (p x : Nat) (g : ManStage) (n : Nat) :
    Memory.wf (capInputs p x g n s).mem = true := by
  induction n generalizing s with
  | zero => exact w
  | succ n ih =>
    unfold capInputs
    dsimp only
    split
    · exact w
    · refine ih (wf_capItem ?_ _ _ _ _ _)
      exact w

@[simp] theorem wf_inputReq (w : Memory.wf s.mem = true) (p cursor offset total : Nat) (data : List Byte) :
    Memory.wf (inputReq s p cursor offset total data).1.mem = true := by
  unfold inputReq
  dsimp only
  (repeat' split) <;> simp [w]

@[simp] theorem wf_launchReq (w : Memory.wf s.mem = true) (sess tag x : Nat) (args : List Word) :
    Memory.wf (launchReq s sess tag x args).1.mem = true := by simp [launchReq, w]

end Sys2Proof.Machine
end

section
/-! Commands that keep memory in its canonical form. -/

namespace Sys2Proof.Machine

variable {s : State}

/-! ### Arrays -/

@[simp] theorem wf_execALdw (w : Memory.wf s.mem = true) (x l id : Nat) (ecc : List EccEvent) : OutcomeWf (execALdw x l id ecc s) := by
  unfold execALdw
  (repeat' split) <;> simp [w]

@[simp] theorem wf_execASwp (w : Memory.wf s.mem = true) (x l id : Nat) : OutcomeWf (execASwp x l id s) := by
  unfold execASwp
  (repeat' split) <;> simp [w]

@[simp] theorem wf_execAMul (w : Memory.wf s.mem = true) (x l id : Nat) (ecc : List EccEvent) : OutcomeWf (execAMul x l id ecc s) := by
  unfold execAMul
  (repeat' split) <;> simp [w]

@[simp] theorem wf_execAMult (w : Memory.wf s.mem = true) (x l id : Nat) (ecc : List EccEvent) : OutcomeWf (execAMult x l id ecc s) := by
  unfold execAMult
  (repeat' split) <;> simp [w]

@[simp] theorem wf_execADrn (w : Memory.wf s.mem = true) (x l id : Nat) : OutcomeWf (execADrn x l id s) := by
  unfold execADrn
  (repeat' split) <;> simp [w]

/-! ### Flags and barriers -/

@[simp] theorem wf_execSSet (w : Memory.wf s.mem = true) (x l id : Nat) : OutcomeWf (execSSet x l id s) := by
  unfold execSSet
  (repeat' split) <;> simp [w]

@[simp] theorem wf_execSClr (w : Memory.wf s.mem = true) (x l id : Nat) : OutcomeWf (execSClr x l id s) := by
  unfold execSClr
  (repeat' split) <;> simp [w]

@[simp] theorem wf_execSWait (w : Memory.wf s.mem = true) (x l id : Nat) : OutcomeWf (execSWait x l id s) := by
  unfold execSWait
  (repeat' split) <;> simp [w]

@[simp] theorem wf_execSBar (w : Memory.wf s.mem = true) (x l id : Nat) : OutcomeWf (execSBar x l id s) := by
  unfold execSBar
  (repeat' split) <;> simp [w]

@[simp] theorem wf_execSBwait (w : Memory.wf s.mem = true) (x l id : Nat) : OutcomeWf (execSBwait x l id s) := by
  unfold execSBwait
  (repeat' split) <;> simp [w]

@[simp] theorem wf_execRemoteSetArrival (w : Memory.wf s.mem = true) (rank x name : Nat) :
    OutcomeWf (execRemoteSetArrival rank x name s) := by simp [execRemoteSetArrival, w]

@[simp] theorem wf_execWaggleBarrierEntry (w : Memory.wf s.mem = true) (tree port gen : Nat) :
    OutcomeWf (execWaggleBarrierEntry tree port gen s) := by simp [execWaggleBarrierEntry, w]

@[simp] theorem wf_execWaggleBarrierRelease (w : Memory.wf s.mem = true) (tree gen : Nat) :
    OutcomeWf (execWaggleBarrierRelease tree gen s) := by simp [execWaggleBarrierRelease, w]

/-! ### Message rings -/

@[simp] theorem wf_execRingMessageArrival (w : Memory.wf s.mem = true) (ring : Nat) (m : RingMsg) (intact : Bool) :
    OutcomeWf (execRingMessageArrival ring m intact s) := by simp [execRingMessageArrival, w]

@[simp] theorem wf_execCombinedMessagePlace (w : Memory.wf s.mem = true) (ring tag : Nat) :
    OutcomeWf (execCombinedMessagePlace ring tag s) := by
  unfold execCombinedMessagePlace
  dsimp only
  (repeat' split) <;> simp [w]

@[simp] theorem wf_execHandlerDispatch (w : Memory.wf s.mem = true) (ring : Nat) : OutcomeWf (execHandlerDispatch ring s) := by
  unfold execHandlerDispatch
  dsimp only
  (repeat' split) <;> simp [w]

@[simp] theorem wf_execQSend (w : Memory.wf s.mem = true) (x l id : Nat) (ecc : List EccEvent) : OutcomeWf (execQSend x l id ecc s) := by
  unfold execQSend
  (repeat' split) <;> simp [w]

@[simp] theorem wf_execQAck (w : Memory.wf s.mem = true) (x l id : Nat) : OutcomeWf (execQAck x l id s) := by
  unfold execQAck
  dsimp only
  (repeat' split) <;> simp [w]

@[simp] theorem wf_execQOpen (w : Memory.wf s.mem = true) (x l id : Nat) : OutcomeWf (execQOpen x l id s) := by
  unfold execQOpen
  (repeat' split) <;> simp [w]

@[simp] theorem wf_execQClose (w : Memory.wf s.mem = true) (x l id : Nat) : OutcomeWf (execQClose x l id s) := by
  unfold execQClose
  (repeat' split) <;> simp [w]

@[simp] theorem wf_execQReset (w : Memory.wf s.mem = true) (x l id : Nat) : OutcomeWf (execQReset x l id s) := by
  unfold execQReset
  (repeat' split) <;> simp [w]

@[simp] theorem wf_execSendAnswerArrival (w : Memory.wf s.mem = true) (x l id reason epoch : Nat) :
    OutcomeWf (execSendAnswerArrival x l id reason epoch s) := by
  unfold execSendAnswerArrival
  (repeat' split) <;> simp [w]

@[simp] theorem wf_execRingResetComplete (w : Memory.wf s.mem = true) (ring : Nat) : OutcomeWf (execRingResetComplete ring s) := by
  simp [execRingResetComplete, w]

/-! ### Collectives -/

@[simp] theorem wf_execCBulk (w : Memory.wf s.mem = true) (x l id : Nat) (ecc : List EccEvent) : OutcomeWf (execCBulk x l id ecc s) := by
  unfold execCBulk
  (repeat' split) <;> simp [w]

@[simp] theorem wf_execCWred (w : Memory.wf s.mem = true) (x l id : Nat) : OutcomeWf (execCWred x l id s) := by
  unfold execCWred
  (repeat' split) <;> simp [w]

@[simp] theorem wf_execBulkChunkArrival (w : Memory.wf s.mem = true) (slot : Nat) (c : BulkChunk) :
    OutcomeWf (execBulkChunkArrival slot c s) := by simp [execBulkChunkArrival, w]

@[simp] theorem wf_execWaggleContributionArrival (w : Memory.wf s.mem = true) (tree port : Nat) (sig : Sig) (vals : List ℤ)
    (bad : List Bool) :
    OutcomeWf (execWaggleContributionArrival tree port sig vals bad s) := by simp [execWaggleContributionArrival, w]

@[simp] theorem wf_execWaggleResultArrival (w : Memory.wf s.mem = true) (tree : Nat) (sig : Sig) (vals : List ℤ) (bad : List Bool) :
    OutcomeWf (execWaggleResultArrival tree sig vals bad s) := by simp [execWaggleResultArrival, w]

@[simp] theorem wf_execWaitTimeout (v : Memory.wf s.mem = true) (x l : Nat) (w : WaitRef) : OutcomeWf (execWaitTimeout x l w s) := by
  unfold execWaitTimeout
  (repeat' split) <;> simp [v]

/-! ### Moves -/

@[simp] theorem wf_execMCpy (w : Memory.wf s.mem = true) (x l id : Nat) (ecc : List EccEvent) : OutcomeWf (execMCpy x l id ecc s) := by
  unfold execMCpy
  (repeat' split) <;> simp [w]

@[simp] theorem wf_execMGth (w : Memory.wf s.mem = true) (x l id : Nat) (ecc : List EccEvent) : OutcomeWf (execMGth x l id ecc s) := by
  unfold execMGth
  (repeat' split) <;> simp [w]

@[simp] theorem wf_execMSct (w : Memory.wf s.mem = true) (x l id : Nat) (ecc : List EccEvent) : OutcomeWf (execMSct x l id ecc s) := by
  unfold execMSct
  (repeat' split) <;> simp [w]

@[simp] theorem wf_execMTrn (w : Memory.wf s.mem = true) (x l id : Nat) (ecc : List EccEvent) : OutcomeWf (execMTrn x l id ecc s) := by
  unfold execMTrn
  (repeat' split) <;> simp [w]

@[simp] theorem wf_execMFil (w : Memory.wf s.mem = true) (x l id : Nat) : OutcomeWf (execMFil x l id s) := by
  unfold execMFil
  (repeat' split) <;> simp [w]

/-! ### The sequencer -/

/-- An instruction of the sequencer, whatever it does when it executes. -/
theorem outcomeWf_seqExec (w : Memory.wf s.mem = true) (x l : Nat) (is : CInstr → Bool) {act : Running → Flight → State}
    (h : ∀ r f, Memory.wf (act r f).mem = true) : OutcomeWf (.next (seqExec s x l is act)) := by
  rw [outcomeWf_next]
  unfold seqExec
  split
  · split
    · split
      · exact h _ _
      · rwa [stepSeq_mem]
    · exact w
  · exact w

@[simp] theorem wf_execInstructionFetch (w : Memory.wf s.mem = true) (x l : Nat) (ecc : List EccEvent) :
    OutcomeWf (execInstructionFetch x l ecc s) := by
  unfold execInstructionFetch
  split <;> simp [w]

@[simp] theorem wf_execEngineQueueStart (w : Memory.wf s.mem = true) (x l : Nat) (q : EngineQ) :
    OutcomeWf (execEngineQueueStart x l q s) := by
  unfold execEngineQueueStart
  (repeat' split) <;> simp [w]

@[simp] theorem wf_execTokenPost (w : Memory.wf s.mem = true) (x l id : Nat) : OutcomeWf (execTokenPost x l id s) := by
  unfold execTokenPost
  (repeat' split) <;> simp [w]

@[simp] theorem wf_execKEnd (w : Memory.wf s.mem = true) (x l : Nat) : OutcomeWf (execKEnd x l s) := by
  refine outcomeWf_seqExec w _ _ _ fun r f => ?_
  simp [w]

@[simp] theorem wf_execKSpawn (w : Memory.wf s.mem = true) (x l : Nat) : OutcomeWf (execKSpawn x l s) := by
  refine outcomeWf_seqExec w _ _ _ fun r f => ?_
  split <;> simp [w]

@[simp] theorem wf_execKBr (w : Memory.wf s.mem = true) (x l : Nat) : OutcomeWf (execKBr x l s) := by
  refine outcomeWf_seqExec w _ _ _ fun r f => ?_
  split <;> simp [w]

@[simp] theorem wf_execKAlu (w : Memory.wf s.mem = true) (x l : Nat) : OutcomeWf (execKAlu x l s) := by
  refine outcomeWf_seqExec w _ _ _ fun r f => ?_
  split <;> simp [w]

@[simp] theorem wf_execKAlui (w : Memory.wf s.mem = true) (x l : Nat) : OutcomeWf (execKAlui x l s) := by
  refine outcomeWf_seqExec w _ _ _ fun r f => ?_
  split <;> simp [w]

@[simp] theorem wf_execKMovi (w : Memory.wf s.mem = true) (x l : Nat) : OutcomeWf (execKMovi x l s) := by
  refine outcomeWf_seqExec w _ _ _ fun r f => ?_
  split <;> simp [w]

@[simp] theorem wf_execKCmp (w : Memory.wf s.mem = true) (x l : Nat) : OutcomeWf (execKCmp x l s) := by
  refine outcomeWf_seqExec w _ _ _ fun r f => ?_
  split <;> simp [w]

@[simp] theorem wf_execKLd (w : Memory.wf s.mem = true) (x l : Nat) (ecc : List EccEvent) : OutcomeWf (execKLd x l ecc s) := by
  refine outcomeWf_seqExec w _ _ _ fun r f => ?_
  split <;> simp [w]

@[simp] theorem wf_execKSt (w : Memory.wf s.mem = true) (x l : Nat) : OutcomeWf (execKSt x l s) := by
  refine outcomeWf_seqExec w _ _ _ fun r f => ?_
  split <;> simp [w]

@[simp] theorem wf_execKId (w : Memory.wf s.mem = true) (x l : Nat) : OutcomeWf (execKId x l s) := by
  refine outcomeWf_seqExec w _ _ _ fun r f => ?_
  split <;> simp [w]

@[simp] theorem wf_execKTd (w : Memory.wf s.mem = true) (x l : Nat) : OutcomeWf (execKTd x l s) := by
  refine outcomeWf_seqExec w _ _ _ fun r f => ?_
  split <;> simp [w]

@[simp] theorem wf_execKTcpy (w : Memory.wf s.mem = true) (x l : Nat) : OutcomeWf (execKTcpy x l s) := by
  refine outcomeWf_seqExec w _ _ _ fun r f => ?_
  split <;> simp [w]

@[simp] theorem wf_execKTrd (w : Memory.wf s.mem = true) (x l : Nat) : OutcomeWf (execKTrd x l s) := by
  refine outcomeWf_seqExec w _ _ _ fun r f => ?_
  split <;> simp [w]

@[simp] theorem wf_execKCtxEvent (w : Memory.wf s.mem = true) (x l : Nat) : OutcomeWf (execKCtxEvent x l s) := by
  refine outcomeWf_seqExec w _ _ _ fun r f => ?_
  split <;> simp [w]

@[simp] theorem wf_execKCtxStop (w : Memory.wf s.mem = true) (x l : Nat) : OutcomeWf (execKCtxStop x l s) := by
  refine outcomeWf_seqExec w _ _ _ fun r f => ?_
  split <;> simp [w]

@[simp] theorem wf_execKNop (w : Memory.wf s.mem = true) (x l : Nat) : OutcomeWf (execKNop x l s) := by
  refine outcomeWf_seqExec w _ _ _ fun r f => ?_
  simp [w]

@[simp] theorem wf_execBRd (w : Memory.wf s.mem = true) (x l : Nat) : OutcomeWf (execBRd x l s) := by
  refine outcomeWf_seqExec w _ _ _ fun r f => ?_
  split <;> simp [w]

@[simp] theorem wf_execBAt (w : Memory.wf s.mem = true) (x l : Nat) : OutcomeWf (execBAt x l s) := by simp [execBAt, w]
@[simp] theorem wf_execSliceEnd (w : Memory.wf s.mem = true) (p : Nat) : OutcomeWf (execSliceEnd p s) := by
  unfold execSliceEnd
  dsimp only
  (repeat' split) <;> simp [w]

@[simp] theorem wf_execSliceStart (w : Memory.wf s.mem = true) (p : Nat) : OutcomeWf (execSliceStart p s) := by
  unfold execSliceStart
  split <;> simp [w]

@[simp] theorem wf_execForagerSteal (w : Memory.wf s.mem = true) (x thief : Nat) : OutcomeWf (execForagerSteal x thief s) := by
  unfold execForagerSteal
  dsimp only
  (repeat' split) <;> simp [w]

@[simp] theorem wf_execHeldSpawnRelease (w : Memory.wf s.mem = true) (x l : Nat) : OutcomeWf (execHeldSpawnRelease x l s) := by
  unfold execHeldSpawnRelease
  dsimp only
  (repeat' split) <;> simp [w]

/-! ### Pipeline stages -/

@[simp] theorem wf_execInboundItemCapped (w : Memory.wf s.mem = true) (p : Nat) (forward : Bool) (item : StageItem) :
    OutcomeWf (execInboundItemCapped p forward item s) := by
  unfold execInboundItemCapped
  split <;> simp [w]

@[simp] theorem wf_execOutboundCappedReport (w : Memory.wf s.mem = true) (p j : Nat) (flow : ItemFlow) (report : CapReport) :
    OutcomeWf (execOutboundCappedReport p j flow report s) := by simp [execOutboundCappedReport, w]

@[simp] theorem wf_execForwardAdmission (w : Memory.wf s.mem = true) (p j : Nat) : OutcomeWf (execForwardAdmission p j s) := by
  unfold execForwardAdmission
  split <;> simp [w]

@[simp] theorem wf_execBackwardAdmission (w : Memory.wf s.mem = true) (p j : Nat) : OutcomeWf (execBackwardAdmission p j s) := by
  unfold execBackwardAdmission
  split <;> simp [w]

@[simp] theorem wf_execAccumulateAdmission (w : Memory.wf s.mem = true) (p j : Nat) : OutcomeWf (execAccumulateAdmission p j s) := by
  unfold execAccumulateAdmission
  dsimp only
  (repeat' split) <;> simp [w]

@[simp] theorem wf_execCellHoldLimit (w : Memory.wf s.mem = true) (cell : Nat) : OutcomeWf (execCellHoldLimit cell s) := by
  simp [execCellHoldLimit, w]

/-! ### Checkpoints -/

/-- The definition is opened as a value and `firstOut` made a variable, or the kernel evaluates the accesses to compare the matches. -/
@[simp] theorem wf_execSnapshotDone (w : Memory.wf s.mem = true) (p : Nat) : OutcomeWf (execSnapshotDone p s) := by
  generalize same : execSnapshotDone = row
  delta execSnapshotDone at same
  generalize firstOut = out at same
  subst same
  as_aux_lemma =>
    dsimp only
    split
    · split
      · exact outcomeWf_next.mpr (by rwa [refusePartAccess_mem, setCkpt_mem])
      · rw [outcomeWf_next, setPhase_mem, sendCopy_mem, setCkpt_mem, poisonSlot_mem]
        refine wf_storeBytes ?_ _ _
        rwa [touchSections_mem]
    · exact outcomeWf_next.mpr w

@[simp] theorem wf_execWardCopyArrival (w : Memory.wf s.mem = true) (p gen rank : Nat) (slot : List Byte) (crcOk : Bool) :
    OutcomeWf (execWardCopyArrival p gen rank slot crcOk s) := by simp [execWardCopyArrival, w]

@[simp] theorem wf_execCheckpointAckArrival (w : Memory.wf s.mem = true) (p : Nat) (ack : CopyAck) :
    OutcomeWf (execCheckpointAckArrival p ack s) := by simp [execCheckpointAckArrival, w]

@[simp] theorem wf_execCkpFail (w : Memory.wf s.mem = true) (p cause : Nat) : OutcomeWf (execCkpFail p cause s) := by
  unfold execCkpFail
  dsimp only
  (repeat' split) <;> simp [w]

/-! ### The gradient exchange -/

@[simp] theorem wf_execCollectiveComplete (w : Memory.wf s.mem = true) (slot : Nat) : OutcomeWf (execCollectiveComplete slot s) := by
  unfold execCollectiveComplete
  dsimp only
  (repeat' split) <;> simp [w]

@[simp] theorem wf_execGradientChunkArrival (w : Memory.wf s.mem = true) (p : Nat) (c : GradChunk) :
    OutcomeWf (execGradientChunkArrival p c s) := by
  unfold execGradientChunkArrival
  split <;> simp [w]

@[simp] theorem wf_execHandlerChunkDelivery (w : Memory.wf s.mem = true) (p c : Nat) : OutcomeWf (execHandlerChunkDelivery p c s) := by
  unfold execHandlerChunkDelivery
  dsimp only
  (repeat' split) <;> simp [w]

@[simp] theorem wf_execGrdLate (w : Memory.wf s.mem = true) (p rank round : Nat) : OutcomeWf (execGrdLate p rank round s) := by
  unfold execGrdLate
  dsimp only
  (repeat' split) <;> simp [w]

@[simp] theorem wf_execCommitVoteResult (w : Memory.wf s.mem = true) (p : Nat) (halt rpt nfx due busy : Bool) :
    OutcomeWf (execCommitVoteResult p halt rpt nfx due busy s) := by
  unfold execCommitVoteResult
  split <;> simp [w]

@[simp] theorem wf_execStepEndOrResult (w : Memory.wf s.mem = true) (p : Nat) (orResult : Bool) :
    OutcomeWf (execStepEndOrResult p orResult s) := by simp [execStepEndOrResult, w]

@[simp] theorem wf_execAbortNoticeArrival (w : Memory.wf s.mem = true) (slot gen seq : Nat) (waggle : Bool) (reason : AbortReason) :
    OutcomeWf (execAbortNoticeArrival slot gen seq waggle reason s) := by simp [execAbortNoticeArrival, w]

@[simp] theorem wf_execAbortNaming (w : Memory.wf s.mem = true) (slot rankA : Nat) (sigA : Sig) (rankB : Nat) (sigB : Sig) :
    OutcomeWf (execAbortNaming slot rankA sigA rankB sigB s) := by
  unfold execAbortNaming
  dsimp only
  (repeat' split) <;> simp [w]

@[simp] theorem wf_execColTimeout (w : Memory.wf s.mem = true) (slot awaited stage : Nat) :
    OutcomeWf (execColTimeout slot awaited stage s) := by
  unfold execColTimeout
  dsimp only
  (repeat' split) <;> simp [w]

@[simp] theorem wf_execWaggleTimeout (w : Memory.wf s.mem = true) (p : Nat) : OutcomeWf (execWaggleTimeout p s) := by
  unfold execWaggleTimeout
  have named (l : List Nat) : Memory.wf (l.foldl expireNaming s).mem = true := wf_foldl (fun _ k w => wf_expireNaming w k) _ _ w
  simp only
  split
  · exact outcomeWf_next.mpr (named _)
  · split
    · exact outcomeWf_next.mpr (wf_expireDev (named _) _ _)
    · exact outcomeWf_next.mpr (named _)

/-! ### Lost ranks -/

@[simp] theorem wf_execLossNoticeArrival (w : Memory.wf s.mem = true) (x : Nat) (ranks : List Nat) (takeover : Bool) :
    OutcomeWf (execLossNoticeArrival x ranks takeover s) := by simp [execLossNoticeArrival, w]

@[simp] theorem wf_execCkpCmdDeclare (w : Memory.wf s.mem = true) (p rank : Nat) : OutcomeWf (execCkpCmdDeclare p rank s) := by
  simp [execCkpCmdDeclare, w]

@[simp] theorem wf_execCkpCmdTakeover (w : Memory.wf s.mem = true) (p : Nat) : OutcomeWf (execCkpCmdTakeover p s) := by
  simp [execCkpCmdTakeover, w]

/-! ### Fabric ports -/

@[simp] theorem wf_execConfirmRequestArrival (w : Memory.wf s.mem = true) (port : Nat) :
    OutcomeWf (execConfirmRequestArrival port s) := by simp [execConfirmRequestArrival, w]

@[simp] theorem wf_execConfirmAnswerArrival (w : Memory.wf s.mem = true) (port lseq : Nat) :
    OutcomeWf (execConfirmAnswerArrival port lseq s) := by simp [execConfirmAnswerArrival, w]

@[simp] theorem wf_execConfirmTimeout (w : Memory.wf s.mem = true) (port : Nat) : OutcomeWf (execConfirmTimeout port s) := by
  unfold execConfirmTimeout
  dsimp only
  (repeat' split) <;> simp [w]

@[simp] theorem wf_execEscapeWaitExpiry (w : Memory.wf s.mem = true) (port pkt : Nat) : OutcomeWf (execEscapeWaitExpiry port pkt s) := by
  simp [execEscapeWaitExpiry, w]

@[simp] theorem wf_execLaneFailure (w : Memory.wf s.mem = true) (port lane cause codewords : Nat) :
    OutcomeWf (execLaneFailure port lane cause codewords s) := by simp [execLaneFailure, w]

@[simp] theorem wf_execLaserSourceFailure (w : Memory.wf s.mem = true) (engine source microwatts : Nat) :
    OutcomeWf (execLaserSourceFailure engine source microwatts s) := by simp [execLaserSourceFailure, w]

@[simp] theorem wf_execPortTrainingDone (w : Memory.wf s.mem = true) (port : Nat) (t : TrainResult) :
    OutcomeWf (execPortTrainingDone port t s) := by
  unfold execPortTrainingDone
  dsimp only
  (repeat' split) <;> simp [w]

@[simp] theorem wf_execReceiveDarkTimeout (w : Memory.wf s.mem = true) (port : Nat) : OutcomeWf (execReceiveDarkTimeout port s) := by
  simp [execReceiveDarkTimeout, w]

@[simp] theorem wf_execLightDetected (w : Memory.wf s.mem = true) (port : Nat) : OutcomeWf (execLightDetected port s) := by
  simp [execLightDetected, w]

@[simp] theorem wf_execFabPctlRetrain (w : Memory.wf s.mem = true) (port : Nat) : OutcomeWf (execFabPctlRetrain port s) := by
  simp [execFabPctlRetrain, w]

@[simp] theorem wf_execFabCmdStart (w : Memory.wf s.mem = true) : OutcomeWf (execFabCmdStart s) := by simp [execFabCmdStart, w]

/-! ### The fabric -/

@[simp] theorem wf_execLinkUnitReceive (w : Memory.wf s.mem = true) (port : Nat) (u : LinkUnit) :
    OutcomeWf (execLinkUnitReceive port u s) := by
  unfold execLinkUnitReceive
  dsimp only
  (repeat' split) <;> simp [w]

@[simp] theorem wf_execSwarmLinksEnd (w : Memory.wf s.mem = true) (elapsedMs : Nat) : OutcomeWf (execSwarmLinksEnd elapsedMs s) := by
  simp [execSwarmLinksEnd, w]

@[simp] theorem wf_execSwarmElectQuiet (w : Memory.wf s.mem = true) (ports roots distances : List Nat) (quietBeats : Nat) :
    OutcomeWf (execSwarmElectQuiet ports roots distances quietBeats s) := by
  unfold execSwarmElectQuiet
  dsimp only
  (repeat' split) <;> simp [w]

@[simp] theorem wf_execSwarmCensusDone (w : Memory.wf s.mem = true) (nodes : List (Nat × Option Nat)) (links : List SwarmLink) :
    OutcomeWf (execSwarmCensusDone nodes links s) := by simp [execSwarmCensusDone, w]

@[simp] theorem wf_execSwarmAssignDone (w : Memory.wf s.mem = true) (nodes : List SwarmNode) (links : List SwarmLink) :
    OutcomeWf (execSwarmAssignDone nodes links s) := by simp [execSwarmAssignDone, w]

@[simp] theorem wf_execEpochSwitch (w : Memory.wf s.mem = true) (vc : Nat) : OutcomeWf (execEpochSwitch vc s) := by
  simp [execEpochSwitch, w]

/-! ### Clocks -/

@[simp] theorem wf_execPllLossOfLock (w : Memory.wf s.mem = true) (dom : Nat) : OutcomeWf (execPllLossOfLock dom s) := by
  simp [execPllLossOfLock, w]

@[simp] theorem wf_execClkUnlock (w : Memory.wf s.mem = true) (dom : Nat) : OutcomeWf (execClkUnlock dom s) := by simp [execClkUnlock, w]
@[simp] theorem wf_execPllRelock (w : Memory.wf s.mem = true) (dom : Nat) : OutcomeWf (execPllRelock dom s) := by simp [execPllRelock, w]
@[simp] theorem wf_execClockStageLocked (w : Memory.wf s.mem = true) (stage : Nat) (khz : List (Nat × Nat)) :
    OutcomeWf (execClockStageLocked stage khz s) := by simp [execClockStageLocked, w]

/-! ### Power -/

@[simp] theorem wf_execVcoreDroop (w : Memory.wf s.mem = true) (die mv : Nat) : OutcomeWf (execVcoreDroop die mv s) := by
  simp [execVcoreDroop, w]

@[simp] theorem wf_execDroopPauseEnd (w : Memory.wf s.mem = true) (die : Nat) : OutcomeWf (execDroopPauseEnd die s) := by
  simp [execDroopPauseEnd, w]

@[simp] theorem wf_execTelemetrySample (w : Memory.wf s.mem = true) (t : TelemetrySample) : OutcomeWf (execTelemetrySample t s) := by
  simp [execTelemetrySample, w]

@[simp] theorem wf_execPwrCmdAvsRetry (w : Memory.wf s.mem = true) : OutcomeWf (execPwrCmdAvsRetry s) := by simp [execPwrCmdAvsRetry, w]
@[simp] theorem wf_execPwrCmdSensorRetry (w : Memory.wf s.mem = true) : OutcomeWf (execPwrCmdSensorRetry s) := by
  simp [execPwrCmdSensorRetry, w]

@[simp] theorem wf_execRailOutOfTolerance (w : Memory.wf s.mem = true) (rail mv since : Nat) :
    OutcomeWf (execRailOutOfTolerance rail mv since s) := by simp [execRailOutOfTolerance, w]

@[simp] theorem wf_execThermtrip (w : Memory.wf s.mem = true) (die : Nat) : OutcomeWf (execThermtrip die s) := by
  unfold execThermtrip
  simp only
  split
  · exact outcomeWf_next.mpr w
  · rw [outcomeWf_next, emit_mem, foldl_mem fun s e => by simp only [setFld_mem], foldl_mem darken_mem, foldl_mem haltEngines_mem]
    exact w

/-! ### The Hum -/

@[simp] theorem wf_execHumInputFault (w : Memory.wf s.mem = true) (src cause : Nat) (ppb : ℤ) (seen : FaultSeen) :
    OutcomeWf (execHumInputFault src cause ppb seen s) := by simp [execHumInputFault, w]

@[simp] theorem wf_execHumSourceHealthy (w : Memory.wf s.mem = true) (src cleanBeats : Nat) :
    OutcomeWf (execHumSourceHealthy src cleanBeats s) := by simp [execHumSourceHealthy, w]

@[simp] theorem wf_execHumPpsEdge (w : Memory.wf s.mem = true) (offsetNs : ℤ) : OutcomeWf (execHumPpsEdge offsetNs s) := by
  simp [execHumPpsEdge, w]

@[simp] theorem wf_execHumSetWrite (w : Memory.wf s.mem = true) (v : Word) : OutcomeWf (execHumSetWrite v s) := by simp [execHumSetWrite, w]
@[simp] theorem wf_execPtpMessageArrival (w : Memory.wf s.mem = true) (domain : Nat) (time : PtpTime) :
    OutcomeWf (execPtpMessageArrival domain time s) := by simp [execPtpMessageArrival, w]

@[simp] theorem wf_execHumCellArrival (w : Memory.wf s.mem = true) (masterUid port hops : Nat) (beat : Word) (offsetNs : ℤ) :
    OutcomeWf (execHumCellArrival masterUid port hops beat offsetNs s) := by
  unfold execHumCellArrival
  dsimp only
  (repeat' split) <;> simp [w]

@[simp] theorem wf_execHumPathMeasure (w : Memory.wf s.mem = true) (port roundTripNs turnaroundNs : Nat) :
    OutcomeWf (execHumPathMeasure port roundTripNs turnaroundNs s) := by simp [execHumPathMeasure, w]

@[simp] theorem wf_execBeatTick (w : Memory.wf s.mem = true) (b : BeatInputs) : OutcomeWf (execBeatTick b s) := by simp [execBeatTick, w]

/-! ### Sessions -/

@[simp] theorem wf_execEvent (w : Memory.wf s.mem = true) : OutcomeWf (execEvent s) := by simp [execEvent, w]
@[simp] theorem wf_execYlpIdleTimeout (w : Memory.wf s.mem = true) (sess : Nat) : OutcomeWf (execYlpIdleTimeout sess s) := by
  unfold execYlpIdleTimeout
  split <;> simp [w]

@[simp] theorem wf_execYlpRetransmitTimeout (w : Memory.wf s.mem = true) (sess seq : Nat) :
    OutcomeWf (execYlpRetransmitTimeout sess seq s) := by
  unfold execYlpRetransmitTimeout
  dsimp only
  (repeat' split) <;> simp [w]

/-! ### Takeovers -/

@[simp] theorem wf_execTakeoverAgreementResult (w : Memory.wf s.mem = true) (x : Nat) (step : TakeoverStep) (result : Nat) :
    OutcomeWf (execTakeoverAgreementResult x step result s) := by
  unfold execTakeoverAgreementResult
  dsimp only
  (repeat' split) <;> simp [w]

@[simp] theorem wf_execCkpDroneTakeover (w : Memory.wf s.mem = true) (x rank oldAddr newAddr : Nat) (slot : List Byte) (read : DroneRead) :
    OutcomeWf (execCkpDroneTakeover x rank oldAddr newAddr slot read s) := by
  unfold execCkpDroneTakeover
  obtain ⟨mans, args, failed⟩ := read
  simp only
  split
  · simp [w]
  · split
    · simp [w]
    · split
      · simp [w]
      · split
        · split
          · simp [w]
          · split
            · next u _ loaded => simp [wf_droneLoad w rank slot mans (congrArg Prod.fst loaded)]
            · next u loaded =>
              have kept := wf_droneLoad_failed w rank slot mans
              rw [loaded] at kept
              simp [kept]
        · split <;> simp [w]

@[simp] theorem wf_execRollbackRestore (w : Memory.wf s.mem = true) (p : Nat) : OutcomeWf (execRollbackRestore p s) := by
  unfold execRollbackRestore
  dsimp only
  split
  · exact outcomeWf_next.mpr w
  · split
    · exact outcomeWf_next.mpr w
    · refine outcomeWf_next.mpr (wf_resumeGather ?_ p)
      dsimp only
      rw [recopy_mem, rolledBack_mem, setPhase_mem]
      refine wf_restoreSlot ?_ _ _
      rwa [foldl_mem clearCtx_mem, discardStage_mem]

@[simp] theorem wf_execParameterGatherComplete (w : Memory.wf s.mem = true) (p : Nat) :
    OutcomeWf (execParameterGatherComplete p s) := by
  unfold execParameterGatherComplete
  split
  · next u done => exact outcomeWf_next.mpr (wf_finishResume (wf_gatherDone w done) p)
  · exact outcomeWf_next.mpr (wf_finishIdle w p)

@[simp] theorem wf_execSwarmRoutesDone (w : Memory.wf s.mem = true) : OutcomeWf (execSwarmRoutesDone s) := by simp [execSwarmRoutesDone, w]
@[simp] theorem wf_execKprWatchdog (w : Memory.wf s.mem = true) (pc activity : Nat) : OutcomeWf (execKprWatchdog pc activity s) := by
  unfold execKprWatchdog
  dsimp only
  (repeat' split) <;> simp [w]

@[simp] theorem wf_execKeeperRestartDone (w : Memory.wf s.mem = true) : OutcomeWf (execKeeperRestartDone s) := by
  unfold execKeeperRestartDone
  split <;> simp [w]

/-! ### Serving -/

@[simp] theorem wf_execSrvDeadlineMiss (w : Memory.wf s.mem = true) (entry : Nat) : OutcomeWf (execSrvDeadlineMiss entry s) := by
  simp [execSrvDeadlineMiss, w]

@[simp] theorem wf_execWindowOpen (w : Memory.wf s.mem = true) (p : Nat) : OutcomeWf (execWindowOpen p s) := by
  unfold execWindowOpen
  split
  · exact outcomeWf_next.mpr w
  · next x _ =>
    split
    · exact outcomeWf_next.mpr w
    · have opened (l : List BatchRow) : Memory.wf (noteOpening (l.foldl (fun s r => match getStream s r.entry with
          | some v => touch s r.entry { v with st := 3, flying := true }
          | none => s) (boundary s x p)) p).mem = true := by
        rw [noteOpening_mem]
        refine wf_foldl (fun s r w => ?_) _ _ (wf_boundary w x p)
        split
        · rwa [touch_mem]
        · exact w
      rw [outcomeWf_next, poolSync_mem]
      refine wf_admitWindow ?_ _ _ _ _ _
      split
      · rw [emit_mem]
        exact opened _
      · exact opened _

@[simp] theorem wf_execWindowItemArrival (v : Memory.wf s.mem = true) (p w : Nat) (rows : List BatchRow) :
    OutcomeWf (execWindowItemArrival p w rows s) := by
  unfold execWindowItemArrival
  split
  · exact outcomeWf_next.mpr v
  · split
    · exact outcomeWf_next.mpr v
    · refine outcomeWf_next.mpr (wf_runStage ?_ _ _)
      rw [mem_ite, emit_mem, ite_self]
      exact v

@[simp] theorem wf_execModelLoadComplete (w : Memory.wf s.mem = true) (m : Nat) : OutcomeWf (execModelLoadComplete m s) := by
  unfold execModelLoadComplete
  dsimp only
  (repeat' split) <;> simp [w]

@[simp] theorem wf_execWindowClose (w : Memory.wf s.mem = true) (p : Nat) (back : WindowReturn) : OutcomeWf (execWindowClose p back s) := by
  unfold execWindowClose
  dsimp only
  (repeat' split) <;> simp [w]

/-! ### Ends of tasks -/

@[simp] theorem wf_execTaskEndComplete (w : Memory.wf s.mem = true) (x l : Nat) : OutcomeWf (execTaskEndComplete x l s) := by
  unfold execTaskEndComplete
  split <;> simp [w]

/-! ### Trust -/

@[simp] theorem wf_execImageVerificationDone (w : Memory.wf s.mem = true) : OutcomeWf (execImageVerificationDone s) := by
  unfold execImageVerificationDone
  dsimp only
  (repeat' split) <;> simp [w]

/-! ### The host link -/

@[simp] theorem wf_execEthLinkDown (w : Memory.wf s.mem = true) (cause : Nat) (report : LaneReport) :
    OutcomeWf (execEthLinkDown cause report s) := by simp [execEthLinkDown, w]

@[simp] theorem wf_execEthModeTimeout (w : Memory.wf s.mem = true) : OutcomeWf (execEthModeTimeout s) := by simp [execEthModeTimeout, w]
@[simp] theorem wf_execEthLinkUp (w : Memory.wf s.mem = true) : OutcomeWf (execEthLinkUp s) := by simp [execEthLinkUp, w]
@[simp] theorem wf_execEthFallback400g (w : Memory.wf s.mem = true) (group lanesFailed : Nat) :
    OutcomeWf (execEthFallback400g group lanesFailed s) := by simp [execEthFallback400g, w]

@[simp] theorem wf_execEthCmdRetrain (w : Memory.wf s.mem = true) : OutcomeWf (execEthCmdRetrain s) := by simp [execEthCmdRetrain, w]
@[simp] theorem wf_execEthSecEnableWrite (w : Memory.wf s.mem = true) (on : Bool) : OutcomeWf (execEthSecEnableWrite on s) := by
  simp [execEthSecEnableWrite, w]

@[simp] theorem wf_execHello (w : Memory.wf s.mem = true) : OutcomeWf (execHello s) := by simp [execHello, w]
@[simp] theorem wf_execDiscover (w : Memory.wf s.mem = true) (tag : Nat) : OutcomeWf (execDiscover tag s) := by simp [execDiscover, w]

/-! ### Memory units -/

@[simp] theorem wf_execHbmRowRepair (w : Memory.wf s.mem = true) (e : Nat) (resource : Bool) :
    OutcomeWf (execHbmRowRepair e resource s) := by
  unfold execHbmRowRepair
  dsimp only
  split
  · split
    · rw [outcomeWf_next, setFld_mem]
      exact wf_writeBytes w _ _
    · exact outcomeWf_next.mpr w
  · exact outcomeWf_next.mpr w

@[simp] theorem wf_execPatrolScrubRead (w : Memory.wf s.mem = true) (ecc : EccEvent) : OutcomeWf (execPatrolScrubRead ecc s) := by
  simp [execPatrolScrubRead, w]

@[simp] theorem wf_execCmbFlush (w : Memory.wf s.mem = true) (mask : Nat) : OutcomeWf (execCmbFlush mask s) := by simp [execCmbFlush, w]
@[simp] theorem wf_execCmbFlushDone (w : Memory.wf s.mem = true) (p : Nat) : OutcomeWf (execCmbFlushDone p s) := by
  simp [execCmbFlushDone, w]

/-! ### Register writes -/

@[simp] theorem wf_execErrorRecordArrival (w : Memory.wf s.mem = true) : OutcomeWf (execErrorRecordArrival s) := by
  unfold execErrorRecordArrival
  split <;> simp [w]

/-! ### Host operations -/

@[simp] theorem wf_execOpenSess (w : Memory.wf s.mem = true) (addr port : Nat) (secured : Bool) (tag : Nat) :
    OutcomeWf (execOpenSess addr port secured tag s) := by simp [execOpenSess, w]

/-! ### Boot -/

@[simp] theorem wf_execSelfTestDone (w : Memory.wf s.mem = true) (cores : List CoreTest) : OutcomeWf (execSelfTestDone cores s) := by
  simp [execSelfTestDone, w]

@[simp] theorem wf_execMemoryTrainingDone (w : Memory.wf s.mem = true) (trained : Nat) :
    OutcomeWf (execMemoryTrainingDone trained s) := by simp [execMemoryTrainingDone, w]

@[simp] theorem wf_execI3cSetdasa (w : Memory.wf s.mem = true) (addr : Nat) : OutcomeWf (execI3cSetdasa addr s) := by
  simp [execI3cSetdasa, w]

@[simp] theorem wf_execI3cEntdaa (w : Memory.wf s.mem = true) (addr : Nat) : OutcomeWf (execI3cEntdaa addr s) := by simp [execI3cEntdaa, w]
@[simp] theorem wf_execI3cRecoveryData (w : Memory.wf s.mem = true) (data : List Byte) : OutcomeWf (execI3cRecoveryData data s) := by
  simp [execI3cRecoveryData, w]

@[simp] theorem wf_execI3cDiscardStaged (w : Memory.wf s.mem = true) : OutcomeWf (execI3cDiscardStaged s) := by
  simp [execI3cDiscardStaged, w]

@[simp] theorem wf_execI3cBootGo (w : Memory.wf s.mem = true) : OutcomeWf (execI3cBootGo s) := by simp [execI3cBootGo, w]
@[simp] theorem wf_execResetNFall (w : Memory.wf s.mem = true) : OutcomeWf (execResetNFall s) := by
  unfold execResetNFall
  rw [outcomeWf_next]
  split
  · rw [deviceReset_mem]
    rfl
  · exact w

@[simp] theorem wf_execPwrOkFall (railLost : Bool) : OutcomeWf (execPwrOkFall railLost s) := by
  unfold execPwrOkFall
  rw [outcomeWf_next]
  dsimp only
  rw [deviceReset_mem]
  rfl

@[simp] theorem wf_execResetRelease (w : Memory.wf s.mem = true) (bootMode : Nat) : OutcomeWf (execResetRelease bootMode s) := by
  simp [execResetRelease, w]

@[simp] theorem wf_execJtagInstruction (w : Memory.wf s.mem = true) (ir : Nat) (dr : List Byte) : OutcomeWf
    (execJtagInstruction ir dr s) := by
  unfold execJtagInstruction
  split
  · rw [outcomeWf_next, emit_mem]
    exact w
  · split
    · rw [outcomeWf_next, emit_mem, openChallenge_mem]
      exact w
    · exact outcomeWf_next.mpr w
  · rw [outcomeWf_next, debugResponse_mem]
    exact w
  · exact outcomeWf_next.mpr w

/-! ### FIFOs between clock domains -/

@[simp] theorem wf_execCdcPtrMismatch (w : Memory.wf s.mem = true) (fifo cls items : Nat) (loss : CdcLoss) :
    OutcomeWf (execCdcPtrMismatch fifo cls items loss s) := by simp [execCdcPtrMismatch, w]

@[simp] theorem wf_execCdcGap (w : Memory.wf s.mem = true) (fifo : Nat) (fresh errPath : Bool) :
    OutcomeWf (execCdcGap fifo fresh errPath s) := by simp [execCdcGap, w]

end Sys2Proof.Machine
end

section
/-! Register writes, which may have the effect of a command, and what the host sends: they keep memory in its canonical form. -/

namespace Sys2Proof.Machine

variable {s : State}

/-! ### Register writes -/

/-- A bit of a command register has its row's effect when it is set. -/
theorem wf_effectIf (w : Memory.wf s.mem = true) {o : Host.Outcome State Fault Refusal} (h : OutcomeWf o) (c : Bool) :
    Memory.wf (if c then effectOf s o else s).mem = true := by
  split
  · exact wf_effectOf w h
  · exact w

@[simp] theorem wf_writeActions (w : Memory.wf s.mem = true) (a : Nat) (v : Word) : Memory.wf (writeActions s a v).mem = true := by
  unfold writeActions
  split
  · exact wf_effectOf w (wf_execHumSetWrite w v)
  split
  · have retried := wf_effectIf w (wf_execPwrCmdAvsRetry w) (bitOf 0 v)
    exact wf_effectIf retried (wf_execPwrCmdSensorRetry retried) _
  split
  · split <;> simp [w]
  split
  · exact wf_effectIf w (wf_execFabCmdStart w) _
  split
  · simp [w]
  split
  · have declared := wf_effectIf w (wf_execCkpCmdDeclare w (bitsOf 4 2 v) (bitsOf 18 5 v)) (bitOf 0 v)
    exact wf_effectIf declared (wf_execCkpCmdTakeover declared _) _
  split
  · exact wf_effectIf w (wf_execFabPctlRetrain w _) _
  · exact w

@[simp] theorem wf_writeReg (w : Memory.wf s.mem = true) (a : Nat) (mask value : Word) :
    Memory.wf (writeReg s a mask value).mem = true := by
  unfold writeReg
  split <;> simp [w]

@[simp] theorem wf_execRegisterWrite (w : Memory.wf s.mem = true) (addr : Nat) (mask value : Word) :
    OutcomeWf (execRegisterWrite addr mask value s) := by simp [execRegisterWrite, w]

@[simp] theorem wf_execSelectorWrite (w : Memory.wf s.mem = true) (addr : Nat) (v : Word) : OutcomeWf (execSelectorWrite addr v s) := by
  simp [execSelectorWrite, w]

@[simp] theorem wf_execErrLogRdWrite (w : Memory.wf s.mem = true) (v : Nat) : OutcomeWf (execErrLogRdWrite v s) := by
  simp [execErrLogRdWrite, w]

/-! ### Host operations -/

/-- By the list, for the kernel compares two spellings of one `writeReg` by evaluating it. -/
theorem wf_writeRegs (w : Memory.wf s.mem = true) (es : List RegEntry) :
    Memory.wf (es.foldl (fun s e => writeReg s (e.addr - windowBase) e.mask e.value) s).mem = true := by
  induction es generalizing s with
  | nil => exact w
  | cons e es ih =>
    rw [List.foldl_cons]
    exact ih (wf_writeReg w _ _ _)

@[simp] theorem wf_regWrReq (w : Memory.wf s.mem = true) (es : List RegEntry) : Memory.wf (regWrReq s es).1.mem = true := by
  unfold regWrReq
  split
  · simp [w]
  · split
    · simp [w]
    · rw [okay_mem]
      exact wf_writeRegs w es

@[simp] theorem wf_runReq (w : Memory.wf s.mem = true) (sess tag : Nat) (r : HostReq) : Memory.wf (runReq s sess tag r).1.mem = true := by
  unfold runReq
  split <;> simp [w]

@[simp] theorem wf_hostExec (w : Memory.wf s.mem = true) (sess tag : Nat) (r : HostReq) :
    Memory.wf (hostExec s sess tag r).1.mem = true := by
  unfold hostExec
  split <;> simp [w]

@[simp] theorem wf_hostRow (w : Memory.wf s.mem = true) (sess tag : Nat) (r : HostReq) : OutcomeWf (hostRow s sess tag r) := by
  simp [hostRow, w]

/-! ### Delivery -/

@[simp] theorem wf_deliver (w : Memory.wf s.mem = true) (v : Sess) (m : YlpMsg) : Memory.wf (deliver s v m).mem = true := by
  unfold deliver
  dsimp only
  (repeat' split) <;> simp [w]

@[simp] theorem wf_inSession (w : Memory.wf s.mem = true) (m : YlpMsg) : Memory.wf (inSession s m).mem = true := by
  unfold inSession
  dsimp only
  (repeat' split) <;> simp [w]

@[simp] theorem wf_receiveMsg (w : Memory.wf s.mem = true) (sec : Option Bool) (m : YlpMsg) :
    Memory.wf (receiveMsg s sec m).mem = true := by simp [receiveMsg, w]

@[simp] theorem wf_execYlpMessageReceive (w : Memory.wf s.mem = true) (m : YlpMsg) : OutcomeWf (execYlpMessageReceive m s) := by
  simp [execYlpMessageReceive, w]

@[simp] theorem wf_execEthFrameReceive (w : Memory.wf s.mem = true) (f : EthFrame) : OutcomeWf (execEthFrameReceive f s) := by
  unfold execEthFrameReceive
  split <;> simp [w]

end Sys2Proof.Machine
end

section
/-! Every step keeps memory in its canonical form (R136). -/

namespace Sys2Proof.Machine

/-- One lemma for each command, or one for the function that several commands share. -/
theorem wf_exec {s : State} (w : Memory.wf s.mem = true) (i : Instr) : OutcomeWf (exec i s) := by
  cases i <;> simp [exec, w, execVAdd, execVSub, execVMul, execVDiv, execVFma, execVMax, execVMin, execVAdds, execVMuls, execVAxpy,
      execVSqrt, execVRsqrt,
    execVExp, execVLog, execVSilu, execVCvt, execVRed, execCloseSess, execRegRd, execRegWr, execMemRd, execMemWr, execUpload,
    execBootGo, execCfgApply, execCtxLoad, execCtxLaunch, execCtxStop, execCtxResume, execCtxUnload, execCtxSave, execCtxRestore,
    execCtxHandles, execDoorbell, execRingSend, execEvents, execInput, execJoin, execCancel, execModel, execAttest,
    execKeyInstall, execPrpRevoke, execPrpSvnCommit, execPrpDebugChallenge, execPrpDebugResponse]

/-- Settles O3: memory changes in `writeBytes`, `copyMem` and a reset only, and each leaves it in canonical form. -/
theorem stepKeepsMemoryCanonical : Obligations.StepKeepsMemoryCanonical := by
  unfold Obligations.StepKeepsMemoryCanonical
  intro s t ok stepped
  unfold step at stepped
  split at stepped
  · cases stepped
    exact ok
  · next c cs _ => exact wf_exec (s := { s with pending := cs }) ok c t stepped

end Sys2Proof.Machine
end

section
/-! What the accesses of an instruction meet (R151, R155 to R159, R164): the counts of memory errors, the poison that they leave, and the
registers that they touch. -/

namespace Sys2Proof.Machine

/-! ### Poison (R155) -/

/-- Nothing loses its poison. -/
def PoisonKept (s t : State) : Prop := ∀ a n, poisoned s a n = true → poisoned t a n = true

theorem poisoned_iff (s : State) (a n : Nat) :
    poisoned s a n = true ↔ ∃ u, (u, true) ∈ s.poison ∧ u * 64 < a + n ∧ a < u * 64 + 64 := by
  have any : poisoned s a n = s.poison.any (fun e => e.2 && decide (e.1 * 64 < a + n) && decide (a < e.1 * 64 + 64)) := by
    unfold poisoned
    cases s.poison <;> rfl
  rw [any, List.any_eq_true]
  constructor
  · rintro ⟨⟨u, b⟩, mem, reach⟩
    simp only [Bool.and_eq_true, decide_eq_true_eq] at reach
    obtain ⟨⟨rfl, lo⟩, hi⟩ := reach
    exact ⟨u, mem, lo, hi⟩
  · rintro ⟨u, mem, lo, hi⟩
    exact ⟨(u, true), mem, by simp [lo, hi]⟩

theorem PoisonKept.trans {s t u : State} (h : PoisonKept s t) (k : PoisonKept t u) : PoisonKept s u := fun a n p => k a n (h a n p)

theorem poisonKept_of_eq {s t : State} (h : t.poison = s.poison) : PoisonKept s t := fun a n p => (poisoned_congr h a n).trans p

/-- What a write at one key leaves at another stays an entry, and so does what it writes. -/
theorem Sparse.mem_set_true (m : List (Nat × Bool)) (k : Nat) {u : Nat} (h : u = k ∨ (u, true) ∈ m) :
    (u, true) ∈ Sparse.set false m k true := by
  have inserted (l : List (Nat × Bool)) {e : Nat × Bool} (h : e = (k, true) ∨ e ∈ l) : e ∈ Sparse.insert k true l := by
    induction l with
    | nil => simpa [Sparse.insert] using h
    | cons f l ih =>
      by_cases hk : k < f.1
      · simpa [Sparse.insert, hk] using h
      · have rest : e = f ∨ e ∈ Sparse.insert k true l := by
          rcases h with h | h
          · exact .inr (ih (.inl h))
          · exact (List.mem_cons.mp h).imp id fun h => ih (.inr h)
        simpa [Sparse.insert, hk] using rest
  have kept (l : List (Nat × Bool)) (ne : u ≠ k) (h : (u, true) ∈ l) : (u, true) ∈ Sparse.erase k l := by
    induction l with
    | nil => simp at h
    | cons f l ih =>
      by_cases hf : f.1 = k
      · rcases List.mem_cons.mp h with rfl | h
        · exact absurd hf ne
        · simpa [Sparse.erase, hf] using ih h
      · rcases List.mem_cons.mp h with rfl | h
        · simp [Sparse.erase, ne]
        · simpa [Sparse.erase, hf] using .inr (ih h)
  by_cases hu : u = k
  · exact inserted _ (.inl (by rw [hu]))
  · exact inserted _ (.inr (kept m hu (h.resolve_left hu)))

theorem poisonKept_poisonUnit (s : State) (a : Nat) : PoisonKept s (poisonUnit s a) := by
  intro b n h
  obtain ⟨u, mem, reach⟩ := (poisoned_iff ..).mp h
  exact (poisoned_iff ..).mpr ⟨u, Sparse.mem_set_true _ _ (.inr mem), reach⟩

/-- The unit that becomes poisoned is poisoned, and so is every extent with a byte of it. -/
theorem poisoned_poisonUnit (s : State) {a b n : Nat} (lo : a / 64 * 64 < b + n) (hi : b < a / 64 * 64 + 64) :
    poisoned (poisonUnit s a) b n = true :=
  (poisoned_iff ..).mpr ⟨a / 64, Sparse.mem_set_true _ _ (.inl rfl), lo, hi⟩

/-! ### The registers of the memory errors (R157, R158) -/

/-- The repair list. -/
def pprRegs : List Nat := (List.range 64).map Reg.MEM_PPR_LIST

/-- The registers that a memory error can change: the two counts and the repair list. -/
def eccRegs : List Nat := [Reg.MEM_ECC_CORR, Reg.MEM_ECC_UNCORR] ++ pprRegs

theorem mem_pprRegs {e : Nat} (h : e < 64) : Reg.MEM_PPR_LIST e ∈ pprRegs := List.mem_map.mpr ⟨e, List.mem_range.mpr h, rfl⟩

theorem sameRegsBut_of_regs {s t : State} (h : t.regs = s.regs) (l : List Nat) : SameRegsBut s t l := fun a _ => rd_congr h a

theorem sameRegsBut_listRow (s : State) (pc rowBank : Nat) (uncorr : Bool) : SameRegsBut s (listRow s pc rowBank uncorr) pprRegs := by
  unfold listRow
  extract_lets row bank same
  split
  · exact sameRegsBut_refl s _
  · split
    · exact sameRegsBut_refl s _
    · next e _ free =>
      have low : e < 64 := by
        have : e ∈ selectBelow 64 (fun e => !flg s (Reg.MEM_PPR_LIST e) Fld.MEM_PPR_LIST_VALID) := by simp [free]
        exact List.mem_range.mp (List.mem_of_mem_filter this)
      exact fun a ha => rd_wr_other s _ fun is => ha (is ▸ mem_pprRegs low)

theorem sameRegsBut_eccCorrected (s : State) (u : CorrUnit) : SameRegsBut s (eccCorrected s u) [Reg.MEM_ECC_CORR] := by
  have counted := sameRegsBut_bump { s with lastCorr := u } Reg.MEM_ECC_CORR Fld.MEM_ECC_CORR_COUNT 1
  unfold eccCorrected
  dsimp only
  split
  · exact fun a ha => counted a ha
  · exact fun a ha => counted a ha

theorem sameRegsBut_eccUncorrectable (s : State) (h : Nat) (u : CorrUnit) :
    SameRegsBut s (eccUncorrectable s h u) [Reg.MEM_ECC_UNCORR] :=
  fun a ha => sameRegsBut_bump s Reg.MEM_ECC_UNCORR Fld.MEM_ECC_UNCORR_COUNT 1 a ha

theorem sameRegsBut_memCorrected (s : State) (e : EccEvent) : SameRegsBut s (memCorrected s e) (Reg.MEM_ECC_CORR :: pprRegs) := by
  have counted : SameRegsBut s (eccCorrected s (memUnit s e)) (Reg.MEM_ECC_CORR :: pprRegs) :=
    fun a ha => sameRegsBut_eccCorrected s _ a (by simp_all)
  unfold memCorrected
  extract_lets t key n t'
  split
  · split
    · exact counted.and_then fun a ha => sameRegsBut_listRow t' _ _ _ a fun h => ha (List.mem_cons_of_mem _ h)
    · exact counted
  · exact counted

theorem sameRegsBut_memUncorrectable (s : State) (h : Nat) (e : EccEvent) :
    SameRegsBut s (memUncorrectable s h e) (Reg.MEM_ECC_UNCORR :: pprRegs) := by
  have counted : SameRegsBut s (eccUncorrectable s h (memUnit s e)) (Reg.MEM_ECC_UNCORR :: pprRegs) :=
    fun a ha => sameRegsBut_eccUncorrectable s h _ a (by simp_all)
  unfold memUncorrectable
  dsimp only
  split
  · exact counted.and_then fun a ha => sameRegsBut_listRow _ _ _ _ a fun h => ha (List.mem_cons_of_mem _ h)
  · exact counted

theorem sameRegsBut_eccMemory (h : Nat) (s : State) (e : EccEvent) : SameRegsBut s (eccMemory h s e) eccRegs := by
  have corrected : SameRegsBut s (memCorrected s e) eccRegs :=
    fun a ha => sameRegsBut_memCorrected s e a (by simp_all [eccRegs])
  have uncorrectable : SameRegsBut s (memUncorrectable s h e) eccRegs :=
    fun a ha => sameRegsBut_memUncorrectable s h e a (by simp_all [eccRegs])
  unfold eccMemory
  dsimp only
  split
  · split
    · exact corrected
    · exact sameRegsBut_refl s _
  · split
    · exact sameRegsBut_refl s _
    · exact uncorrectable
  · split
    · exact uncorrectable
    · exact sameRegsBut_refl s _
  all_goals exact sameRegsBut_refl s _

theorem sameRegsBut_eccOne (h : Nat) (s : State) (e : EccEvent) : SameRegsBut s (eccOne h s e) eccRegs := by
  have corrected (c : CombLine) : SameRegsBut s (eccCorrected s (lineUnit e c)) eccRegs :=
    fun a ha => sameRegsBut_eccCorrected s _ a (by simp_all [eccRegs])
  unfold eccOne
  split
  · exact sameRegsBut_eccMemory h s e
  · split
    · exact corrected _
    · unfold lineUncorrectable
      split
      · exact fun a ha => sameRegsBut_eccUncorrectable s h (lineUnit e ‹CombLine›) a (by simp_all [eccRegs])
      · exact corrected _
    · exact sameRegsBut_refl s _

/-! ### The counts of the memory errors (R157) -/

/-- `c` more corrected errors and `u` more uncorrectable ones are counted. -/
def EccCounted (s t : State) (c u : Nat) : Prop :=
  fld t Reg.MEM_ECC_CORR Fld.MEM_ECC_CORR_COUNT = satAdd 48 (fld s Reg.MEM_ECC_CORR Fld.MEM_ECC_CORR_COUNT) c
    ∧ fld t Reg.MEM_ECC_UNCORR Fld.MEM_ECC_UNCORR_COUNT = satAdd 48 (fld s Reg.MEM_ECC_UNCORR Fld.MEM_ECC_UNCORR_COUNT) u

theorem satAdd_satAdd (w a b c : Nat) : satAdd w (satAdd w a b) c = satAdd w a (b + c) := by
  unfold satAdd
  omega

theorem EccCounted.trans {s t v : State} {c u c' u' : Nat} (h : EccCounted s t c u) (k : EccCounted t v c' u') :
    EccCounted s v (c + c') (u + u') := by
  obtain ⟨corr, uncorr⟩ := h
  obtain ⟨corr', uncorr'⟩ := k
  exact ⟨by rw [corr', corr, satAdd_satAdd], by rw [uncorr', uncorr, satAdd_satAdd]⟩

theorem eccCounted_none {s t : State} {l : List Nat} (h : SameRegsBut s t l) (corr : Reg.MEM_ECC_CORR ∉ l)
    (uncorr : Reg.MEM_ECC_UNCORR ∉ l) : EccCounted s t 0 0 :=
  ⟨(h.fld corr _).trans (satAdd_zero (fld_lt s _ Fld.MEM_ECC_CORR_COUNT)).symm,
    (h.fld uncorr _).trans (satAdd_zero (fld_lt s _ Fld.MEM_ECC_UNCORR_COUNT)).symm⟩

theorem eccCounted_refl (s : State) : EccCounted s s 0 0 := eccCounted_none (sameRegsBut_refl s []) (by simp) (by simp)

theorem onlyField_eccCorrected (s : State) (u : CorrUnit) :
    OnlyField s (eccCorrected s u) Reg.MEM_ECC_CORR Fld.MEM_ECC_CORR_COUNT
      (satAdd Fld.MEM_ECC_CORR_COUNT.w (fld s Reg.MEM_ECC_CORR Fld.MEM_ECC_CORR_COUNT) 1) := by
  have counted := onlyField_bump { s with lastCorr := u } Reg.MEM_ECC_CORR Fld.MEM_ECC_CORR_COUNT 1 (by decide)
  unfold eccCorrected
  dsimp only
  split
  · exact counted.congr rfl rfl
  · exact counted.congr rfl rfl

theorem onlyField_eccUncorrectable (s : State) (h : Nat) (u : CorrUnit) :
    OnlyField s (eccUncorrectable s h u) Reg.MEM_ECC_UNCORR Fld.MEM_ECC_UNCORR_COUNT
      (satAdd Fld.MEM_ECC_UNCORR_COUNT.w (fld s Reg.MEM_ECC_UNCORR Fld.MEM_ECC_UNCORR_COUNT) 1) :=
  (onlyField_bump s Reg.MEM_ECC_UNCORR Fld.MEM_ECC_UNCORR_COUNT 1 (by decide)).congr rfl rfl

theorem eccCounted_eccCorrected (s : State) (u : CorrUnit) : EccCounted s (eccCorrected s u) 1 0 :=
  ⟨(onlyField_eccCorrected s u).1, ((sameRegsBut_eccCorrected s u).fld (by decide) _).trans (eccCounted_refl s).2⟩

theorem eccCounted_eccUncorrectable (s : State) (h : Nat) (u : CorrUnit) : EccCounted s (eccUncorrectable s h u) 0 1 :=
  ⟨((sameRegsBut_eccUncorrectable s h u).fld (by decide) _).trans (eccCounted_refl s).1, (onlyField_eccUncorrectable s h u).1⟩

theorem eccCounted_listRow (s : State) (pc rowBank : Nat) (uncorr : Bool) : EccCounted s (listRow s pc rowBank uncorr) 0 0 :=
  eccCounted_none (sameRegsBut_listRow s pc rowBank uncorr) (by decide) (by decide)

theorem eccCounted_memCorrected (s : State) (e : EccEvent) : EccCounted s (memCorrected s e) 1 0 := by
  have counted := eccCounted_eccCorrected s (memUnit s e)
  unfold memCorrected
  extract_lets t key n t'
  split
  · split
    · exact EccCounted.trans (t := t') counted (eccCounted_listRow ..)
    · exact counted
  · exact counted

theorem eccCounted_memUncorrectable (s : State) (h : Nat) (e : EccEvent) : EccCounted s (memUncorrectable s h e) 0 1 := by
  have counted := eccCounted_eccUncorrectable s h (memUnit s e)
  unfold memUncorrectable
  dsimp only
  split
  · exact counted.trans (eccCounted_listRow ..)
  · exact counted

/-- The count of a corrected error in memory, whose register's other fields stay. -/
theorem onlyField_memCorrected (s : State) (e : EccEvent) :
    OnlyField s (memCorrected s e) Reg.MEM_ECC_CORR Fld.MEM_ECC_CORR_COUNT
      (satAdd Fld.MEM_ECC_CORR_COUNT.w (fld s Reg.MEM_ECC_CORR Fld.MEM_ECC_CORR_COUNT) 1) := by
  have counted := onlyField_eccCorrected s (memUnit s e)
  unfold memCorrected
  extract_lets t key n t'
  split
  · split
    · exact counted.congr rfl (sameRegsBut_listRow t' _ _ _ _ (by decide))
    · exact counted.congr rfl rfl
  · exact counted

theorem onlyField_memUncorrectable (s : State) (h : Nat) (e : EccEvent) :
    OnlyField s (memUncorrectable s h e) Reg.MEM_ECC_UNCORR Fld.MEM_ECC_UNCORR_COUNT
      (satAdd Fld.MEM_ECC_UNCORR_COUNT.w (fld s Reg.MEM_ECC_UNCORR Fld.MEM_ECC_UNCORR_COUNT) 1) := by
  have counted := onlyField_eccUncorrectable s h (memUnit s e)
  unfold memUncorrectable
  dsimp only
  split
  · exact counted.congr rfl (sameRegsBut_listRow _ _ _ _ _ (by decide))
  · exact counted

/-! ### Errors in memory (R151) -/

/-- Whether an error lies in the second tier. -/
def inL2 (e : EccEvent) : Bool := decide (l2Base ≤ e.addr) && decide (e.addr < l2End)

/-- Whether an error in memory is told as corrected, and as uncorrectable; `linked` says whether the second tier's link is protected. -/
def eccGood (linked : Bool) (e : EccEvent) : Bool := decide (e.kind = .corrected) && (!inL2 e || linked)
def eccBad (linked : Bool) (e : EccEvent) : Bool :=
  decide (e.kind = .uncorrectable) && !inL2 e || decide (e.kind = .linkFailed) && inL2 e && linked

/-- Whether the second tier's link is protected. -/
def linkEcc (s : State) : Bool := flg s Reg.MEM_L2_CTL Fld.MEM_L2_CTL_LINK_ECC

theorem eccMemory_good {h : Nat} {s : State} {e : EccEvent} (good : eccGood (linkEcc s) e = true) : eccMemory h s e = memCorrected s e := by
  simp only [eccGood, Bool.and_eq_true, decide_eq_true_eq] at good
  obtain ⟨kind, told⟩ := good
  unfold eccMemory
  rw [kind]
  refine if_pos ?_
  unfold linkGuards
  simp only [inL2, linkEcc] at told
  grind

theorem eccMemory_bad {h : Nat} {s : State} {e : EccEvent} (bad : eccBad (linkEcc s) e = true) :
    eccMemory h s e = memUncorrectable s h e := by
  simp only [eccBad, Bool.or_eq_true, Bool.and_eq_true, decide_eq_true_eq] at bad
  unfold eccMemory
  rcases bad with ⟨kind, out⟩ | ⟨⟨kind, l2⟩, linked⟩
  · rw [kind]
    exact if_neg fun l2 => by simp [inL2, l2] at out
  · rw [kind]
    exact if_pos (Bool.and_eq_true_iff.mpr ⟨l2, linked⟩)

theorem eccMemory_quiet {h : Nat} {s : State} {e : EccEvent} (good : eccGood (linkEcc s) e = false) (bad : eccBad (linkEcc s) e = false) :
    eccMemory h s e = s := by
  unfold eccMemory linkGuards
  simp only [eccGood, eccBad, inL2, linkEcc] at good bad
  split <;> simp_all

theorem eccGood_not_bad {linked : Bool} {e : EccEvent} (good : eccGood linked e = true) : eccBad linked e = false := by
  simp only [eccGood, Bool.and_eq_true, decide_eq_true_eq] at good
  simp [eccBad, good.1]

theorem eccCounted_eccMemory (h : Nat) (s : State) (e : EccEvent) :
    EccCounted s (eccMemory h s e) (eccGood (linkEcc s) e).toNat (eccBad (linkEcc s) e).toNat := by
  cases good : eccGood (linkEcc s) e with
  | true =>
    rw [eccMemory_good good, eccGood_not_bad good]
    exact eccCounted_memCorrected s e
  | false =>
    cases bad : eccBad (linkEcc s) e with
    | true =>
      rw [eccMemory_bad bad]
      exact eccCounted_memUncorrectable s h e
    | false =>
      rw [eccMemory_quiet good bad]
      exact eccCounted_refl s

/-! ### What else an error in memory changes -/

theorem listRow_frame (s : State) (pc rowBank : Nat) (uncorr : Bool) : OnlyRegs s (listRow s pc rowBank uncorr) := by
  unfold listRow
  extract_lets row bank same
  split
  · rfl
  · split <;> rfl

/-- All that a corrected error in memory can change. -/
def OnlyCorrected (s t : State) : Prop :=
  t = { s with regs := t.regs, recs := t.recs, recSeq := t.recSeq, thrLogged := t.thrLogged, lastCorr := t.lastCorr, rowErrs := t.rowErrs }

theorem OnlyRegs.onlyCorrected {s t u : State} (h : OnlyCorrected s t) (k : OnlyRegs t u) : OnlyCorrected s u := by
  unfold OnlyCorrected OnlyRegs at *
  rw [k, h]

theorem onlyCorrected_eccCorrected (s : State) (u : CorrUnit) : OnlyCorrected s (eccCorrected s u) := by
  unfold eccCorrected
  dsimp only
  split <;> rfl

theorem onlyCorrected_memCorrected (s : State) (e : EccEvent) : OnlyCorrected s (memCorrected s e) := by
  have counted := onlyCorrected_eccCorrected s (memUnit s e)
  unfold memCorrected
  extract_lets t key n t'
  have row : OnlyCorrected s t' := by
    unfold OnlyCorrected at *
    simp only [t', t]
    rw [counted]
  split
  · split
    · exact (listRow_frame ..).onlyCorrected row
    · exact row
  · exact counted

/-- The record of an uncorrectable error in memory (R157). -/
def uncorrectableRec (s : State) (h : Nat) (e : EccEvent) : ErrRec :=
  { plainRec 0x0302 sevError (tierOf e.addr) (e.addr / 64 * 64) h (memLoc s e.addr) (if e.addr < hbmEnd then e.rowBank else 0) with
    seq := s.recSeq
    beat := beat (bump s Reg.MEM_ECC_UNCORR Fld.MEM_ECC_UNCORR_COUNT 1) }

/-- All that an uncorrectable error in memory changes: registers, its record and the poison of its unit. -/
theorem memUncorrectable_frame (s : State) (h : Nat) (e : EccEvent) :
    memUncorrectable s h e = { s with
      regs := (memUncorrectable s h e).regs
      recs := s.recs ++ [uncorrectableRec s h e]
      recSeq := (s.recSeq + 1) % 65536
      poison := (poisonUnit s (e.addr / 64 * 64)).poison } := by
  unfold memUncorrectable
  dsimp only
  split
  · exact Eq.trans (listRow_frame ..) rfl
  · rfl

@[simp] theorem listRow_poison (s : State) (pc rowBank : Nat) (uncorr : Bool) : (listRow s pc rowBank uncorr).poison = s.poison := by
  rw [listRow_frame]

@[simp] theorem eccCorrected_poison (s : State) (u : CorrUnit) : (eccCorrected s u).poison = s.poison := by
  rw [onlyCorrected_eccCorrected]

@[simp] theorem memCorrected_poison (s : State) (e : EccEvent) : (memCorrected s e).poison = s.poison := by
  rw [onlyCorrected_memCorrected]

@[simp] theorem memUncorrectable_poison (s : State) (h : Nat) (e : EccEvent) :
    (memUncorrectable s h e).poison = (poisonUnit s (e.addr / 64 * 64)).poison := by
  rw [memUncorrectable_frame]

/-- An uncorrectable error in memory poisons its unit. -/
theorem poisoned_memUncorrectable (s : State) (h : Nat) (e : EccEvent) {b n : Nat} (lo : e.addr / 64 * 64 < b + n)
    (hi : b < e.addr / 64 * 64 + 64) : poisoned (memUncorrectable s h e) b n = true := by
  rw [poisoned_congr (memUncorrectable_poison s h e)]
  exact poisoned_poisonUnit s (by omega) (by omega)

theorem poisonKept_eccMemory (h : Nat) (s : State) (e : EccEvent) : PoisonKept s (eccMemory h s e) := by
  cases good : eccGood (linkEcc s) e with
  | true => exact eccMemory_good good ▸ poisonKept_of_eq (memCorrected_poison s e)
  | false =>
    cases bad : eccBad (linkEcc s) e with
    | true =>
      rw [eccMemory_bad bad]
      exact (poisonKept_poisonUnit s (e.addr / 64 * 64)).trans (poisonKept_of_eq (memUncorrectable_poison s h e))
    | false =>
      rw [eccMemory_quiet good bad]
      exact poisonKept_of_eq rfl

theorem poisonKept_eccOne (h : Nat) (s : State) (e : EccEvent) : PoisonKept s (eccOne h s e) := by
  unfold eccOne
  split
  · exact poisonKept_eccMemory h s e
  · split
    · exact poisonKept_of_eq (eccCorrected_poison ..)
    · unfold lineUncorrectable
      split
      · exact (poisonKept_poisonUnit s (e.addr / 64 * 64)).trans (poisonKept_of_eq rfl)
      · exact poisonKept_of_eq (eccCorrected_poison ..)
    · exact poisonKept_of_eq rfl

theorem eccMemory_comb (h : Nat) (s : State) (e : EccEvent) : (eccMemory h s e).comb = s.comb := by
  cases good : eccGood (linkEcc s) e with
  | true =>
    rw [eccMemory_good good, onlyCorrected_memCorrected]
  | false =>
    cases bad : eccBad (linkEcc s) e with
    | true => rw [eccMemory_bad bad, memUncorrectable_frame]
    | false => rw [eccMemory_quiet good bad]

/-! ### All the errors that the reads of an instruction meet -/

/-- The errors that the reads meet, if any. -/
theorem eccMeet_cons (s : State) (ts : List Touch) (e : EccEvent) (es : List EccEvent) :
    (ts.any (fun t => t.hit e) = false ∧ eccMeet s ts (e :: es) = eccMeet s ts es)
      ∨ ∃ h, ts.any (fun t => t.hit e) = true ∧ eccMeet s ts (e :: es) = eccMeet (eccOne h s e) ts es := by
  have first : eccMeet s ts (e :: es)
      = eccMeet (match ts.find? (fun t => t.hit e) with
        | some t => eccOne t.handle s e
        | none => s) ts es := rfl
  cases found : ts.find? (fun t => t.hit e) with
  | none =>
    rw [found] at first
    have none := List.find?_eq_none.mp found
    exact .inl ⟨List.any_eq_false.mpr none, first⟩
  | some t =>
    rw [found] at first
    have hit := List.find?_some (p := fun t : Touch => t.hit e) found
    exact .inr ⟨t.handle, List.any_eq_true.mpr ⟨t, List.mem_of_find?_eq_some found, hit⟩, first⟩

theorem poisonKept_eccMeet (s : State) (ts : List Touch) (es : List EccEvent) : PoisonKept s (eccMeet s ts es) := by
  induction es generalizing s with
  | nil => exact poisonKept_of_eq rfl
  | cons e es ih =>
    rcases eccMeet_cons s ts e es with ⟨-, met⟩ | ⟨h, -, met⟩
    · exact met ▸ ih s
    · exact met ▸ (poisonKept_eccOne h s e).trans (ih _)

theorem sameRegsBut_eccMeet (s : State) (ts : List Touch) (es : List EccEvent) : SameRegsBut s (eccMeet s ts es) eccRegs := by
  induction es generalizing s with
  | nil => exact sameRegsBut_refl s _
  | cons e es ih =>
    rcases eccMeet_cons s ts e es with ⟨-, met⟩ | ⟨h, -, met⟩
    · exact met ▸ ih s
    · exact met ▸ (sameRegsBut_eccOne h s e).and_then (ih _)

/-- Where no line is held, the errors are counted one by one, and each uncorrectable one poisons its unit. -/
theorem eccMeet_noLine {s : State} (plain : s.comb = []) (ts : List Touch) (es : List EccEvent) :
    EccCounted s (eccMeet s ts es)
        ((es.filter (fun e => ts.any (fun t => t.hit e))).filter (eccGood (linkEcc s))).length
        ((es.filter (fun e => ts.any (fun t => t.hit e))).filter (eccBad (linkEcc s))).length
      ∧ ∀ e ∈ es.filter (fun e => ts.any (fun t => t.hit e)), eccBad (linkEcc s) e = true →
          poisoned (eccMeet s ts es) (e.addr / 64 * 64) 64 = true := by
  induction es generalizing s with
  | nil => exact ⟨eccCounted_refl s, by simp⟩
  | cons e es ih =>
    rcases eccMeet_cons s ts e es with ⟨hit, met⟩ | ⟨h, hit, met⟩
    · rw [met, List.filter_cons_of_neg (by simp [hit])]
      exact ih plain
    · have one : eccOne h s e = eccMemory h s e := by simp [eccOne, combHeld, plain]
      have linked : linkEcc (eccMemory h s e) = linkEcc s := by
        unfold linkEcc flg
        rw [(sameRegsBut_eccMemory h s e).fld (by decide)]
      have counted := eccCounted_eccMemory h s e
      obtain ⟨rest, poisons⟩ := ih (s := eccMemory h s e) (by rw [eccMemory_comb, plain])
      rw [linked] at rest poisons
      rw [met, one, List.filter_cons_of_pos (p := fun e => ts.any (fun t => t.hit e)) hit]
      refine ⟨?_, fun f hf bad => ?_⟩
      · have add (p : EccEvent → Bool) (l : List EccEvent) : ((e :: l).filter p).length = (p e).toNat + (l.filter p).length := by
          cases hp : p e <;> simp [hp, Nat.add_comm]
        rw [add, add]
        exact counted.trans rest
      · rcases List.mem_cons.mp hf with rfl | hf
        · refine poisonKept_eccMeet _ ts es _ _ ?_
          rw [eccMemory_bad bad]
          exact poisoned_memUncorrectable s h f (by omega) (by omega)
        · exact poisons f hf bad

end Sys2Proof.Machine
end

section
/-! What the accesses of an instruction meet, and the memory units (R144 to R146, R151, R155 to R159, R164). -/

namespace Sys2Proof.Machine

/-! ### The comb store -/

/-- A partition that owns memory is one of eight. -/
theorem ownerAt_lt {s : State} {a p : Nat} (h : ownerAt s a = some p) : p < 8 := by
  unfold ownerAt at h
  split at h
  · exact List.mem_range.mp (List.mem_of_mem_filter (List.mem_of_head? h))
  · split at h
    · unfold granuleOwner at h
      dsimp only at h
      split at h
      · cases h
        exact fld_lt s _ (Fld.MEM_L2OWN_PART _)
      · cases h
    · cases h

/-- The hit counters of the partitions. -/
def hitRegs : List Nat := (List.range 8).map Reg.CMB_HIT

theorem sameRegsBut_combTouch (s : State) (write strm : Bool) (a n : Nat) : SameRegsBut s (combTouch s write strm a n) hitRegs := by
  have hits : OnlyHits (· < 8) s (combTouch s write strm a n) := onlyHits_combTouch s write strm a n fun p owned => by
    rcases owned with ⟨i, -, owned⟩ | owned
    · exact ownerAt_lt owned
    · exact ownerAt_lt owned
  exact fun q hq => hits q fun p low is => hq (is ▸ List.mem_map.mpr ⟨p, List.mem_range.mpr low, rfl⟩)

theorem combTouch_off {s : State} (off : flg s Reg.CMB_CTL Fld.CMB_CTL_ENABLE = false) (write strm : Bool) (a n : Nat) :
    combTouch s write strm a n = s := by
  simp [combTouch, off]

/-- The accesses of an instruction, once the errors that its reads meet are dealt with. -/
def touchAll (s : State) (x l : Nat) (strm : Bool) (ts : List Touch) (ds : List Desc) : State :=
  combWrites (combReads s strm ts) ((ds).flatMap (descTouches (combReads s strm ts) x l))

theorem meet_eq (s : State) (x l : Nat) (strm : Bool) (ts : List Touch) (ds : List Desc) (ecc : List EccEvent) :
    meet s x l strm ts ds ecc = touchAll (eccMeet s ts ecc) x l strm ts ds := rfl

theorem onlyComb_touches (f : State → Touch → State) (h : ∀ s t, OnlyComb s (f s t)) (ts : List Touch) (s : State) :
    OnlyComb s (ts.foldl f s) := by
  induction ts generalizing s with
  | nil => exact OnlyComb.refl s
  | cons t ts ih => exact (h s t).trans (ih _)

theorem onlyComb_touchAll (s : State) (x l : Nat) (strm : Bool) (ts : List Touch) (ds : List Desc) :
    OnlyComb s (touchAll s x l strm ts ds) :=
  (onlyComb_touches _ (fun _ _ => onlyComb_combTouch ..) ts s).trans (onlyComb_touches _ (fun _ _ => onlyComb_combTouch ..) _ _)

theorem touchAll_poison (s : State) (x l : Nat) (strm : Bool) (ts : List Touch) (ds : List Desc) :
    (touchAll s x l strm ts ds).poison = s.poison := by
  have frame := onlyComb_touchAll s x l strm ts ds
  unfold OnlyComb at frame
  rw [frame]

theorem sameRegsBut_touchAll (s : State) (x l : Nat) (strm : Bool) (ts : List Touch) (ds : List Desc) :
    SameRegsBut s (touchAll s x l strm ts ds) hitRegs :=
  (SameRegsBut.foldl (fun s t _ => sameRegsBut_combTouch s _ _ t.addr t.len) s).and_then
    (SameRegsBut.foldl (fun s t _ => sameRegsBut_combTouch s _ _ t.addr t.len) _)

theorem touchAll_off {s : State} (off : flg s Reg.CMB_CTL Fld.CMB_CTL_ENABLE = false) (x l : Nat) (strm : Bool) (ts : List Touch)
    (ds : List Desc) : touchAll s x l strm ts ds = s := by
  have reads : combReads s strm ts = s := foldl_eq_self fun t _ => combTouch_off off ..
  unfold touchAll
  rw [reads]
  exact foldl_eq_self fun t _ => combTouch_off off ..

/-- The accesses count no memory error. -/
theorem EccCounted.touchAll {s t : State} {c u : Nat} (h : EccCounted s t c u) (x l : Nat) (strm : Bool) (ts : List Touch)
    (ds : List Desc) : EccCounted s (touchAll t x l strm ts ds) c u :=
  h.trans (eccCounted_none (sameRegsBut_touchAll t x l strm ts ds) (by decide) (by decide))

theorem poisonKept_touchAll (s : State) (x l : Nat) (strm : Bool) (ts : List Touch) (ds : List Desc) :
    PoisonKept s (touchAll s x l strm ts ds) := poisonKept_of_eq (touchAll_poison ..)

/-! ### An error in a held line (R156) -/

/-- The one error that the reads meet. -/
theorem eccMeet_one (s : State) {ts : List Touch} {e : EccEvent} (hit : [e].filter (fun e => ts.any (fun t => t.hit e)) = [e]) :
    ∃ h, eccMeet s ts [e] = eccOne h s e := by
  rcases eccMeet_cons s ts e [] with ⟨none, -⟩ | ⟨h, -, met⟩
  · rw [List.filter_cons_of_neg (by simp [none])] at hit
    contradiction
  · exact ⟨h, met⟩

theorem eccOne_line {s : State} {e : EccEvent} {c : CombLine} (held : combHeld s e.addr = some c) (kind : e.kind = .lineUncorrectable)
    (h : Nat) : eccOne h s e = lineUncorrectable s h e c := by
  simp [eccOne, held, kind]

theorem eccCounted_lineClean {s : State} {c : CombLine} (clean : c.dirty = false) (h : Nat) (e : EccEvent) :
    EccCounted s (lineUncorrectable s h e c) 1 0 ∧ (lineUncorrectable s h e c).poison = s.poison := by
  unfold lineUncorrectable
  rw [if_neg (by simp [clean])]
  exact ⟨eccCounted_eccCorrected .., eccCorrected_poison ..⟩

theorem eccCounted_lineDirty {s : State} {c : CombLine} (dirty : c.dirty = true) (h : Nat) (e : EccEvent) :
    EccCounted s (lineUncorrectable s h e c) 0 1 ∧ poisoned (lineUncorrectable s h e c) (e.addr / 64 * 64) 64 = true := by
  unfold lineUncorrectable
  rw [if_pos dirty]
  exact ⟨eccCounted_eccUncorrectable s h (lineUnit e c), poisoned_poisonUnit s (a := e.addr / 64 * 64) (by omega) (by omega)⟩

/-! ### HBM row repair (R158) -/

/-- Where the Keeper repairs a row: the replacement row of its pseudo-channel. -/
def repairPlace (s : State) (a : Nat) : Nat :=
  pcAddr s (fld s a Fld.MEM_PPR_LIST_PC)
    (Config.rowPlace (fld s a Fld.MEM_PPR_LIST_BANK) (fld s a Fld.MEM_PPR_LIST_ROW) % (0xA0000000 / 1024) * 1024)

theorem exec_hbmRowRepair {s : State} {e : Nat} (low : e < 64) (auto : fld s Reg.MEM_PPR_CTL Fld.MEM_PPR_CTL_AUTO = 1)
    (valid : fld s (Reg.MEM_PPR_LIST e) Fld.MEM_PPR_LIST_VALID = 1) (todo : fld s (Reg.MEM_PPR_LIST e) Fld.MEM_PPR_LIST_DONE = 0)
    (able : fld s (Reg.MEM_PPR_LIST e) Fld.MEM_PPR_LIST_FAILED = 0)
    (free : pcFree s (fld s (Reg.MEM_PPR_LIST e) Fld.MEM_PPR_LIST_PC) = true) :
    exec (.hbmRowRepair e true) s
        = .next (setFld (writeBytes s (repairPlace s (Reg.MEM_PPR_LIST e)) (List.replicate 1024 0)) (Reg.MEM_PPR_LIST e)
            Fld.MEM_PPR_LIST_DONE 1)
      ∧ exec (.hbmRowRepair e false) s = .next (setFld s (Reg.MEM_PPR_LIST e) Fld.MEM_PPR_LIST_FAILED 1) := by
  have due : (e < 64 && flg s Reg.MEM_PPR_CTL Fld.MEM_PPR_CTL_AUTO && flg s (Reg.MEM_PPR_LIST e) Fld.MEM_PPR_LIST_VALID
      && !flg s (Reg.MEM_PPR_LIST e) Fld.MEM_PPR_LIST_DONE && !flg s (Reg.MEM_PPR_LIST e) Fld.MEM_PPR_LIST_FAILED
      && pcFree s (fld s (Reg.MEM_PPR_LIST e) Fld.MEM_PPR_LIST_PC)) = true := by
    simp [flg, low, auto, valid, todo, able, free]
  exact ⟨if_pos due, if_pos due⟩

theorem readByte_writeBytes_zero (s : State) (a : Nat) {n i : Nat} (h : i < n) :
    readByte (writeBytes s a (List.replicate n 0)) (a + i) = 0 := by
  rw [readByte_writeBytes_inside s a _ i (by simpa using h), List.getElem_replicate]

/-- What a row's repair leaves, zeros written over `n` bytes. -/
theorem rowRepair_results (s : State) (a place n : Nat) {t : State}
    (ht : t = setFld (writeBytes s place (List.replicate n 0)) a Fld.MEM_PPR_LIST_DONE 1) :
    OnlyField s t a Fld.MEM_PPR_LIST_DONE 1 ∧ SameRegsBut s t [a] ∧ (∀ i, i < n → readByte t (place + i) = 0)
      ∧ SameBytesOutside s t place n ∧ t = { s with regs := t.regs, mem := t.mem, poison := t.poison } := by
  generalize hw : writeBytes s place (List.replicate n 0) = w at ht
  have regs : w.regs = s.regs := by rw [← hw]; rfl
  have bytes (b : Nat) : readByte t b = readByte w b := by rw [ht]; rfl
  refine ⟨?_, fun b hb => ?_, fun i hi => ?_, fun b hb => ?_, ?_⟩
  · rw [ht]
    exact (onlyField_setFld w a Fld.MEM_PPR_LIST_DONE 1 (by decide) (by decide)).congr (rd_congr regs a).symm rfl
  · rw [ht, sameRegsBut_setFld w a Fld.MEM_PPR_LIST_DONE 1 b hb, rd_congr regs]
  · rw [bytes, ← hw]
    exact readByte_writeBytes_zero s place hi
  · rw [bytes, ← hw]
    exact sameBytesOutside_writeBytes s place _ b (by rwa [List.length_replicate])
  · rw [ht, ← hw]
    rfl

/-! ### The patrol scrub (R157, R159) -/

/-- An address of HBM is none of the second tier. -/
theorem inL2_hbm {e : EccEvent} (h : e.addr < hbmEnd) : inL2 e = false := by
  unfold hbmEnd at h
  unfold inL2 l2Base
  simp
  omega

theorem inL2_of {e : EccEvent} (lo : l2Base ≤ e.addr) (hi : e.addr < l2End) : inL2 e = true := by simp [inL2, lo, hi]

theorem linkEcc_of {s : State} (h : fld s Reg.MEM_L2_CTL Fld.MEM_L2_CTL_LINK_ECC = 1) : linkEcc s = true := by simp [linkEcc, flg, h]

/-- A patrol read of memory whose scrubbing is on. -/
theorem exec_patrolScrubRead {s : State} {e : EccEvent}
    (on : (e.addr < hbmEnd ∧ fld s Reg.MEM_SCRUB Fld.MEM_SCRUB_HBM_EN = 1)
      ∨ (hbmEnd ≤ e.addr ∧ l2Base ≤ e.addr ∧ e.addr < l2End ∧ fld s Reg.MEM_SCRUB Fld.MEM_SCRUB_L2_EN = 1)) :
    exec (.patrolScrubRead e) s = .next (eccMemory 0 s e) := by
  refine if_pos ?_
  rcases on with ⟨hbm, en⟩ | ⟨above, lo, hi, en⟩
  · simp [hbm, flg, en]
  · simp [Nat.not_lt.mpr above, lo, hi, flg, en]

theorem patrol_corrected {s : State} {e : EccEvent} (good : eccGood (linkEcc s) e = true)
    (run : exec (.patrolScrubRead e) s = .next (eccMemory 0 s e)) :
    ∃ t, exec (.patrolScrubRead e) s = .next t
      ∧ OnlyField s t Reg.MEM_ECC_CORR Fld.MEM_ECC_CORR_COUNT
          (satAdd Fld.MEM_ECC_CORR_COUNT.w (fld s Reg.MEM_ECC_CORR Fld.MEM_ECC_CORR_COUNT) 1)
      ∧ SameRegsBut s t (Reg.MEM_ECC_CORR :: pprRegs) ∧ OnlyCorrected s t := by
  rw [eccMemory_good good] at run
  exact ⟨_, run, onlyField_memCorrected s e, sameRegsBut_memCorrected s e, onlyCorrected_memCorrected s e⟩

theorem patrol_uncorrectable {s : State} {e : EccEvent} (bad : eccBad (linkEcc s) e = true)
    (run : exec (.patrolScrubRead e) s = .next (eccMemory 0 s e)) :
    ∃ t r, exec (.patrolScrubRead e) s = .next t ∧ t.recs = s.recs ++ [r] ∧ r.code = 0x0302 ∧ r.sev = 2
      ∧ r.obj = tierOf e.addr ∧ r.d0 = e.addr / 64 * 64 ∧ r.d1 = 0 ∧ r.d2 = memLoc s e.addr
      ∧ r.d3 = (if e.addr < hbmEnd then e.rowBank else 0)
      ∧ OnlyField s t Reg.MEM_ECC_UNCORR Fld.MEM_ECC_UNCORR_COUNT
          (satAdd Fld.MEM_ECC_UNCORR_COUNT.w (fld s Reg.MEM_ECC_UNCORR Fld.MEM_ECC_UNCORR_COUNT) 1)
      ∧ SameRegsBut s t (Reg.MEM_ECC_UNCORR :: pprRegs)
      ∧ poisoned t e.addr 1 = true
      ∧ t = { s with regs := t.regs, recs := t.recs, recSeq := t.recSeq, poison := t.poison } := by
  rw [eccMemory_bad bad] at run
  have frame := memUncorrectable_frame s 0 e
  refine ⟨_, uncorrectableRec s 0 e, run, ?_, rfl, rfl, rfl, rfl, rfl, rfl, rfl, onlyField_memUncorrectable s 0 e,
    sameRegsBut_memUncorrectable s 0 e, poisoned_memUncorrectable s 0 e (by omega) (by omega), ?_⟩
  · rw [frame]
  · rw [frame]

/-! ### Flushes of the comb store (R146) -/

theorem testBit_busy_startFlush (s : State) (mask : Nat) {p : Nat} (hp : p < 8) :
    (fld (startFlush s mask) Reg.CMB_STATUS Fld.CMB_STATUS_BUSY).testBit p
      = ((fld s Reg.CMB_STATUS Fld.CMB_STATUS_BUSY).testBit p || mask.testBit p) := by
  have shown : fld (startFlush s mask) Reg.CMB_STATUS Fld.CMB_STATUS_BUSY
      = (fld s Reg.CMB_STATUS Fld.CMB_STATUS_BUSY ||| mask % 2 ^ 8) % 2 ^ 8 := fld_setFld_same _ _ Fld.CMB_STATUS_BUSY _ (by decide)
  rw [shown, Nat.testBit_mod_two_pow, Nat.testBit_or, Nat.testBit_mod_two_pow]
  simp [hp]

theorem testBit_busy_flushDone (s : State) (p : Nat) {q : Nat} (hq : q < 8) :
    (fld (setFld s Reg.CMB_STATUS Fld.CMB_STATUS_BUSY
        (ofBits ((bitList 8 (fld s Reg.CMB_STATUS Fld.CMB_STATUS_BUSY)).filter (· != p)))) Reg.CMB_STATUS Fld.CMB_STATUS_BUSY).testBit q
      = (decide (q ≠ p) && (fld s Reg.CMB_STATUS Fld.CMB_STATUS_BUSY).testBit q) := by
  rw [fld_setFld_same _ _ Fld.CMB_STATUS_BUSY _ (by decide)]
  have width : Fld.CMB_STATUS_BUSY.w = 8 := rfl
  rw [width, Nat.testBit_mod_two_pow, testBit_ofBits]
  simp only [List.mem_filter, mem_bitList, hq, decide_true, true_and, Bool.true_and, bne_iff_ne]
  by_cases h : q = p <;> simp [h]

/-! ### One access to a line (R144, R145) -/

theorem combAccess_hit {s : State} {line p : Nat} {c : CombLine} (owner : ownerAt s (line * 256) = some p)
    (caches : combCaches s p (decide (line * 256 < hbmEnd)) = true) (held : s.comb.find? (fun c => c.line == line) = some c)
    (write strm : Bool) : combAccess write strm s line
      = bump { s with comb := { c with dirty := c.dirty || write } :: s.comb.filter (fun c => c.line != line) }
          (Reg.CMB_HIT p) Fld.CMB_HIT_HITS 1 := by
  unfold combAccess
  rw [owner]
  dsimp only
  rw [if_pos caches, held]

/-- The ways that a missed line may take (R145). -/
def missWays (s : State) (strm : Bool) (p : Nat) : List Nat :=
  if strm then (combWays s p).take (fld s (Reg.CMB_PART p) Fld.CMB_PART_STREAM_WAYS) else combWays s p

theorem combAccess_miss {s : State} {line p : Nat} (owner : ownerAt s (line * 256) = some p)
    (caches : combCaches s p (decide (line * 256 < hbmEnd)) = true) (none : s.comb.find? (fun c => c.line == line) = none)
    (write strm : Bool) : combAccess write strm s line
      = bump (combPlace s p (missWays s strm p) write line) (Reg.CMB_HIT p) Fld.CMB_HIT_MISSES 1 := by
  unfold combAccess
  rw [owner]
  dsimp only
  rw [if_pos caches, none]
  rfl

theorem combPlace_open (s : State) (p : Nat) {ways : List Nat} (opened : ways ≠ []) (write : Bool) (line : Nat) :
    ∃ w, w ∈ ways ∧ (combPlace s p ways write line).comb.head? = some ⟨line, p, w, write⟩ := by
  unfold combPlace
  extract_lets held
  split
  · next w free => exact ⟨w, List.mem_of_find?_eq_some free, rfl⟩
  · next full =>
    split
    · next v last =>
      have mem : v ∈ held := List.mem_of_getLast? last
      have way : ways.contains v.way = true := by
        have := (List.mem_filter.mp mem).2
        simp_all
      exact ⟨v.way, by simpa using way, rfl⟩
    · next none =>
      obtain ⟨w, hw⟩ := List.exists_mem_of_ne_nil ways opened
      have taken := List.find?_eq_none.mp full w hw
      rw [List.getLast?_eq_none_iff.mp none] at taken
      simp at taken

theorem combPlace_closed (s : State) (p : Nat) (write : Bool) (line : Nat) : combPlace s p [] write line = s := by
  simp [combPlace]

theorem combPlace_frame (s : State) (p : Nat) (ways : List Nat) (write : Bool) (line : Nat) :
    combPlace s p ways write line = { s with comb := (combPlace s p ways write line).comb } := by
  unfold combPlace
  extract_lets held
  split
  · rfl
  · split <;> rfl

theorem combAccess_frame (write strm : Bool) (s : State) (line : Nat) :
    combAccess write strm s line
      = { s with regs := (combAccess write strm s line).regs, comb := (combAccess write strm s line).comb } := by
  unfold combAccess
  split
  · rfl
  · split
    · split
      · rfl
      · dsimp only
        rw [combPlace_frame]
        rfl
    · rfl

theorem combAccess_results {s : State} {line p : Nat} (owner : ownerAt s (line * 256) = some p)
    (caches : combCaches s p (decide (line * 256 < hbmEnd)) = true) (write strm : Bool) :
    (∀ c, s.comb.find? (fun c => c.line == line) = some c →
      (combAccess write strm s line).comb.head? = some { c with dirty := c.dirty || write }
      ∧ fld (combAccess write strm s line) (Reg.CMB_HIT p) Fld.CMB_HIT_HITS
          = satAdd Fld.CMB_HIT_HITS.w (fld s (Reg.CMB_HIT p) Fld.CMB_HIT_HITS) 1)
    ∧ (s.comb.find? (fun c => c.line == line) = none →
      fld (combAccess write strm s line) (Reg.CMB_HIT p) Fld.CMB_HIT_MISSES
          = satAdd Fld.CMB_HIT_MISSES.w (fld s (Reg.CMB_HIT p) Fld.CMB_HIT_MISSES) 1
      ∧ (strm = false → combWays s p ≠ [] →
        ∃ w, w ∈ combWays s p ∧ (combAccess write strm s line).comb.head? = some ⟨line, p, w, write⟩)
      ∧ (strm = true → fld s (Reg.CMB_PART p) Fld.CMB_PART_STREAM_WAYS = 0 → (combAccess write strm s line).comb = s.comb)) := by
  refine ⟨fun c held => ?_, fun none => ?_⟩
  · rw [combAccess_hit owner caches held]
    exact ⟨rfl, (onlyField_bump _ (Reg.CMB_HIT p) Fld.CMB_HIT_HITS 1 (by decide)).1⟩
  · rw [combAccess_miss owner caches none]
    refine ⟨?_, fun plain opened => ?_, fun stream shut => ?_⟩
    · rw [(onlyField_bump _ (Reg.CMB_HIT p) Fld.CMB_HIT_MISSES 1 (by decide)).1, fld, rd_combPlace]
      rfl
    · subst plain
      exact combPlace_open s p opened write line
    · have closed : missWays s strm p = [] := by simp [missWays, stream, shut]
      rw [closed, combPlace_closed]
      rfl

end Sys2Proof.Machine
end

section
/-! Memory errors, the memory units and the comb store together (R144 to R146, R151, R155 to R159, R164). -/

namespace Sys2Proof.Machine

/-- What the errors and the accesses of an instruction leave, each clause from its own part of `meet`. -/
theorem meet_results (s : State) (x l : Nat) (strm : Bool) (ts : List Touch) (ds : List Desc) (ecc : List EccEvent) :
    (s.comb = [] →
      EccCounted s (meet s x l strm ts ds ecc)
        ((ecc.filter (fun e => ts.any (fun t => t.hit e))).filter (eccGood (linkEcc s))).length
        ((ecc.filter (fun e => ts.any (fun t => t.hit e))).filter (eccBad (linkEcc s))).length
      ∧ ∀ e ∈ ecc.filter (fun e => ts.any (fun t => t.hit e)), eccBad (linkEcc s) e = true →
          poisoned (meet s x l strm ts ds ecc) (e.addr / 64 * 64) 64 = true)
    ∧ (∀ e c, ecc = [e] → ecc.filter (fun e => ts.any (fun t => t.hit e)) = [e] → combHeld s e.addr = some c →
      e.kind = .lineUncorrectable →
      (c.dirty = false → EccCounted s (meet s x l strm ts ds ecc) 1 0 ∧ (meet s x l strm ts ds ecc).poison = s.poison)
      ∧ (c.dirty = true → EccCounted s (meet s x l strm ts ds ecc) 0 1
          ∧ poisoned (meet s x l strm ts ds ecc) (e.addr / 64 * 64) 64 = true))
    ∧ PoisonKept s (meet s x l strm ts ds ecc)
    ∧ SameRegsBut s (meet s x l strm ts ds ecc) (eccRegs ++ hitRegs)
    ∧ OnlyMeet s (meet s x l strm ts ds ecc)
    ∧ (ecc = [] → flg s Reg.CMB_CTL Fld.CMB_CTL_ENABLE = false → meet s x l strm ts ds ecc = s) := by
  refine ⟨fun plain => ?_, fun e c one hits held kind => ?_, ?_, ?_, onlyMeet_meet .., fun none off => ?_⟩
  · obtain ⟨counted, poisons⟩ := eccMeet_noLine plain ts ecc
    exact ⟨counted.touchAll .., fun e he bad => poisonKept_touchAll _ _ _ _ _ _ _ _ (poisons e he bad)⟩
  · subst one
    obtain ⟨h, met⟩ := eccMeet_one s hits
    rw [eccOne_line held kind] at met
    rw [meet_eq, met]
    refine ⟨fun clean => ?_, fun dirty => ?_⟩
    · obtain ⟨counted, poison⟩ := eccCounted_lineClean (s := s) clean h e
      exact ⟨counted.touchAll .., (touchAll_poison ..).trans poison⟩
    · obtain ⟨counted, poison⟩ := eccCounted_lineDirty (s := s) dirty h e
      exact ⟨counted.touchAll .., poisonKept_touchAll _ _ _ _ _ _ _ _ poison⟩
  · exact (poisonKept_eccMeet s ts ecc).trans (poisonKept_touchAll (eccMeet s ts ecc) x l strm ts ds)
  · exact (sameRegsBut_eccMeet s ts ecc).trans (sameRegsBut_touchAll (eccMeet s ts ecc) x l strm ts ds)
      (List.subset_append_left _ _) (List.subset_append_right _ _)
  · subst none
    exact touchAll_off off ..

/-- Settles O26: errors by the fold over those met, the lines of the comb store apart from them, and each memory unit by its own step. -/
theorem memoryCare : Obligations.MemoryCare := by
  unfold Obligations.MemoryCare
  refine ⟨?_, ?_, ?_, ?_, ?_⟩
  · rintro s m x l strm ts ds ecc rfl
    obtain ⟨noLine, line, kept, regs, frame, off⟩ := meet_results s x l strm ts ds ecc
    refine ⟨fun plain => ?_, fun e c one hits held kind => ?_, kept, ?_, frame, off⟩
    · obtain ⟨⟨corr, uncorr⟩, poisons⟩ := noLine plain
      exact ⟨corr, uncorr, poisons⟩
    · obtain ⟨clean, dirty⟩ := line e c one hits held kind
      refine ⟨fun h => ?_, fun h => ?_⟩
      · obtain ⟨⟨corr, -⟩, poison⟩ := clean h
        exact ⟨corr, poison⟩
      · obtain ⟨⟨-, uncorr⟩, poison⟩ := dirty h
        exact ⟨uncorr, poison⟩
    · exact regs
  · intro s e a pc q low auto valid todo able free
    obtain ⟨repaired, failed⟩ := exec_hbmRowRepair low auto valid todo able free
    exact ⟨⟨_, repaired, rowRepair_results s a _ 1024 rfl⟩,
      _, failed, onlyField_setFld s a Fld.MEM_PPR_LIST_FAILED 1 (by decide) (by decide), sameRegsBut_setFld _ _ _ _, rfl⟩
  · intro s e hbm l2 linked
    refine ⟨fun kind told => ?_, fun told => ?_, fun kind inside => ?_⟩
    · have run : exec (.patrolScrubRead e) s = .next (eccMemory 0 s e) := exec_patrolScrubRead (told.imp id And.left)
      refine patrol_corrected ?_ run
      rcases told with ⟨low, -⟩ | ⟨-, link⟩
      · simp [eccGood, kind, inL2_hbm low]
      · simp [eccGood, kind, linkEcc_of link]
    · rcases told with ⟨kind, on⟩ | ⟨kind, on, link⟩
      · refine patrol_uncorrectable ?_ (exec_patrolScrubRead (.inl on))
        simp [eccBad, kind, inL2_hbm on.1]
      · refine patrol_uncorrectable ?_ (exec_patrolScrubRead (.inr on))
        obtain ⟨-, lo, hi, -⟩ := on
        simp [eccBad, kind, inL2_of lo hi, linkEcc_of link]
    · have run : exec (.patrolScrubRead e) s = .next (eccMemory 0 s e) := exec_patrolScrubRead (.inr inside)
      obtain ⟨-, lo, hi, -⟩ := inside
      refine run.trans (congrArg Host.Outcome.next (eccMemory_quiet ?_ ?_))
      · simp [eccGood, kind]
      · simp [eccBad, kind, inL2_of lo hi]
  · refine ⟨fun s mask => ⟨_, rfl, sameRegsBut_setFld _ _ _ _, rfl, rfl, fun p hp => testBit_busy_startFlush s mask hp⟩,
      fun s p => ⟨_, rfl, sameRegsBut_setFld _ _ _ _, rfl, fun q hq => testBit_busy_flushDone s p hq⟩⟩
  · intro s write strm line p owner caches
    obtain ⟨hit, miss⟩ := combAccess_results owner caches write strm
    exact ⟨hit, miss, combAccess_frame write strm s line⟩

end Sys2Proof.Machine
end

section
/-! Message rings (R203, R273, R275 to R277, R281): what an arriving message, a combined message and a dispatched handler leave. -/

namespace Sys2Proof.Machine

/-! ### Bytes stored by the device -/

/-- All that the bytes stored by the device change. -/
theorem storeBytes_frame (s : State) (a : Nat) (bs : List Byte) : storeBytes s a bs = { s with
    mem := (storeBytes s a bs).mem
    poison := (storeBytes s a bs).poison
    comb := (storeBytes s a bs).comb
    regs := (storeBytes s a bs).regs
    free := (storeBytes s a bs).free } := by
  have frame : OnlyComb (writeBytes s a bs) (storeBytes s a bs) := onlyComb_combTouch ..
  unfold OnlyComb at frame
  rw [frame]
  rfl

@[simp] theorem getRing_storeBytes (s : State) (a : Nat) (bs : List Byte) (n : Nat) : getRing (storeBytes s a bs) n = getRing s n := by
  rw [storeBytes_frame]
  rfl

@[simp] theorem length_headerBytes (kind slots epoch tag src seq data len : Nat) :
    (headerBytes kind slots epoch tag src seq data len).length = 32 := by
  simp [headerBytes]

/-! ### A message that takes its slots (R276, R277) -/

/-- A ring once a message of `k` slots is placed at WPTR. -/
def Ring.placed (r : Ring) (k : Nat) (h : MsgHdr) : Ring :=
  Ring.advance { r with
    wptr := r.wptr + k
    nextMsg := r.nextMsg + 1
    msgs := r.msgs ++ [⟨r.nextMsg, r.wptr % r.size, k, some h, .capped, false⟩] }

theorem onlyRing_setRing {s t : State} (h : t.rings = s.rings) (n : Nat) (v : Ring) : OnlyRing s (setRing t n v) n v := by
  refine ⟨getRing_setRing .., fun m hm => ?_⟩
  rw [getRing_setRing_other _ _ hm, getRing, h]
  rfl

/-- A message that needs no pad is stored at WPTR. -/
theorem placeMsg_eq {s : State} {n k : Nat} (fit : (getRing s n).fit k = some 0) (h : MsgHdr) (seq : Nat) (payload : List Byte) :
    placeMsg s n k h seq payload
      = setRing (storeBytes s (slotAddr s (getRing s n) ((getRing s n).wptr % (getRing s n).size))
          (headerBytes h.kind k (getRing s n).epoch h.tag h.src seq h.data h.len ++ payload)) n ((getRing s n).placed k h) := by
  have straight : placeWrap s n k = s := by simp [placeWrap, fit]
  unfold placeMsg
  rw [straight]
  rfl

theorem placeMsg_results {s : State} {n k : Nat} (fit : (getRing s n).fit k = some 0) (h : MsgHdr) (seq : Nat) (payload : List Byte) :
    OnlyRing s (placeMsg s n k h seq payload) n ((getRing s n).placed k h)
      ∧ placeMsg s n k h seq payload = { s with
          rings := (placeMsg s n k h seq payload).rings
          mem := (placeMsg s n k h seq payload).mem
          poison := (placeMsg s n k h seq payload).poison
          comb := (placeMsg s n k h seq payload).comb
          free := (placeMsg s n k h seq payload).free
          regs := (placeMsg s n k h seq payload).regs } := by
  rw [placeMsg_eq fit]
  rw [storeBytes_frame]
  exact ⟨onlyRing_setRing (t := { s with mem := _, poison := _, comb := _, regs := _, free := _ }) rfl .., rfl⟩

/-- The payload of a placed message follows its header, and no byte outside its slots changes. -/
theorem placeMsg_bytes {s : State} {n k : Nat} (fit : (getRing s n).fit k = some 0) (h : MsgHdr) (seq : Nat) {payload : List Byte}
    (full : 32 + payload.length = 32 * k) :
    (∀ i, (hi : i < payload.length) → readByte (placeMsg s n k h seq payload)
        (slotAddr s (getRing s n) ((getRing s n).wptr % (getRing s n).size) + 32 + i) = payload[i])
      ∧ SameBytesOutside s (placeMsg s n k h seq payload) (slotAddr s (getRing s n) ((getRing s n).wptr % (getRing s n).size)) (32 * k) := by
  rw [placeMsg_eq fit]
  generalize slotAddr s (getRing s n) ((getRing s n).wptr % (getRing s n).size) = a
  generalize hb : headerBytes h.kind k (getRing s n).epoch h.tag h.src seq h.data h.len = head
  have len : head.length = 32 := by rw [← hb, length_headerBytes]
  refine ⟨fun i hi => ?_, ?_⟩
  · have stored := readByte_writeBytes_inside s a (head ++ payload) (32 + i) (by simp [len, hi])
    rw [← readByte_storeBytes, ← Nat.add_assoc] at stored
    refine (readByte_congr (setRing_mem ..) _).trans (stored.trans ?_)
    rw [List.getElem_append_right (by omega)]
    simp [len]
  · have outside := sameBytesOutside_storeBytes s a (head ++ payload)
    rw [List.length_append, len, full] at outside
    exact fun b hb => (readByte_congr (setRing_mem ..) _).trans (outside b hb)

/-! ### Judging (R275) -/

theorem judgeMsg_invalid {s : State} {v : Ring} (h : v.valid = false) (m : RingMsg) : judgeMsg s v m = 7 := by
  simp [judgeMsg, h]

theorem judgeMsg_closed {s : State} {v : Ring} (valid : v.valid = true) (h : v.st = 0 ∨ v.st = 3 ∨ ringCtxUp s v = false) (m : RingMsg) :
    judgeMsg s v m = 2 := by
  unfold judgeMsg
  rw [if_neg (by simp [valid])]
  exact if_pos (by simpa using h)

theorem judgeMsg_closing {s : State} {v : Ring} (valid : v.valid = true) (st : v.st = 2) (up : ringCtxUp s v = true) (m : RingMsg) :
    judgeMsg s v m = 3 := by
  simp [judgeMsg, valid, st, up]

theorem judgeMsg_epoch {s : State} {v : Ring} {m : RingMsg} (valid : v.valid = true) (st : v.st = 1) (up : ringCtxUp s v = true)
    (old : m.epoch % 65536 ≠ v.epoch) : judgeMsg s v m = 4 := by
  simp [judgeMsg, valid, st, up, old]

/-- Only an assigned ring takes a message. -/
theorem valid_of_judgeMsg {s : State} {v : Ring} {m : RingMsg} (h : judgeMsg s v m = 0) : v.valid = true := by
  cases valid : v.valid with
  | true => rfl
  | false =>
    rw [judgeMsg_invalid valid] at h
    contradiction

/-! ### Arrival -/

/-- The epoch that an answer carries. -/
def answerEpoch (v : Ring) : Nat := if v.valid then v.epoch else 0

theorem exec_arrival_refused {s t : State} {n reason : Nat} {m : RingMsg} (judged : judgeArrival s (getRing s n) m = (t, reason))
    (refused : reason ≠ 0) (intact : Bool) : exec (.ringMessageArrival n m intact) s
      = .next (emit (if (getRing s n).valid then bump t (Reg.MSG_STAT (getRing s n).part) Fld.MSG_STAT_NACKED 1 else t)
          (.ringAnswer n m.srcRank m.srcCtx m.seq reason (answerEpoch (getRing s n)))) := by
  show execRingMessageArrival n m intact s = _
  unfold execRingMessageArrival ringArrive
  cases valid : (getRing s n).valid <;> simp [judged, refused, answerEpoch, valid]

theorem exec_arrival_taken {s : State} {n : Nat} {m : RingMsg} (judged : judgeArrival s (getRing s n) m = (s, 0))
    (valid : (getRing s n).valid = true) : exec (.ringMessageArrival n m true) s
      = .next (emit (bump (acceptMsg s n m true) (Reg.MSG_STAT (getRing s n).part) Fld.MSG_STAT_ACCEPTED 1)
          (.ringAnswer n m.srcRank m.srcCtx m.seq 0 (answerEpoch (getRing s n)))) := by
  show execRingMessageArrival n m true s = _
  unfold execRingMessageArrival ringArrive
  simp [judged, answerEpoch, valid]

/-! ### What an arrival comes to -/

theorem judgeArrival_refused {s : State} {v : Ring} {m : RingMsg} (h : judgeMsg s v m ≠ 0) : judgeArrival s v m = (s, judgeMsg s v m) := by
  simp [judgeArrival, h]

theorem judgeArrival_outside {s : State} {v : Ring} {m : RingMsg} {a : Nat} (h : judgeMsg s v m = 0) (bad : msgBad s v m = some a) :
    judgeArrival s v m = (refuseAccess s v.ctx a, 6) := by
  simp [judgeArrival, h, bad]

theorem judgeArrival_taken {s : State} {v : Ring} {m : RingMsg} (h : judgeMsg s v m = 0) (good : msgBad s v m = none) :
    judgeArrival s v m = (s, 0) := by
  simp [judgeArrival, h, good]

theorem arrival_refused (s : State) (n : Nat) (m : RingMsg) (intact : Bool) (h : judgeMsg s (getRing s n) m ≠ 0) :
    ∃ t, exec (.ringMessageArrival n m intact) s = .next t
      ∧ t.out = s.out ++ [.ringAnswer n m.srcRank m.srcCtx m.seq (judgeMsg s (getRing s n) m) (answerEpoch (getRing s n))]
      ∧ ((getRing s n).valid = true → OnlyField s t (Reg.MSG_STAT (getRing s n).part) Fld.MSG_STAT_NACKED
          (satAdd Fld.MSG_STAT_NACKED.w (fld s (Reg.MSG_STAT (getRing s n).part) Fld.MSG_STAT_NACKED) 1)
          ∧ SameRegsBut s t [Reg.MSG_STAT (getRing s n).part])
      ∧ ((getRing s n).valid = false → t.regs = s.regs) ∧ t = { s with out := t.out, regs := t.regs } := by
  refine ⟨_, exec_arrival_refused (judgeArrival_refused h) h intact, ?_⟩
  cases valid : (getRing s n).valid with
  | true =>
    refine ⟨rfl, fun _ => ⟨(onlyField_bump s (Reg.MSG_STAT (getRing s n).part) Fld.MSG_STAT_NACKED 1 (by decide)).congr rfl rfl,
      fun a ha => sameRegsBut_bump s (Reg.MSG_STAT (getRing s n).part) Fld.MSG_STAT_NACKED 1 a ha⟩, fun no => ?_, rfl⟩
    contradiction
  | false =>
    refine ⟨rfl, fun yes => ?_, fun _ => rfl, rfl⟩
    contradiction

/-- A message that the ring takes: intact, and placed without a pad. -/
theorem arrival_placed (s : State) (n : Nat) (m : RingMsg) (judged : judgeMsg s (getRing s n) m = 0)
    (good : msgBad s (getRing s n) m = none) (plain : (getRing s n).combining = false) (fit : (getRing s n).fit m.slots = some 0)
    (len : m.bytes.length = 32 * m.slots) (one : 1 ≤ m.slots) :
    ∃ t, exec (.ringMessageArrival n m true) s = .next t
      ∧ t.out = s.out ++ [.ringAnswer n m.srcRank m.srcCtx m.seq 0 (answerEpoch (getRing s n))]
      ∧ OnlyRing s t n ((getRing s n).placed m.slots ⟨1, msgTag m, msgSrc m, msgData m, msgLen m⟩)
      ∧ (∀ i, i < 32 * (m.slots - 1) →
          readByte t (slotAddr s (getRing s n) ((getRing s n).wptr % (getRing s n).size) + 32 + i) = m.bytes.getD (32 + i) 0)
      ∧ SameBytesOutside s t (slotAddr s (getRing s n) ((getRing s n).wptr % (getRing s n).size)) (32 * m.slots)
      ∧ t = { s with out := t.out, regs := t.regs, rings := t.rings, mem := t.mem, poison := t.poison, comb := t.comb,
                     free := t.free } := by
  have run := exec_arrival_taken (judgeArrival_taken judged good) (valid_of_judgeMsg judged)
  have taken : acceptMsg s n m true
      = placeMsg s n m.slots ⟨1, msgTag m, msgSrc m, msgData m, msgLen m⟩ m.seq (m.bytes.drop 32) := by
    simp [acceptMsg, plain]
  rw [taken] at run
  obtain ⟨ring, frame⟩ := placeMsg_results fit ⟨1, msgTag m, msgSrc m, msgData m, msgLen m⟩ m.seq (m.bytes.drop 32)
  obtain ⟨bytes, outside⟩ := placeMsg_bytes fit ⟨1, msgTag m, msgSrc m, msgData m, msgLen m⟩ m.seq
    (payload := m.bytes.drop 32) (by rw [List.length_drop]; omega)
  generalize placeMsg s n m.slots ⟨1, msgTag m, msgSrc m, msgData m, msgLen m⟩ m.seq (m.bytes.drop 32) = t at *
  refine ⟨_, run, ?_, ring, fun i hi => ?_, outside, ?_⟩
  · rw [frame]
    rfl
  · have inside : i < (m.bytes.drop 32).length := by
      rw [List.length_drop]
      omega
    refine (readByte_congr (s := t) (by rfl) _).trans ((bytes i inside).trans ?_)
    rw [List.getElem_drop, List.getD_eq_getElem]
  · rw [frame]
    rfl

theorem arrival_outside (s : State) (n : Nat) (m : RingMsg) (intact : Bool) {a : Nat} (judged : judgeMsg s (getRing s n) m = 0)
    (bad : msgBad s (getRing s n) m = some a) :
    ∃ t e, exec (.ringMessageArrival n m intact) s = .next t
      ∧ t.out = s.out ++ [.ringAnswer n m.srcRank m.srcCtx m.seq 6 (answerEpoch (getRing s n))] ∧ t.recs = s.recs ++ [e]
      ∧ e.code = 0x0303 ∧ e.ctx = some (getRing s n).ctx ∧ e.d2 = a
      ∧ t = { s with out := t.out, regs := t.regs, recs := t.recs, recSeq := t.recSeq } := by
  have run := exec_arrival_refused (judgeArrival_outside judged bad) (by decide) intact
  rw [if_pos (valid_of_judgeMsg judged)] at run
  exact ⟨_, _, run, rfl, rfl, rfl, rfl, rfl, rfl⟩

/-! ### A combined message (R281) -/

/-- The elements of a combined message, encoded. -/
def combBytes (v : Ring) (e : CombEntry) : List Byte :=
  let data := (e.sums.map (combElem v.combInt)).flatMap (fun v => leBytes 4 v.1)
  data ++ List.replicate (32 * (combSlots e.len - 1) - data.length) 0

theorem exec_combinedMessagePlace {s : State} {n tag : Nat} {e : CombEntry}
    (found : (getRing s n).closed.find? (fun e => e.tag == tag) = some e) (valid : (getRing s n).valid = true) (st : (getRing s n).st ≠ 3)
    (fit : (getRing s n).fit (combSlots e.len) = some 0) (good : slotsBad s (getRing s n) (combSlots e.len) = none) :
    exec (.combinedMessagePlace n tag) s = .next (placeCombined s n e) := by
  show execCombinedMessagePlace n tag s = _
  unfold execCombinedMessagePlace
  simp [found, valid, st, fit, good]

/-- Whether a combined message overflows is at most one more record. -/
theorem placeCombined_eq (s : State) (n : Nat) (e : CombEntry) :
    ∃ recs recSeq, placeCombined s n e
      = { placeMsg (setRing s n { getRing s n with closed := (getRing s n).closed.erase e }) n (combSlots e.len)
            ⟨3, e.tag, e.count, 0, e.len⟩ 0 (combBytes (getRing s n) e) with recs := recs, recSeq := recSeq } := by
  unfold placeCombined combBytes
  dsimp only
  generalize placeMsg _ _ _ _ _ _ = t
  split
  · exact ⟨_, _, rfl⟩
  · exact ⟨t.recs, t.recSeq, rfl⟩

theorem combined_results (s : State) (n : Nat) (e : CombEntry) (fit : (getRing s n).fit (combSlots e.len) = some 0) :
    OnlyRing s (placeCombined s n e) n
        (Ring.placed { getRing s n with closed := (getRing s n).closed.erase e } (combSlots e.len) ⟨3, e.tag, e.count, 0, e.len⟩)
      ∧ placeCombined s n e = { s with
          rings := (placeCombined s n e).rings
          mem := (placeCombined s n e).mem
          poison := (placeCombined s n e).poison
          comb := (placeCombined s n e).comb
          free := (placeCombined s n e).free
          regs := (placeCombined s n e).regs
          recs := (placeCombined s n e).recs
          recSeq := (placeCombined s n e).recSeq } := by
  generalize hv : ({ getRing s n with closed := (getRing s n).closed.erase e } : Ring) = v
  have ring : getRing (setRing s n v) n = v := getRing_setRing ..
  have fits : (getRing (setRing s n v) n).fit (combSlots e.len) = some 0 := by
    rw [ring, ← hv]
    exact fit
  obtain ⟨recs, recSeq, placed⟩ := placeCombined_eq s n e
  rw [hv] at placed
  obtain ⟨⟨here, others⟩, frame⟩ := placeMsg_results fits ⟨3, e.tag, e.count, 0, e.len⟩ 0 (combBytes (getRing s n) e)
  rw [ring] at here
  generalize placeMsg (setRing s n v) n _ _ _ _ = t at *
  rw [placed]
  refine ⟨⟨here, fun m hm => (others m hm).trans (getRing_setRing_other s v hm)⟩, ?_⟩
  rw [frame]
  rfl

/-! ### A handler's dispatch (R203, R277) -/

/-- A ring whose message `m` has been dispatched. -/
def Ring.spawned (v : Ring) (m : RMsg) : Ring :=
  { v with
    msgs := v.msgs.map (fun u => if u.id = m.id then { u with stage := MsgStage.spawned } else u)
    dispatched := v.dispatched + 1
    active := v.active ++ [m.id] }

theorem exec_handlerDispatch {s : State} {n : Nat} {m : RMsg} {h : MsgHdr} (due : (getRing s n).nextDue = some (m, h))
    (valid : (getRing s n).valid = true) (st : (getRing s n).st ≠ 3)
    (up : (getCtx s (getRing s n).ctx).st = .runnable ∨ (getCtx s (getRing s n).ctx).st = .running)
    (few : (getRing s n).active.length < (getRing s n).handlers)
    (room : dequeRoom s (getRing s n).ctx (handlerTask s n (getRing s n) m h).home = true)
    (held : (getCore s (getRing s n).ctx (handlerTask s n (getRing s n) m h).home).held = []) :
    exec (.handlerDispatch n) s
      = .next (spawnTask (setRing s n ((getRing s n).spawned m)) (getRing s n).ctx true (handlerTask s n (getRing s n) m h)) := by
  show execHandlerDispatch n s = _
  unfold execHandlerDispatch
  simp only [due]
  exact if_pos ⟨valid, st, up, few, room, by simp [held]⟩

/-- A task that the device spawns on a busy core with room lies at the near end of its deque. -/
theorem spawnTask_busy {s : State} {x : Nat} {t : Task} (room : dequeRoom s x t.home = true) (held : (getCore s x t.home).held = [])
    (busy : (getRun s x t.home).isSome = true) :
    spawnTask s x true t = setCore s x t.home { getCore s x t.home with deque := t :: (getCore s x t.home).deque } := by
  rw [← pushTask_busy busy]
  exact if_pos (by simp [held, room])

theorem handler_results {s : State} {n : Nat} {m : RMsg} {h : MsgHdr} (due : (getRing s n).nextDue = some (m, h))
    (valid : (getRing s n).valid = true) (st : (getRing s n).st ≠ 3)
    (up : (getCtx s (getRing s n).ctx).st = .runnable ∨ (getCtx s (getRing s n).ctx).st = .running)
    (few : (getRing s n).active.length < (getRing s n).handlers)
    (room : dequeRoom s (getRing s n).ctx (handlerTask s n (getRing s n) m h).home = true)
    (held : (getCore s (getRing s n).ctx (handlerTask s n (getRing s n) m h).home).held = [])
    (busy : (getRun s (getRing s n).ctx (handlerTask s n (getRing s n) m h).home).isSome = true) :
    ∃ t, exec (.handlerDispatch n) s = .next t
      ∧ (getCore t (getRing s n).ctx (handlerTask s n (getRing s n) m h).home).deque
          = handlerTask s n (getRing s n) m h :: (getCore s (getRing s n).ctx (handlerTask s n (getRing s n) m h).home).deque
      ∧ OnlyRing s t n ((getRing s n).spawned m)
      ∧ (∀ y, y ≠ (getRing s n).ctx → getCtx t y = getCtx s y) ∧ t = { s with rings := t.rings, ctxs := t.ctxs } := by
  have run := exec_handlerDispatch due valid st up few room held
  generalize handlerTask s n (getRing s n) m h = k at *
  generalize (getRing s n).spawned m = w at *
  rw [spawnTask_busy (s := setRing s n w) room held busy] at run
  refine ⟨_, run, ?_, ?_, fun y hy => ?_, rfl⟩
  · rw [getCore_setCore]
    rfl
  · exact onlyRing_setRing (t := s) rfl n w
  · exact getCtx_setCtx_other _ _ hy

/-- Settles O21: judging by its order of reasons, placing by the one way in which a message takes its slots. -/
theorem ringArrivals : Obligations.RingArrivals := by
  unfold Obligations.RingArrivals
  refine ⟨fun s n m intact => ?_, fun s n tag e found valid st fit good => ?_, fun s n m h due valid st up few room held busy => ?_⟩
  · refine ⟨arrival_refused s n m intact, fun h => judgeMsg_invalid h m, fun valid h => judgeMsg_closed valid h m,
      fun valid st up => judgeMsg_closing valid st up m, fun valid st up old => judgeMsg_epoch valid st up old,
      fun judged good plain whole fit len one => ?_, fun a judged bad => arrival_outside s n m intact judged bad⟩
    subst whole
    exact arrival_placed s n m judged good plain fit len one
  · obtain ⟨ring, frame⟩ := combined_results s n e fit
    exact ⟨_, exec_combinedMessagePlace found valid st fit good, ring, frame⟩
  · obtain ⟨t, run, deque, ring, others, frame⟩ := handler_results due valid st up few room held busy
    exact ⟨t, run, deque, rfl, ring, others, frame⟩

end Sys2Proof.Machine
end

section
/-! Queues of a pipeline stage (R136, R138, R198, R199, R223, R252): what an inbound item and an outbound report leave. -/

namespace Sys2Proof.Machine

/-! ### The training state (R198) -/

theorem getVs_setVs {s : State} {p j : Nat} (h : j < (getTrain s p).vs.length) (v : VSt) : getVs (setVs s p j v) p j = v := by
  simp [getVs, setVs, h]

theorem getVs_setVs_other (s : State) (p : Nat) {j k : Nat} (h : k ≠ j) (v : VSt) : getVs (setVs s p j v) p k = getVs s p k := by
  simp [getVs, setVs, List.getD_eq_getElem?_getD, List.getElem?_set_ne (Ne.symm h)]

theorem getTrain_setVs_other (s : State) {p q : Nat} (j : Nat) (v : VSt) (h : q ≠ p) : getTrain (setVs s p j v) q = getTrain s q :=
  getTrain_setTrain_other s _ h

theorem getVs_congr {s t : State} {p : Nat} (h : (getTrain t p).vs = (getTrain s p).vs) (j : Nat) : getVs t p j = getVs s p j := by
  rw [getVs, h, getVs]

/-- A step that leaves every partition's training state, and all else, as it reads. -/
def SameTrains (s t : State) : Prop := (∀ p, getTrain t p = getTrain s p) ∧ t = { s with train := t.train }

theorem SameTrains.refl (s : State) : SameTrains s s := ⟨fun _ => rfl, rfl⟩

theorem SameTrains.trans {s t u : State} (h : SameTrains s t) (k : SameTrains t u) : SameTrains s u := by
  obtain ⟨trains, frame⟩ := h
  obtain ⟨trains', frame'⟩ := k
  refine ⟨fun p => (trains' p).trans (trains p), ?_⟩
  rw [frame', frame]

theorem SameTrains.getVs {s t : State} (h : SameTrains s t) (p j : Nat) : getVs t p j = getVs s p j :=
  getVs_congr (congrArg Train.vs (h.1 p)) j

/-- Writing a virtual stage's queues as they are changes nothing that is read. -/
theorem sameTrains_setVs (s : State) (p j : Nat) : SameTrains s (setVs s p j (getVs s p j)) := by
  refine ⟨fun q => ?_, rfl⟩
  by_cases h : q = p
  · subst h
    have same : (getTrain s q).vs.set j (Machine.getVs s q j) = (getTrain s q).vs := by
      by_cases inside : j < (getTrain s q).vs.length
      · rw [Machine.getVs, List.getD_eq_getElem _ _ inside, List.set_getElem_self]
      · rw [List.set_eq_of_length_le (by omega)]
    rw [setVs, getTrain_setTrain, same]
  · exact getTrain_setVs_other s j _ h

/-! ### Exhaustion (R221) -/

/-- An exhaustion episode, where one begins. -/
theorem checkExhausted_cases (s : State) (p : Nat) : checkExhausted s p = s
    ∨ ∃ r, checkExhausted s p
        = raise (bump (setTrain s p { getTrain s p with episode := some (beat s) }) (Reg.BRD_USE p) Fld.BRD_USE_EPISODES 1) r := by
  unfold checkExhausted
  split
  · exact .inl rfl
  · dsimp only
    split
    · exact .inl rfl
    · split
      · exact .inl rfl
      · exact .inr ⟨_, rfl⟩

theorem getVs_checkExhausted (s : State) (p j : Nat) : getVs (checkExhausted s p) p j = getVs s p j := by
  obtain same | ⟨r, begun⟩ := checkExhausted_cases s p
  · rw [same]
  · rw [begun]
    refine getVs_congr ?_ j
    rw [getTrain_raise, getTrain_bump, getTrain_setTrain]

theorem getTrain_checkExhausted_other (s : State) {p q : Nat} (h : q ≠ p) : getTrain (checkExhausted s p) q = getTrain s q := by
  obtain same | ⟨r, begun⟩ := checkExhausted_cases s p
  · rw [same]
  · rw [begun, getTrain_raise, getTrain_bump, getTrain_setTrain_other _ _ h]

theorem sameRegsBut_checkExhausted (s : State) (p : Nat) : SameRegsBut s (checkExhausted s p) [Reg.BRD_USE p] := by
  obtain same | ⟨r, begun⟩ := checkExhausted_cases s p
  · rw [same]
    exact sameRegsBut_refl s _
  · rw [begun]
    exact sameRegsBut_bump (setTrain s p _) (Reg.BRD_USE p) Fld.BRD_USE_EPISODES 1

/-- All that an exhaustion episode changes. -/
theorem checkExhausted_frame (s : State) (p : Nat) : checkExhausted s p = { s with
    train := (checkExhausted s p).train
    regs := (checkExhausted s p).regs
    recs := (checkExhausted s p).recs
    recSeq := (checkExhausted s p).recSeq } := by
  obtain same | ⟨r, begun⟩ := checkExhausted_cases s p
  · rw [same]
  · rw [begun]
    rfl

theorem recs_checkExhausted (s : State) (p : Nat) : ∃ es, (checkExhausted s p).recs = s.recs ++ es := by
  obtain same | ⟨r, begun⟩ := checkExhausted_cases s p
  · exact ⟨[], by rw [same, List.append_nil]⟩
  · exact ⟨_, by rw [begun]; rfl⟩

theorem out_checkExhausted (s : State) (p : Nat) : (checkExhausted s p).out = s.out := by
  rw [checkExhausted_frame]

/-! ### Inbound items (R198, R223) -/

/-- The item is of a virtual stage that has an inbound queue of that direction. -/
def Inbound (g : ManStage) (forward : Bool) (i : StageItem) : Prop :=
  i.vstage < g.vstages.length ∧ ¬(forward = true ∧ g.logical i.vstage = 0)
    ∧ ¬((!forward) = true ∧ g.isLast i.vstage = true)

theorem inbound_of {g : ManStage} {mv : ManVStage} {forward : Bool} {i : StageItem} (known : g.vstages[i.vstage]? = some mv)
    (first : forward = true → g.logical i.vstage ≠ 0) (last : forward = false → g.isLast i.vstage = false) : Inbound g forward i := by
  obtain ⟨inside, -⟩ := List.getElem?_eq_some_iff.mp known
  cases forward <;> simp_all [Inbound]

section
variable {s : State} {p x : Nat} {g : ManStage} {forward : Bool} {i : StageItem}

theorem exec_inboundItemCapped (stage : stageOf s p = some (x, g)) :
    exec (.inboundItemCapped p forward i) s = .next (stageItemCapped s p x g forward i) := by
  show execInboundItemCapped p forward i s = _
  unfold execInboundItemCapped
  rw [stage]

theorem stageItemCapped_stale (inbound : Inbound g forward i) (old : i.attempt < attemptNo s p) :
    stageItemCapped s p x g forward i = emit (bump s (Reg.BRD_USE p) Fld.BRD_USE_STALE 1) (.stageCredit p i.vstage forward) :=
  (if_pos inbound).trans (if_pos old)

theorem stageItemCapped_early (inbound : Inbound g true i) (new : attemptNo s p ≤ i.attempt) (early : i.step < stepNo s p) :
    stageItemCapped s p x g true i = emit s (.stageCredit p i.vstage true) :=
  (if_pos inbound).trans ((if_neg (by omega)).trans (if_pos ⟨rfl, early⟩))

theorem stageItemCapped_current (inbound : Inbound g forward i) (new : attemptNo s p ≤ i.attempt)
    (due : forward = true → stepNo s p ≤ i.step) :
    stageItemCapped s p x g forward i = checkExhausted (capItem s p x g forward i) p := by
  have notEarly : ¬(forward = true ∧ i.step < stepNo s p) := by
    rintro ⟨fwd, early⟩
    have := due fwd
    omega
  exact (if_pos inbound).trans ((if_neg (by omega)).trans (if_neg notEarly))

end

theorem item_stale {s : State} {p x : Nat} {g : ManStage} {forward : Bool} {i : StageItem}
    (stage : stageOf s p = some (x, g)) (inbound : Inbound g forward i) (old : i.attempt < attemptNo s p) :
    ∃ t, exec (.inboundItemCapped p forward i) s = .next t ∧ t.out = s.out ++ [.stageCredit p i.vstage forward]
      ∧ OnlyField s t (Reg.BRD_USE p) Fld.BRD_USE_STALE
          (satAdd Fld.BRD_USE_STALE.w (fld s (Reg.BRD_USE p) Fld.BRD_USE_STALE) 1)
      ∧ SameRegsBut s t [Reg.BRD_USE p] ∧ t = { s with out := t.out, regs := t.regs } := by
  have run := exec_inboundItemCapped (forward := forward) (i := i) stage
  rw [stageItemCapped_stale inbound old] at run
  exact ⟨_, run, rfl, (onlyField_bump s (Reg.BRD_USE p) Fld.BRD_USE_STALE 1 (by decide)).congr rfl rfl,
    sameRegsBut_bump s (Reg.BRD_USE p) Fld.BRD_USE_STALE 1, rfl⟩

/-! ### The slot of an inbound item (R136, R138, R198) -/

theorem firstOut_single (s : State) (p : Option Nat) (a n : Nat) : firstOut s p [(a, n)] = firstBad s p a n := by
  unfold firstOut
  cases bad : firstBad s p a n <;> simp [bad]

/-- The queues of a virtual stage once an item lies last in one of them. -/
def VSt.capped (v : VSt) (forward : Bool) (e : InItem) : VSt :=
  if forward then { v with inF := v.inF ++ [e] } else { v with inB := v.inB ++ [e] }

/-- The address of slot `k` of an inbound queue. -/
def inSlotAddr (s : State) (x : Nat) (mv : ManVStage) (forward : Bool) (k : Nat) : Nat :=
  (handleOf s x 0 (mv.inQ forward).handle).base + k * (mv.inQ forward).slotBytes

section
variable {s : State} {p x k : Nat} {g : ManStage} {mv : ManVStage} {forward : Bool} {i : StageItem}
  (known : g.vstages[i.vstage]? = some mv) (slot : lowestFree (mv.inQ forward).slots (inTaken s p g i.vstage forward) = some k)
include known slot

theorem capItem_refused {b : Nat}
    (bad : firstBad s (some p) (inSlotAddr s x mv forward k) (min (mv.inQ forward).slotBytes i.data.length) = some b) :
    capItem s p x g forward i = refuseAccess s x b := by
  rw [← List.length_take, ← firstOut_single] at bad
  unfold inSlotAddr at bad
  unfold capItem
  simp only [known, slot, bad]

theorem capItem_capped
    (good : firstBad s (some p) (inSlotAddr s x mv forward k) (min (mv.inQ forward).slotBytes i.data.length) = none) :
    capItem s p x g forward i
      = emit (setVs (storeBytes s (inSlotAddr s x mv forward k) (i.data.take (mv.inQ forward).slotBytes)) p i.vstage
          ((getVs (storeBytes s (inSlotAddr s x mv forward k) (i.data.take (mv.inQ forward).slotBytes)) p i.vstage).capped forward
            ⟨i.step, i.attempt, i.index, k⟩)) (.stageCapped p i.vstage forward i.step i.index) := by
  rw [← List.length_take, ← firstOut_single] at good
  unfold inSlotAddr at good
  unfold capItem
  simp only [known, slot, good]
  rfl

end

@[simp] theorem getTrain_storeBytes (s : State) (a : Nat) (bs : List Byte) (p : Nat) : getTrain (storeBytes s a bs) p = getTrain s p := by
  rw [storeBytes_frame]
  rfl

theorem sameRegsBut_storeBytes (s : State) (a : Nat) (bs : List Byte) : SameRegsBut s (storeBytes s a bs) hitRegs :=
  sameRegsBut_combTouch (writeBytes s a bs) true false a bs.length

/-- Bytes of an item stored, and the item last in its queue. -/
def placeItem (s : State) (p j a : Nat) (bs : List Byte) (v : VSt) (o : Output) : State := emit (setVs (storeBytes s a bs) p j v) o

section
variable {s : State} {p j : Nat} (here : j < (getTrain s p).vs.length) (a : Nat) (bs : List Byte) (v : VSt) (o : Output)

theorem placeItem_frame (s : State) (p j a : Nat) (bs : List Byte) (v : VSt) (o : Output) : placeItem s p j a bs v o = { s with
    mem := (placeItem s p j a bs v o).mem
    poison := (placeItem s p j a bs v o).poison
    comb := (placeItem s p j a bs v o).comb
    free := (placeItem s p j a bs v o).free
    train := (placeItem s p j a bs v o).train
    regs := (placeItem s p j a bs v o).regs
    out := s.out ++ [o] } := by
  unfold placeItem
  rw [storeBytes_frame]
  rfl

theorem mem_placeItem (s : State) (p j a : Nat) (bs : List Byte) (v : VSt) (o : Output) :
    (placeItem s p j a bs v o).mem = (storeBytes s a bs).mem := rfl

include here in
theorem getVs_placeItem : getVs (placeItem s p j a bs v o) p j = v :=
  getVs_setVs (by rwa [getTrain_storeBytes]) v

theorem getVs_placeItem_other {k : Nat} (h : k ≠ j) : getVs (placeItem s p j a bs v o) p k = getVs s p k :=
  (getVs_setVs_other (storeBytes s a bs) p h v).trans (getVs_congr (by rw [getTrain_storeBytes]) k)

theorem getTrain_placeItem_other {q : Nat} (h : q ≠ p) : getTrain (placeItem s p j a bs v o) q = getTrain s q :=
  (getTrain_setVs_other (storeBytes s a bs) j v h).trans (getTrain_storeBytes ..)

theorem sameRegsBut_placeItem : SameRegsBut s (placeItem s p j a bs v o) hitRegs := sameRegsBut_storeBytes s a bs

end

section
variable {s : State} {p x k : Nat} {g : ManStage} {mv : ManVStage} {forward : Bool} {i : StageItem}
  (run : exec (.inboundItemCapped p forward i) s = .next (checkExhausted (capItem s p x g forward i) p))
  (known : g.vstages[i.vstage]? = some mv) (slot : lowestFree (mv.inQ forward).slots (inTaken s p g i.vstage forward) = some k)
include run known slot

theorem item_capped (here : i.vstage < (getTrain s p).vs.length)
    (good : firstBad s (some p) (inSlotAddr s x mv forward k) (min (mv.inQ forward).slotBytes i.data.length) = none) :
    ∃ t, exec (.inboundItemCapped p forward i) s = .next t
      ∧ t.out = s.out ++ [.stageCapped p i.vstage forward i.step i.index]
      ∧ (∀ n, n < min (mv.inQ forward).slotBytes i.data.length →
          readByte t (inSlotAddr s x mv forward k + n) = i.data.getD n 0)
      ∧ SameBytesOutside s t (inSlotAddr s x mv forward k) (min (mv.inQ forward).slotBytes i.data.length)
      ∧ getVs t p i.vstage = (getVs s p i.vstage).capped forward ⟨i.step, i.attempt, i.index, k⟩
      ∧ (∀ j, j ≠ i.vstage → getVs t p j = getVs s p j) ∧ (∀ r, r ≠ p → getTrain t r = getTrain s r)
      ∧ SameRegsBut s t (Reg.BRD_USE p :: hitRegs)
      ∧ t = { s with mem := t.mem, poison := t.poison, comb := t.comb, free := t.free, train := t.train, regs := t.regs,
                     out := t.out, recs := t.recs, recSeq := t.recSeq } := by
  rw [capItem_capped known slot good, getVs_congr (s := s) (by rw [getTrain_storeBytes])] at run
  rw [← List.length_take]
  generalize inSlotAddr s x mv forward k = a at *
  generalize hb : i.data.take (mv.inQ forward).slotBytes = bs at *
  generalize hv : (getVs s p i.vstage).capped forward ⟨i.step, i.attempt, i.index, k⟩ = v at *
  generalize ho : Output.stageCapped p i.vstage forward i.step i.index = o at *
  have stored : (checkExhausted (placeItem s p i.vstage a bs v o) p).mem = (storeBytes s a bs).mem := by
    rw [checkExhausted_frame, mem_placeItem]
  refine ⟨checkExhausted (placeItem s p i.vstage a bs v o) p, run, ?_, fun n hn => ?_, fun b hb => ?_, ?_, fun j hj => ?_,
    fun r hr => ?_, ?_, ?_⟩
  · rw [out_checkExhausted, placeItem_frame]
  · rw [readByte_congr stored, readByte_storeBytes, readByte_writeBytes_inside s a bs n hn]
    subst hb
    rw [List.length_take] at hn
    rw [List.getElem_take, List.getD_eq_getElem]
  · rw [readByte_congr stored]
    exact sameBytesOutside_storeBytes s a bs b hb
  · rw [getVs_checkExhausted, getVs_placeItem here]
  · rw [getVs_checkExhausted, getVs_placeItem_other _ _ _ _ hj]
  · rw [getTrain_checkExhausted_other _ hr, getTrain_placeItem_other _ _ _ _ hr]
  · exact (sameRegsBut_placeItem a bs v o).trans (sameRegsBut_checkExhausted _ p) (List.subset_cons_self ..) (by simp)
  · rw [checkExhausted_frame, placeItem_frame]

theorem item_refused {b : Nat}
    (bad : firstBad s (some p) (inSlotAddr s x mv forward k) (min (mv.inQ forward).slotBytes i.data.length) = some b) :
    ∃ t e es, exec (.inboundItemCapped p forward i) s = .next t ∧ t.recs = s.recs ++ e :: es ∧ e.code = 0x0303
      ∧ e.ctx = some x ∧ e.d2 = b ∧ SameBytes s t ∧ t.out = s.out := by
  rw [capItem_refused known slot bad] at run
  obtain ⟨es, recs⟩ := recs_checkExhausted (refuseAccess s x b) p
  refine ⟨_, _, es, run, recs.trans (List.append_assoc ..), rfl, rfl, rfl, fun a => ?_, out_checkExhausted ..⟩
  refine readByte_congr ?_ a
  rw [checkExhausted_frame, refuseAccess_mem]

end

/-! ### Items that wait for credits (R198, R252) -/

/-- The items of one direction that a virtual stage has yet to send. -/
def VSt.waiting (v : VSt) (forward : Bool) : List OutItem := if forward then v.sendF else v.sendB

theorem sendable_nil {v : VSt} {forward : Bool} (none : v.waiting forward = []) (n : Nat) (copy : Bool) :
    v.sendable n forward copy = [] := by
  unfold VSt.waiting at none
  simp [VSt.sendable, none]

theorem pumpItems_idle {s : State} {p j : Nat} {forward : Bool} (none : (getVs s p j).waiting forward = []) (g : ManStage) :
    SameTrains s (pumpItems s p g j forward) := by
  unfold pumpItems
  split
  · exact .refl s
  · dsimp only
    rw [sendable_nil none, sendable_nil none]
    have same := sameTrains_setVs s p j
    unfold VSt.waiting at none
    generalize getVs s p j = v at *
    obtain ⟨⟩ := v
    cases forward <;> (subst none; exact same)

/-- Nothing waits at any virtual stage. -/
def NoneWait (s : State) (p : Nat) : Prop := ∀ k, (getVs s p k).sendF = [] ∧ (getVs s p k).sendB = []

theorem NoneWait.congr {s t : State} {p : Nat} (none : NoneWait s p) (h : ∀ k, getVs t p k = getVs s p k) : NoneWait t p := by
  intro k
  rw [h]
  exact none k

/-- What one virtual stage sends, forward and then backward. -/
def pumpBoth (p : Nat) (g : ManStage) (s : State) (j : Nat) : State := pumpItems (pumpItems s p g j true) p g j false

theorem pumpStageItems_eq {s : State} {p x : Nat} {g : ManStage} (stage : stageOf s p = some (x, g)) :
    pumpStageItems s p = g.js.foldl (pumpBoth p g) s := by
  unfold pumpStageItems
  rw [stage]
  rfl

theorem pumpBoth_idle {s : State} {p j : Nat} (none : (getVs s p j).sendF = [] ∧ (getVs s p j).sendB = []) (g : ManStage) :
    SameTrains s (pumpBoth p g s j) := by
  obtain ⟨noF, noB⟩ := none
  have forward : SameTrains s (pumpItems s p g j true) := pumpItems_idle (forward := true) noF g
  refine forward.trans (pumpItems_idle (forward := false) ?_ g)
  rw [forward.getVs]
  exact noB

theorem foldl_pumpBoth_idle {p : Nat} (g : ManStage) {js : List Nat} {s : State}
    (none : ∀ j ∈ js, (getVs s p j).sendF = [] ∧ (getVs s p j).sendB = []) : SameTrains s (js.foldl (pumpBoth p g) s) := by
  induction js generalizing s with
  | nil => exact .refl s
  | cons j js ih =>
    have first : SameTrains s (pumpBoth p g s j) := pumpBoth_idle (none j List.mem_cons_self) g
    refine first.trans (ih fun k hk => ?_)
    rw [first.getVs]
    exact none k (List.mem_cons_of_mem _ hk)

theorem pumpStageItems_idle {s : State} {p : Nat} (none : NoneWait s p) : SameTrains s (pumpStageItems s p) := by
  cases stage : stageOf s p with
  | none =>
    unfold pumpStageItems
    rw [stage]
    exact .refl s
  | some e =>
    rw [pumpStageItems_eq stage]
    exact foldl_pumpBoth_idle _ fun j _ => none j

/-! ### Outbound reports (R198, R199, R252) -/

/-- A report's credits are returned, and the slot of a phase that is over is free again. -/
def reported (s : State) (p j slot credits : Nat) (forward copy : Bool) : VSt :=
  let v := (getVs s p j).returned forward copy credits
  let inUse := (cellsAt s p j).any (fun e =>
    e.2.outSlot == slot && (if forward then e.2.st == .forward else e.2.st == .backward))
  let waits := (v.waiting forward).any (fun o => o.slot == slot && o.main)
  if copy || inUse || waits then v
  else if forward then { v with outF := v.outF.filter (· != slot) } else { v with outB := v.outB.filter (· != slot) }

theorem exec_outboundCappedReport (s : State) (p j slot credits : Nat) (forward copy : Bool) :
    exec (.outboundCappedReport p j ⟨forward, copy⟩ ⟨slot, credits⟩) s
      = .next (checkExhausted (pumpStageItems (setVs s p j (reported s p j slot credits forward copy)) p) p) := rfl

/-- A report changes credits and slots, never what waits. -/
theorem reported_eq (s : State) (p j slot credits : Nat) (forward copy : Bool) : ∃ outF outB,
    reported s p j slot credits forward copy
      = { (getVs s p j).returned forward copy credits with outF := outF, outB := outB } := by
  unfold reported
  extract_lets v inUse waits
  split
  · exact ⟨v.outF, v.outB, rfl⟩
  · split
    · exact ⟨_, v.outB, rfl⟩
    · exact ⟨v.outF, _, rfl⟩

theorem reported_sends (s : State) (p j slot credits : Nat) (forward copy : Bool) :
    (reported s p j slot credits forward copy).sendF = (getVs s p j).sendF
      ∧ (reported s p j slot credits forward copy).sendB = (getVs s p j).sendB := by
  obtain ⟨outF, outB, eq⟩ := reported_eq s p j slot credits forward copy
  rw [eq]
  cases forward <;> cases copy <;> exact ⟨rfl, rfl⟩

theorem reported_owedF (s : State) (p j slot credits : Nat) :
    (reported s p j slot credits true false).owedF = (getVs s p j).owedF - credits := by
  obtain ⟨outF, outB, eq⟩ := reported_eq s p j slot credits true false
  rw [eq]
  rfl

theorem reported_copy (s : State) (p j slot credits : Nat) (forward : Bool) :
    reported s p j slot credits forward true = (getVs s p j).returned forward true credits := rfl

/-- No phase uses the slot and no item waits in it. -/
theorem reported_freed {s : State} {p j slot : Nat} {forward : Bool} (credits : Nat)
    (none : (getVs s p j).sendF = [] ∧ (getVs s p j).sendB = [])
    (free : ∀ e, e ∈ cellsAt s p j → ¬(e.2.outSlot = slot ∧ e.2.st = (if forward then .forward else .backward))) :
    reported s p j slot credits forward false
      = if forward then { getVs s p j with owedF := (getVs s p j).owedF - credits, outF := (getVs s p j).outF.filter (· != slot) }
        else { getVs s p j with owedB := (getVs s p j).owedB - credits, outB := (getVs s p j).outB.filter (· != slot) } := by
  obtain ⟨noF, noB⟩ := none
  have unused : (cellsAt s p j).any (fun e =>
      e.2.outSlot == slot && (if forward then e.2.st == .forward else e.2.st == .backward)) = false := by
    refine List.any_eq_false.mpr fun e he => ?_
    have := free e he
    cases forward <;> simpa using this
  unfold reported
  rw [unused]
  cases forward <;> simp [VSt.waiting, VSt.returned, noF, noB]

/-- A report where nothing waits to be sent: the queues of one virtual stage are `v`, and an exhaustion episode may begin. -/
theorem report_results {s : State} {p j : Nat} (here : j < (getTrain s p).vs.length) (none : NoneWait s p) {v : VSt}
    (sends : v.sendF = (getVs s p j).sendF ∧ v.sendB = (getVs s p j).sendB) :
    ∃ t, checkExhausted (pumpStageItems (setVs s p j v) p) p = t ∧ getVs t p j = v
      ∧ (∀ i, i ≠ j → getVs t p i = getVs s p i) ∧ (∀ r, r ≠ p → getTrain t r = getTrain s r)
      ∧ SameRegsBut s t [Reg.BRD_USE p]
      ∧ t = { s with train := t.train, regs := t.regs, recs := t.recs, recSeq := t.recSeq } := by
  have noneWait : NoneWait (setVs s p j v) p := by
    intro k
    by_cases h : k = j
    · subst h
      rw [getVs_setVs here, sends.1, sends.2]
      exact none k
    · rw [getVs_setVs_other s p h]
      exact none k
  have pumped := pumpStageItems_idle noneWait
  generalize pumpStageItems (setVs s p j v) p = u at *
  obtain ⟨trains, frame⟩ := pumped
  have regs : u.regs = s.regs := by rw [frame]; rfl
  refine ⟨_, rfl, ?_, fun i hi => ?_, fun r hr => ?_, ?_, ?_⟩
  · rw [getVs_checkExhausted, getVs_congr (congrArg Train.vs (trains p)), getVs_setVs here]
  · rw [getVs_checkExhausted, getVs_congr (congrArg Train.vs (trains p)), getVs_setVs_other s p hi]
  · rw [getTrain_checkExhausted_other _ hr, trains, getTrain_setVs_other s j v hr]
  · exact (sameRegsBut_of_regs regs []).trans (sameRegsBut_checkExhausted u p) (List.nil_subset _) (List.Subset.refl _)
  · rw [checkExhausted_frame, frame]
    rfl

/-! ### An item that leaves (R198) -/

/-- At virtual stage `j` the forward item `o` waits, with a credit left, and nothing else waits anywhere. -/
structure OneWaits (s : State) (p : Nat) (g : ManStage) (j : Nat) (o : OutItem) : Prop where
  here : j < (getTrain s p).vs.length
  own : flg s (Reg.GRD_ROLE p) Fld.GRD_ROLE_BACKUP_ROLE = false
  noB : ∀ k, (getVs s p k).sendB = []
  noF : ∀ k, k ≠ j → (getVs s p k).sendF = []
  waits : (getVs s p j).sendF = [o]
  main : o.main = true
  plain : o.copy = false
  credit : (getVs s p j).owedF < sendSlots g j true

/-- The item has left against a credit. -/
def itemSent (s : State) (p j : Nat) (o : OutItem) : State :=
  emit (setVs s p j { getVs s p j with sendF := [], owedF := (getVs s p j).owedF + 1 }) (.stageItem p o.pos true false o.item)

section
variable {s : State} {p j : Nat} {g : ManStage} {o : OutItem}

theorem OneWaits.congr {t : State} (one : OneWaits s p g j o) (same : SameTrains s t) : OneWaits t p g j o where
  here := by
    rw [same.1]
    exact one.here
  own := by
    rw [same.2]
    exact one.own
  noB k := by
    rw [same.getVs]
    exact one.noB k
  noF k h := by
    rw [same.getVs]
    exact one.noF k h
  waits := by
    rw [same.getVs]
    exact one.waits
  main := one.main
  plain := one.plain
  credit := by
    rw [same.getVs]
    exact one.credit

theorem getVs_itemSent (here : j < (getTrain s p).vs.length) :
    getVs (itemSent s p j o) p j = { getVs s p j with sendF := [], owedF := (getVs s p j).owedF + 1 } :=
  getVs_setVs here _

theorem getVs_itemSent_other {k : Nat} (h : k ≠ j) : getVs (itemSent s p j o) p k = getVs s p k :=
  getVs_setVs_other s p h _

theorem OneWaits.noneWait (one : OneWaits s p g j o) : NoneWait (itemSent s p j o) p := by
  intro k
  by_cases h : k = j
  · subst h
    rw [getVs_itemSent one.here]
    exact ⟨rfl, one.noB k⟩
  · rw [getVs_itemSent_other h]
    exact ⟨one.noF k h, one.noB k⟩

/-- The one item that waits leaves. -/
theorem pumpItems_one (one : OneWaits s p g j o) : pumpItems s p g j true = itemSent s p j o := by
  have room : [o].length ≤ sendSlots g j true - (getVs s p j).owedF := Nat.sub_pos_of_lt one.credit
  have left : (getVs s p j).sendable (sendSlots g j true) true false = [o] := by
    simp [VSt.sendable, one.waits, one.main, List.take_of_length_le room]
  have copies : (getVs s p j).sendable (sendSlots g j true) true true = [] := by
    simp [VSt.sendable, one.waits, one.plain]
  unfold pumpItems
  simp [itemSent, one.own, left, copies, one.waits, one.plain]

/-- Pumping its virtual stage and any others after it sends the item and nothing more. -/
theorem foldl_pumpBoth_one (one : OneWaits s p g j o) (js : List Nat) :
    SameTrains (itemSent s p j o) ((j :: js).foldl (pumpBoth p g) s) := by
  rw [List.foldl_cons, pumpBoth, pumpItems_one one]
  have back : SameTrains (itemSent s p j o) (pumpItems (itemSent s p j o) p g j false) :=
    pumpItems_idle (forward := false) (one.noneWait j).2 g
  refine back.trans (foldl_pumpBoth_idle g fun k _ => ?_)
  rw [back.getVs]
  exact one.noneWait k

theorem pumpStageItems_one {x : Nat} (stage : stageOf s p = some (x, g)) (known : j < g.vstages.length) (one : OneWaits s p g j o) :
    (pumpStageItems s p).out = s.out ++ [.stageItem p o.pos true false o.item]
      ∧ getVs (pumpStageItems s p) p j = { getVs s p j with sendF := [], owedF := (getVs s p j).owedF + 1 } := by
  obtain ⟨before, after, js, notBefore⟩ := List.eq_append_cons_of_mem (List.mem_range.mpr known)
  have idle : SameTrains s (before.foldl (pumpBoth p g) s) :=
    foldl_pumpBoth_idle g fun k hk => ⟨one.noF k fun e => notBefore (e ▸ hk), one.noB k⟩
  have one' := one.congr idle
  have sent := foldl_pumpBoth_one one' after
  rw [pumpStageItems_eq stage, ManStage.js, js, List.foldl_append]
  refine ⟨?_, ?_⟩
  · rw [sent.2]
    show (before.foldl (pumpBoth p g) s).out ++ _ = _
    rw [idle.2]
  · rw [sent.getVs, getVs_itemSent one'.here, idle.getVs]

/-- A report that returns credits where one forward item waits. -/
theorem report_leaves {x slot credits : Nat} (stage : stageOf s p = some (x, g)) (known : j < g.vstages.length)
    (one : OneWaits (setVs s p j (reported s p j slot credits true false)) p g j o) (here : j < (getTrain s p).vs.length) :
    ∃ t, exec (.outboundCappedReport p j ⟨true, false⟩ ⟨slot, credits⟩) s = .next t
      ∧ t.out = s.out ++ [.stageItem p o.pos true false o.item] ∧ (getVs t p j).sendF = []
      ∧ (getVs t p j).owedF = (getVs s p j).owedF - credits + 1 := by
  obtain ⟨out, queues⟩ := pumpStageItems_one (s := setVs s p j _) stage known one
  rw [getVs_setVs here] at queues
  refine ⟨_, exec_outboundCappedReport .., (out_checkExhausted ..).trans out, ?_, ?_⟩
  · rw [getVs_checkExhausted, queues]
  · rw [getVs_checkExhausted, queues, reported_owedF]

end

/-- A report keeps the one item waiting, with the credit that it returns. -/
theorem oneWaits_reported {s : State} {p j credits : Nat} {g : ManStage} {o : OutItem} (slot : Nat) (here : j < (getTrain s p).vs.length)
    (own : flg s (Reg.GRD_ROLE p) Fld.GRD_ROLE_BACKUP_ROLE = false) (noB : ∀ k, (getVs s p k).sendB = [])
    (noF : ∀ k, k ≠ j → (getVs s p k).sendF = []) (waits : (getVs s p j).sendF = [o]) (main : o.main = true)
    (plain : o.copy = false) (credit : (getVs s p j).owedF - credits < sendSlots g j true) :
    OneWaits (setVs s p j (reported s p j slot credits true false)) p g j o := by
  obtain ⟨sendF, sendB⟩ := reported_sends s p j slot credits true false
  have owed := reported_owedF s p j slot credits
  generalize reported s p j slot credits true false = v at *
  have reads : getVs (setVs s p j v) p j = v := getVs_setVs here v
  have others {k : Nat} (h : k ≠ j) : getVs (setVs s p j v) p k = getVs s p k := getVs_setVs_other s p h v
  refine ⟨by simpa [setVs] using here, own, fun k => ?_, fun k h => ?_, ?_, main, plain, ?_⟩
  · by_cases h : k = j
    · rw [h, reads, sendB]
      exact noB j
    · rw [others h]
      exact noB k
  · rw [others h]
    exact noF k h
  · rw [reads, sendF, waits]
  · rw [reads, owed]
    exact credit

/-- Settles O27: an item by its attempt, its step and its slot, a report by what waits for its credits. -/
theorem stageQueues : Obligations.StageQueues := by
  unfold Obligations.StageQueues
  refine ⟨⟨fun s p x g mv forward i stage known first last old => item_stale stage (inbound_of known first last) old,
    fun s p x g mv i stage known first new early => ?_,
    fun s p x k g mv forward i stage known first last new due here slot => ?_⟩,
    fun s p j slot credits forward here none free => ?_, fun s p j slot credits forward here none => ?_,
    fun s p x j slot credits g o stage known here own noB noF waits main plain credit =>
      report_leaves stage known (oneWaits_reported slot here own noB noF waits main plain credit) here⟩
  · have run := exec_inboundItemCapped (forward := true) (i := i) stage
    rw [stageItemCapped_early (inbound_of known (fun _ => first) nofun) new early] at run
    exact ⟨_, run, rfl, rfl⟩
  · have run := exec_inboundItemCapped (forward := forward) (i := i) stage
    rw [stageItemCapped_current (inbound_of known first last) new due] at run
    exact ⟨item_capped run known slot here, fun b => item_refused run known slot⟩
  · obtain ⟨t, eq, queues, others, trains, regs, frame⟩ :=
      report_results here none (reported_sends s p j slot credits forward false)
    rw [reported_freed credits (none j) free] at queues
    exact ⟨t, by rw [exec_outboundCappedReport, eq], queues, others, trains, regs, frame⟩
  · obtain ⟨t, eq, queues, others, -, regs, -⟩ := report_results here none (reported_sends s p j slot credits forward true)
    refine ⟨t, by rw [exec_outboundCappedReport, eq], ?_, others, regs⟩
    rw [queues, reported_copy]
    cases forward <;> rfl

end Sys2Proof.Machine
end

section
/-! The parameter gather ends, and ready chunks reach their handlers (R217, R244, R248, R425). -/

namespace Sys2Proof.Machine

/-! ### The step gate (R217, R221) -/

/-- An exhaustion episode is all that its check changes of the training state. -/
theorem getTrain_checkExhausted (s : State) (p : Nat) :
    ∃ episode, getTrain (checkExhausted s p) p = { getTrain s p with episode := episode } := by
  obtain same | ⟨r, begun⟩ := checkExhausted_cases s p
  · exact ⟨_, by rw [same]⟩
  · exact ⟨some (beat s), by rw [begun, getTrain_raise, getTrain_bump, getTrain_setTrain]⟩

theorem getTrain_openGate (s : State) (p : Nat) (hold : Bool) : ∃ episode, getTrain (openGate s p hold) p
    = { getTrain s p with orWait := false, fwdHold := hold, wagSince := none, episode := episode } := by
  obtain ⟨episode, eq⟩ :=
    getTrain_checkExhausted (setTrain s p { getTrain s p with orWait := false, fwdHold := hold, wagSince := none }) p
  rw [getTrain_setTrain] at eq
  exact ⟨episode, eq⟩

theorem getTrain_openGate_other (s : State) {p q : Nat} (hold : Bool) (h : q ≠ p) : getTrain (openGate s p hold) q = getTrain s q :=
  (getTrain_checkExhausted_other _ h).trans (getTrain_setTrain_other s _ h)

theorem sameRegsBut_openGate (s : State) (p : Nat) (hold : Bool) : SameRegsBut s (openGate s p hold) [Reg.BRD_USE p] :=
  sameRegsBut_checkExhausted (setTrain s p { getTrain s p with orWait := false, fwdHold := hold, wagSince := none }) p

/-- All that an opened gate changes. -/
theorem openGate_frame (s : State) (p : Nat) (hold : Bool) : openGate s p hold = { s with
    train := (openGate s p hold).train
    regs := (openGate s p hold).regs
    recs := (openGate s p hold).recs
    recSeq := (openGate s p hold).recSeq } :=
  (checkExhausted_frame _ p).trans rfl

/-! ### The end of the gather (R248, R425) -/

/-- The group of a complete gather is free and the gather counted. -/
def gatherCounted (s : State) (p slot : Nat) : State :=
  setTrain (countCol (setGrp s slot ({ getGrp s slot with bulk := none }).settle) p false) p { getTrain s p with gather := false }

/-- The same, with a snapshot that is due begun; the gate is still shut. -/
def gatherFreed (s : State) (p slot : Nat) : State :=
  if (getCkpt (gatherCounted s p slot) p).snap then setPhase (gatherCounted s p slot) p 1 else gatherCounted s p slot

section
variable (s : State) (p slot : Nat)

theorem getTrain_gatherCounted : getTrain (gatherCounted s p slot) p = { getTrain s p with gather := false } := getTrain_setTrain ..

theorem sameRegsBut_gatherCounted : SameRegsBut s (gatherCounted s p slot) [Reg.COL_STAT p] :=
  sameRegsBut_bump (setGrp s slot ({ getGrp s slot with bulk := none }).settle) (Reg.COL_STAT p) Fld.COL_STAT_COMPLETED 1

theorem completed_gatherCounted : fld (gatherCounted s p slot) (Reg.COL_STAT p) Fld.COL_STAT_COMPLETED
    = satAdd Fld.COL_STAT_COMPLETED.w (fld s (Reg.COL_STAT p) Fld.COL_STAT_COMPLETED) 1 :=
  (onlyField_bump (setGrp s slot ({ getGrp s slot with bulk := none }).settle) (Reg.COL_STAT p) Fld.COL_STAT_COMPLETED 1 (by decide)).1

/-- The snapshot's beginning changes the checkpoint's phase alone. -/
theorem gatherFreed_cases : gatherFreed s p slot = gatherCounted s p slot ∧ (getCkpt s p).snap = false
    ∨ gatherFreed s p slot = setPhase (gatherCounted s p slot) p 1 := by
  have kept : (getCkpt (gatherCounted s p slot) p).snap = (getCkpt s p).snap := by
    rw [getCkpt, getTrain_gatherCounted, getCkpt]
  unfold gatherFreed
  rw [kept]
  cases (getCkpt s p).snap
  · exact .inl ⟨rfl, rfl⟩
  · exact .inr rfl

theorem getTrain_gatherFreed : getTrain (gatherFreed s p slot) p = { getTrain s p with gather := false } := by
  obtain ⟨eq, -⟩ | eq := gatherFreed_cases s p slot <;> rw [eq] <;> exact getTrain_gatherCounted s p slot

theorem getTrain_gatherFreed_other {q : Nat} (h : q ≠ p) : getTrain (gatherFreed s p slot) q = getTrain s q := by
  obtain ⟨eq, -⟩ | eq := gatherFreed_cases s p slot <;> rw [eq] <;> exact getTrain_setTrain_other _ _ h

/-- All that the freed group and the snapshot's beginning change. -/
theorem gatherFreed_frame : gatherFreed s p slot = { s with
    grps := (setGrp s slot ({ getGrp s slot with bulk := none }).settle).grps
    train := (gatherFreed s p slot).train
    regs := (gatherFreed s p slot).regs } := by
  obtain ⟨eq, -⟩ | eq := gatherFreed_cases s p slot <;> rw [eq]
  · rfl
  · rfl

theorem sameRegsBut_gatherFreed : SameRegsBut s (gatherFreed s p slot) [Reg.COL_STAT p, Reg.CKP_LAST p] := by
  have counted := sameRegsBut_gatherCounted s p slot
  obtain ⟨eq, -⟩ | eq := gatherFreed_cases s p slot <;> rw [eq]
  · exact counted.trans (sameRegsBut_refl _ []) (by simp) (by simp)
  · exact counted.trans (sameRegsBut_setFld _ (Reg.CKP_LAST p) Fld.CKP_LAST_PHASE 1) (by simp) (by simp)

theorem completed_gatherFreed : fld (gatherFreed s p slot) (Reg.COL_STAT p) Fld.COL_STAT_COMPLETED
    = satAdd Fld.COL_STAT_COMPLETED.w (fld s (Reg.COL_STAT p) Fld.COL_STAT_COMPLETED) 1 := by
  rw [← completed_gatherCounted s p slot]
  obtain ⟨eq, -⟩ | eq := gatherFreed_cases s p slot <;> rw [eq]
  exact fld_setFld_other _ _ _ _ (by simp [Reg.COL_STAT, Reg.CKP_LAST])

end

theorem phase_gatherFreed {s : State} {p : Nat} (slot : Nat) (due : (getCkpt s p).snap = true) :
    fld (gatherFreed s p slot) (Reg.CKP_LAST p) Fld.CKP_LAST_PHASE = 1 := by
  obtain ⟨-, no⟩ | eq := gatherFreed_cases s p slot
  · exact absurd (due.symm.trans no) (by decide)
  · rw [eq]
    exact fld_setFld_same _ (Reg.CKP_LAST p) Fld.CKP_LAST_PHASE 1 (by decide)

/-- A partition that does not resume finishes nothing more. -/
theorem finishResume_fresh {s : State} {p : Nat} (fresh : Sparse.get none s.resume p = none) : finishResume s p = s := by
  unfold finishResume
  rw [fresh]

theorem resume_openGate (s : State) (p : Nat) (hold : Bool) : (openGate s p hold).resume = s.resume := by
  rw [openGate_frame]

theorem resume_gatherFreed (s : State) (p slot : Nat) : (gatherFreed s p slot).resume = s.resume := by
  rw [gatherFreed_frame]

/-- A group for which nothing waits takes in nothing. -/
theorem afterCol_idle {s : State} {slot : Nat} (idle : (getGrp s slot).waiting = []) : afterCol s slot = s := by
  unfold afterCol
  rw [idle]
  rfl

theorem waiting_settle (g : Grp) : g.settle.waiting = g.waiting := by
  unfold Grp.settle
  split <;> rfl

section
variable {s : State} {p slot : Nat} {b : Bulk} (red : redSlot s p = some slot) (bulk : (getGrp s slot).bulk = some b)
  (gathers : (getTrain s p).gather = true) (up : (getGrp s slot).aborting = none) (device : b.owner = none)
  (done : b.done (grpGeo s (getGrp s slot) b.sig) = true) (idle : (getGrp s slot).waiting = [])
include red bulk gathers up device done idle

/-- The gather ends; the group's waiting entries, of which there are none, follow. -/
theorem gatherDone_complete : gatherDone s p = some (openGate (gatherFreed s p slot) p false) := by
  have free : (getGrp (openGate (gatherFreed s p slot) p false) slot).waiting = [] := by
    rw [openGate_frame, gatherFreed_frame]
    exact (congrArg Grp.waiting (getGrp_setGrp s slot _)).trans ((waiting_settle _).trans idle)
  unfold gatherDone
  simp only [red, bulk]
  exact (if_pos ⟨gathers, by rw [up]; rfl, by rw [device]; rfl, done⟩).trans (congrArg some (afterCol_idle free))

theorem exec_parameterGatherComplete (fresh : Sparse.get none s.resume p = none) :
    exec (.parameterGatherComplete p) s = .next (openGate (gatherFreed s p slot) p false) := by
  show execParameterGatherComplete p s = _
  unfold execParameterGatherComplete
  rw [gatherDone_complete red bulk gathers up device done idle]
  refine congrArg Host.Outcome.next (finishResume_fresh ?_)
  rwa [resume_openGate, resume_gatherFreed]

theorem gather_results (fresh : Sparse.get none s.resume p = none) :
    ∃ t, exec (.parameterGatherComplete p) s = .next t ∧ getGrp t slot = ({ getGrp s slot with bulk := none }).settle
      ∧ OnlyGrp s t slot ∧ (getTrain t p).gather = false ∧ (getTrain t p).orWait = false ∧ (getTrain t p).fwdHold = false
      ∧ (∀ r, r ≠ p → getTrain t r = getTrain s r)
      ∧ ((getCkpt s p).snap = true → fld t (Reg.CKP_LAST p) Fld.CKP_LAST_PHASE = 1)
      ∧ fld t (Reg.COL_STAT p) Fld.COL_STAT_COMPLETED
          = satAdd Fld.COL_STAT_COMPLETED.w (fld s (Reg.COL_STAT p) Fld.COL_STAT_COMPLETED) 1
      ∧ SameRegsBut s t [Reg.COL_STAT p, Reg.CKP_LAST p, Reg.BRD_USE p]
      ∧ t = { s with grps := t.grps, train := t.train, regs := t.regs, recs := t.recs, recSeq := t.recSeq } := by
  have opened := sameRegsBut_openGate (gatherFreed s p slot) p false
  have grps : (openGate (gatherFreed s p slot) p false).grps
      = (setGrp s slot ({ getGrp s slot with bulk := none }).settle).grps := by
    rw [openGate_frame, gatherFreed_frame]
  obtain ⟨episode, train⟩ := getTrain_openGate (gatherFreed s p slot) p false
  rw [getTrain_gatherFreed] at train
  refine ⟨_, exec_parameterGatherComplete red bulk gathers up device done idle fresh, ?_, fun k hk => ?_, ?_, ?_, ?_, fun r hr => ?_,
    fun due => ?_, ?_, ?_, ?_⟩
  · rw [getGrp, grps]
    exact getGrp_setGrp s slot _
  · rw [getGrp, grps]
    exact getGrp_setGrp_other s _ hk
  · rw [train]
  · rw [train]
  · rw [train]
  · rw [getTrain_openGate_other _ _ hr, getTrain_gatherFreed_other s p slot hr]
  · exact (opened.fld (by simp [Reg.CKP_LAST, Reg.BRD_USE]) _).trans (phase_gatherFreed slot due)
  · exact (opened.fld (by simp [Reg.COL_STAT, Reg.BRD_USE]) _).trans (completed_gatherFreed s p slot)
  · exact (sameRegsBut_gatherFreed s p slot).trans opened (by simp) (by simp)
  · rw [openGate_frame, gatherFreed_frame]

end

/-! ### A chunk that reaches its handler (R244) -/

/-- The exchange once a ready chunk, number `first` of the gradient, has been delivered. -/
def Xch.deliver (e : Xch) (first : Nat) (v : ReadyChunk) : Xch :=
  { e with
    ready := e.ready.filter (· != v), delivered := e.delivered ++ [v.c], nfx := e.nfx || v.nonfinite
    nfFirst := if v.nonfinite && e.nfCount == 0 then first else e.nfFirst
    nfCount := e.nfCount + bnat v.nonfinite }

/-- The exchange is `e`, the chunk lies in the core's chunk buffer and is counted; its handler has yet to be spawned. -/
def chunkBuffered (s : State) (p core : Nat) (e : Xch) (v : ReadyChunk) : State :=
  let t := setTrain s p { getTrain s p with xch := some e }
  let t := { t with chunkBufs := Sparse.set [] t.chunkBufs core (Sparse.get [] t.chunkBufs core ++ [(p, v.c, v.vals)]) }
  setFld (bump t (Reg.OPT_CHUNKS p) Fld.OPT_CHUNKS_DISPATCHED 1) (Reg.OPT_PART p) Fld.OPT_PART_BUSY 1

/-- The handler task of a chunk at logical core `l`. -/
def chunkTask (s : State) (p : Nat) (r : ManReduce) (f : GFlow) (n l : Nat) (v : ReadyChunk) : Task :=
  { entry := r.entry, args := handlerArgs s p f n v, tid := 0, home := l, group := some (l, l), kind := .optHandler p v.c, bound := .none }

section
variable (s : State) (p core : Nat) (e : Xch) (v : ReadyChunk)

theorem sameRegsBut_chunkBuffered : SameRegsBut s (chunkBuffered s p core e v) [Reg.OPT_CHUNKS p, Reg.OPT_PART p] :=
  (sameRegsBut_bump _ (Reg.OPT_CHUNKS p) Fld.OPT_CHUNKS_DISPATCHED 1).trans
    (sameRegsBut_setFld _ (Reg.OPT_PART p) Fld.OPT_PART_BUSY 1) (by simp) (by simp)

theorem dispatched_chunkBuffered : fld (chunkBuffered s p core e v) (Reg.OPT_CHUNKS p) Fld.OPT_CHUNKS_DISPATCHED
    = satAdd Fld.OPT_CHUNKS_DISPATCHED.w (fld s (Reg.OPT_CHUNKS p) Fld.OPT_CHUNKS_DISPATCHED) 1 :=
  (fld_setFld_other _ _ _ _ (by simp [Reg.OPT_CHUNKS, Reg.OPT_PART])).trans
    (onlyField_bump _ (Reg.OPT_CHUNKS p) Fld.OPT_CHUNKS_DISPATCHED 1 (by decide)).1

theorem onlyField_chunkBuffered : OnlyField s (chunkBuffered s p core e v) (Reg.OPT_PART p) Fld.OPT_PART_BUSY 1 :=
  (onlyField_setFld _ (Reg.OPT_PART p) Fld.OPT_PART_BUSY 1 (by decide) (by decide)).congr
    (rd_bump_other _ Fld.OPT_CHUNKS_DISPATCHED 1 (by simp [Reg.OPT_CHUNKS, Reg.OPT_PART])).symm rfl

theorem bankOf_chunkBuffered : bankOf (chunkBuffered s p core e v) p = bankOf s p :=
  (fld_setFld_apart _ _ _ _ _ (by decide) (by decide)).trans
    (fld_setFld_other _ _ _ _ (by simp [Reg.OPT_CHUNKS, Reg.OPT_PART]))

/-- What a handler task is given does not depend on the chunk's having been counted. -/
theorem chunkTask_chunkBuffered (r : ManReduce) (f : GFlow) (n l : Nat) :
    chunkTask (chunkBuffered s p core e v) p r f n l v = chunkTask s p r f n l v := by
  have regs := sameRegsBut_chunkBuffered s p core e v
  have step : xchStep (chunkBuffered s p core e v) p = xchStep s p := by
    unfold xchStep
    rw [regs.fld (by simp [Reg.BRD_STEP, Reg.OPT_CHUNKS, Reg.OPT_PART])]
  have scale : lossScale (chunkBuffered s p core e v) p = lossScale s p := by
    unfold lossScale
    rw [regs.fld (by simp [Reg.BRD_LS, Reg.OPT_CHUNKS, Reg.OPT_PART])]
  unfold chunkTask handlerArgs
  rw [step, scale, bankOf_chunkBuffered]

end

section
variable {s : State} {p c slot x : Nat} {r : ManReduce} {b : Bulk} {e : Xch} {v : ReadyChunk}

/-- The logical core that handles a chunk. -/
def handlerCore (s : State) (p : Nat) (r : ManReduce) (c : Nat) : Nat := (handlerGroup s p r).1 + c % max 1 (handlerGroup s p r).2

theorem deliverChunk_eq (s : State) (p slot x : Nat) (r : ManReduce) (b : Bulk) (e : Xch) (v : ReadyChunk) :
    ∃ first, deliverChunk s p slot x r b e v
      = spawnTask (chunkBuffered s p (physCore s p (handlerCore s p r v.c)) (e.deliver first v) v) x true
        (chunkTask s p r (gflow s p slot e.comp b.sig) (getGrp s slot).members.length (handlerCore s p r v.c) v) :=
  ⟨_, congrArg (spawnTask (chunkBuffered s p _ _ v) x true) (chunkTask_chunkBuffered s p _ _ v r _ _ _)⟩

theorem exec_handlerChunkDelivery (red : redSlot s p = some slot) (reduce : reduceOf s p = some (x, r))
    (bulk : (getGrp s slot).bulk = some b) (xch : (getTrain s p).xch = some e)
    (ready : e.ready.find? (fun v => v.c == c) = some v) (agreed : b.agreed = true) (live : e.aborted = false)
    (up : (getGrp s slot).aborting = none) (snap : (getCkpt s p).snap = false)
    (room : (Sparse.get [] s.chunkBufs (physCore s p (handlerCore s p r c))).length < 4) :
    exec (.handlerChunkDelivery p c) s = .next (deliverChunk s p slot x r b e v) := by
  show execHandlerChunkDelivery p c s = _
  unfold execHandlerChunkDelivery
  simp only [red, reduce, bulk, xch, ready]
  unfold handlerCore at room
  exact if_pos (by simp [agreed, live, up, snap, room])

/-- A chunk delivered to a busy core whose deque has room. -/
theorem chunkSpawned_results (s : State) (p core x : Nat) (e : Xch) (v : ReadyChunk) {k : Task} (held : (getCore s x k.home).held = [])
    (room : dequeRoom s x k.home = true) (busy : (getRun s x k.home).isSome = true) :
    let t := spawnTask (chunkBuffered s p core e v) x true k
    (getTrain t p).xch = some e
      ∧ Sparse.get [] t.chunkBufs core = Sparse.get [] s.chunkBufs core ++ [(p, v.c, v.vals)]
      ∧ (∀ n, n ≠ core → Sparse.get [] t.chunkBufs n = Sparse.get [] s.chunkBufs n)
      ∧ getCore t x k.home = { getCore s x k.home with deque := k :: (getCore s x k.home).deque }
      ∧ (∀ y, y ≠ x → getCtx t y = getCtx s y)
      ∧ fld t (Reg.OPT_CHUNKS p) Fld.OPT_CHUNKS_DISPATCHED
          = satAdd Fld.OPT_CHUNKS_DISPATCHED.w (fld s (Reg.OPT_CHUNKS p) Fld.OPT_CHUNKS_DISPATCHED) 1
      ∧ OnlyField s t (Reg.OPT_PART p) Fld.OPT_PART_BUSY 1 ∧ SameRegsBut s t [Reg.OPT_CHUNKS p, Reg.OPT_PART p]
      ∧ t = { s with train := t.train, chunkBufs := t.chunkBufs, ctxs := t.ctxs, regs := t.regs } := by
  rw [spawnTask_busy (s := chunkBuffered s p core e v) room held busy]
  refine ⟨congrArg Train.xch (getTrain_setTrain s p _), ?_, ?_,
    getCore_setCore .., fun y hy => getCtx_setCtx_other _ _ hy, dispatched_chunkBuffered s p core e v,
    onlyField_chunkBuffered s p core e v, sameRegsBut_chunkBuffered s p core e v, ?_⟩
  · exact Sparse.get_set_same _ _ _
  · exact fun n hn => Sparse.get_set_other _ _ hn
  · rfl

end

/-- Settles O30: the gather's end by what it frees before the gate opens, a delivery by what it leaves before its task is spawned. -/
theorem gathersAndHandlers : Obligations.GathersAndHandlers := by
  unfold Obligations.GathersAndHandlers
  refine ⟨fun s p slot b red bulk gathers up device done idle fresh => gather_results red bulk gathers up device done idle fresh,
    fun s p c slot x r b e v red reduce bulk xch ready agreed live up snap few held room busy => ?_⟩
  obtain rfl : v.c = c := by simpa using List.find?_some ready
  obtain ⟨first, delivered⟩ := deliverChunk_eq s p slot x r b e v
  refine ⟨_, e.deliver first v, exec_handlerChunkDelivery red reduce bulk xch ready agreed live up snap few, ?_⟩
  rw [delivered]
  obtain ⟨xch', rest⟩ := chunkSpawned_results s p (physCore s p (handlerCore s p r v.c)) x (e.deliver first v) v
    (k := chunkTask s p r (gflow s p slot e.comp b.sig) (getGrp s slot).members.length (handlerCore s p r v.c) v) held room busy
  exact ⟨xch', rfl, rfl, rfl, rest⟩

end Sys2Proof.Machine
end

section
/-! Admissions of cells (R202, R203, R210): the home core of an entry task is found once BRD_USE counts the cell. -/

namespace Sys2Proof.Machine

/-! A state that refutes O28. The device has partitions 0 to 7, and the statement speaks of any number: the state's context names
partition 2009, whose BRD_USE would be the register PLC_SEED. The cell that the forward admission takes is counted there, and so changes
the seed of the home cores before the entry task's is found; the statement finds it by the seed that stood before. -/

/-- One virtual stage, of one micro-batch a step. -/
def farStage : ManStage := ⟨0, 1, 1, [Tests.mv1], [0], []⟩

/-- A RUNNABLE context of partition 2009 with two cores; a micro-batch waits, the quota is one cell, PLC_SEED is 1. -/
def seededState : State :=
  { State.reset with
    ctxs := [(0, { Ctx.free with st := .runnable, part := 2009, man := some { Tests.man0 with stage := some farStage } })]
    partCores := [(2009, [0, 1])]
    train := [(2009, { Train.idle with vs := [{ VSt.none with inF := [Tests.it0] }] })]
    regs := [(Reg.BRD_PART 2009, 1), (Reg.PLC_SEED, 1)] }

theorem seededState_admits :
    stageOf seededState 2009 = some (0, farStage) ∧ farStage.vstages[0]? = some Tests.mv1
    ∧ (getVs seededState 2009 0).inF = [Tests.it0] ∧ freeCell seededState = some 0 ∧ 0 < (getTrain seededState 2009).vs.length
    ∧ fwdReady seededState 2009 0 farStage 0 = true ∧ anyAcc seededState 2009 0 farStage = false
    ∧ anyBwd seededState 2009 0 farStage 0 = false ∧ anyFwd seededState 2009 0 farStage 1 = false := by
  decide +kernel

/-- The cores of context 0 in whose deques tasks lie. -/
def coresWithTasks (s : State) : List Nat := (List.range 2).filter fun l => !(getCore s 0 l).deque.isEmpty

/-- The cores with tasks after a step. -/
def coresAfter (c : Instr) (s : State) : List Nat :=
  match exec c s with
  | .next t => coresWithTasks t
  | _ => []

/-- The entry task goes to core 0. -/
theorem coresAfter_seededState : coresAfter (.forwardAdmission 2009 0) seededState = [0] := by decide +kernel

/-- A task spawned at core 1 lies there. -/
theorem coresWithTasks_spawnTask {k : Task} (home : k.home = 1) (near : Bool) : coresWithTasks (spawnTask seededState 0 near k) = [1] := by
  have idle : (getCore seededState 0 0).deque = [] ∧ (getCore seededState 0 1).held.isEmpty = true ∧ dequeRoom seededState 0 1 = true
      ∧ runningCtx seededState 0 = false := by decide +kernel
  obtain ⟨empty, held, room, waiting⟩ := idle
  have other (core : CoreCtx) : getCore (setCore seededState 0 1 core) 0 0 = getCore seededState 0 0 :=
    getCore_setCore_core seededState 0 core (by decide)
  have range : List.range 2 = [0, 1] := rfl
  have spawned : spawnTask seededState 0 near k = pushTask seededState 0 1 near k := by
    unfold spawnTask
    rw [home]
    exact if_pos (by rw [held, room]; rfl)
  rw [spawned, pushTask_notRunning waiting]
  cases near <;> simp [coresWithTasks, range, other, empty]

/-- By the seed that stood before, it would go to core 1, whatever else the cell and the task hold. -/
theorem coresWithTasks_spawnEntry {c : Nat} {cell : Cell} (first : cell.index = 0) (entry : Word) (near : Bool) (args : List Word) :
    coresWithTasks (spawnEntry seededState 0 c cell entry none near args) = [1] := by
  have home : homeDevice seededState 0 none 0 = (1, none) := by decide +kernel
  unfold spawnEntry
  rw [first, home]
  exact coresWithTasks_spawnTask rfl near

theorem coresWithTasks_of_ctxs {s t : State} (h : t.ctxs = s.ctxs) : coresWithTasks t = coresWithTasks s := by
  unfold coresWithTasks
  simp only [getCore_of_ctxs h]

/-- Refutes O28: `seededState` meets the first clause's premises, and its entry task goes to another core than the clause says. -/
theorem not_stageAdmissions : ¬ Obligations.StageAdmissions := by
  unfold Obligations.StageAdmissions
  rintro ⟨admits, -⟩
  obtain ⟨stage, known, waits, free, inside, ready, noAcc, noBwd, noFwd⟩ := seededState_admits
  obtain ⟨t, step, -, -, -, ctxs, -⟩ := admits seededState 2009 0 0 0 farStage Tests.mv1 Tests.it0 [] stage known waits free inside
    ready noAcc (fun _ => noBwd) noFwd
  have goes := coresAfter_seededState
  unfold coresAfter at goes
  rw [step] at goes
  have said := (coresWithTasks_of_ctxs ctxs).trans (coresWithTasks_spawnEntry rfl _ _ _)
  exact absurd (goes.symm.trans said) (by decide)

end Sys2Proof.Machine
end

section
/-! The commit vote's repeat (R223, R260): the flags of a context that the rewind finds FREE stay. -/

namespace Sys2Proof.Machine

/-! A state that refutes O29. It lists context 0 twice: the entry that a read finds is FREE and has a STEP_SCOPED flag, and the second is
LOADED, so that the context counts as resident. The repeat drops the tasks bound to cells, which leaves the one entry that is FREE: its
flag keeps its value, where the statement says that it returns to its load state. -/

/-- A flag of the first entry of context 0. -/
def stepFlag : ManFlag := ⟨0, false, 0, false, true, 0, none⟩

/-- The manifest of the first entry. -/
def flaggedMan : Manifest := { Tests.man0 with flags := [stepFlag] }

/-- The exchange of partition 0 has voted; flag 0 is set. -/
def twiceVoted : State :=
  { State.reset with
    ctxs := [(0, { Ctx.free with man := some flaggedMan }), (0, { Ctx.free with st := .loaded })]
    flags := [(0, ⟨true, 0⟩)]
    train := [(0, { Train.idle with xch := some { Xch.fresh 0 with voted := true } })] }

theorem twiceVoted_votes :
    redSlot twiceVoted 0 = none ∧ (devTake twiceVoted 0 .vote).2 = none
    ∧ (twiceVoted.hostQ.filter (fun q => !q.isGap)).length < 4095 ∧ 0 ∈ ctxsOf twiceVoted 0
    ∧ manOf twiceVoted 0 = some flaggedMan := by
  decide +kernel

/-- Flag 0 after a step. -/
def flagAfter (c : Instr) (s : State) : Option FlagSt :=
  match exec c s with
  | .next t => some (getFlag t 0)
  | _ => none

/-- The window is repeated with the flag still set. -/
theorem flagAfter_twiceVoted : flagAfter (.commitVoteResult 0 false true false false false) twiceVoted = some ⟨true, 0⟩ := by
  decide +kernel

/-- Refutes O29: `twiceVoted` meets the premises of a repeat, and keeps the flag that the clause says is reset. -/
theorem not_stepEnds : ¬ Obligations.StepEnds := by
  unfold Obligations.StepEnds
  rintro ⟨-, votes⟩
  obtain ⟨alone, taken, room, resident, man⟩ := twiceVoted_votes
  obtain ⟨-, repeats, -⟩ := votes twiceVoted 0 _ false true false false false rfl rfl rfl rfl rfl
    (fun k h => absurd (alone.symm.trans h) nofun)
  obtain ⟨t, step, -, -, -, -, -, -, -, resets, -⟩ := repeats (by rw [taken]; rfl) (by rw [taken]; rfl) room
  have reset : getFlag t 0 = FlagSt.off := resets 0 flaggedMan stepFlag resident man List.mem_cons_self rfl rfl
  have kept := flagAfter_twiceVoted
  unfold flagAfter at kept
  rw [step] at kept
  exact absurd (reset.symm.trans (Option.some.inj kept)) (by decide)

end Sys2Proof.Machine
end

section
/-! The last entry of a barrier (R269): the waits that it wakes are looked for once S.BAR itself has begun to wait. -/

namespace Sys2Proof.Machine

/-! A state that refutes O19. It lists context 0 twice. In the entry that a read finds, the task of core 0 has started S.BAR, whose
entry is the last, and another instruction, number 1, that waits for nothing; in the second, instruction 1 waits for the generation
that S.BAR releases, and counts among the state's waits. S.BAR begins to wait, and that write of context 0 leaves one entry of it: the
release finds no wait of instruction 1, which stays in flight, where the statement says that it completes. -/

/-- S.BAR, not SPLIT, of the barrier that name 3 maps to. -/
def fullBar : CInstr := .sBar 3 0 false false 0 0 0

/-- Instruction 1, which waits for nothing. -/
def besideBar : Flight := { Tests.fl .started fullBar with id := 1 }

/-- The task that a read finds. -/
def enteringTask : Running := { Tests.rn with flying := [Tests.fl .started fullBar, besideBar] }

/-- Instruction 1 as the second entry has it, waiting for generation 1 of barrier 0. -/
def staleWait : Flight := { besideBar with waits := .barrier 0 1 1 }

/-- The task of the second entry. -/
def waitingTask : Running := { Tests.rn with flying := [staleWait] }

/-- Context 0, RUNNING, with a task on core 0. -/
def ctxRunning (r : Running) : Ctx := { Ctx.free with st := .running, cores := [(0, { CoreCtx.none with run := some r })] }

/-- Barrier 0 expects one participant. -/
def twiceEntered : State :=
  { State.reset with
    ctxs := [(0, ctxRunning enteringTask), (0, ctxRunning waitingTask)]
    bars := [(0, { BarSt.none with e := 1 })] }

/-- What runs in `twiceEntered` is the first entry's task. -/
theorem getRun_twiceEntered {y m : Nat} {q : Running} (h : getRun twiceEntered y m = some q) : q = enteringTask := by
  have first : getCtx twiceEntered y = getCtx { State.reset with ctxs := [(0, ctxRunning enteringTask)] } y := by
    by_cases hy : 0 = y
    · subst hy
      rfl
    · simp [getCtx, twiceEntered, Sparse.get, hy]
  have run : getRun { State.reset with ctxs := [(0, ctxRunning enteringTask)] } y m = some q := by
    rw [← h, getRun, getRun, getCore, getCore, first]
  exact (Option.some.inj (Tests.run_only rfl rfl run)).symm

theorem twiceEntered_releases :
    startedAt twiceEntered 0 0 0 = some (enteringTask, Tests.fl .started fullBar) ∧ barTree twiceEntered 0 = none
    ∧ (0, 0, staleWait) ∈ liveWaits twiceEntered (waitsBar 0 1) := by
  decide +kernel

/-- Instruction 1 of core 0 of context 0 after a step, if it is in flight. -/
def flightAfter (c : Instr) (s : State) : Option Flight :=
  match exec c s with
  | .next t => (getRun t 0 0).bind (·.inFlight 1)
  | _ => none

/-- The barrier's release leaves instruction 1 in flight. -/
theorem flightAfter_twiceEntered : flightAfter (.sBar 0 0 0) twiceEntered = some besideBar := by decide +kernel

/-- Refutes O19: `twiceEntered` meets the premises of a last entry, and keeps an instruction that the clause says completes. -/
theorem not_barrierResults : ¬ Obligations.BarrierResults := by
  unfold Obligations.BarrierResults
  rintro ⟨entries, -⟩
  obtain ⟨started, noTree, waiting⟩ := twiceEntered_releases
  obtain ⟨-, last, -⟩ := entries twiceEntered 0 0 0 enteringTask (Tests.fl .started fullBar) 3 0 0 0 0 false false ⟨started, rfl⟩ rfl rfl
    rfl noTree rfl
  obtain ⟨t, step, -, -, woken, -⟩ := last rfl rfl fun y m q run => by rw [getRun_twiceEntered run]; rfl
  have left := flightAfter_twiceEntered
  unfold flightAfter at left
  rw [step] at left
  obtain ⟨q, run, flight⟩ := Option.bind_eq_some_iff.mp left
  have gone : q.inFlight 1 = none := woken _ waiting q run
  rw [gone] at flight
  contradiction

end Sys2Proof.Machine
end

section
/-! Forced resets and gaps of the FIFOs between clock domains (R284 to R286, R506). -/

namespace Sys2Proof.Machine

/-! ### What a gap counts (R286) -/

theorem onlyField_countGap (s : State) (fifo n : Nat) (quiet : Bool) :
    OnlyField s (countGap s fifo n quiet) Reg.CDC_STAT Fld.CDC_STAT_GAPS
      (satAdd Fld.CDC_STAT_GAPS.w (fld s Reg.CDC_STAT Fld.CDC_STAT_GAPS) 1) := by
  cases quiet <;> exact (onlyField_bump _ Reg.CDC_STAT Fld.CDC_STAT_GAPS 1 (by decide)).congr rfl rfl

/-- The record of a gap of `n` items. -/
theorem countGap_logs (s : State) (fifo n : Nat) :
    ∃ e, (countGap s fifo n false).recs = s.recs ++ [e] ∧ e.code = 0x0F02 ∧ e.sev = 0 ∧ e.obj = fifo ∧ e.d0 = n
      ∧ e.d1 = (rd s Reg.HUM_BEAT).toNat := by
  refine ⟨_, rfl, rfl, rfl, rfl, rfl, ?_⟩
  exact ((sameRegsBut_bump _ Reg.CDC_STAT Fld.CDC_STAT_GAPS 1).beat (by decide)).trans rfl

/-! ### Forced resets (R284, R285) -/

/-- CDC_FIFO_CNT of a FIFO with one more mismatch (R506). -/
def oneMismatch (w : Word) : Word := putF Fld.CDC_FIFO_CNT_MISMATCH (satAdd 32 (getF Fld.CDC_FIFO_CNT_MISMATCH w) 1) w

/-- The state once a forced reset of a FIFO is counted. -/
def countMismatch (s : State) (fifo : Nat) : State :=
  bump { s with cdcCnt := Sparse.set 0 s.cdcCnt fifo (oneMismatch (cdcCount s fifo)) } Reg.CDC_STAT Fld.CDC_STAT_MISMATCHES 1

theorem cdcCount_countMismatch (s : State) (fifo : Nat) :
    getF Fld.CDC_FIFO_CNT_MISMATCH (cdcCount (countMismatch s fifo) fifo)
      = satAdd 32 (getF Fld.CDC_FIFO_CNT_MISMATCH (cdcCount s fifo)) 1 := by
  have counted : cdcCount (countMismatch s fifo) fifo = oneMismatch (cdcCount s fifo) := Sparse.get_set_same ..
  rw [counted, oneMismatch, getF_putF _ _ _ (by decide)]
  exact Nat.mod_eq_of_lt (satAdd_lt ..)

theorem onlyField_countMismatch (s : State) (fifo : Nat) :
    OnlyField s (countMismatch s fifo) Reg.CDC_STAT Fld.CDC_STAT_MISMATCHES
      (satAdd Fld.CDC_STAT_MISMATCHES.w (fld s Reg.CDC_STAT Fld.CDC_STAT_MISMATCHES) 1) :=
  (onlyField_bump _ Reg.CDC_STAT Fld.CDC_STAT_MISMATCHES 1 (by decide)).congr rfl rfl

theorem sameRegsBut_countMismatch (s : State) (fifo : Nat) : SameRegsBut s (countMismatch s fifo) [Reg.CDC_STAT] :=
  fun a ha => (sameRegsBut_bump _ Reg.CDC_STAT Fld.CDC_STAT_MISMATCHES 1 a ha).trans rfl

theorem beat_countMismatch (s : State) (fifo : Nat) : beat (countMismatch s fifo) = (rd s Reg.HUM_BEAT).toNat :=
  (sameRegsBut_countMismatch s fifo).beat (by decide)

/-- A FIFO that is neither lossy nor credited: its reset is counted and logged. -/
theorem exec_cdcPtrMismatch_plain (s : State) {fifo cls : Nat} (items : Nat) (host : fifo ≠ fifoHost) (credited : cls ≠ 2)
    (lossy : cls ≠ 3) :
    exec (.cdcPtrMismatch fifo cls items ⟨false, []⟩) s
      = .next (raiseDev (countMismatch s fifo) 0x0F01 sevCorrected fifo (fifoWriter fifo) (fifoReader fifo) items cls) := by
  show execCdcPtrMismatch fifo cls items ⟨false, []⟩ s = _
  simp [execCdcPtrMismatch, fifoItems, host, credited, lossy, countMismatch, oneMismatch]

/-- The host event queue, and the FIFO that carries records to the error log, are lossy whatever class is named. -/
theorem exec_cdcPtrMismatch_lossy (s : State) {fifo : Nat} {errPath : Bool} (lossy : fifo = fifoHost ∨ errPath = true)
    (cls items : Nat) (victims : List CdcVictim) :
    exec (.cdcPtrMismatch fifo cls items ⟨errPath, victims⟩) s
      = .next (raiseDev (resetLossy (countMismatch s fifo) fifo (fifoItems s fifo items errPath) errPath) 0x0F01 sevCorrected fifo
          (fifoWriter fifo) (fifoReader fifo) (fifoItems s fifo items errPath) 3) := by
  show execCdcPtrMismatch fifo cls items ⟨errPath, victims⟩ s = _
  simp [execCdcPtrMismatch, lossy, countMismatch, oneMismatch]

/-- The host event queue's reset leaves one gap marker for the items lost. -/
theorem resetLossy_host (s : State) {n : Nat} (lost : n ≠ 0) (errPath : Bool) :
    resetLossy s fifoHost n errPath = countGap { s with hostQ := [⟨.gap n (beat s), false, [], []⟩] } fifoHost n false := by
  simp [resetLossy, lost]

/-- The reset of the FIFO of the error log loses the records on their way there, and nothing else. -/
theorem resetLossy_errPath (s : State) {fifo : Nat} (host : fifo ≠ fifoHost) :
    (resetLossy s fifo s.recs.length true).recs = [] ∧ (resetLossy s fifo s.recs.length true).ctxs = s.ctxs
      ∧ (resetLossy s fifo s.recs.length true).mem = s.mem := by
  by_cases empty : s.recs.length = 0
  · have kept : resetLossy s fifo s.recs.length true = s := if_pos empty
    rw [kept]
    exact ⟨List.length_eq_zero_iff.mp empty, rfl, rfl⟩
  · have lost : resetLossy s fifo s.recs.length true = countGap { s with recs := [] } fifo s.recs.length true := by
      simp [resetLossy, empty, host]
    rw [lost]
    exact ⟨rfl, rfl, rfl⟩

theorem cdcPtrMismatch_plain (s : State) {fifo cls : Nat} (items : Nat) (host : fifo ≠ 0x0236) (credited : cls ≠ 2)
    (lossy : cls ≠ 3) :
    ∃ t e, exec (.cdcPtrMismatch fifo cls items ⟨false, []⟩) s = .next t ∧ t.recs = s.recs ++ [e] ∧ e.code = 0x0F01 ∧ e.sev = 1
      ∧ e.obj = fifo ∧ e.d0 = fifo % 32 ∧ e.d1 = fifo / 32 % 32 ∧ e.d2 = items ∧ e.d3 = cls
      ∧ OnlyField s t Reg.CDC_STAT Fld.CDC_STAT_MISMATCHES
          (satAdd Fld.CDC_STAT_MISMATCHES.w (fld s Reg.CDC_STAT Fld.CDC_STAT_MISMATCHES) 1)
      ∧ SameRegsBut s t [Reg.CDC_STAT]
      ∧ getF Fld.CDC_FIFO_CNT_MISMATCH (cdcCount t fifo) = satAdd 32 (getF Fld.CDC_FIFO_CNT_MISMATCH (cdcCount s fifo)) 1
      ∧ t = { s with recs := t.recs, recSeq := t.recSeq, regs := t.regs, cdcCnt := t.cdcCnt } :=
  ⟨_, _, exec_cdcPtrMismatch_plain s items host credited lossy, rfl, rfl, rfl, rfl, rfl, rfl, rfl, rfl,
    onlyField_countMismatch s fifo, sameRegsBut_countMismatch s fifo, cdcCount_countMismatch s fifo, rfl⟩

theorem cdcPtrMismatch_host (s : State) (cls items : Nat) (errPath : Bool) (victims : List CdcVictim) (held : s.hostQ ≠ []) :
    ∃ t q b, exec (.cdcPtrMismatch 0x0236 cls items ⟨errPath, victims⟩) s = .next t ∧ t.hostQ = [q] ∧ q.ev = .gap s.hostQ.length b
      ∧ b = (rd s Reg.HUM_BEAT).toNat ∧ t.ctxs = s.ctxs ∧ t.mem = s.mem := by
  have run := exec_cdcPtrMismatch_lossy s (fifo := fifoHost) (errPath := errPath) (.inl rfl) cls items victims
  have lost : fifoItems s fifoHost items errPath = s.hostQ.length := if_pos rfl
  rw [lost, resetLossy_host _ (mt List.length_eq_zero_iff.mp held)] at run
  exact ⟨_, _, _, run, rfl, rfl, beat_countMismatch s fifoHost, rfl, rfl⟩

theorem cdcPtrMismatch_errPath (s : State) {fifo : Nat} (host : fifo ≠ 0x0236) (cls items : Nat) (victims : List CdcVictim) :
    ∃ t e, exec (.cdcPtrMismatch fifo cls items ⟨true, victims⟩) s = .next t ∧ t.recs = [e] ∧ e.code = 0x0F01 ∧ e.sev = 1
      ∧ e.d2 = s.recs.length ∧ e.d3 = 3 ∧ t.ctxs = s.ctxs ∧ t.mem = s.mem := by
  have run := exec_cdcPtrMismatch_lossy s (fifo := fifo) (errPath := true) (.inr rfl) cls items victims
  have lost : fifoItems s fifo items true = (countMismatch s fifo).recs.length := if_neg host
  rw [lost] at run
  obtain ⟨recs, ctxs, mem⟩ := resetLossy_errPath (countMismatch s fifo) host
  exact ⟨_, _, run, congrArg (· ++ [_]) recs, rfl, rfl, rfl, rfl, ctxs, mem⟩

/-! ### Gaps (R286) -/

/-- An item dropped at a full FIFO: with the error path's record gone, and counted where no marker is unread. -/
theorem exec_cdcGap (s : State) {fifo : Nat} (host : fifo ≠ fifoHost) (fresh errPath : Bool) :
    exec (.cdcGap fifo fresh errPath) s
      = .next (if fresh then countGap (if errPath then { s with recs := s.recs.dropLast } else s) fifo 1 errPath
          else if errPath then { s with recs := s.recs.dropLast } else s) :=
  if_neg host

theorem recs_cdcGap_errPath (s : State) {fifo : Nat} (host : fifo ≠ 0x0236) (fresh : Bool) :
    ∃ t, exec (.cdcGap fifo fresh true) s = .next t ∧ t.recs = s.recs.dropLast := by
  refine ⟨_, exec_cdcGap s host fresh true, ?_⟩
  cases fresh <;> rfl

/-- A full host event queue with an unread marker counts there what it drops. -/
theorem cdcGap_host_marked (s : State) (fresh errPath : Bool) (full : 4095 ≤ (s.hostQ.filter (fun q => !q.isGap)).length)
    (marked : s.hostQ.any (·.isGap) = true) :
    exec (.cdcGap 0x0236 fresh errPath) s
      = .next { s with hostQ := s.hostQ.map (fun q => if q.isGap then q.oneMore else q) } := by
  show execCdcGap fifoHost fresh errPath s = _
  simp only [execCdcGap, if_true, if_neg (Nat.not_lt.mpr full), dropEvent, marked]

/-- Settles O22, one lemma for each FIFO and event. -/
theorem fifoResetsAndGaps : Obligations.FifoResetsAndGaps := by
  unfold Obligations.FifoResetsAndGaps
  refine ⟨fun s fifo cls items => cdcPtrMismatch_plain s items, fun s victims cls items err => cdcPtrMismatch_host s cls items err victims,
    fun s victims fifo cls items host => cdcPtrMismatch_errPath s host cls items victims,
    fun s fifo fresh host => recs_cdcGap_errPath s host fresh, fun s fifo host => ⟨?_, exec_cdcGap s host false false⟩,
    fun s fresh err full marked => ⟨_, cdcGap_host_marked s fresh err full marked, rfl, rfl⟩⟩
  obtain ⟨e, recs, code, sev, obj, lost, beat⟩ := countGap_logs s fifo 1
  exact ⟨_, e, exec_cdcGap s host true false, recs, code, sev, obj, lost, beat, onlyField_countGap s fifo 1 false,
    sameRegsBut_countGap s fifo 1 false⟩

end Sys2Proof.Machine
end

section
/-! Flags set and rings served for the host, and its subscriptions (R261, R273, R275, R454, R457, R458). -/

namespace Sys2Proof.Machine

/-! ### Flags that nothing waits for (R261, R264) -/

theorem liveWaits_of_ctxs {s t : State} (h : t.ctxs = s.ctxs) (p : Nat × Nat × Flight → Bool) : liveWaits t p = liveWaits s p := by
  unfold liveWaits allFlying
  simp only [h, runningCtx_congr h]

theorem judgeFlag_noWaits {s : State} {b : Nat} (keep : liveWaits s (waitsOn b false) = []) (consume : liveWaits s (waitsOn b true) = []) :
    judgeFlag s b = s := by
  unfold judgeFlag
  split
  · rfl
  · simp only [keep, List.foldl_nil, consume]

/-- A clear flag that nothing waits for is set. -/
theorem setFlagAt_noWaits {s : State} {x name b : Nat} (hb : b = entryIndex (flagEntry s x name)) (clear : (getFlag s b).value = false)
    (keep : liveWaits s (waitsOn b false) = []) (consume : liveWaits s (waitsOn b true) = []) (source rank : Nat)
    (site : Option (Nat × Nat)) :
    setFlagAt s x name source rank site = setFlag s b { getFlag s b with value := true } := by
  have waits (c : Bool) (v : FlagSt) : liveWaits (setFlag s b v) (waitsOn b c) = liveWaits s (waitsOn b c) := liveWaits_of_ctxs rfl _
  unfold setFlagAt
  simp only [← hb, clear, Bool.false_eq_true, if_false]
  exact judgeFlag_noWaits ((waits false _).trans keep) ((waits true _).trans consume)

theorem onlyFlag_setFlag (s : State) (b : Nat) (v : FlagSt) : OnlyFlag s (setFlag s b v) b v :=
  ⟨getFlag_setFlag .., fun _ hc => getFlag_setFlag_other s v hc⟩

theorem doorbellReq_eq {s : State} {x name : Nat} (hx : x < 64) (hn : name < 65536) (resident : (getCtx s x).st ≠ .free) :
    doorbellReq s x name
      = if entryValid (flagEntry s x name) && !entryBarrier (flagEntry s x name) then okay (setFlagName s x name 4 0)
        else nackWith s noHandler := by
  unfold doorbellReq
  rw [if_neg (by omega), if_neg resident]

section
variable {s : State} {n tag x name : Nat} (asked : Asked s n) (boot : booted s = true) (hx : x < 64) (hn : name < 65536)
  (resident : (getCtx s x).st ≠ .free)
include asked boot hx hn resident

/-- A name that maps to no flag is answered NACK, with NO_HANDLER. -/
theorem doorbell_refused (bad : entryValid (flagEntry s x name) = false ∨ entryBarrier (flagEntry s x name) = true) :
    exec (.doorbell n tag x name) s = .next (served s n 0x50 tag ⟨11, [BitVec.ofNat 64 noHandler], []⟩) := by
  refine hostRow_served asked boot ((doorbellReq_eq hx hn resident).trans (if_neg ?_))
  rcases bad with bad | bad <;> simp [bad]

theorem doorbell_sets (valid : entryValid (flagEntry s x name) = true) (flag : entryBarrier (flagEntry s x name) = false) {b : Nat}
    (hb : b = entryIndex (flagEntry s x name)) (clear : (getFlag s b).value = false) (keep : liveWaits s (waitsOn b false) = [])
    (consume : liveWaits s (waitsOn b true) = []) :
    ∃ u, exec (.doorbell n tag x name) s = .next (served u n 0x50 tag ⟨0, [], []⟩)
      ∧ OnlyFlag s u b { getFlag s b with value := true } ∧ u = { s with flags := u.flags } := by
  refine ⟨setFlag s b { getFlag s b with value := true },
    hostRow_served asked boot (((doorbellReq_eq hx hn resident).trans (if_pos (by simp [valid, flag]))).trans ?_), onlyFlag_setFlag .., rfl⟩
  rw [setFlagName, setFlagAt_noWaits hb clear keep consume]
  rfl

end

/-! ### RING_SEND (R273, R275, R457) -/

/-- All that a message taken by a ring changes. -/
def OnlyTaken (s t : State) : Prop :=
  t = { s with rings := t.rings, mem := t.mem, poison := t.poison, comb := t.comb, regs := t.regs, free := t.free }

theorem OnlyTaken.trans {s t u : State} (h : OnlyTaken s t) (k : OnlyTaken t u) : OnlyTaken s u := by
  unfold OnlyTaken at *
  rw [k, h]

theorem onlyTaken_storeBytes (s : State) (a : Nat) (bs : List Byte) : OnlyTaken s (storeBytes s a bs) := by
  unfold OnlyTaken
  rw [storeBytes_frame]

theorem onlyTaken_setRing (s : State) (n : Nat) (v : Ring) : OnlyTaken s (setRing s n v) := rfl

theorem onlyTaken_bump (s : State) (a : Nat) (f : Fld) (k : Nat) : OnlyTaken s (bump s a f k) := rfl

theorem onlyTaken_placePad (s : State) (n k slots : Nat) : OnlyTaken s (placePad s n k slots) :=
  (onlyTaken_storeBytes ..).trans (onlyTaken_setRing ..)

theorem onlyTaken_placeWrap (s : State) (n k : Nat) : OnlyTaken s (placeWrap s n k) := by
  unfold placeWrap
  split
  · rfl
  · exact onlyTaken_placePad ..
  · rfl

theorem onlyTaken_placeMsg (s : State) (n k : Nat) (h : MsgHdr) (seq : Nat) (payload : List Byte) :
    OnlyTaken s (placeMsg s n k h seq payload) :=
  ((onlyTaken_placeWrap s n k).trans (onlyTaken_storeBytes ..)).trans (onlyTaken_setRing ..)

theorem onlyTaken_acceptMsg (s : State) (n : Nat) (m : RingMsg) (intact : Bool) : OnlyTaken s (acceptMsg s n m intact) := by
  unfold acceptMsg
  dsimp only
  split
  · split
    · exact onlyTaken_setRing ..
    · rfl
  · split
    · exact onlyTaken_placeMsg ..
    · exact ((onlyTaken_placeWrap s n m.slots).trans (onlyTaken_placePad ..)).trans (onlyTaken_setRing ..)

theorem firstBadAux_ringSends (s : State) (c : Nat) (p : Option Nat) (k a e : Nat) :
    firstBadAux { s with ringSends := c } p k a e = firstBadAux s p k a e := by
  induction k generalizing a with
  | zero => rfl
  | succ k ih =>
    have piece : pieceAt { s with ringSends := c } p a = pieceAt s p a := rfl
    simp only [firstBadAux, piece, ih]

theorem firstOut_ringSends (s : State) (c : Nat) (p : Option Nat) (es : List (Nat × Nat)) :
    firstOut { s with ringSends := c } p es = firstOut s p es := by
  simp only [firstOut, firstBad, firstBadAux_ringSends]

/-- How many messages the host has sent decides nothing of a message. -/
theorem msgBad_ringSends (s : State) (c : Nat) (v : Ring) (m : RingMsg) : msgBad { s with ringSends := c } v m = msgBad s v m := by
  simp only [msgBad, slotsBad, firstOut_ringSends]
  rfl

theorem judgeMsg_ringSends (s : State) (c : Nat) (v : Ring) (m : RingMsg) : judgeMsg { s with ringSends := c } v m = judgeMsg s v m := rfl

theorem ringArrive_refused {s t : State} {n reason : Nat} {m : RingMsg} (judged : judgeArrival s (getRing s n) m = (t, reason))
    (refused : reason ≠ 0) (intact : Bool) :
    ringArrive s n m intact
      = (if (getRing s n).valid then bump t (Reg.MSG_STAT (getRing s n).part) Fld.MSG_STAT_NACKED 1 else t, reason) := by
  unfold ringArrive
  cases valid : (getRing s n).valid <;> simp [judged, refused, valid]

theorem ringArrive_taken {s : State} {n : Nat} {m : RingMsg} (judged : judgeArrival s (getRing s n) m = (s, 0))
    (valid : (getRing s n).valid = true) :
    ringArrive s n m true
      = (bump (acceptMsg s n m true) (Reg.MSG_STAT (getRing s n).part) Fld.MSG_STAT_ACCEPTED 1, 0) := by
  unfold ringArrive
  simp [judged, valid]

section
variable {s s' : State} {n tag ring ep : Nat} {bs : List Byte} {m : RingMsg} (asked : Asked s n) (boot : booted s = true)
  (hr : ring < 32768) (he : ep < 65536) (whole : bs.length % 32 = 0) (filled : 0 < bs.length) (fits : bs.length ≤ 512)
  (hm : m = hostMsg s ring ep bs) (hs : s' = { s with ringSends := m.seq })
include asked boot hr he whole filled fits hm hs

/-- A well-formed message is answered as the ring judges it. -/
theorem exec_ringSend {t : State} {reason : Nat} (arrive : ringArrive s' ring m true = (t, reason)) :
    exec (.ringSend n tag ring ep bs) s
      = .next (served t n 0x51 tag (if reason = 0 then ⟨0, [], []⟩ else ⟨11, [BitVec.ofNat 64 reason], []⟩)) := by
  subst hm hs
  refine hostRow_served asked boot ?_
  show ringSendReq s ring ep bs = _
  unfold ringSendReq
  rw [if_neg (by omega)]
  simp only [arrive]
  split <;> rfl

theorem ringSend_nack {t : State} {reason : Nat} (judged : judgeArrival s' (getRing s' ring) m = (t, reason)) (refused : reason ≠ 0) :
    ∃ u, exec (.ringSend n tag ring ep bs) s = .next (served u n 0x51 tag ⟨11, [BitVec.ofNat 64 reason], []⟩)
      ∧ u = { t with regs := u.regs } := by
  have run := exec_ringSend (tag := tag) asked boot hr he whole filled fits hm hs (ringArrive_refused judged refused true)
  rw [if_neg refused] at run
  refine ⟨_, run, ?_⟩
  split <;> rfl

theorem ringSend_refused (refused : judgeMsg s (getRing s ring) m ≠ 0) :
    ∃ u, exec (.ringSend n tag ring ep bs) s
        = .next (served u n 0x51 tag ⟨11, [BitVec.ofNat 64 (judgeMsg s (getRing s ring) m)], []⟩)
      ∧ u = { s' with regs := u.regs } := by
  have same : judgeMsg s' (getRing s' ring) m = judgeMsg s (getRing s ring) m := by rw [hs]; exact judgeMsg_ringSends ..
  have judged := judgeArrival_refused (same ▸ refused : judgeMsg s' (getRing s' ring) m ≠ 0)
  rw [same] at judged
  exact ringSend_nack asked boot hr he whole filled fits hm hs judged refused

theorem ringSend_outside {b : Nat} (judged : judgeMsg s (getRing s ring) m = 0) (bad : msgBad s (getRing s ring) m = some b) :
    ∃ u, exec (.ringSend n tag ring ep bs) s = .next (served u n 0x51 tag ⟨11, [6], []⟩)
      ∧ u = { refuseAccess s' (getRing s ring).ctx b with regs := u.regs } := by
  have ring_ : getRing s' ring = getRing s ring := by rw [hs]; rfl
  have judged' : judgeMsg s' (getRing s ring) m = 0 := by rw [hs]; exact judged
  have bad' : msgBad s' (getRing s ring) m = some b := by rw [hs, msgBad_ringSends, bad]
  have outside := judgeArrival_outside judged' bad'
  rw [← ring_] at outside ⊢
  exact ringSend_nack asked boot hr he whole filled fits hm hs outside (by decide)

theorem ringSend_taken (judged : judgeMsg s (getRing s ring) m = 0) (good : msgBad s (getRing s ring) m = none) :
    ∃ u, exec (.ringSend n tag ring ep bs) s = .next (served u n 0x51 tag ⟨0, [], []⟩)
      ∧ u = (ringArrive s' ring m true).1 ∧ u.ringSends = m.seq := by
  have ring_ : getRing s' ring = getRing s ring := by rw [hs]; rfl
  have judged' : judgeMsg s' (getRing s' ring) m = 0 := by rw [hs]; exact judged
  have good' : msgBad s' (getRing s' ring) m = none := by rw [ring_, hs, msgBad_ringSends, good]
  have arrive := ringArrive_taken (judgeArrival_taken judged' good') (valid_of_judgeMsg judged')
  refine ⟨_, (exec_ringSend asked boot hr he whole filled fits hm hs arrive).trans (by rw [if_pos rfl]), by rw [arrive], ?_⟩
  have frame := (onlyTaken_acceptMsg s' ring m true).trans
    (onlyTaken_bump _ (Reg.MSG_STAT (getRing s' ring).part) Fld.MSG_STAT_ACCEPTED 1)
  have sends : s'.ringSends = m.seq := by rw [hs]
  exact (congrArg State.ringSends frame).trans sends

end

/-! ### EVENTS (R458) -/

/-- A request that every boot phase admits is answered as it runs. -/
theorem hostRow_ungated {s u : State} {n tag : Nat} {r : HostReq} {a : Answer} (asked : Asked s n) (gate : phaseGate s r = none)
    (run : runReq s n tag r = (u, some a)) : hostRow s n tag r = .next (served u n (reqOp r) tag a) := by
  obtain ⟨up, known, idle⟩ := asked
  have known : (getSess s n).isNone = false := by rw [← Option.not_isSome, known]; rfl
  have exec : hostExec s n tag r = (u, some a) := by rw [hostExec, gate, run]
  simp only [hostRow, up, known, idle, exec, Bool.not_true, Bool.false_eq_true, if_false]
  rfl

theorem phaseGate_events (s : State) (on : Bool) : phaseGate s (.events on) = none := by
  unfold phaseGate
  split <;> rfl

theorem getSess_forgetEvents (s : State) (n k : Nat) : getSess (forgetEvents s n) k = getSess s k := rfl

/-- A session that is forgotten is awaited by no entry. -/
theorem forgetEvents_awaits (s : State) (n : Nat) : ∀ e ∈ (forgetEvents s n).hostQ, n ∉ e.awaits := by
  intro e he
  obtain ⟨e', -, rfl⟩ := List.mem_map.mp (List.mem_of_mem_filter he)
  simp

theorem exec_events {s : State} {n : Nat} {v : Sess} (asked : Asked s n) (known : getSess s n = some v) (tag : Nat) (on : Bool) :
    exec (.events n tag on) s
      = .next (served (if on then setSess s n (some { v with events := on }) else forgetEvents (setSess s n (some { v with events := on })) n)
          n 0x60 tag ⟨0, [], []⟩) := by
  refine hostRow_ungated asked (phaseGate_events s on) ?_
  show eventsReq s n on = _
  simp only [eventsReq, known]
  rfl

theorem events_subscribes {s : State} {n : Nat} {v : Sess} (asked : Asked s n) (known : getSess s n = some v) (tag : Nat) :
    ∃ u, exec (.events n tag true) s = .next (served u n 0x60 tag ⟨0, [], []⟩) ∧ getSess u n = some { v with events := true }
      ∧ (∀ k, k ≠ n → getSess u k = getSess s k) ∧ u = { s with sessions := u.sessions } :=
  ⟨_, exec_events asked known tag true, getSess_setSess .., fun _ hk => getSess_setSess_other s _ hk, rfl⟩

theorem events_unsubscribes {s : State} {n : Nat} {v : Sess} (asked : Asked s n) (known : getSess s n = some v) (tag : Nat) :
    ∃ u, exec (.events n tag false) s = .next (served u n 0x60 tag ⟨0, [], []⟩) ∧ getSess u n = some { v with events := false }
      ∧ (∀ k, k ≠ n → getSess u k = getSess s k) ∧ (∀ e, e ∈ u.hostQ → n ∉ e.awaits)
      ∧ u = { s with sessions := u.sessions, hostQ := u.hostQ } := by
  refine ⟨_, exec_events asked known tag false, ?_, fun k hk => ?_, forgetEvents_awaits _ n, rfl⟩
  · exact (getSess_forgetEvents ..).trans (getSess_setSess ..)
  · exact (getSess_forgetEvents ..).trans (getSess_setSess_other s _ hk)

end Sys2Proof.Machine
end

section
/-! INPUT, JOIN, CANCEL and MODEL (R401, R403, R405, R406, R415, R454). -/

namespace Sys2Proof.Machine

/-! ### INPUT (R454) -/

section
variable {s : State} {n tag p cur off total x : Nat} {d : List Byte} {g : ManStage} {w : ManVStage} {ws : List ManVStage}
  (hp : p < 8) (stage : stageOf s p = some (x, g)) (pos : g.pos = 0)
  (first : g.vstages = w :: ws) (fits : total ≤ w.inFwd.slotBytes) (inside : off + d.length ≤ total)
include hp stage pos first fits inside

/-- A part that its item admits is judged by the item's cursor. -/
theorem inputReq_eq : inputReq s p cur off total d
    = if cur < (getTrain s p).cursor then (s, plainAnswer stStale)
      else if (getTrain s p).cursor + inputRoom s p g w ≤ cur then (s, plainAnswer stNotYet)
      else if (getTrain s p).inputs.any (fun v => v.cursor == cur && v.total != total) then malformed s
      else okay (checkExhausted (capInputs p x g 256
        (setTrain s p { getTrain s p with inputs := addInput (getTrain s p).inputs cur total off d })) p) := by
  unfold inputReq
  rw [if_neg (Nat.not_le.mpr hp)]
  simp only [stage, pos, first]
  rw [if_neg (by omega)]

variable (asked : Asked s n) (boot : booted s = true)
include asked boot

theorem input_stale (past : cur < (getTrain s p).cursor) :
    exec (.input n tag p cur off total d) s = .next (served s n 0x70 tag ⟨8, [], []⟩) :=
  hostRow_served asked boot ((inputReq_eq hp stage pos first fits inside).trans (if_pos past))

theorem input_notYet (present : (getTrain s p).cursor ≤ cur) (full : (getTrain s p).cursor + inputRoom s p g w ≤ cur) :
    exec (.input n tag p cur off total d) s = .next (served s n 0x70 tag ⟨9, [], []⟩) :=
  hostRow_served asked boot ((inputReq_eq hp stage pos first fits inside).trans
    ((if_neg (Nat.not_lt.mpr present)).trans (if_pos full)))

/-- The first part of an item whose turn has not come is kept. -/
theorem input_kept (ahead : (getTrain s p).cursor < cur) (room : cur < (getTrain s p).cursor + inputRoom s p g w)
    (fresh : ∀ i, i ∈ (getTrain s p).inputs → i.cursor ≠ cur ∧ i.cursor ≠ (getTrain s p).cursor) :
    exec (.input n tag p cur off total d) s
      = .next (served (checkExhausted (setTrain s p { getTrain s p with
          inputs := (getTrain s p).inputs ++ [⟨cur, total, [(off, d)]⟩] }) p) n 0x70 tag ⟨0, [], []⟩) := by
  have noTotal : (getTrain s p).inputs.any (fun v => v.cursor == cur && v.total != total) = false :=
    List.any_eq_false.mpr fun i hi => by simp [(fresh i hi).1]
  have added : addInput (getTrain s p).inputs cur total off d = (getTrain s p).inputs ++ [⟨cur, total, [(off, d)]⟩] :=
    if_neg (by simpa using fun i hi => (fresh i hi).1)
  have uncapped : capInputs p x g 256 (setTrain s p { getTrain s p with
      inputs := (getTrain s p).inputs ++ [⟨cur, total, [(off, d)]⟩] })
      = setTrain s p { getTrain s p with inputs := (getTrain s p).inputs ++ [⟨cur, total, [(off, d)]⟩] } := by
    have noneDue : ((getTrain s p).inputs ++ [InPart.mk cur total [(off, d)]]).find?
        (fun v => v.cursor == (getTrain s p).cursor && v.whole) = none := by
      refine List.find?_eq_none.mpr fun i hi => ?_
      rcases List.mem_append.mp hi with hi | hi
      · simp [(fresh i hi).2]
      · obtain rfl := List.mem_singleton.mp hi
        simp [Nat.ne_of_gt ahead]
    rw [capInputs, getTrain_setTrain]
    simp only [noneDue]
  refine hostRow_served asked boot ((inputReq_eq hp stage pos first fits inside).trans ?_)
  rw [if_neg (by omega), if_neg (by omega), if_neg (by simp [noTotal]), added, uncapped]
  rfl

end

/-! ### JOIN (R405, R406) -/

section
variable {s : State} {n tag x : Nat} {j : JoinReq} (asked : Asked s n) (boot : booted s = true) (part : j.part < 8)
  (model : j.model < 256) (cls : j.cls < 8) (priority : j.priority < 16) (request : j.request < 2 ^ 64) (seed : j.seed < 2 ^ 64)
  (serving : servCtx s j.part = some x)
include asked boot part model cls priority request seed serving

theorem join_refused {r : Nat} (refused : joinRefused s x j = some r) :
    exec (.join n tag j) s = .next (served s n 0x80 tag ⟨12, [BitVec.ofNat 64 r], []⟩) := by
  refine hostRow_served asked boot ?_
  show joinStream s n j = _
  unfold joinStream
  rw [if_neg (by omega)]
  simp only [serving, refused]
  rfl

theorem join_accepted {e : Nat} (accepted : joinRefused s x j = none)
    (free : (entriesOf s j.part).find? (fun e => (getStream s e).isNone) = some e) :
    ∃ u v, exec (.join n tag j) s = .next (served u n 0x80 tag ⟨0, [BitVec.ofNat 64 e], []⟩) ∧ getStream u e = some v
      ∧ v.st = 1 ∧ v.part = j.part ∧ v.model = j.model ∧ v.cls = j.cls ∧ v.request = j.request ∧ v.prompt = j.prompt
      ∧ v.decLeft = j.newTokens ∧ v.seed = j.seed ∧ v.sess = n ∧ v.length = 0
      ∧ (∀ k, k ≠ e → getStream u k = getStream s k) ∧ u = { s with streams := u.streams } := by
  have run : ∃ v : Stream, joinStream s n j = (setStream s e (some v), some ⟨0, [BitVec.ofNat 64 e], []⟩)
      ∧ v.st = 1 ∧ v.part = j.part ∧ v.model = j.model ∧ v.cls = j.cls ∧ v.request = j.request ∧ v.prompt = j.prompt
      ∧ v.decLeft = j.newTokens ∧ v.seed = j.seed ∧ v.sess = n ∧ v.length = 0 := by
    unfold joinStream
    rw [if_neg (by omega)]
    simp only [serving, accepted, free]
    exact ⟨_, rfl, rfl, rfl, rfl, rfl, rfl, rfl, rfl, rfl, rfl, rfl⟩
  obtain ⟨v, run, st, part, model, cls, request, prompt, left, seed, sess, len⟩ := run
  exact ⟨_, v, hostRow_served asked boot run, getStream_setStream .., st, part, model, cls, request, prompt, left, seed, sess, len,
    fun k hk => getStream_setStream_other s _ hk, rfl⟩

end

/-! ### CANCEL (R408, R415) -/

section
variable {s : State} {n tag req e : Nat} {v : Stream} (asked : Asked s n) (boot : booted s = true) (only : s.streams = [(e, some v)])
include asked boot only

theorem cancel_leaves (request : v.request = req) (here : v.st ≠ 6) (fresh : v.cancelled = false) :
    exec (.cancel n tag req) s
      = .next (served (setStream s e (some { v with st := 6, cancelled := v.flying })) n 0x81 tag ⟨0, [], []⟩) := by
  refine hostRow_served asked boot ?_
  show cancelStream s req = _
  simp [cancelStream, only, request, here, fresh]
  rfl

theorem cancel_unknown (other : v.request ≠ req) :
    exec (.cancel n tag req) s = .next (served s n 0x81 tag ⟨10, [], []⟩) := by
  refine hostRow_served asked boot ?_
  show cancelStream s req = _
  simp [cancelStream, only, other]
  rfl

end

/-! ### MODEL (R403, R404) -/

theorem moveHandles_models (s : State) (p src dst n tier : Nat) : (moveHandles s p src dst n tier).models = s.models :=
  List.foldlRecOn (motive := fun t : State => t.models = s.models) _ _ rfl fun _ kept _ _ => kept

/-- An eviction changes the entry of its own model alone. -/
theorem getModel_evict_other (s : State) (p : Nat) {m k : Nat} (h : k ≠ m) : getModel (evict s p m) k = getModel s k := by
  unfold evict
  split
  · rfl
  · rw [getModel_setModel_other _ _ h, getModel, moveHandles_models]
    rfl

section
variable {s : State} {n tag id : Nat} (asked : Asked s n) (boot : booted s = true)
include asked boot

theorem model_register {p a bytes layers : Nat} (pin : Bool) (hi : id < 256) (hp : p < 8) (hb : bytes < 2 ^ 40) (hl : layers < 256)
    (unknown : getModel s id = none) (serving : training s p = false) (lo : l2Base ≤ a) (hi2 : a + bytes ≤ l2End)
    (inside : firstBad s (some p) a bytes = none) :
    exec (.model n tag (.register id p a bytes layers pin)) s
      = .next (served (setModel s id (some ⟨p, layers, bytes, a, pin, 0, 0, 0⟩)) n 0x83 tag ⟨0, [], []⟩) := by
  refine hostRow_served asked boot ?_
  show modelReq s (.register id p a bytes layers pin) = _
  unfold modelReq
  dsimp only
  rw [if_neg (by omega), if_neg (by simp [unknown, serving]), if_neg (by simp [inside, lo, hi2])]
  rfl

theorem model_pin {v : SModel} (known : getModel s id = some v) (on : Bool) :
    exec (.model n tag (.pin id on)) s = .next (served (setModel s id (some { v with pinned := on })) n 0x83 tag ⟨0, [], []⟩) := by
  refine hostRow_served asked boot ?_
  show modelReq s (.pin id on) = _
  simp only [modelReq, known]
  rfl

theorem model_unregister {v : SModel} (known : getModel s id = some v) (idle : modelFlying s v.part id = false)
    (unused : ∀ e, e ∈ streamsOf s v.part → e.2.model ≠ id) (still : regionBusy s v.part v.hot v.bytes = false) :
    exec (.model n tag (.unregister id)) s
      = .next (served (setModel (if v.st = 2 then evict s v.part id else s) id none) n 0x83 tag ⟨0, [], []⟩) := by
  have noStream : (streamsOf s v.part).any (fun e => e.2.model == id) = false :=
    List.any_eq_false.mpr fun e he => by simp [unused e he]
  refine hostRow_served asked boot ?_
  show modelReq s (.unregister id) = _
  simp only [modelReq, known, idle, noStream, still, Bool.or_self, Bool.false_eq_true, if_false]
  rfl

theorem model_unregister_unknown (unknown : getModel s id = none) :
    exec (.model n tag (.unregister id)) s = .next (served s n 0x83 tag ⟨10, [], []⟩) := by
  refine hostRow_served asked boot ?_
  show modelReq s (.unregister id) = _
  simp only [modelReq, unknown]
  rfl

end

theorem getModel_unregistered_other (s : State) (v : SModel) {id k : Nat} (h : k ≠ id) :
    getModel (setModel (if v.st = 2 then evict s v.part id else s) id none) k = getModel s k := by
  rw [getModel_setModel_other _ _ h]
  split
  · exact getModel_evict_other s v.part h
  · rfl

/-- Settles O56, one lemma for each request and outcome. -/
theorem signalsInputAndServing : Obligations.SignalsInputAndServing := by
  unfold Obligations.SignalsInputAndServing
  refine ⟨⟨fun s n tag x name asked boot hx hn resident => ⟨doorbell_refused asked boot hx hn resident,
      fun valid flag clear keep consume => doorbell_sets asked boot hx hn resident valid flag rfl clear keep consume⟩,
    fun s n tag ring ep bs asked boot hr he whole filled fits => ⟨rfl, rfl, rfl, rfl,
      ringSend_refused asked boot hr he whole filled fits rfl rfl, fun b => ringSend_outside asked boot hr he whole filled fits rfl rfl,
      ringSend_taken asked boot hr he whole filled fits rfl rfl⟩,
    fun s n tag v asked known => ⟨events_subscribes asked known tag, events_unsubscribes asked known tag⟩, ?_⟩, ?_, ?_, ?_⟩
  · intro s n tag p cur off total x d g w ws asked boot hp stage pos first fits inside
    exact ⟨input_stale hp stage pos first fits inside asked boot, input_notYet hp stage pos first fits inside asked boot,
      fun ahead room fresh => ⟨_, input_kept hp stage pos first fits inside asked boot ahead room fresh, by rw [getTrain_setTrain],
        by rw [getTrain_setTrain], rfl⟩⟩
  · intro s n tag x e j asked boot part model cls priority request seed serving
    exact ⟨fun r => join_refused asked boot part model cls priority request seed serving,
      join_accepted asked boot part model cls priority request seed serving⟩
  · intro s n tag req e v asked boot only
    exact ⟨fun request here fresh => ⟨_, cancel_leaves asked boot only request here fresh, getStream_setStream .., rfl⟩,
      cancel_unknown asked boot only⟩
  · intro s n tag id asked boot
    refine ⟨fun p a bytes layers pin hi hp hb hl unknown serving lo end_ inside =>
        ⟨_, model_register asked boot pin hi hp hb hl unknown serving lo end_ inside, getModel_setModel ..,
          fun k hk => getModel_setModel_other s _ hk, rfl⟩,
      fun v on known => ⟨_, model_pin asked boot known on, getModel_setModel .., fun k hk => getModel_setModel_other s _ hk, rfl⟩,
      fun v known idle unused still => ⟨_, model_unregister asked boot known idle unused still, getModel_setModel ..,
        fun k hk => getModel_unregistered_other s v hk⟩, model_unregister_unknown asked boot⟩

end Sys2Proof.Machine
end

section
/-! The loss of ranks (R427, R430, R432) and the takeover agreement (R324, R428). -/

namespace Sys2Proof.Machine

/-! ### Contexts that stop (R29) -/

/-- The states that a stop takes a context out of. -/
def CtxState.Live (c : CtxState) : Prop := c = .loaded ∨ c = .runnable ∨ c = .running

theorem stopCtx_still {s : State} {x : Nat} (still : ¬(getCtx s x).st.Live) : stopCtx s x = s := by
  unfold stopCtx
  dsimp only
  split
  · next h => exact absurd (.inl h) still
  · next h => exact absurd (.inr (.inl h)) still
  · next h => exact absurd (.inr (.inr h)) still
  · rfl

theorem stopCtx_frame (s : State) (x : Nat) : stopCtx s x = { s with ctxs := (stopCtx s x).ctxs, slices := (stopCtx s x).slices } := by
  by_cases live : (getCtx s x).st.Live
  · exact (stopCtx_results live).2.2
  · rw [stopCtx_still live]

/-- Of the contexts of a list, those that can stop are STOPPED; the others stay as they were. -/
def StoppedOf (xs : List Nat) (s t : State) : Prop :=
  ∀ y, (y ∈ xs ∧ (getCtx s y).st.Live → (getCtx t y).st = .stopped) ∧ (¬(y ∈ xs ∧ (getCtx s y).st.Live) → (getCtx t y).st = (getCtx s y).st)

theorem stoppedOf_stopCtx (s : State) (x : Nat) : StoppedOf [x] s (stopCtx s x) := by
  intro y
  by_cases live : (getCtx s x).st.Live
  · obtain ⟨own, others, -⟩ := stopCtx_results live
    by_cases h : y = x
    · subst h
      exact ⟨fun _ => by rw [own], fun c => absurd ⟨List.mem_singleton_self y, live⟩ c⟩
    · exact ⟨fun c => absurd (List.mem_singleton.mp c.1) h, fun _ => by rw [others y h]⟩
  · rw [stopCtx_still live]
    exact ⟨fun c => absurd (List.mem_singleton.mp c.1 ▸ c.2) live, fun _ => rfl⟩

theorem not_live_stopped : ¬CtxState.stopped.Live := by
  rintro (h | h | h) <;> cases h

theorem stoppedOf_foldl (xs : List Nat) (s : State) : StoppedOf xs s (xs.foldl stopCtx s) := by
  induction xs generalizing s with
  | nil => exact fun y => ⟨fun c => absurd c.1 List.not_mem_nil, fun _ => rfl⟩
  | cons x xs ih =>
    intro y
    obtain ⟨first, kept⟩ := stoppedOf_stopCtx s x y
    obtain ⟨later, still⟩ := ih (stopCtx s x) y
    rw [List.foldl_cons]
    by_cases own : y ∈ [x] ∧ (getCtx s y).st.Live
    · have st := first own
      have listed : y ∈ x :: xs := List.mem_cons.mpr (.inl (List.mem_singleton.mp own.1))
      exact ⟨fun _ => (still fun c => not_live_stopped (st ▸ c.2)).trans st, fun c => absurd ⟨listed, own.2⟩ c⟩
    · have st := kept own
      have iff : (y ∈ x :: xs ∧ (getCtx s y).st.Live) ↔ (y ∈ xs ∧ (getCtx (stopCtx s x) y).st.Live) := by
        rw [st, List.mem_cons]
        exact ⟨fun c => ⟨c.1.resolve_left fun h => own ⟨List.mem_singleton.mpr h, c.2⟩, c.2⟩, fun c => ⟨.inr c.1, c.2⟩⟩
      exact ⟨fun c => later (iff.mp c), fun c => (still fun d => c (iff.mpr d)).trans st⟩

theorem stoppedOf_iff {xs : List Nat} {s t : State} (h : StoppedOf xs s t) (y : Nat) : (getCtx t y).st
    = (if y ∈ xs ∧ ((getCtx s y).st = .loaded ∨ (getCtx s y).st = .runnable ∨ (getCtx s y).st = .running) then .stopped
      else (getCtx s y).st) := by
  split
  · next c => exact (h y).1 c
  · next c => exact (h y).2 c

theorem foldl_stopCtx_frame (xs : List Nat) (s : State) :
    xs.foldl stopCtx s = { s with ctxs := (xs.foldl stopCtx s).ctxs, slices := (xs.foldl stopCtx s).slices } := by
  induction xs generalizing s with
  | nil => rfl
  | cons x xs ih =>
    rw [List.foldl_cons, ih, stopCtx_frame]

/-! ### Groups with nothing in progress, and the device's own collectives (R253, R307) -/

theorem getGrp_mem_or_none (s : State) (k : Nat) : getGrp s k = Grp.none ∨ (k, getGrp s k) ∈ s.grps := Sparse.get_mem ..

/-- A group with nothing in progress and no member lost stays as it is. -/
theorem abortGroup_idle {ranks : List Nat} {s : State} {k : Nat} (bulk : (getGrp s k).bulk = none) (wag : (getGrp s k).wag = none)
    (aborting : (getGrp s k).aborting = none) (members : ∀ r, r ∈ ranks → r ∉ (getGrp s k).members) : abortGroup ranks s k = s := by
  have none_ : ranks.any (fun r => (getGrp s k).members.contains r) = false := by
    simpa using members
  unfold abortGroup
  simp only [bulk, wag, aborting, none_]
  rfl

theorem foldl_abortGroup_idle {ranks : List Nat} {s : State} (idle : ∀ e, e ∈ s.grps → e.2.bulk = none ∧ e.2.wag = none
    ∧ e.2.aborting = none ∧ ∀ r, r ∈ ranks → r ∉ e.2.members) (ks : List Nat) : ks.foldl (abortGroup ranks) s = s := by
  refine foldl_eq_self fun k _ => ?_
  rcases getGrp_mem_or_none s k with h | h
  · apply abortGroup_idle <;> simp [h, Grp.none]
  · obtain ⟨bulk, wag, aborting, members⟩ := idle _ h
    exact abortGroup_idle bulk wag aborting members

theorem deviceAbort_lost_frame (s : State) (p : Nat) : deviceAbort s p .memberLost
    = { s with grps := (deviceAbort s p .memberLost).grps, train := (deviceAbort s p .memberLost).train } := by
  unfold deviceAbort
  dsimp only
  rw [if_pos rfl]
  split <;> rfl

theorem foldl_deviceAbort_lost_frame (ps : List Nat) (s : State) : ps.foldl (fun s p => deviceAbort s p .memberLost) s
    = { s with grps := (ps.foldl (fun s p => deviceAbort s p .memberLost) s).grps
               train := (ps.foldl (fun s p => deviceAbort s p .memberLost) s).train } := by
  induction ps generalizing s with
  | nil => rfl
  | cons p ps ih =>
    rw [List.foldl_cons, ih, deviceAbort_lost_frame]

/-! ### The beginning of the agreement (R428 step 1, R432) -/

theorem rechoose_frame (s : State) : rechoose s = { s with
    regs := (rechoose s).regs, takeover := some { getTakeover s with chosen := [], loaded := [], mine := none } } := by
  unfold rechoose
  dsimp only
  split <;> rfl

theorem droneState_rechoose (s : State) : droneState (rechoose s) = if droneState s = 1 then 0 else droneState s := by
  unfold rechoose
  dsimp only
  split
  · exact fld_setFld_same s Reg.CKP_DRONE Fld.CKP_DRONE_STATE 0 (by decide)
  · rfl

theorem sameRegsBut_rechoose (s : State) : SameRegsBut s (rechoose s) [Reg.CKP_DRONE] := by
  unfold rechoose
  dsimp only
  split
  · exact sameRegsBut_setFld s _ _ _
  · exact sameRegsBut_refl s _

/-- The phases of a list of partitions are registers alone, those of CKP_LAST. -/
theorem foldl_setPhase_frame (ps : List Nat) (ph : Nat) (s : State) : ps.foldl (fun s p => setPhase s p ph) s
    = { s with regs := (ps.foldl (fun s p => setPhase s p ph) s).regs } := by
  induction ps generalizing s with
  | nil => rfl
  | cons p ps ih =>
    rw [List.foldl_cons, ih]
    rfl

theorem lt_of_mem_jobParts {s : State} {p : Nat} (h : p ∈ jobParts s) : p < 8 := by
  unfold jobParts selectBelow at h
  exact List.mem_range.mp (List.mem_of_mem_filter h)

theorem sameRegsBut_jobPhases (s t : State) (ph : Nat) :
    SameRegsBut t ((jobParts s).foldl (fun s p => setPhase s p ph) t) ((List.range 8).map Reg.CKP_LAST) :=
  SameRegsBut.foldl (fun u _ hp => sameRegsBut_setFld_of_mem u _ _ (List.mem_map_of_mem (List.mem_range.mpr (lt_of_mem_jobParts hp)))) t

/-- The takeover as it stands when the agreement begins. -/
def Takeover.begun (t : Takeover) : Takeover :=
  { t with chosen := [], loaded := [], mine := none, agreeing := true, agreed := [], kstar := none, restored := [] }

theorem getTakeover_rechoose (s : State) : getTakeover (rechoose s) = { getTakeover s with chosen := [], loaded := [], mine := none } := by
  rw [rechoose_frame]
  rfl

/-- The state of the beginning before its phases and what it sends. -/
def agreementOpened (s : State) : State :=
  { rechoose s with takeover := some (getTakeover s).begun, resume := s.resume.filter (fun e => (e.2.map (fun r => !r.rollback)).getD false) }

theorem agreementOpened_frame (s : State) : agreementOpened s
    = { s with regs := (agreementOpened s).regs, takeover := some (getTakeover s).begun, resume := (agreementOpened s).resume } := by
  unfold agreementOpened
  rw [rechoose_frame]

theorem beginAgreement_eq (s : State) : beginAgreement s = emit
    ((jobParts (agreementOpened s)).foldl (fun s p => setPhase s p 3) (agreementOpened s)) (.agreement .lostRank (nextLost (getTakeover s).begun)) := by
  have resume : (rechoose s).resume = s.resume := by rw [rechoose_frame]
  unfold beginAgreement
  dsimp only
  rw [getTakeover_rechoose, resume]
  rfl

/-- What the beginning of the agreement leaves. -/
theorem beginAgreement_results (s : State) :
    (beginAgreement s).takeover = some (getTakeover s).begun
    ∧ droneState (beginAgreement s) = (if droneState s = 1 then 0 else droneState s)
    ∧ (beginAgreement s).out = s.out ++ [.agreement .lostRank (nextLost (getTakeover s).begun)]
    ∧ SameRegsBut s (beginAgreement s) (Reg.CKP_DRONE :: (List.range 8).map Reg.CKP_LAST)
    ∧ beginAgreement s = { s with
        takeover := (beginAgreement s).takeover, regs := (beginAgreement s).regs, out := (beginAgreement s).out
        resume := (beginAgreement s).resume } := by
  have frame := foldl_setPhase_frame (jobParts (agreementOpened s)) 3 (agreementOpened s)
  have phases := sameRegsBut_jobPhases (agreementOpened s) (agreementOpened s) 3
  have drone : Reg.CKP_DRONE ∉ (List.range 8).map Reg.CKP_LAST := by decide
  have opened := agreementOpened_frame s
  rw [beginAgreement_eq]
  generalize (jobParts (agreementOpened s)).foldl (fun s p => setPhase s p 3) (agreementOpened s) = v at frame phases
  refine ⟨?_, ?_, ?_, ?_, ?_⟩
  · rw [frame, opened]
    rfl
  · exact (phases.fld drone _).trans (droneState_rechoose s)
  · rw [frame, opened]
    rfl
  · exact SameRegsBut.trans (t := agreementOpened s) (sameRegsBut_rechoose s) phases (by simp) (List.subset_cons_self _ _)
  · rw [frame, opened]
    rfl

/-! ### A loss reaches the device (R427, R430, R432) -/

/-- The ranks of a loss that the device did not know to be lost. -/
def freshLost (s : State) (ranks : List Nat) : List Nat := ranks.filter (fun r => !(getTakeover s).known.contains r)

/-- The device that has heard of a loss and stopped the job's contexts and collectives, where nothing was in progress in a group. -/
def lossHeard (s : State) (ranks : List Nat) : State :=
  { (jobParts s).foldl (fun s p => deviceAbort s p .memberLost) ((jobTraining s).foldl stopCtx s) with
    takeover := some { getTakeover s with known := (getTakeover s).known ++ freshLost s ranks } }

theorem lossHeard_frame (s : State) (ranks : List Nat) : lossHeard s ranks = { s with
    ctxs := (lossHeard s ranks).ctxs, slices := (lossHeard s ranks).slices, grps := (lossHeard s ranks).grps
    train := (lossHeard s ranks).train
    takeover := some { getTakeover s with known := (getTakeover s).known ++ freshLost s ranks } } := by
  unfold lossHeard
  rw [foldl_deviceAbort_lost_frame, foldl_stopCtx_frame]

theorem stoppedOf_lossHeard (s : State) (ranks : List Nat) : StoppedOf (jobTraining s) s (lossHeard s ranks) := by
  have ctxs : (lossHeard s ranks).ctxs = ((jobTraining s).foldl stopCtx s).ctxs := by
    unfold lossHeard
    rw [foldl_deviceAbort_lost_frame]
  intro y
  rw [getCtx_of_ctxs ctxs]
  exact stoppedOf_foldl (jobTraining s) s y

/-- Whether a loss that names no rank of this device begins the agreement here (R427, R432). -/
def lossBegins (s : State) (ranks : List Nat) (takeover : Bool) : Bool :=
  !(ownRanks s).any (fun r => ranks.contains r)
    && ((autoTakeover s && (!(freshLost s ranks).isEmpty || !(getTakeover s).agreeing)) || takeover
      || (inTakeover s && !(freshLost s ranks).isEmpty))

theorem inTakeover_lossHeard (s : State) (ranks : List Nat) : inTakeover (lossHeard s ranks) = inTakeover s := by
  rw [lossHeard_frame]
  simp only [inTakeover, getTakeover]
  cases s.takeover <;> rfl

theorem lossHere_idle {ranks : List Nat} {s : State} (idle : ∀ e, e ∈ s.grps → e.2.bulk = none ∧ e.2.wag = none
    ∧ e.2.aborting = none ∧ ∀ r, r ∈ ranks → r ∉ e.2.members) (takeover : Bool) :
    lossHere s ranks takeover
      = if lossBegins s ranks takeover then beginAgreement (lossHeard s ranks) else lossHeard s ranks := by
  have stopped : ∀ ks : List Nat, ks.foldl (abortGroup ranks) ((jobTraining s).foldl stopCtx s) = (jobTraining s).foldl stopCtx s :=
    fun ks => foldl_abortGroup_idle (by rw [foldl_stopCtx_frame]; exact idle) ks
  have heard := inTakeover_lossHeard s ranks
  unfold lossHere
  dsimp only
  rw [stopped]
  change (if _ then lossHeard s ranks else if (_ || (inTakeover (lossHeard s ranks) && _)) = true then beginAgreement (lossHeard s ranks)
    else lossHeard s ranks) = _
  rw [heard]
  unfold lossBegins freshLost
  cases (ownRanks s).any (fun r => ranks.contains r) <;> rfl

theorem lossBegins_iff (s : State) (ranks : List Nat) (takeover : Bool) : lossBegins s ranks takeover = true
    ↔ (¬∃ r, r ∈ ownRanks s ∧ r ∈ ranks) ∧ ((autoTakeover s = true ∧ (freshLost s ranks ≠ [] ∨ (getTakeover s).agreeing = false))
      ∨ takeover = true ∨ (inTakeover s = true ∧ freshLost s ranks ≠ [])) := by
  simp [lossBegins, or_assoc]

/-- The notice of a loss has gone onward; what the device is otherwise is untouched. -/
theorem lossNoticeArrival_results {s : State} {ranks : List Nat} (tk : Bool)
    (idle : ∀ e, e ∈ s.grps → e.2.bulk = none ∧ e.2.wag = none ∧ e.2.aborting = none ∧ ∀ r, r ∈ ranks → r ∉ e.2.members) :
    let t := lossHere (emit s (.lossNotice ranks tk)) ranks tk
    (getTakeover t).known = (getTakeover s).known ++ freshLost s ranks
    ∧ (lossBegins s ranks tk = true → (getTakeover t).agreeing = true ∧ (getTakeover t).agreed = [] ∧ (getTakeover t).kstar = none
      ∧ (getTakeover t).chosen = [] ∧ (getTakeover t).restored = []
      ∧ droneState t = (if droneState s = 1 then 0 else droneState s)
      ∧ t.out = s.out ++ [.lossNotice ranks tk, .agreement .lostRank (nextLost (getTakeover t))])
    ∧ (¬lossBegins s ranks tk = true → (getTakeover t).agreeing = (getTakeover s).agreeing ∧ t.out = s.out ++ [.lossNotice ranks tk])
    ∧ StoppedOf (jobTraining s) s t
    ∧ SameRegsBut s t (Reg.CKP_DRONE :: (List.range 8).map Reg.CKP_LAST)
    ∧ t = { s with
        ctxs := t.ctxs, slices := t.slices, train := t.train, takeover := t.takeover, regs := t.regs, out := t.out
        grps := t.grps, resume := t.resume } := by
  intro t
  have value : t = if lossBegins s ranks tk then beginAgreement (lossHeard (emit s (.lossNotice ranks tk)) ranks)
      else lossHeard (emit s (.lossNotice ranks tk)) ranks := lossHere_idle (s := emit s (.lossNotice ranks tk)) idle tk
  have heard := lossHeard_frame (emit s (.lossNotice ranks tk)) ranks
  have stopped := stoppedOf_lossHeard (emit s (.lossNotice ranks tk)) ranks
  generalize lossHeard (emit s (.lossNotice ranks tk)) ranks = h at value heard stopped
  have takeover : getTakeover h = { getTakeover s with known := (getTakeover s).known ++ freshLost s ranks } := by
    rw [heard]
    rfl
  cases begins : lossBegins s ranks tk
  · rw [begins] at value
    rw [show t = h from value]
    refine ⟨by rw [takeover], nofun, fun _ => ⟨by rw [takeover], by rw [heard]; rfl⟩, stopped, sameRegsBut_of_regs (by rw [heard]; rfl) _, ?_⟩
    rw [heard]
    rfl
  · rw [begins] at value
    rw [show t = beginAgreement h from value]
    obtain ⟨begun, drone, out, regs, frame⟩ := beginAgreement_results h
    have now : getTakeover (beginAgreement h) = (getTakeover h).begun := by
      rw [getTakeover, begun, Option.getD_some]
    have ctxs : (beginAgreement h).ctxs = h.ctxs := by rw [frame]
    have hRegs : h.regs = s.regs := by rw [heard]; rfl
    have hOut : h.out = s.out ++ [.lossNotice ranks tk] := by rw [heard]; rfl
    have hDrone : droneState h = droneState s := by simp only [droneState, fld, rd, hRegs]
    refine ⟨by rw [now, takeover]; rfl, fun _ => ⟨by rw [now]; rfl, by rw [now]; rfl, by rw [now]; rfl, by rw [now]; rfl, by rw [now]; rfl,
      by rw [drone, hDrone], by rw [out, hOut, now, List.append_assoc]; rfl⟩, fun no => absurd rfl no, ?_, ?_, ?_⟩
    · intro y
      rw [getCtx_of_ctxs ctxs]
      exact stopped y
    · exact (sameRegsBut_of_regs hRegs _).and_then regs
    · rw [frame, heard]
      rfl

/-! ### A declared loss, and the host's word (R427, R430, R432) -/

/-- The member that is lost is logged, by the group that lists it or by the device. -/
theorem recordLost_results (s : State) (r : Nat) : ∃ q, recordLost s r = { s with recs := s.recs ++ [q], recSeq := (s.recSeq + 1) % 65536 }
    ∧ q.code = 0x0604 ∧ q.sev = 2 := by
  unfold recordLost
  split <;> exact ⟨_, rfl, rfl, rfl⟩

theorem loseOthers_none {s : State} {ranks : List Nat} (none_ : otherGroups s ranks = []) : loseOthers s ranks = s := by
  unfold loseOthers
  rw [none_]
  rfl

theorem any_jobCtxs {s : State} {x p : Nat} (job : x ∈ jobCtxs s) (part : (getCtx s x).part = p) :
    (jobCtxs s).any (fun x => (getCtx s x).part = p) = true :=
  List.any_eq_true.mpr ⟨x, job, decide_eq_true part⟩

theorem declareLost_fresh {s : State} {r x : Nat} (job : x ∈ jobCtxs s) (fresh : r ∉ (getTakeover s).known) (none_ : otherGroups s [r] = []) :
    declareLost s [r] = lossHere (emit (recordLost s r) (.lossNotice [r] false)) [r] false := by
  have list : [r].filter (fun r => !(getTakeover s).known.contains r) = [r] := by simp [fresh]
  have some_ : (jobCtxs s).isEmpty = false := by simpa using List.ne_nil_of_mem job
  unfold declareLost
  rw [loseOthers_none none_]
  dsimp only
  rw [list, some_]
  rfl

/-! ### The results of the agreement (R324, R428) -/

/-! What the device contributes and who is of the job: WGL_STAT has no part in it. -/
section
variable {s u : State} (ctxs : u.ctxs = s.ctxs) (regs : SameRegsBut s u [Reg.WGL_STAT])
include ctxs regs

omit ctxs in
theorem fld_wglStat_away {a : Nat} (ha : a ≠ Reg.WGL_STAT) (f : Fld) : fld u a f = fld s a f :=
  regs.fld (by simpa using ha) f

omit ctxs in
theorem flg_wglStat_away {a : Nat} (ha : a ≠ Reg.WGL_STAT) (f : Fld) : flg u a f = flg s a f := by
  unfold flg
  rw [fld_wglStat_away regs ha]

theorem jobCtxs_counted : jobCtxs u = jobCtxs s := by
  have kind : ∀ p, training u p = training s p := fun p => by
    unfold training
    rw [flg_wglStat_away regs (by simp only [Reg.PLC_PART, Reg.WGL_STAT]; omega)]
  have residents_ : residents u = residents s := by
    unfold residents
    rw [ctxs]
  unfold jobCtxs
  simp only [residents_, kind, manOf, getCtx_of_ctxs ctxs]

theorem jobParts_counted : jobParts u = jobParts s := by
  unfold jobParts jobTraining
  simp only [jobCtxs_counted ctxs regs, droneIndex, manOf, getCtx_of_ctxs ctxs]

theorem buddyRank_counted (r : Nat) : buddyRank u r = buddyRank s r := by
  unfold buddyRank
  simp only [jobCtxs_counted ctxs regs, manOf, getCtx_of_ctxs ctxs]

omit ctxs in
theorem droneState_counted : droneState u = droneState s := fld_wglStat_away regs (by decide) _

omit ctxs in
theorem droneSay_counted : droneSay u = droneSay s := by
  unfold droneSay
  rw [droneState_counted regs, fld_wglStat_away regs (by decide), flg_wglStat_away regs (by decide)]

theorem targetSay_counted : targetSay u = targetSay s := by
  have done : ∀ p f, fld u (Reg.CKP_STAT p) f = fld s (Reg.CKP_STAT p) f := fun p f =>
    fld_wglStat_away regs (by simp only [Reg.CKP_STAT, Reg.WGL_STAT]; omega) f
  unfold targetSay waitingDrone
  rw [droneState_counted regs, flg_wglStat_away regs (by decide), jobParts_counted ctxs regs]
  simp only [done]

end

/-- The device that has counted a reduction (R324). -/
def reductionCounted (s : State) : State := bump s Reg.WGL_STAT Fld.WGL_STAT_REDUCTIONS 1

/-- What a result changes, by its step. -/
def resultTaken (s : State) (t : Takeover) (r : Nat) : TakeoverStep → State
  | .lostRank => lostResult s t r
  | .target => targetResult s t r
  | .drone => droneResult s t r

/-- The result of a reduction reaches a device that agrees: it is counted, then judged by its step. -/
theorem takeoverAgreementResult_of_agreeing {s : State} {t : Takeover} {x : Nat} {step : TakeoverStep} (r : Nat)
    (takeover : s.takeover = some t) (agreeing : t.agreeing = true) (job : x ∈ jobCtxs s) (turn : t.kstar.isSome = (step == .drone)) :
    exec (.takeoverAgreementResult x step r) s = .next (resultTaken (reductionCounted s) t r step) := by
  have go : ¬(!t.agreeing || !(jobCtxs s).contains x || t.kstar.isSome != (step == .drone)) = true := by simp [agreeing, job, turn]
  change execTakeoverAgreementResult x step r s = _
  unfold execTakeoverAgreementResult
  rw [takeover]
  dsimp only
  rw [if_neg go]
  cases step <;> rfl

theorem sameRegsBut_reductionCounted (s : State) : SameRegsBut s (reductionCounted s) [Reg.WGL_STAT] :=
  sameRegsBut_bump s _ _ _

theorem onlyField_reductionCounted (s : State) : OnlyField s (reductionCounted s) Reg.WGL_STAT Fld.WGL_STAT_REDUCTIONS
    (satAdd Fld.WGL_STAT_REDUCTIONS.w (fld s Reg.WGL_STAT Fld.WGL_STAT_REDUCTIONS) 1) := onlyField_bump s _ _ _ (by decide)

theorem lostResult_of_rank (s : State) (t : Takeover) {r : Nat} (rank : r < 16384) :
    ∃ t', lostResult s t r = { s with takeover := some t', out := s.out ++ [.agreement .lostRank (nextLost t')] } ∧ t'.agreed = t.agreed ++ [r]
      ∧ r ∈ t'.known ∧ ∀ k, k ∈ t.known → k ∈ t'.known := by
  unfold lostResult
  rw [if_neg (Nat.not_le.mpr rank)]
  refine ⟨_, rfl, rfl, ?_, ?_⟩
  · by_cases h : r ∈ t.known <;> simp [h]
  · intro k hk
    by_cases h : r ∈ t.known <;> simp [h, hk]

theorem targetResult_of_slot {s : State} {t : Takeover} {r : Nat} (slot : r ≠ 0)
    (buddies : ∀ a b, a ∈ t.agreed → buddyRank s a = some b → b ∉ t.agreed) : targetResult s t r
    = { s with takeover := some { t with kstar := some r }, out := s.out ++ [.agreement .drone (droneSay s)] } := by
  have live : t.agreed.find? (fun r => match buddyRank s r with
      | some b => t.agreed.contains b
      | none => false) = none := by
    refine List.find?_eq_none.mpr fun a ha => ?_
    split
    · next b hb => simpa using buddies a b ha hb
    · exact Bool.false_ne_true
  unfold targetResult
  dsimp only
  rw [if_neg slot]
  exact congrArg (fun (o : Option Nat) => match o with
    | some a => failTakeover { s with takeover := some { t with kstar := some r } } 2 a
    | none => emit { s with takeover := some { t with kstar := some r } } (.agreement .drone (droneSay s))) live

/-- The partitions that hold contexts of the job. -/
def partsOfJob (s : State) : List Nat := selectBelow 8 (fun p => (jobCtxs s).any (fun x => (getCtx s x).part = p))

/-- CKP_FAIL of one partition, whose phase is idle again (R428). -/
def ckpFailed (cause kstar rank : Nat) (s : State) (p : Nat) : State :=
  setPhase (raisePart s p 0x1001 sevFatal p cause kstar rank (fld s (Reg.BRD_STEP p) Fld.BRD_STEP_STEP)) p 0

theorem failTakeover_eq (s : State) (cause rank : Nat) : failTakeover s cause rank
    = { (partsOfJob s).foldl (ckpFailed cause ((getTakeover s).kstar.getD 0) rank) s with
        takeover := some { getTakeover s with agreeing := false, agreed := [], chosen := [], kstar := none } } := rfl

theorem foldl_ckpFailed_frame (cause kstar rank : Nat) (ps : List Nat) (s : State) : ps.foldl (ckpFailed cause kstar rank) s = { s with
    regs := (ps.foldl (ckpFailed cause kstar rank) s).regs, recs := (ps.foldl (ckpFailed cause kstar rank) s).recs
    recSeq := (ps.foldl (ckpFailed cause kstar rank) s).recSeq } := by
  induction ps generalizing s with
  | nil => rfl
  | cons p ps ih =>
    rw [List.foldl_cons, ih]
    rfl

theorem sameRegsBut_foldl_ckpFailed (cause kstar rank : Nat) {ps : List Nat} (parts : ∀ p, p ∈ ps → p < 8) (s : State) :
    SameRegsBut s (ps.foldl (ckpFailed cause kstar rank) s) ((List.range 8).map Reg.CKP_LAST) :=
  SameRegsBut.foldl (fun u p hp =>
    let v := raisePart u p 0x1001 sevFatal p cause kstar rank (fld u (Reg.BRD_STEP p) Fld.BRD_STEP_STEP)
    SameRegsBut.and_then (t := v) (sameRegsBut_of_regs rfl _)
      (sameRegsBut_setFld_of_mem v _ _ (List.mem_map_of_mem (List.mem_range.mpr (parts p hp))))) s

theorem recs_foldl_ckpFailed (cause kstar rank : Nat) (ps : List Nat) (s : State) (q : ErrRec) (h : q ∈ s.recs) :
    q ∈ (ps.foldl (ckpFailed cause kstar rank) s).recs := by
  induction ps generalizing s with
  | nil => exact h
  | cons p ps ih => exact ih _ (List.mem_append_left _ h)

/-- Where the job has a partition here, its CKP_FAIL is among the records. -/
theorem ckpFail_mem_of_part (cause kstar rank : Nat) {ps : List Nat} {p : Nat} (part : p ∈ ps) (s : State) :
    ∃ q, q ∈ (ps.foldl (ckpFailed cause kstar rank) s).recs ∧ q.code = 0x1001 ∧ q.sev = 3 ∧ q.d0 = cause := by
  obtain ⟨before, after, rfl⟩ := List.append_of_mem part
  rw [List.foldl_append, List.foldl_cons]
  exact ⟨_, recs_foldl_ckpFailed _ _ _ _ _ _ (List.mem_append_right _ (List.mem_singleton_self _)), rfl, rfl, rfl⟩

theorem mem_partsOfJob {s : State} {x : Nat} (job : x ∈ jobCtxs s) (part : (getCtx s x).part < 8) : (getCtx s x).part ∈ partsOfJob s := by
  unfold partsOfJob selectBelow
  exact List.mem_filter.mpr ⟨List.mem_range.mpr part, any_jobCtxs job rfl⟩

theorem lt_of_mem_partsOfJob {s : State} {p : Nat} (h : p ∈ partsOfJob s) : p < 8 := by
  unfold partsOfJob selectBelow at h
  exact List.mem_range.mp (List.mem_of_mem_filter h)

theorem droneState_take (s : State) : droneState (setDroneState s 1) = 1 := fld_setFld_same s Reg.CKP_DRONE Fld.CKP_DRONE_STATE 1 (by decide)

/-- Step 3 returns a drone: the lost rank has it, and the drone here leaves IDLE where it is the one. -/
theorem droneResult_of_rank {s : State} {t : Takeover} {a r : Nat} {more : List Nat} (left : unchosen t = a :: more) (say : r < noSay) :
    let u := droneResult s t r
    u.takeover = some { t with chosen := t.chosen ++ [(a, r)] }
    ∧ droneState u = (if droneSay s = r then 1 else droneState s)
    ∧ u.out = (if more = [] then s.out else s.out ++ [.agreement .drone (droneSay u)])
    ∧ SameRegsBut s u [Reg.CKP_DRONE]
    ∧ u = { s with regs := u.regs, takeover := u.takeover, out := u.out } := by
  intro u
  have value : u = (if more.isEmpty then { (if droneSay s = r then setDroneState s 1 else s) with takeover := some { t with chosen := t.chosen ++ [(a, r)] } }
      else emit { (if droneSay s = r then setDroneState s 1 else s) with takeover := some { t with chosen := t.chosen ++ [(a, r)] } }
        (.agreement .drone (droneSay (if droneSay s = r then setDroneState s 1 else s)))) := by
    change droneResult s t r = _
    unfold droneResult
    rw [left]
    dsimp only
    rw [if_neg (Nat.not_le.mpr say)]
    rfl
  have drone : droneState (if droneSay s = r then setDroneState s 1 else s) = (if droneSay s = r then 1 else droneState s) := by
    split
    · exact droneState_take s
    · rfl
  have regs : SameRegsBut s (if droneSay s = r then setDroneState s 1 else s) [Reg.CKP_DRONE] := by
    split
    · exact sameRegsBut_setFld s _ _ _
    · exact sameRegsBut_refl s _
  have frame : (if droneSay s = r then setDroneState s 1 else s)
      = { s with regs := (if droneSay s = r then setDroneState s 1 else s).regs } := by
    split <;> rfl
  generalize (if droneSay s = r then setDroneState s 1 else s) = v at value drone regs frame
  have out : v.out = s.out := by rw [frame]
  cases more with
  | nil =>
    rw [value]
    exact ⟨rfl, drone, out, regs, by rw [frame]; rfl⟩
  | cons b more =>
    rw [value]
    exact ⟨rfl, drone, congrArg (· ++ _) out, regs, by rw [frame]; rfl⟩

/-- A takeover that fails: CKP_FAIL is logged, the phases are idle and the takeover begins from nothing. -/
theorem failTakeover_results {s : State} {x : Nat} (cause rank : Nat) (job : x ∈ jobCtxs s) (part : (getCtx s x).part < 8) :
    let u := failTakeover s cause rank
    u.takeover = some { getTakeover s with agreeing := false, agreed := [], chosen := [], kstar := none }
    ∧ (∃ q, q ∈ u.recs ∧ q.code = 0x1001 ∧ q.sev = 3 ∧ q.d0 = cause)
    ∧ SameRegsBut s u ((List.range 8).map Reg.CKP_LAST)
    ∧ u.mem = s.mem ∧ u.ctxs = s.ctxs := by
  intro u
  have value : u = { (partsOfJob s).foldl (ckpFailed cause ((getTakeover s).kstar.getD 0) rank) s with
      takeover := some { getTakeover s with agreeing := false, agreed := [], chosen := [], kstar := none } } := failTakeover_eq s cause rank
  have fails := ckpFail_mem_of_part cause ((getTakeover s).kstar.getD 0) rank (mem_partsOfJob job part) s
  have phases := sameRegsBut_foldl_ckpFailed cause ((getTakeover s).kstar.getD 0) rank (ps := partsOfJob s) (fun _ => lt_of_mem_partsOfJob) s
  have frame := foldl_ckpFailed_frame cause ((getTakeover s).kstar.getD 0) rank (partsOfJob s) s
  generalize (partsOfJob s).foldl (ckpFailed cause ((getTakeover s).kstar.getD 0) rank) s = v at value fails phases frame
  rw [value]
  exact ⟨rfl, fails, phases, by rw [frame], by rw [frame]⟩

/-- Settles O44: the loss is heard of, the agreement begins, and each of its results has the effect of its step. -/
theorem lossAndAgreement : Obligations.LossAndAgreement := by
  unfold Obligations.LossAndAgreement
  refine ⟨⟨fun s x ranks tk man => ?_, fun s p r x job part rank fresh none_ => ?_, fun s p x job part auto known => ?_⟩,
    fun s x r t takeover agreeing job => ⟨fun kstar => ⟨fun rank => ?_, fun noRank => ?_, fun slot buddies => ?_, fun part => ?_⟩,
      fun kstar a more left say => ?_⟩⟩
  · have run : exec (.lossNoticeArrival x ranks tk) s = .next (lossHere (emit s (.lossNotice ranks tk)) ranks tk) := if_pos man
    refine ⟨run, fun idle => ?_⟩
    obtain ⟨known, begun, heard, stopped, regs, frame⟩ := lossNoticeArrival_results tk idle
    have iff := lossBegins_iff s ranks tk
    exact ⟨_, run, known, fun b => begun (iff.mpr b), fun b => heard (fun c => b (iff.mp c)), stoppedOf_iff stopped, regs, frame⟩
  · obtain ⟨q, recs, code, sev⟩ := recordLost_results s r
    have run : exec (.ckpCmdDeclare p r) s = .next (declareLost s [r % 16384]) := if_pos (any_jobCtxs job part)
    rw [Nat.mod_eq_of_lt rank, declareLost_fresh job fresh none_, recs] at run
    exact ⟨_, q, run, rfl, code, sev, rfl, rfl⟩
  · have manual : flg s (Reg.CKP_PART p) Fld.CKP_PART_AUTO = false := decide_eq_false (by rw [auto]; decide)
    exact ⟨_, if_pos (by simp [manual, known, any_jobCtxs job part]), rfl⟩
  all_goals
    have ctxs : (reductionCounted s).ctxs = s.ctxs := rfl
    have regs := sameRegsBut_reductionCounted s
    have counted := onlyField_reductionCounted s
  · have run := takeoverAgreementResult_of_agreeing r takeover agreeing job (step := .lostRank) (by rw [kstar]; rfl)
    obtain ⟨t', value, agreed, own, kept⟩ := lostResult_of_rank (reductionCounted s) t rank
    refine ⟨_, t', run.trans (congrArg _ value), rfl, agreed, own, kept, rfl, counted, regs, rfl⟩
  · have run := takeoverAgreementResult_of_agreeing r takeover agreeing job (step := .lostRank) (by rw [kstar]; rfl)
    have value : lostResult (reductionCounted s) t r
        = emit { reductionCounted s with takeover := some t } (.agreement .target (targetSay (reductionCounted s))) := if_pos noRank
    rw [targetSay_counted ctxs regs, ← takeover] at value
    exact ⟨_, run.trans (congrArg _ value), counted, regs, rfl⟩
  · have run := takeoverAgreementResult_of_agreeing r takeover agreeing job (step := .target) (by rw [kstar]; rfl)
    have value := targetResult_of_slot (s := reductionCounted s) slot (fun a b ha hb => buddies a b ha (buddyRank_counted ctxs regs a ▸ hb))
    rw [droneSay_counted regs] at value
    exact ⟨_, run.trans (congrArg _ value), counted, regs, rfl⟩
  · have run := takeoverAgreementResult_of_agreeing 0 takeover agreeing job (step := .target) (by rw [kstar]; rfl)
    obtain ⟨undone, fails, phases, mem, kept⟩ := failTakeover_results (s := { reductionCounted s with takeover := some { t with kstar := some 0 } })
      4 (t.agreed.headD 0) (jobCtxs_counted (s := s) ctxs regs ▸ job) part
    refine ⟨_, run, counted.congr rfl (phases Reg.WGL_STAT (by decide)), undone, fails, readByte_congr mem, kept⟩
  · have run := takeoverAgreementResult_of_agreeing r takeover agreeing job (step := .drone) (Option.isSome_iff_ne_none.mpr kstar)
    obtain ⟨chosen, drone, out, only, frame⟩ := droneResult_of_rank (s := reductionCounted s) left say
    rw [droneSay_counted regs, droneState_counted regs] at drone
    refine ⟨_, run, chosen, drone, out, counted.congr rfl (only Reg.WGL_STAT (by decide)),
      SameRegsBut.trans regs only (by simp) (by simp), ?_⟩
    exact frame

end Sys2Proof.Machine
end

section
/-! The C.BULK of a POISONED group (R295, R306) falls after the memory errors that its source meets are counted. -/

namespace Sys2Proof.Machine

/-! A state that refutes O23. Its group names partition 4116, whose COL_STAT would be the register MEM_ECC_CORR: a corrected error that
the C.BULK meets in its source is counted there, beside the abort, while the statement lets that register change in ABORTED alone. -/

/-- A started C.BULK of group 1, whose source is a row of handle 2 at address 0. -/
def farBulk : Flight :=
  let f := Tests.flCol Tests.bulkI
  { f with regs := f.regs.setT 3 ⟨0x3F80000000000002, 0, 0x0000040000200001, 0⟩ }

/-- Group 1, POISONED, of partition 4116. -/
def farGrp : Grp := { Tests.gp with st := 3, poison := 1, part := 4116 }

/-- Context 0 RUNNING with that C.BULK on core 0, its source in a region of 4,096 bytes at 0. -/
def farCol : State := { Tests.stCode (some (Tests.rnFly farBulk)) [] with grps := [(0, farGrp)] }

/-- A corrected error in the first unit of the source. -/
def farBulkError : List EccEvent := [⟨0, .corrected, 0⟩]

theorem farCol_starts :
    Started farCol 0 0 0 (Tests.rnFly farBulk) farBulk Tests.bulkI ∧ colTurn (Tests.rnFly farBulk) 0 = true
    ∧ grpSlot farCol 0 (ctlGroup (farBulk.regs.getG 4)) = some 0 ∧ getGrp farCol 0 = farGrp ∧ farGrp.busy false = false := by
  unfold Started
  decide +kernel

theorem farCol_noneReady : NoneReady farCol := Tests.none_ready (Tests.grps_one rfl rfl)

theorem farCol_register : (rd farCol (Reg.COL_STAT 4116)).getLsbD 0 = false := by decide +kernel

/-- Bit 0 of that register after a step. -/
def farBitAfter (c : Instr) (s : State) : Bool :=
  match exec c s with
  | .next t => (rd t (Reg.COL_STAT 4116)).getLsbD 0
  | _ => false

/-- The error is counted in the register. -/
theorem farBitAfter_farCol : farBitAfter (.cBulk 0 0 0 farBulkError) farCol = true := by decide +kernel

/-- Refutes O23: `farCol` meets the premises of the POISONED clause, and its C.BULK changes COL_STAT outside ABORTED. -/
theorem not_collectiveEntries : ¬ Obligations.CollectiveEntries := by
  unfold Obligations.CollectiveEntries
  rintro ⟨bulk, -⟩
  obtain ⟨started, turn, slot, grp, free⟩ := farCol_starts
  obtain ⟨-, -, poisoned, -⟩ := bulk farCol _ 0 0 0 0 _ farBulk 2 3 4 5 farBulkError started rfl rfl farCol_noneReady turn rfl slot
  rw [grp] at poisoned
  obtain ⟨t, step, -, -, -, -, ⟨-, others⟩, -, -⟩ := poisoned free rfl
  have counted : (rd t (Reg.COL_STAT 4116)).getLsbD 0 = true := by
    have bit := farBitAfter_farCol
    unfold farBitAfter at bit
    rwa [step] at bit
  have kept : (rd t (Reg.COL_STAT 4116)).getLsbD 0 = (rd farCol (Reg.COL_STAT 4116)).getLsbD 0 := others 0 (.inl (by decide))
  rw [counted, farCol_register] at kept
  contradiction

end Sys2Proof.Machine
end

section
/-! A chunk that is taken (R304, R311) may signal a flag, and what the flag wakes may end the collective. -/

namespace Sys2Proof.Machine

/-! A state that refutes O24. Group 1 is its partition's reduction group, in a gather (operation 6) that has agreed and has a chunk to
write that is signalled by flag. On the flag waits an optimizer handler that already stops for a poisoned operand: woken, it faults,
its rank votes halt, the vote's reduction meets a notice kept in the group and is aborted, and with it the exchange ends: the gather
leaves the group in the step that took the chunk. -/

/-- A KEEP wait on flag 0. -/
def handlerWait : Flight := { Tests.fl .started (.sWait 0 0 false false 0 0) with waits := .flag 0 }

/-- The optimizer handler of chunk 0, which has met a poisoned operand and has nothing left in flight but that wait. -/
def stoppingHandler : Running :=
  { Tests.rnFly handlerWait with task := { Tests.tk with kind := .optHandler 0 0 }, poisonStop := true }

/-- A gather whose first chunk is to be written, and signalled on flag name 0. -/
def signallingGather : Bulk :=
  { Tests.bk with owner := none, sig := mkSig 1 0 0 6 0 0 0 1024, sigMode := 1, span := 1, agreed := true, writes := [(0, [])] }

/-- The reduction group, with that gather and a notice for its next Waggle operation. -/
def noticedGrp : Grp :=
  { Tests.gp with device := true, tree := some 0, notices := [(true, 0, .timeout)], bulk := some signallingGather, st := 1, seq := 1 }

/-- Context 0 RUNNING the handler, its partition in an exchange. -/
def gatherState : State :=
  { Tests.stOf .running (some stoppingHandler) with
    grps := [(0, noticedGrp)], train := [(0, { Train.idle with xch := some (Xch.fresh 0) })] }

/-- A later chunk of the gather, with nothing in it. -/
def emptyChunk : BulkChunk := Tests.ck signallingGather.sig false [] true false

/-- Whether group 0 has a bulk collective after a step. -/
def bulkAfter (c : Instr) (s : State) : Bool :=
  match exec c s with
  | .next t => (getGrp t 0).bulk.isSome
  | _ => false

theorem getGrp_gatherState : getGrp gatherState 0 = noticedGrp := by decide +kernel

/-- The chunk is taken, and the gather is gone. -/
theorem bulkAfter_gatherState : bulkAfter (.bulkChunkArrival 0 emptyChunk) gatherState = false := by decide +kernel

/-- Refutes O24: `gatherState` meets the premises of the clause of a chunk that is taken, and its group holds no collective after. -/
theorem not_collectiveFlow : ¬ Obligations.CollectiveFlow := by
  unfold Obligations.CollectiveFlow
  rintro ⟨chunks, -⟩
  have arrives := chunks gatherState 0 emptyChunk
  rw [getGrp_gatherState] at arrives
  obtain ⟨-, -, judged⟩ := arrives rfl rfl rfl
  obtain ⟨-, -, taken⟩ := judged signallingGather rfl (by decide) rfl rfl rfl
  obtain ⟨t, b, step, bulk, -⟩ := taken (fun h => Bool.false_ne_true h.1) rfl rfl rfl rfl
  have held : bulkAfter (.bulkChunkArrival 0 emptyChunk) gatherState = true := by
    unfold bulkAfter
    rw [step]
    exact Option.isSome_iff_exists.mpr ⟨b, bulk⟩
  rw [bulkAfter_gatherState] at held
  contradiction

end Sys2Proof.Machine
end

section
/-! A gather that starts leaves the restores under way as they are: every function of the model that it may run, down to the flags, rings
and tasks that a written chunk may wake (R248, R310, R431). -/

namespace Sys2Proof.Machine

variable {s : State}

/-- A fold of steps that leave the restores under way leaves them. -/
theorem foldl_resume {α : Type} {f : State → α → State} (h : ∀ s a, (f s a).resume = s.resume) (l : List α) (s : State) :
    (l.foldl f s).resume = s.resume := by
  induction l generalizing s with
  | nil => rfl
  | cons a l ih => exact (ih _).trans (h s a)

/-! ### Contexts, records and the comb store -/

@[simp] theorem raiseInstr_resume (x l pc code sev obj d0 d1 d2 d3 : Nat) : (raiseInstr s x l pc code sev obj d0 d1 d2 d3).resume = s.resume := rfl
@[simp] theorem raiseCtx_resume (x code sev obj d0 d1 d2 d3 : Nat) : (raiseCtx s x code sev obj d0 d1 d2 d3).resume = s.resume := rfl
@[simp] theorem raiseGrp_resume (g : Grp) (code obj d0 d1 d2 d3 : Nat) : (raiseGrp s g code obj d0 d1 d2 d3).resume = s.resume := rfl
@[simp] theorem refuseAccess_resume (x a : Nat) : (refuseAccess s x a).resume = s.resume := rfl

@[simp] theorem faultCtx_resume (x : Nat) : (faultCtx s x).resume = s.resume := by rw [faultCtx_frame]
@[simp] theorem stopCtx_resume (x : Nat) : (stopCtx s x).resume = s.resume := by rw [stopCtx_frame]
@[simp] theorem stopPart_resume (p : Nat) : (stopPart s p).resume = s.resume := foldl_resume (fun _ _ => stopCtx_resume _) _ _

@[simp] theorem combTouch_resume (write strm : Bool) (a n : Nat) : (combTouch s write strm a n).resume = s.resume :=
  (congrArg State.resume (show combTouch s write strm a n = _ from onlyComb_combTouch s write strm a n)).trans rfl

@[simp] theorem markNf_resume (x h : Nat) (bad : Bool) : (markNf s x h bad).resume = s.resume := by
  unfold markNf
  extract_lets
  split <;> rfl

@[simp] theorem storeBytes_resume (a : Nat) (bs : List Byte) : (storeBytes s a bs).resume = s.resume := by rw [storeBytes_frame]

/-! ### The exchange of a partition and its device-started reductions -/

@[simp] theorem countCol_resume (p : Nat) (aborted : Bool) : (countCol s p aborted).resume = s.resume := by
  unfold countCol
  split <;> rfl

@[simp] theorem addContrib_resume (k : Nat) (port : Option Nat) (sig : Sig) (vals : List ℤ) (bad : List Bool) :
    (addContrib s k port sig vals bad).resume = s.resume := rfl

@[simp] theorem endExchange_resume (p : Nat) : (endExchange s p).resume = s.resume := by
  unfold endExchange
  dsimp only
  (repeat' split) <;> simp

@[simp] theorem devWagAborted_resume (p : Nat) (lost : Bool) : (devWagAborted s p lost).resume = s.resume := by
  unfold devWagAborted
  split <;> simp

@[simp] theorem beginDev_resume (slot : Nat) (d : DevWag) : (beginDev s slot d).resume = s.resume := by
  unfold beginDev
  dsimp only
  (repeat' split) <;> simp

@[simp] theorem enterDev_resume (slot : Nat) (d : DevWag) : (enterDev s slot d).resume = s.resume := by
  unfold enterDev
  dsimp only
  split <;> simp

@[simp] theorem pumpDev_resume (slot : Nat) : (pumpDev s slot).resume = s.resume := by
  unfold pumpDev
  dsimp only
  (repeat' split) <;> simp

@[simp] theorem startOr_resume (p : Nat) (owner : WagOwner) (vals : List Nat) (o : Output) : (startOr s p owner vals o).resume = s.resume := by
  unfold startOr
  (repeat' split) <;> simp

@[simp] theorem noteNonfinite_resume (p : Nat) (e : Xch) : (noteNonfinite s p e).resume = s.resume := by
  unfold noteNonfinite
  split <;> rfl

@[simp] theorem castVote_resume (p : Nat) : (castVote s p).resume = s.resume := by
  unfold castVote
  dsimp only
  (repeat' split) <;> simp

/-! ### An instruction completes -/

@[simp] theorem haltHandler_resume (x l pc : Nat) (k : TaskKind) (cause : Nat) : (haltHandler s x l pc k cause).resume = s.resume := by
  unfold haltHandler
  split <;> simp

@[simp] theorem settlePoison_resume (x l : Nat) : (settlePoison s x l).resume = s.resume := by
  unfold settlePoison faultInstr
  (repeat' split) <;> simp

@[simp] theorem completeFlight_resume (x l id : Nat) : (completeFlight s x l id).resume = s.resume := by
  unfold completeFlight
  (repeat' split) <;> simp

@[simp] theorem writeG_resume (x l : Nat) (i : GReg) (v : Word) : (writeG s x l i v).resume = s.resume := by
  unfold writeG
  split <;> rfl

@[simp] theorem finishComm_resume (x l id : Nat) (ws : List (GReg × Word)) : (finishComm s x l id ws).resume = s.resume := by
  unfold finishComm
  rw [completeFlight_resume]
  exact foldl_resume (fun _ _ => writeG_resume ..) _ _

@[simp] theorem finishCol_resume (o : Nat × Nat × Nat) (ws : List (GReg × Word)) (st : Word) : (finishCol s o ws st).resume = s.resume := by
  unfold finishCol
  (repeat' split) <;> simp

/-! ### Flags and rings -/

@[simp] theorem wakeWait_resume (e : Nat × Nat × Flight) : (wakeWait s e).resume = s.resume := finishComm_resume ..

@[simp] theorem judgeFlag_resume (f : Nat) : (judgeFlag s f).resume = s.resume := by
  have keep : ((liveWaits s (waitsOn f false)).foldl wakeWait s).resume = s.resume := foldl_resume (fun _ _ => wakeWait_resume _) _ _
  unfold judgeFlag
  dsimp only
  (repeat' split) <;> simp [keep]

@[simp] theorem setFlagName_resume (x name source rank : Nat) : (setFlagName s x name source rank).resume = s.resume := by
  unfold setFlagName setFlagAt
  dsimp only
  rw [judgeFlag_resume]
  (repeat' split) <;> simp

@[simp] theorem advanceRing_resume (num : Nat) : (advanceRing s num).resume = s.resume := rfl

@[simp] theorem placePad_resume (num n k : Nat) : (placePad s num n k).resume = s.resume := by
  simp [placePad]

@[simp] theorem placeWrap_resume (num n : Nat) : (placeWrap s num n).resume = s.resume := by
  unfold placeWrap
  split <;> simp

@[simp] theorem placeMsg_resume (num n : Nat) (h : MsgHdr) (seq : Nat) (payload : List Byte) :
    (placeMsg s num n h seq payload).resume = s.resume := by
  simp [placeMsg]

@[simp] theorem judgeArrival_resume (r : Ring) (m : RingMsg) : (judgeArrival s r m).1.resume = s.resume := by
  unfold judgeArrival
  dsimp only
  split <;> simp

@[simp] theorem acceptMsg_resume (num : Nat) (m : RingMsg) (intact : Bool) : (acceptMsg s num m intact).resume = s.resume := by
  unfold acceptMsg
  dsimp only
  (repeat' split) <;> simp

@[simp] theorem ringArrive_resume (num : Nat) (m : RingMsg) (intact : Bool) : (ringArrive s num m intact).1.resume = s.resume := by
  unfold ringArrive
  dsimp only
  (repeat' split) <;> simp

/-! ### Sending, writing and signals of a bulk collective -/

@[simp] theorem foldl_emit_resume {α : Type} (g : State → α → Output) (l : List α) (s : State) :
    (l.foldl (fun s a => emit s (g s a)) s).resume = s.resume := foldl_resume (fun s a => emit_resume (s := s) (g s a)) l s

@[simp] theorem pump_resume (slot : Nat) : (pump s slot).resume = s.resume := by
  have stage : ∀ (s : State) (st : StageId), (pumpStage slot s st).resume = s.resume := fun s st => by
    unfold pumpStage emitChunk
    dsimp only
    (repeat' split) <;> simp
  unfold pump
  split
  · exact foldl_resume stage _ _
  · rfl

@[simp] theorem tensorWrite_resume (v : Desc × Nat) (j : Nat) (bs : List Byte) : (tensorWrite s v j bs).resume = s.resume := by
  have runs : ∀ (rs : List (Nat × Nat)) (bs : List Byte) (s : State), (tensorWriteRuns s bs rs).resume = s.resume := fun rs => by
    induction rs with
    | nil => exact fun _ _ => rfl
    | cons r rs ih => exact fun bs s => ih _ _
  exact runs _ _ _

@[simp] theorem tensorStore_resume (x type : Nat) (v : Desc × Nat) (j : Nat) (bs : List Byte) :
    (tensorStore s x type v j bs).resume = s.resume := by
  unfold tensorStore
  refine (foldl_resume (fun _ _ => combTouch_resume ..) _ _).trans ?_
  simp

@[simp] theorem markSignalled_resume (slot k : Nat) : (markSignalled s slot k).resume = s.resume := rfl

@[simp] theorem signalChunk_resume (slot k : Nat) : (signalChunk s slot k).resume = s.resume := by
  unfold signalChunk
  dsimp only
  (repeat' split) <;> simp

@[simp] theorem writeChunk_resume (slot : Nat) (w : Nat × List Byte) : (writeChunk slot s w).resume = s.resume := by
  unfold writeChunk
  dsimp only
  (repeat' split) <;> simp

@[simp] theorem noteAgreed_resume (slot : Nat) : (noteAgreed s slot).resume = s.resume := by
  unfold noteAgreed noteLaggard
  dsimp only
  (repeat' split) <;> simp

@[simp] theorem progress_resume (slot : Nat) : (progress s slot).resume = s.resume := by
  unfold progress doWrites
  dsimp only
  (repeat' split) <;> simp [foldl_resume (fun _ _ => writeChunk_resume ..)]

/-! ### Aborts -/

@[simp] theorem deviceAbort_resume (p : Nat) (why : AbortReason) : (deviceAbort s p why).resume = s.resume := by
  unfold deviceAbort
  dsimp only
  (repeat' split) <;> simp

@[simp] theorem undefineDst_resume (geo : Geo) (b : Bulk) : (undefineDst s geo b).resume = s.resume := by
  unfold undefineDst
  split
  · exact foldl_resume (fun s k => tensorWrite_resume (s := (drawBytes s _).2) ..) _ _
  · rfl

@[simp] theorem dropContribs_resume (g : Grp) (seq : Nat) : (dropContribs s g seq).resume = s.resume := by
  unfold dropContribs
  split <;> rfl

@[simp] theorem endAborted_resume (slot : Nat) (waggle : Bool) (seq : Nat) (why : AbortReason) :
    (endAborted s slot waggle seq why).resume = s.resume := by
  unfold endAborted endWag
  dsimp only
  (repeat' split) <;> simp

@[simp] theorem startNaming_resume (slot : Nat) : (startNaming s slot).resume = s.resume := by
  unfold startNaming enterNaming
  dsimp only
  (repeat' split) <;> simp

@[simp] theorem applyAbort_resume (slot : Nat) (waggle : Bool) (seq : Nat) (why : AbortReason) :
    (applyAbort s slot waggle seq why).resume = s.resume := by
  unfold applyAbort
  dsimp only
  (repeat' split) <;> simp

@[simp] theorem detectAbort_resume (slot : Nat) (waggle : Bool) (seq : Nat) (why : AbortReason) :
    (detectAbort s slot waggle seq why).resume = s.resume := applyAbort_resume ..

@[simp] theorem failCheck_resume (slot : Nat) (c : BulkChunk) (check : Nat) : (failCheck s slot c check).resume = s.resume :=
  detectAbort_resume ..

@[simp] theorem failFinal_resume (slot : Nat) : (failFinal s slot).resume = s.resume := by
  unfold failFinal
  dsimp only
  (repeat' split) <;> simp

/-! ### Chunks, and the gather's beginning -/

@[simp] theorem takeChunk_resume (slot : Nat) (c : BulkChunk) : (takeChunk s slot c).resume = s.resume := by
  unfold takeChunk
  dsimp only
  split <;> simp

@[simp] theorem judgeChunk_resume (slot : Nat) (c : BulkChunk) : (judgeChunk s slot c).resume = s.resume := by
  unfold judgeChunk
  dsimp only
  (repeat' split) <;> simp

@[simp] theorem arriveChunk_resume (slot : Nat) (c : BulkChunk) : (arriveChunk s slot c).resume = s.resume := by
  unfold arriveChunk
  dsimp only
  (repeat' split) <;> simp

@[simp] theorem beginBulk_resume (slot : Nat) (b : Bulk) : (beginBulk s slot b).resume = s.resume := by
  unfold beginBulk takeStaged
  dsimp only
  rw [foldl_resume fun _ _ => arriveChunk_resume ..]
  simp

@[simp] theorem beginGather_resume (p : Nat) : (beginGather s p).resume = s.resume := by
  unfold beginGather
  dsimp only
  (repeat' split) <;> simp

/-- A gather that starts changes no restore. -/
theorem startGather_resume (s : State) (p : Nat) : (startGather s p).resume = s.resume := by
  unfold startGather startDevBulk
  split
  · rfl
  · dsimp only
    split
    · simp
    · exact beginGather_resume p

end Sys2Proof.Machine
end

section
/-! ROLLBACK_RESTORE (R431) reads its slot after the rings of its contexts are reset. -/

namespace Sys2Proof.Machine

/-! A state that refutes O45. A ring of its context names partition 3576, whose MSG_LOST would be the register CKP_AREA of partition 0:
the rollback's reset of that ring counts a lost message there, and moves the slot that is then read away from the one that the
statement names. The fabric is not READY, so that the gather of the rollback waits. -/

/-- Ring 4 of context 0 with a message under combination. -/
def farRing : Ring := { Tests.rg with part := 3576, opened := [⟨0, 0, [], 0⟩] }

/-- A takeover agreed on the checkpoint of generation 1. -/
def agreedTakeover : Takeover := ⟨[], false, [], some 1, [], [], [], none, [], []⟩

/-- A device of the job in ELECT, its fabric in epoch 1; the slot of generation 1 holds STEP 5. -/
def farSlot : State :=
  setFld (setSwarmPhase { Tests.stLoss (some agreedTakeover) with rings := [(4, farRing)], mem := [(l2Base + 8, 5)] } 2)
    Reg.FAB_SWARM Fld.FAB_SWARM_EPOCH 1

theorem farSlot_rollsBack : farSlot.takeover = some agreedTakeover ∧ 0 ∈ jobParts farSlot ∧ farSlot.keeper.held = false := by
  decide +kernel

theorem farSlot_step : slotFld farSlot (ownSlot farSlot 0 1) 8 8 % 2 ^ 48 = 5 := by decide +kernel

/-- The restore that partition 0 waits in after a step, and its STEP. -/
def restoreAfter (c : Instr) (s : State) : Option (Option Bool × Nat) :=
  match exec c s with
  | .next t => some ((Sparse.get none t.resume 0).map (·.waits), stepNo t 0)
  | _ => none

/-- The restore waits for READY, and STEP is 0. -/
theorem restoreAfter_farSlot : restoreAfter (.rollbackRestore 0) farSlot = some (some true, 0) := by decide +kernel

/-- Where the gather of a restore waits for READY, the state before the gather had the same STEP. -/
theorem stepNo_of_resumeGather_waits {u : State} {p : Nat} {l : List (Nat × List Word)} (fresh : Sparse.get none u.resume p = some ⟨l, true, none, false⟩)
    (waits : (Sparse.get none (resumeGather u p).resume p).map (·.waits) = some true) : stepNo (resumeGather u p) p = stepNo u p := by
  have gather : resumeGather u p = if rebuilding u then { u with resume := Sparse.set none u.resume p (some ⟨l, true, none, true⟩) }
      else startGather { u with resume := Sparse.set none u.resume p (some ⟨l, true, none, false⟩) } p := by
    unfold resumeGather
    rw [fresh]
  rw [gather] at waits ⊢
  split at waits
  · next ready => rw [if_pos ready]; rfl
  · rw [startGather_resume, Sparse.get_set_same] at waits
    exact absurd (Option.some.inj waits) Bool.false_ne_true

/-- Refutes O45: `farSlot` meets the premises of the rollback's clause, and the STEP it restores is not that of its slot. -/
theorem not_dronesAndRollback : ¬ Obligations.DronesAndRollback := by
  unfold Obligations.DronesAndRollback
  rintro ⟨-, -, rollback⟩
  obtain ⟨takeover, part, keeper⟩ := farSlot_rollsBack
  obtain ⟨u, run, step, -, -, -, -, -, -, -, -, l, fresh, -⟩ :=
    rollback farSlot 0 1 agreedTakeover takeover rfl rfl rfl part List.not_mem_nil keeper
  have after := restoreAfter_farSlot
  unfold restoreAfter at after
  rw [run] at after
  obtain ⟨waits, zero⟩ := Prod.mk.inj (Option.some.inj after)
  rw [stepNo_of_resumeGather_waits fresh waits, step, farSlot_step] at zero
  contradiction

end Sys2Proof.Machine
end

section
/-! K.ALU, K.ALUI and K.CMP (R330): their functions and conditions as integers, their words, and what they leave. -/

namespace Sys2Proof.Machine

/-! ### A sequencer's instruction that writes registers -/

theorem Held.instr {s : State} {x l : Nat} {r : Running} {f : Flight} {i : CInstr} (h : Held s x l r f i) : f.op.instr = i := by
  obtain ⟨-, instr, -⟩ := h
  exact instr

/-- What an instruction leaves whose registers are written by `g`, as its statement lists it. -/
theorem stepSeq_results {s : State} {x l : Nat} {r : Running} {f : Flight} {c : Instr} {g : TaskRegs → TaskRegs}
    (h : exec c s = .next (stepSeq s x l r f g)) :
    ∃ t r', exec c s = .next t ∧ OnlyTask s t x l ∧ getRun t x l = some r' ∧ Stepped r r' f (f.pc + 8) ∧ r'.regs = g r.regs := by
  obtain ⟨r', run, frame, stepped, regs⟩ := stepSeq_spec s x l r f g
  exact ⟨_, r', h, frame, run, stepped, regs⟩

/-- The same, for an instruction that writes one scalar register. -/
theorem scalarWrite_results {s : State} {x l : Nat} {r : Running} {f : Flight} {c : Instr} {gd : GReg} {v : TaskRegs → Word}
    (h : exec c s = .next (stepSeq s x l r f fun g => g.setG gd (v g))) :
    ∃ t r', exec c s = .next t ∧ OnlyTask s t x l ∧ getRun t x l = some r' ∧ Stepped r r' f (f.pc + 8)
      ∧ WroteG r.regs r'.regs gd (v r.regs) := by
  obtain ⟨t, r', run, frame, task, stepped, regs⟩ := stepSeq_results h
  exact ⟨t, r', run, frame, task, stepped, regs ▸ wroteG_setG r.regs gd (v r.regs)⟩

theorem exec_kAlu {s : State} {x l : Nat} {r : Running} {f : Flight} {fn : AluFn} {gd ga gb : GReg}
    (h : Held s x l r f (.kAlu fn gd ga gb)) :
    exec (.kAlu x l) s = .next (stepSeq s x l r f fun g => g.setG gd (aluFn fn (f.regs.getG ga) (f.regs.getG gb))) :=
  congrArg Host.Outcome.next ((seqExec_held h rfl _).trans (by rw [h.instr]))

theorem exec_kAlui {s : State} {x l : Nat} {r : Running} {f : Flight} {fn : AluFn} {gd ga : GReg} {imm : Word}
    (h : Held s x l r f (.kAlui fn gd ga imm)) :
    exec (.kAlui x l) s = .next (stepSeq s x l r f fun g => g.setG gd (aluFn fn (f.regs.getG ga) imm)) :=
  congrArg Host.Outcome.next ((seqExec_held h rfl _).trans (by rw [h.instr]))

theorem exec_kCmp {s : State} {x l : Nat} {r : Running} {f : Flight} {pd : PReg} {cc : CmpCc} {ga gb : GReg}
    (h : Held s x l r f (.kCmp pd cc ga gb)) :
    exec (.kCmp x l) s = .next (stepSeq s x l r f fun g => g.setP pd (cmpCc cc (f.regs.getG ga) (f.regs.getG gb))) :=
  congrArg Host.Outcome.next ((seqExec_held h rfl _).trans (by rw [h.instr]))

/-! ### Functions and conditions as integers -/

theorem sshiftRight_eq_ofInt (a : Word) (n : Nat) : a.sshiftRight n = BitVec.ofInt 64 (a.toInt / 2 ^ n) := by
  have power : ((2 ^ n : Nat) : Int) = 2 ^ n := Nat.cast_pow 2 n
  rw [BitVec.sshiftRight, Int.shiftRight_eq_div_pow, power]

theorem aluFn_eq_aluValue (fn : AluFn) (a b : Word) : aluFn fn a b = aluValue fn a b := by
  cases fn with
  | and | or | xor => simp [aluFn, aluValue]
  | add => exact BitVec.eq_of_toNat_eq (by rw [aluFn, aluValue, BitVec.toNat_add, BitVec.toNat_ofNat])
  | mul => exact BitVec.eq_of_toNat_eq (by rw [aluFn, aluValue, BitVec.toNat_mul, BitVec.toNat_ofNat])
  | sub => exact BitVec.eq_of_toInt_eq (by rw [aluFn, aluValue, BitVec.toInt_sub, BitVec.toInt_ofInt])
  | shl => exact BitVec.eq_of_toNat_eq (by rw [aluFn, aluValue, BitVec.toNat_shiftLeft, BitVec.toNat_ofNat, Nat.shiftLeft_eq])
  | shr =>
    have fits : a.toNat / 2 ^ (b.toNat % 64) < 2 ^ 64 := (Nat.div_le_self ..).trans_lt a.isLt
    exact BitVec.eq_of_toNat_eq (by
      rw [aluFn, aluValue, BitVec.toNat_ushiftRight, BitVec.toNat_ofNat, Nat.shiftRight_eq_div_pow, Nat.mod_eq_of_lt fits])
  | sra => exact sshiftRight_eq_ofInt ..
  | min => simp only [aluFn, aluValue, min_def_lt, apply_ite (BitVec.ofInt 64), BitVec.slt_iff_toInt_lt, BitVec.ofInt_toInt]
  | max => simp only [aluFn, aluValue, max_def_lt, apply_ite (BitVec.ofInt 64), BitVec.slt_iff_toInt_lt, BitVec.ofInt_toInt]
  | minu =>
    simp only [aluFn, aluValue, min_def_lt, apply_ite (BitVec.ofNat 64), BitVec.ult_iff_lt, BitVec.lt_def, BitVec.ofNat_toNat,
      BitVec.setWidth_eq]
  | maxu =>
    simp only [aluFn, aluValue, max_def_lt, apply_ite (BitVec.ofNat 64), BitVec.ult_iff_lt, BitVec.lt_def, BitVec.ofNat_toNat,
      BitVec.setWidth_eq]

theorem cmpCc_iff_cmpHolds (cc : CmpCc) (a b : Word) : cmpCc cc a b = true ↔ cmpHolds cc a b := by
  cases cc with
  | eq => exact beq_iff_eq
  | ne => exact bne_iff_ne
  | lt | gt => exact BitVec.slt_iff_toInt_lt
  | le | ge => exact BitVec.sle_iff_toInt_le
  | ltu | gtu => exact BitVec.ult_iff_lt
  | leu | geu => exact BitVec.ule_iff_le

/-! ### The words -/

theorem Packed.mono {top high : Nat} {fs : List (Nat × Nat)} (h : Packed top fs) (le : top ≤ high) : Packed high fs := by
  cases fs with
  | nil => trivial
  | cons f fs =>
    obtain ⟨below, fits, rest⟩ := h
    exact ⟨below.trans le, fits.trans_le (Nat.pow_le_pow_right (by decide) (by omega)), rest⟩

/-- A word of the K family whose header is the opcode alone (R43): its operands, and what it decodes to. -/
theorem decodeCynal_opcode {op : Nat} {fs : List (Nat × Nat)} {w : Word} (hw : w = BitVec.ofNat 64 (packFields ((op, 56) :: fs)))
    (family : op < 0x20) (operands : Packed 42 fs) :
    low 42 w = packFields fs ∧ decodeCynal w = (decodeK op w).map fun i => ⟨0, 0, false, 0, i⟩ := by
  have packed : Packed 64 ((op, 56) :: fs) := ⟨by decide, family.trans (by decide), operands.mono (by decide)⟩
  have word : low 64 w = packFields ((op, 56) :: fs) := by
    rw [hw, low_all, BitVec.toNat_ofNat, Nat.mod_eq_of_lt (packFields_lt packed)]
  have read := bitsOf_of_low word
  have opcode : bitsOf 63 56 w = op := by rw [read 63 56 (by decide), slice_here 63 56 op fs packed]
  have header (hi lo : Nat) (h : hi < 56) (h' : 42 ≤ lo) : bitsOf hi lo w = 0 := by
    rw [read hi lo (by omega), slice_skip hi lo op 56 fs h, slice_above hi lo fs (operands.mono h')]
  refine ⟨?_, ?_⟩
  · rw [low_all] at word
    rw [low, word, packFields_mod 42 op 56 fs (by decide), Nat.mod_eq_of_lt (packFields_lt operands)]
  · simp [decodeCynal, decodeInstr, opcode, family, bitOf_eq, header]

theorem aluFnOf_eq_listed {n : Nat} (h : n < 16) :
    aluFnOf n = ([.add, .sub, .mul, .and, .or, .xor, .shl, .shr, .sra, .min, .max, .minu, .maxu] : List AluFn)[n]? := by
  revert n
  decide

theorem cmpCcOf_eq_listed {n : Nat} (h : n < 16) :
    cmpCcOf n = ([.eq, .ne, .lt, .le, .gt, .ge, .ltu, .leu, .gtu, .geu] : List CmpCc)[n]? := by
  revert n
  decide

/-- The words of K.ALU (R329). -/
theorem decodeCynal_kAlu {n : Nat} (d a b : GReg) (h : n < 16) :
    decodeCynal (BitVec.ofNat 64 (0x04 * 2 ^ 56 + n * 2 ^ 38 + d.val * 2 ^ 32 + a.val * 2 ^ 26 + b.val * 2 ^ 20))
      = (aluFnOf n).map fun fn => ⟨0, 0, false, 0, .kAlu fn d a b⟩ := by
  generalize hw : BitVec.ofNat 64 _ = w
  obtain ⟨operands, decoded⟩ := decodeCynal_opcode (op := 0x04) (fs := [(n, 38), (d.val, 32), (a.val, 26), (b.val, 20)]) (w := w)
    (by rw [← hw]; simp [packFields_cons, Nat.add_assoc]) (by decide) (by simp [h])
  have read := bitsOf_of_low operands
  rw [decoded]
  cases fn : aluFnOf n <;> simp [decodeK, okIf, gAt, zAt, read, h, fn]

/-- The words of K.ALUI (R329). -/
theorem decodeCynal_kAlui {n i : Nat} (d a : GReg) (h : n < 16) (hi : i < 2 ^ 26) :
    decodeCynal (BitVec.ofNat 64 (0x05 * 2 ^ 56 + n * 2 ^ 38 + d.val * 2 ^ 32 + a.val * 2 ^ 26 + i))
      = (aluFnOf n).map fun fn =>
          ⟨0, 0, false, 0, .kAlui fn d a (BitVec.ofInt 64 (if i < 2 ^ 25 then i else (i : Int) - 2 ^ 26))⟩ := by
  generalize hw : BitVec.ofNat 64 _ = w
  obtain ⟨operands, decoded⟩ := decodeCynal_opcode (op := 0x05) (fs := [(n, 38), (d.val, 32), (a.val, 26), (i, 0)]) (w := w)
    (by rw [← hw]; simp [packFields_cons, Nat.add_assoc]) (by decide) (by simpa [h] using hi)
  have read := bitsOf_of_low operands
  have fits : i < 67108864 := hi
  have signed : asSigned 26 i = if i < 2 ^ 25 then (i : Int) else i - 2 ^ 26 := by
    rw [asSigned, Nat.mod_eq_of_lt hi]
    rfl
  rw [decoded]
  cases fn : aluFnOf n <;> simp [decodeK, gAt, read, h, fits, fn, signed, ofNat_toTwos_64]

/-- The words of K.CMP (R329). -/
theorem decodeCynal_kCmp {n : Nat} (p : PReg) (a b : GReg) (h : n < 16) :
    decodeCynal (BitVec.ofNat 64 (0x07 * 2 ^ 56 + p.val * 2 ^ 39 + n * 2 ^ 35 + a.val * 2 ^ 29 + b.val * 2 ^ 23))
      = (cmpCcOf n).map fun cc => ⟨0, 0, false, 0, .kCmp p cc a b⟩ := by
  generalize hw : BitVec.ofNat 64 _ = w
  obtain ⟨operands, decoded⟩ := decodeCynal_opcode (op := 0x07) (fs := [(p.val, 39), (n, 35), (a.val, 29), (b.val, 23)]) (w := w)
    (by rw [← hw]; simp [packFields_cons, Nat.add_assoc]) (by decide) (by simp [h])
  have read := bitsOf_of_low operands
  rw [decoded]
  cases cc : cmpCcOf n <;> simp [decodeK, okIf, gAt, zAt, read, h, cc]

/-! ### What they leave -/

theorem kCmp_results {s : State} {x l : Nat} {r : Running} {f : Flight} {pd : PReg} {cc : CmpCc} {ga gb : GReg}
    (h : Held s x l r f (.kCmp pd cc ga gb)) :
    ∃ t r', exec (.kCmp x l) s = .next t ∧ OnlyTask s t x l ∧ getRun t x l = some r' ∧ Stepped r r' f (f.pc + 8)
      ∧ (∀ p, r'.regs.getP p = true ↔
          if p = 0 then True else if p = pd then cmpHolds cc (f.regs.getG ga) (f.regs.getG gb) else r.regs.getP p = true)
      ∧ (∀ g, r'.regs.getG g = r.regs.getG g) ∧ ∀ d, r'.regs.getT d = r.regs.getT d := by
  obtain ⟨t, r', run, frame, task, stepped, regs⟩ := stepSeq_results (exec_kCmp h)
  refine ⟨t, r', run, frame, task, stepped, fun p => ?_, fun g => ?_, fun d => ?_⟩
  · rw [regs, TaskRegs.getP_setP, ← cmpCc_iff_cmpHolds]
    split
    · exact iff_true_intro rfl
    · split <;> rfl
  · rw [regs, TaskRegs.getG_setP]
  · rw [regs, TaskRegs.getT_setP]

/-- Settles O8: what each of the three writes, with its function as integers, and its words by the tables of FN and CC. -/
theorem aluResults : Obligations.AluResults := by
  unfold Obligations.AluResults
  refine ⟨⟨fun s x l r f fn gd ga gb h => ?_, fun s x l r f fn gd ga imm h => ?_⟩, fun s x l r f pd cc ga gb => kCmp_results,
    fun n d a b h => ?_, fun n i d a h hi => ?_, fun n p a b h => ?_⟩
  · rw [← aluFn_eq_aluValue]
    exact scalarWrite_results (exec_kAlu h)
  · rw [← aluFn_eq_aluValue]
    exact scalarWrite_results (exec_kAlui h)
  · rw [← aluFnOf_eq_listed h, decodeCynal_kAlu d a b h]
  · rw [← aluFnOf_eq_listed h, decodeCynal_kAlui d a h hi]
  · rw [← cmpCcOf_eq_listed h, decodeCynal_kCmp p a b h]

end Sys2Proof.Machine
end

section
/-! K.MOVI, K.ID, K.TRD, B.RD, K.TCPY and K.TD (R329, R334, R335, R351): the one register that each writes. -/

namespace Sys2Proof.Machine

/-! ### Fields of a descriptor (R33, R335) -/

theorem descFld_fits (n : Nat) : (descFld n).2.lo + (descFld n).2.w ≤ 64 := by
  unfold descFld
  split <;> decide

theorem descFld_word (n : Nat) : (descFld n).1 < 4 := by
  unfold descFld
  split <;> decide

theorem Desc.word_setWord (d : Desc) {i j : Nat} (w : Word) (hi : i < 4) (hj : j < 4) :
    (d.setWord i w).word j = if j = i then w else d.word j := by
  interval_cases i <;> interval_cases j <;> rfl

/-- A field reads what was written to it, where that fits. -/
theorem Desc.getFld_setFld (d : Desc) (n : Nat) {v : Nat} (h : v < 2 ^ (descFld n).2.w) : (d.setFld n v).getFld n = v := by
  rw [Desc.getFld, Desc.setFld, Desc.word_setWord _ _ (descFld_word n) (descFld_word n), if_pos rfl, getF_putF _ _ _ (descFld_fits n),
    Nat.mod_eq_of_lt h]

/-- A field apart from the one written reads as before. -/
theorem Desc.getFld_setFld_apart (d : Desc) {m n : Nat} (v : Nat) (h : fldsApart m n) : (d.setFld n v).getFld m = d.getFld m := by
  rw [Desc.getFld, Desc.getFld, Desc.setFld, Desc.word_setWord _ _ (descFld_word n) (descFld_word m)]
  by_cases word : (descFld m).1 = (descFld n).1
  · have apart := h.resolve_left (not_not_intro word)
    rw [if_pos word, getF_putF_apart _ _ _ _ (descFld_fits n) apart, word]
  · rw [if_neg word]

theorem fieldValue_eq_some {d : Desc} {n v : Nat} {add : Bool} {w : Word} (fits : v < 2 ^ (descFld n).2.w)
    (value : (v : Int) = if add then (d.getFld n : Int) + asSigned 64 w.toNat else (w.toNat : Int)) : fieldValue d n add w = some v := by
  have range : (0 : Int) ≤ v ∧ (v : Int) < ((2 ^ (descFld n).2.w : Nat) : Int) := ⟨Int.natCast_nonneg v, Int.ofNat_lt.mpr fits⟩
  rw [fieldValue, ← value]
  exact if_pos range

theorem toNat_moviWord (hi : Bool) (imm : BitVec 32) (old : Word) :
    (moviWord hi imm old).toNat = if hi then imm.toNat * 2 ^ 32 + old.toNat % 2 ^ 32 else imm.toNat := by
  have := imm.isLt
  cases hi <;> simp [moviWord] <;> omega

/-! ### The instructions -/

theorem exec_kMovi {s : State} {x l : Nat} {r : Running} {f : Flight} {gd : GReg} {hi : Bool} {imm : BitVec 32}
    (h : Held s x l r f (.kMovi gd hi imm)) :
    exec (.kMovi x l) s = .next (stepSeq s x l r f fun g => g.setG gd (moviWord hi imm (g.getG gd))) :=
  congrArg Host.Outcome.next ((seqExec_held h rfl _).trans (by rw [h.instr]))

theorem exec_kId {s : State} {x l : Nat} {r : Running} {f : Flight} {gd : GReg} {sel : Nat} (h : Held s x l r f (.kId gd sel)) :
    exec (.kId x l) s = .next (stepSeq s x l r f fun g => g.setG gd (BitVec.ofNat 64 (identity s x r sel))) :=
  congrArg Host.Outcome.next ((seqExec_held h rfl _).trans (by rw [h.instr]))

theorem exec_kTrd {s : State} {x l : Nat} {r : Running} {f : Flight} {gd : GReg} {ts : TReg} {n : Nat}
    (h : Held s x l r f (.kTrd gd ts n)) :
    exec (.kTrd x l) s = .next (stepSeq s x l r f fun g => g.setG gd (BitVec.ofNat 64 ((f.regs.getT ts).getFld n))) :=
  congrArg Host.Outcome.next ((seqExec_held h rfl _).trans (by rw [h.instr]))

theorem exec_bRd {s : State} {x l : Nat} {r : Running} {f : Flight} {gd : GReg} (h : Held s x l r f (.bRd gd)) :
    exec (.bRd x l) s = .next (stepSeq s x l r f fun g => g.setG gd (rd s Reg.HUM_BEAT)) :=
  congrArg Host.Outcome.next ((seqExec_held h rfl _).trans (by rw [h.instr]))

theorem exec_kTcpy {s : State} {x l : Nat} {r : Running} {f : Flight} {td ts : TReg} (h : Held s x l r f (.kTcpy td ts)) :
    exec (.kTcpy x l) s = .next (stepSeq s x l r f fun g => g.setT td (f.regs.getT ts)) :=
  congrArg Host.Outcome.next ((seqExec_held h rfl _).trans (by rw [h.instr]))

theorem exec_kTd {s : State} {x l : Nat} {r : Running} {f : Flight} {td : TReg} {n : Nat} {add : Bool} {ga : GReg} {v : Nat}
    (h : Held s x l r f (.kTd td n add ga)) (value : fieldValue (f.regs.getT td) n add (f.regs.getG ga) = some v) :
    exec (.kTd x l) s = .next (stepSeq s x l r f fun g => g.setT td ((f.regs.getT td).setFld n v)) := by
  refine congrArg Host.Outcome.next ((seqExec_held h rfl _).trans ?_)
  rw [h.instr]
  dsimp only
  rw [value, Option.getD_some]

/-- What an instruction leaves that writes one descriptor. -/
theorem descWrite_results {s : State} {x l : Nat} {r : Running} {f : Flight} {c : Instr} {td : TReg} {d : Desc}
    (h : exec c s = .next (stepSeq s x l r f fun g => g.setT td d)) :
    ∃ t r', exec c s = .next t ∧ OnlyTask s t x l ∧ getRun t x l = some r' ∧ Stepped r r' f (f.pc + 8)
      ∧ (∀ u, r'.regs.getT u = if u = td then d else r.regs.getT u)
      ∧ (∀ g, r'.regs.getG g = r.regs.getG g) ∧ ∀ p, r'.regs.getP p = r.regs.getP p := by
  obtain ⟨t, r', run, frame, task, stepped, regs⟩ := stepSeq_results h
  refine ⟨t, r', run, frame, task, stepped, ?_⟩
  rw [regs]
  exact ⟨fun u => TaskRegs.getT_setT r.regs td u d, fun g => TaskRegs.getG_setT r.regs td d g,
    fun p => TaskRegs.getP_setT r.regs td d p⟩

/-- Settles O9: each instruction's write, K.MOVI's word as a number, K.TD's field by the fields of the descriptor. -/
theorem scalarAndDescriptorResults : Obligations.ScalarAndDescriptorResults := by
  unfold Obligations.ScalarAndDescriptorResults
  refine ⟨⟨fun s x l r f gd hi imm h => ?_, fun s x l r f gd sel h => scalarWrite_results (exec_kId h),
    fun s x l r f gd ts n h => scalarWrite_results (exec_kTrd h), fun s x l r f gd h => scalarWrite_results (exec_bRd h)⟩,
    fun s x l r f td ts h => descWrite_results (exec_kTcpy h), fun s x l r f td n add ga v h _ fits value => ?_⟩
  · obtain ⟨t, r', run, frame, task, stepped, wrote⟩ := scalarWrite_results (exec_kMovi h)
    exact ⟨t, r', _, run, frame, task, stepped, wrote, toNat_moviWord ..⟩
  · obtain ⟨t, r', run, frame, task, stepped, descs, scalars, preds⟩ := descWrite_results (exec_kTd h (fieldValue_eq_some fits value))
    refine ⟨t, r', run, frame, task, stepped, ?_, fun m _ apart => ?_, fun d other => ?_, scalars, preds⟩
    · rw [descs td, if_pos rfl, Desc.getFld_setFld _ n fits]
    · rw [descs td, if_pos rfl, Desc.getFld_setFld_apart _ v apart]
    · rw [descs d, if_neg other]

end Sys2Proof.Machine
end

section
/-! SUPPORT. Fabric ports (R357 to R364, R382): their registers lie apart, and what an update of a port or of one of its counts leaves. -/

namespace Sys2Proof.Machine

/-! ### Registers of the ports -/

theorem pstat_ne_pstat {j k : Nat} (h : j ≠ k) : Reg.FAB_PSTATk j ≠ Reg.FAB_PSTATk k := by
  unfold Reg.FAB_PSTATk
  omega

theorem pstat_ne_swarm (k : Nat) : Reg.FAB_PSTATk k ≠ Reg.FAB_SWARM := by
  unfold Reg.FAB_PSTATk Reg.FAB_SWARM
  omega

theorem pstat_ne_prx (k : Nat) : Reg.FAB_PSTATk k ≠ Reg.FAB_PRXk k := by
  unfold Reg.FAB_PSTATk Reg.FAB_PRXk
  omega

theorem prx_ne_perr (k : Nat) : Reg.FAB_PRXk k ≠ Reg.FAB_PERRk k := by
  unfold Reg.FAB_PRXk Reg.FAB_PERRk
  omega

theorem ptx_ne_perr (k : Nat) : Reg.FAB_PTXk k ≠ Reg.FAB_PERRk k := by
  unfold Reg.FAB_PTXk Reg.FAB_PERRk
  omega

/-! ### Counts -/

theorem portState_bump (s : State) {a k : Nat} (f : Fld) (n : Nat) (h : Reg.FAB_PSTATk k ≠ a) : portState (bump s a f n) k = portState s k :=
  fld_setFld_other s f _ _ h

/-- With nothing waiting no packet leaves. -/
theorem pumpFabric_idle {s : State} (h : s.fabWait = []) : pumpFabric s = s := by
  unfold pumpFabric
  rw [h]
  rfl

end Sys2Proof.Machine
end

section
/-! LINK_UNIT_RECEIVE (R360 to R363): what a unit comes to at a port that is UP. -/

namespace Sys2Proof.Machine

/-! ### The trailer -/

theorem takeLack_absent {s : State} {k lack : Nat} (h : ∀ e ∈ (getPort s k).retry, e.lseq ≠ lack) : takeLack s k lack = s := by
  have absent : (getPort s k).retry.any (fun u => u.lseq == lack) = false := by
    simpa using h
  simp [takeLack, absent]

theorem takeLack_found {s : State} {k lack : Nat} {pre post : List TxUnit} {e : TxUnit} (units : (getPort s k).retry = pre ++ e :: post)
    (here : e.lseq = lack) (first : ∀ v ∈ pre, v.lseq ≠ lack) :
    takeLack s k lack = setPort s k { getPort s k with
      retry := post, sent := (getPort s k).sent.filter (fun t => post.any (fun u => u.pkt == t.id)) } := by
  have rest : ((getPort s k).retry.dropWhile (fun u => u.lseq != lack)).drop 1 = post := by
    rw [units, List.dropWhile_append_of_pos (by simpa using first), List.dropWhile_cons_of_neg (by simp [here])]
    rfl
  have found : (getPort s k).retry.any (fun u => u.lseq == lack) = true := by
    simp [units, here]
  simp [takeLack, found, rest]

/-- A trailer that acknowledges nothing new, refuses nothing and returns no credit changes nothing. -/
theorem takeTrailer_plain {s : State} {k : Nat} {u : LinkUnit} (idle : s.fabWait = []) (nak : u.nak = false) (c0 : u.c0 = false)
    (h : ∀ e ∈ (getPort s k).retry, e.lseq ≠ u.lack % 4096) : takeTrailer s k u = s := by
  simp [takeTrailer, takeLack_absent h, nak, c0, pumpFabric_idle idle]

theorem takeTrailer_acks {s : State} {k : Nat} {u : LinkUnit} {pre post : List TxUnit} {e : TxUnit} (idle : s.fabWait = [])
    (nak : u.nak = false) (c0 : u.c0 = false) (units : (getPort s k).retry = pre ++ e :: post) (here : e.lseq = u.lack % 4096)
    (first : ∀ v ∈ pre, v.lseq ≠ u.lack % 4096) :
    takeTrailer s k u = setPort s k { getPort s k with
      retry := post, sent := (getPort s k).sent.filter (fun t => post.any (fun u => u.pkt == t.id)) } := by
  simp only [takeTrailer, takeLack_found units here first, nak, c0, Bool.false_eq_true, if_false]
  exact pumpFabric_idle idle

theorem takeTrailer_naks {s : State} {k : Nat} {u : LinkUnit} (idle : s.fabWait = []) (nak : u.nak = true) (c0 : u.c0 = false)
    (h : ∀ e ∈ (getPort s k).retry, e.lseq ≠ u.lack % 4096 ∧ e.resends < 16) :
    takeTrailer s k u = resendAll s k (ackedSeq (getPort s k)) := by
  have young : (getPort s k).retry.any (fun u => decide (16 ≤ u.resends)) = false := by
    simpa using fun e he => (h e he).2
  have waits : (resendAll s k (ackedSeq (getPort s k))).fabWait = [] := by
    unfold resendAll
    dsimp only
    split <;> exact idle
  have again : takeNak s k u.laneFault = resendAll s k (ackedSeq (getPort s k)) := by simp [takeNak, young]
  simp only [takeTrailer, takeLack_absent fun e he => (h e he).1, nak, c0, Bool.false_eq_true, if_false, if_true, again]
  exact pumpFabric_idle waits

/-- What is sent again after a NAK: every unit of the retry buffer, once more each (R362). -/
theorem resendAll_some {s : State} {k : Nat} (lack : Nat) (h : (getPort s k).retry ≠ []) :
    resendAll s k lack = emit (bump (bump
        (setPort s k { getPort s k with retry := (getPort s k).retry.map (fun (u : TxUnit) => { u with resends := u.resends + 1 }) })
        (Reg.FAB_PERRk k) Fld.FAB_PERRk_REPLAYS (getPort s k).retry.length) (Reg.FAB_PTXk k) Fld.FAB_PTXk_UNITS (getPort s k).retry.length)
      (.resent k lack (getPort s k).retry.length) := by
  simp [resendAll, h]

theorem resendAll_empty {s : State} {k : Nat} (lack : Nat) (h : (getPort s k).retry = []) : resendAll s k lack = s := by
  simp [resendAll, h]

/-! ### The unit -/

/-- A unit other than an idle unit is counted as it comes (R382). -/
def unitCounted (s : State) (k : Nat) : State := bump s (Reg.FAB_PRXk k) Fld.FAB_PRXk_UNITS 1

section
variable {s : State} {k : Nat} {u : LinkUnit} (hk : k < 16) (up : portState s k = 2) (held : portHeld s k = false)
include hk up held

theorem linkUnitReceive_corrupt (idle : u.idle = false) (bad : u.lcrcOk = false) :
    exec (.linkUnitReceive k u) s = .next (refuseUnit (bump (unitCounted s k) (Reg.FAB_PERRk k) Fld.FAB_PERRk_CRC_ERR 1) k) := by
  show execLinkUnitReceive k u s = _
  simp [execLinkUnitReceive, Nat.not_le.mpr hk, up, held, idle, bad, unitCounted]

theorem linkUnitReceive_idle (idle : u.idle = true) (good : u.lcrcOk = true) :
    exec (.linkUnitReceive k u) s = .next (takeTrailer s k u) := by
  show execLinkUnitReceive k u s = _
  simp [execLinkUnitReceive, Nat.not_le.mpr hk, up, held, idle, good]

/-- A unit of a packet whose trailer says nothing new is taken as it is. -/
theorem linkUnitReceive_taken (wait : s.fabWait = []) (good : u.lcrcOk = true) (nak : u.nak = false) (c0 : u.c0 = false)
    (h : ∀ e ∈ (getPort s k).retry, e.lseq ≠ u.lack % 4096) (idle : u.idle = false) :
    exec (.linkUnitReceive k u) s = .next (takeUnit (unitCounted s k) k u) := by
  have trailer : takeTrailer (bump s (Reg.FAB_PRXk k) Fld.FAB_PRXk_UNITS 1) k u = bump s (Reg.FAB_PRXk k) Fld.FAB_PRXk_UNITS 1 :=
    takeTrailer_plain wait nak c0 h
  show execLinkUnitReceive k u s = _
  simp [execLinkUnitReceive, Nat.not_le.mpr hk, up, held, idle, good, trailer, unitCounted, portState_bump s _ _ (pstat_ne_prx k)]

end

theorem takeUnit_outOfOrder {s : State} {k : Nat} {u : LinkUnit} (order : u.lseq ≠ ((getPort s k).lastIn + 1) % 4096)
    (keeps : (getPort s k).dropping = false) : takeUnit s k u = refuseUnit s k := by
  simp [takeUnit, order, keeps]

/-- What a port holds of the packet that a unit belongs to, the unit added (R360). -/
def Port.joined (p : Port) (u : LinkUnit) : PartIn :=
  let old := (p.partIn.find? (fun e => e.vc == u.vc && e.cls == u.cls)).getD ⟨u.vc, u.cls, 0, false, []⟩
  { old with units := old.units + 1, psn := old.psn || u.psn, body := old.body ++ u.body }

/-- The port once a unit in order has joined its packet. -/
def Port.withUnit (p : Port) (u : LinkUnit) : Port :=
  { p with lastIn := u.lseq, dropping := false, partIn := p.partIn.filter (fun e => e.vc != u.vc || e.cls != u.cls) ++ [p.joined u] }

theorem takeUnit_inOrder {s : State} {k : Nat} {u : LinkUnit} (order : u.lseq = ((getPort s k).lastIn + 1) % 4096) (ident : u.ident = none)
    (credit : u.credit = none) (last : u.last = false) :
    takeUnit s k u = setPort (emit s (.trailer k u.lseq false)) k ((getPort s k).withUnit u) := by
  simp only [takeUnit, if_pos order, takeBody, ident, credit, last, Bool.false_eq_true, if_false, getPort_emit, getPort_setPort]
  exact setPort_setPort (emit s (.trailer k u.lseq false)) k _ _

/-- The count of units received. -/
theorem onlyField_unitCounted (s : State) (k : Nat) : OnlyField s (unitCounted s k) (Reg.FAB_PRXk k) Fld.FAB_PRXk_UNITS
    (satAdd Fld.FAB_PRXk_UNITS.w (fld s (Reg.FAB_PRXk k) Fld.FAB_PRXk_UNITS) 1) :=
  onlyField_bump s _ _ 1 (by decide)

theorem sameRegsBut_unitCounted (s : State) (k : Nat) : SameRegsBut s (unitCounted s k) [Reg.FAB_PRXk k] := sameRegsBut_bump s _ _ 1

/-- Settles O33: a corrupt unit, one out of order, one in order, an acknowledgement and a NAK, each by what its unit or trailer does. -/
theorem linkUnits : Obligations.LinkUnits := by
  unfold Obligations.LinkUnits
  intro s k u hk up held wait
  dsimp only
  refine ⟨fun idle bad => ?_, fun good nak c0 unheard idle => ⟨fun order keeps => ?_, fun order ident credit last => ?_⟩,
    fun pre e post good idle nak c0 units here first => ?_, fun good idle nak c0 units young => ?_⟩
  · have counted := sameRegsBut_bump (unitCounted s k) (Reg.FAB_PERRk k) Fld.FAB_PERRk_CRC_ERR 1
    have received := sameRegsBut_unitCounted s k
    refine ⟨_, linkUnitReceive_corrupt hk up held idle bad, getPort_setPort .., fun j hj => getPort_setPort_other _ _ hj, rfl, ?_, ?_,
      received.trans counted (by simp) (by simp), rfl⟩
    · have crc := onlyField_bump (unitCounted s k) (Reg.FAB_PERRk k) Fld.FAB_PERRk_CRC_ERR 1 (by decide)
      rw [received.fld (by simp [(prx_ne_perr k).symm])] at crc
      exact crc.congr (received _ (by simp [(prx_ne_perr k).symm])).symm rfl
    · exact (counted.fld (by simp [prx_ne_perr k]) _).trans (onlyField_unitCounted s k).1
  · exact ⟨_, (linkUnitReceive_taken hk up held wait good nak c0 unheard idle).trans (congrArg _ (takeUnit_outOfOrder order keeps)),
      getPort_setPort .., fun j hj => getPort_setPort_other _ _ hj, rfl, onlyField_unitCounted s k, sameRegsBut_unitCounted s k, rfl⟩
  · exact ⟨_, (linkUnitReceive_taken hk up held wait good nak c0 unheard idle).trans (congrArg _ (takeUnit_inOrder order ident credit last)),
      getPort_setPort .., fun j hj => getPort_setPort_other _ _ hj, rfl, onlyField_unitCounted s k, sameRegsBut_unitCounted s k, rfl⟩
  · exact ⟨_, (linkUnitReceive_idle hk up held idle good).trans (congrArg _ (takeTrailer_acks wait nak c0 units here first)),
      getPort_setPort .., fun j hj => getPort_setPort_other _ _ hj, rfl⟩
  · let n := (getPort s k).retry.length
    have replays := sameRegsBut_bump s (Reg.FAB_PERRk k) Fld.FAB_PERRk_REPLAYS n
    have sent := sameRegsBut_bump (bump s (Reg.FAB_PERRk k) Fld.FAB_PERRk_REPLAYS n) (Reg.FAB_PTXk k) Fld.FAB_PTXk_UNITS n
    refine ⟨_, (linkUnitReceive_idle hk up held idle good).trans (congrArg _ ((takeTrailer_naks wait nak c0 young).trans (resendAll_some _ units))),
      getPort_setPort .., fun j hj => getPort_setPort_other _ _ hj, rfl, ?_, ?_, replays.trans sent (by simp) (by simp), rfl⟩
    · exact (onlyField_bump s _ _ n (by decide)).congr rfl (sent _ (by simp [(ptx_ne_perr k).symm]))
    · rw [← replays.fld (a := Reg.FAB_PTXk k) (by simp [ptx_ne_perr k])]
      exact (onlyField_bump _ _ _ n (by decide)).1

end Sys2Proof.Machine
end

section
/-! Packets leave by ports 0 to 15 alone (R365, R369): one whose route names another port stays where it waits. -/

namespace Sys2Proof.Machine

/-- A packet stays that can leave by no port, or by a port beyond the 16. -/
theorem pumpFabric_stays {s : State} {w : Transit} (h : s.fabWait = [w])
    (fate : fateOf s w = .waits ∨ ∃ k esc, 16 ≤ k ∧ fateOf s w = .goes k esc) : pumpFabric s = s := by
  have beyond : ∀ e ∈ goers s, 16 ≤ e.2.1 := by
    rcases fate with fate | ⟨k, esc, beyond, fate⟩
    · simp [goers, h, fate]
    · simpa [goers, h, fate] using beyond
  have noPort : (List.range 16).find? (fun k => (goers s).any (fun e => e.2.1 == k)) = none := by
    simp only [List.find?_eq_none, List.mem_range, List.any_eq_true, beq_iff_eq]
    rintro k hk ⟨e, he, rfl⟩
    exact absurd (beyond e he) (Nat.not_le.mpr hk)
  have stays : pumpOnce s = none := by
    rcases fate with fate | ⟨k, esc, -, fate⟩ <;>
      simp only [pumpOnce, h, List.findSome?_cons, List.findSome?_nil, fate, noPort]
  rw [pumpFabric, h]
  simp [pumpFor, stays]

end Sys2Proof.Machine
end

section
/-! ESCAPE_WAIT_EXPIRY (R369), with a route whose escape port is not one of the device's ports. -/

namespace Sys2Proof.Machine

/-- An adaptive packet for device 9 waits; its route names port 16, which the device does not have. -/
def beyondPorts : State :=
  { Tests.upPort 16 Port.none with fabWait := [Tests.tz false], routes := [(9, some ⟨1, 16, false, 1⟩)] }

/-- Once its wait has ended the packet waits in the escape class. -/
theorem escapeWaitExpiry_beyondPorts :
    exec (.escapeWaitExpiry 0 3) beyondPorts =
      .next { beyondPorts with fabWait := [{ Tests.tz false with pkt := { (Tests.tz false).pkt with esc := true } }] } := by
  refine congrArg Host.Outcome.next (pumpFabric_stays rfl (.inr ⟨16, true, le_rfl, ?_⟩))
  decide +kernel

/-- Refutes O35: nothing bounds the port of a route, and at port 16 `portTakes` can hold while no packet ever leaves. -/
theorem not_heldPackets : ¬ Obligations.HeldPackets := by
  unfold Obligations.HeldPackets
  rintro ⟨-, escape⟩
  obtain ⟨t, p, tr, step, gone, -⟩ := (escape beyondPorts 0 3).2 (Tests.tz false) ⟨1, 16, false, 1⟩ rfl rfl rfl rfl rfl
    (by decide +kernel) rfl (by decide) (by decide +kernel)
  obtain rfl := Host.Outcome.next.inj (escapeWaitExpiry_beyondPorts.symm.trans step)
  exact List.cons_ne_nil _ _ gone

end Sys2Proof.Machine
end

section
/-! SUPPORT. Swarm (R372 to R374): the election takes the lowest candidate, and what the ports learn stays in their own registers. -/

namespace Sys2Proof.Machine

/-! ### The lowest of a list -/

/-- The lower of what was lowest so far and one more. -/
def lower {α : Type} (key : α → Nat) : Option α → α → Option α
  | none, a => some a
  | some c, a => if key a < key c then some a else some c

theorem lowestBy_eq {α : Type} (key : α → Nat) (l : List α) : lowestBy key l = l.foldl (lower key) none := by
  unfold lowestBy
  congr 1
  funext b a
  cases b <;> rfl

theorem lower_le {α : Type} {key : α → Nat} {b : Option α} {a c : α} (h : lower key b a = some c) :
    key c ≤ key a ∧ ∀ d, b = some d → key c ≤ key d := by
  cases b with
  | none =>
    obtain rfl := Option.some.inj h
    exact ⟨le_rfl, by simp⟩
  | some d =>
    rw [lower] at h
    split at h
    · cases h
      exact ⟨le_rfl, by rintro _ ⟨⟩; omega⟩
    · cases h
      exact ⟨by omega, by rintro _ ⟨⟩; rfl⟩

theorem lower_isSome {α : Type} (key : α → Nat) (b : Option α) (a : α) : ∃ c, lower key b a = some c := by
  cases b with
  | none => exact ⟨a, rfl⟩
  | some d =>
    rw [lower]
    split <;> exact ⟨_, rfl⟩

theorem foldl_lower_le {α : Type} {key : α → Nat} {r : α} (l : List α) {b : Option α} (h : l.foldl (lower key) b = some r) :
    (∀ d, b = some d → key r ≤ key d) ∧ ∀ a ∈ l, key r ≤ key a := by
  induction l generalizing b with
  | nil =>
    subst h
    simp
  | cons a l ih =>
    obtain ⟨c, hc⟩ := lower_isSome key b a
    obtain ⟨first, rest⟩ := ih h
    obtain ⟨ca, cb⟩ := lower_le hc
    have rc := first c hc
    refine ⟨fun d hd => rc.trans (cb d hd), fun x hx => ?_⟩
    rcases List.mem_cons.mp hx with rfl | hx
    · exact rc.trans ca
    · exact rest x hx

/-- What `lowestBy` answers is at most every key of the list. -/
theorem lowestBy_le {α : Type} {key : α → Nat} {l : List α} {r : α} (h : lowestBy key l = some r) : ∀ a ∈ l, key r ≤ key a :=
  (foldl_lower_le l (lowestBy_eq key l ▸ h)).2

/-! ### The election -/

theorem electRoot_lowest {s : State} {offers : List RootOffer} {root depth parent : Nat} (h : electRoot s offers = some (root, depth, parent)) :
    lowestBy id ((if flg s Reg.FAB_CTL Fld.FAB_CTL_ROOT_ELIGIBLE then [ownUid s] else [])
      ++ (offers.filter (fun o => decide (o.port < 16) && portState s o.port == 2)).map (·.root)) = some root := by
  unfold electRoot at h
  dsimp only at h
  generalize (if flg s Reg.FAB_CTL Fld.FAB_CTL_ROOT_ELIGIBLE = true then [ownUid s] else []) = own at h ⊢
  split at h
  · cases h
  · rename_i r low
    split at h <;> cases h <;> exact low

theorem electRoot_le_own {s : State} {offers : List RootOffer} {root depth parent : Nat} (h : electRoot s offers = some (root, depth, parent))
    (eligible : flg s Reg.FAB_CTL Fld.FAB_CTL_ROOT_ELIGIBLE = true) : root ≤ ownUid s :=
  lowestBy_le (electRoot_lowest h) (ownUid s) (by simp [eligible])

theorem electRoot_le_offer {s : State} {offers : List RootOffer} {root depth parent : Nat} (h : electRoot s offers = some (root, depth, parent))
    {o : RootOffer} (mem : o ∈ offers) (real : o.port < 16) (up : portState s o.port = 2) : root ≤ o.root :=
  lowestBy_le (electRoot_lowest h) o.root (List.mem_append_right _ (List.mem_map_of_mem (by simp [mem, real, up])))

/-! ### What the ports learn -/

theorem sameRegsBut_notePorts (s : State) :
    SameRegsBut s (notePorts s) ((linksOf s.swarm.links (ownUid s)).map fun e => Reg.FAB_PSTATk e.1) := by
  unfold notePorts
  refine SameRegsBut.foldl (fun t e he => ?_) s
  dsimp only
  split
  · exact fun a ha => rd_wr_other _ _ fun same => ha (same ▸ List.mem_map_of_mem he)
  · exact sameRegsBut_refl _ _

theorem notePorts_regs (s : State) : notePorts s = { s with regs := (notePorts s).regs } := by
  unfold notePorts
  refine List.foldlRecOn (motive := fun (t : State) => t = { s with regs := t.regs }) _ _ rfl fun t kept e _ => ?_
  dsimp only
  split
  · rw [kept]
    rfl
  · exact kept

end Sys2Proof.Machine
end

section
/-! Swarm from LINKS to READY (R372 to R374). -/

namespace Sys2Proof.Machine

theorem swarmPhase_setSwarmPhase (s : State) {v : Nat} (h : v < 8) : swarmPhase (setSwarmPhase s v) = v :=
  (fld_setFld_same s _ _ v (by decide)).trans (Nat.mod_eq_of_lt h)

theorem onlyField_setSwarmPhase (s : State) {v : Nat} (h : v < 8) :
    OnlyField s (setSwarmPhase s v) Reg.FAB_SWARM Fld.FAB_SWARM_PHASE v :=
  onlyField_setFld s _ _ v (by decide) h

theorem sameRegsBut_setSwarmPhase (s : State) (v : Nat) : SameRegsBut s (setSwarmPhase s v) [Reg.FAB_SWARM] := sameRegsBut_setFld s _ _ v

/-! ### ELECT -/

/-- The device with its place on the tree: in SWARM state, in FAB_ADDR, and told to the neighbours. -/
def elected (s : State) (root depth parent : Nat) : State :=
  setFld (setFld (emit { s with swarm := { s.swarm with root := root, parent := parent, depth := depth } } (.swarmCandidate root depth))
    Reg.FAB_ADDR Fld.FAB_ADDR_ROOT (bnat (root == ownUid s))) Reg.FAB_ADDR Fld.FAB_ADDR_DEPTH depth

theorem swarmElectQuiet_elects {s : State} {ports roots dists : List Nat} {root depth parent quiet : Nat} (phase : swarmPhase s = 2)
    (quiets : 64 ≤ quiet) (h : electRoot s (offersOf ports roots dists) = some (root, depth, parent)) :
    exec (.swarmElectQuiet ports roots dists quiet) s = .next (setSwarmPhase (elected s root depth parent) 3) := by
  show execSwarmElectQuiet ports roots dists quiet s = _
  simp only [execSwarmElectQuiet, phase, h, ne_eq, not_true, false_or, Nat.not_lt.mpr quiets, if_false]
  rfl

theorem fld_elected_root (s : State) (root depth parent : Nat) :
    fld (elected s root depth parent) Reg.FAB_ADDR Fld.FAB_ADDR_ROOT = if root = ownUid s then 1 else 0 := by
  rw [elected, fld_setFld_apart _ _ _ _ _ (by decide) (by decide), fld_setFld_same _ _ _ _ (by decide)]
  by_cases own : root = ownUid s <;> simp [own, bnat, Fld.FAB_ADDR_ROOT]

theorem fld_elected_depth (s : State) (root depth parent : Nat) :
    fld (elected s root depth parent) Reg.FAB_ADDR Fld.FAB_ADDR_DEPTH = depth % 2 ^ Fld.FAB_ADDR_DEPTH.w :=
  fld_setFld_same _ _ _ _ (by decide)

theorem sameRegsBut_elected (s : State) (root depth parent : Nat) : SameRegsBut s (elected s root depth parent) [Reg.FAB_ADDR] :=
  (sameRegsBut_setFld (emit { s with swarm := { s.swarm with root := root, parent := parent, depth := depth } } (.swarmCandidate root depth))
    _ _ _).and_then (sameRegsBut_setFld _ _ _ _)

/-! ### CENSUS -/

/-- The census kept, and sent up the tree by all but the root. -/
def censusSent (s : State) (ns : List (Nat × Option Nat)) (ls : List SwarmLink) : State :=
  { s with
    swarm := { s.swarm with census := ns, links := ls }
    out := if fld s Reg.FAB_ADDR Fld.FAB_ADDR_ROOT = 1 then s.out else s.out ++ [.swarmCensus ns ls] }

theorem swarmCensusDone_sent {s : State} (nodes : List (Nat × Option Nat)) (links : List SwarmLink) (phase : swarmPhase s = 3) :
    exec (.swarmCensusDone nodes links) s = .next (setSwarmPhase
      (censusSent s (nodes.filter (fun n => n.1 != ownUid s) ++ [(ownUid s, ownAddr s)])
        (links ++ (ownCensus s).2.filter (fun l => !links.any (sameLink l)))) 4) := by
  show execSwarmCensusDone nodes links s = _
  simp only [execSwarmCensusDone, phase, ne_eq, not_true, if_false, censusSent]
  by_cases root : fld s Reg.FAB_ADDR Fld.FAB_ADDR_ROOT = 1
  · have flag : flg s Reg.FAB_ADDR Fld.FAB_ADDR_ROOT = true := by simp [flg, root]
    simp only [if_pos root]
    exact congrArg (fun t => Host.Outcome.next (setSwarmPhase t 4)) (if_pos flag)
  · have flag : ¬flg s Reg.FAB_ADDR Fld.FAB_ADDR_ROOT = true := by simp [flg, root]
    simp only [if_neg root]
    exact congrArg (fun t => Host.Outcome.next (setSwarmPhase t 4)) (if_neg flag)

/-! ### ASSIGN -/

/-- The addresses that stand once the assignment is done: the root's own, elsewhere what came down the tree. -/
def assignedNodes (s : State) (nodes : List SwarmNode) : List SwarmNode :=
  if fld s Reg.FAB_ADDR Fld.FAB_ADDR_ROOT = 1 then assignAddresses s.swarm.census else nodes

/-- The links that stand with them. -/
def assignedLinks (s : State) (links : List SwarmLink) : List SwarmLink :=
  if fld s Reg.FAB_ADDR Fld.FAB_ADDR_ROOT = 1 then s.swarm.links else links

/-- The device with its own address in FAB_ADDR, by the nodes `ns`. -/
def addressed (s : State) (ns : List SwarmNode) : State :=
  let mine := ns.find? (fun n => n.uid == ownUid s)
  setFld (setFld (setFld s Reg.FAB_ADDR Fld.FAB_ADDR_VALID (bnat mine.isSome)) Reg.FAB_ADDR Fld.FAB_ADDR_ADDR ((mine.map (·.addr)).getD 0))
    Reg.FAB_ADDR Fld.FAB_ADDR_ROOT_ADDR (addrOf ns s.swarm.root)

/-- The device once it knows the nodes and links, and has counted the nodes. -/
def mapped (s : State) (ns : List SwarmNode) (ls : List SwarmLink) : State :=
  setFld (addressed { s with swarm := { s.swarm with nodes := ns, links := ls } } ns) Reg.FAB_SWARM Fld.FAB_SWARM_DEVICES ns.length

theorem swarmAssignDone_mapped {s : State} (nodes : List SwarmNode) (links : List SwarmLink) (phase : swarmPhase s = 4) :
    exec (.swarmAssignDone nodes links) s = .next (setSwarmPhase (emit (mapped s (assignedNodes s nodes) (assignedLinks s links))
      (.swarmMap (assignedNodes s nodes) (assignedLinks s links))) 5) := by
  show execSwarmAssignDone nodes links s = _
  simp only [execSwarmAssignDone, phase, ne_eq, not_true, if_false, flg, decide_eq_true_eq]
  rfl

theorem sameRegsBut_addressed (s : State) (ns : List SwarmNode) : SameRegsBut s (addressed s ns) [Reg.FAB_ADDR] :=
  ((sameRegsBut_setFld s _ _ _).and_then (sameRegsBut_setFld _ _ _ _)).and_then (sameRegsBut_setFld _ _ _ _)

theorem ownAddr_addressed (s : State) (ns : List SwarmNode) :
    ownAddr (addressed s ns) = (ns.find? (fun n => n.uid == ownUid s)).map (fun n => n.addr % 2 ^ Fld.FAB_ADDR_ADDR.w) := by
  have valid : fld (addressed s ns) Reg.FAB_ADDR Fld.FAB_ADDR_VALID = bnat (ns.find? (fun n => n.uid == ownUid s)).isSome := by
    rw [addressed, fld_setFld_apart _ _ _ _ _ (by decide) (by decide), fld_setFld_apart _ _ _ _ _ (by decide) (by decide),
      fld_setFld_same _ _ _ _ (by decide)]
    exact Nat.mod_eq_of_lt (bnat_lt_two _)
  have addr : fld (addressed s ns) Reg.FAB_ADDR Fld.FAB_ADDR_ADDR
      = ((ns.find? (fun n => n.uid == ownUid s)).map (·.addr)).getD 0 % 2 ^ Fld.FAB_ADDR_ADDR.w := by
    rw [addressed, fld_setFld_apart _ _ _ _ _ (by decide) (by decide), fld_setFld_same _ _ _ _ (by decide)]
  rw [ownAddr, flg, valid, addr]
  cases ns.find? (fun n => n.uid == ownUid s) <;> simp [bnat]

theorem sameRegsBut_mapped (s : State) (ns : List SwarmNode) (ls : List SwarmLink) :
    SameRegsBut s (mapped s ns ls) [Reg.FAB_SWARM, Reg.FAB_ADDR] :=
  SameRegsBut.trans (sameRegsBut_addressed { s with swarm := { s.swarm with nodes := ns, links := ls } } ns)
    (sameRegsBut_setFld _ Reg.FAB_SWARM Fld.FAB_SWARM_DEVICES ns.length) (by simp) (by simp)

theorem mapped_shape (s : State) (ns : List SwarmNode) (ls : List SwarmLink) :
    mapped s ns ls = { s with regs := (mapped s ns ls).regs, swarm := { s.swarm with nodes := ns, links := ls } } := rfl

theorem devices_mapped (s : State) (ns : List SwarmNode) (ls : List SwarmLink) :
    fld (mapped s ns ls) Reg.FAB_SWARM Fld.FAB_SWARM_DEVICES = ns.length % 2 ^ Fld.FAB_SWARM_DEVICES.w :=
  fld_setFld_same _ _ _ _ (by decide)

theorem ownAddr_congr {s t : State} (h : rd t Reg.FAB_ADDR = rd s Reg.FAB_ADDR) : ownAddr t = ownAddr s := by
  unfold ownAddr flg fld
  rw [h]

theorem ownAddr_mapped (s : State) (ns : List SwarmNode) (ls : List SwarmLink) :
    ownAddr (mapped s ns ls) = (ns.find? (fun n => n.uid == ownUid s)).map (fun n => n.addr % 2 ^ Fld.FAB_ADDR_ADDR.w) :=
  (ownAddr_congr (sameRegsBut_setFld _ Reg.FAB_SWARM _ _ _ (by decide))).trans
    (ownAddr_addressed { s with swarm := { s.swarm with nodes := ns, links := ls } } ns)

/-! ### ROUTES and READY -/

/-- The new table, and what the ordered VCs keep of the old one (R372, R374). -/
def tablesWritten (s : State) : State :=
  { s with
    routes := writeTable s ((epoch s + 1) % 65536 % 2)
    swarm := { s.swarm with
      oldVcs := if s.routes.isEmpty then [] else [0, 5, 7], oldOpen := if s.routes.isEmpty then [] else openAnswers s } }

/-- READY of the next epoch, the ports not yet told. -/
def epochBegun (s : State) : State :=
  setSwarmPhase (setFld (tablesWritten s) Reg.FAB_SWARM Fld.FAB_SWARM_EPOCH ((epoch s + 1) % 65536)) 6

theorem rerunWaggle_quiet {s : State} (trees : s.trees = []) (free : residents s = []) (quiet : ∀ p, (getTrain s p).wagSince = none) :
    rerunWaggle s = s := by
  have dropped : dropRelays s = s := by
    rw [dropRelays, trees]
    simp only [List.filter_nil]
    rw [← trees]
  have added : addRelays s = s := by
    rw [addRelays, free]
    rfl
  simp only [rerunWaggle, dropped, added, trees, List.map_nil, List.foldl_nil]
  exact List.foldl_fixed' (fun p => by simp [quiet p]) _

theorem runLoads_quiet {s : State} (loads : s.waitLoads = []) : runLoads s = s := by
  rw [runLoads, loads]
  simp only [List.foldl_nil]
  rw [← loads]

theorem runGathers_quiet {s : State} (resume : s.resume = []) : runGathers s = s :=
  List.foldl_fixed' (fun p => by simp [resume]) _

theorem swarmRoutesDone_quiet {s : State} (phase : swarmPhase s = 5) (wait : s.fabWait = []) (loads : s.waitLoads = [])
    (resume : s.resume = []) (trees : s.trees = []) (free : residents s = []) (quiet : ∀ p, (getTrain s p).wagSince = none) :
    exec .swarmRoutesDone s = .next (notePorts (epochBegun s)) := by
  have shape := notePorts_regs (epochBegun s)
  generalize told : notePorts (epochBegun s) = t at shape ⊢
  have waits : t.fabWait = [] := by rw [shape]; exact wait
  have stamped : { t with fabWait := t.fabWait.map (restamp t) } = t := by
    rw [waits]
    simp only [List.map_nil]
    rw [← waits]
  have rerun : rerunWaggle t = t := by
    refine rerunWaggle_quiet (by rw [shape]; exact trees) (by rw [shape]; exact free) fun p => ?_
    rw [shape]
    exact quiet p
  have routed : routesDone s = t := by
    have begun : routesDone s = rerunWaggle (pumpFabric { t with fabWait := t.fabWait.map (restamp t) }) := by
      rw [← told]
      rfl
    rw [begun, stamped, pumpFabric_idle waits, rerun]
  show execSwarmRoutesDone s = _
  rw [execSwarmRoutesDone, if_pos phase, routed, runLoads_quiet (by rw [shape]; exact loads), runGathers_quiet (by rw [shape]; exact resume)]

/-- What `epochBegun` writes of FAB_SWARM. -/
theorem sameRegsBut_epochBegun (s : State) : SameRegsBut s (epochBegun s) [Reg.FAB_SWARM] :=
  (sameRegsBut_setFld (tablesWritten s) _ _ _).and_then (sameRegsBut_setFld _ _ _ _)

theorem epoch_epochBegun (s : State) : epoch (epochBegun s) = (epoch s + 1) % 65536 := by
  rw [epoch, epochBegun, setSwarmPhase, fld_setFld_apart _ _ _ _ _ (by decide) (by decide), fld_setFld_same _ _ _ _ (by decide)]
  exact Nat.mod_mod _ _

/-! ### The epoch switch -/

theorem epochSwitch_waits {s : State} {vc : Nat} (h : vc = 5 ∧ s.swarm.oldOpen.any (awaitsAnswer s) = true) :
    exec (.epochSwitch vc) s = .next s := by
  show execEpochSwitch vc s = _
  simp [execEpochSwitch, h.1, h.2]

theorem epochSwitch_switches {s : State} {vc : Nat} (h : ¬(vc = 5 ∧ s.swarm.oldOpen.any (awaitsAnswer s) = true)) :
    exec (.epochSwitch vc) s = .next { s with swarm := { s.swarm with oldVcs := s.swarm.oldVcs.filter (fun v => v != vc) } } := by
  show execEpochSwitch vc s = _
  rw [execEpochSwitch, if_neg]
  simpa using h

/-- Settles O36: each phase of Swarm by what it writes; the root by the lowest candidate; nothing is in flight to run again at READY. -/
theorem swarmPhases : Obligations.SwarmPhases := by
  unfold Obligations.SwarmPhases
  refine ⟨fun s phase free => ?start, fun s ms phase ended => ?links, fun s ports roots dists root depth parent quiet phase quiets elect => ?elect,
    fun s nodes links phase => ?census, fun s nodes links phase => ?assign, fun s phase wait loads resume trees free quiet => ?routes,
    fun s vc => ?switch⟩
  case start =>
    have begins : exec .fabCmdStart s = .next (setSwarmPhase { s with swarm := { s.swarm with began := beat s } } 1) := by
      show execFabCmdStart s = _
      simp [execFabCmdStart, phase, free]
    exact ⟨_, begins, onlyField_setSwarmPhase { s with swarm := _ } (by decide), sameRegsBut_setSwarmPhase { s with swarm := _ } 1, rfl⟩
  case links =>
    have ends : exec (.swarmLinksEnd ms) s = .next (setSwarmPhase { s with swarm := { s.swarm with began := beat s } } 2) := by
      show execSwarmLinksEnd ms s = _
      rw [execSwarmLinksEnd, if_pos ⟨phase, by simpa using ended⟩]
    exact ⟨_, ends, onlyField_setSwarmPhase { s with swarm := _ } (by decide), sameRegsBut_setSwarmPhase { s with swarm := _ } 2, rfl⟩
  case elect =>
    have phased := sameRegsBut_setSwarmPhase (elected s root depth parent) 3
    have addr : Reg.FAB_ADDR ∉ [Reg.FAB_SWARM] := by decide
    exact ⟨electRoot_le_own elect, fun o mem real up => electRoot_le_offer elect mem real up, _, swarmElectQuiet_elects phase quiets elect,
      swarmPhase_setSwarmPhase _ (by decide), (phased.fld addr _).trans (fld_elected_root ..), (phased.fld addr _).trans (fld_elected_depth ..),
      SameRegsBut.trans (sameRegsBut_elected s root depth parent) phased (by simp) (by simp), rfl, rfl⟩
  case census =>
    exact ⟨_, swarmCensusDone_sent nodes links phase, onlyField_setSwarmPhase (censusSent s _ _) (by decide),
      sameRegsBut_setSwarmPhase (censusSent s _ _) 4, rfl, rfl⟩
  case assign =>
    intro _ ns ls
    have step := swarmAssignDone_mapped nodes links phase
    rw [show assignedNodes s nodes = ns from rfl, show assignedLinks s links = ls from rfl] at step
    clear_value ns ls
    have phased : SameRegsBut (mapped s ns ls) (setSwarmPhase (emit (mapped s ns ls) (.swarmMap ns ls)) 5) [Reg.FAB_SWARM] :=
      sameRegsBut_setSwarmPhase (emit (mapped s ns ls) _) 5
    have addr := (ownAddr_congr (phased _ (by decide))).trans (ownAddr_mapped s ns ls)
    refine ⟨_, step, swarmPhase_setSwarmPhase _ (by decide), rfl, ?_, fun n hn => addr.trans (congrArg _ hn),
      fun hn => addr.trans (congrArg _ hn), rfl, (sameRegsBut_mapped s ns ls).trans phased (List.Subset.refl _) (by simp), ?_⟩
    · exact (fld_setFld_apart (emit (mapped s ns ls) _) _ _ _ _ (by decide) (by decide)).trans (devices_mapped s ns ls)
    · rw [mapped_shape]
      rfl
  case routes =>
    have begun := sameRegsBut_epochBegun s
    have uid : ownUid (epochBegun s) = ownUid s := congrArg BitVec.toNat (begun _ (by decide))
    have told := sameRegsBut_notePorts (epochBegun s)
    rw [uid] at told
    have swarm : Reg.FAB_SWARM ∉ (linksOf (epochBegun s).swarm.links (ownUid s)).map fun e => Reg.FAB_PSTATk e.1 := by
      simp [pstat_ne_swarm]
    have shape := notePorts_regs (epochBegun s)
    refine ⟨_, swarmRoutesDone_quiet phase wait loads resume trees free quiet,
      (told.fld swarm _).trans (swarmPhase_setSwarmPhase _ (by decide)), (told.fld swarm _).trans (epoch_epochBegun s), ?_, ?_,
      begun.trans told (by simp) (List.subset_cons_self _ _), ?_⟩
    · rw [shape]
      rfl
    · rw [shape]
      show (tablesWritten s).swarm = _
      simp [tablesWritten]
    · rw [shape]
      rfl
  case switch =>
    by_cases h : vc = 5 ∧ s.swarm.oldOpen.any (awaitsAnswer s) = true
    · exact ⟨s, epochSwitch_waits h, rfl, rfl, fun v => by simp [h]⟩
    · refine ⟨_, epochSwitch_switches h, rfl, rfl, fun v => ?_⟩
      rw [or_iff_left h, List.mem_filter, bne_iff_ne]

end Sys2Proof.Machine
end

section
/-! SUPPORT. Ports that go down or train (R373, R375 to R379): what that leaves of the registers and of the other ports. -/

namespace Sys2Proof.Machine

/-! ### Registers -/

theorem pstat_ne_ptx (j k : Nat) : Reg.FAB_PSTATk j ≠ Reg.FAB_PTXk k := by
  unfold Reg.FAB_PSTATk Reg.FAB_PTXk
  omega

theorem pstat_ne_lmap (j k : Nat) : Reg.FAB_PSTATk j ≠ Reg.FAB_LMAPk k := by
  unfold Reg.FAB_PSTATk Reg.FAB_LMAPk
  omega

theorem pstat_ne_eng (k : Nat) {e : Nat} (h : e < 4) : Reg.FAB_PSTATk k ≠ Reg.FAB_ENG e := by
  unfold Reg.FAB_PSTATk Reg.FAB_ENG
  omega

theorem eng_ne_swarm (e : Nat) : Reg.FAB_ENG e ≠ Reg.FAB_SWARM := by
  unfold Reg.FAB_ENG Reg.FAB_SWARM
  omega

theorem sameRegsBut_wr (s : State) (a : Nat) (w : Word) : SameRegsBut s (wr s a w) [a] :=
  fun _ hb => rd_wr_other s w (List.ne_of_not_mem_cons hb)

theorem getPort_congr {s t : State} (h : t.ports = s.ports) (k : Nat) : getPort t k = getPort s k :=
  congrArg (fun l => Sparse.get Port.none l k) h

/-! ### A rebuild -/

theorem sameRegsBut_startRebuild (s : State) : SameRegsBut s (startRebuild s) [Reg.FAB_SWARM] := by
  unfold startRebuild
  split
  · exact SameRegsBut.and_then (sameRegsBut_bump { s with swarm := _ } _ _ _) (sameRegsBut_setFld _ _ _ _)
  · exact sameRegsBut_refl _ _

theorem startRebuild_shape (s : State) :
    startRebuild s = { s with regs := (startRebuild s).regs, swarm := (startRebuild s).swarm } := by
  unfold startRebuild
  split <;> rfl

/-! ### A port goes down -/

/-- FAB_PSTATk of a port that goes down. -/
def downWord (cause : Nat) (w : Word) : Word :=
  putF Fld.FAB_PSTATk_REMOTE_VALID 0 (putF Fld.FAB_PSTATk_TREE 0 (putF Fld.FAB_PSTATk_UP_REMOTE 0
    (putF Fld.FAB_PSTATk_SPARE_USED 0 (putF Fld.FAB_PSTATk_CAUSE cause (putF Fld.FAB_PSTATk_STATE 0 w)))))

theorem state_downWord (cause : Nat) (w : Word) : getF Fld.FAB_PSTATk_STATE (downWord cause w) = 0 := by
  unfold downWord
  repeat rw [getF_putF_apart _ _ _ _ (by decide) (by decide)]
  exact getF_putF _ _ _ (by decide)

theorem cause_downWord (cause : Nat) (w : Word) : getF Fld.FAB_PSTATk_CAUSE (downWord cause w) = cause % 8 := by
  unfold downWord
  repeat rw [getF_putF_apart _ _ _ _ (by decide) (by decide)]
  exact getF_putF _ _ _ (by decide)

theorem portDown_notUp {s : State} {k : Nat} (cause : Nat) (h : portState s k ≠ 2) : portDown s k cause = s := if_pos h

theorem portDown_up {s : State} {k : Nat} (cause : Nat) (up : portState s k = 2) : ∃ q rs n o, q.retry = [] ∧ q.partIn = [] ∧
    portDown s k cause = startRebuild { setPort (wr s (Reg.FAB_PSTATk k) (downWord cause (rd s (Reg.FAB_PSTATk k)))) k q with
      recs := rs, recSeq := n, out := o } := by
  unfold portDown
  rw [if_neg (not_not.mpr up)]
  dsimp only
  split <;> exact ⟨_, _, _, _, rfl, rfl, rfl⟩

theorem sameRegsBut_portDown (s : State) (k cause : Nat) :
    SameRegsBut s (portDown s k cause) [Reg.FAB_PSTATk k, Reg.FAB_SWARM] := by
  by_cases up : portState s k = 2
  · obtain ⟨q, rs, n, o, -, -, down⟩ := portDown_up cause up
    rw [down]
    intro a ha
    simp only [List.mem_cons, List.not_mem_nil, or_false, not_or] at ha
    exact (sameRegsBut_startRebuild _ a (by simp [ha.2])).trans (rd_wr_other s _ ha.1)
  · rw [portDown_notUp cause up]
    exact sameRegsBut_refl _ _

theorem portDown_shape (s : State) (k cause : Nat) : portDown s k cause = { s with
    ports := (portDown s k cause).ports, regs := (portDown s k cause).regs, recs := (portDown s k cause).recs
    recSeq := (portDown s k cause).recSeq, out := (portDown s k cause).out, swarm := (portDown s k cause).swarm } := by
  by_cases up : portState s k = 2
  · obtain ⟨q, rs, n, o, -, -, down⟩ := portDown_up cause up
    rw [down, startRebuild_shape]
    rfl
  · rw [portDown_notUp cause up]

theorem rd_portDown_pstat {s : State} {k : Nat} (cause : Nat) (up : portState s k = 2) :
    rd (portDown s k cause) (Reg.FAB_PSTATk k) = downWord cause (rd s (Reg.FAB_PSTATk k)) := by
  obtain ⟨q, rs, n, o, -, -, down⟩ := portDown_up cause up
  rw [down, sameRegsBut_startRebuild _ _ (by simp [pstat_ne_swarm])]
  exact rd_wr_same ..

theorem rd_portDown_other (s : State) {j k : Nat} (cause : Nat) (h : j ≠ k) :
    rd (portDown s k cause) (Reg.FAB_PSTATk j) = rd s (Reg.FAB_PSTATk j) :=
  sameRegsBut_portDown s k cause _ (by simp [pstat_ne_pstat h, pstat_ne_swarm])

theorem portState_portDown (s : State) (j k cause : Nat) :
    portState (portDown s k cause) j = if j = k ∧ portState s j = 2 then 0 else portState s j := by
  by_cases same : j = k
  · subst same
    by_cases up : portState s j = 2
    · rw [if_pos ⟨rfl, up⟩, portState, fld, rd_portDown_pstat cause up, state_downWord]
    · rw [if_neg (by simp [up]), portDown_notUp cause up]
  · rw [if_neg (by simp [same]), portState, fld, rd_portDown_other s cause same]
    rfl

theorem cause_portDown (s : State) (j k : Nat) {cause : Nat} (h : cause < 8) :
    fld (portDown s k cause) (Reg.FAB_PSTATk j) Fld.FAB_PSTATk_CAUSE
      = if j = k ∧ portState s j = 2 then cause else fld s (Reg.FAB_PSTATk j) Fld.FAB_PSTATk_CAUSE := by
  by_cases same : j = k
  · subst same
    by_cases up : portState s j = 2
    · rw [if_pos ⟨rfl, up⟩, fld, rd_portDown_pstat cause up, cause_downWord, Nat.mod_eq_of_lt h]
    · rw [if_neg (by simp [up]), portDown_notUp cause up]
  · rw [if_neg (by simp [same]), fld, rd_portDown_other s cause same]
    rfl

theorem getPort_portDown_other (s : State) {j k : Nat} (cause : Nat) (h : j ≠ k) : getPort (portDown s k cause) j = getPort s j := by
  by_cases up : portState s k = 2
  · obtain ⟨q, rs, n, o, -, -, down⟩ := portDown_up cause up
    rw [down, startRebuild_shape]
    exact getPort_setPort_other _ _ h
  · rw [portDown_notUp cause up]

/-- Nothing of the link's traffic stays in a port that went down, but what it holds for a confirmation (R379). -/
theorem getPort_portDown_up {s : State} {k : Nat} (cause : Nat) (up : portState s k = 2) :
    (getPort (portDown s k cause) k).retry = [] ∧ (getPort (portDown s k cause) k).partIn = [] := by
  obtain ⟨q, rs, n, o, retry, part, down⟩ := portDown_up cause up
  have port : getPort (portDown s k cause) k = q := by
    rw [down, startRebuild_shape]
    exact getPort_setPort ..
  exact ⟨port ▸ retry, port ▸ part⟩

/-! ### Ports that lose their light -/

/-- Ports that go down one after another. -/
def allDown (s : State) (l : List Nat) (cause : Nat) : State := l.foldl (fun s k => portDown s k cause) s

theorem portState_allDown (s : State) (l : List Nat) (j cause : Nat) :
    portState (allDown s l cause) j = if j ∈ l ∧ portState s j = 2 then 0 else portState s j := by
  induction l generalizing s with
  | nil => simp [allDown]
  | cons k l ih =>
    rw [allDown, List.foldl_cons]
    refine (ih (portDown s k cause)).trans ?_
    rw [portState_portDown]
    by_cases here : j = k
    · subst here
      by_cases up : portState s j = 2 <;> simp [up]
    · simp [here]

theorem cause_allDown (s : State) (l : List Nat) (j : Nat) {cause : Nat} (h : cause < 8) :
    fld (allDown s l cause) (Reg.FAB_PSTATk j) Fld.FAB_PSTATk_CAUSE
      = if j ∈ l ∧ portState s j = 2 then cause else fld s (Reg.FAB_PSTATk j) Fld.FAB_PSTATk_CAUSE := by
  induction l generalizing s with
  | nil => simp [allDown]
  | cons k l ih =>
    rw [allDown, List.foldl_cons]
    refine (ih (portDown s k cause)).trans ?_
    rw [portState_portDown, cause_portDown s j k h]
    by_cases here : j = k
    · subst here
      by_cases up : portState s j = 2 <;> simp [up]
    · simp [here]

theorem portsDark_eq (s : State) (l : List Nat) : portsDark s l = allDown s (l.filter fun k => portState s k == 2) 5 := rfl

theorem portState_portsDark (s : State) (l : List Nat) (j : Nat) :
    portState (portsDark s l) j = if j ∈ l ∧ portState s j = 2 then 0 else portState s j := by
  simp [portsDark_eq, portState_allDown]

theorem cause_portsDark {s : State} {l : List Nat} {j : Nat} (mem : j ∈ l) (up : portState s j = 2) :
    fld (portsDark s l) (Reg.FAB_PSTATk j) Fld.FAB_PSTATk_CAUSE = 5 := by
  simp [portsDark_eq, cause_allDown, mem, up]

theorem rd_portsDark_eng (s : State) (l : List Nat) {e : Nat} (h : e < 4) : rd (portsDark s l) (Reg.FAB_ENG e) = rd s (Reg.FAB_ENG e) := by
  refine List.foldlRecOn (motive := fun t => rd t (Reg.FAB_ENG e) = rd s (Reg.FAB_ENG e)) _ _ rfl fun t kept k _ => ?_
  exact (sameRegsBut_portDown t k 5 _ (by simp [(pstat_ne_eng k h).symm, eng_ne_swarm])).trans kept

end Sys2Proof.Machine
end

section
/-! LANE_FAILURE and LASER_SOURCE_FAILURE (R377, R378). -/

namespace Sys2Proof.Machine

/-! ### Lanes -/

/-- A port with one more lane failed. -/
def laneLost (s : State) (k lane : Nat) : State := setPort s k { getPort s k with lanesFailed := (getPort s k).lanesFailed ++ [lane] }

/-- Lane 8 in use in place of another, with the record of it. -/
def spareUsed (s : State) (k lane how cw : Nat) : State :=
  raiseDev (setFld (laneLost s k lane) (Reg.FAB_PSTATk k) Fld.FAB_PSTATk_SPARE_USED 1) 0x0801 sevCorrected k lane how cw (remoteUid s k)

theorem spareUsed_shape (s : State) (k lane how cw : Nat) : spareUsed s k lane how cw = { s with
    ports := (spareUsed s k lane how cw).ports, regs := (spareUsed s k lane how cw).regs, recs := (spareUsed s k lane how cw).recs
    recSeq := (spareUsed s k lane how cw).recSeq } := rfl

section
variable {s : State} {k lane : Nat} (cw : Nat) (hk : k < 16) (up : portState s k = 2) (hl : lane < 8) (whole : lane ∉ (getPort s k).lanesFailed)
include hk up hl whole

theorem laneFailure_spare (enabled : fld s (Reg.FAB_PCTLk k) Fld.FAB_PCTLk_SPARE_EN = 1)
    (unused : fld s (Reg.FAB_PSTATk k) Fld.FAB_PSTATk_SPARE_USED = 0) (spare : 8 ∉ (getPort s k).lanesFailed)
    (units : (getPort s k).retry = []) : exec (.laneFailure k lane 1 cw) s = .next (spareUsed s k lane 1 cw) := by
  have sent : (getPort (spareUsed s k lane 1 cw) k).retry = [] := by
    have port : getPort (spareUsed s k lane 1 cw) k = { getPort s k with lanesFailed := (getPort s k).lanesFailed ++ [lane] } :=
      getPort_setPort ..
    rw [port]
    exact units
  have flag : flg (setPort s k { getPort s k with lanesFailed := (getPort s k).lanesFailed ++ [lane] }) (Reg.FAB_PCTLk k)
      Fld.FAB_PCTLk_SPARE_EN = true := decide_eq_true enabled
  have free : flg s (Reg.FAB_PSTATk k) Fld.FAB_PSTATk_SPARE_USED = false := by simp [flg, unused]
  have falls : laneFail s k lane 1 cw = resendAll (spareUsed s k lane 1 cw) k (ackedSeq (getPort s k)) := by
    unfold laneFail
    rw [if_neg (by simp [up, whole]; omega)]
    simp only [free, flag, Bool.not_false, Bool.and_true, decide_eq_true_eq]
    rw [if_neg (by omega), if_pos (by simpa using spare)]
    rfl
  show execLaneFailure k lane 1 cw s = _
  simp [execLaneFailure, hk, falls, resendAll_empty _ sent]

theorem laneFailure_down (used : fld s (Reg.FAB_PSTATk k) Fld.FAB_PSTATk_SPARE_USED = 1) :
    exec (.laneFailure k lane 1 cw) s = .next (portDown (laneLost s k lane) k 3) := by
  have flag : flg s (Reg.FAB_PSTATk k) Fld.FAB_PSTATk_SPARE_USED = true := decide_eq_true used
  have falls : laneFail s k lane 1 cw = portDown (laneLost s k lane) k 3 := by
    unfold laneFail
    rw [if_neg (by simp [up, whole]; omega)]
    simp [flag, laneLost]
  show execLaneFailure k lane 1 cw s = _
  simp [execLaneFailure, hk, falls]

end

/-! ### Lasers -/

/-- The status fields of sources A and B lie apart from source C's, and fit the register. -/
theorem laserFld_apart {b : Nat} (h : b < 2) : (laserFld b).lo + (laserFld b).w ≤ 64 ∧ (laserFld b).w = 2 ∧
    (laserFld b).lo + (laserFld b).w ≤ Fld.FAB_ENG_SRC_C.lo ∧ (laserFld b).lo + (laserFld b).w ≤ Fld.FAB_ENG_C_FOR.lo := by
  rcases (by omega : b = 0 ∨ b = 1) with rfl | rfl <;> decide

/-- Source C in the place of source A or B of an engine. -/
def sourceReplaced (s : State) (e b uw : Nat) : State :=
  raiseDev (setFld (setFld (setFld s (Reg.FAB_ENG e) (laserFld b) 2) (Reg.FAB_ENG e) Fld.FAB_ENG_SRC_C 1) (Reg.FAB_ENG e) Fld.FAB_ENG_C_FOR (1 + b))
    0x0805 sevCorrected e b (ofBits (lasersPorts e b)) uw 0

theorem sourceReplaced_shape (s : State) (e b uw : Nat) : sourceReplaced s e b uw = { s with
    regs := (sourceReplaced s e b uw).regs, recs := (sourceReplaced s e b uw).recs, recSeq := (sourceReplaced s e b uw).recSeq } := rfl

theorem sourceReplaced_record (s : State) (e b uw : Nat) : ∃ r, (sourceReplaced s e b uw).recs = s.recs ++ [r] ∧ r.code = 0x0805 ∧
    r.sev = 1 ∧ r.obj = e ∧ r.d0 = b ∧ r.d2 = uw :=
  ⟨_, rfl, rfl, rfl, rfl, rfl, rfl⟩

theorem fld_sourceReplaced {b : Nat} (s : State) (e uw : Nat) (hb : b < 2) :
    fld (sourceReplaced s e b uw) (Reg.FAB_ENG e) (laserFld b) = 2
    ∧ fld (sourceReplaced s e b uw) (Reg.FAB_ENG e) Fld.FAB_ENG_SRC_C = 1
    ∧ fld (sourceReplaced s e b uw) (Reg.FAB_ENG e) Fld.FAB_ENG_C_FOR = 1 + b := by
  obtain ⟨fits, width, apartC, apartFor⟩ := laserFld_apart hb
  simp only [sourceReplaced, fld_raiseDev]
  refine ⟨?_, ?_, ?_⟩
  · rw [fld_setFld_apart _ _ _ _ _ (by decide) (.inl apartFor), fld_setFld_apart _ _ _ _ _ (by decide) (.inl apartC),
      fld_setFld_same _ _ _ _ fits, width]
    rfl
  · rw [fld_setFld_apart _ _ _ _ _ (by decide) (by decide), fld_setFld_same _ _ _ _ (by decide)]
    rfl
  · rw [fld_setFld_same _ _ _ _ (by decide)]
    exact Nat.mod_eq_of_lt (show 1 + b < 4 by omega)

theorem sameRegsBut_sourceReplaced (s : State) (e b uw : Nat) : SameRegsBut s (sourceReplaced s e b uw) [Reg.FAB_ENG e] :=
  ((sameRegsBut_setFld s _ (laserFld b) 2).and_then (sameRegsBut_setFld _ _ Fld.FAB_ENG_SRC_C 1)).and_then
    (sameRegsBut_setFld _ _ Fld.FAB_ENG_C_FOR (1 + b))

theorem foldl_resendAll_empty {s : State} (l : List Nat) (h : ∀ k ∈ l, (getPort s k).retry = []) :
    l.foldl (fun s k => resendAll s k (ackedSeq (getPort s k))) s = s := by
  induction l with
  | nil => rfl
  | cons k l ih =>
    rw [List.foldl_cons, resendAll_empty _ (h k (List.mem_cons_self ..))]
    exact ih fun j hj => h j (List.mem_cons_of_mem _ hj)

theorem laserSourceFailure_replaced {s : State} {e b : Nat} (uw : Nat) (he : e < 4) (hb : b < 2) (lit : fld s (Reg.FAB_ENG e) (laserFld b) = 1)
    (standby : fld s (Reg.FAB_ENG e) Fld.FAB_ENG_SRC_C = 3) (units : ∀ k ∈ lasersPorts e b, (getPort s k).retry = []) :
    exec (.laserSourceFailure e b uw) s = .next (sourceReplaced s e b uw) := by
  obtain ⟨fits, -, apart, -⟩ := laserFld_apart hb
  have still : fld (setFld s (Reg.FAB_ENG e) (laserFld b) 2) (Reg.FAB_ENG e) Fld.FAB_ENG_SRC_C = 3 :=
    (fld_setFld_apart _ _ _ _ _ fits (.inr apart)).trans standby
  have quiet := foldl_resendAll_empty (s := sourceReplaced s e b uw)
    ((lasersPorts e b).filter (fun k => portState (sourceReplaced s e b uw) k == 2)) fun k hk => units k (List.mem_of_mem_filter hk)
  show execLaserSourceFailure e b uw s = _
  unfold execLaserSourceFailure
  rw [if_neg (by omega), if_neg (by omega), if_neg (by simp [lit])]
  simp only [still, if_true]
  exact congrArg _ quiet

theorem laserSourceFailure_dark {s : State} {e b : Nat} (uw : Nat) (he : e < 4) (hb : b < 2) (lit : fld s (Reg.FAB_ENG e) (laserFld b) = 1)
    (away : fld s (Reg.FAB_ENG e) Fld.FAB_ENG_SRC_C ≠ 3) :
    exec (.laserSourceFailure e b uw) s = .next (portsDark (setFld s (Reg.FAB_ENG e) (laserFld b) 2) (lasersPorts e b)) := by
  obtain ⟨fits, -, apart, -⟩ := laserFld_apart hb
  have still : fld (setFld s (Reg.FAB_ENG e) (laserFld b) 2) (Reg.FAB_ENG e) Fld.FAB_ENG_SRC_C ≠ 3 := by
    rwa [fld_setFld_apart _ _ _ _ _ fits (.inr apart)]
  show execLaserSourceFailure e b uw s = _
  unfold execLaserSourceFailure
  rw [if_neg (by omega), if_neg (by omega), if_neg (by simp [lit])]
  simp only [if_neg still]

/-- Source C failed, for no source any more. -/
def spareSourceFailed (s : State) (e : Nat) : State :=
  setFld (setFld s (Reg.FAB_ENG e) Fld.FAB_ENG_SRC_C 2) (Reg.FAB_ENG e) Fld.FAB_ENG_C_FOR 0

/-- The ports that source C lights in another source's place. -/
def litBySpare (s : State) (e : Nat) : List Nat :=
  if fld s (Reg.FAB_ENG e) Fld.FAB_ENG_C_FOR = 1 ∨ fld s (Reg.FAB_ENG e) Fld.FAB_ENG_C_FOR = 2 then
    lasersPorts e (fld s (Reg.FAB_ENG e) Fld.FAB_ENG_C_FOR - 1) else []

theorem laserSourceFailure_spare {s : State} {e : Nat} (uw : Nat) (he : e < 4)
    (ready : fld s (Reg.FAB_ENG e) Fld.FAB_ENG_SRC_C = 1 ∨ fld s (Reg.FAB_ENG e) Fld.FAB_ENG_SRC_C = 3) :
    exec (.laserSourceFailure e 2 uw) s = .next (portsDark (spareSourceFailed s e) (litBySpare s e)) := by
  show execLaserSourceFailure e 2 uw s = _
  unfold execLaserSourceFailure
  rw [if_neg (by omega), if_pos rfl, if_neg (by
    show ¬(fld s (Reg.FAB_ENG e) Fld.FAB_ENG_SRC_C ≠ 1 ∧ fld s (Reg.FAB_ENG e) Fld.FAB_ENG_SRC_C ≠ 3)
    omega)]
  unfold litBySpare
  dsimp only
  split <;> rfl

end Sys2Proof.Machine
end

section
/-! Training, darkness and light (R356, R375, R376, R379). -/

namespace Sys2Proof.Machine

theorem lmap_ne_pid (j k : Nat) : Reg.FAB_LMAPk j ≠ Reg.FAB_PIDk k := by
  unfold Reg.FAB_LMAPk Reg.FAB_PIDk
  omega

theorem pstat_ne_pid (j k : Nat) : Reg.FAB_PSTATk j ≠ Reg.FAB_PIDk k := by
  unfold Reg.FAB_PSTATk Reg.FAB_PIDk
  omega

theorem pid_ne_swarm (k : Nat) : Reg.FAB_PIDk k ≠ Reg.FAB_SWARM := by
  unfold Reg.FAB_PIDk Reg.FAB_SWARM
  omega

theorem lmap_ne_swarm (k : Nat) : Reg.FAB_LMAPk k ≠ Reg.FAB_SWARM := by
  unfold Reg.FAB_LMAPk Reg.FAB_SWARM
  omega

theorem uid_ne_pid (k : Nat) : Reg.FAB_UID ≠ Reg.FAB_PIDk k := by
  unfold Reg.FAB_UID Reg.FAB_PIDk
  omega

theorem uid_ne_lmap (k : Nat) : Reg.FAB_UID ≠ Reg.FAB_LMAPk k := by
  unfold Reg.FAB_UID Reg.FAB_LMAPk
  omega

/-! ### Training -/

/-- The port's registers of what it has seen: the lanes and the remote. -/
def remoteSeen (s : State) (k : Nat) (tr : TrainResult) (r : Nat × Nat) : State :=
  wr (wr s (Reg.FAB_LMAPk k) (laneMap tr.lanes r)) (Reg.FAB_PIDk k) (BitVec.ofNat 64 r.1)

theorem ownUid_remoteSeen (s : State) (k : Nat) (tr : TrainResult) (r : Nat × Nat) : ownUid (remoteSeen s k tr r) = ownUid s :=
  congrArg BitVec.toNat ((rd_wr_other _ _ (uid_ne_pid k)).trans (rd_wr_other s _ (uid_ne_lmap k)))

theorem getPort_remoteSeen (s : State) (k j : Nat) (tr : TrainResult) (r : Nat × Nat) : getPort (remoteSeen s k tr r) j = getPort s j := rfl

/-- FAB_PSTATk of a port that has trained. -/
def upWord (tr : TrainResult) (r : Nat × Nat) (up : Bool) (w : Word) : Word :=
  putF Fld.FAB_PSTATk_REMOTE_VALID 1 (putF Fld.FAB_PSTATk_REMOTE_ADDR tr.remoteAddr
    (putF Fld.FAB_PSTATk_REMOTE_PORT r.2 (putF Fld.FAB_PSTATk_UP_REMOTE (bnat up)
      (putF Fld.FAB_PSTATk_SPARE_USED (bnat (!(missingLanes tr.lanes r).isEmpty && !(missingLanes tr.lanes r).contains 8))
        (putF Fld.FAB_PSTATk_STATE 2 w)))))

/-- The state with other records. -/
def recorded (s : State) (rs : List ErrRec) (n : Nat) : State := { s with recs := rs, recSeq := n }

theorem recorded_recorded (s : State) (rs qs : List ErrRec) (n m : Nat) : recorded (recorded s rs n) qs m = recorded s qs m := rfl

theorem rd_recorded (s : State) (rs : List ErrRec) (n a : Nat) : rd (recorded s rs n) a = rd s a := rfl

theorem fld_recorded (s : State) (rs : List ErrRec) (n a : Nat) (f : Fld) : fld (recorded s rs n) a f = fld s a f := rfl

theorem getPort_recorded (s : State) (rs : List ErrRec) (n k : Nat) : getPort (recorded s rs n) k = getPort s k := rfl

/-- A record, or none: nothing but the records can differ. -/
theorem swapped_or_not (s : State) (k cause : Nat) (r : Nat × Nat) (c : Prop) [Decidable c] :
    ∃ rs n, (if c then swapped s k cause r else s) = recorded s rs n := by
  split <;> exact ⟨_, _, rfl⟩

/-- A port that has trained, whatever records were made of its lanes. -/
def linkUp (s : State) (k : Nat) (tr : TrainResult) (r : Nat × Nat) (up : Bool) (rs : List ErrRec) (n : Nat) : State :=
  { s with
    ports := Sparse.set Port.none s.ports k ((getPort s k).afresh (missingLanes tr.lanes r))
    regs := (wr (remoteSeen s k tr r) (Reg.FAB_PSTATk k) (upWord tr r up (rd (remoteSeen s k tr r) (Reg.FAB_PSTATk k)))).regs
    recs := rs, recSeq := n }

theorem linked_shape (s : State) (rs : List ErrRec) (n a k : Nat) (w : Word) (p : Port) : setPort (wr (recorded s rs n) a w) k p
    = { s with ports := Sparse.set Port.none s.ports k p, regs := (wr s a w).regs, recs := rs, recSeq := n } := rfl

theorem remoteSeen_shape (s : State) (k : Nat) (tr : TrainResult) (r : Nat × Nat) :
    remoteSeen s k tr r = { s with regs := (remoteSeen s k tr r).regs } := rfl

theorem linkUp_eq (s : State) (k : Nat) (tr : TrainResult) (r : Nat × Nat) (up : Bool) (rs : List ErrRec) (n : Nat) :
    setPort (wr (recorded (remoteSeen s k tr r) rs n) (Reg.FAB_PSTATk k) (upWord tr r up (rd (remoteSeen s k tr r) (Reg.FAB_PSTATk k)))) k
      ((getPort s k).afresh (missingLanes tr.lanes r)) = linkUp s k tr r up rs n := by
  rw [linkUp, linked_shape]
  generalize upWord tr r up (rd (remoteSeen s k tr r) (Reg.FAB_PSTATk k)) = w
  rw [remoteSeen_shape]

/-- The same, and Swarm begins again. -/
def trained (s : State) (k : Nat) (tr : TrainResult) (r : Nat × Nat) (up : Bool) (rs : List ErrRec) (n : Nat) : State :=
  startRebuild (linkUp s k tr r up rs n)

theorem portTrainingDone_up {s : State} {k : Nat} {tr : TrainResult} {r : Nat × Nat} (hk : k < 16) (training : portState s k = 1)
    (held : portHeld s k = false) (wait : s.fabWait = []) (main : mainRemote tr.lanes = some r)
    (mine : 8 ≤ (tr.lanes.filter (fun v => v.map (fun v => (v.uid, v.port)) == some r)).length) (told : tr.remoteReportsUs = true)
    (far : r.1 ≠ ownUid s) : ∃ up rs n, exec (.portTrainingDone k tr) s = .next (trained s k tr r up rs n) := by
  obtain ⟨rs, n, first⟩ := swapped_or_not (remoteSeen s k tr r) k 2 r
    (tr.lanes.any (fun v => v.isSome && v.map (fun v => (v.uid, v.port)) != some r) = true)
  have notOwn : r.1 ≠ ownUid (recorded (remoteSeen s k tr r) rs n) := fun own => far (own.trans (ownUid_remoteSeen s k tr r))
  obtain ⟨rs', n', second⟩ := swapped_or_not (recorded (remoteSeen s k tr r) rs n) k 1 r
    (flg (recorded (remoteSeen s k tr r) rs n) (Reg.FAB_LMAPk k) Fld.FAB_LMAPk_REVERSED = true)
  refine ⟨upEnd tr.remoteDepth tr.remoteAddr (fld (remoteSeen s k tr r) Reg.FAB_ADDR Fld.FAB_ADDR_DEPTH)
    (fld (remoteSeen s k tr r) Reg.FAB_ADDR Fld.FAB_ADDR_ADDR), rs', n', ?_⟩
  show execPortTrainingDone k tr s = _
  unfold execPortTrainingDone
  rw [if_neg (by simp [training, held]; omega), main]
  dsimp only
  rw [← remoteSeen, first, if_neg (by simp [told]; omega), if_neg notOwn, second, recorded_recorded, pumpFabric_idle]
  · rw [rd_recorded, fld_recorded, fld_recorded, getPort_wr, getPort_recorded, getPort_remoteSeen, ← upWord, linkUp_eq, trained]
  · rw [startRebuild_shape]
    exact wait

theorem rd_trained_pstat (s : State) (k : Nat) (tr : TrainResult) (r : Nat × Nat) (up : Bool) (rs : List ErrRec) (n : Nat) :
    rd (trained s k tr r up rs n) (Reg.FAB_PSTATk k) = upWord tr r up (rd (remoteSeen s k tr r) (Reg.FAB_PSTATk k)) :=
  (sameRegsBut_startRebuild _ _ (by simp [pstat_ne_swarm])).trans (rd_wr_same _ (Reg.FAB_PSTATk k) _)

theorem state_upWord (tr : TrainResult) (r : Nat × Nat) (up : Bool) (w : Word) : getF Fld.FAB_PSTATk_STATE (upWord tr r up w) = 2 := by
  unfold upWord
  repeat rw [getF_putF_apart _ _ _ _ (by decide) (by decide)]
  exact getF_putF _ _ _ (by decide)

theorem spare_upWord (tr : TrainResult) (r : Nat × Nat) (up : Bool) (w : Word) : getF Fld.FAB_PSTATk_SPARE_USED (upWord tr r up w)
    = if missingLanes tr.lanes r ≠ [] ∧ 8 ∉ missingLanes tr.lanes r then 1 else 0 := by
  unfold upWord
  iterate 4 rw [getF_putF_apart _ _ _ _ (by decide) (by decide)]
  rw [getF_putF _ _ _ (by decide), Nat.mod_eq_of_lt (show _ < 2 ^ Fld.FAB_PSTATk_SPARE_USED.w from bnat_lt_two _), bnat]
  simp

theorem valid_upWord (tr : TrainResult) (r : Nat × Nat) (up : Bool) (w : Word) :
    getF Fld.FAB_PSTATk_REMOTE_VALID (upWord tr r up w) = 1 :=
  getF_putF _ _ _ (by decide)

theorem ports_trained (s : State) (k : Nat) (tr : TrainResult) (r : Nat × Nat) (up : Bool) (rs : List ErrRec) (n : Nat) :
    (trained s k tr r up rs n).ports = Sparse.set Port.none s.ports k ((getPort s k).afresh (missingLanes tr.lanes r)) :=
  congrArg State.ports (startRebuild_shape (linkUp s k tr r up rs n))

theorem trained_shape (s : State) (k : Nat) (tr : TrainResult) (r : Nat × Nat) (up : Bool) (rs : List ErrRec) (n : Nat) :
    trained s k tr r up rs n = { s with
      ports := (trained s k tr r up rs n).ports, regs := (trained s k tr r up rs n).regs, recs := (trained s k tr r up rs n).recs
      recSeq := (trained s k tr r up rs n).recSeq, swarm := (trained s k tr r up rs n).swarm } := by
  have shape := startRebuild_shape (linkUp s k tr r up rs n)
  rw [trained, shape]
  rfl

theorem sameRegsBut_trained (s : State) (k : Nat) (tr : TrainResult) (r : Nat × Nat) (up : Bool) (rs : List ErrRec) (n : Nat) :
    SameRegsBut s (trained s k tr r up rs n) [Reg.FAB_PIDk k, Reg.FAB_LMAPk k, Reg.FAB_PSTATk k, Reg.FAB_SWARM] := by
  intro a ha
  simp only [List.mem_cons, List.not_mem_nil, or_false, not_or] at ha
  obtain ⟨pid, lmap, pstat, swarm⟩ := ha
  calc rd (trained s k tr r up rs n) a
    _ = rd (wr (remoteSeen s k tr r) (Reg.FAB_PSTATk k) _) a := sameRegsBut_startRebuild _ a (by simp [swarm])
    _ = rd (remoteSeen s k tr r) a := rd_wr_other _ _ pstat
    _ = rd s a := (rd_wr_other _ _ pid).trans (rd_wr_other s _ lmap)

theorem rd_trained_pid (s : State) (k : Nat) (tr : TrainResult) (r : Nat × Nat) (up : Bool) (rs : List ErrRec) (n : Nat) :
    rd (trained s k tr r up rs n) (Reg.FAB_PIDk k) = BitVec.ofNat 64 r.1 :=
  calc rd (trained s k tr r up rs n) (Reg.FAB_PIDk k)
    _ = rd (wr (remoteSeen s k tr r) (Reg.FAB_PSTATk k) _) (Reg.FAB_PIDk k) := sameRegsBut_startRebuild _ _ (by simp [pid_ne_swarm])
    _ = rd (remoteSeen s k tr r) (Reg.FAB_PIDk k) := rd_wr_other _ _ (pstat_ne_pid k k).symm
    _ = BitVec.ofNat 64 r.1 := rd_wr_same ..

theorem rd_trained_lmap (s : State) (k : Nat) (tr : TrainResult) (r : Nat × Nat) (up : Bool) (rs : List ErrRec) (n : Nat) :
    rd (trained s k tr r up rs n) (Reg.FAB_LMAPk k) = laneMap tr.lanes r :=
  calc rd (trained s k tr r up rs n) (Reg.FAB_LMAPk k)
    _ = rd (wr (remoteSeen s k tr r) (Reg.FAB_PSTATk k) _) (Reg.FAB_LMAPk k) := sameRegsBut_startRebuild _ _ (by simp [lmap_ne_swarm])
    _ = rd (remoteSeen s k tr r) (Reg.FAB_LMAPk k) := rd_wr_other _ _ (pstat_ne_lmap k k).symm
    _ = rd (wr s (Reg.FAB_LMAPk k) _) (Reg.FAB_LMAPk k) := rd_wr_other _ _ (lmap_ne_pid k k)
    _ = laneMap tr.lanes r := rd_wr_same ..

/-! ### Nothing seen -/

theorem portTrainingDone_down {s : State} {k : Nat} {tr : TrainResult} (hk : k < 16) (training : portState s k = 1)
    (held : portHeld s k = false) (main : mainRemote tr.lanes = none) : exec (.portTrainingDone k tr) s = .next
      (stayDown (wr s (Reg.FAB_LMAPk k) (laneMap tr.lanes (0, 0))) k (if tr.ownLit && portLit s k then 1 else 5)) := by
  show execPortTrainingDone k tr s = _
  unfold execPortTrainingDone
  rw [if_neg (by simp [training, held]; omega), main]

theorem portState_stayDown (s : State) (k cause : Nat) : portState (stayDown s k cause) k = 0 := by
  have word : rd (stayDown s k cause) (Reg.FAB_PSTATk k)
      = putF Fld.FAB_PSTATk_CAUSE cause (putF Fld.FAB_PSTATk_STATE 0 (rd s (Reg.FAB_PSTATk k))) := rd_wr_same ..
  rw [portState, fld, word, getF_putF_apart _ _ _ _ (by decide) (by decide)]
  exact getF_putF _ _ _ (by decide)

theorem unseen_shape (s : State) (k a cause : Nat) (w : Word) : stayDown (wr s a w) k cause = { s with
    regs := (stayDown (wr s a w) k cause).regs, recs := (stayDown (wr s a w) k cause).recs
    recSeq := (stayDown (wr s a w) k cause).recSeq } := by
  dsimp only [stayDown, downRecord, raiseDev, raise, wr]

theorem stayDown_record (s : State) (k cause : Nat) : ∃ r, (stayDown s k cause).recs = s.recs ++ [r] ∧ r.code = 0x0803 ∧ r.obj = k ∧
    r.d0 = cause :=
  ⟨_, rfl, rfl, rfl, rfl⟩

theorem sameRegsBut_stayDown (s : State) (k cause : Nat) : SameRegsBut s (stayDown s k cause) [Reg.FAB_PSTATk k] :=
  fun _ ha => rd_wr_other s _ (List.ne_of_not_mem_cons ha)

/-! ### Darkness, light and RETRAIN -/

theorem portState_beginTraining (s : State) (k : Nat) : portState (beginTraining s k) k = 1 :=
  (portState_bump (setPortState s k 1) _ _ (pstat_ne_ptx k k)).trans (fld_setFld_same _ _ _ _ (by decide))

theorem sameRegsBut_beginTraining (s : State) (k : Nat) : SameRegsBut s (beginTraining s k) [Reg.FAB_PSTATk k, Reg.FAB_PTXk k] :=
  SameRegsBut.trans (sameRegsBut_setFld s (Reg.FAB_PSTATk k) _ 1) (sameRegsBut_bump (setPortState s k 1) (Reg.FAB_PTXk k) _ 1)
    (by simp) (by simp)

theorem out_beginTraining (s : State) (k : Nat) : (beginTraining s k).out = s.out ++ [.identity k (ownUid s)] := rfl

theorem beginTraining_shape (s : State) (k : Nat) (p : Port) : beginTraining (setPort s k p) k = { s with
    ports := (beginTraining (setPort s k p) k).ports, regs := (beginTraining (setPort s k p) k).regs
    out := (beginTraining (setPort s k p) k).out } := by
  dsimp only [beginTraining, setPortState, bump, setFld, wr, emit, setPort]

theorem onlyField_beginTraining_state (s : State) (k : Nat) :
    OnlyField s (beginTraining s k) (Reg.FAB_PSTATk k) Fld.FAB_PSTATk_STATE 1 :=
  (onlyField_setFld s (Reg.FAB_PSTATk k) _ 1 (by decide) (by decide)).congr rfl
    (rd_bump_other (setPortState s k 1) _ _ (pstat_ne_ptx k k))

theorem onlyField_beginTraining_units (s : State) (k : Nat) : OnlyField s (beginTraining s k) (Reg.FAB_PTXk k) Fld.FAB_PTXk_UNITS
    (satAdd Fld.FAB_PTXk_UNITS.w (fld s (Reg.FAB_PTXk k) Fld.FAB_PTXk_UNITS) 1) := by
  have same := rd_setFld_other s Fld.FAB_PSTATk_STATE 1 (pstat_ne_ptx k k).symm
  have counted := onlyField_bump (setPortState s k 1) (Reg.FAB_PTXk k) Fld.FAB_PTXk_UNITS 1 (by decide)
  rw [fld, setPortState, same] at counted
  exact counted.congr same.symm rfl

theorem receiveDarkTimeout_dark {s : State} {k : Nat} (hk : k < 16) (enabled : portEnabled s k = true) :
    exec (.receiveDarkTimeout k) s
      = .next (emit (setPort (portDown s k 1) k { getPort (portDown s k 1) k with pulses := true }) (.pulses k)) := by
  show execReceiveDarkTimeout k s = _
  simp [execReceiveDarkTimeout, hk, enabled]

/-- A port whose light has come back. -/
def lightBack (s : State) (k : Nat) : State := setPort s k { getPort s k with pulses := false }

theorem lightDetected_light {s : State} {k : Nat} (hk : k < 16) (enabled : portEnabled s k = true) : exec (.lightDetected k) s = .next
    (if portState s k = 0 ∧ (getPort s k).wentDown = false then beginTraining (lightBack s k) k else lightBack s k) := by
  show execLightDetected k s = _
  rw [execLightDetected, if_pos (by simp [hk, enabled])]
  refine congrArg _ (if_congr ?_ rfl rfl)
  rw [Bool.and_eq_true, decide_eq_true_eq, Bool.not_eq_true']
  exact Iff.rfl

theorem fabPctlRetrain_trains {s : State} {k : Nat} (hk : k < 16) (enabled : portEnabled s k = true) (down : portState s k = 0)
    (went : (getPort s k).wentDown = true) :
    exec (.fabPctlRetrain k) s = .next (beginTraining (setPort s k ((getPort s k).afresh [])) k) := by
  show execFabPctlRetrain k s = _
  simp [execFabPctlRetrain, hk, enabled, down, went]

/-! ### The obligation -/

/-- Settles O34: a lane or source by its replacement or by `portDown`, training by `trained`, light by `beginTraining`. -/
theorem portsAndLasers : Obligations.PortsAndLasers := by
  unfold Obligations.PortsAndLasers
  refine ⟨⟨fun s k lane cw hk up hl whole => ⟨fun enabled unused spare units => ?spare, fun used => ?lost⟩,
    fun s e b uw he hb => ?source, fun s e uw he => ?sourceC⟩,
    fun s k tr r hk training held wait main mine told far => ?up, fun s k tr hk training held main => ?down,
    fun s k hk enabled => ⟨?dark, ?light, fun down went => ?retrain⟩⟩
  case spare =>
    refine ⟨_, _, laneFailure_spare cw hk up hl whole enabled unused spare units, rfl, rfl, rfl, rfl, rfl, rfl, rfl,
      onlyField_setFld (laneLost s k lane) _ _ 1 (by decide) (by decide), sameRegsBut_setFld (laneLost s k lane) _ _ 1,
      getPort_setPort .., fun j hj => getPort_setPort_other s _ hj, spareUsed_shape ..⟩
  case lost =>
    have down : portState (laneLost s k lane) k = 2 := up
    refine ⟨_, laneFailure_down cw hk up hl whole used, ?_, ?_, (getPort_portDown_up 3 down).1, (getPort_portDown_up 3 down).2,
      fun j hj => (getPort_portDown_other _ 3 hj).trans (getPort_setPort_other _ _ hj), sameRegsBut_portDown (laneLost s k lane) k 3, ?_⟩
    · rw [portState_portDown, if_pos ⟨rfl, down⟩]
    · rw [cause_portDown _ _ _ (by decide), if_pos ⟨rfl, down⟩]
    · exact portDown_shape (laneLost s k lane) k 3
  case source =>
    have fld_b : (if b = 1 then Fld.FAB_ENG_SRC_B else Fld.FAB_ENG_SRC_A) = laserFld b := by
      rcases (by omega : b = 0 ∨ b = 1) with rfl | rfl <;> rfl
    dsimp only
    rw [fld_b]
    obtain ⟨fits, width, -, -⟩ := laserFld_apart hb
    intro lit
    have kept (k : Nat) : portState (setFld s (Reg.FAB_ENG e) (laserFld b) 2) k = portState s k :=
      fld_setFld_other s _ _ _ (pstat_ne_eng k he)
    refine ⟨fun standby units => ?_, fun away => ?_⟩
    · obtain ⟨r, recs, code, sev, obj, source, light⟩ := sourceReplaced_record s e b uw
      obtain ⟨failed, spare, place⟩ := fld_sourceReplaced s e uw hb
      exact ⟨_, r, laserSourceFailure_replaced uw he hb lit standby units, recs, code, sev, obj, source, light, failed, spare, place,
        sameRegsBut_sourceReplaced s e b uw, sourceReplaced_shape ..⟩
    · refine ⟨_, laserSourceFailure_dark uw he hb lit away, ?_, fun k _ => ⟨?_, fun mem up => ?_⟩⟩
      · exact (onlyField_setFld s _ _ 2 fits (by rw [width]; decide)).congr rfl (rd_portsDark_eng _ _ he)
      · exact (portState_portsDark _ _ k).trans (if_congr (and_congr_right' (by rw [kept])) rfl (kept k))
      · exact cause_portsDark mem ((kept k).trans up)
  case sourceC =>
    intro a c dark ready
    have kept (k : Nat) : portState (spareSourceFailed s e) k = portState s k :=
      (fld_setFld_other _ _ _ _ (pstat_ne_eng k he)).trans (fld_setFld_other s _ _ _ (pstat_ne_eng k he))
    have word := rd_portsDark_eng (spareSourceFailed s e) (litBySpare s e) he
    refine ⟨_, laserSourceFailure_spare uw he ready, ?_, ?_, ?_, ?_, fun k _ => ⟨?_, fun mem up => ?_⟩⟩
    · rw [fld, word]
      exact (fld_setFld_apart _ _ _ _ _ (by decide) (by decide)).trans (fld_setFld_same s _ _ _ (by decide))
    · rw [fld, word]
      exact fld_setFld_same _ _ _ _ (by decide)
    · rw [fld, word]
      exact (fld_setFld_apart _ _ _ _ _ (by decide) (by decide)).trans (fld_setFld_apart s _ _ _ _ (by decide) (by decide))
    · rw [fld, word]
      exact (fld_setFld_apart _ _ _ _ _ (by decide) (by decide)).trans (fld_setFld_apart s _ _ _ _ (by decide) (by decide))
    · exact (portState_portsDark _ _ k).trans (if_congr (and_congr_right' (by rw [kept])) rfl (kept k))
    · exact cause_portsDark mem ((kept k).trans up)
  case up =>
    obtain ⟨up, rs, n, step⟩ := portTrainingDone_up hk training held wait main mine told far
    refine ⟨_, step, ?_, ?_, ?_, rd_trained_pid .., rd_trained_lmap .., ?_, fun j hj => ?_, sameRegsBut_trained s k tr r up rs n, ?_⟩
    · rw [portState, fld, rd_trained_pstat, state_upWord]
    · exact (getPort_congr (t := trained s k tr r up rs n) (s := setPort s k _) (ports_trained ..) _).trans (getPort_setPort s k _)
    · rw [fld, rd_trained_pstat, spare_upWord]
    · rw [fld, rd_trained_pstat, valid_upWord]
    · exact (getPort_congr (t := trained s k tr r up rs n) (s := setPort s k _) (ports_trained ..) _).trans (getPort_setPort_other s _ hj)
    · exact trained_shape s k tr r up rs n
  case down =>
    obtain ⟨r, recs, code, obj, cause⟩ := stayDown_record (wr s (Reg.FAB_LMAPk k) (laneMap tr.lanes (0, 0))) k
      (if tr.ownLit && portLit s k then 1 else 5)
    refine ⟨_, r, portTrainingDone_down hk training held main, recs, code, obj, cause, portState_stayDown .., ?_, unseen_shape ..⟩
    exact SameRegsBut.trans (sameRegsBut_wr s (Reg.FAB_LMAPk k) (laneMap tr.lanes (0, 0))) (sameRegsBut_stayDown _ k _) (by simp) (by simp)
  case dark =>
    refine ⟨_, receiveDarkTimeout_dark hk enabled, ?_, List.getLast?_concat .., ?_, fun j hj => ?_⟩
    · exact congrArg Port.pulses (getPort_setPort (portDown s k 1) k { getPort (portDown s k 1) k with pulses := true })
    · exact (portState_portDown s k k 1).trans (by simp)
    · exact (getPort_setPort_other (portDown s k 1) _ hj).trans (getPort_portDown_other s 1 hj)
  case light =>
    refine ⟨_, lightDetected_light hk enabled, ?_⟩
    by_cases trains : portState s k = 0 ∧ (getPort s k).wentDown = false
    · simp only [if_pos trains]
      exact ⟨getPort_setPort s k _, ⟨portState_beginTraining .., out_beginTraining (lightBack s k) k⟩,
        fun j hj => getPort_setPort_other s _ hj, sameRegsBut_beginTraining (lightBack s k) k, beginTraining_shape s k _⟩
    · simp only [if_neg trains]
      exact ⟨getPort_setPort .., ⟨rfl, rfl⟩, fun j hj => getPort_setPort_other s _ hj, sameRegsBut_refl _ _, rfl⟩
  case retrain =>
    let p := (getPort s k).afresh []
    exact ⟨_, fabPctlRetrain_trains hk enabled down went, onlyField_beginTraining_state (setPort s k p) k,
      onlyField_beginTraining_units (setPort s k p) k, sameRegsBut_beginTraining (setPort s k p) k, getPort_setPort s k p,
      fun j hj => getPort_setPort_other s p hj, out_beginTraining (setPort s k p) k, beginTraining_shape s k p⟩

end Sys2Proof.Machine
end

section
/-! A beat's waits, tasks and collectives leave the packets that wait for the fabric's ports alone: every function that the beat may run
once HUM_BEAT has advanced (R265, R295, R300, R306, R480). What a collective sends becomes a packet at the next beat (log entry 63). -/

namespace Sys2Proof.Machine

variable {s : State}

/-- Of two states the packets that wait are those of the one chosen. -/
@[simp] theorem fabWait_ite (c : Prop) [Decidable c] (s t : State) : (if c then s else t).fabWait = if c then s.fabWait else t.fabWait :=
  apply_ite State.fabWait c s t

/-- Steps that each leave the packets that wait alone leave them alone together. -/
theorem foldl_fabWait {α : Type} {f : State → α → State} (h : ∀ s a, (f s a).fabWait = s.fabWait) (l : List α) (s : State) :
    (l.foldl f s).fabWait = s.fabWait :=
  List.foldlRecOn (motive := fun t => t.fabWait = s.fabWait) l f rfl fun t kept a _ => (h t a).trans kept

@[simp] theorem foldl_emit_fabWait {α : Type} (g : State → α → Output) (l : List α) (s : State) :
    (l.foldl (fun s a => emit s (g s a)) s).fabWait = s.fabWait := foldl_fabWait (fun s a => emit_fabWait s (g s a)) l s

/-! ### Contexts, memory and completion -/

@[simp] theorem raiseInstr_fabWait (x l pc code sev obj d0 d1 d2 d3 : Nat) :
    (raiseInstr s x l pc code sev obj d0 d1 d2 d3).fabWait = s.fabWait := rfl
@[simp] theorem raiseCtx_fabWait (x code sev obj d0 d1 d2 d3 : Nat) : (raiseCtx s x code sev obj d0 d1 d2 d3).fabWait = s.fabWait := rfl
@[simp] theorem raisePart_fabWait (p code sev obj d0 d1 d2 d3 : Nat) : (raisePart s p code sev obj d0 d1 d2 d3).fabWait = s.fabWait := rfl
@[simp] theorem raiseGrp_fabWait (g : Grp) (code obj d0 d1 d2 d3 : Nat) : (raiseGrp s g code obj d0 d1 d2 d3).fabWait = s.fabWait := rfl
@[simp] theorem refuseAccess_fabWait (x a : Nat) : (refuseAccess s x a).fabWait = s.fabWait := rfl

@[simp] theorem faultCtx_fabWait (x : Nat) : (faultCtx s x).fabWait = s.fabWait := by rw [faultCtx_frame]
@[simp] theorem stopPart_fabWait (p : Nat) : (stopPart s p).fabWait = s.fabWait :=
  foldl_fabWait (fun _ _ => by rw [stopCtx_frame]) _ _

@[simp] theorem combTouch_fabWait (write strm : Bool) (a n : Nat) : (combTouch s write strm a n).fabWait = s.fabWait :=
  (congrArg State.fabWait (show combTouch s write strm a n = _ from onlyComb_combTouch s write strm a n)).trans rfl

@[simp] theorem storeBytes_fabWait (a : Nat) (bs : List Byte) : (storeBytes s a bs).fabWait = s.fabWait := by rw [storeBytes_frame]

@[simp] theorem markNf_fabWait (x h : Nat) (bad : Bool) : (markNf s x h bad).fabWait = s.fabWait := by
  unfold markNf
  extract_lets
  split <;> rfl

/-! ### Device-started reductions and the vote -/

@[simp] theorem countCol_fabWait (p : Nat) (aborted : Bool) : (countCol s p aborted).fabWait = s.fabWait := by
  unfold countCol
  split <;> rfl

@[simp] theorem addContrib_fabWait (k : Nat) (port : Option Nat) (sig : Sig) (vals : List ℤ) (bad : List Bool) :
    (addContrib s k port sig vals bad).fabWait = s.fabWait := rfl

@[simp] theorem endExchange_fabWait (p : Nat) : (endExchange s p).fabWait = s.fabWait := by
  unfold endExchange
  dsimp only
  (repeat' split) <;> simp

@[simp] theorem devWagAborted_fabWait (p : Nat) (lost : Bool) : (devWagAborted s p lost).fabWait = s.fabWait := by
  unfold devWagAborted
  split <;> simp

@[simp] theorem beginDev_fabWait (slot : Nat) (d : DevWag) : (beginDev s slot d).fabWait = s.fabWait := by
  unfold beginDev
  dsimp only
  (repeat' split) <;> simp

@[simp] theorem pumpDev_fabWait (slot : Nat) : (pumpDev s slot).fabWait = s.fabWait := by
  unfold pumpDev
  dsimp only
  (repeat' split) <;> simp

@[simp] theorem startOr_fabWait (p : Nat) (owner : WagOwner) (vals : List Nat) (o : Output) :
    (startOr s p owner vals o).fabWait = s.fabWait := by
  unfold startOr enterDev
  dsimp only
  (repeat' split) <;> simp

@[simp] theorem castVote_fabWait (p : Nat) : (castVote s p).fabWait = s.fabWait := by
  unfold castVote noteNonfinite
  dsimp only
  (repeat' split) <;> simp

/-! ### An instruction completes -/

@[simp] theorem settlePoison_fabWait (x l : Nat) : (settlePoison s x l).fabWait = s.fabWait := by
  unfold settlePoison faultInstr haltHandler
  (repeat' split) <;> simp

@[simp] theorem completeFlight_fabWait (x l id : Nat) : (completeFlight s x l id).fabWait = s.fabWait := by
  unfold completeFlight
  (repeat' split) <;> simp

@[simp] theorem finishComm_fabWait (x l id : Nat) (ws : List (GReg × Word)) : (finishComm s x l id ws).fabWait = s.fabWait := by
  have reg : ∀ (s : State) (w : GReg × Word), (writeG s x l w.1 w.2).fabWait = s.fabWait := fun s w => by
    unfold writeG
    split <;> rfl
  exact (completeFlight_fabWait ..).trans (foldl_fabWait reg ws s)

@[simp] theorem finishCol_fabWait (o : Nat × Nat × Nat) (ws : List (GReg × Word)) (st : Word) :
    (finishCol s o ws st).fabWait = s.fabWait := by
  unfold finishCol
  (repeat' split) <;> simp

/-! ### Flags and rings -/

@[simp] theorem wakeWait_fabWait (e : Nat × Nat × Flight) : (wakeWait s e).fabWait = s.fabWait := finishComm_fabWait ..

@[simp] theorem judgeFlag_fabWait (f : Nat) : (judgeFlag s f).fabWait = s.fabWait := by
  have keep : ((liveWaits s (waitsOn f false)).foldl wakeWait s).fabWait = s.fabWait := foldl_fabWait (fun _ _ => wakeWait_fabWait _) _ _
  unfold judgeFlag
  dsimp only
  (repeat' split) <;> simp [keep]

@[simp] theorem setFlagName_fabWait (x name source rank : Nat) : (setFlagName s x name source rank).fabWait = s.fabWait := by
  unfold setFlagName setFlagAt
  dsimp only
  rw [judgeFlag_fabWait]
  (repeat' split) <;> simp

@[simp] theorem placePad_fabWait (num n k : Nat) : (placePad s num n k).fabWait = s.fabWait := by
  simp [placePad]

@[simp] theorem placeWrap_fabWait (num n : Nat) : (placeWrap s num n).fabWait = s.fabWait := by
  unfold placeWrap
  split <;> simp

@[simp] theorem placeMsg_fabWait (num n : Nat) (h : MsgHdr) (seq : Nat) (payload : List Byte) :
    (placeMsg s num n h seq payload).fabWait = s.fabWait := by
  simp [placeMsg]

@[simp] theorem acceptMsg_fabWait (num : Nat) (m : RingMsg) (intact : Bool) : (acceptMsg s num m intact).fabWait = s.fabWait := by
  unfold acceptMsg advanceRing
  dsimp only
  (repeat' split) <;> simp

@[simp] theorem ringArrive_fabWait (num : Nat) (m : RingMsg) (intact : Bool) : (ringArrive s num m intact).1.fabWait = s.fabWait := by
  have judged : (judgeArrival s (getRing s num) m).1.fabWait = s.fabWait := by
    unfold judgeArrival
    dsimp only
    split <;> simp
  unfold ringArrive
  dsimp only
  (repeat' split) <;> simp [judged]

/-! ### Bulk collectives -/

@[simp] theorem pump_fabWait (slot : Nat) : (pump s slot).fabWait = s.fabWait := by
  have stage (s : State) (st : StageId) : (pumpStage slot s st).fabWait = s.fabWait := by
    unfold pumpStage emitChunk
    dsimp only
    (repeat' split) <;> simp
  unfold pump
  split
  · exact foldl_fabWait stage _ _
  · rfl

@[simp] theorem tensorWrite_fabWait (v : Desc × Nat) (j : Nat) (bs : List Byte) : (tensorWrite s v j bs).fabWait = s.fabWait := by
  have runs (rs : List (Nat × Nat)) : ∀ (bs : List Byte) (s : State), (tensorWriteRuns s bs rs).fabWait = s.fabWait := by
    induction rs with
    | nil => exact fun _ _ => rfl
    | cons r rs ih => exact fun bs s => ih _ _
  exact runs _ _ _

@[simp] theorem tensorStore_fabWait (x type : Nat) (v : Desc × Nat) (j : Nat) (bs : List Byte) :
    (tensorStore s x type v j bs).fabWait = s.fabWait :=
  (foldl_fabWait (fun _ _ => combTouch_fabWait ..) _ _).trans (by simp)

@[simp] theorem signalChunk_fabWait (slot k : Nat) : (signalChunk s slot k).fabWait = s.fabWait := by
  unfold signalChunk markSignalled
  dsimp only
  (repeat' split) <;> simp

@[simp] theorem writeChunk_fabWait (slot : Nat) (w : Nat × List Byte) : (writeChunk slot s w).fabWait = s.fabWait := by
  unfold writeChunk
  dsimp only
  (repeat' split) <;> simp

@[simp] theorem noteAgreed_fabWait (slot : Nat) : (noteAgreed s slot).fabWait = s.fabWait := by
  unfold noteAgreed noteLaggard
  dsimp only
  (repeat' split) <;> simp

@[simp] theorem progress_fabWait (slot : Nat) : (progress s slot).fabWait = s.fabWait := by
  unfold progress doWrites
  dsimp only
  (repeat' split) <;> simp [foldl_fabWait (fun _ _ => writeChunk_fabWait ..)]

/-! ### Aborts, and the naming of a mismatch -/

@[simp] theorem deviceAbort_fabWait (p : Nat) (why : AbortReason) : (deviceAbort s p why).fabWait = s.fabWait := by
  unfold deviceAbort
  dsimp only
  (repeat' split) <;> simp

@[simp] theorem dropContribs_fabWait (g : Grp) (seq : Nat) : (dropContribs s g seq).fabWait = s.fabWait := by
  unfold dropContribs
  split <;> rfl

@[simp] theorem undefineDst_fabWait (geo : Geo) (b : Bulk) : (undefineDst s geo b).fabWait = s.fabWait := by
  unfold undefineDst
  split
  · exact foldl_fabWait (fun s k => tensorWrite_fabWait (s := (drawBytes s _).2) ..) _ _
  · rfl

@[simp] theorem endAborted_fabWait (slot : Nat) (waggle : Bool) (seq : Nat) (why : AbortReason) :
    (endAborted s slot waggle seq why).fabWait = s.fabWait := by
  unfold endAborted endWag
  dsimp only
  (repeat' split) <;> simp

@[simp] theorem enterNaming_fabWait (slot : Nat) (n : Naming) (own : Option Sig) : (enterNaming s slot n own).fabWait = s.fabWait := by
  unfold enterNaming
  dsimp only
  (repeat' split) <;> simp

@[simp] theorem startNaming_fabWait (slot : Nat) : (startNaming s slot).fabWait = s.fabWait := by
  unfold startNaming
  dsimp only
  (repeat' split) <;> simp

@[simp] theorem detectAbort_fabWait (slot : Nat) (waggle : Bool) (seq : Nat) (why : AbortReason) :
    (detectAbort s slot waggle seq why).fabWait = s.fabWait := by
  unfold detectAbort applyAbort
  dsimp only
  (repeat' split) <;> simp

@[simp] theorem namingStep_fabWait (slot : Nat) (n : Naming) (vals : List ℤ) : (namingStep s slot n vals).fabWait = s.fabWait := by
  unfold namingStep
  dsimp only
  split <;> simp

@[simp] theorem wagReturn_fabWait (slot : Nat) (sig : Sig) (vals : List ℤ) (bad : List Bool) :
    (wagReturn s slot sig vals bad).fabWait = s.fabWait := by
  unfold wagReturn finishWag
  dsimp only
  (repeat' split) <;> simp

@[simp] theorem wagDeliver_fabWait (k : Nat) (sig : Sig) (vals : List ℤ) (bad : List Bool) :
    (wagDeliver s k sig vals bad).fabWait = s.fabWait := by
  unfold wagDeliver
  dsimp only
  (repeat' split) <;> simp

@[simp] theorem wagJoin_fabWait (k : Nat) : (wagJoin s k).fabWait = s.fabWait := by
  unfold wagJoin
  dsimp only
  (repeat' split) <;> simp

/-- A vote that is due is cast, and the reductions that it completes join (R247, R317). -/
@[simp] theorem tryVote_fabWait (p : Nat) : (tryVote s p).fabWait = s.fabWait := by
  have join (s : State) : (joinAll s).fabWait = s.fabWait := foldl_fabWait (fun _ _ => wagJoin_fabWait _) _ _
  simp [tryVote, join]

/-! ### Chunks that were kept for a collective -/

@[simp] theorem failFinal_fabWait (slot : Nat) : (failFinal s slot).fabWait = s.fabWait := by
  unfold failFinal
  dsimp only
  (repeat' split) <;> simp

@[simp] theorem takeChunk_fabWait (slot : Nat) (c : BulkChunk) : (takeChunk s slot c).fabWait = s.fabWait := by
  unfold takeChunk
  dsimp only
  split <;> simp

@[simp] theorem judgeChunk_fabWait (slot : Nat) (c : BulkChunk) : (judgeChunk s slot c).fabWait = s.fabWait := by
  unfold judgeChunk failCheck
  dsimp only
  (repeat' split) <;> simp

@[simp] theorem arriveChunk_fabWait (slot : Nat) (c : BulkChunk) : (arriveChunk s slot c).fabWait = s.fabWait := by
  unfold arriveChunk
  dsimp only
  (repeat' split) <;> simp

@[simp] theorem beginBulk_fabWait (slot : Nat) (b : Bulk) : (beginBulk s slot b).fabWait = s.fabWait := by
  unfold beginBulk takeStaged
  dsimp only
  rw [foldl_fabWait fun _ _ => arriveChunk_fabWait ..]
  simp

@[simp] theorem beginGather_fabWait (p : Nat) : (beginGather s p).fabWait = s.fabWait := by
  unfold beginGather
  dsimp only
  (repeat' split) <;> simp

/-! ### The gradient exchange -/

@[simp] theorem emitGrad_fabWait (p : Nat) (g : Grp) (b : Bulk) (first : Bool) (o : GradOut) :
    (emitGrad s p g b first o).fabWait = s.fabWait := by
  simp [emitGrad]

@[simp] theorem pumpGrad_fabWait (p slot : Nat) : (pumpGrad s p slot).fabWait = s.fabWait := by
  have stage (s : State) (st : StageId) : (pumpGradStage p slot s st).fabWait = s.fabWait := by
    unfold pumpGradStage
    dsimp only
    (repeat' split) <;> simp [foldl_fabWait (fun _ _ => emitGrad_fabWait ..)]
  unfold pumpGrad noteEntered
  dsimp only
  (repeat' split) <;> simp [foldl_fabWait stage]

@[simp] theorem failResidue_fabWait (p slot src round port chunk check want got : Nat) :
    (failResidue s p slot src round port chunk check want got).fabWait = s.fabWait := by
  unfold failResidue
  dsimp only
  split <;> simp

@[simp] theorem gradProgress_fabWait (p slot : Nat) : (gradProgress s p slot).fabWait = s.fabWait := by
  have present (s : State) (v : Nat × GCargo) : (presentOne p slot s v).fabWait = s.fabWait := by
    unfold presentOne
    split <;> simp
  unfold gradProgress
  split
  · simp [foldl_fabWait present]
  · rfl

@[simp] theorem ownUnit_fabWait (p x : Nat) (r : ManReduce) (comp u : Nat) : (ownUnit s p x r comp u).2.fabWait = s.fabWait := by
  unfold ownUnit
  split
  · rfl
  · dsimp only
    split
    · rfl
    · exact storeBytes_fabWait ..

@[simp] theorem enterUnit_fabWait (p slot x : Nat) (r : ManReduce) (u : Nat) : (enterUnit p slot x r s u).fabWait = s.fabWait := by
  unfold enterUnit
  dsimp only
  (repeat' split) <;> simp [foldl_fabWait (fun _ _ => combTouch_fabWait ..)]

@[simp] theorem takeGrad_fabWait (p slot : Nat) (c : GradChunk) : (takeGrad s p slot c).fabWait = s.fabWait := by
  unfold takeGrad
  dsimp only
  (repeat' split) <;> simp

@[simp] theorem arriveGrad_fabWait (p slot : Nat) (c : GradChunk) : (arriveGrad s p slot c).fabWait = s.fabWait := by
  have judge (s : State) : (judgeGrad s p slot c).fabWait = s.fabWait := by
    unfold judgeGrad
    split <;> simp
  unfold arriveGrad
  dsimp only
  (repeat' split) <;> simp [judge]

@[simp] theorem enterAborted_fabWait (p slot why : Nat) : (enterAborted s p slot why).fabWait = s.fabWait := by
  simp [enterAborted]

@[simp] theorem beginExchange_fabWait (p : Nat) : (beginExchange s p).fabWait = s.fabWait := by
  unfold beginExchange
  split
  · dsimp only
    split
    · exact enterAborted_fabWait ..
    · split
      · exact enterAborted_fabWait ..
      · rw [foldl_fabWait fun _ _ => arriveGrad_fabWait .., gradProgress_fabWait, foldl_fabWait fun _ _ => enterUnit_fabWait ..]
        rfl
  · rfl

/-! ### The beat -/

@[simp] theorem collectiveTick_fabWait : (collectiveTick s).fabWait = s.fabWait := by
  have start (s : State) (p : Nat) : (tryVote (startPending s p) p).fabWait = s.fabWait := by
    unfold startPending startDevBulk
    dsimp only
    (repeat' split) <;> simp
  unfold collectiveTick joinAll
  rw [foldl_fabWait fun _ _ => wagJoin_fabWait _, foldl_fabWait start]
  exact foldl_fabWait (fun _ _ => by simp) _ _

@[simp] theorem throttleEpisode_fabWait (cause : Nat) (temps : List ℤ) : (throttleEpisode s cause temps).fabWait = s.fabWait := by
  unfold throttleEpisode raiseDev
  split <;> simp

@[simp] theorem setDuties_fabWait (l : List Nat) : (setDuties s l).fabWait = s.fabWait := foldl_fabWait (fun _ _ => setFld_fabWait ..) _ _

@[simp] theorem throttleTick_fabWait (b : BeatInputs) : (throttleTick s b).fabWait = s.fabWait := by
  simp [throttleTick, causeSync]

@[simp] theorem tickTasks_fabWait : (tickTasks s).fabWait = s.fabWait := by
  have ctx (s : State) (x : Nat) : (tickCtx s x).fabWait = s.fabWait := by
    unfold tickCtx
    split <;> rfl
  have slice (s : State) (p : Nat) : (tickSlice s p).fabWait = s.fabWait := by
    unfold tickSlice
    dsimp only
    (repeat' split) <;> rfl
  have seq (s : State) (x l : Nat) : (settleBat s x l).fabWait = s.fabWait := by
    unfold settleBat seqExec
    dsimp only
    (repeat' split) <;> rfl
  unfold tickTasks
  rw [foldl_fabWait fun s x => foldl_fabWait (fun s l => seq s x l) _ _, foldl_fabWait slice, foldl_fabWait ctx]

end Sys2Proof.Machine
end

section
/-! BEAT_TICK: a remote set (R367) whose route names a port that the device does not have still waits when the collectives see the beat. -/

namespace Sys2Proof.Machine

/-! ### What is sent becomes a packet -/

/-- A packet of VC5 that the device itself sends to another waits, or goes by the escape port of its route (R368, R369). -/
theorem fateOf_vc5 {s : State} {w : Transit} {r : Route} (via : w.via = none) (vc : w.pkt.vc = 5) (route : routeOf s w.pkt = some r)
    (far : r.isLocal = false) (own : w.inPort = none) (fresh : w.resent = false) :
    fateOf s w = .waits ∨ fateOf s w = .goes r.escPort true := by
  by_cases takes : portTakes s r.escPort true w.pkt = true
  · right
    simp [fateOf, via, vc, route, far, own, chooseHop, escapePort, fresh, adaptiveVc, takes]
  · left
    simp [fateOf, via, vc, route, far, own, chooseHop, escapePort, fresh, adaptiveVc, takes]

section
variable {s : State} {x r n a : Nat} (other : r ≠ ownRank s x) (addr : rankAddr s r = some a) (away : ownAddr s ≠ some a)
include other addr away

theorem injectOut_remoteSet : injectOut s (.remoteSet x r n) = handOver (openPayload s 4344).2 (ofCtx s x) none false
    (ownPacket (openPayload s 4344).2 5 a (openPayload s 4344).1) := by
  simp only [injectOut, if_neg other, toRankOpen, addr, toAddrOpen, if_neg away]

end

/-- The packet of a remote set waits where its route names no port of the device. -/
theorem pushOut_stays {s : State} {x r n a : Nat} {rt : Route} (out : s.out.drop s.handed = [.remoteSet x r n]) (wait : s.fabWait = [])
    (other : r ≠ ownRank s x) (addr : rankAddr s r = some a) (away : ownAddr s ≠ some a)
    (route : Sparse.get none s.routes (stampOf s 5 % 2 * 16384 + a) = some rt) (far : rt.isLocal = false) (beyond : 16 ≤ rt.escPort) :
    (pushOut s).fabWait ≠ [] := by
  let s1 : State := { s with handed := s.out.length }
  let p := ownPacket (openPayload s1 4344).2 5 a (openPayload s1 4344).1
  let w : Transit := ⟨s.nextPkt, none, false, false, p, none, (ofCtx s x).part, (ofCtx s x).slot, false⟩
  let t := handOver (openPayload s1 4344).2 (ofCtx s x) none false p
  have pushed : pushOut s = pumpFabric t := by
    rw [pushOut, out]
    exact congrArg pumpFabric (injectOut_remoteSet (s := s1) (n := n) other addr away)
  have waits : t.fabWait = [w] := congrArg (· ++ [w]) wait
  have stays : pumpFabric t = t := pumpFabric_stays waits <|
    (fateOf_vc5 (s := t) (w := w) rfl rfl route far rfl rfl).imp id fun fate => ⟨_, _, beyond, fate⟩
  rw [pushed, stays, waits]
  exact List.cons_ne_nil _ _

/-! ### The rest of the beat leaves it waiting -/

theorem flushC0_fabWait (s : State) : (flushC0 s).fabWait = s.fabWait :=
  foldl_fabWait (fun s k => by dsimp only; split <;> rfl) _ _

theorem secFrame_fabWait (s : State) : (secFrame s).1.fabWait = s.fabWait := by
  unfold secFrame
  dsimp only
  split
  · rfl
  · dsimp only
    split
    · rw [pushEvent_frame]
      rfl
    · rfl

theorem frameOut_fabWait (n : Nat) (s : State) : (frameOut n s).1.fabWait = s.fabWait := by
  induction n generalizing s with
  | zero => rfl
  | succ n ih =>
    unfold frameOut
    split
    · rfl
    · split
      · exact (ih _).trans (secFrame_fabWait s)
      · exact ih s

theorem probeAddrs_fabWait (s : State) : (probeAddrs s).fabWait = s.fabWait := by
  have probe (s : State) (a : Nat) :
      (if (frameOut 1 s).2 then emit (frameOut 1 s).1 (.addressProbe a) else (frameOut 1 s).1).fabWait = s.fabWait := by
    split <;> exact frameOut_fabWait 1 s
  unfold probeAddrs
  split
  · exact foldl_fabWait probe _ _
  · rfl

theorem slewTick_fabWait (s : State) : (slewTick s).fabWait = s.fabWait := by
  unfold slewTick
  dsimp only
  split <;> rfl

theorem cleanTick_fabWait (s : State) : (cleanTick s).fabWait = s.fabWait :=
  foldl_fabWait (fun s k => by split <;> rfl) _ _

theorem cellTick_fabWait (s : State) : (cellTick s).fabWait = s.fabWait := by
  unfold cellTick
  dsimp only
  (repeat' split) <;> simp

theorem outTick_fabWait (s : State) : (outTick s).fabWait = s.fabWait := by
  unfold outTick
  (repeat' split) <;> rfl

/-- The state of a beat before its collectives, throttle and tasks: what was sent has entered the fabric, and HUM_BEAT has advanced. -/
def beatBegun (s : State) : State :=
  let s := probeAddrs (flushC0 (pushOut s))
  outTick (cellTick (cleanTick (slewTick (wr s Reg.HUM_BEAT (rd s Reg.HUM_BEAT + 1)))))

theorem beatBegun_fabWait (s : State) : (beatBegun s).fabWait = (pushOut s).fabWait := by
  rw [beatBegun, outTick_fabWait, cellTick_fabWait, cleanTick_fabWait, slewTick_fabWait, wr_fabWait, probeAddrs_fabWait, flushC0_fabWait]

/-- With HUMCLK LOCKED a beat leaves waiting what waits once all that was sent has entered the fabric. -/
theorem beatTick_fabWait {s t : State} {b : BeatInputs} (locked : clkState s 24 = 2) (step : exec (.beatTick b) s = .next t) :
    t.fabWait = (pushOut s).fabWait := by
  have runs : exec (.beatTick b) s = .next (tickTasks (throttleTick (collectiveTick (beatBegun s)) b)) := if_pos locked
  rw [Host.Outcome.next.inj (step.symm.trans runs), tickTasks_fabWait, throttleTick_fabWait, collectiveTick_fabWait, beatBegun_fabWait]

/-- A remote set for rank 1 was sent; the route to its device names port 16, which the device does not have. -/
def setBeyondPorts : State :=
  { setPortState (Tests.sendOut (.remoteSet 0 1 5)) 16 2 with routes := [(9, some ⟨1, 16, false, 1⟩)] }

theorem setBeyondPorts_premises :
    clkState setBeyondPorts 24 = 2 ∧ setBeyondPorts.out.drop setBeyondPorts.handed = [.remoteSet 0 1 5] ∧ 1 ≠ ownRank setBeyondPorts 0
    ∧ setBeyondPorts.fabWait = [] ∧ rankAddr setBeyondPorts 1 = some 9 ∧ ownAddr setBeyondPorts ≠ some 9
    ∧ Sparse.get none setBeyondPorts.routes (stampOf setBeyondPorts 5 * 16384 + 9) = some ⟨1, 16, false, 1⟩
    ∧ Sparse.get none setBeyondPorts.routes (stampOf setBeyondPorts 5 % 2 * 16384 + 9) = some ⟨1, 16, false, 1⟩ := by
  decide +kernel

/-- Refutes O38: nothing bounds the port of a route, and the packet of a remote set routed to port 16 still waits after the beat. -/
theorem not_beatTicks : ¬ Obligations.BeatTicks := by
  unfold Obligations.BeatTicks
  rintro ⟨-, sends, -⟩
  obtain ⟨locked, out, other, wait, addr, away, held, route⟩ := setBeyondPorts_premises
  obtain ⟨u, p, tr, step, -, -, -, -, -, -, -, gone, -⟩ := sends setBeyondPorts ⟨0, 0, []⟩ 0 1 5 9 ⟨1, 16, false, 1⟩ locked out wait
    other addr away held rfl (by decide +kernel) (by decide +kernel) (by decide +kernel) (by decide +kernel)
  have left := beatTick_fabWait locked step
  rw [tickTasks_fabWait, throttleTick_fabWait, collectiveTick_fabWait, gone] at left
  exact pushOut_stays out wait other addr away route rfl le_rfl left.symm

end Sys2Proof.Machine
end
